-- ==== Sys2Proof/Word.lean ====
section
/-! DEFINITION. Sys2Proof/Word.lean: the word types of the package and the type of a sparse table. -/
namespace Sys2Proof

/-- One byte, as memory and the wire carry it. -/
abbrev Byte := BitVec 8
/-- One 16-bit field. -/
abbrev Half := BitVec 16
/-- One register (R23: registers are 32 bits wide). -/
abbrev Word := BitVec 32
/-- One 64-bit quantity (two adjacent registers, R23). -/
abbrev DWord := BitVec 64

/-- A sparse table: pairs of a key and an entry, keys strictly rising, no entry equal to the table's default.
`SMap.get`, `SMap.put` and the canonical form `SMap.wf` stand in Machine/Tables.lean. -/
abbrev SMap (α : Type) := List (Nat × α)

end Sys2Proof
end

