-- ==== Sys2Proof/Syntax.lean ====
section
/-! DEFINITION. Sys2Proof/Syntax.lean: the commands of the package: one constructor per row of
spec/opcode_table.json, in the table's order. A command is a register write, a message that arrives, a timer that
runs out or an engine's own event; its operands carry what comes from outside the state (who, which, what value,
what was measured or received). -/
namespace Sys2Proof

/-- A cove number. -/
abbrev Cove := Fin 8
/-- A fabric port index (Table 11.1). -/
abbrev Port := Fin 36
/-- A 16-bit node ID (R411). -/
abbrev Node := BitVec 16

/-- Registers of a cove as a function reaches them: PF0 is function 0, and VF c is function c + 1 (R11). -/
structure CoveAccess where
  fn : Fin 9
  cove : Cove
  deriving DecidableEq, Repr

/-- What a control frame that arrives shows of its protection: the counter that opens its body, and whether its tag verifies
(R520). -/
structure CtlSeal where
  counter : DWord
  authentic : Bool
  deriving DecidableEq, Repr

/-- How an access was found at a read (R258, R259): its granule, the symbols that have failed, each with its flipped bits
(0 to 63 data, 64 to 67 check), and the errors that the stack reports as corrected on-die. -/
structure CellFault where
  granule : Nat
  flips : List (Fin 68 × Byte) := []
  onDie : Nat := 0
  deriving DecidableEq, Repr

/-- A Basin request: transaction header and payload (Table 10.4), with the route header's incarnation, GCNT and SSN
(Table 11.4) and the VL it travels on. `pmask` is the PMASK of a request with POISON; `reserved` says that a reserved
field is not zero. -/
structure BasinReq where
  opc : Nat
  flag : Bool := false
  pmask : Option Nat := none
  aop : Nat := 0
  srcNode : Nat
  dstNode : Nat
  srcCove : Nat
  window : Nat
  tag : Nat := 0
  len : Nat := 0
  firstBe : Nat := 0xFF
  lastBe : Nat := 0xFF
  offset : Nat := 0
  ctr : Nat := 0
  data : List Byte := []
  reserved : Bool := false
  inc : Nat := 0
  ssn : Nat := 0
  gcnt : Nat := 1
  vl : Nat := 0
  deriving DecidableEq, Repr

/-- A Basin response (Tables 10.3 and 10.4). -/
structure BasinResp where
  opc : Nat
  status : Nat
  srcNode : Nat
  dstNode : Nat
  srcCove : Nat := 0
  window : Nat := 0
  tag : Nat
  ssn : Nat
  data : List Byte := []
  inc : Nat := 0
  deriving DecidableEq, Repr

/-- What a numbered link frame carries: a request, a response, or a resync frame that names the connection by the
sender's and the receiver's node and the sender's port (R422). -/
inductive Packet where
  | request (r : BasinReq)
  | response (r : BasinResp)
  | resyncReq (src dst port : Nat)
  | resyncAck (src dst port lsn : Nat)
  /-- An ACK or KEEPALIVE frame, which carries ACK_LSN alone and no number. -/
  | control
  deriving DecidableEq, Repr

/-- A numbered frame as it arrives: link header, route header and contents (Tables 11.4 and 11.5). -/
structure LinkFrame where
  lsn : Nat
  ackLsn : Nat
  hops : Nat
  vl : Nat
  sub : Nat
  dim : Nat
  packet : Packet
  /-- SRC_INC of the route header; of a control frame its counter (R520). -/
  inc : Nat := 0
  counter : Nat := 0
  deriving DecidableEq, Repr

/-- How a frame arrived: sound, with an FEC-uncorrectable codeword, or with a failed tag (R417, R421). -/
inductive FrameHealth where | good | uncorrectable | badTag
  deriving DecidableEq, Repr

/-- An IDENT (R441, R519). `authentic` says that its tag is correct under K_ID; `blocks` gives the free blocks of the
sixteen classes. -/
structure IdentFrame where
  node : Nat
  strap : Nat
  inc : Nat
  port : Nat
  native : Bool
  blocks : List Nat
  authentic : Bool
  /-- N, the sender's connection nonce (R519). -/
  nonce : Nat := 0
  deriving DecidableEq, Repr

/-- Events of a class that a sample counts (Table 12.1): the slot (cove 0 to 7, 8 the house), the class, whether they
count as MXC_REPLAY, and how many. -/
structure SampleEvent where
  slot : Fin 9
  cls : Fin 96
  replay : Bool
  count : Nat
  deriving DecidableEq, Repr

/-- The move that the Spillway takes a page further: of an object of a cove, or of a stream's KV range. -/
inductive MoveTarget where
  | object (c : Cove) (i : Fin 16384)
  | stream (e : Fin 262144)
  deriving DecidableEq, Repr

/-- A shadowed stream as the buddy holds it (R251): its entry index at the home, the copy of its entry, and its shadow
pages: offset in the KV range and DPA here. -/
structure ShadowStream where
  source : Nat
  bits : BitVec 1024
  pages : List (Nat × Nat)
  deriving DecidableEq, Repr

/-- The shadowed streams of a lost home node, with the adoption range that its image names (R250, R252). -/
structure Adoption where
  node : Node
  first : Nat
  count : Nat
  streams : List ShadowStream
  deriving DecidableEq, Repr

/-- Demand at the start of a budget period (R44): of an activity on a resource of Table 01.7; `sub` tells the bridges,
ports and tier pairs of one resource apart. -/
structure Demand where
  resource : Fin 6
  sub : Fin 64
  act : Fin 65
  amount : Nat
  deriving DecidableEq, Repr

/-- The signatures of a signed Galsan command (R534): the owner's public keys, and the RSA-3072 and the SLH-DSA
signature made with them. -/
structure OwnerSig where
  rsaKey : List Byte
  slhKey : List Byte
  rsa : List Byte
  slh : List Byte
  deriving DecidableEq, Repr

/-- An instruction on the JTAG debug port (Table 14.4): IDCODE, the boundary sample, the firmware log, a snapshot of a
register at a BAR0 offset, the internal trace buffers, the scan of a chain, a firmware halt or step, and a debug read of
memory. -/
inductive JtagOp where
  | idcode
  | boundary
  | fwLog
  | snapshot (offset : Fin 0x4000000)
  | trace
  | scan
  | halt
  | step
  | memory (dpa : BitVec 48) (length : Fin 4097)
  deriving DecidableEq, Repr

/-- The commands. -/
inductive Instr where
  /-- REGISTER_WRITE (R24): A write to a register that has no behaviour of its own takes effect by its access code; RWL writes after commit are ignored and logged. -/
  | registerWrite (fn : Fin 10) (offset : Fin 0x4000000) (value : Word) (high : Option Word)
  /-- BAR0_BAD_ACCESS (R574): A BAR0 access of wrong size or alignment completes with Unsupported Request and counts in BAR_ERRORS. -/
  | bar0BadAccess
  /-- BUDGET_PERIOD_BOUNDARY (R44): At each 8 µs period boundary of the local tick, each resource's live capacity is recomputed and grants are computed per activity. -/
  | budgetPeriodBoundary (demand : List Demand)
  /-- STEP_BOUNDARY (R32): At a cove's step boundary the package closes attribution, retires streams, frees entries and pages, scans the ready bitmap and composes the next batch. -/
  | stepBoundary (c : Cove) (adopt : List Adoption)
  /-- BAR4_ENTRY_WRITE (R214): A write to a stream-table entry through BAR4 is stored in order of arrival. -/
  | bar4EntryWrite (fn : Fin 9) (offset : Fin 0x2000000) (data : List (Option Byte)) (ide : Bool)
  /-- READY_BITMAP_OR (R213): A write to the OR alias ORs its enabled bytes into the ready bitmap atomically per 8-byte word. -/
  | readyBitmapOr (fn : Fin 9) (offset : Fin 0x8000) (data : List (Option Byte)) (ide : Bool)
  /-- SEQ_CTRL_WRITE (R229): A write of SEQ.CTRL.STEP_EN starts or stops the cove's boundaries. -/
  | seqCtrlWrite (c : CoveAccess) (value : Word)
  /-- STEP_ENTRY_COMPLETE (R237): The completion of a step-program entry lets the sequencer instantiate and post the next entry or end the step. -/
  | stepEntryComplete (c : Cove)
  /-- STEP_POST_RETRY (R237): A sequencer posting that found its queue full is retried at the next budget period. -/
  | stepPostRetry (c : Cove)
  /-- STEP_WAIT_MET (R236): A WAIT entry completes once its arrival counter has risen by INST_BYTES since the step started. -/
  | stepWaitMet (c : Cove)
  /-- EMIT (R239): An EMIT entry takes TOKEN_OUT of the last row of each stream that needs a token. -/
  | emit (c : Cove)
  /-- SHADOW_COPY_DONE (R251): When a shadow copy's arrival-counter increments arrive, SHADOW_POS takes the step's POS. -/
  | shadowCopyDone (e : Fin 262144)
  /-- FALLBACK_IMPORT_DONE (R248): As the KV import copies of a switch complete, POS is set in the partner and the home pages are freed later. -/
  | fallbackImportDone (e : Fin 262144)
  /-- POND_POST (R112): A write of POND_POST_HI posts a pond list, checks it and queues it or sets DROPPED. -/
  | pondPost (c : Cove) (lo : Option Word) (hi : Word)
  /-- TILE_CLAIM (R114): A core claims the next tile of its cove's oldest pond list with an atomic fetch-and-add and starts it. -/
  | tileClaim (core : Fin 128)
  /-- TILE_PASS_END (R110): A tile's accumulation ends, its epilogue writes C, monitors are judged, status is merged and DONE_TILES counted. -/
  | tilePassEnd (core : Fin 128)
  /-- POND_LIST_COMPLETE (R124): 96 NK cycles after the last epilogue the list writes C_FMT_FINAL, applies descriptor and list DONE_CTRs and writes STATUS. -/
  | pondListComplete (c : Cove)
  /-- TILE_RESTART (R127): A tile abandoned on a poisoned object granule restarts from its first block when the refetch completes. -/
  | tileRestart (core : Fin 128)
  /-- LIST_POST (R159): A write of LIST_POST_HI posts an attention list to the cove's attention queue. -/
  | listPost (c : Cove) (lo : Option Word) (hi : Word)
  /-- ATTENTION_UNIT_CLAIM (R157): An attention engine claims the next unit of its cove's oldest list, checks the descriptor and starts the unit. -/
  | attentionUnitClaim (e : Fin 32)
  /-- ATTENTION_UNIT_END (R161): A unit ends, adds to its split and append counters, combines and appends when last, and counts toward DONE_TILES. -/
  | attentionUnitEnd (e : Fin 32)
  /-- ATTN_LIST_COMPLETE (R164): At list completion STATUS is written and descriptor and list DONE_CTRs are applied. -/
  | attnListComplete (c : Cove)
  /-- ATTENTION_UNIT_RESTART (R171): A unit that met poison restarts from its first chunk once the KV shadow refetch completes. -/
  | attentionUnitRestart (e : Fin 32)
  /-- SHOAL_POST (R210): A write of POST_HI posts a ROUTE or RECEIVE descriptor to the cove's Shoal queue. -/
  | shoalPost (c : Cove) (lo : Option Word) (hi : Word)
  /-- ROUTE_START (R184): A router takes a ROUTE descriptor, checks it, scores, selects, assigns rounds, sorts and packs records. -/
  | routeStart (rt : Fin 2)
  /-- RUN_COPY_DONE (R196): When a run's Ferry copy completes at the source, the router writes the round header to the destination. -/
  | runCopyDone (rt : Fin 2) (dest : Fin 256)
  /-- RUN_RETURN_DONE (R197): When a destination's return counter shows run (r, d) returned, the router sends run (r + 1, d). -/
  | runReturnDone (rt : Fin 2) (dest : Fin 256)
  /-- ROUTE_COMBINE (R201): After every return, the source router sums returned rows into output rows and completes the ROUTE. -/
  | routeCombine (rt : Fin 2)
  /-- RECEIVE_START (R199): A router takes a RECEIVE descriptor and checks it and its expert table. -/
  | receiveStart (rt : Fin 2)
  /-- RECEIVE_ROUND_GATHER (R200): Once round headers from every active source arrive, the router gathers rows and posts the round's expert lists. -/
  | receiveRoundGather (rt : Fin 2)
  /-- RECEIVE_ROUND_RETURN (R200): When the round's lists complete, the router reduces outputs and issues return copies, completing after LAST. -/
  | receiveRoundReturn (rt : Fin 2)
  /-- SHOAL_TIMEOUT (R203): A ROUTE or RECEIVE waiting beyond RT_TIMEOUT ends with TIMEOUT. -/
  | shoalTimeout (rt : Fin 2)
  /-- PATROL_SCRUB_READ (R265): The scrubber reads the next granule of each live pseudo-channel, corrects or poisons it. -/
  | patrolScrubRead (found : List CellFault)
  /-- QUARANTINE_TEST (R268): A page entering quarantine is written with zeros and read back under the house activity. -/
  | quarantineTest (c : Cove) (page : Nat) (found : List CellFault)
  /-- MAP_REQ (R271): A write of MEM.MAP_REQ with GO moves a LIVE channel to WATCH, releases a WATCH channel, or sets REFUSED. -/
  | mapReq (value : Word)
  /-- MAPOUT_MOVE_START (R273): With no channel MOVING and a spare band left, the package starts moving the lowest eligible WATCH channel. -/
  | mapoutMoveStart
  /-- MAPOUT_MOVE_DONE (R278): When the last granule of a map-out has moved the channel becomes OUT and MOVE_DONE is set. -/
  | mapoutMoveDone (found : List CellFault)
  /-- STACK_TEMP_READ (R283): Every 100 µs the controller reads each stack sensor and sets its refresh and throttle row. -/
  | stackTempRead (readings : List (Option Nat))
  /-- DTU_INVAL (R301): A write of INVAL_CTRL.GO starts invalidation of cached translations over a range. -/
  | dtuInval (c : Cove) (value : Word)
  /-- DTU_INVAL_DONE (R301): BUSY clears once overlapping translations are dropped and their accesses complete. -/
  | dtuInvalDone (c : Cove)
  /-- OBJECT_CAS (R311): A write of CAS_NEW_HI applies a compare-and-swap to an object's state word and starts any move it names. -/
  | objectCas (c : Cove) (lo : Option Word) (hi : Word)
  /-- SPILLWAY_PAGE_MOVE (R315): The Spillway completes moving one 64 KiB page, retargets its leaf and advances the promotion, eviction or KV move. -/
  | spillwayPageMove (t : MoveTarget) (readOk : Bool)
  /-- LAYER_TRANSFER_START (R319): An eligible layer-schedule transfer starts its copy or promotion. -/
  | layerTransferStart (c : Cove)
  /-- LAYER_TRANSFER_DONE (R320): A layer transfer ends and its layer may be posted. -/
  | layerTransferDone (c : Cove) (readOk : Bool)
  /-- POISON_REFETCH_START (R601): A read of a poisoned object granule joins or opens a refetch entry that reads the mirror or intake record. -/
  | poisonRefetchStart
  /-- REFETCH_DONE (R603): A successful refetch rewrites the page and releases every waiter. -/
  | refetchDone (c : Cove) (va : Nat)
  /-- REFETCH_FAIL (R604): A failed refetch ends waiters with OBJECT_LOST, makes the object LOST and marks the cove degraded. -/
  | refetchFail (c : Cove) (va : Nat) (hostFailed : Bool)
  /-- LOAD_POST (R328): A write of LOAD_POST_HI posts an Inlet load to the cove's queue or sets DROPPED. -/
  | loadPost (c : Cove) (lo : Option Word) (hi : Word)
  /-- LOAD_TAKE (R330): A free Inlet context takes a queued load, checks it and moves its object to LOADING. -/
  | loadTake (ctx : Fin 4)
  /-- LOAD_COMPLETE (R333): A load ending DONE or RANGE writes the object, moves its state and applies DONE_CTR. -/
  | loadComplete (ctx : Fin 4)
  /-- LOAD_ABORT (R334): A load ending otherwise returns its pages, resets its object to ABSENT and applies DONE_CTR. -/
  | loadAbort (ctx : Fin 4) (readFail : Option Bool)
  /-- LOAD_CANCEL (R336): A write of CANCEL_HI removes a queued load or aborts a running one at its page end. -/
  | loadCancel (c : Cove) (lo : Option Word) (hi : Word)
  /-- INLET_REFETCH_RERUN (R357): An Inlet context reruns a load's pipeline over the tensors covering pages awaiting refetch. -/
  | inletRefetchRerun (ctx : Fin 4)
  /-- FERRY_POST (R385): A write of BSN POST_HI posts a Ferry descriptor to the cove's queue. -/
  | ferryPost (c : Cove) (lo : Option Word) (hi : Word)
  /-- FERRY_START (R385): A free Ferry engine takes a startable descriptor, checks it and begins its copy, store or atomic. -/
  | ferryStart (e : Fin 48)
  /-- CHUNK_INCREMENT (R387): When every store of a chunk ends DONE the engine sends one CTR_INC to the destination counter. -/
  | chunkIncrement (e : Fin 48)
  /-- COMPLETION_INCREMENT (R388): After all chunk increments end the engine sends the completion CTR_INC. -/
  | completionIncrement (e : Fin 48)
  /-- FERRY_END (R390): A descriptor ends, writing CHUNKS_DONE and STATUS and applying DONE_CTR. -/
  | ferryEnd (e : Fin 48)
  /-- FERRY_CANCEL (R391): A write of CANCEL_HI removes a queued descriptor or stops a COPY after its current chunk. -/
  | ferryCancel (c : Cove) (lo : Option Word) (hi : Word)
  /-- TRANSACTION_ACCEPT (R376): The transaction layer accepts a request, takes a credit and an SSN, or holds it for a credit or a FLAG condition. -/
  | transactionAccept
  /-- BASIN_REQUEST_ARRIVE (R431): A request arriving at the target is ordered by incarnation and SSN and held, discarded or taken. -/
  | basinRequestArrive
  /-- BASIN_REQUEST_APPLY (R375): A checked request held for its HBM grant is applied in SSN order and its response leaves under the egress grant. -/
  | basinRequestApply (node : Node) (cove : Cove)
  /-- RESPONSE_ARRIVE (R433): A response matching an outstanding request ends it and returns its credit; others are discarded as late. -/
  | responseArrive
  /-- TRANSACTION_TIMEOUT (R378): A request with no response after TIMEOUT_US ends with TIMEOUT and a PROBE is sent under its credit. -/
  | transactionTimeout (tag : Fin 16384)
  /-- ARRIVAL_COUNTER_WRITE (R394): A register write to an arrival counter replaces its value and evaluates watches. -/
  | arrivalCounterWrite (fn : Fin 9) (ctr : Fin 65536) (lo : Option Word) (hi : Option Word)
  /-- SLUICE_GROUP_SEND (R397): A Sluice stage sends a combined group on as one request when it heads every member's stream. -/
  | sluiceGroupSend (eg : Fin 38)
  /-- DATA_FRAME_RECEIVE (R419): A received frame is authenticated and accepted in LSN order, forwarded or delivered, or NAKed. -/
  | dataFrameReceive (p : Port) (node : Node) (f : LinkFrame) (health : FrameHealth) (corrected : Nat)
  /-- NAK_RECEIVE (R421): A NAK causes the sender to resend every held frame from the named LSN. -/
  | nakReceive (p : Port) (node : Node) (lsn : BitVec 24) (ackLsn : BitVec 24) (shown : CtlSeal)
  /-- ACK_SEND_TIMER (R419): A receiver holding unacknowledged frames sends an ACK within 1 µs, or 4 µs on ETH. -/
  | ackSendTimer (p : Port) (node : Node)
  /-- REPLAY_TIMER (R421): A sender whose oldest held frame is unacknowledged for the replay time resends, and fails after REPLAY_LIMIT. -/
  | replayTimer (p : Port) (node : Node)
  /-- CONNECTION_FAIL (R422): A failed connection leaves route choices and its held frames are resynced or resent on live routes. -/
  | connectionFail (p : Port) (node : Node)
  /-- RESYNC_REQ (R422): A received RESYNC_REQ closes the connection's receive side and is answered with RESYNC_ACK. -/
  | resyncReq (p : Port) (node : Node) (f : LinkFrame) (health : FrameHealth)
  /-- RESYNC_ACK (R422): A received RESYNC_ACK releases held frames up to its LSN and the rest are resent on live routes. -/
  | resyncAck (p : Port) (node : Node) (f : LinkFrame) (health : FrameHealth)
  /-- RESYNC_TIMEOUT (R422): With no RESYNC_ACK after RESYNC_US, held frames with live choices are resent and others dropped. -/
  | resyncTimeout (p : Port) (node : Node)
  /-- CREDIT (R427): A received CREDIT frame updates the sender's credit per class from cumulative freed counts. -/
  | credit (p : Port) (node : Node) (freed : List Nat) (ackLsn : BitVec 24) (shown : CtlSeal)
  /-- CREDIT_SEND_TIMER (R427): A receiver sends a CREDIT frame at least every 1 µs while any count has changed. -/
  | creditSendTimer (p : Port) (node : Node)
  /-- KEEPALIVE (R418): After 100 µs without sending, each side of a connection sends a KEEPALIVE. -/
  | keepalive (p : Port) (node : Node)
  /-- ETH_CONNECTION_SILENCE (R418): An ETH connection with no frame from its peer for 1 ms fails. -/
  | ethConnectionSilence (p : Port) (node : Node)
  /-- IDENT (R441): A received IDENT is authenticated and matched; training succeeds or the port returns to DOWN, and credit is checked. -/
  | ident (p : Port) (frame : IdentFrame) (trained : Bool)
  /-- DRAIN_NOTICE (R447): A received DRAIN_NOTICE marks the port DOWN with PEER.DRAINED set. -/
  | drainNotice (p : Port) (node : Node) (ackLsn : BitVec 24) (shown : CtlSeal)
  /-- PORT_SIGNAL_LOSS (R440): A port losing signal for 2 µs goes DOWN and leaves route choices. -/
  | portSignalLoss (p : Port)
  /-- PORT_SIGNAL_DETECT (R440): A DOWN port whose receiver detects signal enters TRAINING at once. -/
  | portSignalDetect (p : Port)
  /-- PORT_RETRAIN_ENTRY (R440): An UP port on loss of lock, codeword errors, a failed connection or a module fault enters RETRAIN. -/
  | portRetrainEntry (p : Port)
  /-- PORT_TRAINING_TIMEOUT (R441): A port not trained within 250 ms or 500 ms fails training and returns to DOWN. -/
  | portTrainingTimeout (p : Port)
  /-- PORT_RETRAIN_TIMEOUT (R440): A RETRAIN not complete in 30 ms sends the port to DOWN. -/
  | portRetrainTimeout (p : Port)
  /-- PORT_DOWN_RETRY (R440): A DOWN port not held retries TRAINING 1 s later. -/
  | portDownRetry (p : Port)
  /-- MODULE_FLAG_POLL (R442): Every 10 ms the package polls cable module flags and acts on loss of signal, faults and temperature alarms. -/
  | moduleFlagPoll (p : Port) (los : Bool) (fault : Bool) (alarm : Bool) (temp : Byte) (powerClass : Byte) (state : Byte)
  /-- PORT_REQ (R443): A write of PORT_REQ with GO maps the named port OUT or sets REQ_REFUSED. -/
  | portReq (value : Word)
  /-- GAP_SKIP (R432): When the oldest held request has waited GAP_US, NEXT jumps to the lowest held SSN. -/
  | gapSkip (node : Node) (cove : Cove)
  /-- LINK_REKEY (R522): A connection whose counter or age reaches its limit drains and exchanges IDENT with fresh keys. -/
  | linkRekey (p : Port) (node : Node)
  /-- GAUGE_SAMPLE_LATCH (R454): Every 200 local ticks all activity counters are latched and calibrated energy is added to accumulators. -/
  | gaugeSampleLatch (events : List SampleEvent) (static : Nat)
  /-- EIN (R456): A received EIN message is accepted or rejected and closes a calibration window setting k. -/
  | ein (bytes : List Byte)
  /-- CAL_STALE_TIMER (R459): With no accepted EIN for 10 ms, CAL_STALE is set. -/
  | calStaleTimer
  /-- HOUSE_MOVE_TICK (R462): Every 1 ms slot 8 and HOUSE_ONLY accumulators move whole µJ to the house account. -/
  | houseMoveTick
  /-- COARSE_POWER_UPDATE (R478): Every 100,000 local ticks POWER and COVE_POWER are updated at 8 W grain. -/
  | coarsePowerUpdate
  /-- BATCH_CLOSE (R473): A batch closes after 100,000,000 ticks, or when a batch slot frees, taking its totals and opening the next. -/
  | batchClose
  /-- BATCH_ROOTED (R476): The hash tree of a closed batch is built and ROOT and STATE ROOTED are written. -/
  | batchRooted
  /-- BATCH_SIGNED (R475): The Wellhead signs a rooted batch twice and STATE becomes SIGNED or UNSIGNED. -/
  | batchSigned
  /-- REC_RELEASE (R472): A write of REC_RELEASE frees ring slots and lets deferred records and retirements proceed. -/
  | recRelease (lo : Option Word) (hi : Option Word)
  /-- BATCH_RELEASE (R476): A write of BATCH_RELEASE frees batch slots up to the named batch. -/
  | batchRelease (lo : Option Word) (hi : Option Word)
  /-- LOOP_CLOSURE (R488): Every 10 µs the Weir computes p10 and the limit, updates the burst credit and sets n. -/
  | loopClosure (junctions : List (Option Nat))
  /-- WEIR_MS_TICK (R497): Each 1 ms of local tick the droop and thermal ceilings rise or fall and a droop histogram is reported. -/
  | weirMsTick
  /-- I3C_CAP (R490): A received I3C cap message is accepted, setting the internal limit, or rejected. -/
  | i3cCap (bytes : List Byte)
  /-- CAP_LVL_ACCEPT (R491): CAP_LVL held 4 SK cycles is accepted; a lower preset forces floor mode within 5 µs. -/
  | capLvlAccept (lvl : Fin 8)
  /-- DROOP_TRIP (R496): A droop detector trip makes its die swallow every second AK pulse and counts DROOP_EVENTS. -/
  | droopTrip (die : Fin 2) (depth : Nat)
  /-- DROOP_RECOVER (R496): After the rail stays above threshold for 64 AK cycles the die resumes its pattern. -/
  | droopRecover (die : Fin 2) (duration : Nat)
  /-- THERMTRIP (R499): A junction at 125 °C asserts THERMTRIP_N and the package enters the stop. -/
  | thermtrip
  /-- COOLANT_FAIL (R500): COOLANT_FAIL_N low for 1 µs stops the package in the sequence of Table 13.3. -/
  | coolantFail
  /-- TRIM_RUN (R503): At cold reset and every 24 hours in P0 or P1, the Weir trims each die's rail set-point. -/
  | trimRun (east : List Int) (west : List Int)
  /-- PSTATE_REQ_P0 (R505): A request for P0 wakes the package from P2 or P3. -/
  | pstateReqP0
  /-- PSTATE_REQ_P2 (R505): A request for P2 on a drained package gates engines and puts memory in self-refresh. -/
  | pstateReqP2
  /-- PSTATE_REQ_P3 (R505): A request for P3 on a drained package sends DRAIN_NOTICE and power-gates compute and link dies. -/
  | pstateReqP3
  /-- PSTATE_REQ_P4 (R505): A request for P4 on a drained package writes flash records, sends DRAIN_NOTICE and sets P4_READY. -/
  | pstateReqP4
  /-- PSTATE_REQ_REFUSED (R505): A request for P1 or a reserved value is refused with RANGE. -/
  | pstateReqRefused (target : Fin 8)
  /-- P1_ENTRY (R505): After 20 µs in P0 with no work the package enters P1. -/
  | p1Entry
  /-- P1_EXIT (R505): Any work in P1 returns the package to P0 within 2 µs. -/
  | p1Exit
  /-- GET_VERSION (R524): SPDM GET_VERSION is answered with the supported version. -/
  | getVersion (box : Fin 10)
  /-- GET_CAPABILITIES (R524): SPDM GET_CAPABILITIES is answered with the responder's capabilities. -/
  | getCapabilities (box : Fin 10)
  /-- NEGOTIATE_ALGORITHMS (R524): SPDM NEGOTIATE_ALGORITHMS selects the algorithms of Table 14.3. -/
  | negotiateAlgorithms (box : Fin 10) (offered : Bool)
  /-- GET_DIGESTS (R525): SPDM GET_DIGESTS returns the digests of the certificate chains. -/
  | getDigests (box : Fin 10)
  /-- GET_CERTIFICATE (R525): SPDM GET_CERTIFICATE returns the chain of slot 0 or slot 1. -/
  | getCertificate (box : Fin 10) (slot : Fin 8) (offset : Half) (length : Half)
  /-- CHALLENGE (R527): SPDM CHALLENGE is answered with CHALLENGE_AUTH signed by ALIAS_RSA. -/
  | challenge (box : Fin 10) (transcript : List Byte)
  /-- GET_MEASUREMENTS (R526): SPDM GET_MEASUREMENTS returns the signed measurement blocks of Table 14.5. -/
  | getMeasurements (box : Fin 10) (index : Fin 256) (transcript : List Byte)
  /-- KEY_EXCHANGE (R524): SPDM KEY_EXCHANGE opens a secure session, mutually authenticated on PF0 when requested. -/
  | keyExchange (box : Fin 10) (mutualAuth : Bool) (transcript : List Byte)
  /-- FINISH (R524): SPDM FINISH completes the secure session handshake. -/
  | finish (box : Fin 10) (k : Fin 4) (good : Bool) (rsa : Option (BitVec 384))
  /-- KEY_UPDATE (R524): SPDM KEY_UPDATE updates the session keys. -/
  | keyUpdate (box : Fin 10) (k : Fin 4)
  /-- HEARTBEAT (R524): SPDM HEARTBEAT keeps a secure session alive. -/
  | heartbeat (box : Fin 10) (k : Fin 4)
  /-- END_SESSION (R524): SPDM END_SESSION closes a secure session. -/
  | endSession (box : Fin 10) (k : Fin 4)
  /-- GET_PQ_CERT (R525): The vendor command returns the SLH-DSA certificate chain. -/
  | getPqCert (box : Fin 10)
  /-- GET_PQ_SIG (R527): The vendor command returns an ALIAS_SLH signature over the last signed transcript, or RANGE. -/
  | getPqSig (box : Fin 10)
  /-- PQ_FINISH (R530): The broker's SLH-DSA signature over the transcript is verified, making the session a broker session. -/
  | pqFinish (box : Fin 10) (k : Fin 4) (slhKey : List Byte) (transcript : List Byte) (signature : List Byte)
  /-- SET_ATTESTED (R531): A matching measurement digest moves the package from SEALED to ATTESTED. -/
  | setAttested (box : Fin 10) (k : Fin 4) (digest : BitVec 384)
  /-- KEY_PUT (R532): A model key is checked and placed in a slot bound to a cove with a lease. -/
  | keyPut (box : Fin 10) (k : Fin 4) (slot : Byte) (cove : Byte) (lease : Word) (reserved : Bool) (key : BitVec 512)
  /-- KEY_USABLE (R532): A key placed by KEY_PUT becomes usable 50 µs after the response. -/
  | keyUsable (slot : Fin 32)
  /-- KEY_ERASE (R533): A KEY_ERASE command in a broker session erases the named slot or all slots. -/
  | keyErase (box : Fin 10) (k : Fin 4) (all : Bool) (slot : Fin 32)
  /-- WH_KEY_ERASE (R533): A write of WH.KEY_ERASE with GO erases the named slot or all slots. -/
  | whKeyErase (value : Word)
  /-- LEASE_END (R533): A key slot whose lease end is reached is erased. -/
  | leaseEnd (slot : Fin 32)
  /-- GET_NONCE (R534): The vendor command draws and returns a fresh 32-byte nonce. -/
  | getNonce (box : Fin 10)
  /-- CLAIM (R535): A signed CLAIM fuses owner slot 0 and moves FACTORY to SEALED D0. -/
  | claim (box : Fin 10) (sig : OwnerSig)
  /-- TRANSFER (R535): A signed TRANSFER fuses the next owner slot, revokes the old one and erases keys. -/
  | transfer (box : Fin 10) (owner : BitVec 768) (sig : OwnerSig)
  /-- DEBUG_SET (R534): A signed DEBUG_SET changes the debug level when Table 14.8 allows it. -/
  | debugSet (box : Fin 10) (level : Fin 4) (sig : OwnerSig)
  /-- DEBUG_ENTER (R536): A signed DEBUG_ENTER on a drained package erases keys, advances epochs, zeroes SRAM and enters OWNER_DEBUG. -/
  | debugEnter (box : Fin 10) (level : Fin 4) (sig : OwnerSig)
  /-- SCRAP (R537): A signed SCRAP destroys the fused secrets and marks the package SCRAPPED. -/
  | scrap (box : Fin 10) (sig : OwnerSig)
  /-- KEY_PROG (R523): IDE_KM KEY_PROG in a secure session programs an IDE stream key. -/
  | keyProg (box : Fin 10) (k : Fin 4) (stream : Fin 10)
  /-- K_SET_GO (R523): IDE_KM K_SET_GO activates a programmed IDE key set. -/
  | kSetGo (box : Fin 10) (k : Fin 4) (stream : Fin 10)
  /-- K_SET_STOP (R523): IDE_KM K_SET_STOP deactivates an IDE key set. -/
  | kSetStop (box : Fin 10) (k : Fin 4) (stream : Fin 10)
  /-- ALIAS_KEYS_READY (R543): 1.5 s after cold reset release the alias keys and certificates become ready. -/
  | aliasKeysReady
  /-- STAGE (R557): JVK STAGE reads an image from host memory and checks it in the order of Table 15.10. -/
  | stage
  /-- COMMIT (R558): JVK COMMIT rechecks the staged image and tests each changed section's class, refusing on the first failure. -/
  | commit
  /-- COMMIT_POINT (R561): At the commit point every part of the staged image takes effect at one instant. -/
  | commitPoint
  /-- COMMIT_FLASH_DONE (R564): After the commit point the floor, roster clear and port record clear are written and RESULT reads DONE. -/
  | commitFlashDone
  /-- DISCARD (R557): JVK DISCARD drops the staged image. -/
  | discard
  /-- SAVE_DEFAULT (R567): JVK SAVE_DEFAULT writes the staged image to the flash default slot. -/
  | saveDefault
  /-- ERASE_DEFAULT (R567): JVK ERASE_DEFAULT empties the flash default slot. -/
  | eraseDefault
  /-- FW_STAGE (R568): JVK FW_STAGE reads and verifies a firmware image against Galsan's keys and the version floor. -/
  | fwStage (verified : Bool) (version : Nat)
  /-- FW_INSTALL (R568): JVK FW_INSTALL on a drained package writes the staged firmware to flash with its valid mark. -/
  | fwInstall
  /-- JVK_RESERVED_CODE (R570): A JVK CMD with a reserved code completes with RANGE. -/
  | jvkReservedCode (code : Fin 16)
  /-- BAR2_READ (R579): A BAR2 read is resolved through its window and translation, or completes with an error. -/
  | bar2Read (fn : Fin 9) (offset : Fin 0x10000000000) (length : Fin 4097) (ide : Bool)
  /-- BAR2_WRITE (R579): A BAR2 write is applied through its window, discarding state-word bytes, or is discarded. -/
  | bar2Write (fn : Fin 9) (offset : Fin 0x10000000000) (data : List (Option Byte)) (ide : Bool)
  /-- WATCH_CTRL_WRITE (R585): A write of a watch's W_CTRL sets ARM, evaluates the watch, or is ignored for a foreign counter. -/
  | watchCtrlWrite (fn : Fin 9) (w : Fin 1024) (value : Word)
  /-- EPOCH_MARK_WRITE (R587): A write of EPOCH_MARK takes effect and EPOCH_TICK takes the local tick. -/
  | epochMarkWrite (lo : Option Word) (hi : Word)
  /-- COLD_RESET (R588): A cold reset from power-up, PKG_RESET_N, P4 exit or request boots the package through Table 16.5. -/
  | coldReset (requested : Bool) (pos : BitVec 12) (split : Bool)
  /-- HBM_TRAINED (R588): HBM training completes and the flash roster is applied. -/
  | hbmTrained (failed : List (Fin 384))
  /-- DEEP_TRAINED (R668): Deep-tier training completes and DEEP_MEM and the deep capacity are set. -/
  | deepTrained (perController : Option (Fin 257))
  /-- DEFAULT_IMAGE_COMMIT (R566): After trim the user-default image is read from flash, staged and committed. -/
  | defaultImageCommit
  /-- WARM_RESET (R591): A warm reset halts work, frees credits, clears STEP_EN and keeps memory contents. -/
  | warmReset
  /-- DEVICE_RESET (R591): A device reset acts as warm, advances every epoch, cancels streams and frees objects. -/
  | deviceReset
  /-- COVE_RESET (R592): A cove reset acts on one cove as a device reset acts on the package. -/
  | coveReset (target : Byte)
  /-- ENGINE_RESET (R593): An engine reset stops new claims and zeroes the engine once idle, or ends BUSY after 10 ms. -/
  | engineReset (target : Byte)
  /-- PORT_RESET (R594): A port reset closes its connections and retrains the port, or ends BUSY for OFF or OUT. -/
  | portReset (target : Byte)
  /-- RESET_REQ_REFUSED (R589): A RESET_REQ with KIND 0 or 7, or during another reset, is refused. -/
  | resetReqRefused (seven : Bool)
  /-- NODE_LOSS_TIMER (R608): A node without a live route choice for LOSS_US is recorded LOST. -/
  | nodeLossTimer (node : Node)
  /-- NODE_LOSS_RECORD (R609): Recording a loss ends outstanding requests, sets LOST_MAP, opens a loss record and logs it. -/
  | nodeLossRecord (node : Node)
  /-- LOSS_REQ (R608): A write of LOSS_REQ with GO and RESTORE 0 records the named node lost. -/
  | lossReq (value : Word)
  /-- LOSS_RESTORE (R611): A write of LOSS_REQ with RESTORE 1 returns a LOST node to LIVE and clears its sequence state. -/
  | lossRestore (value : Word)
  /-- LOSS_RECORD_CLOSE (R614): A loss record closes when its streams, Shoal waits and running steps have ended and is written to the log and ring. -/
  | lossRecordClose
  /-- RIPPLE_RECORD_WRITE (R627): Ripple writes a queued record to the ring, closing the previous one, under the house grant. -/
  | rippleRecordWrite
  /-- RIPPLE_CLOSE_TIMER (R629): The open record closes CLOSE_US after its last update. -/
  | rippleCloseTimer
  /-- STEP_TIME_HISTOGRAM (R626): Each second of local tick a STEP_TIME histogram record is written per cove that ran a step. -/
  | stepTimeHistogram
  /-- CVU_CTRL_WRITE (R637): A write of CVU CTRL sets ALG and, with INIT, loads the initial value. -/
  | cvuCtrlWrite (fn : Fin 9) (unit : Fin 4) (value : Word)
  /-- CVU_DATA8 (R636): A write of DATA8 feeds one byte to the CRC. -/
  | cvuData8 (fn : Fin 9) (unit : Fin 4) (value : Word)
  /-- CVU_DATA16 (R636): A write of DATA16 feeds two bytes to the CRC. -/
  | cvuData16 (fn : Fin 9) (unit : Fin 4) (value : Word)
  /-- CVU_DATA32 (R636): A write of DATA32 feeds four bytes to the CRC. -/
  | cvuData32 (fn : Fin 9) (unit : Fin 4) (value : Word)
  /-- CVU_VALUE_WRITE (R637): A write of VALUE restores the running register of an instance. -/
  | cvuValueWrite (fn : Fin 9) (unit : Fin 4) (lo : Option Word) (hi : Option Word)
  /-- PKG_RESET_N (R648): PKG_RESET_N low for 10 µs starts a cold reset. -/
  | pkgResetN (pos : BitVec 12) (split : Bool)
  /-- REFCLK_LOSS (R656): Loss of REFCLK for 1 µs acts as PKG_RESET_N until clock and rails are good for 1 ms. -/
  | refclkLoss
  /-- RAIL_FAULT (R660): A rail below its lower limit for 2 µs acts as PKG_RESET_N. -/
  | railFault
  /-- PERST (R589): PERST#, Hot Reset or Link Disable starts a warm reset. -/
  | perst
  /-- FLR (R589): An FLR of PF0 starts a device reset and an FLR of VF c starts a cove reset of cove c. -/
  | flr (fn : Fin 9)
  /-- PORT_RETRAIN_DONE (R440): A port in RETRAIN that regains its link within 30 ms returns to UP, rejoins route choices and resumes sending from the peer's ACK_LSN. -/
  | portRetrainDone (p : Port)
  /-- RESET_DONE (R589): A warm, device, cove or engine reset ends, setting EVENT.RESET_DONE and RESET_STAT, raising the VF end-of-cove-reset vector and letting paused work such as a map-out move restart. -/
  | resetDone
  /-- PSTATE_DONE (R505): A requested power-state change completes (P2 or P3 reached, P0 reached 1 ms or 300 ms after a wake, P4_READY set), and EVENT.PSTATE_DONE is set. -/
  | pstateDone
  /-- JVK_COMMAND_DONE (R570): A running JVK command such as STAGE, FW_STAGE, FW_INSTALL or SAVE_DEFAULT ends, writes RESULT, clears STAT.BUSY and raises the JVK vector. -/
  | jvkCommandDone
  /-- REFCLK_RETURN (R656): Once REFCLK and every rail have been within limits for 1 ms after a clock loss, the package leaves the cold reset it held and boots under Table 16.5. -/
  | refclkReturn (pos : BitVec 12) (split : Bool)
  /-- PFC_RECEIVE (R429): A PFC frame received from the switch on an ETH port pauses or releases sending on the VL whose priority it names. -/
  | pfcReceive (p : Port) (vl : Fin 8) (pause : Bool)
  /-- SETDASA (R651): An I3C SETDASA command assigns a dynamic address to the Gauge telemetry or Weir cap target. -/
  | setdasa (static : Fin 128) (dyn : Fin 128)
  /-- JTAG_INSTRUCTION (R538): A JTAG instruction on the debug port (observe, scan, firmware halt or step, debug memory read) acts as far as the debug level permits. -/
  | jtagInstruction (op : JtagOp)
  /-- MSIX_UNMASK (R584): Clearing an MSI-X vector mask or Function Mask, or enabling a VF's MSI-X, sends the message of a pending vector and clears its pending bit. -/
  | msixUnmask (fn : Fin 9) (enabled : Bool) (funcMask : Bool) (vec : Option (Fin 1024 × Bool))
  /-- LOSS_TAIL_WRITE (R616): A write advancing FLT.LOSS_TAIL frees loss-log slots, lets a closed loss record waiting for a slot be written, and clears STAT.LOSS_FULL. -/
  | lossTailWrite (value : Word)
  /-- LINK_Z_COMPUTED (R543): The background ECDH computation of Z for a listed node completes after a commit, letting a connection to that node open and derive its link keys. -/
  | linkZComputed (node : Node)
  deriving DecidableEq, Repr

end Sys2Proof
end

