-- ==== Sys2Proof/Decode.lean ====
section
/-! DEFINITION. Sys2Proof/Decode.lean: the command that a word of the opcode table spells. -/
namespace Sys2Proof

/-- No row of spec/opcode_table.json gives bits: a command is a register write, an arrival or an event, and no word
spells one. -/
def decodeTableWord (_nbits _w : Nat) : Option Instr := none

end Sys2Proof
end

