-- ==== Sys2Proof/Config.lean ====
section
/-! DEFINITION. Sys2Proof/Config.lean: the free values: constants without a body, so that nothing can be proved of the
values that the spec leaves open. -/
namespace Sys2Proof.Config
open Sys2Proof

/-- A fresh free value, by number of the draw (log 1). -/
opaque draw : Nat → Nat

/-- FP32 functions whose result the spec bounds only in ulp (R135, Tables 03.7 and 04.5): function code and FP32 word
to FP32 word (log 4). -/
opaque fp32Fn : Nat → Nat → Nat

/-- The fused secrets of Table 14.1, whose bytes the spec does not give, each as a number: 1 ID_RSA, 2 ID_SLH, 3 UDS,
4 MEM_SECRET, 5 LINK_KA (log 6). -/
opaque fused : Nat → Nat

/-- The fresh random bytes that a cold reset draws for the memory key (R511), as a number, by the cold reset (log 6). -/
opaque bootRandom : Nat → Nat

/-- Whether a signature verifies (R513, R530, R534): key digest, message, signature (log 6). -/
opaque sigVerifies : List Byte → List Byte → List Byte → Bool

/-- A signature that the Wellhead makes (R475, R527): 0 by ALIAS_RSA, 1 by ALIAS_SLH; the CDI that seeds the alias keys
(R511); the message (log 6). -/
opaque signature : Nat → List Byte → List Byte → List Byte

/-- A certificate chain of this package (R525): 0 that of ALIAS_RSA, 1 that of LINK_KA, 2 that of ALIAS_SLH; the CDI that
seeds its alias key (R511, log 6). -/
opaque certChain : Nat → List Byte → List Byte

/-- The ECDH P-384 shared secret of a private key and a peer's public key (R518; log 6). -/
opaque ecdh : List Byte → List Byte → List Byte

/-- Measurements of the parts the spec gives no bytes for (Table 14.5): 1 mask ROM, 2 factory firmware (log 6). -/
opaque measured : Nat → List Byte

/-- Energy of one event and static energy of one sample that the spec fuses without giving a number: class, argument
(log 7). -/
opaque energy : Nat → Nat → Nat

/-- A byte of another node's memory as this package reads it (log 8): node, address, draw. -/
opaque remoteByte : Nat → Nat → Nat → Byte

/-- How a request to another node ends: node, address, draw (log 8). -/
opaque remoteStatus : Nat → Nat → Nat → Nat

/-- Bytes that a PCIe link (0 or, under PCIE_SPLIT, 1) carries each way in a budget period, at a generation and width
(R40, R572; the spec gives the rate of one setting only, and that as about a figure; log 20). -/
opaque pcieBytes : Nat → Nat → Nat → Nat

/-- Where the FINE sub-block shows what (R480, which gives no offsets): the offset and the values it holds (log 30). -/
opaque fineWord : Nat → List Nat → Nat

end Sys2Proof.Config
end

