-- ==== Sys2Proof/Machine/Tables.lean ====
section
/-! DEFINITION. Sys2Proof/Machine/Tables.lean: sparse tables in one canonical form, fixed lists indexed by number,
and bit fields of registers. -/
namespace Sys2Proof.Machine
open Sys2Proof

/-- The entry of a sparse table at a key; `d` is what an unlisted key reads as. -/
def SMap.get {α : Type} (d : α) : SMap α → Nat → α
  | [], _ => d
  | (k, v) :: m, a => if k = a then v else SMap.get d m a

/-- Drop what is listed at a key. -/
def SMap.erase {α : Type} (m : SMap α) (a : Nat) : SMap α := m.filter fun kv => decide (kv.1 ≠ a)

/-- List an entry at a key, keeping keys rising. -/
def SMap.insert {α : Type} : SMap α → Nat → α → SMap α
  | [], a, v => [(a, v)]
  | (k, w) :: m, a, v =>
    if a < k then (a, v) :: (k, w) :: m
    else if a = k then (a, v) :: m
    else (k, w) :: SMap.insert m a v

/-- Put an entry at a key of a sparse table, keeping keys rising and listing no default. -/
def SMap.put {α : Type} [DecidableEq α] (d : α) (m : SMap α) (a : Nat) (v : α) : SMap α :=
  if v = d then SMap.erase m a else SMap.insert m a v

/-- Apply a function to the entry at a key. -/
def SMap.upd {α : Type} [DecidableEq α] (d : α) (m : SMap α) (a : Nat) (f : α → α) : SMap α :=
  SMap.put d m a (f (SMap.get d m a))

/-- Keys strictly rising and above a bound, no entry equal to the default. -/
def SMap.wfFrom {α : Type} [DecidableEq α] (d : α) : Nat → SMap α → Bool
  | _, [] => true
  | lo, (k, v) :: m => decide (lo ≤ k) && decide (v ≠ d) && SMap.wfFrom d (k + 1) m

/-- The canonical form of a sparse table: equal tables are equal lists. -/
def SMap.wf {α : Type} [DecidableEq α] (d : α) (m : SMap α) : Bool := SMap.wfFrom d 0 m

/-- The keys listed. -/
def SMap.keys {α : Type} (m : SMap α) : List Nat := m.map Prod.fst

/-- Map every listed entry, dropping those that become the default. -/
def SMap.mapAll {α : Type} [DecidableEq α] (d : α) (f : Nat → α → α) : SMap α → SMap α
  | [] => []
  | (k, v) :: m => if f k v = d then SMap.mapAll d f m else (k, f k v) :: SMap.mapAll d f m

/-- Keep the listed entries that satisfy a test. -/
def SMap.filter {α : Type} (p : Nat → α → Bool) (m : SMap α) : SMap α := m.filter fun kv => p kv.1 kv.2

/-- Element `i` of a list, `d` where there is none. -/
def nth {α : Type} (d : α) (l : List α) (i : Nat) : α := l.getD i d

/-- Apply a function to element `i` of a list; nothing happens past its end. -/
def modNth {α : Type} (l : List α) (i : Nat) (f : α → α) : List α := l.modify i f

/-- Bits `[lo + w - 1 : lo]` of a number. -/
def bits (n lo w : Nat) : Nat := (n >>> lo) % 2 ^ w

/-- Bit `i` of a number. -/
def bit (n i : Nat) : Bool := n.testBit i

/-- 1 for true, 0 for false. -/
def b2n (b : Bool) : Nat := if b then 1 else 0

/-- Replace bits `[lo + w - 1 : lo]` of a number. -/
def setBits (n lo w v : Nat) : Nat :=
  n - (bits n lo w) * 2 ^ lo + (v % 2 ^ w) * 2 ^ lo

/-- Little-endian number held by a list of bytes (R19). -/
def leNat : List Byte → Nat
  | [] => 0
  | b :: bs => b.toNat + 256 * leNat bs

/-- The `n` little-endian bytes of a number (R19). -/
def leBytes : Nat → Nat → List Byte
  | 0, _ => []
  | n + 1, v => BitVec.ofNat 8 v :: leBytes n (v / 256)

/-- Add one to a 64-bit counter register. -/
def inc64 (c : DWord) : DWord := c + 1

/-- Add to a 64-bit counter register. -/
def add64 (c : DWord) (n : Nat) : DWord := c + BitVec.ofNat 64 n

/-- A 32-bit word with its write-one-to-clear bits cleared by a written value (T00.5). -/
def w1c (old wr : Word) : Word := old &&& ~~~ wr

/-- Set bit `i` of a word. -/
def setBit32 (w : Word) (i : Nat) : Word := w ||| BitVec.ofNat 32 (2 ^ i)

/-- Clear bit `i` of a word. -/
def clrBit32 (w : Word) (i : Nat) : Word := w &&& ~~~ BitVec.ofNat 32 (2 ^ i)

/-- Set or clear bit `i` of a word. -/
def putBit32 (w : Word) (i : Nat) (b : Bool) : Word := if b then setBit32 w i else clrBit32 w i

end Sys2Proof.Machine
end

