-- ==== Sys2Proof/Machine/Formats.lean ====
section
/-! DEFINITION. Sys2Proof/Machine/Formats.lean: the number formats, block scaling, rounding and quantisation of
spec/02_number_formats.md, computed exactly over rational magnitudes. -/
namespace Sys2Proof.Machine
open Sys2Proof

/-- The 15 number formats of Table 02.1. -/
inductive Fmt where
  | fp32 | bf16 | fp16 | e4m3 | e5m2 | e3m2 | e2m3 | e2m1 | int8 | int4 | nb4f | nb4i | nb3 | nb2 | mxfp4
  deriving DecidableEq, Repr

/-- Table 02.1: the format a FMT code names; 0xF is reserved (R58). -/
def fmtOfCode : Nat → Option Fmt
  | 0x0 => some .fp32
  | 0x1 => some .bf16
  | 0x2 => some .fp16
  | 0x3 => some .e4m3
  | 0x4 => some .e5m2
  | 0x5 => some .e3m2
  | 0x6 => some .e2m3
  | 0x7 => some .e2m1
  | 0x8 => some .int8
  | 0x9 => some .int4
  | 0xA => some .nb4f
  | 0xB => some .nb4i
  | 0xC => some .nb3
  | 0xD => some .nb2
  | 0xE => some .mxfp4
  | _ => none

/-- Table 02.1: the code of a format. -/
def Fmt.code : Fmt → Nat
  | .fp32 => 0x0
  | .bf16 => 0x1
  | .fp16 => 0x2
  | .e4m3 => 0x3
  | .e5m2 => 0x4
  | .e3m2 => 0x5
  | .e2m3 => 0x6
  | .e2m1 => 0x7
  | .int8 => 0x8
  | .int4 => 0x9
  | .nb4f => 0xA
  | .nb4i => 0xB
  | .nb3 => 0xC
  | .nb2 => 0xD
  | .mxfp4 => 0xE

/-- Bits per element payload (R65, Table 02.1). -/
def Fmt.width : Fmt → Nat
  | .fp32 => 32
  | .bf16 | .fp16 => 16
  | .e4m3 | .e5m2 | .int8 => 8
  | .e3m2 | .e2m3 => 6
  | .e2m1 | .int4 | .nb4f | .nb4i | .mxfp4 => 4
  | .nb3 => 3
  | .nb2 => 2

/-- The five block formats (Table 02.4). -/
def Fmt.isBlock : Fmt → Bool
  | .nb4f | .nb4i | .nb3 | .nb2 | .mxfp4 => true
  | _ => false

/-- The four NB formats, which alone may carry a tile gain (R76). -/
def Fmt.isNB : Fmt → Bool
  | .nb4f | .nb4i | .nb3 | .nb2 => true
  | _ => false

/-- Integer element formats: INT8 and INT4 (R64). -/
def Fmt.isInt : Fmt → Bool
  | .int8 | .int4 => true
  | _ => false

/-- Edge classes of Table 02.7. -/
inductive EdgeClass where | a | b | c
  deriving DecidableEq, Repr

/-- Table 02.1 and R85: the edge class; FP32 has none (R86). -/
def Fmt.edgeClass : Fmt → Option EdgeClass
  | .fp32 => none
  | .bf16 | .fp16 => some .c
  | .e4m3 | .e5m2 | .e3m2 | .e2m3 | .int8 => some .b
  | .e2m1 | .int4 | .nb4f | .nb4i | .nb3 | .nb2 | .mxfp4 => some .a

/-- An exact value: a NaN, an infinity, or a sign and a non-negative rational magnitude (so that ±0 are two values). -/
inductive XNum where
  | nan
  | inf (neg : Bool)
  | fin (neg : Bool) (mag : Rat)
  deriving DecidableEq, Repr

namespace XNum

/-- +0. -/
def zero : XNum := .fin false 0

/-- A signed rational as a value. -/
def ofRat (q : Rat) : XNum := if q < 0 then .fin true (-q) else .fin false q

/-- The signed rational of a finite value; 0 for NaN and infinities. -/
def toRat : XNum → Rat
  | .fin true m => -m
  | .fin false m => m
  | _ => 0

/-- Negation. -/
def neg : XNum → XNum
  | .nan => .nan
  | .inf b => .inf (!b)
  | .fin b m => .fin (!b) m

/-- Is it NaN? -/
def isNan : XNum → Bool
  | .nan => true
  | _ => false

/-- Is it an infinity? -/
def isInf : XNum → Bool
  | .inf _ => true
  | _ => false

/-- Is it zero, of either sign (R63: on input +0 and −0 are equal)? -/
def isZero : XNum → Bool
  | .fin _ m => decide (m = 0)
  | _ => false

/-- The sign. -/
def sign : XNum → Bool
  | .nan => false
  | .inf b => b
  | .fin b _ => b

/-- The exact sum, with the zero sign of IEEE 754 round to nearest even (R63). -/
def add : XNum → XNum → XNum
  | .nan, _ => .nan
  | _, .nan => .nan
  | .inf a, .inf b => if a = b then .inf a else .nan
  | .inf a, _ => .inf a
  | _, .inf b => .inf b
  | .fin a m, .fin b n =>
    if a = b then .fin a (m + n)
    else if m = n then .fin false 0
    else if n < m then .fin a (m - n) else .fin b (n - m)

/-- The exact product. -/
def mul : XNum → XNum → XNum
  | .nan, _ => .nan
  | _, .nan => .nan
  | .inf a, .inf b => .inf (a != b)
  | .inf a, .fin b m => if m = 0 then .nan else .inf (a != b)
  | .fin a m, .inf b => if m = 0 then .nan else .inf (a != b)
  | .fin a m, .fin b n => .fin (a != b) (m * n)

/-- The exact quotient; x/0 is an infinity and 0/0 a NaN, as IEEE 754 has them. -/
def div : XNum → XNum → XNum
  | .nan, _ => .nan
  | _, .nan => .nan
  | .inf _, .inf _ => .nan
  | .inf a, .fin b _ => .inf (a != b)
  | .fin a _, .inf b => .fin (a != b) 0
  | .fin a m, .fin b n =>
    if n = 0 then (if m = 0 then .nan else .inf (a != b)) else .fin (a != b) (m / n)

/-- Ordering of non-NaN values; a NaN is less than nothing. -/
def lt : XNum → XNum → Bool
  | .nan, _ => false
  | _, .nan => false
  | .inf a, .inf b => a && !b
  | .inf a, _ => a
  | _, .inf b => !b
  | x, y => decide (x.toRat < y.toRat)

/-- The larger of two values, the first where neither is larger; NaN if either is NaN. -/
def max (x y : XNum) : XNum := if x.isNan || y.isNan then .nan else if x.lt y then y else x

/-- The smaller of two values, the first where neither is smaller; NaN if either is NaN. -/
def min (x y : XNum) : XNum := if x.isNan || y.isNan then .nan else if y.lt x then y else x

/-- Magnitude. -/
def abs : XNum → XNum
  | .nan => .nan
  | .inf _ => .inf false
  | .fin _ m => .fin false m

end XNum

/-- 2 to an integer power. -/
def pow2 (e : Int) : Rat :=
  match e with
  | .ofNat n => ((2 ^ n : Nat) : Rat)
  | .negSucc n => mkRat 1 (2 ^ (n + 1))

/-- floor (log2 q) of a positive rational. -/
def floorLog2 (q : Rat) : Int :=
  let e : Int := (Nat.log2 q.num.toNat : Int) - (Nat.log2 q.den : Int)
  if pow2 e ≤ q then e else e - 1

/-- ceil (log2 q) of a positive rational. -/
def ceilLog2 (q : Rat) : Int :=
  let e := floorLog2 q
  if pow2 e = q then e else e + 1

/-- The grid of non-negative values of an element format: `m` mantissa bits and smallest exponent `emin`; the value
of code `k` rises with `k`. An integer grid is one whose codes all lie below the first exponent step. `maxPos` and
`maxNeg` are the codes of the largest finite magnitudes. -/
structure Grid where
  m : Nat
  emin : Int
  maxPos : Nat
  maxNeg : Nat
  deriving DecidableEq, Repr

/-- Tables 02.2 and 02.4: the grid of a format's elements. -/
def Fmt.grid : Fmt → Grid
  | .fp32 => ⟨23, -126, 0x7F7FFFFF, 0x7F7FFFFF⟩
  | .bf16 => ⟨7, -126, 0x7F7F, 0x7F7F⟩
  | .fp16 => ⟨10, -14, 0x7BFF, 0x7BFF⟩
  | .e4m3 => ⟨3, -6, 0x7E, 0x7E⟩
  | .e5m2 => ⟨2, -14, 0x7B, 0x7B⟩
  | .e3m2 => ⟨2, -2, 0x1F, 0x1F⟩
  | .e2m3 => ⟨3, 0, 0x1F, 0x1F⟩
  | .e2m1 | .nb4f | .mxfp4 => ⟨1, 0, 7, 7⟩
  | .int8 => ⟨8, 8, 127, 128⟩
  | .int4 => ⟨8, 8, 7, 8⟩
  | .nb4i => ⟨8, 8, 7, 7⟩
  | .nb3 => ⟨8, 8, 3, 3⟩
  | .nb2 => ⟨8, 8, 1, 1⟩

/-- The value of code `k` on a grid (R60). -/
def Grid.value (g : Grid) (k : Nat) : Rat :=
  let f := k / 2 ^ g.m
  if f = 0 then (k : Rat) * pow2 (g.emin - g.m)
  else ((2 ^ g.m + k % 2 ^ g.m : Nat) : Rat) * pow2 (g.emin + (f - 1 : Nat) - g.m)

/-- How a narrowing conversion rounds: to nearest even, or stochastically with the bits `r16` (R78, R81). -/
inductive Rnd where
  | rne
  | sr (r16 : Nat)
  deriving DecidableEq, Repr

/-- The grid code at or below a magnitude, and the fraction of the way to the next code. -/
def Grid.below (g : Grid) (q : Rat) : Nat × Rat :=
  if q ≤ 0 then (0, 0) else
    let e := if floorLog2 q < g.emin then g.emin else floorLog2 q
    let t := q / pow2 (e - g.m)
    let n := t.floor.toNat
    ((e - g.emin).toNat * 2 ^ g.m + n, t - (n : Rat))

/-- R78 and R81: round a magnitude to a grid code, before saturation. Above the largest finite value the grid goes on by
its own exponents, so a stochastic draw that lands there saturates (DESIGN CHOICE, log 41). -/
def Grid.round (g : Grid) (r : Rnd) (q : Rat) : Nat :=
  let (k, f) := g.below q
  match r with
  | .rne => if 1 / 2 < f || (decide (f = 1 / 2) && k % 2 = 1) then k + 1 else k
  | .sr r16 => if r16 < (65536 * f).floor.toNat then k + 1 else k

/-- R81: the stochastic bits of element `idx` of tile `tile` under a seed. -/
def srBits (seed tile idx : Nat) : Nat :=
  let x : Word := BitVec.ofNat 32 seed ^^^ (BitVec.ofNat 32 tile * 0x85EBCA6B#32) ^^^ (BitVec.ofNat 32 idx * 0x9E3779B9#32)
  let x := (x ^^^ (x >>> 16)) * 0x7FEB352D#32
  let x := (x ^^^ (x >>> 15)) * 0x846CA68B#32
  let x := x ^^^ (x >>> 16)
  x.toNat % 65536

/-- What one narrowing conversion gives: the element code and the events it raises (R83, R666). -/
structure Conv where
  code : Nat
  nanEvent : Bool
  sat : Bool
  infBounded : Bool
  deriving DecidableEq, Repr

/-- The canonical NaN of the formats that have one (R62). -/
def Fmt.canonNan : Fmt → Option Nat
  | .fp32 => some 0x7FC00000
  | .bf16 => some 0x7FC0
  | .fp16 => some 0x7E00
  | .e4m3 => some 0x7F
  | .e5m2 => some 0x7E
  | _ => none

/-- The code of +∞ of the formats that have one (Table 02.2). -/
def Fmt.infCode : Fmt → Option Nat
  | .fp32 => some 0x7F800000
  | .bf16 => some 0x7F80
  | .fp16 => some 0x7C00
  | .e5m2 => some 0x7C
  | _ => none

/-- Formats whose overflow gives ±∞ (Table 02.6, first row). -/
def Fmt.ovfInf : Fmt → Bool
  | .fp32 | .bf16 | .fp16 => true
  | _ => false

/-- Elements held in two's complement rather than sign and magnitude. -/
def Fmt.twosComp : Fmt → Bool
  | .int8 | .int4 | .nb4i | .nb3 | .nb2 => true
  | _ => false

/-- Put a sign on a magnitude code. -/
def Fmt.signed (f : Fmt) (neg : Bool) (k : Nat) : Nat :=
  if !neg then k
  else if f.twosComp then (2 ^ f.width - k) % 2 ^ f.width
  else k + 2 ^ (f.width - 1)

/-- The sign a zero result is written with (R63, R78). -/
def Fmt.zeroCode (f : Fmt) (neg : Bool) : Nat := if f.ovfInf && neg then f.signed true 0 else 0

/-- R83, R666: narrow a value to a plain element, or to the grid of a block format. -/
def convert (f : Fmt) (r : Rnd) (x : XNum) : Conv :=
  let g := f.grid
  match x with
  | .nan =>
    match f.canonNan with
    | some c => ⟨c, false, false, false⟩
    | none => ⟨0, true, false, false⟩
  | .inf s =>
    match f.infCode with
    | some c => ⟨f.signed s c, false, false, false⟩
    | none => ⟨f.signed s (if s then g.maxNeg else g.maxPos), false, false, true⟩
  | .fin s m =>
    let k := g.round r m
    let mx := if s then g.maxNeg else g.maxPos
    if k = 0 then ⟨f.zeroCode s, false, false, false⟩
    else if k ≤ mx then ⟨f.signed s k, false, false, false⟩
    else if f.ovfInf then ⟨f.signed s (f.infCode.getD 0), false, true, false⟩
    else ⟨f.signed s mx, false, true, false⟩

/-- Whether an element code is a reserved one (R73). -/
def Fmt.reservedCode : Fmt → Nat → Bool
  | .nb3, c => c = 4
  | .nb2, c => c = 2
  | _, _ => false

/-- The value of an element code of a format, less any block scale and gain (R60, R64, Tables 02.2 to 02.4); a
reserved code of NB3 or NB2 is taken as zero (R73). -/
def decodeElem (f : Fmt) (c : Nat) : XNum :=
  let w := f.width
  if f.reservedCode c then .zero
  else if f.twosComp then
    if c < 2 ^ (w - 1) then .fin false (c : Rat) else .fin true ((2 ^ w - c : Nat) : Rat)
  else
    let s := decide (2 ^ (w - 1) ≤ c)
    let k := c % 2 ^ (w - 1)
    if k ≤ f.grid.maxPos then .fin s (f.grid.value k)
    else match f.infCode with
      | some i => if k = i then .inf s else .nan
      | none => .nan

/-- The value of an FP32 word. -/
def numOf32 (w : Nat) : XNum := decodeElem .fp32 (w % 0x100000000)

/-- Round a value to FP32, nearest even, as its word. -/
def to32 (x : XNum) : Nat := (convert .fp32 .rne x).code

/-- Round a value to the nearest FP32 value. -/
def round32 (x : XNum) : XNum := decodeElem .fp32 (to32 x)

/-- FP32 addition, one rounding. -/
def add32 (x y : XNum) : XNum := round32 (x.add y)

/-- FP32 multiplication, one rounding. -/
def mul32 (x y : XNum) : XNum := round32 (x.mul y)

/-- FP32 fused multiply-add, one rounding. -/
def fma32 (x y z : XNum) : XNum := round32 ((x.mul y).add z)

/-- R76: a tile gain is finite, positive and normal. -/
def gainOk (w : Nat) : Bool :=
  decide (0x00800000 ≤ w) && decide (w < 0x7F800000)

/-- A number bounded on both sides. -/
def clampInt (lo hi x : Int) : Int := if x < lo then lo else if hi < x then hi else x

/-- The largest E2M1, INT4, INT3 or ternary magnitude of a block format (Table 02.4). -/
def Fmt.qmax : Fmt → Nat
  | .nb4f | .mxfp4 => 6
  | .nb4i => 7
  | .nb3 => 3
  | .nb2 => 1
  | _ => 0

/-- Payload bytes of one block of 32 elements (Table 02.4). -/
def Fmt.blockBytes (f : Fmt) : Nat := 4 * f.width

/-- Bytes of a group of 16 blocks: payloads then scales (R68). -/
def Fmt.groupBytes (f : Fmt) : Nat := 16 * f.blockBytes + 16

/-- Bytes of a row of `k` elements: a plain row packed by R65, a block row padded to whole groups (R70). -/
def Fmt.rowBytes (f : Fmt) (k : Nat) : Nat :=
  if f.isBlock then ((k + 511) / 512) * f.groupBytes else (f.width * k + 7) / 8

/-- R70: the bytes of a row that hold elements `k0` to `k1 - 1`, as offsets and lengths: of a block row the payloads and
the scales of the blocks that hold them, never its padding. -/
def Fmt.spans (f : Fmt) (k0 k1 : Nat) : List (Nat × Nat) :=
  if k1 ≤ k0 then []
  else if !f.isBlock then [(f.width * k0 / 8, (f.width * k1 + 7) / 8 - f.width * k0 / 8)]
  else (List.range ((k1 - 1) / 512 - k0 / 512 + 1)).flatMap fun i =>
    let g := k0 / 512 + i
    let lo := Nat.max (k0 / 32) (16 * g) - 16 * g
    let hi := Nat.min ((k1 + 31) / 32) (16 * (g + 1)) - 16 * g
    [(g * f.groupBytes + lo * f.blockBytes, (hi - lo) * f.blockBytes), (g * f.groupBytes + 16 * f.blockBytes + lo, hi - lo)]

/-- R65: element `k` of a packed stream, as its code. -/
def packedCode (stream w k : Nat) : Nat := bits stream (w * k) w

/-- R65: pack codes of width `w` into one little-endian stream. -/
def packCodes (w : Nat) : List Nat → Nat
  | [] => 0
  | c :: cs => c % 2 ^ w + 2 ^ w * packCodes w cs

/-- The decoded value and format faults of element `k` of a row held as one little-endian number: plain elements by
R65, block elements by R68, R71 to R73 and R75, with `g` the tile gain. A scale fault makes the element zero. -/
def rowElem (f : Fmt) (row : Nat) (g : XNum) (k : Nat) : XNum :=
  if !f.isBlock then decodeElem f (packedCode row f.width k)
  else
    let grp := k / 512
    let base := 8 * (grp * f.groupBytes)
    let code := bits row (base + f.width * (k % 512)) f.width
    let sc := bits row (base + 8 * (16 * f.blockBytes) + 8 * ((k % 512) / 32)) 8
    match f with
    | .mxfp4 =>
      if sc = 255 then .nan else (XNum.fin false (pow2 ((sc : Int) - 127))).mul (decodeElem f code)
    | _ =>
      if 127 ≤ sc then .zero
      else (g.mul (decodeElem .e4m3 sc)).mul (decodeElem f code)

/-- The format faults that the block holding elements `32 b` to `32 b + 31` of a row counts (R72, R73, R92). -/
def rowBlockFaults (f : Fmt) (row : Nat) (b : Nat) : Nat :=
  if !f.isNB then 0
  else
    let base := 8 * ((b / 16) * f.groupBytes)
    let sc := bits row (base + 8 * (16 * f.blockBytes) + 8 * (b % 16)) 8
    if 127 ≤ sc then 1
    else ((List.range 32).filter fun i =>
      f.reservedCode (bits row (base + f.width * (32 * (b % 16) + i)) f.width)).length

/-- Events that a quantisation reports to the unit that performs it (R83, R88, R666). `ovfFin` counts block-scale
overflow events of blocks whose largest magnitude is finite, `ovfInf` those that arise from an infinite element. -/
structure QEvents where
  nan : Nat := 0
  sat : Nat := 0
  infBounded : Nat := 0
  ovfFin : Nat := 0
  ovfInf : Nat := 0
  underflow : Nat := 0
  deriving DecidableEq, Repr

/-- Join the events of two conversions. -/
def QEvents.add (a b : QEvents) : QEvents :=
  ⟨a.nan + b.nan, a.sat + b.sat, a.infBounded + b.infBounded, a.ovfFin + b.ovfFin, a.ovfInf + b.ovfInf,
    a.underflow + b.underflow⟩

/-- The events of one element's conversion. -/
def Conv.events (c : Conv) : QEvents :=
  { nan := b2n c.nanEvent, sat := b2n c.sat, infBounded := b2n c.infBounded }

/-- One quantised block: its scale byte, its 32 element codes and the events. -/
structure QBlock where
  scale : Nat
  codes : List Nat
  ev : QEvents
  deriving DecidableEq, Repr

/-- The largest non-NaN magnitude of a list of values. -/
def amaxOf (xs : List XNum) : XNum :=
  xs.foldl (fun a x => if x.isNan then a else XNum.max a x.abs) .zero

/-- R88: the code of the smallest E4M3 value at or above a positive magnitude, held within [2^-9, 448]. -/
def e4m3Ceil (q : Rat) : Nat :=
  let (k, f) := Fmt.e4m3.grid.below q
  let k := if f = 0 then k else k + 1
  Nat.max 1 (Nat.min 0x7E k)

/-- R88: quantise a block of values into an NB format under tile gain `g`; `rnd i` is the rounding of element `i`. -/
def quantNB (f : Fmt) (g : XNum) (rnd : Nat → Rnd) (xs : List XNum) : QBlock :=
  let amax := (amaxOf xs).div g
  let nans := (xs.filter XNum.isNan).length
  if amax.isZero then ⟨0, xs.map fun _ => 0, { nan := nans }⟩
  else
    let q := match amax with
      | .fin _ m => m / (f.qmax : Rat)
      | _ => 449
    let sc := e4m3Ceil q
    let gs := mul32 g (decodeElem .e4m3 sc)
    let cs := (xs.zip (List.range xs.length)).map fun (x, i) =>
      if x.isInf then convert f .rne x else convert f (rnd i) (x.div gs)
    let ev : QEvents := {
      ovfFin := b2n (!amax.isInf && decide (448 < q))
      ovfInf := b2n amax.isInf
      underflow := b2n (decide (q < pow2 (-9))) }
    ⟨sc, cs.map Conv.code, cs.foldl (fun e c => e.add c.events) ev⟩

/-- R89: quantise a block of values into OCP MXFP4. -/
def quantMX (rnd : Nat → Rnd) (xs : List XNum) : QBlock :=
  let amax := amaxOf xs
  let nans := (xs.filter XNum.isNan).length
  if amax.isZero then ⟨0, xs.map fun _ => 0, { nan := nans }⟩
  else
    let x : Nat := match amax with
      | .fin _ m => (clampInt 0 254 (floorLog2 m - 2 + 127)).toNat
      | _ => 254
    let gs : XNum := .fin false (pow2 ((x : Int) - 127))
    let cs := (xs.zip (List.range xs.length)).map fun (y, i) =>
      if y.isInf then convert .mxfp4 .rne y else convert .mxfp4 (rnd i) (y.div gs)
    ⟨x, cs.map Conv.code, cs.foldl (fun e c => e.add c.events) {}⟩

/-- Quantise one block of 32 values into any block format (R88, R89). -/
def quantBlock (f : Fmt) (g : XNum) (rnd : Nat → Rnd) (xs : List XNum) : QBlock :=
  if f = .mxfp4 then quantMX rnd xs else quantNB f g rnd xs

/-- R90: the automatic gain of an output tile from its values. -/
def autoGain (f : Fmt) (xs : List XNum) : XNum :=
  match amaxOf xs with
  | .fin _ m =>
    if m = 0 then .fin false 1
    else .fin false (pow2 (clampInt (-126) 127 (ceilLog2 (m / ((448 * f.qmax : Nat) : Rat)))))
  | _ => .fin false 1

/-- Cut a list into pieces of `n` (the fuel bounds the pieces). -/
def chunksOf {α : Type} (n : Nat) : Nat → List α → List (List α)
  | 0, _ => []
  | _, [] => []
  | k + 1, l => l.take n :: chunksOf n k (l.drop n)

/-- The bytes of a row of values written in a format, and the events: a plain row packed by R65; a block row as
groups of 16 blocks by R68, padded with zero blocks (R70). `rnd i` is the rounding of element `i` of the row. -/
def encodeRow (f : Fmt) (g : XNum) (rnd : Nat → Rnd) (xs : List XNum) : List Byte × QEvents :=
  if f.isBlock then
    let blks := (chunksOf 32 ((xs.length + 31) / 32) xs).zipIdx.map fun (ys, b) =>
      quantBlock f g (fun i => rnd (32 * b + i)) ys
    let groups := chunksOf 16 ((blks.length + 15) / 16) blks
    let bytes := groups.flatMap fun gr =>
      let pad := List.replicate (16 - gr.length) (⟨0, List.replicate 32 0, {}⟩ : QBlock)
      let full := gr ++ pad
      (full.flatMap fun q => leBytes f.blockBytes (packCodes f.width q.codes)) ++
        full.map fun q => BitVec.ofNat 8 q.scale
    (bytes, blks.foldl (fun e q => e.add q.ev) {})
  else
    let cs := xs.zipIdx.map fun (x, i) => convert f (rnd i) x
    (leBytes (f.rowBytes xs.length) (packCodes f.width (cs.map Conv.code)),
      cs.foldl (fun e c => e.add c.events) {})

/-- The operand format word of Table 02.5. -/
structure FmtWord where
  fmt : Fmt
  gainMode : Nat
  round : Bool
  deriving DecidableEq, Repr

/-- The role in which a format word stands in a descriptor (Table 02.1, R58, R59, R77). -/
inductive Role where
  | act | weight | output
  deriving DecidableEq, Repr

/-- R58, R59, R76, R77, R86: read a format word in a role; none is a word its descriptor is refused for. `gain` is
the descriptor's gain field, read only under GAIN_MODE 0b01. -/
def readFmtWord (role : Role) (w gain : Nat) : Option FmtWord :=
  match fmtOfCode (bits w 0 4) with
  | none => none
  | some f =>
    let gm := bits w 4 2
    let rnd := bit w 6
    let narrow := decide (f.width ≤ 8)
    let roleOk := match role with
      | .act => decide (f ≠ .fp32) && decide (f ≠ .nb3) && decide (f ≠ .nb2)
      | .weight => decide (f ≠ .fp32)
      | .output => decide (f ≠ .nb3) && decide (f ≠ .nb2)
    let gainsOk := match gm with
      | 0 => true
      | 1 => f.isNB && gainOk gain
      | 2 => f.isNB && decide (role = .output)
      | _ => false
    let rndOk := !rnd || (decide (role = .output) && narrow)
    if roleOk && gainsOk && rndOk && decide (bits w 7 25 = 0) then some ⟨f, gm, rnd⟩ else none

/-- R58, R77, R665: a format word of an operand that a descriptor does not use: its reserved bits and ROUND are 0, and it
names a format and a gain mode of an operand. That the word is checked at all is the model's reading (DESIGN CHOICE,
log 41). -/
def unusedFmtOk (w : Nat) : Bool := (fmtOfCode (bits w 0 4)).isSome && decide (bits w 4 2 < 2) && decide (bits w 6 26 = 0)

/-- The gain value of a format word: the descriptor's gain under GAIN_MODE 0b01, 1 otherwise (R71, Table 02.5). -/
def FmtWord.gainNum (w : FmtWord) (gain : Nat) : XNum :=
  if w.gainMode = 1 then numOf32 gain else .fin false 1

/-- R66, R69: whether a row length suits a format. -/
def Fmt.lengthOk (f : Fmt) (k : Nat) : Bool :=
  if f.isBlock then k % 32 = 0
  else match f with
    | .e3m2 | .e2m3 => k % 4 = 0
    | .e2m1 | .int4 => k % 2 = 0
    | _ => true

end Sys2Proof.Machine
end

