-- ==== Sys2Proof/Machine/Functions.lean ====
section
/-! DEFINITION. Sys2Proof/Machine/Functions.lean: the FP32 functions that the spec bounds in units in the last place
(R135, Tables 03.7 and 04.5): a close rational value of each, and the FP32 values within its bound, among which the
result is free (log 4). -/
namespace Sys2Proof.Machine
open Sys2Proof

/-! ### Fixed-point arithmetic with 512 fractional bits -/

/-- One. -/
def fxOne : Int := 2 ^ 512

/-- The fixed-point value of a rational, rounded down. -/
def fxOf (q : Rat) : Int := (q * (fxOne : Rat)).floor

/-- The rational value of a fixed-point number. -/
def fxRat (x : Int) : Rat := (x : Rat) / (fxOne : Rat)

/-- Product, rounded down. -/
def fxMul (x y : Int) : Int := x * y / fxOne

/-- Sum of the terms t₀, t₁ = next 1 t₀, … of a series: term `i` is `next i` of the term before it. -/
def fxSeries (next : Nat → Int → Int) (t0 : Int) (n : Nat) : Int :=
  ((List.range n).foldl (fun (st : Int × Int) i => (st.1 + st.2, next (i + 1) st.2)) (0, t0)).1

/-- The inverse hyperbolic tangent of 1/k: Σ 1 / ((2i + 1) k^(2i + 1)). -/
def fxAtanhInv (k : Int) : Int :=
  ((List.range 520).foldl (fun (st : Int × Int) (i : Nat) => (st.1 + st.2 / (2 * (i : Int) + 1), st.2 / (k * k))) (0, fxOne / k)).1

/-- The inverse tangent of 1/k: Σ (−1)^i / ((2i + 1) k^(2i + 1)). -/
def fxAtanInv (k : Int) : Int :=
  ((List.range 520).foldl (fun (st : Int × Int) (i : Nat) => (st.1 + st.2 / (2 * (i : Int) + 1), -(st.2 / (k * k)))) (0, fxOne / k)).1

/-- ln 2 = 2 atanh(1/3). -/
def fxLn2 : Int := 2 * fxAtanhInv 3

/-- π = 16 atan(1/5) − 4 atan(1/239). -/
def fxPi : Int := 16 * fxAtanInv 5 - 4 * fxAtanInv 239

/-- Square root of a non-negative fixed-point number. -/
def fxSqrt (x : Int) : Int := (Nat.sqrt (x.toNat * 2 ^ 512) : Int)

/-! ### The functions as rational values -/

/-- 2^q, for exponents that reach FP32's range; below them 2^(−400), above them 2^400. -/
def exp2Q (q : Rat) : Rat :=
  let n := q.floor
  if n < -400 then pow2 (-400) else if 400 < n then pow2 400
  else
    let f := fxMul (fxOf (q - (n : Rat))) fxLn2
    fxRat (fxSeries (fun i t => fxMul t f / (i : Int)) fxOne 140) * pow2 n

/-- e^q. -/
def expQ (q : Rat) : Rat := exp2Q (q / fxRat fxLn2)

/-- log2 of a positive rational. -/
def log2Q (q : Rat) : Rat :=
  let e := floorLog2 q
  let m := q / pow2 e
  let t := fxOf ((m - 1) / (m + 1))
  let s := ((List.range 200).foldl (fun (st : Int × Int) (i : Nat) => (st.1 + st.2 / (2 * (i : Int) + 1), fxMul (fxMul st.2 t) t)) (0, t)).1
  (e : Rat) + fxRat (2 * s) / fxRat fxLn2

/-- 1/√q of a positive rational: q is a number from 1 to 4 times a power of 4. -/
def rsqrtQ (q : Rat) : Rat :=
  let e := floorLog2 q / 2
  fxRat (fxSqrt (fxOf (1 / (q / pow2 (2 * e))))) * pow2 (-e)

/-- An angle less the nearest multiple of 2π, as a fixed-point number. -/
def fxAngle (q : Rat) : Int :=
  let turn := 2 * fxRat fxPi
  fxOf (q - turn * ((q / turn + 1 / 2).floor : Rat))

/-- sin q. -/
def sinQ (q : Rat) : Rat :=
  let a := fxAngle q
  fxRat (fxSeries (fun i t => -(fxMul (fxMul t a) a) / ((2 * i * (2 * i + 1) : Nat) : Int)) a 100)

/-- cos q. -/
def cosQ (q : Rat) : Rat :=
  let a := fxAngle q
  fxRat (fxSeries (fun i t => -(fxMul (fxMul t a) a) / (((2 * i - 1) * (2 * i) : Nat) : Int)) fxOne 100)

/-- The sigmoid 1 / (1 + e^(−q)). -/
def sigmoidQ (q : Rat) : Rat := 1 / (1 + expQ (-q))

/-- √(2/π). -/
def fxRoot2Pi : Int := fxSqrt (2 * fxOne * fxOne / fxPi)

/-- The normal distribution (1 + erf(q/√2)) / 2, by √(2/π) Σ (−1)^i q^(2i+1) / (2^i i! (2i+1)). -/
def normalQ (q : Rat) : Rat :=
  if q < -15 then 0 else if 15 < q then 1
  else
    let x := fxOf q
    let h := fxMul x x / 2
    let s := ((List.range 900).foldl (fun (st : Int × Int) (i : Nat) =>
      (st.1 + st.2 / (2 * (i : Int) + 1), -(fxMul st.2 h) / ((i : Int) + 1))) (0, x)).1
    (1 + fxRat (fxMul fxRoot2Pi s)) / 2

/-- GELU in its tanh form: x (1 + tanh u) / 2 = x sigmoid(2u), u = √(2/π)(x + 0.044715 x³). -/
def geluTanhQ (q : Rat) : Rat := q * sigmoidQ (2 * fxRat fxRoot2Pi * (q + 44715 / 1000000 * q * q * q))

/-- Codes of the functions: exp2, log2, reciprocal square root, sine, cosine, and the activation functions of Table 03.7
from 0x10 on. -/
def fnExp2 : Nat := 0
def fnLog2 : Nat := 1
def fnRsqrt : Nat := 3
def fnSin : Nat := 4
def fnCos : Nat := 5

/-- A close rational value of a function of a finite operand, with its bound in ulp; none at a pole or outside the
domain, where the spec states no result. -/
def fnNear (code : Nat) (q : Rat) : Option (Rat × Nat) :=
  match code with
  | 0 => some (exp2Q q, 1)
  | 1 => if 0 < q then some (log2Q q, 1) else none
  | 3 => if 0 < q then some (rsqrtQ q, 1) else none
  | 4 => some (sinQ q, 1)
  | 5 => some (cosQ q, 1)
  | 0x12 => some (geluTanhQ q, 2)
  | 0x13 => some (q * normalQ q, 2)
  | 0x14 => some (q * sigmoidQ q, 2)
  | 0x15 => some (sigmoidQ q, 2)
  | _ => none

/-- The value that a function tends to at an infinity, with its bound in ulp; none where it has none. -/
def fnAtInf (code : Nat) (neg : Bool) : Option (XNum × Nat) :=
  match code, neg with
  | 0, false => some (.inf false, 0)
  | 0, true => some (.zero, 0)
  | 1, false => some (.inf false, 0)
  | 3, false => some (.zero, 1)
  | 0x12, false => some (.inf false, 0)
  | 0x13, false => some (.inf false, 0)
  | 0x14, false => some (.inf false, 0)
  | 0x15, false => some (.fin false 1, 2)
  | 0x12, true => some (.zero, 2)
  | 0x13, true => some (.zero, 2)
  | 0x14, true => some (.zero, 2)
  | 0x15, true => some (.zero, 2)
  | _, _ => none

/-- The unit in the last place of FP32 at a value. -/
def ulp32 (q : Rat) : Rat :=
  let a := if q < 0 then -q else q
  if a < pow2 (-126) then pow2 (-149) else pow2 (floorLog2 a - 23)

/-- The FP32 values within `k` ulp of a rational, those beyond the largest finite value being infinite (Table 02.6). -/
def withinUlps (k : Nat) (q : Rat) : List XNum :=
  let c : Int := (Fmt.fp32.grid.below (if q < 0 then -q else q)).1
  let o : Int := if q < 0 then -c else c
  let near := (List.range (2 * k + 3)).map fun (i : Nat) => o + (i : Int) - (k : Int) - 1
  let vals := near.map fun j => if 0x7F800000 ≤ j.natAbs then XNum.inf (decide (j < 0)) else XNum.fin (decide (j < 0)) (Fmt.fp32.grid.value j.natAbs)
  let slack := ulp32 q * ((k : Rat) + pow2 (-60))
  let edge := Fmt.fp32.grid.value 0x7F7FFFFF
  vals.filter fun v => match v with
    | .fin _ _ => decide (v.toRat - q ≤ slack) && decide (q - v.toRat ≤ slack)
    | .inf neg => if neg then decide (q - slack ≤ -edge) else decide (edge ≤ q + slack)
    | .nan => false

/-- An FP32 function that the spec bounds in ulp (R135): NaN gives NaN; a value with a bound is one of those within it;
at a pole and outside the domain it is free. `Config.fp32Fn` chooses, alike on every core (R135, log 4). -/
def freeFn (code : Nat) (x : XNum) : XNum :=
  let pick := Config.fp32Fn code (to32 x)
  match x with
  | .nan => .nan
  | .inf neg => match fnAtInf code neg with
    | some (v, 0) => v
    | some (v, k) => nth v (withinUlps k v.toRat) (pick % (withinUlps k v.toRat).length)
    | none => numOf32 pick
  | _ => match fnNear code x.toRat with
    | some (q, k) => nth (round32 (.ofRat q)) (withinUlps k q) (pick % (withinUlps k q).length)
    | none => numOf32 pick

end Sys2Proof.Machine
end

