-- ==== Sys2Proof/Machine/Ecc.lean ====
section
/-! DEFINITION. Sys2Proof/Machine/Ecc.lean: arithmetic in GF(2^8), and the code that protects a 64-byte access of HBM
(spec/07_hbm_memory.md R258 to R260). -/
namespace Sys2Proof.Machine
open Sys2Proof

/-! ### Arithmetic in GF(2^8) -/

/-- Times x in the field of a polynomial of degree 8. -/
def gfDouble (poly a : Nat) : Nat := if 128 ≤ a then (2 * a) ^^^ poly else 2 * a

/-- The product of two elements: the steps left, the multiples of the first, the bits of the second, and the sum. -/
def gfSteps (poly : Nat) : Nat → Nat → Nat → Nat → Nat
  | 0, _, _, r => r
  | n + 1, a, b, r => gfSteps poly n (gfDouble poly a) (b / 2) (if b % 2 = 1 then r ^^^ a else r)

/-- The product of two elements. -/
def gfMul (poly a b : Nat) : Nat := gfSteps poly 8 a b 0

/-- A power of an element. -/
def gfPow (poly a : Nat) : Nat → Nat
  | 0 => 1
  | n + 1 => gfMul poly a (gfPow poly a n)

/-- The inverse of an element, and 0 of 0: its 254th power. -/
def gfInv (poly a : Nat) : Nat :=
  let a2 := gfMul poly a a
  let a3 := gfMul poly a2 a
  let a6 := gfMul poly a3 a3
  let a12 := gfMul poly a6 a6
  let a15 := gfMul poly a12 a3
  let a30 := gfMul poly a15 a15
  let a60 := gfMul poly a30 a30
  let a120 := gfMul poly a60 a60
  let a240 := gfMul poly a120 a120
  gfMul poly a240 (gfMul poly a12 a2)

/-! ### The code of an access (R258) -/

/-- x^8 + x^4 + x^3 + x^2 + 1, the field polynomial of R258. -/
def eccPoly : Nat := 0x11D

/-- The generator, whose roots are α^0 to α^3, by descending powers. -/
def eccGenerator : List Nat :=
  (List.range 4).foldl (fun (g : List Nat) i =>
    ((g ++ [0]).zip (0 :: g)).map fun (x : Nat × Nat) => x.1 ^^^ gfMul eccPoly x.2 (gfPow eccPoly 2 i)) [1]

/-- One step of the division of the data by the generator. -/
def eccStep (rem : List Nat) (d : Nat) : List Nat :=
  let lead := d ^^^ (rem.headD 0)
  ((rem.drop 1 ++ [0]).zip (eccGenerator.drop 1)).map fun (x : Nat × Nat) => x.1 ^^^ gfMul eccPoly lead x.2

/-- The check symbols of 64 data symbols. -/
def checkSymbols (data : List Byte) : List Byte := ((data.map (·.toNat)).foldl eccStep [0, 0, 0, 0]).map fun x => BitVec.ofNat 8 x

/-- The 68 symbols of an access: data, then check symbols (their order as coefficients: DESIGN CHOICE, log 46). -/
def accessSymbols (data : List Byte) : List Byte := data ++ checkSymbols data

/-- R258: the 34 bits of a beat: four data symbols, one to a byte lane, and two bits of a check symbol. -/
def accessBeat (symbols : List Byte) (beat : Nat) : BitVec 34 :=
  BitVec.ofNat 34 (leNat ((symbols.drop (4 * beat)).take 4) +
    0x100000000 * ((symbols.getD (64 + beat / 4) 0).toNat / 4 ^ (beat % 4) % 4))

/-! ### Decoding (R259, R260) -/

/-- Failed symbols of an access: the bits that have flipped in each, by symbol number. -/
abbrev Flips := SMap Byte

/-- Locator of a symbol. -/
def eccLocator (sym : Nat) : Nat := gfPow eccPoly 2 (67 - sym)

/-- The syndromes of an access. The code is linear: they depend on the failed symbols alone. -/
def eccSyndromes (f : Flips) : List Nat :=
  (List.range 4).map fun i => f.foldl (fun a x => a ^^^ gfMul eccPoly x.2.toNat (gfPow eccPoly (eccLocator x.1) i)) 0

/-- What the decoder makes of an access: nothing wrong, one symbol to correct, or more than it can correct. -/
inductive EccRead where | clean | one (sym : Nat) (flip : Byte) | bad
  deriving DecidableEq, Repr

/-- Whether one failed symbol explains the syndromes. -/
def explains (s : List Nat) (sym : Nat) : Bool :=
  let x := eccLocator sym
  decide (s = (List.range 4).map fun i => gfMul eccPoly (s.headD 0) (gfPow eccPoly x i))

/-- R259: decode an access. -/
def eccDecode (f : Flips) : EccRead :=
  if f.isEmpty then .clean
  else
    let s := eccSyndromes f
    if s = [0, 0, 0, 0] then .clean
    else match (List.range 68).find? fun sym => explains s sym with
      | some sym => .one sym (BitVec.ofNat 8 (s.headD 0))
      | none => .bad

/-- The symbols that reports of failed symbols name, each with all its flipped bits. -/
def flipsOf (l : List (Nat × Byte)) : Flips := l.foldl (fun m x => if x.1 < 68 then SMap.upd 0 m x.1 (· ^^^ x.2) else m) []

/-- R260: poison: every check symbol inverted. -/
def poisonFlips : Flips := flipsOf ((List.range 4).map fun i => (64 + i, 0xFF#8))

end Sys2Proof.Machine
end

