-- ==== Sys2Proof/Machine/Sha.lean ====
section
/-! DEFINITION. Sys2Proof/Machine/Sha.lean: SHA-384 of FIPS 180-4 and HMAC with it, as R474, R510, R529 and R553 name
them. -/
namespace Sys2Proof.Machine
open Sys2Proof

/-- The largest number whose `d`-th power is at most `n`, found one bit at a time below bit `fuel`. -/
def rootBelow (d n : Nat) : Nat → Nat → Nat
  | 0, r => r
  | i + 1, r => rootBelow d n i (if (r + 2 ^ i) ^ d ≤ n then r + 2 ^ i else r)

/-- The first 64 bits of the fraction of the `d`-th root of a prime below 512, from which FIPS 180-4 takes its
constants. -/
def rootFraction (d p : Nat) : DWord := BitVec.ofNat 64 (rootBelow d (p * 2 ^ (64 * d)) 69 0)

/-- The primes below a bound, in ascending order. -/
def primesBelow (n : Nat) : List Nat :=
  (List.range n).filter fun p => 2 ≤ p && (List.range 22).all fun q => decide (q < 2) || decide (p ≤ q) || decide (p % q ≠ 0)

/-- Initial hash value of SHA-384: square roots of the ninth to the sixteenth prime. -/
def shaInit : List DWord := ((primesBelow 54).drop 8).map (rootFraction 2)

/-- The eighty round constants of SHA-384: cube roots of the first eighty primes. -/
def shaK : List DWord := (primesBelow 410).map (rootFraction 3)

/-- Rotate right. -/
def rotr64 (x : DWord) (n : Nat) : DWord := (x >>> n) ||| (x <<< (64 - n))

/-- Big-endian words of a block. -/
def beWords : List Byte → List DWord
  | a :: b :: c :: d :: e :: f :: g :: h :: r =>
    BitVec.ofNat 64 (leNat [h, g, f, e, d, c, b, a]) :: beWords r
  | _ => []

/-- One word of the message schedule, from the sixteen before it, oldest first. -/
def shaNext (w : List DWord) : DWord :=
  let x := nth 0 w 1
  let y := nth 0 w 14
  (rotr64 y 19 ^^^ rotr64 y 61 ^^^ (y >>> 6)) + nth 0 w 9 + (rotr64 x 1 ^^^ rotr64 x 8 ^^^ (x >>> 7)) + nth 0 w 0

/-- One round on the eight working variables. -/
def shaRound (v : List DWord) (k w : DWord) : List DWord :=
  match v with
  | [a, b, c, d, e, f, g, h] =>
    let t1 := h + (rotr64 e 14 ^^^ rotr64 e 18 ^^^ rotr64 e 41) + ((e &&& f) ^^^ (~~~e &&& g)) + k + w
    let t2 := (rotr64 a 28 ^^^ rotr64 a 34 ^^^ rotr64 a 39) + ((a &&& b) ^^^ (a &&& c) ^^^ (b &&& c))
    [t1 + t2, a, b, c, d + t1, e, f, g]
  | v => v

/-- The rounds of one block: remaining constants, working variables, and the next sixteen words of the schedule. -/
def shaRounds : List DWord → List DWord → List DWord → List DWord
  | [], v, _ => v
  | k :: ks, v, w => shaRounds ks (shaRound v k (nth 0 w 0)) (w.tail ++ [shaNext w])

/-- Compress the blocks of a padded message. -/
def shaBlocks : Nat → List DWord → List Byte → List DWord
  | 0, h, _ => h
  | n + 1, h, m => shaBlocks n ((h.zip (shaRounds shaK h (beWords (m.take 128)))).map fun (x, y) => x + y) (m.drop 128)

/-- Padding of FIPS 180-4. -/
def shaPad (m : List Byte) : List Byte :=
  let z := (128 - (m.length + 17) % 128) % 128
  m ++ [0x80] ++ List.replicate z 0 ++ (leBytes 16 (8 * m.length)).reverse

/-- SHA-384 of a message: 48 bytes. -/
def sha384 (m : List Byte) : List Byte :=
  let p := shaPad m
  ((shaBlocks (p.length / 128) shaInit p).take 6).flatMap fun w => (leBytes 8 w.toNat).reverse

/-- HMAC-SHA-384 under a key. -/
def hmac384 (key m : List Byte) : List Byte :=
  let k := if 128 < key.length then sha384 key else key
  let k := k ++ List.replicate (128 - k.length) 0
  sha384 (k.map (· ^^^ 0x5C) ++ sha384 (k.map (· ^^^ 0x36) ++ m))

end Sys2Proof.Machine
end

