-- ==== Sys2Proof/Machine/Aes.lean ====
section
/-! DEFINITION. Sys2Proof/Machine/Aes.lean: the cryptographic functions that the spec names by their standards: AES-256
(FIPS 197), its XTS mode (IEEE 1619), its GCM mode (SP 800-38D), and HKDF with SHA-384 (RFC 5869), as R341, R511, R514,
R519 and R520 use them. -/
namespace Sys2Proof.Machine
open Sys2Proof

/-! ### AES-256 -/

/-- The polynomial of AES. -/
def aesPoly : Nat := 0x11B

/-- Rotate a byte left. -/
def rotl8 (a n : Nat) : Nat := (a * 2 ^ n) % 256 + a / 2 ^ (8 - n)

/-- SubBytes of a byte. -/
def aesSub (a : Nat) : Nat :=
  let b := gfInv aesPoly a
  b ^^^ rotl8 b 1 ^^^ rotl8 b 2 ^^^ rotl8 b 3 ^^^ rotl8 b 4 ^^^ 0x63

/-- InvSubBytes of a byte. -/
def aesUnsub (a : Nat) : Nat := gfInv aesPoly (rotl8 a 1 ^^^ rotl8 a 3 ^^^ rotl8 a 6 ^^^ 0x05)

/-- Add two strings of bytes. -/
def xorNats (a b : List Nat) : List Nat := (a.zip b).map fun x => x.1 ^^^ x.2

/-- The round keys of a 32-byte key, sixteen bytes each. -/
def aesKeys (key : List Byte) : List (List Nat) :=
  let word (l : List Nat) (i : Nat) : List Nat := (l.drop (4 * i)).take 4
  let all := (List.range 52).foldl (fun l j =>
    let t := word l (j + 7)
    let t := if j % 8 = 0 then xorNats ((t.drop 1 ++ t.take 1).map aesSub) [gfPow aesPoly 2 (j / 8), 0, 0, 0]
      else if j % 8 = 4 then t.map aesSub else t
    l ++ xorNats (word l j) t) (key.map BitVec.toNat)
  (List.range 15).map fun r => (all.drop (16 * r)).take 16

/-- ShiftRows, each row by `d` times its number. -/
def aesShift (d : Nat) (b : List Nat) : List Nat :=
  (List.range 16).map fun i => nth 0 b (4 * ((i / 4 + d * (i % 4)) % 4) + i % 4)

/-- MixColumns with the coefficients of the first row. -/
def aesMix (m : List Nat) (b : List Nat) : List Nat :=
  (List.range 16).map fun i =>
    (List.range 4).foldl (fun a k => a ^^^ gfMul aesPoly (nth 0 m ((k + 4 - i % 4) % 4)) (nth 0 b (4 * (i / 4) + k))) 0

/-- Encrypt one block under round keys. -/
def aesEnc (keys : List (List Nat)) (block : List Nat) : List Nat :=
  let mid := ((keys.drop 1).take 13).foldl (fun b k => xorNats (aesMix [2, 3, 1, 1] (aesShift 1 (b.map aesSub))) k) (xorNats block (nth [] keys 0))
  xorNats (aesShift 1 (mid.map aesSub)) (nth [] keys 14)

/-- Decrypt one block under round keys. -/
def aesDec (keys : List (List Nat)) (block : List Nat) : List Nat :=
  let mid := ((keys.drop 1).take 13).foldr (fun k b => aesMix [14, 11, 13, 9] (xorNats ((aesShift 3 b).map aesUnsub) k)) (xorNats block (nth [] keys 14))
  xorNats ((aesShift 3 mid).map aesUnsub) (nth [] keys 0)

/-- The bytes of a number, least significant first. -/
def natBytes : Nat → Nat → List Nat
  | 0, _ => []
  | n + 1, v => v % 256 :: natBytes n (v / 256)

/-- The number that bytes hold, least significant first. -/
def bytesNat (l : List Nat) : Nat := l.foldr (fun b v => b + 256 * v) 0

/-! ### XTS (R341, R514) -/

/-- The next tweak of a data unit. -/
def xtsNext (t : Nat) : Nat := if 2 ^ 127 ≤ t then ((2 * t) % 2 ^ 128) ^^^ 0x87 else 2 * t

/-- The blocks of a data unit, each through a cipher between two sums with its tweak. -/
def xtsBlocks (cipher : List Nat → List Nat) : Nat → Nat → List Nat → List Nat
  | 0, _, _ => []
  | n + 1, t, l =>
    let w := natBytes 16 t
    xorNats (cipher (xorNats (l.take 16) w)) w ++ xtsBlocks cipher n (xtsNext t) (l.drop 16)

/-- One data unit of whole blocks under a 64-byte key: the second half of the key encrypts the unit's number, the first
serves the cipher. -/
def xtsUnit (cipher : List (List Nat) → List Nat → List Nat) (key : List Byte) (unit : Nat) (data : List Byte) : List Byte :=
  let t := bytesNat (aesEnc (aesKeys (key.drop 32)) (natBytes 16 unit))
  (xtsBlocks (cipher (aesKeys (key.take 32))) (data.length / 16) t (data.map BitVec.toNat)).map (BitVec.ofNat 8)

/-- Encrypt one data unit. -/
def xtsEncrypt (key : List Byte) (unit : Nat) (data : List Byte) : List Byte := xtsUnit aesEnc key unit data

/-- Decrypt one data unit. -/
def xtsDecrypt (key : List Byte) (unit : Nat) (data : List Byte) : List Byte := xtsUnit aesDec key unit data

/-! ### GCM (R520) -/

/-- One product of GHASH, the first bit the coefficient of 1: the bits left, the multiplier, its multiple, the sum. -/
def ghashSteps : Nat → Nat → Nat → Nat → Nat
  | 0, _, _, z => z
  | n + 1, x, v, z =>
    ghashSteps n x (if v % 2 = 1 then (v / 2) ^^^ (0xE1 * 2 ^ 120) else v / 2) (if x / 2 ^ n % 2 = 1 then z ^^^ v else z)

/-- GHASH of whole blocks. -/
def ghash (h : Nat) (blocks : List (List Nat)) : Nat :=
  blocks.foldl (fun y b => ghashSteps 128 (y ^^^ bytesNat b.reverse) h 0) 0

/-- Cut bytes into blocks of sixteen, the last filled with zeros. -/
def gcmBlocks (l : List Nat) : List (List Nat) :=
  (List.range ((l.length + 15) / 16)).map fun i =>
    let b := (l.drop (16 * i)).take 16
    b ++ List.replicate (16 - b.length) 0

/-- Encrypt bytes under a 32-byte key and a 96-bit nonce, and authenticate them with additional data: the ciphertext
and the 16-byte tag behind it. -/
def gcmSeal (key : List Byte) (nonce : Nat) (aad plain : List Byte) : List Byte :=
  let keys := aesKeys key
  let iv := (natBytes 12 nonce).reverse
  let pad (i : Nat) : List Nat := aesEnc keys (iv ++ (natBytes 4 i).reverse)
  let p := plain.map BitVec.toNat
  let c := ((gcmBlocks p).zipIdx.flatMap fun x => xorNats x.1 (pad (x.2 + 2))).take p.length
  let h := bytesNat (aesEnc keys (List.replicate 16 0)).reverse
  let lens := (natBytes 8 (8 * aad.length)).reverse ++ (natBytes 8 (8 * p.length)).reverse
  let s := ghash h (gcmBlocks (aad.map BitVec.toNat) ++ gcmBlocks c ++ [lens])
  (c ++ xorNats (natBytes 16 s).reverse (pad 1)).map (BitVec.ofNat 8)

/-! ### HKDF (R511) -/

/-- HKDF-Extract. -/
def hkdfExtract (salt ikm : List Byte) : List Byte := hmac384 salt ikm

/-- Blocks of HKDF-Expand from one on: those left, the number of the next, and the block before. -/
def hkdfBlocks (prk info : List Byte) : Nat → Nat → List Byte → List Byte
  | 0, _, _ => []
  | n + 1, i, t =>
    let t := hmac384 prk (t ++ info ++ [BitVec.ofNat 8 i])
    t ++ hkdfBlocks prk info n (i + 1) t

/-- HKDF-Expand: `n` bytes of output. -/
def hkdfExpand (prk info : List Byte) (n : Nat) : List Byte := (hkdfBlocks prk info ((n + 47) / 48) 1 []).take n

end Sys2Proof.Machine
end

