-- ==== Sys2Proof/Machine/State.lean ====
section
/-! DEFINITION. Sys2Proof/Machine/State.lean: the state of the package as plain data, block by block, and the state
after reset. The value after `:=` beside a field is its value in `State.reset`. -/
namespace Sys2Proof.Machine
open Sys2Proof

/-! ### Outcomes -/

/-- Faults of the model. No command of this package stops the machine, so the type has no constructor. -/
inductive Fault where
  deriving DecidableEq, Repr

/-- Reasons for which a command has no meaning in the model. -/
inductive Refusal where
  /-- The command of that mnemonic has not been given its meaning yet; raised by `exec` alone. Safe: the run stops. -/
  | notModelled (mnemonic : String)
  deriving DecidableEq, Repr

/-! ### Status codes -/

/-- The status codes of Table 17.1 (R599). -/
inductive Status where
  | done | busy | absentUnit | badImage | sigFail | noResource | poisoned | nodeLost
  | targetStopped | permission | timeout | cancelled | objectLost | range | replayed | ttlExpired
  deriving DecidableEq, Repr

/-- Table 17.1: the 8-bit code of a status. -/
def Status.code : Status → Nat
  | .done => 0x00
  | .busy => 0x01
  | .absentUnit => 0x02
  | .badImage => 0x03
  | .sigFail => 0x04
  | .noResource => 0x05
  | .poisoned => 0x06
  | .nodeLost => 0x07
  | .targetStopped => 0x08
  | .permission => 0x09
  | .timeout => 0x0A
  | .cancelled => 0x0B
  | .objectLost => 0x0C
  | .range => 0x0D
  | .replayed => 0x0E
  | .ttlExpired => 0x0F

/-! ### What is fused and strapped -/

/-- The ordering codes of Table 00.2. -/
inductive Variant where | f | m | s
  deriving DecidableEq, Repr

/-- What is fused into one part or strapped on its board. The spec calls these fused, per part, or gives them by
ordering code; the values here are one part of ordering code RVX9-F (DESIGN CHOICE, log 2). -/
structure Fuses where
  /-- ID.VARIANT.CODE (R7). -/
  variant : Variant := .f
  /-- Package serial number (Table 15.1). -/
  serial : Nat := 0x5E7A
  /-- GAU.K_NOM (Table 12.8): calibration at manufacture. -/
  kNom : Nat := 0x10000
  /-- GAU.WEIGHT: energy of one event of each class. -/
  weight : List Nat := List.replicate 96 1
  /-- WEIR.FLOOR_W. -/
  floorW : Nat := 600
  /-- S_LO and S_HI: the slack window of the path-delay monitors (R503). -/
  slackLo : Int := 10
  slackHi : Int := 20
  /-- Fused MAC base (Table 11.6). -/
  macBase : Nat := 0
  /-- Fused firmware version floor (R568). -/
  fwFloor : Nat := 0
  deriving DecidableEq, Repr

/-! ### Outputs -/

/-- What the package has sent out of itself, in order: the model's own record of its outputs. -/
inductive Out where
  /-- An MSI-X message of a function (0 PF0, 1 + v VF v) for a vector (Table 16.4). -/
  | msix (fn vec : Nat)
  /-- Completion of a BAR read: data, Unsupported Request or Completer Abort. -/
  | barData (bytes : List Byte)
  | barUR
  | barCA
  /-- A link control frame sent on a port (Table 11.5): type and fields. -/
  | frame (port : Nat) (kind : Nat) (fields : List Nat)
  /-- A Basin request sent for a node: kind, tag, source cove, SSN, address, length and data. -/
  | request (node kind tag cove ssn addr len : Nat) (data : List Byte)
  /-- A Basin response: requester, kind, tag, status and data. -/
  | response (node kind tag status : Nat) (data : List Byte)
  /-- An SPDM or vendor response of a mailbox: code and data. -/
  | spdm (fn code : Nat) (data : List Byte)
  /-- A stream-table entry copied to a shadow buddy (R251). -/
  | shadow (node entry : Nat) (bits : BitVec 1024)
  /-- An I3C private write was accepted (true) or rejected. -/
  | i3c (accepted : Bool)
  /-- What an instruction on the debug port shifts out (R538). -/
  | jtag (bytes : List Byte)
  deriving DecidableEq, Repr

/-! ### Chapter 01: the budget arbiter -/

/-- Class of an activity (Table 01.8). -/
inductive ActClass where | lc | std | be
  deriving DecidableEq, Repr

/-- One activity declaration (Table 01.8, ACTIVITIES section of Table 15.3). -/
structure Activity where
  resource : Nat
  index : Nat
  cls : ActClass
  floor : Nat
  ceiling : Nat
  weight : Nat
  cove : Nat
  deriving DecidableEq, Repr

/-- The arbiter of one resource, or of one bridge or port of a resource (R40 to R49), as it stands in the present
period. -/
structure Arb where
  /-- Live capacity of the period (R40). -/
  cap : Nat := 0
  /-- Grants of the period, by activity index. -/
  grant : SMap Nat := []
  /-- Starvation count of each BE activity (R46). -/
  starve : SMap Nat := []
  /-- Aged activities: the periods each stays aged (R47). -/
  aged : SMap Nat := []
  /-- Index at which indivisible units start (R44). -/
  start : Nat := 0
  /-- The period the grants are for. -/
  period : Option Nat := none
  /-- Units charged in the period, by the activity whose grant they are charged against (R288, R316, R375, R407). -/
  used : SMap Nat := []
  deriving DecidableEq, Repr

/-! ### Chapters 03 and 04: matrix cores and attention engines -/

/-- A posted pond or attention list (R112, R159). The header itself, with CLAIM, DONE_TILES, TRIP, RUNG, STATUS and
REPLAYS, stays in the memory that `hdr` names. -/
structure WorkList where
  /-- Cove-virtual address of the header. -/
  hdr : Nat
  /-- Its descriptors have ESC.MODE 2 (R113, R118). -/
  escalates : Bool
  /-- ESC word of its descriptors with MODE 2. -/
  esc : Nat
  /-- Merged status of the list, and of each of its descriptors by address (R123, R172). -/
  st : Status
  descs : List (Nat × Status)
  /-- Every tile of the last pass is done; the completion steps of R124 or R164 are due. -/
  ended : Bool
  /-- Format faults met (R74): descriptor address, region of its operands, and the faults of that region. -/
  faults : List (Nat × Nat × Nat) := []
  deriving DecidableEq, Repr

/-- A tile or attention unit that an engine holds (R114, R157). -/
structure TileRun where
  cove : Nat
  hdr : Nat
  pass : Nat
  /-- The descriptor's address and its bytes as read at the claim. -/
  descAddr : Nat
  desc : List Byte
  /-- TILE of the entry: the tile or unit number. -/
  tile : Nat
  /-- The rung read when the tile started (R114). -/
  rung : Nat
  /-- A status known before the accumulation starts: a refused descriptor (R116), an absent unit (R13). -/
  early : Option Status
  /-- The tile waits for a refetch of the page at this cove-virtual address (R127, R171). -/
  waiting : Option Nat
  /-- A waiting tile's page ended with OBJECT_LOST (R127). -/
  lost : Bool
  /-- Address of the list entry that was claimed. -/
  entry : Nat := 0
  /-- RUNG of the list it follows, as read when it started (R122, R153), and the status that reading gave. -/
  follow : Nat := 0xFF
  rungErr : Option Status := none
  /-- The refetch it waited for has ended; it has been restarted, so that its energy is the house's (R127, R171). -/
  released : Bool := false
  restarted : Bool := false
  deriving DecidableEq, Repr

/-! ### Chapter 05: the Shoal -/

/-- A token–destination pair (R190), in the order of its record within its run. -/
structure Pair where
  token : Nat
  dest : Nat
  round : Nat
  mask : Nat
  /-- Local expert and weight of each set mask bit, in choice position. -/
  locals : List Nat
  weights : List Nat
  stream : Nat
  /-- Expert and choice position of each set mask bit (for a re-send, R204). -/
  experts : List (Nat × Nat)
  returned : Bool := false
  lost : Bool := false
  /-- Its row could not be read: it counts as returned with a row of zeros (R206). -/
  zero : Bool := false
  /-- Its record stands in the send area (R195). -/
  packed : Bool := false
  deriving DecidableEq, Repr

/-- Where the runs to one destination stand (R196, R197). -/
structure DestRun where
  /-- RET_CTR + d when the descriptor started, and the rises that returns have owed so far. -/
  base : DWord := 0
  owed : Nat := 0
  /-- The round whose run is being sent or returned, and the last round. -/
  round : Nat := 0
  last : Nat := 0
  /-- 0 the run's copy is to be issued; 1 the copy runs; 2 the copy has completed, the header is due; 3 the header has
  been sent, the return is awaited; 4 every run has returned; 5 the destination was lost or timed out; 6 the copy has
  failed, so that no header goes out and no return can come (log 11). -/
  phase : Nat := 0
  since : Nat := 0
  deriving DecidableEq, Repr

/-- A running ROUTE (R184 to R201). -/
structure RouteRun where
  cove : Nat
  addr : Nat
  desc : List Byte
  place : Nat
  pairs : List Pair
  rounds : Nat
  dests : List DestRun
  status : Status := .done
  /-- Its number among the works of the routers, which its copies carry; where its records start (R195). -/
  id : Nat := 0
  base : Nat := 0
  deriving DecidableEq, Repr

/-- A record as a RECEIVE has gathered it (R200). -/
structure GotRecord where
  src : Nat
  mask : Nat
  stream : Nat
  /-- Local expert, row within that expert and weight of each set mask bit. -/
  parts : List (Nat × Nat × Nat)
  /-- SRC_NODE of the record; none where it could not be read (R202). -/
  node : Option Nat := none
  deriving DecidableEq, Repr

/-- A source of a running RECEIVE: the header of its run of the round, and whether it has sent LAST. -/
structure RecvSrc where
  last : Bool := false
  gone : Bool := false
  hdr : List Byte := []
  deriving DecidableEq, Repr

/-- A running RECEIVE (R198 to R200, R205). -/
structure RecvRun where
  cove : Nat
  addr : Nat
  desc : List Byte
  place : Nat
  round : Nat := 0
  srcs : List RecvSrc
  records : Nat := 0
  /-- Records of the round once gathered; lists still to post; the list that runs and its DONE_CTR before it. -/
  got : List GotRecord := []
  gathered : Bool := false
  list : Nat := 0
  listBase : DWord := 0
  /-- REPLAYS of the list that runs as it was posted (R208). -/
  listReplays : Nat := 0
  returning : Nat := 0
  since : Nat := 0
  status : Status := .done
  /-- Its number among the works of the routers, which its copies carry. -/
  id : Nat := 0
  deriving DecidableEq, Repr

/-- What a router does (R210). -/
inductive Router where
  | idle
  | route (r : RouteRun)
  | recv (r : RecvRun)
  deriving DecidableEq, Repr

/-! ### Chapter 06: the serving sequencer -/

/-- State codes of a stream (Table 06.3). -/
inductive StreamState where | free | queued | prefill | decode | paused | fallback | cancelling | done
  deriving DecidableEq, Repr

/-- The pools of KV pages of a cove (R225). -/
inductive Pool where | hbm | deep | host
  deriving DecidableEq, Repr

/-- A KV page that a stream owns: the cove and pool it comes from, its number in the pool, and the cove-virtual
address it is mapped at. -/
structure KvPage where
  cove : Nat
  pool : Pool
  page : Nat
  va : Nat
  deriving DecidableEq, Repr

/-- A move of a stream's KV range (R322, R323). -/
inductive KvMove where | demote (deep : Bool) | promote
  deriving DecidableEq, Repr

/-- What the sequencer keeps of a stream beside its stream-table entry. -/
structure StreamX where
  /-- The range it holds: cove and range number (R307). -/
  range : Option (Nat × Nat) := none
  /-- The KV pages it owns, in ascending address. -/
  pages : List KvPage := []
  /-- The range and pages that a fallback switch or a RESUME left in another cove, to be returned at item 3
  (R248, R672). -/
  oldRange : List (Nat × Nat) := []
  oldPages : List KvPage := []
  /-- The import copies of a switch still run; the positions they bring (R248). -/
  importing : Option Nat := none
  /-- A move of its range in progress, and the pages of the range already passed over (R322, R670). -/
  move : Option KvMove := none
  movePos : Nat := 0
  /-- A promotion that found no HBM page waits for the next boundary (R323). -/
  moveWait : Bool := false
  /-- A PAUSE or RESUME whose move waits for another to end: PAUSE_TIER is deep (R233, Table 06.10). -/
  wantDemote : Option Bool := none
  wantPromote : Bool := false
  /-- Steps of its serving slot in which a BE stream's rows were not composed (R234). -/
  unserved : Nat := 0
  /-- Positions below this are charged to the house account (R242, R252). -/
  houseTo : Nat := 0
  /-- Pages of the shadow pool it owns, each with the offset in its KV range that it copies (R251), and the positions its shadow copies in progress bring, oldest first. -/
  shadow : List (Nat × Nat) := []
  shadowPending : List Nat := []
  /-- Positions whose shadow copies have been issued; the shadow pages, with their offsets, from which an adopted stream
  fills its first KV pages (R252). -/
  shadowAt : Nat := 0
  shadowFrom : List (Nat × Nat) := []
  shadowDue : Bool := false
  /-- CAL_STALE or CAL_CLAMP was set during the stream; it was served in FALLBACK; it was adopted; its retirement has been
  deferred (Table 12.3, R472). -/
  calMark : Bool := false
  fbServed : Bool := false
  adopted : Bool := false
  deferred : Bool := false
  /-- Cove that served it last; GROUP_STEP of its first and last expert-group step (Table 12.3). -/
  lastServe : Nat := 0
  gsteps : Option (Nat × Nat) := none
  /-- To be ended with NODE_LOST at the next boundary (R204, R252). -/
  nodeLost : Bool := false
  deriving DecidableEq, Repr

/-- What Table 06.9 does to the streams of a step. -/
inductive Effect where | none | suppress | cancel (st : Nat) | rebuild | ended
  deriving DecidableEq, Repr

/-- The rows of one stream in a batch (R235). -/
structure BatchPart where
  ent : Nat
  /-- First row, number of rows and first position. -/
  row : Nat
  rows : Nat
  pos : Nat
  /-- Rows, from the first, that the house account is charged for (R242, R252). -/
  house : Nat := 0
  /-- What Table 06.9 has found for it so far. -/
  effect : Effect := .none
  /-- TOKEN_OUT taken by EMIT (R239). -/
  token : Option Nat := none
  deriving DecidableEq, Repr

/-- A transfer of a layer schedule in the running step (R319). -/
inductive Xfer where | waiting | running | ended
  deriving DecidableEq, Repr

/-- A step-program entry that has been posted and has not completed: its index, where its list header or descriptor
lies, and whether it applies the step counter (R237). -/
structure Posted where
  entry : Nat
  addr : Nat
  counts : Bool
  /-- A WAIT whose counter has risen, an EMIT that has run (R236, R239), or an entry that ended at its posting. -/
  ended : Bool := false
  deriving DecidableEq, Repr

/-- The step that runs in a cove. -/
structure StepRun where
  slot : Nat
  start : Nat
  parts : List BatchPart := []
  rows : Nat
  pad : Bool := false
  /-- COPY entries posted (Table 12.2). -/
  copies : Nat := 0
  /-- GROUP_STEP of the step (R238). -/
  groupStep : Nat := 0
  /-- The next entry to post; entries posted; a posting that found its queue full (R237). -/
  next : Nat := 0
  posted : List Posted := []
  retry : Bool := false
  /-- The step counter when the present group began to be posted. -/
  ctrBase : DWord := 0
  /-- Arrival counters of WAIT entries at the start of the step. -/
  waitBase : SMap DWord := []
  /-- Transfers of the layer schedule, entry by entry, and layers started and completed. -/
  xfers : List Xfer := []
  started : List Nat := []
  completed : List Nat := []
  /-- Schedule entries that hold their object in USE (R320). -/
  held : List Nat := []
  /-- Every entry has completed: the boundary is due (R229). -/
  ended : Bool := false
  deriving DecidableEq, Repr

/-- What the sequencer keeps of a cove. -/
structure SeqCove where
  stepEn : Bool := false
  degraded : Bool := false
  lastNs : Nat := 0
  lastRows : Nat := 0
  /-- κ of each slot (R244) and the rows of its last step; 0 before the first. -/
  kappa : List Nat := List.replicate 8 256
  nPrev : List Nat := List.replicate 8 0
  /-- R_prefill_fallback of each slot in tokens per second, once a step of its partner has updated it (R247). -/
  rFb : List Nat := List.replicate 8 0
  lastSlot : Nat := 7
  /-- BE start index within the cove's range (Table 06.6). -/
  beStart : Nat := 0
  run : Option StepRun := none
  /-- A reset has cleared STEP_EN: energy up to its next setting is the house's (R591). -/
  toHouse : Bool := false
  /-- HBM pages of the cove in quarantine, by number from HBM_BASE; those whose test has passed, with the patrol pass at
  whose end they may leave (R268); those that held an uncorrectable granule, with its channel (R269). -/
  quar : List Nat := []
  quarOk : List (Nat × Nat) := []
  quarBad : List (Nat × Nat) := []
  /-- LAST_USE of each slot (R353). -/
  lastUse : List Nat := List.replicate 8 0
  /-- Local tick since which the cove has been idle (R461). -/
  idleSince : Nat := 0
  /-- Local tick of the last boundary of an idle cove (R229). -/
  boundAt : Option Nat := none
  /-- Nodes recorded lost since the last boundary: shadowed streams of theirs are to be adopted (R252). -/
  adoptFrom : List Nat := []
  /-- Pages that token histories waited for when the last step was composed (R601). -/
  histWaits : List Nat := []
  deriving DecidableEq, Repr

/-! ### Chapter 07: HBM -/

/-- Roster states of Table 07.3. -/
inductive ChanState where | absent | live | watch | moving | out
  deriving DecidableEq, Repr

/-- Table 07.3: the code of a roster state. -/
def ChanState.code : ChanState → Nat
  | .absent => 0
  | .live => 1
  | .watch => 2
  | .moving => 3
  | .out => 4

/-- A channel move in progress (R275): the channel, its map-out number, and the 256-byte granule below which every
granule of V has moved (R277). -/
structure MapMove where
  ch : Nat
  k : Nat
  moved : Nat
  deriving DecidableEq, Repr

/-- One stack's temperature reading and row (R283, Table 07.11). -/
structure StackTemp where
  temp : Nat := 0
  row : Nat := 0
  fail : Bool := false
  /-- Refresh rate that the row calls for: 1, 2 or 4 times the nominal one (Table 07.5). -/
  refresh : Nat := 1
  deriving DecidableEq, Repr

/-- The HBM controllers. Registers and counters stand in the register tables of `State`. -/
structure Hbm where
  /-- Roster states of the channels; ABSENT where not fitted (R270). -/
  roster : Vector ChanState 384 := Vector.replicate 384 .live
  /-- Corrected symbols of the present and of the previous patrol pass, by channel (R271). -/
  ceNow : SMap Nat := []
  cePrev : SMap Nat := []
  /-- Uncorrectable reads of the present and of the previous patrol pass, by channel (R271). -/
  ueNow : SMap Nat := []
  uePrev : SMap Nat := []
  /-- WATCH channels that the owner has released under AUTO 0 (R273). -/
  released : List Nat := []
  /-- The move in progress (R275). -/
  move : Option MapMove := none
  /-- Channels OUT, in map-out order (R274, R280). -/
  outs : List Nat := []
  /-- The roster record in flash: OUT entries in map-out order, each with its map-out number (R274). -/
  flashRoster : List (Nat × Nat) := []
  /-- OUT_COUNT + SPARE_CH as the last commit found them: bands below it are used or withheld (R272). -/
  spareEnd : Nat := 0
  /-- More channels failed than map-out numbers remain (R280). -/
  noNumber : Bool := false
  /-- The patrol scrubber runs, and the offset within each pseudo-channel it reads next (R265). -/
  scrubOn : Bool := false
  scrubOff : Nat := 0
  /-- Number of the patrol pass in progress (R265, R268). -/
  scrubPass : Nat := 0
  /-- Sensors of the stacks (R283). -/
  temps : Vector StackTemp 12 := Vector.replicate 12 {}
  /-- HBM has been trained (Table 16.5); self-refresh holds it (Table 13.3, R505). -/
  trained : Bool := false
  selfRefresh : Bool := false
  /-- Deep capacity in GiB found by training, 0 where DEEP_MEM is 0 (R668). -/
  deepGiB : Nat := 0
  deriving DecidableEq, Repr

/-- All memory the package can address, keyed by DPA (Table 08.1); host memory at 0x8000_0000_0000 + bus address.
An unlisted byte reads 0 (DESIGN CHOICE, log 3). -/
structure Memory where
  /-- The bytes. -/
  bytes : SMap Byte := []
  /-- Granules (DPA / 64) that hold poison (R260, R261). -/
  poison : SMap Bool := []
  /-- The cove code and epoch a granule of HBM, the deep tier or a Mere was written under, as 1 + code + 16 * epoch; 0 for
  a granule that nothing has written (R514, R515). Reads of a Mere do not depend on it. -/
  tag : SMap Nat := []
  /-- Granules whose stored symbols have failed: the flipped bits of each symbol (R258, R259). -/
  failed : SMap (SMap Byte) := []
  deriving DecidableEq, Repr

/-! ### Chapter 08: translation, objects and the Spillway -/

/-- One cove's part of the DTU that is not a plain register or counter (Tables 08.11 and 08.12). -/
structure DtuCove where
  /-- INVAL_CTRL.BUSY and the range it was started for (R301). -/
  busy : Bool := false
  invalVa : Nat := 0
  invalLen : Nat := 0
  /-- FAULT_VA, and the UNIT and CAUSE of FAULT_INFO; VALID stands among the event flags. -/
  faultVa : Nat := 0
  faultUnit : Nat := 0
  faultCause : Nat := 0
  deriving DecidableEq, Repr

/-- STATE of an object's state word (Table 08.7). -/
inductive ObjState where | free | absent | loading | slow | promoting | resident | evicting | lost
  deriving DecidableEq, Repr

/-- A state word (Table 08.7). -/
structure ObjWord where
  seq : Nat := 0
  lastStatus : Nat := 0
  use : Nat := 0
  pins : Nat := 0
  pend : Bool := false
  tier : Nat := 0
  state : ObjState := .free
  deriving DecidableEq, Repr

/-- The software-written fields of an object declaration (Table 08.6). -/
structure ObjDecl where
  va : Nat := 0
  hbmVa : Nat := 0
  bytes : Nat := 0
  slowBase : Nat := 0
  mirror : Nat := 0
  flags : Nat := 0
  activity : Nat := 0
  /-- The reserved bytes 0x2A to 0x2F and 0x38 to 0x3F, as written. -/
  rsvA : Nat := 0
  rsvB : Nat := 0
  deriving DecidableEq, Repr

/-- An intake record (R357, chapter 09): where an object's bytes came from. -/
structure Intake where
  /-- KEEP of the load that left the record. -/
  keep : Bool := false
  /-- The load descriptor as accepted. -/
  desc : List Byte := []
  /-- The model key that the load used (R358). -/
  key : Option (List Byte) := none
  deriving DecidableEq, Repr

/-- One object: declaration, state word, the HBM pages it owns (page numbers of 64 KiB, in ascending VA), and what
the Inlet knows of it. -/
structure Obj where
  decl : ObjDecl := {}
  word : ObjWord := {}
  pages : List Nat := []
  /-- Pages the move in progress has finished, and the pages it has taken. -/
  moved : Nat := 0
  /-- The eviction in progress: 0 by request, 1 least-used with a sound slow copy, 2 least-used without (R355). -/
  evict : Nat := 0
  /-- Activity of the promotion in progress, and of the one that PEND_PROMOTE asks for, where it is not the object's own
  (R316, R352). -/
  moveAct : Option Nat := none
  pendAct : Option Nat := none
  /-- LOAD_STATUS and SLOW_VALID of OBJ_INFO (Table 09.8); the intake record. -/
  loadStatus : Nat := 0
  slowValid : Bool := false
  intake : Option Intake := none
  deriving DecidableEq, Repr

/-- One cove's CAS result registers (Table 08.14). -/
structure SpwCove where
  casOld : DWord := 0
  casStatus : Nat := 0
  cmpFail : Bool := false
  deriving DecidableEq, Repr

/-- A waiter on a refetch (R601): which unit of which cove waits (Table 17.9 UNIT), and its own number. -/
structure Waiter where
  unit : Nat
  cove : Nat
  idx : Nat
  deriving DecidableEq, Repr

/-- An entry of the refetch table (R601): a 64 KiB page of an object and its waiters. -/
structure Refetch where
  cove : Nat
  obj : Nat
  va : Nat
  /-- The source in use: 1 the mirror, 2 the intake record (R602). -/
  source : Nat
  waiters : List Waiter := []
  /-- LOADs of a mirror read outstanding, the bytes they have brought by offset in the page, and whether one failed. -/
  outs : Nat := 0
  parts : List (Nat × List Byte) := []
  failed : Bool := false
  /-- Writes to the page that wait for its end, oldest first: activity, address, bytes (R603). -/
  writes : List (Nat × Nat × List Byte) := []
  deriving DecidableEq, Repr

/-! ### Chapter 09: the Inlet -/

/-- A load context at work: on a load, or on a refetch of pages of an object (R329, R357). -/
structure LoadCtx where
  cove : Nat
  /-- Address of the descriptor of a load; for a refetch the descriptor is the intake record's. -/
  addr : Nat
  desc : List Byte
  tensors : List Byte
  obj : Nat
  /-- It waits for pages that a least-used eviction frees (R332). -/
  waiting : Bool := false
  /-- A CANCEL has named it: it aborts at the end of its page (R336). -/
  cancelled : Bool := false
  /-- Addresses of the pages that a rerun is to write; none for a load. -/
  refetch : Option (List Nat) := none
  /-- The model key it decrypts under, taken as it starts (R341); pages of the pool it holds (R360). -/
  key : Option (List Byte) := none
  pages : List Nat := []
  deriving DecidableEq, Repr

/-- The INL block. -/
structure Inl where
  ctx : Vector (Option LoadCtx) 4 := Vector.replicate 4 none
  /-- Queued loads of each cove, oldest first. -/
  queues : Vector (List Nat) 8 := Vector.replicate 8 []
  lastCove : Nat := 7
  /-- Slots that promotions of R352 are to make ready, and slots found MISSING, by cove. -/
  promoting : Vector (List Nat) 8 := Vector.replicate 8 []
  missing : Vector (List Nat) 8 := Vector.replicate 8 []
  deriving DecidableEq, Repr

/-! ### Chapter 10: Basin transactions and Ferry -/

/-- The unit that issued a request: a Ferry engine with the part of its work (0 a load or store of the present chunk,
at the byte offset given; 1 a chunk increment; 2 the completion increment), host access of a function, a router's
round header, or a unit that awaits no answer. -/
inductive Owner where
  | none
  | host (fn : Nat)
  | ferry (engine part off : Nat)
  /-- A refetch of a page of a cove; the offset in the page (R602). -/
  | refetch (cove va off : Nat)
  deriving DecidableEq, Repr

/-- A request that waits at its unit (R376), or is held for a FLAG condition (R383): its tags still awaited and the
highest status among those that have ended. -/
structure TxReq where
  req : BasinReq
  owner : Owner
  act : Nat := 0
  deriving DecidableEq, Repr

/-- A request accepted with FLAG that waits for earlier requests of its source (R383). -/
structure FlagReq where
  tx : TxReq
  waits : List Nat
  worst : Status := .done
  deriving DecidableEq, Repr

/-- An outstanding request, by its credit (R376 to R379). -/
structure Outst where
  owner : Owner := .none
  node : Nat
  cove : Nat
  window : Nat
  opc : Nat
  ssn : Nat
  start : Nat
  /-- Ended with TIMEOUT: `ssn` is then that of the PROBE which holds its credit, `ssn0` the request's own. -/
  timedOut : Bool := false
  ssn0 : Nat := 0
  deriving DecidableEq, Repr

/-- A member of a group at an egress (R396 to R398). -/
structure Member where
  req : BasinReq
  deriving DecidableEq, Repr

/-- An item that waits at an egress toward a port: the packet, its lane, hops, and the members combined into it. -/
structure EgItem where
  packet : Packet
  vl : Nat
  sub : Nat
  dim : Nat
  hops : Nat
  at_ : Nat
  /-- A transit frame: the port it came in by, its class there and the blocks it holds (R426). -/
  inPort : Option (Nat × Nat × Nat) := none
  /-- The activity that a local frame is charged to; a transit frame is charged to none (R375, R407). -/
  act : Option Nat := none
  members : List Member := []
  deriving DecidableEq, Repr

/-- An export window entry (Table 10.1). KIND: 1 MEMORY, 2 STREAMS. -/
structure ExpWindow where
  kind : Nat := 0
  cove : Nat := 0
  perm : Nat := 0
  activity : Nat := 0
  srcLo : Nat := 0
  srcHi : Nat := 0
  ctrFirst : Nat := 0
  ctrCount : Nat := 0
  baseVa : Nat := 0
  size : Nat := 0
  deriving DecidableEq, Repr

/-- A group at the egress toward a compute die: requests that have passed the checks of Table 10.2, in order of
arrival, with their places in the order of taking, and the DPA checked. -/
structure DieGroup where
  reqs : List (Nat × BasinReq)
  at_ : Nat
  /-- The export window that its requests were checked against (R368). -/
  win : ExpWindow := {}
  deriving DecidableEq, Repr

/-- What the target keeps of one pair of source node and source cove (R430). -/
structure SeqIn where
  inc : Nat := 0
  next : Nat := 0
  known : Bool := false
  /-- Cleared by R611: the next request to arrive sets NEXT. -/
  restored : Bool := false
  /-- Held requests with the local tick and the die of their arrival. -/
  held : List (BasinReq × Nat × Nat) := []
  deriving DecidableEq, Repr

/-- A copy, store or atomic that a Ferry engine carries out (Table 10.6). -/
structure FerryJob where
  cove : Nat
  op : Nat
  flag : Bool
  chunkLog2 : Nat
  act : Nat
  aop : Nat
  length : Nat
  dstCtr : Nat
  doneCtr : Nat
  src : Nat
  dst : Nat
  result : Nat
  operand : List Byte
  compare : List Byte
  /-- The descriptor, for one that was posted to a queue; its number there. -/
  desc : Option Nat
  id : Nat
  /-- A copy of the Shoal: its router, and the destination of a run or 256 + the source of a return. -/
  shoal : Option (Nat × Nat) := none
  /-- A destination already given as a Basin address (Shoal copies): node, window, offset. -/
  basin : Option (Nat × Nat × Nat) := none
  /-- A COPY entry of a step program, whose rows share its energy (Table 12.2). -/
  named : Bool := false
  deriving DecidableEq, Repr

/-- A descriptor that waits in a Ferry queue (R385): its address and number, the descriptors ahead of it that have not
ended, and the highest status among those that have. -/
structure FerryWait where
  addr : Nat
  id : Nat
  ahead : List Nat
  worst : Status := .done
  named : Bool := false
  deriving DecidableEq, Repr

/-- A running Ferry descriptor. -/
structure FerryRun where
  job : FerryJob
  /-- Node and window of its destination; none is local. -/
  dest : Option (Nat × Nat) := none
  /-- Present chunk; chunks complete; requests of the chunk outstanding; bytes of the chunk loaded from a remote
  source, by offset; the chunk's stores have been issued. -/
  chunk : Nat := 0
  done : Nat := 0
  outs : Nat := 0
  loads : SMap Byte := []
  loading : Bool := false
  issued : Bool := false
  /-- Increments outstanding; the completion increment has been sent; a failure stops the chunk; a cancel stops the copy
  after the chunk (R391). -/
  incs : Nat := 0
  completed : Bool := false
  stop : Bool := false
  cancelled : Bool := false
  noCompletion : Bool := false
  status : Status := .done
  /-- It waits for a refetch of the page at this address, and has waited once (R389). -/
  waiting : Option Nat := none
  waited : Bool := false
  deriving DecidableEq, Repr

/-- The BSN block. -/
structure Bsn where
  txWait : List TxReq := []
  flagHeld : List FlagReq := []
  /-- Held credits, by TAG (R376). -/
  credits : SMap (Option Outst) := []
  /-- Next SSN of each pair of source cove and node, at cove + 8 * node (R430). -/
  ssnOut : SMap Nat := []
  /-- Requests and responses that have arrived for this node. -/
  inReq : List (BasinReq × Nat) := []
  inResp : List BasinResp := []
  seqIn : SMap SeqIn := []
  /-- Groups toward the East and the West compute die; groups sent on to memory; the order of taking. -/
  dieQ : Vector (List DieGroup) 2 := Vector.replicate 2 []
  applyQ : List DieGroup := []
  taken : Nat := 0
  /-- Members of groups sent out by a port, by the TAG of the first (R398). -/
  groups : SMap (List Member) := []
  engines : Vector (Option FerryRun) 48 := Vector.replicate 48 none
  queues : Vector (List FerryWait) 8 := Vector.replicate 8 []
  nextId : Nat := 0
  lastCove : Nat := 7
  /-- Copies of the Shoal that wait for an engine. -/
  direct : List FerryJob := []
  deriving DecidableEq, Repr

/-! ### Chapter 11: links -/

/-- Port states of Table 11.8. -/
inductive PortState where | off | down | training | up | retrain | out
  deriving DecidableEq, Repr

/-- Table 11.8: the code of a port state. -/
def PortState.code : PortState → Nat
  | .off => 0
  | .down => 1
  | .training => 2
  | .up => 3
  | .retrain => 4
  | .out => 5

/-- One port. MODE, width and limits come from the image in force. -/
structure PortX where
  state : PortState := .off
  /-- Held DOWN under R443. -/
  heldDown : Bool := false
  /-- Its receiver detects signal. -/
  signal : Bool := false
  /-- Local tick at which it entered its state. -/
  since : Nat := 0
  /-- Local tick at which it last left RETRAIN (R608). -/
  leftRetrain : Nat := 0
  trainFails : Nat := 0
  /-- Local ticks of the retrains of the last hour (R443). -/
  retrains : List Nat := []
  peerValid : Bool := false
  drained : Bool := false
  peerPort : Nat := 0
  peerNode : Nat := 0
  temp : Nat := 0
  powerClass : Nat := 0
  moduleState : Nat := 0
  /-- VLs that PFC has paused (R429). -/
  paused : List Nat := []
  /-- Blocks of each of the sixteen classes held in its receive buffer (R426, R428). -/
  heldBlocks : List Nat := List.replicate 16 0
  /-- Weighted round robin of VLs 4 to 7 and 0 to 3: the VL in turn and its sends left (R425). -/
  rrHi : Nat × Nat := (4, 0)
  rrLo : Nat × Nat := (0, 0)
  /-- Deficit round robin within each VL: deficits of transit and of local frames, and which is in turn. -/
  drr : List (Nat × Nat × Bool) := List.replicate 8 (0, 0, false)
  deriving DecidableEq, Repr

/-- A frame held for acknowledgement (R420). -/
structure HeldFrame where
  lsn : Nat
  frame : EgItem
  sent : Nat
  /-- The frame as it went on the wire (R521). -/
  wire : List Byte := []
  deriving DecidableEq, Repr

/-- A connection (R418 to R428). -/
structure Conn where
  peer : Nat := 0
  peerPort : Nat := 0
  isOpen : Bool := false
  rxOpen : Bool := false
  /-- Next LSN to send; frames held; replays in succession; next LSN expected; a frame awaits acknowledgement, since
  when. -/
  nextLsn : Nat := 0
  held : List HeldFrame := []
  replays : Nat := 0
  expect : Nat := 0
  ackDue : Option Nat := none
  lastTx : Nat := 0
  lastRx : Nat := 0
  opened : Nat := 0
  /-- Credit by class: initial (none before the first IDENT), consumed, last freed count received; freed count sent
  and reported. -/
  init : List Nat := []
  consumed : List Nat := List.replicate 16 0
  freedIn : List Nat := List.replicate 16 0
  freedOut : List Nat := List.replicate 16 0
  reported : List Nat := List.replicate 16 0
  /-- It has failed, or its port has left UP (R422); a RESYNC_REQ has been sent, at this tick; it drains for fresh
  keys (R522). -/
  failed : Bool := false
  resync : Option Nat := none
  rekeying : Bool := false
  /-- Connection nonces N of this end and of the peer, and the keys of the two directions (R519); the control frames sent
  and the counter of the last control frame accepted (R520). -/
  nOwn : Nat := 0
  nPeer : Nat := 0
  keyTx : List Byte := []
  keyRx : List Byte := []
  ctlTx : Nat := 0
  ctlRx : Option Nat := none
  deriving DecidableEq, Repr

/-- The LNK block. -/
structure Lnk where
  /-- LNK.POS (R409), incarnation in flash (R412), UNREACH_NODE. -/
  pos : Nat := 0
  inc : Nat := 0
  unreach : Nat := 0
  ports : Vector PortX 36 := Vector.replicate 36 {}
  /-- Connections by 65536 * port + peer node. -/
  conns : SMap Conn := []
  /-- Frames that wait at each port's egress. -/
  egress : SMap (List EgItem) := []
  /-- The port record in flash: ports OUT (R443, R444). -/
  portRecord : List Nat := []
  /-- Listed nodes whose Z has been computed (R518, R543). -/
  zReady : List Nat := []
  /-- IDENTs sent in this incarnation (R520); the bytes sent on the ports, oldest first: the model's own record. -/
  identCtr : Nat := 0
  wire : List (Nat × List Byte) := []
  deriving DecidableEq, Repr

/-! ### Chapter 12: the Gauge -/

/-- An energy record (Table 12.3). -/
structure EnergyRec where
  kind : Nat := 0
  status : Nat := 0
  cove : Nat := 0
  flags : Nat := 0
  entry : Nat := 0
  tag : Nat := 0
  node : Nat := 0
  inc : Nat := 0
  seq : Nat := 0
  tSubmit : Nat := 0
  tEnd : Nat := 0
  epoch : Nat := 0
  energy : Nat := 0
  first : Nat := 0xFFFFFFFF
  last : Nat := 0xFFFFFFFF
  deriving DecidableEq, Repr

/-- STATE of a batch (Table 12.4). -/
inductive BatchState where | opened | rooted | signed | unsigned
  deriving DecidableEq, Repr

/-- A batch slot (Table 12.4). The estimate is kept in gauge units (R453). -/
structure Batch where
  /-- The batch has closed. -/
  closed : Bool := false
  state : BatchState := .opened
  calStale : Bool := false
  calClamp : Bool := false
  extended : Bool := false
  fine : Bool := false
  node : Nat := 0
  inc : Nat := 0
  seq : Nat := 0
  firstSeq : Nat := 0
  count : Nat := 0
  tOpen : Nat := 0
  tClose : Nat := 0
  epoch : Nat := 0
  total : Nat := 0
  house : Nat := 0
  residue : Nat := 0
  openUj : Nat := 0
  pendingUj : Nat := 0
  measuredMj : Nat := 0
  estimateGu : Nat := 0
  heldUj : Nat := 0
  root : List Byte := []
  prevHash : List Byte := []
  sigRsa : List Byte := []
  sigSlh : List Byte := []
  /-- Whether the Wellhead could sign as the state stood at the close (Table 14.9). -/
  able : Bool := true
  deriving DecidableEq, Repr

/-- The GAU block. -/
structure Gau where
  /-- The scale k, and a new value with the local tick from which samples take it (R457). -/
  k : Nat := 0x10000
  kNext : Option (Nat × Nat) := none
  /-- Accumulators in gauge units, by 11 * slot + pool (R462). -/
  acc : SMap Nat := []
  /-- Raw and calibrated energy of the samples since the last accepted EIN, in gauge units. -/
  winRaw : Nat := 0
  winCal : Nat := 0
  /-- Event counts since cold reset, by 96 * slot + class (R479). -/
  classCnt : SMap Nat := []
  /-- The last sample: its tick, each slot's calibrated energy, and the raw energy of the package (R480). -/
  lastLatch : Option Nat := none
  sample : List Nat := List.replicate 9 0
  sampleRaw : Nat := 0
  /-- Calibrated energy of the millisecond in progress, by slot; POWER and COVE_POWER (R478). -/
  ms : List Nat := List.replicate 9 0
  lastCoarse : Option Nat := none
  power : Nat := 0
  covePower : List Nat := List.replicate 8 0
  /-- Totals in µJ (R464, R465, R469). -/
  total : Nat := 0
  housePkg : Nat := 0
  houseCove : List Nat := List.replicate 8 0
  residue : List Nat := List.replicate 8 0
  coveUj : List Nat := List.replicate 8 0
  /-- Shares of the step in progress, by 11 * cove + pool: participant key to share (R463). -/
  shares : SMap (SMap Nat) := []
  /-- Records that wait for the ring: remote credits of the pending table and loss records (R472). -/
  waiting : List EnergyRec := []
  nextSeq : Nat := 0
  /-- The ring, by slot. -/
  ring : SMap EnergyRec := []
  recRelease : Nat := 0
  ringFull : Bool := false
  /-- The batch table, by slot; the open batch, once the first image commit has opened batch 0 (R473). -/
  batches : SMap Batch := []
  batchLive : Bool := false
  batchNext : Nat := 0
  /-- BATCH_RELEASE as written, and the number of batches it has released. -/
  batchRelease : Nat := 0
  released : Nat := 0
  batchFull : Bool := false
  /-- Last accepted EIN: energy in mJ, sequence number and local tick of its arrival (R456). -/
  einMj : Nat := 0
  einSeq : Nat := 0
  einTick : Nat := 0
  calLive : Bool := false
  calStale : Bool := false
  deriving DecidableEq, Repr

/-! ### Chapter 13: the Weir -/

/-- The WEIR block. -/
structure Weir where
  /-- n and its ceilings by trim, temperature and droop (R488). -/
  n : Nat := 16
  nMax : Nat := 16
  nTh : Nat := 16
  nDr : Nat := 16
  /-- The accepted I3C cap, the internal limit, and the local tick of an acceptance that is still being followed
  (R492); an acceptance above the limit waits for the next closure. -/
  capI3c : Nat := 4200
  lInt : Nat := 4200
  following : Option Nat := none
  raise : Bool := false
  /-- Accepted CAP_LVL (R491). -/
  lvl : Nat := 0
  /-- lim and p10 of the last closure. -/
  lim : Nat := 3400
  p10 : Nat := 0
  /-- Burst credit in µJ (R486), and the local tick since which p10 has been above SUSTAINED_W. -/
  credit : Nat := 8000000
  aboveSince : Option Nat := none
  /-- Floor mode, and the local tick at which it began or ended (R493). -/
  floor : Bool := false
  floorSince : Nat := 0
  floorEnded : Nat := 0
  /-- Calibrated samples latched since the last closure, in gauge units (R488). -/
  samples : List Nat := []
  lastClosure : Option Nat := none
  lastMs : Option Nat := none
  /-- Local ticks of the droop trips of the last millisecond (R497), and the dies that stretch (R496). -/
  trips : List Nat := []
  stretch : Vector Bool 2 := Vector.replicate 2 false
  /-- CAP_LAG_N asserted: since when, and the effective cap at the start (R494). -/
  capLag : Option (Nat × Nat) := none
  /-- The hottest junction has stayed below TJ_LIMIT − 3 °C since the last millisecond boundary (R498). -/
  coolMs : Bool := false
  tjFail : Bool := false
  thermtrip : Bool := false
  /-- Trim of the East and West die in steps of 2.5 mV (R503); as stored in flash. -/
  trim : Vector Int 2 := Vector.replicate 2 0
  flashTrim : Vector Int 2 := Vector.replicate 2 0
  trimLimit : Bool := false
  /-- Local ticks spent in P0 or P1 since the last trim run, up to the local tick beside it (R503). -/
  trimTime : Nat := 0
  trimMark : Nat := 0
  /-- Local tick at which the stop was accepted (R500). -/
  stopTick : Nat := 0
  /-- The power state that a request has asked for and that has not been reached; LAST_REQ_STATUS; P4_READY. -/
  psWant : Option Nat := none
  reqStatus : Nat := 0
  p4Ready : Bool := false
  deriving DecidableEq, Repr

/-! ### Chapter 14: the Wellhead -/

/-- Security states of Table 14.8. -/
inductive SecState where | factory | sealed | attested | ownerDebug | scrapped
  deriving DecidableEq, Repr

/-- Table 14.12: the code of a security state. -/
def SecState.code : SecState → Nat
  | .factory => 0
  | .sealed => 1
  | .attested => 2
  | .ownerDebug => 3
  | .scrapped => 4

/-- A model key slot (R529). -/
structure ModelKey where
  key : List Byte
  cove : Nat
  /-- Lease end in local ticks; none for no lease. -/
  lease : Option Nat
  kcv : List Byte
  /-- Local tick of the KEY_PUT response, and whether the key has become usable (R532). -/
  put : Nat
  usable : Bool := false
  deriving DecidableEq, Repr

/-- A secure session of a mailbox (R524, R530). -/
structure Session where
  fn : Nat
  /-- FINISH has completed its handshake. -/
  opened : Bool := false
  /-- Mutual authentication has been requested of the requester. -/
  mutualAuth : Bool := false
  /-- The requester authenticated mutually with a certificate that matches the broker's RSA digest. -/
  rsaMatch : Bool := false
  broker : Bool := false
  /-- Key updates so far. -/
  updates : Nat := 0
  deriving DecidableEq, Repr

/-- What a mailbox has negotiated (R524). -/
structure Mailbox where
  version : Bool := false
  caps : Bool := false
  algs : Bool := false
  /-- Transcript hash of the last signed response, while GET_PQ_SIG may follow it (R527). -/
  signed : Option (List Byte) := none
  deriving DecidableEq, Repr

/-- A response that waits for the alias keys (R543): mailbox, code, data before the signature, and the transcript. -/
structure SignedReply where
  box : Nat
  code : Nat
  data : List Byte
  transcript : List Byte
  deriving DecidableEq, Repr

/-- The WH block. -/
structure Wh where
  sec : SecState := .factory
  /-- Owner slots: the two digests, once fused, and the slot in force (R535). -/
  owners : Vector (Option (List Byte)) 4 := Vector.replicate 4 none
  ownerSlot : Nat := 0
  keys : Vector (Option ModelKey) 32 := Vector.replicate 32 none
  /-- The current nonce, until a signed command consumes it (R534). -/
  nonce : Option (List Byte) := none
  sessions : SMap (Option Session) := []
  /-- Responses that wait for the alias keys, oldest first (R543). -/
  waiting : List SignedReply := []
  /-- Mailboxes of PF0 and VF 0 to 7; that of PF1 stands at 9 (R572). -/
  boxes : Vector Mailbox 10 := Vector.replicate 10 {}
  /-- Selective IDE streams active, by function, and the link stream; keys programmed by stream (R523). -/
  ideSel : List Nat := []
  ideLink : Bool := false
  ideKeys : List Nat := []
  /-- Fused secrets destroyed (R537). -/
  destroyed : Bool := false
  /-- What the last cold reset derived its keys from (R511): its number, the security state it found, and whether the
  fused secrets were destroyed by then. -/
  boot : Nat := 0
  bootSec : SecState := .factory
  bootDestroyed : Bool := false
  /-- The JTAG debug port has halted the firmware (Table 14.4, D3). -/
  fwHalted : Bool := false
  deriving DecidableEq, Repr

/-! ### Chapter 15: the Jieverik image, as the package holds it -/

/-- One section of an image: table entry and bytes (Table 15.2). -/
structure ImgSection where
  type : Nat
  index : Nat
  count : Nat
  bytes : List Byte
  deriving DecidableEq, Repr

/-- A node table entry (Table 11.3). -/
structure NodeEntry where
  node : Nat
  strapped : Bool
  strap : Nat
  deriving DecidableEq, Repr

/-- A route entry (Table 11.7): DIM and the four choices as (valid, port, dateline). -/
structure RouteEntry where
  dim : Nat := 0
  choices : List (Bool × Nat × Bool) := []
  deriving DecidableEq, Repr

/-- A port entry of the PORTS section (Table 15.6). MODE: 0 OFF, 1 NATIVE, 2 ETH. -/
structure PortEntry where
  mode : Nat := 0
  width4 : Bool := false
  txLimit : Nat := 64
  cablePower : Nat := 0
  peerNode : Nat := 0
  peerPort : Nat := 0
  nextMac : Nat := 0
  vid : Nat := 0
  vlAlloc : List Nat := List.replicate 8 0
  deriving DecidableEq, Repr

/-- The head of the PORTS section (Table 15.6). -/
structure PortsHead where
  ethPrefix : Nat := 0
  ethUdp : Nat := 0
  recordClear : Bool := false
  dscp : List Nat := List.replicate 8 0
  vlWeight : List Nat := List.replicate 8 1
  actVl : Nat := 0
  deriving DecidableEq, Repr

/-- The header and entries of a placement (Tables 05.1 to 05.4). -/
structure Placement where
  cove : Nat
  e : Nat
  capE : Nat
  rxSlots : Nat
  nlocal : Nat
  h : Nat
  xFmtw : Nat
  retFmtw : Nat
  regionBytes : Nat
  /-- NODE, RX_CTR, RX_ADDR of each destination. -/
  dests : List (Nat × Nat × Nat)
  /-- NODE, REGION_ADDR of each source. -/
  srcs : List (Nat × Nat)
  /-- Valid instances (DEST, LOCAL) of each expert, by instance number. -/
  experts : List (List (Option (Nat × Nat)))
  deriving DecidableEq, Repr

/-- A KV map entry (Table 08.5). -/
structure KvEntry where
  layer : Nat
  ring : Bool
  slots : Nat
  layerOff : Nat
  vOff : Nat
  kPitch : Nat
  vPitch : Nat
  deriving DecidableEq, Repr

/-- A layer schedule entry (Table 08.9). -/
structure SchedEntry where
  layer : Nat
  drop : Bool
  objId : Nat
  srcVa : Nat
  dstVa : Nat
  bytes : Nat
  deriving DecidableEq, Repr

/-- A layer schedule (Table 08.9). MODE: 1 COPY, 2 PROMOTE. -/
structure Schedule where
  mode : Nat := 0
  lead : Nat := 0
  nbuf : Nat := 0
  activity : Nat := 0
  entries : List SchedEntry := []
  deriving DecidableEq, Repr

/-- A SLOT section (Table 15.8). -/
structure SlotDecl where
  group : Bool := false
  fallback : Bool := false
  importKv : Bool := false
  fbCove : Nat := 0
  fbSlot : Nat := 0
  padToken : Nat := 0
  t0 : Nat := 1
  t1 : Nat := 0
  stepProg : Nat := 0
  stepCount : Nat := 1
  fbRate : Nat := 1
  fbCopy : Nat := 1
  kv : List KvEntry := []
  /-- Object index and STREAMED. -/
  objs : List (Nat × Bool) := []
  /-- Home layer and partner layer. -/
  layerMap : List (Nat × Nat) := []
  sched : Schedule := {}
  deriving DecidableEq, Repr

/-- A COVE section (Table 15.7). -/
structure CoveDecl where
  unified : Bool := false
  shadowEn : Bool := false
  shoal : Nat := 0
  objCount : Nat := 0
  atnMask : Nat := 0
  coreMask : Nat := 0
  root : Nat := 0
  streamFirst : Nat := 0
  streamCount : Nat := 0
  ctrFirst : Nat := 0
  ctrCount : Nat := 0
  hbmBase : Nat := 0
  hbmBytes : Nat := 0
  deepBase : Nat := 0
  deepBytes : Nat := 0
  kvHbmPages : Nat := 0
  objHbmPages : Nat := 0
  kvDeepPages : Nat := 0
  kvHostPages : Nat := 0
  kvHostBase : Nat := 0
  kvRegion : Nat := 0
  kvRangeLog2 : Nat := 26
  kvAct : Nat := 0
  slotAct : Nat := 0
  kvRanges : Nat := 0
  batchAddr : Nat := 0
  stepCtr : Nat := 0
  shadowNode : Nat := 0
  shadowPages : Nat := 0
  shadowPool : Nat := 0
  adoptCove : Nat := 0
  adoptFirst : Nat := 0
  adoptCount : Nat := 0
  hbmWinVa : Nat := 0
  hbmWinBytes : Nat := 0
  slowWinVa : Nat := 0
  slowWinBytes : Nat := 0
  deriving DecidableEq, Repr

/-- An image, as its sections read (Table 15.3). The sections are kept as bytes beside what they say, because a
commit compares them byte for byte (R558) and the digest is taken over them. -/
structure Image where
  imgSeq : Nat := 0
  floor : Nat := 0
  ownerSlot : Nat := 0
  sections : List ImgSection := []
  /-- The whole image as read. -/
  raw : List Byte := []
  rsvBase : Nat := 0
  rsvBytes : Nat := 0
  ringLog2 : Nat := 20
  regs : List (Nat × Nat) := []
  nodes : List NodeEntry := []
  portsHead : PortsHead := {}
  ports : List PortEntry := List.replicate 36 {}
  routes : SMap RouteEntry := []
  activities : List Activity := []
  windows : SMap ExpWindow := []
  spareCh : Nat := 0
  rosterClear : Bool := false
  brokerRsa : List Byte := []
  brokerSlh : List Byte := []
  requireIde : Bool := false
  plainOk : Nat := 0
  /-- Nodes with a listed LINK_KA key, and the key. -/
  links : SMap (List Byte) := []
  staticShare : List Nat := List.replicate 8 0
  placements : SMap (Option Placement) := []
  coves : Vector (Option CoveDecl) 8 := Vector.replicate 8 none
  /-- Slots by cove * 8 + slot. -/
  slots : Vector (Option SlotDecl) 64 := Vector.replicate 64 none
  deriving DecidableEq, Repr

/-- The commands of JVK.CMD (Table 15.15). -/
inductive JvkCmd where | stage | commit | saveDefault | fwStage | fwInstall
  deriving DecidableEq, Repr

/-- The JVK block and what flash holds. -/
structure Jvk where
  /-- The command that runs (STAT.BUSY), and the status its completion will write. -/
  running : Option JvkCmd := none
  pendStatus : Nat := 0
  pendSection : Nat := 0
  /-- RESULT. -/
  resStatus : Nat := 0
  resSection : Nat := 0
  staged : Option Image := none
  /-- The image in force (STAT.COMMITTED). -/
  inForce : Option Image := none
  /-- A commit has passed its checks and waits for its commit point; then for its flash writes (R561, R564). -/
  commitWait : Bool := false
  flashWait : Bool := false
  defaultInForce : Bool := false
  defaultStatus : Nat := 0
  fwStaged : Bool := false
  fwFactory : Bool := false
  /-- Flash: floors of owner slots 0 to 3 and of FACTORY state (R565), the default image, firmware (R567, R568). -/
  floors : Vector Nat 5 := Vector.replicate 5 0
  flashDefault : Option (List Byte) := none
  fwStagedRaw : List Byte := []
  flashFw : List Byte := []
  flashFwValid : Bool := false
  /-- The firmware that has run since the cold reset; empty for the factory firmware in mask ROM (R568). -/
  fwRunning : List Byte := []
  /-- What the STAGE or FW_STAGE that runs has read from host memory; none where the read failed. -/
  reading : Option (List Byte) := none
  /-- Node ID bound at the first commit after cold reset (R411, R563). -/
  boundNode : Option Nat := none
  deriving DecidableEq, Repr

/-! ### Chapter 16: the host interface -/

/-- One watch's W_CTRL (Table 16.11); TARGET stands among the plain registers. -/
structure Watch where
  fired : Bool := false
  arm : Bool := false
  counter : Nat := 0
  deriving DecidableEq, Repr

/-- MSI-X state of one function (R584). -/
structure Msix where
  /-- The function is enabled under SR-IOV (PF0 always) and its MSI-X Enable bit is 1. -/
  enabled : Bool := false
  funcMask : Bool := false
  masked : SMap Bool := []
  pending : SMap Bool := []
  deriving DecidableEq, Repr

/-- Reset kinds of Table 16.6. -/
inductive ResetKind where | cold | warm | device | cove | engine | port
  deriving DecidableEq, Repr

/-- A reset that runs: its kind and TARGET (R589). -/
structure ResetRun where
  kind : ResetKind
  target : Nat
  /-- Local tick of its start. -/
  since : Nat := 0
  deriving DecidableEq, Repr

/-- The HIF block. -/
structure Hif where
  /-- Boot stages that have ended (BOOT_STAT). -/
  fwVerified : Bool := false
  hbmTrained : Bool := false
  deepTrained : Bool := false
  trimDone : Bool := false
  aliasReady : Bool := false
  defaultDone : Bool := false
  /-- LINK_SPEED and LINK_WIDTH of STAT. -/
  linkSpeed : Nat := 0
  linkWidth : Nat := 0
  /-- The strap PCIE_SPLIT, as sampled (R572). -/
  split : Bool := false
  /-- DRAINED as last judged, so that EVENT.DRAINED_NOW follows its rise (R596). -/
  drainedWas : Bool := false
  /-- RESET_STAT: the last request's kind and status; the reset that runs. -/
  lastKind : Nat := 0
  lastStatus : Nat := 0
  running : Option ResetRun := none
  /-- Resets that wait, oldest first: for a JVK command to end (Table 16.7), or for the reset that runs. -/
  waitingResets : List ResetRun := []
  /-- The package is held in cold reset (PKG_RESET_N, REFCLK or a rail; R648, R656, R660). -/
  heldInReset : Bool := false
  epochMark : DWord := 0
  epochTick : DWord := 0
  /-- PF0 watches 0 to 511, then the watches of cove c at 512 + 64 c. -/
  watches : SMap Watch := []
  /-- MSI-X of PF0 and of VF 0 to 7. PF0 starts enabled (DESIGN CHOICE, log 2). -/
  msix : Vector Msix 9 := (Vector.replicate 9 {}).set 0 { enabled := true }
  deriving DecidableEq, Repr

/-! ### Chapters 17 and 18: faults, Ripple, CVU -/

/-- A fault log entry (Table 17.9). -/
structure LogEntry where
  seq : Nat := 0
  kind : Nat := 0
  unit : Nat := 0
  status : Nat := 0
  cove : Nat := 0
  tick : Nat := 0
  addr : Nat := 0
  info : Nat := 0
  deriving DecidableEq, Repr

/-- A loss record (Table 17.3), open or closed. -/
structure LossRec where
  cause : Nat := 0
  aggregate : Bool := false
  node : Nat := 0
  /-- The nodes whose loss it holds: one, or those of an aggregate record (R616). -/
  nodes : List Nat := []
  incarnation : Nat := 0
  newInc : Nat := 0
  tLost : Nat := 0
  tClosed : Nat := 0
  epoch : Nat := 0
  txnsEnded : Nat := 0
  txnCredits : Nat := 0
  linkBlocks : Nat := 0
  framesDropped : Nat := 0
  streamsEnded : Nat := 0
  streamsAdopted : Nat := 0
  lostPairs : Nat := 0
  shadowPages : Nat := 0
  mirrorReads : Nat := 0
  fromLost : Nat := 0
  lossUj : Nat := 0
  /-- Streams, Shoal work and steps the record waits for (R614): entry indices, running ROUTEs and RECEIVEs by
  router, and coves whose step was running. -/
  waitStreams : List Nat := []
  waitShoal : List Nat := []
  waitSteps : List Nat := []
  deriving DecidableEq, Repr

/-- What is kept of one node (R607). -/
structure NodeLoss where
  lost : Bool := false
  /-- The last incarnation seen. -/
  inc : Nat := 0
  seen : Bool := false
  /-- A DRAIN_NOTICE has come since the last IDENT (R608). -/
  drainNotice : Bool := false
  /-- It has had a live route choice since the later of the first commit and its return to LIVE (R608). -/
  reached : Bool := false
  /-- Local tick since which it has had no live route choice, while the timer runs (R608). -/
  noRouteSince : Option Nat := none
  /-- Held frames for it discarded, and link credit blocks retired with connections to it (R422, R446), since it was
  last LIVE with a connection. -/
  framesDropped : Nat := 0
  linkBlocks : Nat := 0
  /-- Requests of it discarded under R610, and reads sent to a mirror because it was lost, since the loss. -/
  fromLost : Nat := 0
  mirrorReads : Nat := 0
  deriving DecidableEq, Repr

/-- The FLT block. -/
structure Flt where
  logHead : Nat := 0
  log : SMap LogEntry := []
  /-- Set by an entry that found the log full (R620). -/
  logFull : Bool := false
  lossHead : Nat := 0
  lossLog : SMap LossRec := []
  /-- Open loss records, oldest first (R614, R616). -/
  openLoss : List LossRec := []
  /-- Closed records that wait for a slot of the loss log (R616). -/
  waitingLoss : List LossRec := []
  nodes : SMap NodeLoss := []
  /-- LAST_STATUS of each cove (Table 17.8). -/
  lastStatus : Vector Nat 8 := Vector.replicate 8 0
  /-- The refetch table (R601). -/
  refetch : List Refetch := []
  deriving DecidableEq, Repr

/-- One Ripple record (Tables 18.1 to 18.3): an E-form record, or an H-form record with its 32 bins. -/
structure RipRec where
  kind : Nat := 0
  status : Nat := 0
  cove : Nat := 0
  seq : Nat := 0
  tick : Nat := 0
  epoch : Nat := 0
  key : Nat := 0
  repeats : Nat := 0
  min : Nat := 0
  minTick : Nat := 0
  max : Nat := 0
  maxTick : Nat := 0
  bins : List Nat := []
  valid : Bool := false
  closed : Bool := false
  deriving DecidableEq, Repr

/-- The Ripple recorder. -/
structure Rip where
  /-- HEAD: the number of the next record (R621). -/
  head : Nat := 0
  ring : SMap RipRec := []
  /-- STAT.RING_LIVE. -/
  live : Bool := false
  /-- Records that wait to be written, oldest first (R623). -/
  queue : List RipRec := []
  /-- Number of the open record, and the local tick of its last update (R628, R629). -/
  openRec : Option Nat := none
  lastUpdate : Nat := 0
  /-- Discards since the last GAP record: how many, first and last tick (R623). -/
  dropped : Nat := 0
  dropFirst : Nat := 0
  dropLast : Nat := 0
  /-- Step durations in µs of the second in progress, by cove (STEP_TIME records). -/
  stepTimes : SMap (List Nat) := []
  /-- Droop trips of the millisecond in progress: duration in AK cycles and depth in mV. -/
  droops : List (Nat × Nat) := []
  deriving DecidableEq, Repr

/-- One CVU instance (R637, Table 18.8). -/
structure CvuInst where
  alg : BitVec 2 := 0
  value : DWord := 0
  deriving DecidableEq, Repr

/-! ### The whole state -/

/-- The state of the package, and the queue of commands that wait. -/
structure State where
  /-- Commands that wait, first in, first out. -/
  pending : List Instr := []
  fuses : Fuses := {}
  /-- Local tick (R586). -/
  tick : DWord := 0
  /-- Plain RW, RWL and RWS registers by BAR0 offset; an unlisted one holds its reset value (`regReset`). -/
  regs : SMap Word := []
  /-- Counter registers by BAR0 offset of the low word (64 bits, or 32 where the table says so). -/
  ctrs : SMap DWord := []
  /-- Write-one-to-clear bits by BAR0 offset of their register. -/
  flags : SMap Word := []
  /-- The model's own counter of free values drawn so far (log 1). -/
  draws : Nat := 0
  /-- Outputs, in order: the model's own record. -/
  out : List Out := []
  arbs : SMap Arb := []
  mem : Memory := {}
  hbm : Hbm := {}
  dtu : Vector DtuCove 8 := Vector.replicate 8 {}
  spw : Vector SpwCove 8 := Vector.replicate 8 {}
  /-- Objects by cove * 16384 + index (Table 08.6). -/
  objs : SMap Obj := []
  flt : Flt := {}
  rip : Rip := {}
  cvu : Vector CvuInst 4 := Vector.replicate 4 {}
  jvk : Jvk := {}
  hif : Hif := {}
  /-- Pond queues (R112) and attention queues (R159), oldest list first. -/
  ponds : Vector (List WorkList) 8 := Vector.replicate 8 []
  atnLists : Vector (List WorkList) 8 := Vector.replicate 8 []
  cores : Vector (Option TileRun) 128 := Vector.replicate 128 none
  atns : Vector (Option TileRun) 32 := Vector.replicate 32 none
  /-- Epoch of each cove, 48 bits (R516). -/
  epochs : Vector Nat 8 := Vector.replicate 8 0
  /-- Debug level, 0 to 3 (Table 14.8); Ripple's grain follows it (R631). -/
  debug : Nat := 0
  /-- The package is in the stop of R499 or R500. -/
  stopped : Bool := false
  /-- Power state P0 to P4 (R505). -/
  pstate : Nat := 0
  /-- Arrival counters (R394), by index. -/
  arrival : SMap DWord := []
  /-- The stream table: entry i as its 1,024 bits (Table 06.2); the ready bitmap, by entry. -/
  streams : SMap (BitVec 1024) := []
  ready : SMap Bool := []
  strm : SMap StreamX := []
  seq : Vector SeqCove 8 := Vector.replicate 8 {}
  /-- Shoal queues, and the East and West routers (R210). -/
  shoalQ : Vector (List Nat) 8 := Vector.replicate 8 []
  routers : Vector Router 2 := Vector.replicate 2 .idle
  bsn : Bsn := {}
  lnk : Lnk := {}
  inl : Inl := {}
  gau : Gau := {}
  weir : Weir := {}
  wh : Wh := {}
  /-- Dynamic I3C addresses of the Gauge telemetry and the Weir cap target (R651). -/
  i3cDyn : Vector (Option Nat) 2 := Vector.replicate 2 none
  deriving DecidableEq, Repr

/-- The package right after reset: every field at the value that stands beside its declaration. -/
def State.reset : State := {}

end Sys2Proof.Machine
end

