-- ==== Sys2Proof/Machine/Offsets.lean ====
section
/-! DEFINITION. Sys2Proof/Machine/Offsets.lean: BAR0 offsets of blocks and registers (Table 16.2 and the block maps). -/
namespace Sys2Proof.Machine
open Sys2Proof

/-- Block bases in BAR0 (Table 16.2). -/
def blkID : Nat := 0x0000000
def blkJVK : Nat := 0x0100000
def blkHIF : Nat := 0x0200000
def blkSEQ : Nat := 0x0300000
def blkMXC : Nat := 0x0400000
def blkATN : Nat := 0x0500000
def blkSHOAL : Nat := 0x0600000
def blkMEM : Nat := 0x0700000
def blkDTU : Nat := 0x0800000
def blkSPW : Nat := 0x0900000
def blkINL : Nat := 0x0A00000
def blkBSN : Nat := 0x0B00000
def blkLNK : Nat := 0x0C00000
def blkGAU : Nat := 0x0D00000
def blkWEIR : Nat := 0x0E00000
def blkWH : Nat := 0x0F00000
def blkRIP : Nat := 0x1000000
def blkCVU : Nat := 0x1100000
def blkFLT : Nat := 0x1200000

/-- A per-cove register: block base + 0x1000 + 0x100 × cove + offset. -/
def coveOff (blk : Nat) (c : Nat) (rel : Nat) : Nat := blk + 0x1000 + 0x100 * c + rel

/-- A register of port `p` in the LNK block. -/
def portOff (p rel : Nat) : Nat := blkLNK + 0x1000 + 0x100 * p + rel

end Sys2Proof.Machine
end

