-- ==== Sys2Proof/Machine/Regs.lean ====
section
/-! DEFINITION. Sys2Proof/Machine/Regs.lean: the plain registers of every block: which bits a write reaches, under
which access code (Table 00.5), and the value after reset. -/
namespace Sys2Proof.Machine
open Sys2Proof

/-- Access codes of the registers that hold what was written (Table 00.5); `lo` is the low half of a write-only pair
whose high half acts (R23). -/
inductive Acc where | rw | rwl | rws | lo
  deriving DecidableEq, Repr

/-- A plain register: its access code, the bits a write reaches (R25) and its reset value. -/
structure RegSpec where
  acc : Acc
  mask : Nat
  reset : Nat
  deriving DecidableEq, Repr

/-- Plain HIF registers (Tables 16.10 and 16.11), by offset in the block. -/
def hifSpec (r : Nat) : Option RegSpec :=
  if r = 0x20 then some ⟨.rws, 0xFFFFFFFF, 0⟩
  else if 0x400 ≤ r ∧ r < 0x800 then
    match r % 0x20 with
    | 0x00 => some ⟨.rwl, 0xFFFF0000, 0⟩
    | 0x04 => some ⟨.rwl, 0xFFFFFFFF, 0⟩
    | 0x08 => some ⟨.rwl, 0xFFFF0000, 0⟩
    | 0x0C => some ⟨.rwl, 0xFFFFFFFF, 0⟩
    | 0x10 => some ⟨.rwl, 0xFFFFFFFF, 0⟩
    | 0x14 => some ⟨.rwl, 0xFFFFFFFF, 0⟩
    | 0x18 => some ⟨.rwl, 0x00FF1F7F, 0⟩
    | _ => none
  else if 0x800 ≤ r ∧ r < 0x900 then
    match r % 0x10 with
    | 0x00 => some ⟨.rwl, 0xFFFF0000, 0⟩
    | 0x04 => some ⟨.rwl, 0xFFFFFFFF, 0⟩
    | 0x08 => some ⟨.rwl, 0xFFFFFFFF, 0⟩
    | 0x0C => some ⟨.rwl, 0x0000FF03, 0⟩
    | _ => none
  else if (0x40000 ≤ r ∧ r < 0x42000) ∨ (0x60000 ≤ r ∧ r < 0x62000) then
    match r % 0x10 with
    | 0x00 => some ⟨.rw, 0xFFFFFFFF, 0⟩
    | 0x04 => some ⟨.rw, 0xFFFFFFFF, 0⟩
    | _ => none
  else none

/-- Plain per-cove registers, by block and offset in the cove's registers. -/
def coveSpec (blk rel : Nat) : Option RegSpec :=
  match blk, rel with
  | 0x03, 0x04 => some ⟨.rwl, 0x07FF7FFF, 0x04004000⟩
  | 0x03, 0x08 => some ⟨.rwl, 0x3FFF3FFF, 0x20000100⟩
  | 0x03, 0x0C => some ⟨.rwl, 0xFFFFFFFF, 0x00004003⟩
  | 0x03, 0x10 => some ⟨.rw, 0xFFFFFFFF, 0⟩
  | 0x04, 0x00 => some ⟨.lo, 0xFFFFFFFF, 0⟩
  | 0x04, 0x10 => some ⟨.rwl, 0x00FFFF1F, 0x00000005⟩
  | 0x05, 0x00 => some ⟨.lo, 0xFFFFFFFF, 0⟩
  | 0x06, 0x00 => some ⟨.lo, 0xFFFFFFFF, 0⟩
  | 0x08, 0x10 => some ⟨.rw, 0xFFFFFFFF, 0⟩
  | 0x08, 0x14 => some ⟨.rw, 0xFFFFFFFF, 0⟩
  | 0x08, 0x18 => some ⟨.rw, 0xFFFFFFFF, 0⟩
  | 0x09, 0x00 => some ⟨.rw, 0x00003FFF, 0⟩
  | 0x09, 0x08 => some ⟨.rw, 0xFFFFFFFF, 0⟩
  | 0x09, 0x0C => some ⟨.rw, 0xFFFFFFFF, 0⟩
  | 0x09, 0x10 => some ⟨.rw, 0xFFFFFFFF, 0⟩
  | 0x0A, 0x00 => some ⟨.lo, 0xFFFFFFFF, 0⟩
  | 0x0A, 0x10 => some ⟨.lo, 0xFFFFFFFF, 0⟩
  | 0x0A, 0x18 => some ⟨.rw, 0x00003FFF, 0⟩
  | 0x0B, 0x00 => some ⟨.lo, 0xFFFFFFFF, 0⟩
  | 0x0B, 0x10 => some ⟨.lo, 0xFFFFFFFF, 0⟩
  | 0x0D, 0x04 => some ⟨.rw, 0x0000007F, 0⟩
  | _, _ => none

/-- Plain package registers outside HIF, by block and offset. -/
def pkgSpec (blk rel : Nat) : Option RegSpec :=
  match blk, rel with
  | 0x01, 0x08 => some ⟨.rw, 0xFFFFFFFF, 0⟩
  | 0x01, 0x0C => some ⟨.rw, 0xFFFFFFFF, 0⟩
  | 0x01, 0x10 => some ⟨.rw, 0xFFFFFFFF, 0⟩
  | 0x06, 0x10 => some ⟨.rwl, 0x0000FFFF, 0x3E8⟩
  | 0x07, 0x04 => some ⟨.rwl, 0x80FFFFFF, 0x80020400⟩
  | 0x07, 0x10 => some ⟨.rwl, 0x000000FF, 0x18⟩
  | 0x0B, 0x04 => some ⟨.rwl, 0x07FFFFFF, 0x010001F4⟩
  | 0x0B, 0x0C => some ⟨.rwl, 0x00000003, 3⟩
  | 0x0C, 0x10 => some ⟨.rwl, 0xFFFFFFFF, 0x00C81420⟩
  | 0x0C, 0x14 => some ⟨.rwl, 0x00FFFFFF, 0x00081414⟩
  | 0x0C, 0x18 => some ⟨.rwl, 0x800000FF, 0x80000004⟩
  | 0x0E, 0x08 => some ⟨.rwl, 0x1FFF1FFF, 0x10680D48⟩
  | 0x0E, 0x0C => some ⟨.rwl, 0x0000FFFF, 0x0000280A⟩
  | 0x0E, 0x10 => some ⟨.rwl, 0xFFFFFFFF, 0x0ED81068⟩
  | 0x0E, 0x14 => some ⟨.rwl, 0xFFFFFFFF, 0x0BB80D48⟩
  | 0x0E, 0x18 => some ⟨.rwl, 0xFFFFFFFF, 0x08980A28⟩
  | 0x0E, 0x1C => some ⟨.rwl, 0xFFFFFFFF, 0x070807D0⟩
  | 0x0E, 0x28 => some ⟨.rwl, 0x0000FFFF, 0x00001028⟩
  | 0x0E, 0x2C => some ⟨.rwl, 0x000000FF, 0x00000069⟩
  | 0x10, 0x08 => some ⟨.rwl, 0x0000FFFF, 0x3E8⟩
  | 0x10, 0x0C => some ⟨.rwl, 0x0000FFFC, 0xFFFC⟩
  | 0x10, 0x10 => some ⟨.rw, 0x0000FFFE, 0⟩
  | 0x11, 0x00 => some ⟨.rwl, 0x0000FFFF, 0⟩
  | 0x12, 0x08 => some ⟨.rwl, 0x0000FFFF, 0x64⟩
  | 0x12, 0x14 => some ⟨.rw, 0xFFFFFFFF, 0⟩
  | _, _ => none

/-- Blocks with registers per cove at 0x1000 + 0x100 × cove. -/
def coveBlock (blk : Nat) : Bool :=
  blk ∈ [0x02, 0x03, 0x04, 0x05, 0x06, 0x08, 0x09, 0x0A, 0x0B, 0x0D, 0x0F, 0x12]

/-- The plain register at a BAR0 offset, if there is one. -/
def regSpec (off : Nat) : Option RegSpec :=
  let blk := off / 0x100000
  let rel := off % 0x100000
  if blk = 0x02 then hifSpec rel
  else if coveBlock blk && decide (0x1000 ≤ rel) && decide (rel < 0x1800) then coveSpec blk (rel % 0x100)
  else pkgSpec blk rel

/-- The reset value of a plain register. -/
def regReset (off : Nat) : Word :=
  match regSpec off with
  | some r => BitVec.ofNat 32 r.reset
  | none => 0

/-- What a plain register holds. -/
def State.reg (s : State) (off : Nat) : Word := SMap.get (regReset off) s.regs off

/-- Set a plain register. -/
def State.setReg (s : State) (off : Nat) (w : Word) : State := { s with regs := SMap.put (regReset off) s.regs off w }

/-- The value of two adjacent plain registers (R23). -/
def State.reg64 (s : State) (off : Nat) : Nat := (s.reg off).toNat + 0x100000000 * (s.reg (off + 4)).toNat

/-- A counter register. -/
def State.ctr (s : State) (off : Nat) : DWord := SMap.get 0 s.ctrs off

/-- Add to a counter register. -/
def State.bump (s : State) (off : Nat) (n : Nat) : State :=
  { s with ctrs := SMap.put 0 s.ctrs off (s.ctr off + BitVec.ofNat 64 n) }

/-- The write-one-to-clear bits of a register. -/
def State.flag (s : State) (off : Nat) : Word := SMap.get 0 s.flags off

/-- Whether a write-one-to-clear bit is set. -/
def State.flagBit (s : State) (off i : Nat) : Bool := (s.flag off).getLsbD i

/-- Replace the write-one-to-clear bits of a register. -/
def State.setFlags (s : State) (off : Nat) (w : Word) : State := { s with flags := SMap.put 0 s.flags off w }

/-- The committed image (STAT.COMMITTED). -/
def State.image (s : State) : Option Image := s.jvk.inForce

/-- The declaration of a cove in the image in force. -/
def State.cove (s : State) (c : Nat) : Option CoveDecl :=
  match s.image with
  | some im => if h : c < 8 then im.coves[c] else none
  | none => none

/-- The declaration of a model slot in the image in force. -/
def State.slot (s : State) (c slot : Nat) : Option SlotDecl :=
  match s.image with
  | some im => if h : c * 8 + slot < 64 then (if slot < 8 then im.slots[c * 8 + slot] else none) else none
  | none => none

end Sys2Proof.Machine
end

