-- ==== Sys2Proof/Machine/Ops.lean ====
section
/-! DEFINITION. Sys2Proof/Machine/Ops.lean: the shared operations: events and interrupt vectors, the fault log, Ripple
occurrences, memory under the symbol code, poison and encryption, arrival counters and watches. -/
namespace Sys2Proof.Machine
open Sys2Proof

/-- Apply a function to one element of a vector. -/
def vmod {α : Type} {n : Nat} (v : Vector α n) (i : Nat) (f : α → α) : Vector α n :=
  if h : i < n then v.set i (f v[i]) else v

/-- One element of a vector, `d` past its end. -/
def vget {α : Type} {n : Nat} (d : α) (v : Vector α n) (i : Nat) : α := if h : i < n then v[i] else d

/-- The local tick as a number (R586). -/
def State.now (s : State) : Nat := s.tick.toNat

/-- EPOCH_MARK in force (R587). -/
def State.mark (s : State) : Nat := s.hif.epochMark.toNat

/-- The package runs: it is not held in cold reset (R656, R660) and not in P4, which only a cold reset ends (R595). -/
def State.answers (s : State) : Bool := !s.hif.heldInReset && decide (s.pstate ≠ 4)

/-- What happens to a package that runs; one held in cold reset or in P4 does nothing. -/
def State.whileOn (s : State) (f : State → State) : State := if s.answers then f s else s

/-- The engines are gated: in cold reset, in the stop (Table 13.3) and in P2 to P4 (Table 13.4). -/
def State.halted (s : State) : Bool := s.stopped || s.hif.heldInReset || decide (2 ≤ s.pstate)

/-- What an engine does, unless the engines are gated. -/
def State.unlessHalted (s : State) (f : State → State) : State := if s.halted then s else f s

/-- A reset that runs leaves an engine, by its TARGET, free to claim work (R591 to R593). -/
def State.mayWork (s : State) (target : Nat) : Bool :=
  match s.hif.running with
  | some r => match r.kind with
    | .engine => r.target != target
    | .cove => true
    | .port => true
    | _ => false
  | none => true

/-- Send something out of the package. -/
def State.emit (s : State) (o : Out) : State := { s with out := s.out ++ [o] }

/-- Draw a free value: the value, and the state that has drawn it (log 1). -/
def State.draw (s : State) : Nat × State := (Config.draw s.draws, { s with draws := s.draws + 1 })

/-! ### Interrupts (R583, R584) -/

/-- HIF.MSIX_SENT. -/
def ctrMsixSent : Nat := blkHIF + 0x50

/-- R523: whether a function may issue memory requests: no IDE is required, or a stream that carries them is active. -/
def State.ideOk (s : State) (fn : Nat) : Bool :=
  match s.image with
  | some im => !im.requireIde || s.wh.ideLink || decide (fn ∈ s.wh.ideSel)
  | none => true

/-- Raise a vector of a function: send its message, or set its pending bit while a mask is set (R584) or its stream is
missing (R523). -/
def State.raise (s : State) (fn vec : Nat) : State :=
  let m := vget ({} : Msix) s.hif.msix fn
  if !m.enabled then s
  else if SMap.get false m.pending vec then s
  else if m.funcMask || SMap.get false m.masked vec || !s.ideOk fn then
    { s with hif := { s.hif with msix := vmod s.hif.msix fn fun m => { m with pending := SMap.put false m.pending vec true } } }
  else (s.bump ctrMsixSent 1).emit (.msix fn vec)

/-- Send the messages of a function's pending vectors that nothing masks any more, and clear their pending bits
(R584). -/
def State.flushVectors (s : State) (fn : Nat) : State :=
  let m := vget ({} : Msix) s.hif.msix fn
  if !m.enabled || m.funcMask || !s.ideOk fn then s
  else
    ((SMap.keys m.pending).filter fun v => !SMap.get false m.masked v).foldl (fun s v =>
      (({ s with hif := { s.hif with msix := vmod s.hif.msix fn fun m => { m with pending := SMap.put false m.pending v false } } } : State).bump
        ctrMsixSent 1).emit (.msix fn v)) s

/-- Raise a vector of cove `c` (Table 16.4: 0 sequencer, 1 Inlet, 2 DROPPED or POST_FAULT, 3 DTU fault) on PF0 and on
the cove's VF. -/
def State.raiseCove (s : State) (c k : Nat) : State := (s.raise 0 (16 + 4 * c + k)).raise (1 + c) k

/-- Set a write-one-to-clear bit and raise the PF0 vector it is assigned. -/
def State.event (s : State) (off i vec : Nat) : State := (s.setFlags off (setBit32 (s.flag off) i)).raise 0 vec

/-- HIF.EVENT bits (Table 16.11). -/
def State.hifEvent (s : State) (i : Nat) : State := s.event (blkHIF + 0x10) i 0
/-- MEM.MAP_STAT bits (Table 07.10). -/
def State.memEvent (s : State) (i : Nat) : State := s.event (blkMEM + 0xC) i 2
/-- FLT.EVENT bits (Table 17.8). -/
def State.fltEvent (s : State) (i : Nat) : State := s.event (blkFLT + 0x4) i 7
/-- RIP.EVENT bits (Table 18.8). -/
def State.ripEvent (s : State) (i : Nat) : State := s.event (blkRIP + 0x4) i 8

/-- Set DROPPED (16) or POST_FAULT (17) of a queue's status register and raise its vector (R112, R667). -/
def State.queueFlag (s : State) (c off i : Nat) : State :=
  (s.setFlags off (setBit32 (s.flag off) i)).raiseCove c 2

/-! ### Fault log (R620) -/

/-- FLT.LOG_TAIL. -/
def regLogTail : Nat := blkFLT + 0x14

/-- UNIT codes of Table 17.9. -/
def unitMxc : Nat := 0x01
def unitAtn : Nat := 0x02
def unitShoal : Nat := 0x03
def unitFerry : Nat := 0x04
def unitSpw : Nat := 0x05
def unitInlet : Nat := 0x06
def unitSeq : Nat := 0x07
def unitHost : Nat := 0x08
def unitBasin : Nat := 0x09
def unitMem : Nat := 0x0A
def unitLink : Nat := 0x0B
def unitGauge : Nat := 0x0C
def unitWeir : Nat := 0x0D
def unitWh : Nat := 0x0E
def unitJvk : Nat := 0x0F

/-- R620: write a fault log entry, or count it in LOG_DROPPED when the log is full. `cove` is 0x80 for the package. -/
def State.faultLog (s : State) (kind unit : Nat) (st : Status) (cove addr info : Nat) : State :=
  if 256 ≤ (s.flt.logHead - (s.reg regLogTail).toNat) then
    { (s.bump (blkFLT + 0x78) 1) with flt := { s.flt with logFull := true } }
  else
    let e : LogEntry := { seq := s.flt.logHead % 0x100000000, kind, unit, status := st.code, cove, tick := s.now, addr, info }
    { s with flt := { s.flt with log := SMap.put ({} : LogEntry) s.flt.log (s.flt.logHead % 256) e, logHead := s.flt.logHead + 1 } }.fltEvent 0

/-- Record the last status other than DONE or REPLAYED written for a cove (Table 17.8). -/
def State.noteStatus (s : State) (c : Nat) (st : Status) : State :=
  if st = .done ∨ st = .replayed then s
  else { s with flt := { s.flt with lastStatus := vmod s.flt.lastStatus c fun _ => st.code } }

/-! ### Ripple (R623 to R631) -/

/-- Record kinds of Table 18.4. -/
def ripGap : Nat := 0x01
def ripAgeing : Nat := 0x02
def ripFormatFault : Nat := 0x03
def ripEscalation : Nat := 0x04
def ripUeRead : Nat := 0x05
def ripTablePoison : Nat := 0x06
def ripSlotEvict : Nat := 0x07
def ripCreditMismatch : Nat := 0x08
def ripGapSkip : Nat := 0x09
def ripCapLag : Nat := 0x0A
def ripDroop : Nat := 0x0B
def ripTrimLimit : Nat := 0x0C
def ripObjectLost : Nat := 0x0D
def ripNodeLoss : Nat := 0x0E
def ripStepTime : Nat := 0x0F

/-- R631: the recorder runs at D2 grain while the debug level is D2 or D3. -/
def State.grainFine (s : State) : Bool := decide (2 ≤ s.debug)

/-- R631: a tick as a record shows it. -/
def State.grainTick (s : State) (t : Nat) : Nat := if s.grainFine then t else t - t % 100000

/-- Table 18.4: a signed kind compares VALUE as signed. -/
def ripSigned (kind : Nat) : Bool := kind = ripCreditMismatch || kind = ripTrimLimit

/-- Compare two 64-bit VALUEs of a kind (R625, R628). -/
def ripLess (kind a b : Nat) : Bool :=
  if ripSigned kind then decide ((BitVec.ofNat 64 a).toInt < (BitVec.ofNat 64 b).toInt) else decide (a < b)

/-- R628: an identical occurrence. -/
def RipRec.same (r : RipRec) (kind status cove key : Nat) : Bool :=
  !r.closed && r.kind != ripGap && r.kind == kind && r.status == status && r.cove == cove && r.key == key

/-- R628: a record with one more occurrence of a value at a tick. -/
def RipRec.again (r : RipRec) (value tick : Nat) : RipRec :=
  let r := { r with repeats := r.repeats + 1 }
  let r := if ripLess r.kind value r.min then { r with min := value, minTick := tick } else r
  let r := if ripLess r.kind r.max value then { r with max := value, maxTick := tick } else r
  if r.repeats = 0xFFFFFFFF then { r with closed := true } else r

/-- R640: the closing of a record of a kind that NOTIFY_MASK enables sets EVENT.NOTIFY. -/
def State.ripNotify (s : State) (kind : Nat) : State :=
  if (s.reg (blkRIP + 0x10)).getLsbD kind then s.ripEvent 0 else s

/-- R629: close the open record, whether in the ring or still queued. -/
def State.ripClose (s : State) : State :=
  let s := match s.rip.openRec with
    | some n =>
      let r := SMap.get ({} : RipRec) s.rip.ring (n % 1048576)
      { s with rip := { s.rip with ring := SMap.put ({} : RipRec) s.rip.ring (n % 1048576) { r with closed := true }, openRec := none } }.ripNotify r.kind
    | none => s
  { s with rip := { s.rip with queue := s.rip.queue.map fun r => { r with closed := true } } }

/-- R623: put a record in the queue, preceded by a GAP record when some were discarded; or discard it. -/
def State.ripEnter (s : State) (r : RipRec) : State :=
  let need := if s.rip.dropped = 0 then 1 else 2
  if 256 < s.rip.queue.length + need then
    let first := if s.rip.dropped = 0 then s.now else s.rip.dropFirst
    ({ s with rip := { s.rip with dropped := s.rip.dropped + 1, dropFirst := first, dropLast := s.now } }.bump (blkRIP + 0x50) 1).ripEvent 1
  else
    let gap : List RipRec :=
      if s.rip.dropped = 0 then []
      else [{ kind := ripGap, cove := 0x80, tick := s.grainTick s.rip.dropFirst, epoch := s.mark, repeats := s.rip.dropped,
              minTick := s.grainTick s.rip.dropFirst, maxTick := s.grainTick s.rip.dropLast, closed := true }]
    { s with rip := { s.rip with queue := s.rip.queue ++ gap ++ [r], dropped := 0, dropFirst := 0, dropLast := 0,
                                 lastUpdate := s.now } }

/-- R628, R631: an occurrence of an E-form kind. `cove` is the COVE byte (0x80 for the package). -/
def State.ripple (s : State) (kind : Nat) (st : Nat) (cove key value : Nat) : State :=
  if kind != ripGap && !(s.reg (blkRIP + 0xC)).getLsbD kind then s
  else
    let v := if kind = ripCapLag && !s.grainFine then value - value % 8 else value % 0x10000000000000000
    let t := s.grainTick s.now
    let fresh : RipRec := { kind, status := st, cove, tick := t, epoch := s.mark, key, repeats := 1,
                            min := v, minTick := t, max := v, maxTick := t }
    match s.rip.queue.getLast? with
    | some last =>
      if last.same kind st cove key then
        { s with rip := { s.rip with queue := s.rip.queue.dropLast ++ [last.again v t], lastUpdate := s.now } }.bump (blkRIP + 0x48) 1
      else
        { s with rip := { s.rip with queue := s.rip.queue.dropLast ++ [{ last with closed := true }] } }.ripEnter fresh
    | none =>
      match s.rip.openRec with
      | some n =>
        let r := SMap.get ({} : RipRec) s.rip.ring (n % 1048576)
        if r.same kind st cove key then
          let r' := r.again v t
          let s := { s with rip := { s.rip with ring := SMap.put ({} : RipRec) s.rip.ring (n % 1048576) r', lastUpdate := s.now,
                                                openRec := if r'.closed then none else some n } }.bump (blkRIP + 0x48) 1
          if r'.closed then s.ripNotify kind else s
        else s.ripEnter fresh
      | none => s.ripEnter fresh

/-- The COVE byte of a record for a cove code: 8 is the package (Table 18.4). -/
def coveByte (c : Nat) : Nat := if c < 8 then c else 0x80

/-! ### The layout of device physical addresses (R254, R256, R291, R292, R551) -/

/-- Fitted pseudo-channels (Table 07.1). -/
def Variant.nfit : Variant → Nat
  | .m => 512
  | _ => 768

/-- Fitted stacks. -/
def Variant.stacks : Variant → Nat
  | .m => 8
  | _ => 12

/-- Parity of a number's low 22 bits. -/
def popcount22 (n : Nat) : Nat := ((List.range 22).filter fun i => n.testBit i).length

/-- Table 07.2: the lane masks. -/
def laneMask (i : Nat) : Nat := nth 0 [0x10101, 0x20202, 0x40404, 0x80808, 0x101010, 0x202020, 0x4040, 0x8080] i

/-- R256: the fitted home of a DPA: pseudo-channel and offset within it. -/
def fittedHome (nfit dpa : Nat) : Nat × Nat :=
  let groups := nfit / 256
  let g := dpa >>> 8
  let l := g % 256
  let m := g >>> 8
  let mp := m / groups
  let grp := (m % groups + popcount22 mp) % groups
  let f := (List.range 8).foldl (fun a i => a + (popcount22 (mp &&& laneMask i) % 2) * 2 ^ i) 0
  (256 * grp + (l ^^^ f), mp * 256 + dpa % 256)

/-- R256: the DPA of a 256-byte granule of a fitted pseudo-channel: the inverse of the hash. -/
def fittedDpa (nfit p mp : Nat) : Nat :=
  let groups := nfit / 256
  let grp := p / 256
  let f := (List.range 8).foldl (fun a i => a + (popcount22 (mp &&& laneMask i) % 2) * 2 ^ i) 0
  let l := (p % 256) ^^^ f
  let mm := (grp + groups * popcount22 mp - popcount22 mp % groups) % groups
  ((mp * groups + mm) * 256 + l) * 256

/-- CAP(j) of R272: fitted capacity less `j` channels. -/
def capAfter (v : Variant) (j : Nat) : Nat := 0x40000000 * (v.nfit - 2 * j)

/-- R275: the 256-byte granule in whose fitted home granule `g` lies once the first `k` channels of `outs` have been
mapped out. -/
def homeGranule (v : Variant) (outs : List Nat) : Nat → Nat → Nat
  | 0, g => g
  | k + 1, g =>
    let on (x : Nat) : Bool := decide ((fittedHome v.nfit (homeGranule v outs k x * 256)).1 / 2 = nth 0 outs k)
    if !on g then homeGranule v outs k g
    else
      let lo := capAfter v (k + 1) / 256
      let i := ((List.range g).filter on).length
      let w := ((List.range (2 * 0x40000000 / 256)).map fun j => lo + j).filter fun x => !on x
      homeGranule v outs k (nth 0 w i)

/-- The pseudo-channel and the offset within it that hold a 256-byte granule once channels have been mapped out. -/
def homeOf (v : Variant) (outs : List Nat) (g : Nat) : Nat × Nat := fittedHome v.nfit (homeGranule v outs outs.length g * 256)

/-- The pseudo-channel that holds a granule. -/
def homePch (v : Variant) (outs : List Nat) (g : Nat) : Nat := (homeOf v outs g).1

/-- R277: the map-outs that hold for a 256-byte granule: those that have ended, and the one in progress once it has
moved the granule. -/
def State.outsFor (s : State) (g : Nat) : List Nat :=
  s.hbm.outs ++ (match s.hbm.move with
    | some m => if g < m.moved then [m.ch] else []
    | none => [])

/-- The pseudo-channel that serves a DPA of HBM now. -/
def State.pchOf (s : State) (dpa : Nat) : Nat := homePch s.fuses.variant (s.outsFor (dpa / 256)) (dpa / 256)

/-- A channel's roster state; channels that are not fitted are ABSENT (R254, R270). -/
def State.chan (s : State) (ch : Nat) : ChanState := if s.fuses.variant.nfit / 2 ≤ ch then .absent else vget .absent s.hbm.roster ch

/-- Regions of DPA space (Table 08.1). -/
inductive Region where | hbm | mere | deep | host | none
  deriving DecidableEq, Repr

/-- Bases of Table 08.1. -/
def mereE : Nat := 0x010000000000
def mereW : Nat := 0x010010000000
def mereBytes : Nat := 96 * 0x100000
def deepDpa : Nat := 0x020000000000
def hostDpa : Nat := 0x800000000000

/-- The region a DPA lies in (R291); a DPA in no region reaches no memory. -/
def State.region (s : State) (dpa : Nat) : Region :=
  if dpa < 0x40000000 * s.fuses.variant.nfit then .hbm
  else if mereE ≤ dpa ∧ dpa < mereE + mereBytes then .mere
  else if mereW ≤ dpa ∧ dpa < mereW + mereBytes then .mere
  else if deepDpa ≤ dpa ∧ dpa < deepDpa + 0x40000000 * s.hbm.deepGiB then .deep
  else if hostDpa ≤ dpa ∧ dpa < 0x10000000000000000 then .host
  else .none

/-- R292, R551: whether a DPA lies in a range the package reserves. -/
def State.reserved (s : State) (dpa : Nat) : Bool :=
  match s.image with
  | some im =>
    (decide (im.rsvBase ≤ dpa) && decide (dpa < im.rsvBase + im.rsvBytes)) ||
    (decide (mereE + 0x5780000 ≤ dpa) && decide (dpa < mereE + mereBytes)) ||
    (decide (mereW + 0x5800000 ≤ dpa) && decide (dpa < mereW + mereBytes))
  | none => false

/-- R272: bands used or withheld as spare. -/
def State.spareOrUsed (s : State) (dpa : Nat) : Bool :=
  let n := s.hbm.outs.length + (match s.hbm.move with | some _ => 1 | none => 0)
  decide (s.region dpa = .hbm) && decide (capAfter s.fuses.variant (Nat.max n s.hbm.spareEnd) ≤ dpa)

/-! ### Memory (R258 to R263, R514, R515) -/

/-- A fused secret (Table 14.1): every bit is one once it is destroyed (R537). -/
def fusedSecret (destroyed : Bool) (k n : Nat) : List Byte := if destroyed then List.replicate n 0xFF else leBytes n (Config.fused k)

/-- MK, the key of HBM and the deep tier (R511): from random bytes alone once MEM_SECRET is destroyed (R537). -/
def State.memoryKey (s : State) : List Byte :=
  if s.wh.bootDestroyed then leBytes 64 (Config.bootRandom s.wh.boot)
  else hkdfExpand (hkdfExtract (leBytes 48 (Config.bootRandom s.wh.boot)) (fusedSecret false 4 48)) [0x52, 0x56, 0x58, 0x39, 0x20, 0x4D, 0x4B] 64

/-- The tag of a cove code: cove 0 to 7, 8 for the package (R515). -/
def State.tagOf (s : State) (code : Nat) : Nat := 1 + code + 16 * vget 0 s.epochs code

/-- Memory that passes through the encryption (R514). -/
def Region.tagged : Region → Bool
  | .hbm => true
  | .deep => true
  | _ => false

/-- What the decoder makes of a granule that is not poison (R259). -/
def State.decodeAt (s : State) (g : Nat) : EccRead := eccDecode (SMap.get [] s.mem.failed g)

/-- A granule that a read finds poisoned: poison, or symbols beyond correction (R259, R260). -/
def State.granuleBad (s : State) (g : Nat) : Bool := SMap.get false s.mem.poison g || decide (s.decodeAt g = .bad)

/-- The tweak of a granule under a tag: [127:124] cove code, [123:76] epoch, [57:0] DPA[63:6] (R514). -/
def granuleTweak (tag g : Nat) : Nat := 0x10000000000000000000000000000000 * ((tag - 1) % 16) + 0x10000000000000000000 * ((tag - 1) / 16 % 0x1000000000000) + g % 0x400000000000000

/-- The ciphertext of a granule as memory holds it (R514). -/
def State.cipherOf (s : State) (g : Nat) : List Byte :=
  xtsEncrypt s.memoryKey (granuleTweak (SMap.get 0 s.mem.tag g) g) ((List.range 64).map fun i => SMap.get 0 s.mem.bytes (64 * g + i))

/-- The byte at a DPA as read under a cove code, less any error: one written under another cove code or epoch is what the
decryption makes of its ciphertext (R514, R515). -/
def State.byteAt (s : State) (code dpa : Nat) : Byte :=
  let b := SMap.get 0 s.mem.bytes dpa
  if (s.region dpa).tagged then
    let t := SMap.get 0 s.mem.tag (dpa / 64)
    let mine := s.tagOf code
    if t = 0 ∨ t = mine then b else nth 0 (xtsDecrypt s.memoryKey (granuleTweak mine (dpa / 64)) (s.cipherOf (dpa / 64))) (dpa % 64)
  else b

/-- Bytes from a DPA as read under a cove code. -/
def State.bytesAt (s : State) (code dpa n : Nat) : List Byte := (List.range n).map fun i => s.byteAt code (dpa + i)

/-- The canonical form of memory: equal memories are equal lists. -/
def Memory.wf (m : Memory) : Bool := SMap.wf 0 m.bytes && SMap.wf false m.poison && SMap.wf 0 m.tag && SMap.wf [] m.failed

/-- Store bytes, ignoring poison and tags. -/
def Memory.store (m : Memory) (dpa : Nat) : List Byte → Memory
  | [] => m
  | b :: bs => Memory.store { m with bytes := SMap.put 0 m.bytes dpa b } (dpa + 1) bs

/-- Write bytes that lie within one granule, under a cove code: a full write clears poison; a partial write to a bad
granule is not performed (R262, R263); the granule then belongs to the writer's tag (R514). -/
def State.writeGranule (s : State) (code dpa : Nat) (bs : List Byte) : State × Bool :=
  let g := dpa / 64
  if s.region dpa = .mere then
    let m := s.mem.store dpa bs
    ({ s with mem := { m with tag := SMap.put 0 m.tag g (s.tagOf code) } }, true)
  else if !(s.region dpa).tagged then ({ s with mem := s.mem.store dpa bs }, true)
  else if bs.length = 64 then
    let m := s.mem.store dpa bs
    ({ s with mem := { m with poison := SMap.put false m.poison g false, failed := SMap.put [] m.failed g [],
                              tag := SMap.put 0 m.tag g (s.tagOf code) } }, true)
  else if s.granuleBad g then (s, false)
  else
    let old := s.bytesAt code (64 * g) 64
    let m := (s.mem.store (64 * g) old).store dpa bs
    ({ s with mem := { m with failed := SMap.put [] m.failed g [], tag := SMap.put 0 m.tag g (s.tagOf code) } }, true)

/-- Cut the range of `n` bytes from `a` into pieces that each lie within one 64-byte granule: start and length. -/
def pieces (a n : Nat) : List (Nat × Nat) :=
  if n = 0 then []
  else (List.range ((a + n - 1) / 64 - a / 64 + 1)).map fun i =>
    let lo := Nat.max a (64 * (a / 64 + i))
    let hi := Nat.min (a + n) (64 * (a / 64 + i + 1))
    (lo, hi - lo)

/-- R271: a LIVE channel whose counts reach a limit over two passes enters WATCH. -/
def State.watchCheck (s : State) (ch : Nat) : State :=
  let cfg := (s.reg (blkMEM + 4)).toNat
  let ce := SMap.get 0 s.hbm.ceNow ch + SMap.get 0 s.hbm.cePrev ch
  let ue := SMap.get 0 s.hbm.ueNow ch + SMap.get 0 s.hbm.uePrev ch
  if s.chan ch = .live ∧ (bits cfg 0 16 ≤ ce ∨ bits cfg 16 8 ≤ ue) then
    ({ s with hbm := { s.hbm with roster := vmod s.hbm.roster ch fun _ => .watch } }).memEvent 0
  else s

/-- R259: count corrected symbols against a channel. -/
def State.countCe (s : State) (ch n : Nat) : State :=
  let s := (s.bump (blkMEM + 0x80) n).bump (blkMEM + 0x1000 + 0x10 * ch) n
  ({ s with hbm := { s.hbm with ceNow := SMap.upd 0 s.hbm.ceNow ch (· + n) } }).watchCheck ch

/-- R268, R269: a granule that a read finds not clean counts against the quarantined page that holds it: the page's
test no longer stands. -/
def State.quarSpoil (s : State) (dpa : Nat) : State :=
  { s with seq := s.seq.mapIdx fun c (x : SeqCove) => match s.cove c with
    | none => x
    | some d =>
      let p := (dpa - d.hbmBase) / 65536
      if d.hbmBase ≤ dpa ∧ p ∈ x.quar then
        ({ x with quarOk := x.quarOk.filter fun y => y.1 ≠ p, quarBad := x.quarBad ++ [(p, s.pchOf dpa / 2)] } : SeqCove)
      else x }

/-- R260, R264: an uncorrectable read: poison, counts, the Ripple record and the fault log entry. -/
def State.uncorrectable (s : State) (code act dpa : Nat) : State :=
  let p := s.pchOf dpa
  let ch := p / 2
  let s := { s with mem := { s.mem with poison := SMap.put false s.mem.poison (dpa / 64) true,
                                        failed := SMap.put [] s.mem.failed (dpa / 64) [] } }
  let s := s.quarSpoil dpa
  let s := (s.bump (blkMEM + 0x88) 1).bump (blkMEM + 0x1004 + 0x10 * ch) 1
  let s := s.ripple ripUeRead Status.poisoned.code (coveByte code) (ch + 512 * (p % 2) + 65536 * act) (64 * (dpa / 64))
  let s := s.faultLog 0x01 unitMem .poisoned (coveByte code) (64 * (dpa / 64)) 0
  ({ s with hbm := { s.hbm with ueNow := SMap.upd 0 s.hbm.ueNow ch (· + 1) } }).watchCheck ch

/-- R259 to R261: what decoding one granule at a read does to the state. -/
def State.readGranule (s : State) (code act dpa : Nat) : State :=
  let g := dpa / 64
  if !(s.region dpa).tagged then s
  else if SMap.get false s.mem.poison g then s.bump (blkMEM + 0x90) 1
  else match s.decodeAt g with
    | .clean => s
    | .one _ _ => ({ s with mem := { s.mem with failed := SMap.put [] s.mem.failed g [] } }).countCe (s.pchOf dpa / 2) 1
    | .bad => (s.uncorrectable code act dpa).bump (blkMEM + 0x90) 1

/-! ### Charges against grants (R44, R548) -/

/-- Place of the arbiter of a part of a resource. -/
def arbKey (resource sub : Nat) : Nat := 64 * resource + sub

/-- R548: the image in force declares an activity for a resource; index 0 is the house (R41). -/
def State.declares (s : State) (res act : Nat) : Bool :=
  decide (act = 0) || s.image.any fun im => im.activities.any fun a => decide (a.resource = res) && decide (a.index = act)

/-- Charge `n` units of a part of a resource to an activity: to the house where it is not declared (R548). -/
def State.spend (s : State) (res sub act n : Nat) : State :=
  let key := if s.declares res act then act else 0
  { s with arbs := SMap.upd ({} : Arb) s.arbs (arbKey res sub) fun a => { a with used := SMap.upd 0 a.used key (· + n) } }

/-- R548: count a request that names an activity which its resource does not declare. -/
def State.undeclared (s : State) (res act : Nat) : State :=
  if s.declares res act || s.image.isNone then s else s.bump (blkJVK + 0x68) 1

/-- A request of `n` units of a part of a resource for an activity. -/
def State.charge (s : State) (res sub act n : Nat) : State := (s.undeclared res act).spend res sub act n

/-! ### Arrival counters and watches (R394, R585) -/

/-- An arrival counter. -/
def State.arr (s : State) (i : Nat) : DWord := SMap.get 0 s.arrival i

/-- The vector of a watch: PF0 watches 0 to 511, then those of cove c at 512 + 64 c (Table 16.4). -/
def watchVector (w : Nat) : Nat × Nat := if w < 512 then (0, 512 + w) else (1 + (w - 512) / 64, 64 + (w - 512) % 64)

/-- BAR0 offset of a watch's TARGET_LO. -/
def watchOff (w : Nat) : Nat :=
  if w < 512 then blkHIF + 0x40000 + 0x10 * w else blkHIF + 0x60000 + 0x400 * ((w - 512) / 64) + 0x10 * ((w - 512) % 64)

/-- R585: evaluate one watch; when it fires, ARM clears, FIRED is set and its vector is raised. -/
def State.evalWatch (s : State) (w : Nat) : State :=
  let x := SMap.get ({} : Watch) s.hif.watches w
  let target := BitVec.ofNat 64 (s.reg64 (watchOff w))
  if x.arm && decide ((s.arr x.counter - target).toNat < 0x8000000000000000) then
    let (fn, vec) := watchVector w
    { s with hif := { s.hif with watches := SMap.put ({} : Watch) s.hif.watches w { x with arm := false, fired := true } } }.raise fn vec
  else s

/-- R585: evaluate every watch that names a counter. -/
def State.evalWatches (s : State) (i : Nat) : State :=
  (SMap.keys (SMap.filter (fun _ x => x.arm && x.counter == i) s.hif.watches)).foldl (fun s w => s.evalWatch w) s

/-- R394: raise an arrival counter by one and evaluate its watches. -/
def State.incArrival (s : State) (i : Nat) : State :=
  { s with arrival := SMap.put 0 s.arrival i (s.arr i + 1) }.evalWatches i

/-- Apply a DONE_CTR field once when it is enabled: [15:0] counter, [16] enable. -/
def State.applyDone (s : State) (field : Nat) : State := if bit field 16 then s.incArrival (field % 65536) else s

end Sys2Proof.Machine
end

