-- ==== Sys2Proof/Machine/Operands.lean ====
section
/-! DEFINITION. Sys2Proof/Machine/Operands.lean: cove-virtual operands: table walks, translation faults, and reads,
writes and atomic operations through a cove's address space (spec/08_tiers_and_translation.md, R285, R286). -/
namespace Sys2Proof.Machine
open Sys2Proof

/-- Why an access through a cove's address space ends without data. -/
inductive AccErr where
  /-- A translation fault with its CAUSE (R303, R305). -/
  | fault (cause : Nat)
  /-- Outside every host window that admits the cove (R580). -/
  | hostWin
  /-- A poisoned granule at this DPA (R261). -/
  | poisoned (dpa : Nat)
  /-- A poisoned granule of a translation table (R304). -/
  | tablePoison (dpa : Nat)
  /-- The object is LOST (R604). -/
  | objLost
  /-- The access went to another node and ended there with a status other than DONE (R298). -/
  | ended (st : Status)
  deriving DecidableEq, Repr

/-- Kinds of access a leaf admits (Table 08.3). -/
inductive AccKind where | read | write | atomic
  deriving DecidableEq, Repr

/-- Where an access goes: a DPA, or another node through an export window (R298). -/
inductive Target where
  | dpa (a : Nat)
  | remote (node window offset : Nat)
  deriving DecidableEq, Repr

/-- A table entry as read: its level, its DPA and its 64 bits. -/
structure Walk where
  level : Nat
  entryDpa : Nat
  entry : Nat
  deriving DecidableEq, Repr

/-- The 8-byte table entry at a DPA, read under a cove's code; none where its granule is poisoned (R304). -/
def State.tableEntry (s : State) (c dpa : Nat) : Option Nat :=
  if s.granuleBad (dpa / 64) then none else some (leNat (s.bytesAt c dpa 8))

/-- R296: where a table may lie. -/
def State.tableOk (s : State) (dpa size : Nat) : Bool :=
  decide (dpa % size = 0) && decide (s.region dpa = .hbm) && decide (s.region (dpa + size - 1) = .hbm) &&
    !s.reserved dpa && !s.reserved (dpa + size - 1) && !s.spareOrUsed dpa && !s.spareOrUsed (dpa + size - 1)

/-- R297: a leaf with a reserved bit set is malformed. -/
def leafMalformed (e : Nat) : Bool := bit e 2 || bit e 5 || decide (bits e 11 5 ≠ 0)

/-- R296, R297: walk a cove's tables to the leaf of an address. -/
def State.walk (s : State) (c va : Nat) : Except AccErr Walk :=
  if 0x1000000000000 ≤ va then .error (.fault 7)
  else match s.cove c with
  | none => .error (.fault 1)
  | some d =>
    let a1 := d.root + 8 * (va / 0x40000000)
    match s.tableEntry c a1 with
    | none => .error (.tablePoison a1)
    | some e1 =>
      if !bit e1 0 then .error (.fault 1)
      else if bit e1 1 then
        if leafMalformed e1 || decide (bits e1 16 14 ≠ 0) then .error (.fault 5) else .ok ⟨1, a1, e1⟩
      else if bits e1 2 6 ≠ 0 ∨ !s.tableOk (e1 / 256 * 256) 4096 then .error (.fault 5)
      else
        let a2 := e1 / 256 * 256 + 8 * (va / 0x200000 % 512)
        match s.tableEntry c a2 with
        | none => .error (.tablePoison a2)
        | some e2 =>
          if !bit e2 0 then .error (.fault 1)
          else if bit e2 1 then
            if leafMalformed e2 || decide (bits e2 16 5 ≠ 0) then .error (.fault 5) else .ok ⟨2, a2, e2⟩
          else if bits e2 2 6 ≠ 0 ∨ !s.tableOk (e2 / 256 * 256) 256 then .error (.fault 5)
          else
            let a3 := e2 / 256 * 256 + 8 * (va / 0x10000 % 32)
            match s.tableEntry c a3 with
            | none => .error (.tablePoison a3)
            | some e3 =>
              if !bit e3 0 then .error (.fault 1)
              else if !bit e3 1 || leafMalformed e3 then .error (.fault 5)
              else .ok ⟨3, a3, e3⟩

/-- Address bits below the page size of a level (Table 08.2). -/
def pageBits : Nat → Nat
  | 1 => 30
  | 2 => 21
  | _ => 16

/-- R580: whether a host window admits a cove's access to a range of bus addresses. -/
def State.hostAdmits (s : State) (c : Nat) (write : Bool) (bus n : Nat) : Bool :=
  (List.range 16).any fun i =>
    let o := blkHIF + 0x800 + 0x10 * i
    let base := s.reg64 o
    let size := 65536 * (s.reg (o + 8)).toNat
    let ctl := (s.reg (o + 0xC)).toNat
    bit ctl (8 + c) && bit ctl (if write then 1 else 0) && decide (size ≠ 0) && decide (base ≤ bus) && decide (bus + n ≤ base + size)

/-- The object of a cove whose VA range, or HBM copy, holds an address. -/
def State.objAt (s : State) (c va : Nat) : Option (Nat × Obj) :=
  ((s.objs.filter fun ko => ko.1 / 16384 = c ∧ ko.2.word.state ≠ .free ∧
      ((ko.2.decl.va ≤ va ∧ va < ko.2.decl.va + ko.2.decl.bytes) ∨
       (ko.2.decl.hbmVa ≠ 0 ∧ ko.2.decl.hbmVa ≤ va ∧ va < ko.2.decl.hbmVa + ko.2.decl.bytes))).head?).map
    fun ko => (ko.1 % 16384, ko.2)

/-- R298, R303: translate an access of `n` bytes that lie within one 64-byte granule. -/
def State.translate (s : State) (c va n : Nat) (k : AccKind) : Except AccErr Target :=
  match s.walk c va with
  | .error e => .error e
  | .ok w =>
    let e := w.entry
    match k, bit e 3, bit e 4, bit e 8 with
    | .read, false, _, _ => .error (.fault 2)
    | .write, _, false, _ => .error (.fault 3)
    | .atomic, _, _, false => .error (.fault 4)
    | _, _, _, _ =>
      let lost := match s.objAt c va with
        | some (_, o) => decide (o.word.state = ObjState.lost)
        | none => false
      if lost then .error .objLost
      else
        let pb := pageBits w.level
        let low := va % 2 ^ pb
        let tier := bits e 6 2
        if tier = 3 then .ok (.remote (bits e 48 16) (bits e 40 8) (bits e 16 24 * 65536 + low))
        else
          let a := 65536 * (e / 65536) + low
          let r := s.region a
          let tierOk := match r with
            | .hbm => decide (tier = 0)
            | .mere => decide (tier = 0)
            | .deep => decide (tier = 1)
            | .host => decide (tier = 2)
            | .none => false
          if !tierOk then .error (.fault 5)
          else if s.reserved a || s.spareOrUsed a then .error (.fault 6)
          else if r = Region.host then
            if k = AccKind.atomic then .error (.fault 4)
            else if s.ideOk (1 + c) && s.hostAdmits c (decide (k = AccKind.write)) (a - hostDpa) n then .ok (.dpa a) else .error .hostWin
          else .ok (.dpa a)

/-! ### Other nodes (R50, R298, R363, R371) -/

/-- The own node ID (R411). -/
def State.ownNode (s : State) : Nat := s.jvk.boundNode.getD 0xFFFF

/-- R363: whether a node is in the node table. -/
def State.nodeListed (s : State) (n : Nat) : Bool :=
  match s.image with
  | some im => im.nodes.any fun e => e.node = n
  | none => false

/-- Change what is kept of a node (R607). -/
def State.modNode (s : State) (n : Nat) (f : NodeLoss → NodeLoss) : State :=
  { s with flt := { s.flt with nodes := SMap.upd {} s.flt.nodes n f } }

/-- What is kept of a node. -/
def State.node (s : State) (n : Nat) : NodeLoss := SMap.get {} s.flt.nodes n

/-- Whether a node is the drained peer of a port (R447). -/
def State.isDrained (s : State) (node : Nat) : Bool :=
  s.lnk.ports.toList.any fun p => p.drained && p.peerNode == node

/-- Node, window and offset of a Basin address (R362). -/
def basinParts (a : Nat) : Nat × Nat × Nat := (bits a 48 16, bits a 40 8, bits a 0 40)

/-- Address within an object of an address of one of its two ranges. -/
def ObjDecl.offsetOf (d : ObjDecl) (va : Nat) : Nat := if d.va ≤ va ∧ va < d.va + d.bytes then va - d.va else va - d.hbmVa

/-- Cut `n` bytes at a relative offset into pieces that cross no 4 KiB boundary of an address. -/
def cut4k (base lo n : Nat) : List (Nat × Nat) :=
  if n = 0 then []
  else (List.range ((base + lo + n - 1) / 4096 - (base + lo) / 4096 + 1)).map fun i =>
    let a := Nat.max (base + lo) (4096 * ((base + lo) / 4096 + i))
    let b := Nat.min (base + lo + n) (4096 * ((base + lo) / 4096 + i + 1))
    (a - base, b - a)

/-- A STORE of bytes at a place of a window, widened to whole words (R371, R392). -/
def storeReq (cove node window off : Nat) (flag : Bool) (data : List Byte) (pmask : Option Nat) : BasinReq :=
  let lead := off % 8
  let n := lead + data.length
  let len := (n + 7) / 8 * 8
  let first := 0x100 - 2 ^ lead
  let last := if n % 8 = 0 then 0xFF else 2 ^ (n % 8) - 1
  { opc := 2, flag, pmask, srcNode := 0, dstNode := node, srcCove := cove, window, len, offset := off - lead,
    firstBe := if len = 8 then first &&& last else first, lastBe := if len = 8 then first &&& last else last,
    data := List.replicate lead 0 ++ data ++ List.replicate (len - n) 0 }

/-- A LOAD of `n` bytes at a place of a window, widened to whole words (R371). -/
def loadReq (cove node window off n : Nat) : BasinReq :=
  let lead := off % 8
  let len := (lead + n + 7) / 8 * 8
  let first := 0x100 - 2 ^ lead
  let last := if (lead + n) % 8 = 0 then 0xFF else 2 ^ ((lead + n) % 8) - 1
  { opc := 1, srcNode := 0, dstNode := node, srcCove := cove, window, len, offset := off - lead,
    firstBe := if len = 8 then first &&& last else first, lastBe := if len = 8 then first &&& last else last }

/-- The status a code names (Table 17.1); codes that name none are RANGE. -/
def statusOf : Nat → Status
  | 0x00 => .done
  | 0x01 => .busy
  | 0x02 => .absentUnit
  | 0x03 => .badImage
  | 0x04 => .sigFail
  | 0x05 => .noResource
  | 0x06 => .poisoned
  | 0x07 => .nodeLost
  | 0x08 => .targetStopped
  | 0x09 => .permission
  | 0x0A => .timeout
  | 0x0B => .cancelled
  | 0x0C => .objectLost
  | 0x0D => .range
  | 0x0E => .replayed
  | _ => .ttlExpired

/-- Statuses that a request to a node that answers can end with (R390, R604; log 8). -/
def remoteEnds : List Status := [.done, .targetStopped, .poisoned, .permission, .timeout, .objectLost, .range]

/-- How an access to a place of another node's window ends: as R363 and R380 say for a node that is not listed or is
lost, else with a free status (log 8). -/
def State.remoteStatus (s : State) (node window off : Nat) : Status :=
  if node ≠ s.ownNode ∧ !s.nodeListed node then .range
  else if (s.node node).lost then .nodeLost
  else nth .done remoteEnds (Config.remoteStatus node (0x10000000000 * window + off / 4096 * 4096) s.draws % 7)

/-- The Basin address of the mirror of a byte of an object that has one (R50). -/
def State.mirrorOf (s : State) (c va : Nat) : Option (Nat × Nat × Nat) :=
  match s.objAt c va with
  | some (_, o) => if o.decl.mirror = 0 then none else some (basinParts (o.decl.mirror + o.decl.offsetOf va))
  | none => none

/-- R50: where a read through a leaf of another node goes: to the mirror when the primary is lost, answers POISONED or
has its route withdrawn for drain, and the object declares a mirror. -/
def State.readFrom (s : State) (c va node window off : Nat) : Nat × Nat × Nat :=
  let st := s.remoteStatus node window off
  if st = .nodeLost || st = .poisoned || s.isDrained node then (s.mirrorOf c va).getD (node, window, off) else (node, window, off)

/-- The bytes that a read of another node brings: free bytes, or the status it ends with (log 8). -/
def State.remoteRead (s : State) (c va node window off n : Nat) : Except AccErr (List Byte) :=
  let (node, window, off) := s.readFrom c va node window off
  match s.remoteStatus node window off with
  | .done => .ok ((List.range n).map fun i => Config.remoteByte node (0x10000000000 * window + off + i) s.draws)
  | st => .error (.ended st)

/-- The parts of an access that reach other nodes, cut at 4 KiB boundaries, up to the first translation fault: offset in
the access, length, node, window and offset there. -/
def State.remoteParts (s : State) (c va n : Nat) (k : AccKind) : List (Nat × Nat × Nat × Nat × Nat) :=
  let cuts := (cut4k va 0 n).map fun x => (x, s.translate c (va + x.1) (Nat.min x.2 64) k)
  (cuts.takeWhile fun x => match x.2 with | .ok _ => true | .error _ => false).filterMap fun x => match x.2 with
    | .ok (.remote node w off) => some (x.1.1, x.1.2, node, w, off)
    | _ => none

/-- R298, R371: hand requests for the remote parts of an access to the transaction layer; its answers are drawn anew. -/
def State.issueRemote (s : State) (l : List TxReq) : State :=
  if l.isEmpty then s else { s with draws := s.draws + 1, bsn := { s.bsn with txWait := s.bsn.txWait ++ l } }

/-- The LOADs of a read of other nodes: to the primary, unless it is lost or withdrawn, and to the mirror that takes its
place; reads sent to a mirror because the node was lost are counted (Table 17.3). -/
def State.remoteLoads (s : State) (c act va n : Nat) : State :=
  let l := s.remoteParts c va n .read
  let reqs := l.flatMap fun x =>
    let here := (x.2.2.1, x.2.2.2.1, x.2.2.2.2)
    let to_ := s.readFrom c (va + x.1) here.1 here.2.1 here.2.2
    let req (p : Nat × Nat × Nat) : TxReq := { req := loadReq c p.1 p.2.1 p.2.2 x.2.1, owner := .none, act }
    if to_ = here then [req here]
    else (if (s.node here.1).lost || s.isDrained here.1 then [] else [req here]) ++ [req to_]
  let lost := l.filter fun x => (s.node x.2.2.1).lost && (s.mirrorOf c (va + x.1)).isSome
  (lost.foldl (fun s x => s.modNode x.2.2.1 fun y => { y with mirrorReads := y.mirrorReads + 1 }) s).issueRemote reqs

/-- The STOREs of a write to other nodes. -/
def State.remoteStores (s : State) (c act va : Nat) (bs : List Byte) : State :=
  s.issueRemote ((s.remoteParts c va bs.length .write).map fun x =>
    { req := storeReq c x.2.2.1 x.2.2.2.1 x.2.2.2.2 false ((bs.drop x.1).take x.2.1) none, owner := .none, act })

/-! ### Charges of HBM accesses (R288) -/

/-- Bytes that the pieces of an access are charged against HBM, up to the first translation fault (R288). -/
def State.hbmBytes (s : State) (c : Nat) (k : AccKind) : List (Nat × Nat) → Nat
  | [] => 0
  | p :: ps =>
    match s.translate c p.1 p.2 k with
    | .error _ => 0
    | .ok (.remote _ _ _) => State.hbmBytes s c k ps
    | .ok (.dpa a) =>
      (if s.region a ≠ .hbm then 0 else if k = .read ∨ k = .write ∧ p.2 = 64 then 64 else 128) + State.hbmBytes s c k ps

/-- Charge an access to an activity's HBM grant, when any of it reaches HBM (R288, R548). -/
def State.chargeHbm (s : State) (c act : Nat) (k : AccKind) (ps : List (Nat × Nat)) : State :=
  let n := s.hbmBytes c k ps
  if n = 0 then s else s.charge 0 0 act n

/-- The bytes of one piece of a read. -/
def State.peekPiece (s : State) (c va n : Nat) : Except AccErr (List Byte) :=
  match s.translate c va n .read with
  | .error e => .error e
  | .ok (.remote nd w o) => s.remoteRead c va nd w o n
  | .ok (.dpa a) => if (s.region a).tagged && s.granuleBad (a / 64) then .error (.poisoned a) else .ok (s.bytesAt c a n)

/-- Join pieces: all bytes, or the first error. -/
def joinPieces : List (Except AccErr (List Byte)) → Except AccErr (List Byte)
  | [] => .ok []
  | .error e :: _ => .error e
  | .ok b :: r =>
    match joinPieces r with
    | .error e => .error e
    | .ok bs => .ok (b ++ bs)

/-- Read `n` bytes of a cove's address space: what the reader receives. -/
def State.peek (s : State) (c va n : Nat) : Except AccErr (List Byte) :=
  joinPieces ((pieces va n).map fun (a, m) => s.peekPiece c a m)

/-- The address of the first piece of a range that meets an error. -/
def State.errAt (s : State) (c va n : Nat) : Nat :=
  (((pieces va n).find? fun (a, m) => match s.peekPiece c a m with | .error _ => true | .ok _ => false).map Prod.fst).getD va

/-- A poisoned granule of an object that may be refetched (R127, R601). -/
def State.refetchable (s : State) (c va : Nat) : Bool :=
  match s.objAt c va with
  | some (_, o) => decide (o.word.state = ObjState.resident) || decide (o.word.state = ObjState.slow)
  | none => false

/-- R601: the page that a read waits for: it meets a poisoned granule of a RESIDENT or SLOW object. -/
def State.poisonPage (s : State) (c va n : Nat) : Option Nat :=
  match s.peek c va n with
  | .error (.poisoned _) =>
    let a := s.errAt c va n
    if s.refetchable c a then some (a / 65536 * 65536) else none
  | _ => none

/-- R305: end an access with a translation fault: the first fault of the cove is held, every one is counted. -/
def State.dtuFault (s : State) (c unit va cause : Nat) : State :=
  let s := s.bump (coveOff blkDTU c 0x30) 1
  let off := coveOff blkDTU c 0x28
  if s.flagBit off 31 then s
  else
    let s := { s with dtu := vmod s.dtu c fun d => { d with faultVa := va, faultUnit := unit, faultCause := cause } }
    (s.setFlags off (setBit32 (s.flag off) 31)).raiseCove c 3

/-- What an access error does to the state (R261, R304, R305, R580). -/
def State.accErr (s : State) (c unit act va : Nat) : AccErr → State
  | .fault cause => s.dtuFault c unit va cause
  | .hostWin => (s.bump (blkHIF + 0x48) 1).hifEvent 2
  | .poisoned dpa => s.readGranule c act dpa
  | .tablePoison dpa =>
    let s := s.readGranule c act dpa
    let s := s.ripple ripTablePoison Status.poisoned.code (coveByte c) unit (64 * (dpa / 64))
    s.faultLog 0x09 unit .poisoned (coveByte c) (64 * (dpa / 64)) 0
  | .objLost => s
  | .ended _ => s

/-- What decoding the pieces of a read does to the state, up to the first error. -/
def State.readPieces (s : State) (c unit act : Nat) : List (Nat × Nat) → State
  | [] => s
  | (va, n) :: ps =>
    match s.translate c va n .read with
    | .error e => s.accErr c unit act va e
    | .ok (.remote node w off) => match s.remoteRead c va node w off n with
      | .error _ => s
      | .ok _ => State.readPieces s c unit act ps
    | .ok (.dpa a) =>
      let bad := (s.region a).tagged && s.granuleBad (a / 64)
      let s := s.readGranule c act a
      if bad then s else State.readPieces s c unit act ps

/-- What reading `n` bytes does to the state: one table walk for each page (WALKS), corrections, poison, faults; the
activity is charged (R288, R548), and what lies at other nodes is asked of them (R298). -/
def State.touch (s : State) (c unit act va n : Nat) : State :=
  let pages := if n = 0 then 0 else (va + n - 1) / 65536 - va / 65536 + 1
  ((((s.bump (coveOff blkDTU c 0x38) pages).chargeHbm c act .read (pieces va n)).readPieces c unit act (pieces va n))).remoteLoads c act va n

/-- A write of a part of a granule reads it first (R263). -/
def State.mergeRead (s : State) (c act a n : Nat) : State := if n < 64 then s.readGranule c act a else s

/-- R603: the refetch of an object's page that runs. -/
def State.refetching (s : State) (c va : Nat) : Bool :=
  s.flt.refetch.any fun r => r.cove = c && r.va = va / 65536 * 65536 && decide (r.obj < 16384)

/-- R603: a write to such a page waits in its entry. -/
def State.holdWrite (s : State) (c act va : Nat) (bs : List Byte) : State :=
  { s with flt := { s.flt with refetch := s.flt.refetch.map fun r =>
      if r.cove = c ∧ r.va = va / 65536 * 65536 then ({ r with writes := r.writes ++ [(act, va, bs)] } : Refetch) else r } }

/-- Write one piece of a range: a part of a granule is merged with what stands there (R263); a write to a page whose
refetch runs waits for its end (R603). -/
def State.writePiece (s : State) (c unit act va n : Nat) (bs : List Byte) : State × Option AccErr :=
  match s.translate c va n .write with
  | .error e => (s.accErr c unit act va e, some e)
  | .ok (.remote nd w o) => (s, if s.remoteStatus nd w o = .done then none else some (.ended (s.remoteStatus nd w o)))
  | .ok (.dpa a) =>
    if s.refetching c va then (s.holdWrite c act va bs, none)
    else match (s.mergeRead c act a n).writeGranule c a bs with
    | (s, ok) => (s, if ok then none else some (.poisoned a))

/-- Write the pieces of a range in ascending address; the first error ends the access. -/
def State.writePieces (s : State) (c unit act : Nat) : List (Nat × Nat) → List Byte → State × Option AccErr
  | [], _ => (s, none)
  | p :: ps, bs =>
    match s.writePiece c unit act p.1 p.2 (bs.take p.2) with
    | (s, e) => if e.isSome then (s, e) else State.writePieces s c unit act ps (bs.drop p.2)

/-- Write bytes to a cove's address space; what lies at other nodes is stored there (R298). -/
def State.poke (s : State) (c unit act va : Nat) (bs : List Byte) : State × Option AccErr :=
  let n := bs.length
  let pages := if n = 0 then 0 else (va + n - 1) / 65536 - va / 65536 + 1
  match ((s.bump (coveOff blkDTU c 0x38) pages).chargeHbm c act .write (pieces va n)).writePieces c unit act (pieces va n) bs with
  | (s, e) => (s.remoteStores c act va bs, e)

/-- Whether a range can be written whole: every piece translates for a write. -/
def State.canWrite (s : State) (c va n : Nat) : Option AccErr :=
  ((pieces va n).filterMap fun (a, m) =>
    match s.translate c a m .write with
    | .error e => some e
    | .ok _ => none).head?

/-- The status an engine gives an access error (R123, R172, R305, R604). -/
def AccErr.status : AccErr → Status
  | .fault _ => .permission
  | .hostWin => .permission
  | .poisoned _ => .poisoned
  | .tablePoison _ => .poisoned
  | .objLost => .objectLost
  | .ended st => st

/-- A field of a descriptor held as bytes: `n` bytes at an offset, little-endian (R19). -/
def fld (d : List Byte) (off n : Nat) : Nat := leNat ((d.drop off).take n)

/-- Read a 32-bit word; 0 where the read fails. -/
def State.peekNat (s : State) (c va n : Nat) : Except AccErr Nat :=
  match s.peek c va n with
  | .ok b => .ok (leNat b)
  | .error e => .error e

/-! ### Memory-side operations (R285, R286) -/

/-- Element types of Table 07.6. -/
inductive AtomTy where | i32 | i64 | u32 | u64 | f32 | bf16 | b128
  deriving DecidableEq, Repr

/-- Operations of Table 07.6. -/
inductive AtomOp where | add | min | max | cas
  deriving DecidableEq, Repr

/-- Bytes of an element. -/
def AtomTy.bytes : AtomTy → Nat
  | .i32 | .u32 | .f32 => 4
  | .i64 | .u64 => 8
  | .bf16 => 2
  | .b128 => 16

/-- Table 07.6: the operation an AOP[5:0] code names. -/
def atomOf : Nat → Option (AtomOp × AtomTy)
  | 0x01 => some (.add, .i32)
  | 0x02 => some (.add, .i64)
  | 0x03 => some (.add, .f32)
  | 0x04 => some (.add, .bf16)
  | 0x05 => some (.min, .i32)
  | 0x06 => some (.min, .i64)
  | 0x07 => some (.min, .u32)
  | 0x08 => some (.min, .u64)
  | 0x09 => some (.min, .f32)
  | 0x0A => some (.min, .bf16)
  | 0x0B => some (.max, .i32)
  | 0x0C => some (.max, .i64)
  | 0x0D => some (.max, .u32)
  | 0x0E => some (.max, .u64)
  | 0x0F => some (.max, .f32)
  | 0x10 => some (.max, .bf16)
  | 0x11 => some (.cas, .u32)
  | 0x12 => some (.cas, .u64)
  | 0x13 => some (.cas, .b128)
  | _ => none

/-- The signed value of a `w`-bit word. -/
def sval (w x : Nat) : Int := (BitVec.ofNat w x).toInt

/-- A float operand as a value. -/
def AtomTy.num (t : AtomTy) (x : Nat) : XNum := decodeElem (if t = .bf16 then .bf16 else .fp32) x

/-- R286: float MIN and MAX: −0 below +0, a NaN operand ignored, two NaNs the canonical NaN. -/
def floatPick (f : Fmt) (isMin : Bool) (a b : Nat) : Nat :=
  let x := decodeElem f a
  let y := decodeElem f b
  if x.isNan && y.isNan then f.canonNan.getD 0
  else if x.isNan then b
  else if y.isNan then a
  else if x.isZero && y.isZero then
    (if isMin then (if x.sign then a else b) else (if x.sign then b else a))
  else if x.lt y then (if isMin then a else b) else (if isMin then b else a)

/-- R286: one element of a memory-side operation other than CAS: the new stored value. -/
def atomApply (op : AtomOp) (t : AtomTy) (old v : Nat) : Nat :=
  let w := 8 * t.bytes
  match op, t with
  | .add, .f32 => (convert .fp32 .rne ((t.num old).add (t.num v))).code
  | .add, .bf16 => (convert .bf16 .rne ((t.num old).add (t.num v))).code
  | .add, _ => (old + v) % 2 ^ w
  | .min, .f32 => floatPick .fp32 true old v
  | .min, .bf16 => floatPick .bf16 true old v
  | .max, .f32 => floatPick .fp32 false old v
  | .max, .bf16 => floatPick .bf16 false old v
  | .min, .i32 => if sval 32 v < sval 32 old then v else old
  | .min, .i64 => if sval 64 v < sval 64 old then v else old
  | .min, _ => if v < old then v else old
  | .max, .i32 => if sval 32 old < sval 32 v then v else old
  | .max, .i64 => if sval 64 old < sval 64 v then v else old
  | .max, _ => if old < v then v else old
  | .cas, _ => v

/-- R285: whether an AOP code with a length and an address is one the package performs. -/
def aopOk (aop len addr : Nat) : Bool :=
  match atomOf (bits aop 0 6) with
  | none => false
  | some (op, t) =>
    let fetch := bit aop 6
    let vec := bit aop 7
    if vec then
      !fetch && decide (op ≠ .cas) && decide (8 ≤ len) && decide (len ≤ 64) && decide (len % t.bytes = 0) &&
        decide (addr % len = 0) && decide (addr / 64 = (addr + len - 1) / 64)
    else decide (addr % t.bytes = 0)

/-- Bytes of a granule range that an operation touches: the element, or the access of a VEC operation. -/
def aopLen (aop len : Nat) : Nat :=
  match atomOf (bits aop 0 6) with
  | none => 0
  | some (_, t) => if bit aop 7 then len else t.bytes

/-- R286: the bytes stored after an operation; `operand` holds the operand, and for CAS the new value first and then the
compare value, as the payload of Table 10.3 does. -/
def aopResult (aop : Nat) (old operand : List Byte) : List Byte :=
  match atomOf (bits aop 0 6) with
  | none => old
  | some (.cas, t) => if old = (operand.drop t.bytes).take t.bytes then operand.take t.bytes else old
  | some (op, t) =>
    let n := old.length / t.bytes
    (List.range n).flatMap fun i =>
      leBytes t.bytes (atomApply op t (fld old (i * t.bytes) t.bytes) (fld operand (i * t.bytes) t.bytes))

/-- Apply a memory-side operation at a DPA under a cove code: the old bytes, or none where the granule is poisoned
and no update is made (R262). -/
def State.atomicAt (s : State) (code act dpa : Nat) (aop len : Nat) (operand : List Byte) : State × Option (List Byte) :=
  let s := (if s.region dpa = .hbm then s.charge 0 0 act 128 else s).readGranule code act dpa
  if (s.region dpa).tagged && s.granuleBad (dpa / 64) then (s, none)
  else
    let old := s.bytesAt code dpa (aopLen aop len)
    let (s, _) := s.writeGranule code dpa (aopResult aop old operand)
    (s.bump (blkMEM + 0x98) 1, some old)

end Sys2Proof.Machine
end

