-- ==== Sys2Proof/Machine/Streams.lean ====
section
/-! DEFINITION. Sys2Proof/Machine/Streams.lean: fields of stream-table entries (Table 06.2) and of what the sequencer
keeps beside them. -/
namespace Sys2Proof.Machine
open Sys2Proof

/-- Entries of the stream table (R211). -/
def streamEntries : Nat := 262144

/-- `n` bytes at an offset of an entry, little-endian. -/
def entField (e : BitVec 1024) (off n : Nat) : Nat := (e.extractLsb' (8 * off) (8 * n)).toNat

/-- Replace `n` bytes at an offset of an entry. -/
def setEntField (e : BitVec 1024) (off n v : Nat) : BitVec 1024 :=
  (e &&& ~~~(BitVec.ofNat 1024 ((2 ^ (8 * n) - 1) <<< (8 * off)))) ||| BitVec.ofNat 1024 ((v % 2 ^ (8 * n)) <<< (8 * off))

/-- A field of stream-table entry `i`. -/
def State.sget (s : State) (i off n : Nat) : Nat := entField (SMap.get 0 s.streams i) off n

/-- Write a field of stream-table entry `i`. -/
def State.sset (s : State) (i off n v : Nat) : State :=
  { s with streams := SMap.upd 0 s.streams i fun e => setEntField e off n v }

/-- What the sequencer keeps of entry `i`. -/
def State.sx (s : State) (i : Nat) : StreamX := SMap.get ({} : StreamX) s.strm i

/-- Change what the sequencer keeps of entry `i`. -/
def State.setSx (s : State) (i : Nat) (f : StreamX → StreamX) : State :=
  { s with strm := SMap.upd ({} : StreamX) s.strm i f }

/-- Table 06.3: the code of a state. -/
def StreamState.code : StreamState → Nat
  | .free => 0
  | .queued => 1
  | .prefill => 2
  | .decode => 3
  | .paused => 4
  | .fallback => 5
  | .cancelling => 6
  | .done => 7

/-- Table 06.3: the state a STATE byte names; other bytes are no state. -/
def streamStateOf : Nat → Option StreamState
  | 0 => some .free
  | 1 => some .queued
  | 2 => some .prefill
  | 3 => some .decode
  | 4 => some .paused
  | 5 => some .fallback
  | 6 => some .cancelling
  | 7 => some .done
  | _ => none

/-- STATE of an entry. -/
def State.sState (s : State) (i : Nat) : Option StreamState := streamStateOf (s.sget i 0x00 1)

/-- Write STATE. -/
def State.setSState (s : State) (i : Nat) (x : StreamState) : State := s.sset i 0x00 1 x.code

/-- HIST_LEN, POS, GENERATED. -/
def State.sHist (s : State) (i : Nat) : Nat := s.sget i 0x34 4
def State.sPos (s : State) (i : Nat) : Nat := s.sget i 0x30 4
def State.sGen (s : State) (i : Nat) : Nat := s.sget i 0x38 4
/-- CLASS[1:0] and the flags of CLASS. -/
def State.sClass (s : State) (i : Nat) : Nat := s.sget i 0x04 1 % 4
def State.sShadow (s : State) (i : Nat) : Bool := bit (s.sget i 0x04 1) 2
def State.sFallbackOk (s : State) (i : Nat) : Bool := bit (s.sget i 0x04 1) 3
def State.sHold (s : State) (i : Nat) : Bool := bit (s.sget i 0x04 1) 4
/-- The cove and slot that SERVE names. -/
def State.sServeCove (s : State) (i : Nat) : Nat := s.sget i 0x06 1 % 8
def State.sServeSlot (s : State) (i : Nat) : Nat := bits (s.sget i 0x06 1) 4 3

/-- The cove whose range of entries holds entry `i` (R216). -/
def State.homeCove (s : State) (i : Nat) : Option Nat :=
  (List.range 8).find? fun c => match s.cove c with
    | some d => decide (d.streamFirst ≤ i) && decide (i < d.streamFirst + d.streamCount)
    | none => false

end Sys2Proof.Machine
end

