-- ==== Sys2Proof/Machine/Shares.lean ====
section
/-! DEFINITION. Sys2Proof/Machine/Shares.lean: the participants of a step's energy pools and their shares
(spec/12_energy_gauge.md, R463, R466, Table 12.2). -/
namespace Sys2Proof.Machine
open Sys2Proof

/-- Pools of Table 12.1. -/
def poolMxc : Nat := 0
def poolReplay : Nat := 1
def poolAtn : Nat := 2
def poolShoal : Nat := 3
def poolFerry : Nat := 4
def poolSpillKv : Nat := 5
def poolSpillSched : Nat := 6
def poolMem : Nat := 7
def poolLink : Nat := 8
def poolStatic : Nat := 9
def poolHouse : Nat := 10

/-- Keys of participants in the ascending order of R464: streams by entry index, then remote keys, then the house. -/
def remoteKey (node stream : Nat) : Nat := 0x10000000000000000000000000 + 0x100000000 * node + stream
/-- The house participant. -/
def houseKey : Nat := 0x4000000000000000000000000000

/-- The house participant of what the loss of a node has ended: its energy goes to the house, and counts in LOSS_UJ of
the node's open record (R613). -/
def lossKey (node : Nat) : Nat := 0x4000000000000000000000000001 + node

/-- Add to the share of a participant of a pool of a cove's step (R463). -/
def State.addShare (s : State) (c pool key n : Nat) : State :=
  { s with gau := { s.gau with shares := SMap.upd [] s.gau.shares (11 * c + pool) fun m => SMap.upd 0 m key (· + n) } }

/-- Add one to the shares of several participants. -/
def State.addShares (s : State) (c pool : Nat) (keys : List Nat) : State := keys.foldl (fun s k => s.addShare c pool k 1) s

/-- Whether entry `e` is a live stream of cove `c`: not FREE, of the cove's range or served by the cove (R463). -/
def State.liveStream (s : State) (c e : Nat) : Bool :=
  decide (e < streamEntries) && decide (s.sState e ≠ some .free) && (decide (s.homeCove e = some c) || decide (s.sServeCove e = c))

/-- The participant that an entry index names in a cove: the stream, or the house (R463). -/
def State.streamKey (s : State) (c e : Nat) : Nat := if s.liveStream c e then e else houseKey

/-- The participant that owns row `i` of a cove's running step: a row below the position up to which a stream is
charged to the house is the house's (R242, R252). -/
def State.batchKey (s : State) (c i : Nat) : Nat :=
  match (vget ({} : SeqCove) s.seq c).run with
  | none => houseKey
  | some r => match r.parts.find? fun p => decide (p.row ≤ i) && decide (i < p.row + p.rows) with
    | some p => if i - p.row < p.house then houseKey else p.ent
    | none => houseKey

/-- A placement of the image in force. -/
def State.placement (s : State) (i : Nat) : Option Placement :=
  match s.image with
  | some im => SMap.get none im.placements i
  | none => none

/-- The expert table entry of a local expert (Table 05.10). -/
def State.expertEntry (s : State) (c : Nat) (d : List Byte) (l : Nat) : Except AccErr (List Byte) := s.peek c (fld d 0x10 8 + 64 * l) 64

/-- R466: the participant that a pair of a source node and a stream there is. -/
def State.ownerKey (s : State) (c node stream : Nat) : Nat :=
  if some node = s.jvk.boundNode then s.streamKey c stream else remoteKey node stream

/-- R202, R466: the participant that a gathered record names; the house for one that could not be read. -/
def State.recordKey (s : State) (c : Nat) (g : GotRecord) : Nat :=
  match g.node with
  | some n => s.ownerKey c n g.stream
  | none => houseKey

/-- R466: the owners of the rows of an expert list that a running RECEIVE has posted, by row; none where the list is
of no RECEIVE. -/
def State.expertOwners (s : State) (c hdr descAddr : Nat) : Option (List Nat) :=
  s.routers.toList.findSome? fun x => match x with
    | .recv r =>
      if r.cove = c ∧ fld r.desc (0x20 + 8 * r.list) 8 = hdr ∧ r.gathered then
        match s.placement r.place with
        | none => none
        | some p =>
          let mine (l : Nat) : Bool := match s.expertEntry c r.desc l with
            | .ok en => decide (fld en (0x18 + 8 * r.list) 8 = descAddr)
            | .error _ => false
          match (List.range p.nlocal).find? mine with
          | none => none
          | some l => some (r.got.flatMap fun g => (g.parts.filter fun y => y.1 = l).map fun _ => s.recordKey c g)
      else none
    | _ => none

/-- R126, R463, R466: the participant that owns row `i` of a tile operation: of an expert list by the record's pair, of
a list with ESC.MODE 2 by its row map, else by the row of the batch. -/
def State.rowKey (s : State) (c hdr descAddr mode rowmap i : Nat) : Nat :=
  match s.expertOwners c hdr descAddr with
  | some os => nth houseKey os i
  | none =>
    if mode = 2 then
      match s.peekNat c (rowmap + 4 * i) 4 with
      | .error _ => houseKey
      | .ok e => if s.batchKey c i = houseKey ∧ (s.sx e).houseTo ≠ 0 then houseKey else s.streamKey c e
    else
      match (vget ({} : SeqCove) s.seq c).run with
      | some r => if r.posted.any fun p => p.addr = hdr then s.batchKey c i else houseKey
      | none => houseKey

end Sys2Proof.Machine
end

