-- ==== Sys2Proof/Machine/Matrix.lean ====
section
/-! DEFINITION. Sys2Proof/Machine/Matrix.lean: matrix cores, the tile pond and precision escalation
(spec/03_matrix_cores.md). -/
namespace Sys2Proof.Machine
open Sys2Proof

/-! ### Posting (R111 to R113, R118, R667) -/

/-- MXC registers of a cove (Table 03.12). -/
def mxcOff (c rel : Nat) : Nat := coveOff blkMXC c rel

/-- The 64-bit value of a write-only pair whose high half acts: an 8-byte write gives both halves, a 4-byte write
takes the low half written before (R23). -/
def State.pair (s : State) (offLo : Nat) (lo : Option Word) (hi : Word) : Nat :=
  (lo.getD (s.reg offLo)).toNat + 0x100000000 * hi.toNat

/-- Whether every byte of a list is zero (R665). -/
def zeros (b : List Byte) : Bool := b.all fun x => x == 0

/-- Bytes `off` to `off + n - 1` of a structure are zero (R665). -/
def rsvZero (d : List Byte) (off n : Nat) : Bool := zeros ((d.drop off).take n)

/-- Table 03.10: the starting rung of a C format; FP32 does not escalate (R118). -/
def Fmt.startRung : Fmt → Option Nat
  | .e2m1 | .nb4f | .nb4i | .int4 | .mxfp4 => some 0
  | .e2m3 | .e3m2 => some 1
  | .e4m3 | .e5m2 | .int8 => some 2
  | .bf16 | .fp16 => some 3
  | _ => none

/-- Table 03.10: the format written after escalation to a rung. -/
def rungFmt : Nat → Fmt
  | 1 => .e2m3
  | 2 => .e4m3
  | _ => .bf16

/-- R118: the lowest enabled rung above a rung. -/
def nextRung (esc rung : Nat) : Nat :=
  if rung < 1 ∧ bit esc 2 then 1
  else if rung < 2 ∧ bit esc 3 then 2
  else 3

/-- The format C is written in at a rung (R118). -/
def cFmtAt (f : Fmt) (rung : Nat) : Fmt := if rung = 0xFF ∨ f.startRung = some rung then f else rungFmt rung

/-- R123: the rank of a tile status. Statuses that only a read of another node can bring (R51) are placed as R390 places
them (DESIGN CHOICE, log 42). -/
def Status.tileRank : Status → Nat
  | .nodeLost => 10
  | .targetStopped => 9
  | .objectLost => 8
  | .poisoned => 7
  | .permission => 6
  | .timeout => 5
  | .absentUnit => 4
  | .range => 3
  | .replayed => 2
  | _ => 1

/-- R123: keep the higher status. -/
def mergeStatus (a b : Status) : Status := if a.tileRank < b.tileRank then b else a

/-- Read a range: its bytes, or the place of the first error with it. -/
def State.fetch (s : State) (c va n : Nat) : Except (Nat × AccErr) (List Byte) :=
  match s.peek c va n with
  | .ok b => .ok b
  | .error e => .error (s.errAt c va n, e)

/-- The entries of a list: DESC_ADDR, TILE and whether the reserved word is zero (Table 03.6). -/
def State.listEntries (s : State) (c addr count : Nat) : Except AccErr (List (Nat × Nat × Bool)) :=
  match s.peek c addr (16 * count) with
  | .error e => .error e
  | .ok b => .ok ((List.range count).map fun i => (fld b (16 * i) 8, fld b (16 * i + 8) 4, rsvZero b (16 * i + 12) 4))

/-- Read one descriptor of `n` bytes at each address. -/
def State.readAll (s : State) (c n : Nat) : List Nat → Except AccErr (List (Nat × List Byte))
  | [] => .ok []
  | a :: as =>
    match s.peek c a n with
    | .error e => .error e
    | .ok b =>
      match State.readAll s c n as with
      | .error e => .error e
      | .ok r => .ok ((a, b) :: r)

/-- Whether a range of a cove's space lies in a Mere. -/
def State.inMere (s : State) (c va n : Nat) : Bool :=
  (pieces va n).all fun (a, m) =>
    match s.translate c a m .read with
    | .ok (.dpa d) => decide (s.region d = .mere)
    | _ => false

/-- Write a field of a header or descriptor through the cove's space. -/
def State.put (s : State) (c unit va n v : Nat) : State := (s.poke c unit 0 va (leBytes n v)).1

/-- What the check of a pond list at its posting finds (R113): refused, empty, or its ESC word, whether it escalates
and its starting rung. -/
inductive ListCheck where
  | unreadable (va : Nat) (e : AccErr)
  | refused
  | empty
  | ok (escalates : Bool) (esc rung : Nat) (descs : List Nat)
  deriving DecidableEq, Repr

/-- Header fields that must hold zero or be reserved in a posted list (Table 03.5, R665). An ENTRY_ADDR that is not
16-byte aligned is refused with them (DESIGN CHOICE, log 42: R113 does not name it). -/
def headerOk (h : List Byte) : Bool :=
  rsvZero h 0x2E 2 && rsvZero h 0x38 8 && decide (bits (fld h 0x30 4) 17 15 = 0) && decide (fld h 0x10 8 % 16 = 0)

/-- R113: check a pond list. `mask` is the cove's engines, `dn` the descriptor size. An entry with a non-zero reserved
word refuses the whole list here, and an entry array that cannot be read is a post fault like a header or descriptor
(DESIGN CHOICE, log 42: R665 and R667 leave both open). -/
def State.checkList (s : State) (c hdr mask dn : Nat) (pond : Bool) (h : List Byte) : ListCheck :=
  let count := fld h 0x08 4
  if 1048576 < count || decide (fld h 0x18 16 &&& mask = 0) || !headerOk h || !s.inMere c hdr 64 then .refused
  else if count = 0 then .empty
  else match s.listEntries c (fld h 0x10 8) count with
  | .error e => .unreadable (fld h 0x10 8) e
  | .ok es =>
    let addrs := (es.map Prod.fst).eraseDups
    match s.readAll c dn addrs with
    | .error e => .unreadable ((addrs.find? fun a => match s.peek c a dn with | .error _ => true | .ok _ => false).getD 0) e
    | .ok ds =>
      if !(es.all fun e => e.2.2) then .refused
      else if !pond then .ok false 0 0xFF addrs
      else
        let two := ds.filter fun d => bits (fld d.2 0x84 2) 0 2 = 2
        match two with
        | [] => .ok false 0 0xFF addrs
        | d0 :: _ =>
          let esc := fld d0.2 0x84 2
          let same := two.all fun d => fld d.2 0x84 2 = esc ∧ bits (fld d.2 0x3C 4) 0 4 = bits (fld d0.2 0x3C 4) 0 4 ∧
            fld d.2 0x30 4 = fld d0.2 0x30 4
          if two.length ≠ ds.length ∨ !same then .refused
          else match (fmtOfCode (bits (fld d0.2 0x3C 4) 0 4)).bind Fmt.startRung with
            | some r => .ok true esc r addrs
            | none => .ok false esc 0xFF addrs

/-- End a refused or empty list at its posting: STATUS and one DONE_CTR increment (R113, R116). -/
def State.endAtPost (s : State) (c unit hdr : Nat) (h : List Byte) (st : Status) : State :=
  ((s.put c unit (hdr + 0x2D) 1 st.code).noteStatus c st).applyDone (fld h 0x30 4)

/-- R112, R113, R118, R667: post a pond list. REPLAYS is not written here: the package adds to what memory holds
(DESIGN CHOICE, log 42: R111 gives no first value). -/
def State.postPond (s : State) (c hdr : Nat) : State :=
  let q := vget [] s.ponds c
  if 64 ≤ q.length then s.queueFlag c (mxcOff c 8) 16
  else
    let s := s.touch c unitMxc 0 hdr 64
    match s.peek c hdr 64 with
    | .error _ => s.queueFlag c (mxcOff c 8) 17
    | .ok h =>
      let mask := ((s.cove c).map fun d => d.coreMask).getD 0
      match s.checkList c hdr mask 160 true h with
      | .unreadable va _ => (s.touch c unitMxc 0 va 160).queueFlag c (mxcOff c 8) 17
      | .refused => s.endAtPost c unitMxc hdr h .range
      | .empty => (s.put c unitMxc (hdr + 0x2C) 1 0xFF).endAtPost c unitMxc hdr h .done
      | .ok esc2 esc rung addrs =>
        let s := s.put c unitMxc (hdr + 0x2C) 1 rung
        let l : WorkList := ⟨hdr, esc2, esc, .done, addrs.map fun a => (a, .done), false, []⟩
        { s with ponds := vmod s.ponds c fun q => q ++ [l] }

/-- POND_POST: a write of POND_POST_HI (R112). -/
def execPondPost (c : Cove) (lo : Option Word) (hi : Word) (s : State) : Host.Outcome State Fault Refusal :=
  .next (s.whileOn fun s => s.postPond c (s.pair (mxcOff c 0) lo hi))

/-! ### Claiming (R114 to R116) -/

/-- The cove an image assigns a core to. -/
def State.coreCove (s : State) (core : Nat) : Option Nat :=
  (List.range 8).find? fun c => match s.cove c with
    | some d => bit d.coreMask core
    | none => false

/-- Whether an engine may claim: no stop, P0 or P1, and no engine reset of it runs (R130, R593). -/
def State.mayClaim (s : State) (target : Nat) : Bool := !s.stopped && decide (s.pstate ≤ 1) && s.mayWork target

/-- The fields of Table 03.3 that a tile needs, read and checked. -/
structure TileDesc where
  vector : Bool
  act : Nat
  vfn : Nat
  m : Nat
  n : Nat
  k : Nat
  a : FmtWord
  b : FmtWord
  c : FmtWord
  deriving DecidableEq, Repr

/-- A field of the descriptor is present: FLAGS bit `i`. -/
def tdFlag (d : List Byte) (i : Nat) : Bool := bit (fld d 1 1) i

/-- Read a format word of a descriptor: under a gain array the gain field is not read (R104). -/
def tdFmt (role : Role) (d : List Byte) (wOff gOff : Nat) (garr : Bool) : Option FmtWord :=
  readFmtWord role (fld d wOff 4) (if garr then 0x3F800000 else fld d gOff 4)

/-- A VECTOR operand is in any format of Table 02.1 (R134). -/
def tdVecFmt (d : List Byte) (wOff gOff : Nat) (garr : Bool) : Option FmtWord :=
  let w := fld d wOff 4
  match fmtOfCode (bits w 0 4) with
  | none => none
  | some f =>
    let gm := bits w 4 2
    let g := if garr then 0x3F800000 else fld d gOff 4
    if decide (bits w 6 26 = 0) && (decide (gm = 0) || (decide (gm = 1) && f.isNB && gainOk g)) then some ⟨f, gm, false⟩ else none

/-- R103, R58 to R77, R100, R118, R119, R665: check a tile operation descriptor; none is RANGE. A descriptor that is not
32-byte aligned is refused so (DESIGN CHOICE, log 42: R103 gives no response). -/
def readTileDesc (addr : Nat) (d : List Byte) : Option TileDesc :=
  let op := fld d 0 1
  let vec := decide (op = 2)
  let act := fld d 2 1
  let vfn := fld d 3 1
  let m := fld d 4 4
  let n := fld d 8 4
  let k := fld d 0xC 4
  let esc := fld d 0x84 2
  let mode := bits esc 0 2
  let ka := if vec then n else k
  let a := if vec then tdVecFmt d 0x34 0x40 (tdFlag d 2) else tdFmt .act d 0x34 0x40 (tdFlag d 2)
  let binary := vec && (vfn = 2 || vfn = 3)
  let b := if vec then (if binary then tdVecFmt d 0x38 0x44 (tdFlag d 3) else if unusedFmtOk (fld d 0x38 4) then some ⟨.fp32, 0, false⟩ else none)
    else tdFmt .weight d 0x38 0x44 (tdFlag d 3)
  let cw := tdFmt .output d 0x3C 0x48 (tdFlag d 4)
  match a, b, cw with
  | some a, some b, some c =>
    let cn := if vec && (vfn = 8 || vfn = 9) then 1 else n
    let ld (f : Fmt) (len stride : Nat) : Bool :=
      decide (f.rowBytes len ≤ stride) && (!f.isBlock || decide (stride % f.groupBytes = 0))
    let basic := (decide (op = 1) && decide (vfn = 0)) || (vec && decide (1 ≤ vfn) && decide (vfn ≤ 9))
    let rsv := decide (bits (fld d 1 1) 5 3 = 0) && rsvZero d 0x86 2 && rsvZero d 0x8E 18 &&
      decide (bits (fld d 0x88 4) 17 15 = 0) && decide (bits esc 4 12 = 0) && decide (mode ≠ 3)
    let lens := a.fmt.lengthOk ka && (vec && !binary || b.fmt.lengthOk ka) && c.fmt.lengthOk cn
    let lds := ld a.fmt ka (fld d 0x28 4) && (vec && !binary || ld b.fmt ka (fld d 0x2C 4)) && ld c.fmt cn (fld d 0x30 4)
    let escOk := decide (mode ≠ 2) || (decide (c.fmt ≠ .fp32) && (decide (c.fmt.startRung = some 3) || decide (2 * cn ≤ fld d 0x30 4)))
    if basic && decide (act ≤ 5) && rsv && lens && lds && escOk && decide (addr % 32 = 0) then
      some ⟨vec, act, vfn, m, n, k, a, b, c⟩
    else none
  | _, _, _ => none

/-- R101: tiles of a descriptor. -/
def TileDesc.tiles (t : TileDesc) : Nat := ((t.m + 255) / 256) * ((t.n + 127) / 128)

/-- Claim from the lists of a queue, oldest first: the list, its pass and the index (R114). -/
def State.claimFrom (s : State) (c unit engine : Nat) : List WorkList → State × Option (WorkList × Nat × Nat × List Byte)
  | [] => (s, none)
  | l :: ls =>
    match s.peek c l.hdr 64 with
    | .error _ => State.claimFrom s c unit engine ls
    | .ok h =>
      if l.ended || !bit (fld h 0x18 16) engine then State.claimFrom s c unit engine ls
      else
        let w := fld h 0 8
        let s := s.put c unit l.hdr 8 ((w + 1) % 0x10000000000000000)
        if w % 0x100000000 < fld h 8 4 then (s, some (l, w / 0x100000000, w % 0x100000000, h)) else State.claimFrom s c unit engine ls

/-- R103: a range lies in a Mere or in HBM. -/
def State.inMereOrHbm (s : State) (c va n : Nat) : Bool :=
  (pieces va n).all fun (a, m) =>
    match s.translate c a m .read with
    | .ok (.dpa d) => decide (s.region d = .mere) || decide (s.region d = .hbm)
    | _ => false

/-- Give a core its tile. -/
def State.setCore (s : State) (core : Nat) (r : Option TileRun) : State := { s with cores := vmod s.cores core fun _ => r }

/-- R127: an error met as a tile starts: it waits for a refetch of its object, or it knows its status. -/
def State.startError (s : State) (core : Nat) (r : TileRun) (va n : Nat) (e : AccErr) : State :=
  let at_ := s.errAt r.cove va n
  match e with
  | .poisoned _ => s.setCore core (some (if s.refetchable r.cove at_ then { r with waiting := some (at_ / 65536 * 65536) } else { r with early := some .poisoned }))
  | e => s.setCore core (some { r with early := some e.status })

/-- R122: a tile with A_FOLLOW reads the RUNG of the list that produced A as it starts. -/
def State.readRung (s : State) (unit : Nat) (on : Bool) (hdr : Nat) (r : TileRun) : State × TileRun :=
  if !on then (s, r)
  else
    let s' := s.touch r.cove unit 0 (hdr + 0x2C) 1
    match s.peekNat r.cove (hdr + 0x2C) 1 with
    | .ok v => (s', { r with follow := v })
    | .error e => (s', { r with rungErr := some e.status })

/-- R103, R116: what a core knows of a tile once it has read its entry and its descriptor. A descriptor outside a Mere and
HBM is refused (DESIGN CHOICE, log 42). -/
def State.tileEarly (s : State) (c da : Nat) (d : List Byte) (tile : Nat) (rsv : Bool) : Option Status :=
  match readTileDesc da d with
  | none => some .range
  | some t => if tile < t.tiles ∧ rsv ∧ s.inMereOrHbm c da 160 then none else some .range

/-- R114 to R116, R122: a core starts the tile that an entry of a list names. -/
def State.tileStart (s : State) (core : Nat) (r : TileRun) : State :=
  let s1 := s.touch r.cove unitMxc 0 r.entry 16
  match s.peek r.cove r.entry 16 with
  | .error e => s1.startError core r r.entry 16 e
  | .ok en =>
    let r := { r with descAddr := fld en 0 8, tile := fld en 8 4 }
    let s2 := s1.touch r.cove unitMxc 0 r.descAddr 160
    match s1.peek r.cove r.descAddr 160 with
    | .error e => s2.startError core r r.descAddr 160 e
    | .ok d =>
      match s2.tileEarly r.cove r.descAddr d r.tile (rsvZero en 12 4) with
      | some st => s2.setCore core (some { r with desc := d, early := some st })
      | none =>
        match s2.readRung unitMxc (tdFlag d 1) (fld d 0x78 8) { r with desc := d } with
        | (s, r) => s.setCore core (some r)

/-- R114 to R116: a core claims the next tile of its cove's oldest list and starts it. -/
def State.tileClaim (s : State) (core : Nat) : State :=
  match vget none s.cores core, s.coreCove core with
  | none, some c =>
    if !s.mayClaim core then s
    else match s.claimFrom c unitMxc core (vget [] s.ponds c) with
    | (s, none) => s
    | (s, some (l, pass, i, h)) =>
      s.tileStart core { cove := c, hdr := l.hdr, pass, descAddr := 0, desc := [], tile := 0, rung := fld h 0x2C 1, early := none,
                         waiting := none, lost := false, entry := fld h 0x10 8 + 16 * i }
  | _, _ => s

/-- TILE_CLAIM (R114). -/
def execTileClaim (core : Fin 128) (s : State) : Host.Outcome State Fault Refusal :=
  .next (s.unlessHalted fun s => s.tileClaim core)

/-! ### The arithmetic of one tile (R100 to R110, R134 to R136) -/

/-- An operand strip as the array sees it: its format and one little-endian number per row. -/
structure Strip where
  fmt : Fmt
  rows : List Nat
  deriving DecidableEq, Repr

/-- The element codes' value at the edge, less block scale and gain: a scale fault makes it zero (R72). -/
def Strip.elem (f : Fmt) (row k : Nat) : XNum :=
  if !f.isBlock then decodeElem f (packedCode row f.width k)
  else
    let base := 8 * ((k / 512) * f.groupBytes)
    let sc := bits row (base + 8 * (16 * f.blockBytes) + 8 * ((k % 512) / 32)) 8
    if f.isNB && 127 ≤ sc then .zero
    else if !f.isNB && sc = 255 then .nan
    else decodeElem f (bits row (base + f.width * (k % 512)) f.width)

/-- The factor of the block that holds element `k`: fp32(G × s), 2^(X − 127), or 1 for a plain operand (R108). -/
def Strip.factor (f : Fmt) (row : Nat) (g : XNum) (k : Nat) : XNum :=
  if !f.isBlock then .fin false 1
  else
    let base := 8 * ((k / 512) * f.groupBytes)
    let sc := bits row (base + 8 * (16 * f.blockBytes) + 8 * ((k % 512) / 32)) 8
    if f.isNB then (if 127 ≤ sc then .fin false 1 else mul32 g (decodeElem .e4m3 sc))
    else if sc = 255 then .nan else .fin false (pow2 ((sc : Int) - 127))

/-- The state of one output element's accumulation. -/
structure AccState where
  acc : XNum := .zero
  intSat : Bool := false
  becameInf : Bool := false
  deriving DecidableEq, Repr

/-- One step of the FP32 accumulation. -/
def AccState.addTo (a : AccState) (x : XNum) : AccState :=
  let r := round32 (a.acc.add x)
  { a with acc := r, becameInf := a.becameInf || (r.isInf && !a.acc.isInf) }

/-- One step of the INT32 path: the nearer bound when the exact sum leaves the range (R108). -/
def AccState.addInt (a : AccState) (x : XNum) : AccState :=
  let r := a.acc.toRat + x.toRat
  if r < -2147483648 then { a with acc := XNum.ofRat (-2147483648), intSat := true }
  else if 2147483647 < r then { a with acc := XNum.ofRat 2147483647, intSat := true }
  else { a with acc := XNum.ofRat r }

/-- R108, R109: accumulate over `k` elements, given the element values at the edge and the block factors of both
operands; `block` says that either is in a block format, `int` that the INT32 path applies. -/
def accumulateFn (ea fa eb fb : Nat → XNum) (block int : Bool) (k : Nat) : AccState :=
  if block then
    (List.range ((k + 31) / 32)).foldl (fun st b =>
      let n := Nat.min 32 (k - 32 * b)
      let s := (List.range n).foldl (fun t i => t.add ((ea (32 * b + i)).mul (eb (32 * b + i)))) XNum.zero
      st.addTo (s.mul (mul32 (fa (32 * b)) (fb (32 * b))))) {}
  else if int then (List.range k).foldl (fun st i => st.addInt ((ea i).mul (eb i))) {}
  else (List.range k).foldl (fun st i => st.addTo ((ea i).mul (eb i))) {}

/-- R108, R109: accumulate one output element over K: `ga k` and `gb k` are the gains of the gain tiles that hold
element `k`; `intPath` selects the INT32 path. -/
def accumulate (fa fb : Fmt) (ra rb : Nat) (ga gb : Nat → XNum) (k : Nat) (intPath : Bool) : AccState :=
  accumulateFn (Strip.elem fa ra) (fun i => Strip.factor fa ra (ga i) i) (Strip.elem fb rb) (fun i => Strip.factor fb rb (gb i) i)
    (fa.isBlock || fb.isBlock) (intPath && fa.isInt && fb.isInt) k

/-- exp2 of R135, with exp2(−∞) zero (R160). -/
def exp2F (x : XNum) : XNum :=
  match x with
  | .inf true => .zero
  | .inf false => .inf false
  | _ => freeFn fnExp2 x

/-- exp(x) is exp2(fp32(x × 0x3FB8AA3B)) (R160). -/
def expF (x : XNum) : XNum := exp2F (mul32 x (numOf32 0x3FB8AA3B))

/-- Reciprocal square root (R135). -/
def rsqrtF (x : XNum) : XNum := freeFn fnRsqrt x

/-- Table 03.7: the activation functions. -/
def actFn (code : Nat) (x : XNum) : XNum :=
  match code with
  | 0 => x
  | 1 => if x.isNan then .nan else if x.lt .zero || x.isZero && x.sign then .zero else x
  | n => freeFn (0x10 + n) x

/-- Fixed pairwise tree over the lanes: neighbours are joined level by level (R136, log 9). -/
def treeFold (op : XNum → XNum → XNum) : Nat → List XNum → List XNum
  | 0, l => l
  | _, [] => []
  | _, [x] => [x]
  | n + 1, l => treeFold op n (pairUp l)
where
  /-- Join neighbours. -/
  pairUp : List XNum → List XNum
    | x :: y :: r => op x y :: pairUp r
    | l => l

/-- The result of a pairwise tree; `e` for no lanes. -/
def treeOf (op : XNum → XNum → XNum) (e : XNum) (l : List XNum) : XNum := (treeFold op 16 l).headD e

/-- R136: reduce a row: chunks of 256 elements by the tree, then the chunks in ascending order. -/
def rowReduce (op : XNum → XNum → XNum) (e : XNum) (l : List XNum) : XNum :=
  match (chunksOf 256 ((l.length + 255) / 256) l).map (treeOf op e) with
  | [] => e
  | x :: xs => xs.foldl op x

/-- R110: the epilogue of one element, up to its conversion. -/
def epilogue (acc : XNum) (alpha : XNum) (bias : Option XNum) (act : Nat) : XNum :=
  let x := mul32 (round32 acc) alpha
  let x := match bias with
    | some b => add32 x b
    | none => x
  actFn act x

/-- Table 03.8: functions that read only the columns they write, and those of two operands. -/
def elementwise (vfn : Nat) : Bool := vfn = 1 || vfn = 2 || vfn = 3 || vfn = 7
def binaryFn (vfn : Nat) : Bool := vfn = 2 || vfn = 3

/-- The values of a row of a VECTOR function (Table 03.8); `w` and `o` are the weight and offset vectors. Convert rounds
ALPHA × A to FP32 before it converts to C's format (DESIGN CHOICE, log 41). -/
def vectorRow (vfn act : Nat) (alpha : XNum) (a b w o : List XNum) : List XNum :=
  let n := XNum.ofRat (a.length : Rat)
  match vfn with
  | 1 => a.map fun x => mul32 alpha x
  | 2 => (a.zip b).map fun (x, y) => add32 x y
  | 3 => (a.zip b).map fun (x, y) => mul32 x y
  | 4 =>
    let mx := rowReduce XNum.max (.inf true) a
    let e := a.map fun x => expF (add32 x mx.neg)
    let sum := rowReduce add32 .zero e
    e.map fun x => round32 (x.div sum)
  | 5 =>
    let ms := round32 ((rowReduce add32 .zero (a.map fun x => mul32 x x)).div n)
    let r := rsqrtF (add32 ms alpha)
    (a.zip w).map fun (x, y) => mul32 (mul32 x r) y
  | 6 =>
    let mean := round32 ((rowReduce add32 .zero a).div n)
    let d := a.map fun x => add32 x mean.neg
    let var := round32 ((rowReduce add32 .zero (d.map fun x => mul32 x x)).div n)
    let r := rsqrtF (add32 var alpha)
    (d.zip (w.zip o)).map fun (x, y, z) => add32 (mul32 (mul32 x r) y) z
  | 7 => a.map (actFn act)
  | 8 => [rowReduce add32 .zero a]
  | _ => [rowReduce XNum.max (.inf true) a]

/-- The sums that a VECTOR function accumulates over a row (R136). -/
def vectorSums (vfn : Nat) (a : List XNum) : List XNum :=
  let n := XNum.ofRat (a.length : Rat)
  match vfn with
  | 4 => [rowReduce add32 .zero (a.map fun x => expF (add32 x (rowReduce XNum.max (.inf true) a).neg))]
  | 5 => [rowReduce add32 .zero (a.map fun x => mul32 x x)]
  | 6 =>
    let sum := rowReduce add32 .zero a
    [sum, rowReduce add32 .zero (a.map fun x => let d := add32 x (round32 (sum.div n)).neg; mul32 d d)]
  | 8 => [rowReduce add32 .zero a]
  | _ => []

/-- What a tile's run finds: an error of an access, or its values and what the monitors saw. -/
structure TileOut where
  /-- Values to convert, row by row. -/
  vals : List (List XNum)
  /-- Format faults met, by region of the operands (R74). -/
  faults : List (Nat × Nat)
  inputNan : Bool
  /-- Rows of the tile in which an INT32 or an FP32 accumulation saturated. -/
  intRows : List Nat
  floatRows : List Nat
  deriving DecidableEq, Repr

/-- Whether an INT32 accumulation of the tile saturated, or an FP32 one (Table 03.9). -/
def TileOut.intSat (o : TileOut) : Bool := !o.intRows.isEmpty
def TileOut.floatSat (o : TileOut) : Bool := !o.floatRows.isEmpty

/-- Indices of the elements of a list that satisfy a test. -/
def indicesOf {α : Type} (p : α → Bool) (l : List α) : List Nat := (l.zipIdx.filter fun x => p x.1).map Prod.snd

/-- Read the bytes that hold elements `k0` to `k1 - 1` of a row, as the row's little-endian number with nothing else in
it (R70). -/
def State.readRow (s : State) (c : Nat) (f : Fmt) (va k0 k1 : Nat) : Except (Nat × AccErr) Nat :=
  (f.spans k0 k1).foldl (fun r p => match r with
    | .error e => .error e
    | .ok n => (s.fetch c (va + p.1) p.2).map fun b => n + leNat b * 2 ^ (8 * p.1)) (.ok 0)

/-- Read elements `k0` to `k1 - 1` of rows of an operand. -/
def State.readRows (s : State) (c : Nat) (f : Fmt) (addr ld k0 k1 : Nat) : List Nat → Except (Nat × AccErr) (List Nat)
  | [] => .ok []
  | r :: rs =>
    match s.readRow c f (addr + r * ld) k0 k1 with
    | .error e => .error e
    | .ok b =>
      match State.readRows s c f addr ld k0 k1 rs with
      | .error e => .error e
      | .ok l => .ok (b :: l)

/-- What reading elements of rows of an operand does to the state. -/
def State.touchRows (s : State) (c unit : Nat) (f : Fmt) (addr ld k0 k1 : Nat) (rows : List Nat) : State :=
  rows.foldl (fun s r => (f.spans k0 k1).foldl (fun s p => s.touch c unit 0 (addr + r * ld + p.1) p.2) s) s

/-- Read `n` FP32 words of an array. -/
def State.readWords (s : State) (c addr n : Nat) : Except (Nat × AccErr) (List Nat) :=
  (s.fetch c addr (4 * n)).map fun b => (List.range n).map fun i => fld b (4 * i) 4

/-- R122, R153: the format of an operand that follows a list, by the RUNG read when the tile or unit started. -/
def FmtWord.followed (f : FmtWord) (on : Bool) (rung : Nat) : FmtWord :=
  if !on ∨ rung = 0xFF ∨ f.fmt.startRung = some rung then f else ⟨rungFmt rung, 0, false⟩

/-- The gains of an operand: one for the whole of it, or those of the gain tiles read (R102, R104). -/
structure GainTab where
  all : Option XNum
  tab : List (Nat × Option XNum)
  deriving DecidableEq, Repr

/-- A gain that R76 refuses has been read. -/
def GainTab.bad (g : GainTab) : Bool := g.tab.any fun x => x.2.isNone

/-- The gain of gain tile `i`. -/
def GainTab.at_ (g : GainTab) (i : Nat) : XNum :=
  match g.all with
  | some x => x
  | none => ((g.tab.find? fun x => x.1 = i).bind Prod.snd).getD (.fin false 1)

/-- Read and check gains of an array. -/
def State.readGains (s : State) (c addr : Nat) : List Nat → Except (Nat × AccErr) (List (Nat × Option XNum))
  | [] => .ok []
  | i :: is =>
    match s.readWords c (addr + 4 * i) 1, State.readGains s c addr is with
    | .error e, _ => .error e
    | _, .error e => .error e
    | .ok ws, .ok l => .ok ((i, if gainOk (nth 0 ws 0) then some (numOf32 (nth 0 ws 0)) else none) :: l)

/-- The gains of an operand by gain tile: one gain, or those of an array that the tile or unit needs (R102, R104). -/
def State.gains (s : State) (c : Nat) (f : FmtWord) (garr : Bool) (gain addr : Nat) (need : List Nat) : Except (Nat × AccErr) GainTab :=
  if f.gainMode ≠ 1 then .ok ⟨some (.fin false 1), []⟩
  else if !garr then .ok ⟨some (numOf32 gain), []⟩
  else (s.readGains c addr need).map fun l => ⟨none, l⟩

/-- Whether an element is NaN or infinite at the edge. -/
def XNum.special (x : XNum) : Bool := x.isNan || x.isInf

/-- Whether a strip brings a NaN or an infinity into the tile. -/
def Strip.hasSpecial (st : Strip) (k0 k1 : Nat) : Bool :=
  st.rows.any fun r => (List.range (k1 - k0)).any fun i => (Strip.elem st.fmt r (k0 + i)).special

/-- Format faults in elements `k0` to `k1 - 1` of a strip's rows (R72 to R74). -/
def Strip.faults (st : Strip) (k0 k1 : Nat) : Nat :=
  (st.rows.map fun r => ((List.range ((k1 + 31) / 32 - k0 / 32)).map fun b => rowBlockFaults st.fmt r (k0 / 32 + b)).sum).sum

/-- A region of the operands with its faults, when it has any; `b` tells operand B from A (R74). -/
def metFaults (b : Bool) (i n : Nat) : List (Nat × Nat) := if n = 0 then [] else [(2 * i + b2n b, n)]

/-- The operand elements that a tile reads: rows of A, rows of B, and the element range of each row. -/
structure TileReads where
  rowsA : List Nat
  rowsB : List Nat
  k0 : Nat
  k1 : Nat
  deriving DecidableEq, Repr

/-- What tile (ti, tj) of a descriptor reads (R101, R134): an elementwise function reads only the columns it writes. -/
def TileDesc.reads (t : TileDesc) (ti tj : Nat) : TileReads :=
  let ra := (List.range (Nat.min 256 (t.m - 256 * ti))).map (256 * ti + ·)
  if !t.vector then ⟨ra, (List.range (Nat.min 128 (t.n - 128 * tj))).map (128 * tj + ·), 0, t.k⟩
  else
    let rb := if binaryFn t.vfn then ra else []
    if elementwise t.vfn then ⟨ra, rb, 128 * tj, 128 * tj + Nat.min 128 (t.n - 128 * tj)⟩ else ⟨ra, rb, 0, t.n⟩

/-- The gain tiles of A and of B that a tile needs (R102): of A one to 256 rows by 128 elements, of B one to 128 rows by
512 elements. -/
def TileDesc.gainsA (t : TileDesc) (ti tj : Nat) : List Nat :=
  let r := t.reads ti tj
  let per := ((if t.vector then t.n else t.k) + 127) / 128
  (List.range ((r.k1 + 127) / 128 - r.k0 / 128)).map fun i => ti * per + r.k0 / 128 + i
def TileDesc.gainsB (t : TileDesc) (ti tj : Nat) : List Nat :=
  let r := t.reads ti tj
  let per := ((if t.vector then t.n else t.k) + 511) / 512
  ((r.rowsB.map (· / 128)).eraseDups).flatMap fun g => (List.range ((r.k1 + 511) / 512 - r.k0 / 512)).map fun i => g * per + r.k0 / 512 + i

/-- R108 to R110: run a MATMUL tile as far as its conversion, with A in format `fa`. -/
def State.runMatmul (s : State) (c : Nat) (t : TileDesc) (d : List Byte) (fa : FmtWord) (ti tj : Nat) (intPath : Bool) :
    Except (Nat × AccErr) (Option TileOut) :=
  let rd := t.reads ti tj
  let kA := (t.k + 127) / 128
  let kB := (t.k + 511) / 512
  match s.readRows c fa.fmt (fld d 0x10 8) (fld d 0x28 4) 0 t.k rd.rowsA,
        s.readRows c t.b.fmt (fld d 0x18 8) (fld d 0x2C 4) 0 t.k rd.rowsB,
        s.gains c fa (tdFlag d 2) (fld d 0x40 4) (fld d 0x50 8) (t.gainsA ti tj),
        s.gains c t.b (tdFlag d 3) (fld d 0x44 4) (fld d 0x58 8) (t.gainsB ti tj),
        (if tdFlag d 0 then s.readWords c (fld d 0x68 8 + 4 * (128 * tj)) rd.rowsB.length else .ok []) with
  | .ok ra, .ok rb, .ok ga, .ok gb, .ok bias =>
    if ga.bad || gb.bad then .ok none
    else
      let accs := ra.map fun a => rb.map fun b =>
        accumulate fa.fmt t.b.fmt a b (fun k => ga.at_ (ti * kA + k / 128)) (fun k => gb.at_ (tj * kB + k / 512)) t.k intPath
      let alpha := numOf32 (fld d 0x80 4)
      let vals := accs.map fun row => row.zipIdx.map fun (x, j) =>
        epilogue x.acc alpha (if tdFlag d 0 then some (numOf32 (nth 0 bias j)) else none) t.act
      let inNan := Strip.hasSpecial ⟨fa.fmt, ra⟩ 0 t.k || Strip.hasSpecial ⟨t.b.fmt, rb⟩ 0 t.k
      .ok (some { vals, inputNan := inNan,
                  faults := metFaults false ti (Strip.faults ⟨fa.fmt, ra⟩ 0 t.k) ++ metFaults true tj (Strip.faults ⟨t.b.fmt, rb⟩ 0 t.k),
                  intRows := indicesOf (fun r => r.any fun x => x.intSat) accs,
                  floatRows := if inNan then [] else indicesOf (fun r => r.any fun x => x.becameInf) accs })
  | .error e, _, _, _, _ => .error e
  | _, .error e, _, _, _ => .error e
  | _, _, .error e, _, _ => .error e
  | _, _, _, .error e, _ => .error e
  | _, _, _, _, .error e => .error e

/-- R134 to R136: run a VECTOR tile as far as its conversion, with A in format `fa`. -/
def State.runVector (s : State) (c : Nat) (t : TileDesc) (d : List Byte) (fa : FmtWord) (ti tj : Nat) :
    Except (Nat × AccErr) (Option TileOut) :=
  let rd := t.reads ti tj
  let nA := (t.n + 127) / 128
  let nB := (t.n + 511) / 512
  let norm := t.vfn = 5 || t.vfn = 6
  match s.readRows c fa.fmt (fld d 0x10 8) (fld d 0x28 4) rd.k0 rd.k1 rd.rowsA,
        s.readRows c t.b.fmt (fld d 0x18 8) (fld d 0x2C 4) rd.k0 rd.k1 rd.rowsB,
        s.gains c fa (tdFlag d 2) (fld d 0x40 4) (fld d 0x50 8) (t.gainsA ti tj),
        s.gains c t.b (tdFlag d 3) (fld d 0x44 4) (fld d 0x58 8) (t.gainsB ti tj),
        (if norm then s.readWords c (fld d 0x68 8) (if t.vfn = 6 then 2 * t.n else t.n) else .ok []) with
  | .ok ra, .ok rb, .ok ga, .ok gb, .ok ws =>
    if ga.bad || gb.bad then .ok none
    else
      let alpha := numOf32 (fld d 0x80 4)
      let cols := (List.range (rd.k1 - rd.k0)).map (rd.k0 + ·)
      let rowsA := ra.map fun a => cols.map fun k => rowElem fa.fmt a (ga.at_ (ti * nA + k / 128)) k
      let rowsB := rb.zipIdx.map fun (b, i) => cols.map fun k => rowElem t.b.fmt b (gb.at_ ((256 * ti + i) / 128 * nB + k / 512)) k
      let full := rowsA.zipIdx.map fun (a, i) =>
        vectorRow t.vfn t.act alpha a (nth [] rowsB i) ((ws.take t.n).map numOf32) ((ws.drop t.n).map numOf32)
      let vals := full.map fun r =>
        if t.vfn = 8 || t.vfn = 9 then (if tj = 0 then r else [])
        else if elementwise t.vfn then r
        else (r.drop (128 * tj)).take (Nat.min 128 (t.n - 128 * tj))
      let sp := Strip.hasSpecial ⟨fa.fmt, ra⟩ rd.k0 rd.k1 || Strip.hasSpecial ⟨t.b.fmt, rb⟩ rd.k0 rd.k1
      let region := if elementwise t.vfn then ti * nA + tj else ti
      .ok (some { vals, inputNan := sp,
                  faults := metFaults false region (Strip.faults ⟨fa.fmt, ra⟩ rd.k0 rd.k1) ++
                    metFaults true region (Strip.faults ⟨t.b.fmt, rb⟩ rd.k0 rd.k1),
                  intRows := [],
                  floatRows := if sp then [] else indicesOf (fun a => (vectorSums t.vfn a).any XNum.special) rowsA })
  | .error e, _, _, _, _ => .error e
  | _, .error e, _, _, _ => .error e
  | _, _, .error e, _, _ => .error e
  | _, _, _, .error e, _ => .error e
  | _, _, _, _, .error e => .error e

/-! ### Conversion and monitors (R81, R88 to R90, R117) -/

/-- The bytes one row segment of a tile writes: address offset within the row of C, and bytes; with its events. -/
def tileRowWrites (f : Fmt) (g : XNum) (rnd : Nat → Rnd) (col0 : Nat) (xs : List XNum) : List (Nat × List Byte) × QEvents :=
  if f.isBlock then
    let blks := (chunksOf 32 ((xs.length + 31) / 32) xs).zipIdx.map fun (ys, b) => (b, quantBlock f g (fun i => rnd (32 * b + i)) ys)
    let w := blks.flatMap fun (b, q) =>
      let k := col0 / 32 + b
      let base := (k / 16) * f.groupBytes
      [(base + (k % 16) * f.blockBytes, leBytes f.blockBytes (packCodes f.width q.codes)),
       (base + 16 * f.blockBytes + k % 16, [BitVec.ofNat 8 q.scale])]
    (w, blks.foldl (fun e q => e.add q.2.ev) {})
  else
    let cs := xs.zipIdx.map fun (x, i) => convert f (rnd i) x
    ([(f.width * col0 / 8, leBytes ((f.width * xs.length + 7) / 8) (packCodes f.width (cs.map Conv.code)))],
      cs.foldl (fun e c => e.add c.events) {})

/-- Output blocks of a row: 32 consecutive elements (R117). -/
def outBlocks (xs : List XNum) : List (List XNum) := chunksOf 32 ((xs.length + 31) / 32) xs

/-- R117: whether an output block exceeds the dynamic range: at a block rung by the ratio of magnitudes, at a plain
rung by a non-zero value written as zero. Infinite elements do not reach this monitor (R666). -/
def drBlock (f : Fmt) (drExp : Nat) (rnd : Nat → Rnd) (xs : List XNum) : Bool :=
  if f.isBlock then
    let mags := (xs.filter fun x => !x.isNan && !x.isInf && !x.isZero).map XNum.abs
    match mags with
    | [] => false
    | m :: ms =>
      let hi := ms.foldl XNum.max m
      let lo := ms.foldl XNum.min m
      (lo.mul (.fin false (pow2 drExp))).lt hi
  else xs.zipIdx.any fun (x, i) =>
    !x.isNan && !x.isZero && (let code := (convert f (rnd i) x).code; code = 0 || code = f.signed true 0)

/-- What a tile writes, the events of its conversion, its TRIP bits and the rows that tripped. -/
structure TileWrite where
  writes : List (Nat × List Byte)
  ev : QEvents
  trips : Nat
  rows : List Nat
  deriving DecidableEq, Repr

/-- R110 item 5, R117: convert the values of tile `tile` at (ti, tj) into C and judge the monitors. -/
def convertTile (t : TileDesc) (d : List Byte) (thr : Nat) (f : Fmt) (g : XNum) (tile ti tj : Nat) (o : TileOut) : TileWrite :=
  let seed := fld d 0x4C 4
  let rndAt (r : Nat) (c : Nat) : Rnd :=
    if t.c.round && decide (f.width ≤ 8) then .sr (srBits seed tile (r * 128 + c)) else .rne
  let rows := o.vals.zipIdx.map fun (xs, r) =>
    let (w, ev) := tileRowWrites f g (rndAt r) (128 * tj) xs
    (w.map fun (off, b) => (fld d 0x20 8 + (256 * ti + r) * fld d 0x30 4 + off, b), ev,
     ((outBlocks xs).zipIdx.filter fun (ys, b) => drBlock f (bits thr 0 5) (fun i => rndAt r (32 * b + i)) ys).length, r)
  let ev : QEvents := rows.foldl (fun e x => e.add x.2.1) {}
  let drs := (rows.map fun x => x.2.2.1).sum
  let overs := if f.isBlock then ev.ovfFin else ev.sat
  let t0 := o.floatSat
  let t1 := decide (bits thr 16 8 < overs)
  let t2 := decide (bits thr 8 8 < drs)
  let t3 := decide (0 < ev.nan) && !o.inputNan
  let tripRow (x : List (Nat × List Byte) × QEvents × Nat × Nat) : Bool :=
    o.floatRows.contains x.2.2.2 || (t1 && decide (0 < (if f.isBlock then x.2.1.ovfFin else x.2.1.sat))) || (t2 && decide (0 < x.2.2.1)) ||
      (t3 && decide (0 < x.2.1.nan))
  { writes := rows.flatMap fun x => x.1
    ev
    trips := b2n t0 + 2 * b2n t1 + 4 * b2n t2 + 8 * b2n t3
    rows := (rows.filter tripRow).map fun x => 256 * ti + x.2.2.2 }

/-- Number of TRIP bits set. -/
def tripCount (t : Nat) : Nat := b2n (bit t 0) + b2n (bit t 1) + b2n (bit t 2) + b2n (bit t 3)

/-! ### The end of a tile (R114, R117 to R125, R127) -/

/-- Change the posted list of a cove whose header is at `hdr`. -/
def State.modList (s : State) (c hdr : Nat) (f : WorkList → WorkList) : State :=
  { s with ponds := vmod s.ponds c fun q => q.map fun l => if l.hdr = hdr then f l else l }

/-- The posted list of a cove whose header is at `hdr`. -/
def State.pondList (s : State) (c hdr : Nat) : Option WorkList := (vget [] s.ponds c).find? fun l => l.hdr = hdr

/-- R114: the last tile of a pass has been counted: escalate the list, or let it complete. -/
def State.endOfPass (s : State) (c hdr pass : Nat) : State :=
  match s.pondList c hdr, s.peek c hdr 64 with
  | some l, .ok h =>
    let trip := fld h 0x28 4
    let rung := fld h 0x2C 1
    if trip ≠ 0 ∧ l.escalates ∧ rung < 3 then
      let nr := nextRung l.esc rung
      let s := s.put c unitMxc (hdr + 0x2C) 1 nr
      let s := s.put c unitMxc (hdr + 0x28) 4 0
      let s := s.put c unitMxc (hdr + 0x0C) 4 0
      let s := s.put c unitMxc (hdr + 0x34) 4 (fld h 0x34 4 + 1)
      let s := s.put c unitMxc hdr 8 (0x100000000 * (pass + 1))
      let s := s.bump (mxcOff c 0x30) 1
      s.ripple ripEscalation Status.replayed.code c (rung + 16 * nr + 256 * trip) hdr
    else s.modList c hdr fun l => { l with ended := true }
  | _, _ => s

/-- R74: note the faults of regions of a descriptor's operands, each region once. -/
def WorkList.meet (l : WorkList) (da : Nat) (regions : List (Nat × Nat)) : WorkList :=
  { l with faults := l.faults ++ ((regions.filter fun x => !(l.faults.any fun y => y.1 = da && y.2.1 = x.1)).map fun x => (da, x.1, x.2)) }

/-- Format faults that a descriptor of a list has met. -/
def WorkList.faultsOf (l : WorkList) (da : Nat) : Nat := ((l.faults.filter fun x => x.1 = da).map fun x => x.2.2).sum

/-- R114, R123: end a core's tile with a status: merge it, count it toward DONE_TILES and free the core. -/
def State.endTile (s : State) (core : Nat) (r : TileRun) (st : Status) : State :=
  let s := { s with cores := vmod s.cores core fun _ => none }
  let s := (s.bump (mxcOff r.cove 0x20) 1).noteStatus r.cove st
  let s := s.modList r.cove r.hdr fun l =>
    { l with st := mergeStatus l.st st, descs := l.descs.map fun (a, x) => if a = r.descAddr then (a, mergeStatus x st) else (a, x) }
  let merged := (((s.pondList r.cove r.hdr).map fun l => l.descs).getD []).find? fun x => x.1 = r.descAddr
  let s := match merged with
    | some (a, x) => s.put r.cove unitMxc (a + 0x8C) 1 x.code
    | none => s
  match s.peek r.cove r.hdr 64 with
  | .error _ => s
  | .ok h =>
    let n := fld h 0x0C 4 + 1
    let s := s.put r.cove unitMxc (r.hdr + 0x0C) 4 n
    if n = fld h 0x08 4 then s.endOfPass r.cove r.hdr r.pass else s

/-- Apply a list of writes through a cove's space. -/
def State.pokeAll (s : State) (c unit : Nat) : List (Nat × List Byte) → State
  | [] => s
  | (a, b) :: ws => State.pokeAll (s.poke c unit 0 a b).1 c unit ws

/-- The error of the first write of a list that cannot be made. -/
def State.firstBad (s : State) (c : Nat) (ws : List (Nat × List Byte)) : Option (Nat × AccErr) :=
  (ws.filterMap fun (a, b) => (s.canWrite c a b.length).map fun e => (a, e)).head?

/-- R127: a tile that meets an error: it waits for a refetch of its object, or ends with the error's status. -/
def State.tileError (s : State) (core : Nat) (r : TileRun) (va : Nat) (e : AccErr) : State :=
  let s := s.accErr r.cove unitMxc 0 va e
  match e with
  | .poisoned _ =>
    if s.refetchable r.cove va then
      { s with cores := vmod s.cores core fun _ => some { r with waiting := some (va / 65536 * 65536) } }
    else s.endTile core r .poisoned
  | e => s.endTile core r e.status

/-- The gain C is written with: given, from the array, or chosen by R90; none is a gain that R76 refuses. -/
def State.cGain (s : State) (c : Nat) (t : TileDesc) (d : List Byte) (f : Fmt) (tile : Nat) (o : TileOut) :
    Except (Nat × AccErr) (Option XNum) :=
  if !f.isNB ∨ t.c.gainMode = 0 then .ok (some (.fin false 1))
  else if t.c.gainMode = 2 then .ok (some (autoGain f o.vals.flatten))
  else if tdFlag d 4 then
    match s.readWords c (fld d 0x60 8 + 4 * tile) 1 with
    | .error e => .error e
    | .ok ws => .ok (if gainOk (nth 0 ws 0) then some (numOf32 (nth 0 ws 0)) else none)
  else .ok (some (numOf32 (fld d 0x48 4)))

/-- What reading the operands of a tile does to the state (R259): strips, gains, bias or weights, and the row map. -/
def State.touchTile (s : State) (c : Nat) (t : TileDesc) (d : List Byte) (fa : FmtWord) (ti tj : Nat) : State :=
  let rd := t.reads ti tj
  let word (addr : Nat) (s : State) (i : Nat) : State := s.touch c unitMxc 0 (addr + 4 * i) 4
  let s := s.touchRows c unitMxc fa.fmt (fld d 0x10 8) (fld d 0x28 4) rd.k0 rd.k1 rd.rowsA
  let s := s.touchRows c unitMxc t.b.fmt (fld d 0x18 8) (fld d 0x2C 4) rd.k0 rd.k1 rd.rowsB
  let s := if fa.gainMode = 1 ∧ tdFlag d 2 then (t.gainsA ti tj).foldl (word (fld d 0x50 8)) s else s
  let s := if t.b.gainMode = 1 ∧ tdFlag d 3 then (t.gainsB ti tj).foldl (word (fld d 0x58 8)) s else s
  let s := if !t.vector then (if tdFlag d 0 then s.touch c unitMxc 0 (fld d 0x68 8 + 512 * tj) (4 * rd.rowsB.length) else s)
    else if t.vfn = 5 then s.touch c unitMxc 0 (fld d 0x68 8) (4 * t.n)
    else if t.vfn = 6 then s.touch c unitMxc 0 (fld d 0x68 8) (8 * t.n) else s
  if bits (fld d 0x84 2) 0 2 = 2 then s.touch c unitMxc 0 (fld d 0x70 8 + 1024 * ti) (4 * rd.rowsA.length) else s

/-- The format of A that a tile takes (R122). -/
def TileRun.fmtA (r : TileRun) (t : TileDesc) : FmtWord := t.a.followed (tdFlag r.desc 1) r.follow

/-- One run of a tile's arithmetic, on the integer path or not. -/
def State.tileOnce (s : State) (r : TileRun) (t : TileDesc) (intPath : Bool) : Except (Nat × AccErr) (Option TileOut) :=
  let nt := (t.n + 127) / 128
  if t.vector then s.runVector r.cove t r.desc (r.fmtA t) (r.tile / nt) (r.tile % nt)
  else s.runMatmul r.cove t r.desc (r.fmtA t) (r.tile / nt) (r.tile % nt) intPath

/-- C_MODE of the descriptor a tile runs. -/
def TileRun.mode (r : TileRun) : Nat := bits (fld r.desc 0x84 2) 0 2

/-- The arithmetic of a pass: in MODE 2 a saturating integer path is replayed in floating point (R117); the outcome,
whether it was replayed, and the rows that saturated. In MODE 2 the row map is read as well (R106, R123). -/
def State.tileOutcome (s : State) (r : TileRun) (t : TileDesc) : Except (Nat × AccErr) (Option TileOut × Bool × List Nat) :=
  let ti := r.tile / ((t.n + 127) / 128)
  let rowMap := if r.mode = 2 then s.fetch r.cove (fld r.desc 0x70 8 + 1024 * ti) (4 * Nat.min 256 (t.m - 256 * ti)) else .ok []
  match rowMap with
  | .error e => .error e
  | .ok _ =>
  match s.tileOnce r t (decide (r.pass = 0 ∧ (r.rung = 0xFF ∨ t.c.fmt.startRung = some r.rung))) with
  | .error e => .error e
  | .ok none => .ok (none, false, [])
  | .ok (some o) =>
    if o.intSat ∧ r.mode = 2 then (s.tileOnce r t false).map fun x => (x, true, o.intRows)
    else .ok (some o, false, o.intRows)

/-- The energy shares of a tile's rows, by the rows of the batch or of an expert list, and of those that replay, by the
row map (R106, R126); all the house's for a tile that was restarted (R127). -/
def State.tileShares (s : State) (r : TileRun) (rows replayRows : List Nat) : State :=
  let key (mode i : Nat) : Nat := if r.restarted then houseKey else s.rowKey r.cove r.hdr r.descAddr mode (fld r.desc 0x70 8) i
  let s := if r.pass = 0 then s.addShares r.cove poolMxc (rows.map (key 0)) else s
  if r.mode = 2 then s.addShares r.cove poolReplay (replayRows.eraseDups.map (key 2)) else s

/-- A word of the list header, 0 where it cannot be read. -/
def State.hdrWord (s : State) (r : TileRun) (off : Nat) : Nat :=
  match s.peekNat r.cove (r.hdr + off) 4 with | .ok x => x | .error _ => 0

/-- The counters of a tile and the words of the list header that record replays and trips (R117). -/
def State.tileCounts (s : State) (r : TileRun) (o : TileOut) (replayed intSat : Bool) (trips : Nat) : State :=
  let c := r.cove
  let watched := r.mode = 1 ∨ r.mode = 2
  let s := if replayed then (s.bump (mxcOff c 0x28) 1).put c unitMxc (r.hdr + 0x34) 4 (s.hdrWord r 0x34 + 1) else s
  let s := if o.inputNan then s.bump (mxcOff c 0x40) 1 else s
  let s := if watched ∧ (intSat ∨ o.floatSat) then s.bump (mxcOff c 0x48) 1 else s
  let s := if watched then s.bump (mxcOff c 0x58) (tripCount trips + b2n intSat) else s
  if watched then s.put c unitMxc (r.hdr + 0x28) 4 (Nat.lor (s.hdrWord r 0x28) trips) else s

/-- Convert and write the result of a tile, count and end it (R110, R117, R120). -/
def State.tileFinish (s : State) (core : Nat) (r : TileRun) (t : TileDesc) (o : TileOut) (replayed : Bool) (intRows : List Nat) : State :=
  let c := r.cove
  let d := r.desc
  let nt := (t.n + 127) / 128
  let ti := r.tile / nt
  let tj := r.tile % nt
  let f := if r.mode = 2 then cFmtAt t.c.fmt r.rung else t.c.fmt
  match s.cGain c t d f r.tile o with
  | .error (va, e) => s.tileError core r va e
  | .ok none => s.endTile core r .range
  | .ok (some g) =>
    let w := convertTile t d (s.reg (mxcOff c 0x10)).toNat f g r.tile ti tj o
    let ws := w.writes ++ (if f.isNB ∧ t.c.gainMode = 2 then [(fld d 0x60 8 + 4 * r.tile, leBytes 4 (to32 g))] else [])
    match s.firstBad c ws with
    | some (va, e) => s.tileError core r va e
    | none =>
      let s := (s.touchTile c t d (r.fmtA t) ti tj).pokeAll c unitMxc ws
      let s := s.tileShares r ((List.range o.vals.length).map (256 * ti + ·)) (w.rows ++ intRows.map (256 * ti + ·))
      let s := s.tileCounts r o replayed (!intRows.isEmpty) w.trips
      let s := s.modList c r.hdr fun l => l.meet r.descAddr o.faults
      s.endTile core r (if !o.faults.isEmpty then .range else if replayed ∨ 0 < r.pass then .replayed else .done)

/-- R110, R117, R120, R123: a tile's run, from its accumulation to its count. -/
def State.tilePassEnd (s : State) (core : Nat) : State :=
  match vget none s.cores core with
  | none => s
  | some r =>
    if r.lost then s.endTile core r .objectLost
    else if r.waiting.isSome then s
    else match r.early.or r.rungErr with
    | some st => s.endTile core r st
    | none =>
      match readTileDesc r.descAddr r.desc with
      | none => s.endTile core r .range
      | some t =>
        match s.tileOutcome r t with
        | .error (va, e) => s.tileError core r va e
        | .ok (none, _, _) => s.endTile core r .range
        | .ok (some o, replayed, intRows) => s.tileFinish core r t o replayed intRows

/-- TILE_PASS_END (R110). -/
def execTilePassEnd (core : Fin 128) (s : State) : Host.Outcome State Fault Refusal :=
  .next (s.unlessHalted fun s => s.tilePassEnd core)

/-- R127: the refetch of a waiting tile's page has ended: the tile restarts from its first block, or from its entry when
it had not read its descriptor. -/
def State.tileRestart (s : State) (core : Nat) : State :=
  match vget none s.cores core with
  | some r =>
    if !r.released then s
    else
      let r := { r with waiting := none, released := false, restarted := true }
      (if r.desc.isEmpty then s.tileStart core r else s.setCore core (some r)).bump (mxcOff r.cove 0x50) 1
  | none => s

/-- TILE_RESTART (R127). -/
def execTileRestart (core : Fin 128) (s : State) : Host.Outcome State Fault Refusal :=
  .next (s.unlessHalted fun s => s.tileRestart core)

/-! ### Completion (R74, R124) -/

/-- R124 items 1 and 2 for one descriptor, and its format faults (R74). -/
def State.completeDesc (s : State) (c rung : Nat) (l : WorkList) (x : Nat × Status) : State :=
  match s.peek c x.1 160 with
  | .error _ => s
  | .ok d =>
    let fin : Nat := match readTileDesc x.1 d with
      | some t => (cFmtAt t.c.fmt rung).code
      | none => bits (fld d 0x3C 4) 0 4
    let n := l.faultsOf x.1
    let s := s.put c unitMxc (x.1 + 0x8D) 1 fin
    if n = 0 then s
    else (s.bump (mxcOff c 0x38) n).ripple ripFormatFault Status.range.code c unitMxc x.1

/-- R124 items 1 to 3: complete a list with header `h`: its descriptors, their DONE_CTRs, its status and its DONE_CTR. -/
def State.completeList (s : State) (c : Nat) (l : WorkList) (h : List Byte) : State :=
  let s := l.descs.foldl (fun s x => s.completeDesc c (fld h 0x2C 1) l x) s
  let s := l.descs.foldl (fun s x => match s.peekNat c (x.1 + 0x88) 4 with
    | .ok v => s.applyDone v
    | .error _ => s) s
  ((s.put c unitMxc (l.hdr + 0x2D) 1 l.st.code).noteStatus c l.st).applyDone (fld h 0x30 4)

/-- R124: complete the oldest list of a cove's pond queue whose last pass is done. -/
def State.pondComplete (s : State) (c : Nat) : State :=
  match (vget [] s.ponds c).find? fun l => l.ended with
  | none => s
  | some l =>
    let s := { s with ponds := vmod s.ponds c fun q => q.erase l }
    match s.peek c l.hdr 64 with
    | .error _ => s
    | .ok h => s.completeList c l h

/-- POND_LIST_COMPLETE (R124). -/
def execPondListComplete (c : Cove) (s : State) : Host.Outcome State Fault Refusal :=
  .next (s.unlessHalted fun s => s.pondComplete c)

end Sys2Proof.Machine
end

