-- ==== Sys2Proof/Machine/Attention.lean ====
section
/-! DEFINITION. Sys2Proof/Machine/Attention.lean: attention engines and the KV cache
(spec/04_attention_engines.md). -/
namespace Sys2Proof.Machine
open Sys2Proof

/-- ATN registers of a cove, and its backward counters (Tables 04.7 and 04.9). -/
def atnOff (c rel : Nat) : Nat := coveOff blkATN c rel
def bwdOff (c rel : Nat) : Nat := blkATN + 0x80000 + 0x100 * c + rel

/-! ### Posting (R159) -/

/-- R159: post an attention list; refusals follow R112, R113 and R667. -/
def State.postAttn (s : State) (c hdr : Nat) : State :=
  let q := vget [] s.atnLists c
  if 64 ≤ q.length then s.queueFlag c (atnOff c 8) 16
  else
    let s := s.touch c unitAtn 0 hdr 64
    match s.peek c hdr 64 with
    | .error _ => s.queueFlag c (atnOff c 8) 17
    | .ok h =>
      let mask := ((s.cove c).map fun d => d.atnMask).getD 0
      match s.checkList c hdr mask 256 false h with
      | .unreadable va _ => (s.touch c unitAtn 0 va 256).queueFlag c (atnOff c 8) 17
      | .refused => s.endAtPost c unitAtn hdr h .range
      | .empty => s.endAtPost c unitAtn hdr h .done
      | .ok _ _ _ addrs =>
        { s with atnLists := vmod s.atnLists c fun q => q ++ [⟨hdr, false, 0, .done, addrs.map fun a => (a, .done), false, []⟩] }

/-- LIST_POST: a write of LIST_POST_HI (R159). -/
def execListPost (c : Cove) (lo : Option Word) (hi : Word) (s : State) : Host.Outcome State Fault Refusal :=
  .next (s.whileOn fun s => s.postAttn c (s.pair (atnOff c 0) lo hi))

/-! ### Descriptors (R147 to R154) -/

/-- A descriptor that has passed its checks. -/
structure AttnDesc where
  bwd : Bool
  causal : Bool
  window : Bool
  ring : Bool
  saveStats : Bool
  follow : Bool
  qGarr : Bool
  append : Bool
  rope : Nat
  pFmt : Fmt
  hq : Nat
  hkv : Nat
  d : Nat
  splits : Nat
  lq : Nat
  p0 : Nat
  w : Nat
  slots : Nat
  stream : Nat
  q : FmtWord
  new : Fmt
  k : FmtWord
  v : Fmt
  o : Fmt
  grad : Fmt
  deriving DecidableEq, Repr

/-- Group size G, row blocks RB, context CTX (R141, R145). -/
def AttnDesc.g (a : AttnDesc) : Nat := a.hq / a.hkv
def AttnDesc.rb (a : AttnDesc) : Nat := (a.lq * a.g + 127) / 128
def AttnDesc.ctx (a : AttnDesc) : Nat := a.p0 + a.lq
/-- NC of R166. -/
def AttnDesc.nc (a : AttnDesc) : Nat := (a.ctx + 127) / 128

/-- R142: bytes of one head's part of a key row: a head segment in a block format. -/
def keyHead (f : Fmt) (d : Nat) : Nat :=
  if f.isBlock then ((d / 32) * (f.blockBytes + 1) + 15) / 16 * 16 else d * f.width / 8

/-- R142: K_PITCH and V_PITCH. -/
def AttnDesc.kPitch (a : AttnDesc) : Nat := (a.hkv * keyHead a.k.fmt a.d + 63) / 64 * 64
def AttnDesc.vPitch (a : AttnDesc) : Nat := (a.hkv * a.d * a.v.width / 8 + 63) / 64 * 64

/-- R157, R166: units of a descriptor. -/
def AttnDesc.units (a : AttnDesc) : Nat :=
  if a.lq = 0 then 0 else if a.bwd then a.hkv * (a.nc + a.rb) else a.hkv * a.rb * a.splits

/-- A key or value cache format of Table 04.3: key caches in blocks of 4 bits, classes B and C; value caches plain. -/
def cacheFmtOk (key : Bool) (f : Fmt) : Bool :=
  decide (f ≠ .fp32) && decide (f ≠ .nb3) && decide (f ≠ .nb2) && (key || !f.isBlock)

/-- R147 to R154, R58, R665, Table 04.2: read and check a descriptor; none is RANGE. GRAD_FMTW is checked under every OP:
its ROUND and reserved bits are 0 and it names a format. -/
def readAttnDesc (addr : Nat) (x : List Byte) : Option AttnDesc :=
  let fl := fld x 1 1
  let bwd := decide (fld x 0 1 = 0x12)
  let garr := bit fl 5
  match readFmtWord .act (fld x 0x2C 4) (if garr then 0x3F800000 else fld x 0x30 4),
        readFmtWord .act (fld x 0x54 4) 0x3F800000,
        readFmtWord .act (fld x 0x68 4) (fld x 0x70 4),
        readFmtWord .act (fld x 0x6C 4) 0x3F800000,
        readFmtWord .output (fld x 0x8C 4) 0x3F800000,
        (if unusedFmtOk (fld x 0xB4 4) then fmtOfCode (bits (fld x 0xB4 4) 0 4) else none), fmtOfCode (fld x 3 1) with
  | some q, some new, some k, some v, some o, some grad, some pf =>
    let a : AttnDesc :=
      { bwd, causal := bit fl 0, window := bit fl 1, ring := bit fl 2, saveStats := bit fl 3, follow := bit fl 4,
        qGarr := garr, append := bit fl 6, rope := fld x 2 1 % 4, pFmt := pf, hq := fld x 4 2, hkv := fld x 6 2,
        d := fld x 8 2, splits := fld x 0xA 1, lq := fld x 0xC 4, p0 := fld x 0x10 4, w := fld x 0x14 4,
        slots := fld x 0x18 4, stream := fld x 0x1C 4, q, new := new.fmt, k, v := v.fmt, o := o.fmt, grad }
    let opOk := fld x 0 1 = 0x11 ∨ fld x 0 1 = 0x12
    let heads := a.hq ≠ 0 ∧ a.hkv ≠ 0 ∧ a.hq ≤ 256 ∧ a.hkv ≤ a.hq ∧ a.hq % a.hkv = 0
    let blk := q.fmt.isBlock || new.fmt.isBlock || k.fmt.isBlock || o.fmt.isBlock
    let dims := 64 ≤ a.d ∧ a.d ≤ 256 ∧ a.d % 16 = 0 ∧ (blk = false ∨ a.d % 32 = 0)
    let lens := a.lq ≤ 16384 ∧ a.ctx ≤ 4194304
    let wins := (a.ring = false ∨ a.window = true) ∧ (a.window = false ∨ (a.causal = true ∧ a.w ≠ 0))
    let slots := a.slots ≠ 0 ∧ (if a.ring then a.w ≤ a.slots else a.ctx ≤ a.slots)
    let voff := a.slots * a.kPitch ≤ fld x 0x60 8
    let spl := a.splits ≠ 0 ∧ a.splits ≤ 64 ∧ (bwd = false ∨ a.splits = 1)
    let fmts := new.gainMode = 0 ∧ v.gainMode = 0 ∧ o.gainMode = 0 ∧ cacheFmtOk true k.fmt = true ∧ cacheFmtOk false v.fmt = true ∧
      o.round = false ∧ (pf = .bf16 ∨ pf = .e4m3) ∧
      (bwd = false ∨ ((grad = .fp32 ∨ grad = .bf16) ∧ bits (fld x 0xB4 4) 4 2 = 0))
    let rd := fld x 0x78 2
    let rope := a.rope ≠ 3 ∧ bits (fld x 2 1) 2 6 = 0 ∧ (a.rope = 0 ∨ (rd ≠ 0 ∧ rd % 2 = 0 ∧ rd ≤ a.d))
    let strides := q.fmt.rowBytes (a.hq * a.d) ≤ fld x 0x28 4 ∧ new.fmt.rowBytes (a.hkv * a.d) ≤ fld x 0x50 4 ∧
      o.fmt.rowBytes (a.hq * a.d) ≤ fld x 0x88 4 ∧ (bwd = false ∨ o.fmt.rowBytes (a.hq * a.d) ≤ fld x 0xB0 4)
    let back := bwd = false ∨ (a.ring = false ∧ a.append = false)
    let align := fld x 0x58 8 % 64 = 0 ∧ fld x 0x98 8 % 64 = 0 ∧ addr % 32 = 0
    let rsv := bit fl 7 = false ∧ rsvZero x 0x7A 2 = true ∧ rsvZero x 0xD0 48 = true ∧ bits (fld x 0x7C 4) 17 15 = 0
    if opOk ∧ heads ∧ dims ∧ lens ∧ wins ∧ slots ∧ voff ∧ spl ∧ fmts ∧ rope ∧ strides ∧ back ∧ align ∧ rsv then some a else none
  | _, _, _, _, _, _, _ => none

/-! ### Claiming (R114 to R116, R157, R159) -/

/-- The cove an image assigns an engine to. -/
def State.atnCove (s : State) (e : Nat) : Option Nat :=
  (List.range 8).find? fun c => match s.cove c with
    | some d => bit d.atnMask e
    | none => false

/-- The status an engine knows when it has read a descriptor: absent backward section (R169), a refused descriptor
(R149), an OP of a tile or a unit past the last (R159). A descriptor with LQ 0 has no units; an entry that names it
completes with DONE (R148; DEDUCED, log 43). -/
def State.unitEarly (s : State) (addr : Nat) (x : List Byte) (tile : Nat) (rsv : Bool) : Option Status :=
  if fld x 0 1 = 0x12 ∧ s.fuses.variant = .s then some .absentUnit
  else match readAttnDesc addr x with
    | none => some .range
    | some a => if !rsv then some .range else if a.lq = 0 then some .done else if tile < a.units then none else some .range

/-- Give an attention engine its unit. -/
def State.setAtn (s : State) (e : Nat) (r : Option TileRun) : State := { s with atns := vmod s.atns e fun _ => r }

/-- R171: an error met before a descriptor has been read: the unit waits for a refetch of its object, or knows its
status. -/
def State.unitStartError (s : State) (e : Nat) (r : TileRun) (va n : Nat) (er : AccErr) : State :=
  let at_ := s.errAt r.cove va n
  match er with
  | .poisoned _ =>
    if s.refetchable r.cove at_ then s.setAtn e (some { r with waiting := some (at_ / 65536 * 65536) })
    else (s.bump (atnOff r.cove 0x58) 1).setAtn e (some { r with early := some .poisoned })
  | er => s.setAtn e (some { r with early := some er.status })

/-- R153, R157: an engine starts the unit that an entry of a list names. -/
def State.unitStart (s : State) (e : Nat) (r : TileRun) : State :=
  let s1 := s.touch r.cove unitAtn 0 r.entry 16
  match s.peek r.cove r.entry 16 with
  | .error er => s1.unitStartError e r r.entry 16 er
  | .ok en =>
    let r := { r with descAddr := fld en 0 8, tile := fld en 8 4 }
    let s2 := s1.touch r.cove unitAtn 0 r.descAddr 256
    match s1.peek r.cove r.descAddr 256 with
    | .error er => s2.unitStartError e r r.descAddr 256 er
    | .ok x =>
      match s2.unitEarly r.descAddr x r.tile (rsvZero en 12 4) with
      | some st => s2.setAtn e (some { r with desc := x, early := some st })
      | none =>
        match s2.readRung unitAtn (bit (fld x 1 1) 4) (fld x 0xA0 8) { r with desc := x } with
        | (s, r) => s.setAtn e (some r)

/-- R114, R159: an engine claims the next unit of its cove's oldest attention list. -/
def State.unitClaim (s : State) (e : Nat) : State :=
  match vget none s.atns e, s.atnCove e with
  | none, some c =>
    if !s.mayClaim (0x80 + e) then s
    else match s.claimFrom c unitAtn e (vget [] s.atnLists c) with
    | (s, none) => s
    | (s, some (l, pass, i, h)) =>
      s.unitStart e { cove := c, hdr := l.hdr, pass, descAddr := 0, desc := [], tile := 0, rung := 0xFF, early := none,
                      waiting := none, lost := false, entry := fld h 0x10 8 + 16 * i }
  | _, _ => s

/-- ATTENTION_UNIT_CLAIM (R157). -/
def execAttentionUnitClaim (e : Fin 32) (s : State) : Host.Outcome State Fault Refusal :=
  .next (s.unlessHalted fun s => s.unitClaim e)

/-! ### Operands (R140 to R146, R151 to R155) -/

/-- Decode one head's elements of a row that starts at `off` elements, gain tile gain by gain tile. -/
def headOf (f : Fmt) (row off d : Nat) (g : Nat → XNum) : List XNum :=
  (List.range d).map fun i => rowElem f row (g (off + i)) (off + i)

/-- The angle's sine and cosine for pair `i` at position `p` (Table 04.5). -/
def ropeSinCos (theta dims i p : Nat) : XNum × XNum :=
  let ratio := XNum.ofRat (2 * (i : Rat) / (dims : Rat))
  let e := exp2F (round32 ((ratio.mul (freeFn fnLog2 (numOf32 theta))).neg))
  let a := round32 ((XNum.ofRat (p : Rat)).mul e)
  (freeFn fnSin a, freeFn fnCos a)

/-- R154: rotate the first `dims` elements of a vector at position `p`. -/
def ropeRotate (mode theta dims p : Nat) (x : List XNum) : List XNum :=
  if mode = 0 then x
  else x.zipIdx.map fun (v, j) =>
    if dims ≤ j then v
    else
      let half := dims / 2
      let (i, first) := if mode = 1 then (j % half, decide (j < half)) else (j / 2, decide (j % 2 = 0))
      let partner := if mode = 1 then (if j < half then j + half else j - half) else (if j % 2 = 0 then j + 1 else j - 1)
      let w := nth XNum.zero x partner
      let (sn, cs) := ropeSinCos theta dims i p
      if first then add32 (mul32 v cs) (mul32 w sn).neg else add32 (mul32 w sn) (mul32 v cs)

/-- A vector as the array meets it: element values at the edge and block factors. -/
structure EdgeVec where
  elem : List XNum
  factor : List XNum
  block : Bool
  int : Bool
  deriving DecidableEq, Repr

/-- A plain vector of values. -/
def EdgeVec.plain (xs : List XNum) (int : Bool) : EdgeVec := ⟨xs, [], false, int⟩

/-- One query row of a head before rotation, as elements and factors. -/
def qEdge (f : Fmt) (row off d : Nat) (g : Nat → XNum) : EdgeVec :=
  { elem := (List.range d).map fun i => Strip.elem f row (off + i)
    factor := if f.isBlock then (List.range d).map fun i => Strip.factor f row (g (off + i)) (off + i) else []
    block := f.isBlock, int := f.isInt }

/-- A key head segment (R142) as elements and factors. -/
def keyEdge (f : Fmt) (seg d : Nat) (g : XNum) : EdgeVec :=
  if !f.isBlock then .plain ((List.range d).map fun i => decodeElem f (packedCode seg f.width i)) f.isInt
  else
    let sc (i : Nat) := bits seg (8 * ((d / 32) * f.blockBytes + i / 32)) 8
    { elem := (List.range d).map fun i =>
        if f.isNB && decide (127 ≤ sc i) then .zero
        else if !f.isNB && decide (sc i = 255) then .nan
        else decodeElem f (bits seg (f.width * i) f.width)
      factor := (List.range d).map fun i =>
        if f.isNB then (if 127 ≤ sc i then .fin false 1 else mul32 g (decodeElem .e4m3 (sc i)))
        else if sc i = 255 then .nan else .fin false (pow2 ((sc i : Int) - 127))
      block := true, int := false }

/-- Format faults of a key head segment (R72 to R74). -/
def keyFaults (f : Fmt) (seg d : Nat) : Nat :=
  if !f.isNB then 0
  else ((List.range (d / 32)).map fun b =>
    let sc := bits seg (8 * ((d / 32) * f.blockBytes + b)) 8
    (if 127 ≤ sc then 1 else 0) +
      ((List.range 32).filter fun i => f.reservedCode (bits seg (f.width * (32 * b + i)) f.width)).length).sum

/-- A new key of a head converted into the cache format (R155): its segment and the events. -/
def keySegment (f : Fmt) (g : XNum) (xs : List XNum) : List Byte × QEvents :=
  if !f.isBlock then encodeRow f g (fun _ => .rne) xs
  else
    let q := (chunksOf 32 (xs.length / 32) xs).map fun ys => quantBlock f g (fun _ => .rne) ys
    let body := (q.flatMap fun b => leBytes f.blockBytes (packCodes f.width b.codes)) ++ q.map fun b => BitVec.ofNat 8 b.scale
    (body ++ List.replicate (keyHead f xs.length - body.length) 0, q.foldl (fun e b => e.add b.ev) {})

/-- The values of a vector at the edge: of a block element fp32(G × s) × q, as the array forms its scale (DESIGN CHOICE,
log 41: R167 names no path for the backward sums). -/
def EdgeVec.values (v : EdgeVec) : List XNum :=
  if v.block then v.elem.zipIdx.map fun (x, i) => x.mul (nth .zero v.factor i) else v.elem

/-- s of R160: the query–key product over D, then fp32(s × SCALE). -/
def scoreOf (q k : EdgeVec) (d scale : Nat) : XNum :=
  let r := accumulateFn (nth .zero q.elem) (fun i => if q.block then nth .zero q.factor i else .fin false 1)
    (nth .zero k.elem) (fun i => if k.block then nth .zero k.factor i else .fin false 1) (q.block || k.block) (q.int && k.int) d
  mul32 (round32 r.acc) (numOf32 scale)

/-- Format faults met, by region of a unit's operands: of an operand `op` (0 a key or value position, 1 a query row, 2 a
row of dO, 3 a row of O) of a key-value head, element `i` (R74). -/
def unitFaults (op kvh i n : Nat) : List (Nat × Nat) := if n = 0 then [] else [(op + 4 * kvh + 1024 * i, n)]

/-- The elements of a row of Q, O or dO that a key-value head's queries take (R141). -/
def AttnDesc.headCols (a : AttnDesc) (kvh : Nat) : Nat × Nat := (kvh * a.g * a.d, (kvh + 1) * a.g * a.d)

/-- The formats of a unit: Q's and KNEW's words under the rung it read as it started (R153). -/
def TileRun.qFmt (r : TileRun) (a : AttnDesc) : FmtWord := a.q.followed a.follow r.follow
def TileRun.newFmt (r : TileRun) (a : AttnDesc) : FmtWord := (⟨a.new, 0, false⟩ : FmtWord).followed a.follow r.follow

/-- The gain regions of Q that some tokens of a key-value head lie in (R151). -/
def AttnDesc.qRegions (a : AttnDesc) (kvh : Nat) (toks : List Nat) : List Nat :=
  let cols := (a.hq * a.d + 127) / 128
  let (k0, k1) := a.headCols kvh
  ((toks.map (· / 256)).eraseDups).flatMap fun g => (List.range ((k1 + 127) / 128 - k0 / 128)).map fun i => g * cols + k0 / 128 + i

/-- R151: the gains of Q that a unit needs: one gain, or those of its regions of the array of R102. -/
def State.qGains (s : State) (c : Nat) (x : List Byte) (a : AttnDesc) (q : FmtWord) (kvh : Nat) (toks : List Nat) : Except (Nat × AccErr) GainTab :=
  s.gains c q a.qGarr (fld x 0x30 4) (fld x 0x38 8) (a.qRegions kvh toks)

/-- Class C pairs (R152, R154). -/
def classC (f g : Fmt) : Bool := decide (f.edgeClass = some .c) || decide (g.edgeClass = some .c)

/-- A row number of a block to its token and query head (R141). -/
def AttnDesc.rowOf (a : AttnDesc) (kvh r : Nat) : Nat × Nat := (r / a.g, kvh * a.g + r % a.g)

/-- Rows of a row block. -/
def AttnDesc.rows (a : AttnDesc) (rb : Nat) : List Nat :=
  (List.range (Nat.min 128 (a.lq * a.g - 128 * rb))).map (128 * rb + ·)

/-- R144, R145: whether token `t` admits position `p`. -/
def AttnDesc.admits (a : AttnDesc) (t p : Nat) : Bool :=
  let q := a.p0 + t
  if a.causal then decide (p ≤ q) && (!a.window || decide (q < p + a.w)) else decide (p < a.ctx)

/-- R157: the first and last chunk that a row block admits. -/
def AttnDesc.chunks (a : AttnDesc) (rb : Nat) : Nat × Nat :=
  let t0 := 128 * rb / a.g
  let t1 := (Nat.min (128 * rb + 128) (a.lq * a.g) - 1) / a.g
  let lo := if a.window then a.p0 + t0 + 1 - a.w else 0
  let hi := if a.causal then a.p0 + t1 else a.ctx - 1
  (lo / 128, hi / 128)

/-- R157: the chunks of a split. -/
def AttnDesc.splitChunks (a : AttnDesc) (rb sp : Nat) : List Nat :=
  let (lo, hi) := a.chunks rb
  let n := hi + 1 - lo
  let base := n / a.splits
  let extra := n % a.splits
  let first := lo + sp * base + Nat.min sp extra
  (List.range (base + if sp < extra then 1 else 0)).map (first + ·)

/-- R143: the slot of a position. -/
def AttnDesc.slot (a : AttnDesc) (p : Nat) : Nat := if a.ring then p % a.w else p

/-- R143: addresses of a head's key and value at a position. -/
def AttnDesc.keyAddr (a : AttnDesc) (x : List Byte) (kvh p : Nat) : Nat :=
  fld x 0x58 8 + a.slot p * a.kPitch + kvh * keyHead a.k.fmt a.d
def AttnDesc.valAddr (a : AttnDesc) (x : List Byte) (kvh p : Nat) : Nat :=
  fld x 0x58 8 + fld x 0x60 8 + a.slot p * a.vPitch + kvh * (a.d * a.v.width / 8)

/-- G of the key cache (Table 04.3). -/
def AttnDesc.kGain (a : AttnDesc) (x : List Byte) : XNum := if a.k.gainMode = 1 then numOf32 (fld x 0x70 4) else .fin false 1

/-- A new key and value of a head at token `t`, converted into the cache formats (R146, R154, R155): their bytes, the
events, and format faults met. -/
def State.newKv (s : State) (c : Nat) (x : List Byte) (a : AttnDesc) (new : FmtWord) (kvh t : Nat) :
    Except (Nat × AccErr) ((List Byte × List Byte) × QEvents × Nat) :=
  let k0 := kvh * a.d
  match s.readRows c new.fmt (fld x 0x40 8) (fld x 0x50 4) k0 (k0 + a.d) [t], s.readRows c new.fmt (fld x 0x48 8) (fld x 0x50 4) k0 (k0 + a.d) [t] with
  | .error e, _ => .error e
  | _, .error e => .error e
  | .ok kr, .ok vr =>
    let one : Nat → XNum := fun _ => .fin false 1
    let k := ropeRotate a.rope (fld x 0x74 4) (fld x 0x78 2) (a.p0 + t) (headOf new.fmt (kr.headD 0) (kvh * a.d) a.d one)
    let v := headOf new.fmt (vr.headD 0) (kvh * a.d) a.d one
    let (kb, ke) := keySegment a.k.fmt (a.kGain x) k
    let (vb, ve) := encodeRow a.v (.fin false 1) (fun _ => .rne) v
    let flt := if new.fmt.isNB then ((List.range (a.d / 32)).map fun b =>
      rowBlockFaults new.fmt (kr.headD 0) (kvh * a.d / 32 + b) + rowBlockFaults new.fmt (vr.headD 0) (kvh * a.d / 32 + b)).sum else 0
    .ok ((kb, vb), ke.add ve, flt)

/-- The key and value of one position as a unit meets them (R146). -/
def State.kvAt (s : State) (c : Nat) (x : List Byte) (a : AttnDesc) (new : FmtWord) (kvh p : Nat) :
    Except (Nat × AccErr) ((EdgeVec × List XNum × Bool) × Nat) :=
  let use (kb vb : List Byte) (flt : Nat) :=
    let k := keyEdge a.k.fmt (leNat kb) a.d (a.kGain x)
    let v := (List.range a.d).map fun i => decodeElem a.v (packedCode (leNat vb) a.v.width i)
    ((k, v, k.values.any XNum.special || v.any XNum.special), flt)
  if a.p0 ≤ p then
    match s.newKv c x a new kvh (p - a.p0) with
    | .error e => .error e
    | .ok ((kb, vb), _, flt) => .ok (use kb vb flt)
  else
    match s.fetch c (a.keyAddr x kvh p) (keyHead a.k.fmt a.d), s.fetch c (a.valAddr x kvh p) (a.d * a.v.width / 8) with
    | .error e, _ => .error e
    | _, .error e => .error e
    | .ok kb, .ok vb => .ok (use kb vb (keyFaults a.k.fmt (leNat kb) a.d))

/-- Read the keys and values of a list of positions, with the faults of each. -/
def State.kvAll (s : State) (c : Nat) (x : List Byte) (a : AttnDesc) (new : FmtWord) (kvh : Nat) :
    List Nat → Except (Nat × AccErr) (SMap (EdgeVec × List XNum × Bool) × List (Nat × Nat))
  | [] => .ok ([], [])
  | p :: ps =>
    match s.kvAt c x a new kvh p with
    | .error e => .error e
    | .ok (e, f) =>
      match State.kvAll s c x a new kvh ps with
      | .error e => .error e
      | .ok (m, n) => .ok ((p, e) :: m, unitFaults 0 kvh p f ++ n)

/-- The tokens of a row block. -/
def AttnDesc.tokens (a : AttnDesc) (rb : Nat) : List Nat := ((a.rows rb).map fun r => r / a.g).eraseDups

/-- The format that a rotated query is rounded to (Table 04.5). -/
def AttnDesc.rotFmt (a : AttnDesc) (q : Fmt) : Fmt := if classC q a.k.fmt then .bf16 else .e4m3

/-- The query rows of a row block, rotated, with the faults met (R140, R141, R151, R154); `none` is a gain that R76
refuses. -/
def State.queries (s : State) (c : Nat) (x : List Byte) (a : AttnDesc) (q : FmtWord) (kvh rb : Nat) :
    Except (Nat × AccErr) (Option (List (EdgeVec × Bool) × List (Nat × Nat))) :=
  let toks := a.tokens rb
  let (k0, k1) := a.headCols kvh
  match s.readRows c q.fmt (fld x 0x20 8) (fld x 0x28 4) k0 k1 toks, s.qGains c x a q kvh toks with
  | .error e, _ => .error e
  | _, .error e => .error e
  | .ok rows, .ok gs =>
    if gs.bad then .ok none
    else
      let cols := (a.hq * a.d + 127) / 128
      let vec (r : Nat) : EdgeVec × Bool :=
        let (t, h) := a.rowOf kvh r
        let row := nth 0 rows (toks.idxOf t)
        let g (i : Nat) : XNum := gs.at_ (t / 256 * cols + i / 128)
        let e := qEdge q.fmt row (h * a.d) a.d g
        let sp := e.values.any XNum.special
        if a.rope = 0 then (e, sp)
        else
          let qf := a.rotFmt q.fmt
          let y := (ropeRotate a.rope (fld x 0x74 4) (fld x 0x78 2) (a.p0 + t) (headOf q.fmt row (h * a.d) a.d g)).map fun v =>
            decodeElem qf (convert qf .rne v).code
          (.plain y false, sp)
      let flt := (a.rows rb).flatMap fun r =>
        let (t, h) := a.rowOf kvh r
        unitFaults 1 kvh r (Strip.faults ⟨q.fmt, [nth 0 rows (toks.idxOf t)]⟩ (h * a.d) ((h + 1) * a.d))
      .ok (some ((a.rows rb).map vec, flt))

/-- Positions of the chunks that some row of a block admits. -/
def AttnDesc.positions (a : AttnDesc) (rb : Nat) (chunks : List Nat) : List Nat :=
  let toks := ((a.rows rb).map fun r => r / a.g).eraseDups
  (chunks.flatMap fun ch => (List.range 128).map (128 * ch + ·)).filter fun p => toks.any fun t => a.admits t p

/-! ### Forward arithmetic (R160 to R162) -/

/-- The running statistics of one row. -/
structure RowStat where
  m : XNum := .inf true
  l : XNum := .zero
  o : List XNum
  deriving DecidableEq, Repr

/-- One chunk of R160 for one row: `sc` gives the score of each admitted position, ascending. -/
def RowStat.chunk (st : RowStat) (pf : Fmt) (ch : Nat) (sc : List (Nat × XNum × List XNum)) : RowStat :=
  let mc := sc.foldl (fun m x => XNum.max m x.2.1) st.m
  if mc = .inf true then st
  else
    let corr := expF (add32 st.m mc.neg)
    let lane (j : Nat) : XNum := match sc.find? fun x => x.1 = 128 * ch + j with
      | some x => expF (add32 x.2.1 mc.neg)
      | none => .zero
    let ps := (List.range 128).map lane
    let l := add32 (mul32 st.l corr) (treeOf add32 .zero ps)
    let rp (p : Nat) : XNum := decodeElem pf (convert pf .rne (nth .zero ps (p - 128 * ch))).code
    let part (d : Nat) : XNum := sc.foldl (fun acc x => round32 (acc.add ((rp x.1).mul (nth .zero x.2.2 d)))) .zero
    { m := mc, l, o := st.o.zipIdx.map fun (v, d) => add32 (mul32 v corr) (part d) }

/-- What a forward unit computes: statistics of its rows, rows with NaN or infinity, and faults met. -/
structure UnitOut where
  rows : List (Nat × RowStat)
  special : Nat
  faults : List (Nat × Nat)
  deriving DecidableEq, Repr

/-- R160: run a forward unit as far as its last chunk; `none` is a gain that R76 refuses. -/
def State.runForward (s : State) (c : Nat) (x : List Byte) (a : AttnDesc) (q new : FmtWord) (kvh rb sp : Nat) :
    Except (Nat × AccErr) (Option UnitOut) :=
  let chs := a.splitChunks rb sp
  match s.queries c x a q kvh rb with
  | .error e => .error e
  | .ok none => .ok none
  | .ok (some (qs, qf)) =>
    match s.kvAll c x a new kvh (a.positions rb chs) with
    | .error e => .error e
    | .ok (kv, kf) =>
      let runRow (r : Nat) (q : EdgeVec × Bool) : RowStat × Bool :=
        let t := r / a.g
        let adm := kv.filter fun y => a.admits t y.1
        let sc := adm.map fun y => (y.1, scoreOf q.1 y.2.1 a.d (fld x 0x34 4), y.2.2.1)
        let st := chs.foldl (fun (st : RowStat) ch => st.chunk a.pFmt ch (sc.filter fun y => y.1 / 128 = ch))
          ({ o := List.replicate a.d XNum.zero } : RowStat)
        (st, q.2 || (adm.any fun y => y.2.2.2) || sc.any fun y => y.2.1.isNan)
      let out := ((a.rows rb).zip qs).map fun (r, q) => (r, runRow r q)
      .ok (some { rows := out.map fun y => (y.1, y.2.1), special := (out.filter fun y => y.2.2).length,
                  faults := qf ++ kf })

/-- The bytes of a row's statistics (R162). -/
def statBytes (m l : XNum) : List Byte :=
  leBytes 4 (to32 m) ++ leBytes 4 (to32 (add32 m (round32 ((freeFn fnLog2 l).mul (numOf32 0x3F317218)))))

/-- The writes of a finished row: O under O_FMTW, and statistics under SAVE_STATS; with the events of O. -/
def rowWrites (x : List Byte) (a : AttnDesc) (kvh r : Nat) (st : RowStat) : List (Nat × List Byte) × QEvents :=
  let (t, h) := a.rowOf kvh r
  let (w, ev) := tileRowWrites a.o (.fin false 1) (fun _ => .rne) (h * a.d) (st.o.map fun v => round32 (v.div st.l))
  (w.map (fun (off, b) => (fld x 0x80 8 + t * fld x 0x88 4 + off, b)) ++
    (if a.saveStats then [(fld x 0x90 8 + (t * a.hq + h) * 8, statBytes st.m st.l)] else []), ev)

/-- R158: where the split counters, and the partial of a unit, lie in the work area. -/
def AttnDesc.appendCtr (x : List Byte) (kvh : Nat) : Nat := fld x 0x98 8 + 8 * kvh
def AttnDesc.splitCtr (a : AttnDesc) (x : List Byte) (kvh rb : Nat) : Nat := fld x 0x98 8 + 8 * a.hkv + 8 * (kvh * a.rb + rb)
def AttnDesc.partAddr (a : AttnDesc) (x : List Byte) (u : Nat) : Nat :=
  fld x 0x98 8 + (8 * a.hkv + 8 * (a.hkv * a.rb) + 63) / 64 * 64 + u * (128 * (4 * a.d + 8))

/-- A partial's bytes for one row (R158). -/
def partialBytes (st : RowStat) : List Byte := leBytes 4 (to32 st.m) ++ leBytes 4 (to32 st.l) ++ st.o.flatMap fun v => leBytes 4 (to32 v)

/-- Read one row of a partial. -/
def State.readPartial (s : State) (c : Nat) (x : List Byte) (a : AttnDesc) (u i : Nat) : Except (Nat × AccErr) RowStat :=
  match s.fetch c (a.partAddr x u + i * (4 * a.d + 8)) (4 * a.d + 8) with
  | .error e => .error e
  | .ok b => .ok { m := numOf32 (fld b 0 4), l := numOf32 (fld b 4 4), o := (List.range a.d).map fun d => numOf32 (fld b (8 + 4 * d) 4) }

/-- Read a row of every split of a block. -/
def State.readSplits (s : State) (c : Nat) (x : List Byte) (a : AttnDesc) (u0 i : Nat) : List Nat → Except (Nat × AccErr) (List RowStat)
  | [] => .ok []
  | sp :: sps =>
    match s.readPartial c x a (u0 + sp) i with
    | .error e => .error e
    | .ok st =>
      match State.readSplits s c x a u0 i sps with
      | .error e => .error e
      | .ok l => .ok (st :: l)

/-- R161: combine a row's partials. -/
def combineRow (d : Nat) (ps : List RowStat) : RowStat :=
  let m := ps.foldl (fun m p => XNum.max m p.m) (.inf true)
  let live := ps.filter fun p => p.m ≠ .inf true
  let f (p : RowStat) : XNum := expF (add32 p.m m.neg)
  { m, l := live.foldl (fun acc p => add32 acc (mul32 p.l (f p))) .zero
    o := (List.range d).map fun i => live.foldl (fun acc p => add32 acc (mul32 (nth .zero p.o i) (f p))) .zero }

/-- The writes of a combine, with the events of O. -/
def State.combineWrites (s : State) (c : Nat) (x : List Byte) (a : AttnDesc) (kvh rb : Nat) :
    List (Nat × Nat) → Except (Nat × AccErr) (List (Nat × List Byte) × QEvents)
  | [] => .ok ([], {})
  | (i, r) :: rs =>
    match s.readSplits c x a ((kvh * a.rb + rb) * a.splits) i (List.range a.splits) with
    | .error e => .error e
    | .ok ps =>
      match State.combineWrites s c x a kvh rb rs with
      | .error e => .error e
      | .ok (w, ev) => let (w0, e0) := rowWrites x a kvh r (combineRow a.d ps); .ok (w0 ++ w, e0.add ev)

/-! ### Appends (R163) -/

/-- The writes that append one head's new keys and values at tokens, with their events. -/
def State.appendWrites (s : State) (c : Nat) (x : List Byte) (a : AttnDesc) (new : FmtWord) (kvh : Nat) :
    List Nat → Except (Nat × AccErr) (List (Nat × List Byte) × QEvents)
  | [] => .ok ([], {})
  | t :: ts =>
    match s.newKv c x a new kvh t with
    | .error e => .error e
    | .ok ((kb, vb), ev, _) =>
      match State.appendWrites s c x a new kvh ts with
      | .error e => .error e
      | .ok (w, ev') =>
        let tail := if a.k.fmt.isBlock ∧ kvh + 1 = a.hkv then List.replicate (a.kPitch - a.hkv * keyHead a.k.fmt a.d) (0 : Byte) else []
        .ok ((a.keyAddr x kvh (a.p0 + t), kb ++ tail) :: (a.valAddr x kvh (a.p0 + t), vb) :: w, ev.add ev')

/-- CACHE_SAT and NAN_EVENTS of a set of conversions (R155, Table 04.9). -/
def State.countCache (s : State) (c : Nat) (e : QEvents) : State :=
  (s.bump (atnOff c 0x30) (e.sat + e.infBounded + e.ovfFin + e.ovfInf)).bump (atnOff c 0x40) e.nan

/-! ### Backward arithmetic (R166 to R168) -/

/-- What a backward unit needs of one query row: q, dO, O, lse, and whether a NaN or infinity came with it. -/
structure BackRow where
  q : EdgeVec
  dO : EdgeVec
  o : List XNum
  lse : XNum
  special : Bool
  deriving DecidableEq, Repr

/-- Read a block's rows for a backward unit, with the faults met. -/
def State.backRows (s : State) (c : Nat) (x : List Byte) (a : AttnDesc) (kvh : Nat) :
    List (Nat × EdgeVec × Bool) → Except (Nat × AccErr) (List (Nat × BackRow) × List (Nat × Nat))
  | [] => .ok ([], [])
  | (r, q, qs) :: rs =>
    let (t, h) := a.rowOf kvh r
    let k0 := h * a.d
    let one : Nat → XNum := fun _ => .fin false 1
    match s.readRows c a.o (fld x 0xA8 8) (fld x 0xB0 4) k0 (k0 + a.d) [t], s.readRows c a.o (fld x 0x80 8) (fld x 0x88 4) k0 (k0 + a.d) [t],
          s.readWords c (fld x 0x90 8 + (t * a.hq + h) * 8 + 4) 1 with
    | .ok dr, .ok orow, .ok ws =>
      match State.backRows s c x a kvh rs with
      | .error e => .error e
      | .ok (l, f) =>
        let dO := qEdge a.o (dr.headD 0) k0 a.d one
        let o := headOf a.o (orow.headD 0) k0 a.d one
        .ok ((r, { q, dO, o, lse := numOf32 (nth 0 ws 0), special := qs || dO.values.any XNum.special || o.any XNum.special }) :: l,
          unitFaults 2 kvh r (Strip.faults ⟨a.o, dr⟩ k0 (k0 + a.d)) ++ unitFaults 3 kvh r (Strip.faults ⟨a.o, orow⟩ k0 (k0 + a.d)) ++ f)
    | .error e, _, _ => .error e
    | _, .error e, _ => .error e
    | _, _, .error e => .error e

/-- p and dS of one admitted pair, as BF16 (R167). -/
def backPair (a : AttnDesc) (scale : Nat) (b : BackRow) (k : EdgeVec) (v : List XNum) : XNum × XNum :=
  let toB (y : XNum) : XNum := decodeElem .bf16 (convert .bf16 .rne y).code
  let p := expF (add32 (scoreOf b.q k a.d scale) b.lse.neg)
  let dP := (accumulateFn (nth .zero b.dO.elem) (fun i => if b.dO.block then nth .zero b.dO.factor i else .fin false 1)
    (nth .zero v) (fun _ => .fin false 1) b.dO.block false a.d).acc
  let dr := rowReduce add32 .zero ((b.dO.values.zip b.o).map fun (y, z) => mul32 y z)
  (toB p, toB (mul32 p (add32 dP dr.neg)))

/-- A gradient row written under GRAD_FMTW: bytes, saturated or infinite elements, and whether it holds a NaN. -/
def gradRow (f : Fmt) (xs : List XNum) : List Byte × Nat × Bool :=
  let cs := xs.map fun y => convert f .rne y
  (leBytes (f.rowBytes xs.length) (packCodes f.width (cs.map Conv.code)),
    (cs.filter fun q => q.sat || (decodeElem f q.code).isInf).length, xs.any XNum.isNan)

/-- Read the back rows of every row block of a head. -/
def State.allBackRows (s : State) (c : Nat) (x : List Byte) (a : AttnDesc) (q : FmtWord) (kvh : Nat) :
    List Nat → Except (Nat × AccErr) (Option (List (Nat × BackRow) × List (Nat × Nat)))
  | [] => .ok (some ([], []))
  | rb :: rbs =>
    match s.queries c x a q kvh rb with
    | .error e => .error e
    | .ok none => .ok none
    | .ok (some (qs, qf)) =>
      match s.backRows c x a kvh ((a.rows rb).zip qs), State.allBackRows s c x a q kvh rbs with
      | .error e, _ => .error e
      | _, .error e => .error e
      | _, .ok none => .ok none
      | .ok (l, f), .ok (some (m, g)) => .ok (some (l ++ m, qf ++ f ++ g))

/-- Multiply a gradient by SCALE once (R167). -/
def scaled (x : List Byte) (l : List XNum) : List XNum := l.map fun y => mul32 y (numOf32 (fld x 0x34 4))

/-- What a backward unit finds: its writes, saturations, rows with NaN in a gradient, rows with input-borne NaN or
infinity, and format faults. -/
structure BackOut where
  writes : List (Nat × List Byte)
  sat : Nat
  nans : Nat
  special : Nat
  faults : List (Nat × Nat)
  deriving DecidableEq, Repr

/-- Positions that a backward unit reads, and its key-value head and row blocks (R166, R167). -/
def AttnDesc.backReads (a : AttnDesc) (u : Nat) : Nat × List Nat × List Nat :=
  if u < a.hkv * a.nc then
    (u / a.nc, List.range a.rb, ((List.range 128).map (128 * (u % a.nc) + ·)).filter fun p => p < a.ctx)
  else
    let rb := (u - a.hkv * a.nc) % a.rb
    let (lo, hi) := a.chunks rb
    ((u - a.hkv * a.nc) / a.rb, [rb], a.positions rb ((List.range (hi + 1 - lo)).map (lo + ·)))

/-- R166 to R168: what a backward unit computes; none is a gain that R76 refuses. -/
def State.runBackward (s : State) (c : Nat) (x : List Byte) (a : AttnDesc) (q new : FmtWord) (u : Nat) : Except (Nat × AccErr) (Option BackOut) :=
  let zero := List.replicate a.d XNum.zero
  let acc (o : List XNum) (w : XNum) (y : List XNum) : List XNum := (o.zip y).map fun (p, q) => round32 (p.add (w.mul q))
  let (kvh, rbs, ps) := a.backReads u
  match s.allBackRows c x a q kvh rbs, s.kvAll c x a new kvh ps with
  | .error e, _ => .error e
  | _, .error e => .error e
  | .ok none, _ => .ok none
  | .ok (some (rows, rf)), .ok (kv, kf) =>
    let special := (rows.filter fun b => b.2.special || kv.any fun y => a.admits (b.1 / a.g) y.1 && y.2.2.2).length
    if u < a.hkv * a.nc then
      let outs := kv.map fun y =>
        let init : List XNum × List XNum := (zero, zero)
        let fin := rows.foldl (fun (z : List XNum × List XNum) b =>
          if a.admits (b.1 / a.g) y.1 then
            let (p, ds) := backPair a (fld x 0x34 4) b.2 y.2.1 y.2.2.1
            (acc z.1 p b.2.dO.values, acc z.2 ds b.2.q.values)
          else z) init
        (y.1, gradRow a.grad (scaled x fin.2), gradRow a.grad fin.1)
      let addr (base p : Nat) : Nat := base + (p * a.hkv + kvh) * a.d * a.grad.width / 8
      .ok (some { writes := outs.flatMap fun y => [(addr (fld x 0xC0 8) y.1, y.2.1.1), (addr (fld x 0xC8 8) y.1, y.2.2.1)]
                  sat := (outs.map fun y => y.2.1.2.1 + y.2.2.2.1).sum
                  nans := (outs.filter fun y => y.2.1.2.2 || y.2.2.2.2).length, special, faults := rf ++ kf })
    else
      let outs := rows.map fun b =>
        let dq := kv.foldl (fun z y =>
          if a.admits (b.1 / a.g) y.1 then acc z (backPair a (fld x 0x34 4) b.2 y.2.1 y.2.2.1).2 y.2.1.values else z) zero
        let (t, h) := a.rowOf kvh b.1
        (fld x 0xB8 8 + (t * a.hq + h) * a.d * a.grad.width / 8, gradRow a.grad (scaled x dq))
      .ok (some { writes := outs.map fun y => (y.1, y.2.1), sat := (outs.map fun y => y.2.2.1).sum
                  nans := (outs.filter fun y => y.2.2.2).length, special, faults := rf ++ kf })

/-- The ranges that a unit reads: query rows, cached keys and values, new keys and values, and for a backward unit rows
of dO and O and the statistics (R140, R142, R143, R168). -/
def AttnDesc.readRanges (a : AttnDesc) (x : List Byte) (q new : FmtWord) (kvh : Nat) (rbs ps : List Nat) : List (Nat × Nat) :=
  let row (f : Fmt) (base ld k0 k1 t : Nat) : List (Nat × Nat) := (f.spans k0 k1).map fun p => (base + t * ld + p.1, p.2)
  let (k0, k1) := a.headCols kvh
  let toks := (rbs.flatMap a.tokens).eraseDups
  let queries := toks.flatMap fun t => row q.fmt (fld x 0x20 8) (fld x 0x28 4) k0 k1 t
  let gains := if q.gainMode = 1 ∧ a.qGarr then (a.qRegions kvh toks).map fun i => (fld x 0x38 8 + 4 * i, 4) else []
  let kv := ps.flatMap fun p =>
    if a.p0 ≤ p then
      row new.fmt (fld x 0x40 8) (fld x 0x50 4) (kvh * a.d) ((kvh + 1) * a.d) (p - a.p0) ++
        row new.fmt (fld x 0x48 8) (fld x 0x50 4) (kvh * a.d) ((kvh + 1) * a.d) (p - a.p0)
    else [(a.keyAddr x kvh p, keyHead a.k.fmt a.d), (a.valAddr x kvh p, a.d * a.v.width / 8)]
  let back := if !a.bwd then [] else toks.flatMap fun t =>
    row a.o (fld x 0xA8 8) (fld x 0xB0 4) k0 k1 t ++ row a.o (fld x 0x80 8) (fld x 0x88 4) k0 k1 t ++
      [(fld x 0x90 8 + (t * a.hq + kvh * a.g) * 8, 8 * a.g)]
  queries ++ gains ++ kv ++ back

/-- What a unit's reads do to the state (R259). -/
def State.touchUnit (s : State) (c : Nat) (l : List (Nat × Nat)) : State := l.foldl (fun s p => s.touch c unitAtn 0 p.1 p.2) s

/-! ### The end of a unit (R161, R163, R164, R170 to R172) -/

/-- Change the attention list of a cove whose header is at `hdr`. -/
def State.modAtn (s : State) (c hdr : Nat) (f : WorkList → WorkList) : State :=
  { s with atnLists := vmod s.atnLists c fun q => q.map fun l => if l.hdr = hdr then f l else l }

/-- R172: keep the higher status. -/
def mergeAtn (a b : Status) : Status := mergeStatus a b

/-- R164, R172: a unit counts toward DONE_TILES with its status; the engine is free. -/
def State.countUnit (s : State) (e : Nat) (r : TileRun) (st : Status) : State :=
  let s := { s with atns := vmod s.atns e fun _ => none }
  let bwd := fld r.desc 0 1 = 0x12
  let s := if bwd then s.bump (bwdOff r.cove 0x00) 1 else s.bump (atnOff r.cove 0x20) 1
  let s := s.noteStatus r.cove st
  let s := s.modAtn r.cove r.hdr fun l =>
    { l with st := mergeAtn l.st st, descs := l.descs.map fun (a, y) => if a = r.descAddr then (a, mergeAtn y st) else (a, y) }
  match s.peek r.cove r.hdr 64 with
  | .error _ => s
  | .ok h =>
    let n := fld h 0x0C 4 + 1
    let s := s.put r.cove unitAtn (r.hdr + 0x0C) 4 n
    if n = fld h 0x08 4 then s.modAtn r.cove r.hdr fun l => { l with ended := true } else s

/-- R161, R163: add to a counter of the work area: the value after, or why it cannot be reached. -/
def State.addCtr (s : State) (c addr v : Nat) : State × Except Status Nat :=
  match s.peekNat c addr 8 with
  | .error e => (s.accErr c unitAtn 0 addr e, .error e.status)
  | .ok w => match s.poke c unitAtn 0 addr (leBytes 8 ((w + v) % 0x10000000000000000)) with
    | (s, none) => (s, .ok ((w + v) % 0x10000000000000000))
    | (s, some e) => (s, .error e.status)

/-- R171: a status that ends a unit, or a part of its end; POISONED is counted. -/
def State.poisonEnd (s : State) (c : Nat) (st : Status) : State := if st = .poisoned then s.bump (atnOff c 0x58) 1 else s

/-- Make the writes of a combine or an append, or find why they cannot be made; with the status found. -/
def State.unitWrites (s : State) (c : Nat) (w : Except (Nat × AccErr) (List (Nat × List Byte) × QEvents)) : State × Status :=
  match w with
  | .error (va, e) => (s.accErr c unitAtn 0 va e, e.status)
  | .ok (w, ev) =>
    match s.firstBad c w with
    | some (va, e) => (s.accErr c unitAtn 0 va e, e.status)
    | none => ((s.pokeAll c unitAtn w).countCache c ev, .done)

/-- R161: the split counter of a forward unit, and the combine of the unit that completes it; the status found. -/
def State.splitStep (s : State) (c : Nat) (x : List Byte) (a : AttnDesc) (kvh rb : Nat) (ok : Bool) : State × Status :=
  match s.addCtr c (a.splitCtr x kvh rb) (if ok then 1 else 0x100000001) with
  | (s, .error st) => (s, st)
  | (s, .ok w) =>
    if w % 0x100000000 ≠ a.splits ∨ a.splits = 1 ∨ w / 0x100000000 ≠ 0 then (s, .done)
    else s.unitWrites c (s.combineWrites c x a kvh rb ((a.rows rb).zipIdx.map fun (r, i) => (i, r)))

/-- R163: the append counter, and the append of the unit that completes it; the status found. -/
def State.appendStep (s : State) (c : Nat) (x : List Byte) (a : AttnDesc) (new : FmtWord) (kvh : Nat) : State × Status :=
  if !a.append then (s, .done)
  else match s.addCtr c (AttnDesc.appendCtr x kvh) 1 with
  | (s, .error st) => (s, st)
  | (s, .ok w) =>
    if w % 0x100000000 ≠ a.rb * a.splits then (s, .done)
    else match s.unitWrites c (s.appendWrites c x a new kvh (List.range a.lq)) with
      | (s, st) => (if st = .done then s.bump (atnOff c 0x28) a.lq else s, st)

/-- R161, R163, R164: the counters, combine and append of a forward unit that ends with a status, then its count. -/
def State.closeForward (s : State) (e : Nat) (r : TileRun) (a : AttnDesc) (st : Status) : State :=
  let kvh := r.tile / (a.rb * a.splits)
  let rb := r.tile / a.splits % a.rb
  match s.splitStep r.cove r.desc a kvh rb (decide (st = .done)) with
  | (s, s1) => match (s.poisonEnd r.cove s1).appendStep r.cove r.desc a (r.newFmt a) kvh with
    | (s, s2) => (s.poisonEnd r.cove s2).countUnit e r (mergeAtn st (mergeAtn s1 s2))

/-- The end of a unit whose descriptor passed its checks, with a status. -/
def State.closeUnit (s : State) (e : Nat) (r : TileRun) (a : AttnDesc) (st : Status) : State :=
  if a.bwd then s.countUnit e r st else s.closeForward e r a st

/-- The higher of two edge classes (Table 02.1). -/
def higherClass (f g : Fmt) : EdgeClass :=
  if f.edgeClass = some .c ∨ g.edgeClass = some .c then .c else if f.edgeClass = some .b ∨ g.edgeClass = some .b then .b else .a

/-- Table 04.6: AK cycles of a product of 128 rows by one chunk along a head of length `d`. -/
def EdgeClass.cycles (d : Nat) : EdgeClass → Nat
  | .a => d / 2
  | .b => d
  | .c => 4 * d

/-- Table 04.6, R178: AK cycles of a unit whose queries are read in format `q` (R153, R176); a rotated query runs in the
class of the format it is rounded to (Table 04.5). -/
def AttnDesc.cycles (a : AttnDesc) (q : Fmt) (u : Nat) : Nat :=
  let blocks := (a.d + 127) / 128
  let qk := (higherClass (if a.rope = 0 then q else a.rotFmt q) a.k.fmt).cycles a.d
  if a.bwd then
    let pv := (higherClass a.o a.v).cycles a.d
    if u < a.hkv * a.nc then
      let ch := u % a.nc
      let pairs := ((List.range a.rb).filter fun rb => decide ((a.chunks rb).1 ≤ ch) && decide (ch ≤ (a.chunks rb).2)).length
      pairs * (qk + pv + 1024 * blocks) + 256
    else
      let (lo, hi) := a.chunks ((u - a.hkv * a.nc) % a.rb)
      (hi + 1 - lo) * (qk + pv + 512 * blocks) + 256
  else
    let pv := if a.pFmt = .e4m3 ∧ a.v.edgeClass ≠ some .c then 128 * blocks else 512 * blocks
    (a.splitChunks (u / a.splits % a.rb) (u % a.splits)).length * (qk + pv) + 128

/-- R176, R463: charge a unit's AK cycles to its stream; those of rows that are the house's, and those of a unit that was
restarted (R171), go to the house. -/
def State.chargeUnit (s : State) (r : TileRun) (a : AttnDesc) : State :=
  let c := r.cove
  let key := if !r.restarted && s.liveStream c a.stream && decide ((s.sx a.stream).houseTo ≤ a.p0) then a.stream else houseKey
  s.addShare c poolAtn key (a.cycles (r.qFmt a).fmt r.tile)

/-- R170, R171: a unit that meets an error: it waits for its stream's shadow or for a refetch of an object, or it ends. -/
def State.unitError (s : State) (e : Nat) (r : TileRun) (a : AttnDesc) (va : Nat) (er : AccErr) : State :=
  let s := s.accErr r.cove unitAtn 0 va er
  match er with
  | .poisoned _ =>
    if s.refetchable r.cove va || (decide (a.stream < streamEntries) && s.sShadow a.stream && !(s.sx a.stream).shadow.isEmpty) then
      s.setAtn e (some { r with waiting := some (va / 65536 * 65536) })
    else ((s.chargeUnit r a).poisonEnd r.cove .poisoned).closeUnit e r a .poisoned
  | er => (s.chargeUnit r a).closeUnit e r a er.status

/-- R74: the faults of regions that a list has not met yet are counted, and the list notes them. -/
def State.meetFaults (s : State) (r : TileRun) (regions : List (Nat × Nat)) : State :=
  let old := (((vget [] s.atnLists r.cove).find? fun l => l.hdr = r.hdr).map fun l => l.faults).getD []
  let fresh := regions.filter fun x => !(old.any fun y => y.1 = r.descAddr && y.2.1 = x.1)
  (s.bump (atnOff r.cove 0x48) (fresh.map Prod.snd).sum).modAtn r.cove r.hdr fun l => l.meet r.descAddr regions

/-- The end of a unit that has read its operands: it is charged, its writes are made and its counts follow. -/
def State.unitFinish (s : State) (e : Nat) (r : TileRun) (a : AttnDesc) (reads : List (Nat × Nat)) (w : List (Nat × List Byte))
    (special : Nat) (faults : List (Nat × Nat)) (count : State → State) : State :=
  match s.firstBad r.cove w with
  | some (va, er) => s.unitError e r a va er
  | none =>
    let s := count (((s.touchUnit r.cove reads).chargeUnit r a).pokeAll r.cove unitAtn w)
    let s := (s.bump (atnOff r.cove 0x38) special).meetFaults r faults
    s.closeUnit e r a (if faults.isEmpty then .done else .range)

/-- R157, R160, R166: a unit's run, from its first chunk to its count. -/
def State.runUnit (s : State) (e : Nat) (r : TileRun) (a : AttnDesc) : State :=
  let c := r.cove
  let x := r.desc
  if a.bwd then
    match s.runBackward c x a (r.qFmt a) (r.newFmt a) r.tile with
    | .error (va, er) => s.unitError e r a va er
    | .ok none => (s.chargeUnit r a).countUnit e r .range
    | .ok (some o) =>
      let (kvh, rbs, ps) := a.backReads r.tile
      s.unitFinish e r a (a.readRanges x (r.qFmt a) (r.newFmt a) kvh rbs ps) o.writes o.special o.faults
        fun s => (s.bump (bwdOff c 0x08) o.sat).bump (bwdOff c 0x10) o.nans
  else
    let kvh := r.tile / (a.rb * a.splits)
    let rb := r.tile / a.splits % a.rb
    let sp := r.tile % a.splits
    match s.runForward c x a (r.qFmt a) (r.newFmt a) kvh rb sp with
    | .error (va, er) => s.unitError e r a va er
    | .ok none => (s.chargeUnit r a).closeForward e r a .range
    | .ok (some out) =>
      let w := if a.splits = 1 then out.rows.map fun y => rowWrites x a kvh y.1 y.2
        else out.rows.zipIdx.map fun y => ([(a.partAddr x r.tile + y.2 * (4 * a.d + 8), partialBytes y.1.2)], ({} : QEvents))
      s.unitFinish e r a (a.readRanges x (r.qFmt a) (r.newFmt a) kvh [rb] (a.positions rb (a.splitChunks rb sp))) (w.flatMap Prod.fst)
        out.special out.faults fun s => s.countCache c (w.foldl (fun t y => t.add y.2) ({} : QEvents))

/-- R157, R160, R166: the end of a unit: of one that knew its status, that lost its object, or that runs. -/
def State.unitEnd (s : State) (e : Nat) : State :=
  match vget none s.atns e with
  | none => s
  | some r =>
    match r.early, readAttnDesc r.descAddr r.desc with
    | some st, _ => s.countUnit e r st
    | none, none => if r.lost then s.countUnit e r .objectLost else if r.waiting.isSome then s else s.countUnit e r .range
    | none, some a =>
      if r.lost then s.closeUnit e r a .objectLost
      else if r.waiting.isSome then s
      else match r.rungErr with
        | some st => (s.poisonEnd r.cove st).closeUnit e r a st
        | none => s.runUnit e r a

/-- ATTENTION_UNIT_END (R161). -/
def execAttentionUnitEnd (e : Fin 32) (s : State) : Host.Outcome State Fault Refusal :=
  .next (s.unlessHalted fun s => s.unitEnd e)

/-- R171: the refetch of a waiting unit's page has ended: the unit restarts from its first chunk, or from its entry when
it had not read its descriptor. -/
def State.unitRestart (s : State) (e : Nat) : State :=
  match vget none s.atns e with
  | some r =>
    if !r.released then s
    else
      let r := { r with waiting := none, released := false, restarted := true }
      (if r.desc.isEmpty then s.unitStart e r else s.setAtn e (some r)).bump (atnOff r.cove 0x50) 1
  | none => s

/-- ATTENTION_UNIT_RESTART (R171). -/
def execAttentionUnitRestart (e : Fin 32) (s : State) : Host.Outcome State Fault Refusal :=
  .next (s.unlessHalted fun s => s.unitRestart e)

/-! ### Completion (R148, R164) -/

/-- R164: complete an attention list: format faults, its descriptors' statuses and DONE_CTRs, its status and DONE_CTR. -/
def State.completeUnits (s : State) (c : Nat) (l : WorkList) : State :=
  let s := ((l.faults.map Prod.fst).eraseDups).foldl (fun s a => s.ripple ripFormatFault Status.range.code c unitAtn a) s
  let s := l.descs.foldl (fun s y => s.put c unitAtn (y.1 + 0x0B) 1 y.2.code) s
  let s := l.descs.foldl (fun s y => match s.peekNat c (y.1 + 0x7C) 4 with
    | .ok v => s.applyDone v
    | .error _ => s) s
  let s := (s.put c unitAtn (l.hdr + 0x2D) 1 l.st.code).noteStatus c l.st
  match s.peekNat c (l.hdr + 0x30) 4 with
  | .ok v => s.applyDone v
  | .error _ => s

/-- R164: complete the oldest attention list of a cove whose units have all ended. -/
def State.atnComplete (s : State) (c : Nat) : State :=
  match (vget [] s.atnLists c).find? fun l => l.ended with
  | none => s
  | some l => ({ s with atnLists := vmod s.atnLists c fun q => q.erase l } : State).completeUnits c l

/-- ATTN_LIST_COMPLETE (R164). -/
def execAttnListComplete (c : Cove) (s : State) : Host.Outcome State Fault Refusal :=
  .next (s.unlessHalted fun s => s.atnComplete c)

end Sys2Proof.Machine
end

