-- ==== Sys2Proof/Machine/Wire.lean ====
section
/-! DEFINITION. Sys2Proof/Machine/Wire.lean: ports, connections with their keys, and the frames they put on the wire
(spec/11_basin_links_and_topology.md, R407 and R413 to R417; spec/14_security.md, R519 to R522). Where the spec gives no
layout of the bodies of control frames, log 45 names the one taken. -/
namespace Sys2Proof
namespace Machine

/-! ### Packets -/

/-- CRC-16 of R435: polynomial 0x1021, initial value 0xFFFF, no reflection. -/
def crc16Byte (crc : Nat) (b : Byte) : Nat :=
  (List.range 8).foldl (fun c _ => if bit c 15 then ((c * 2) % 65536) ^^^ 0x1021 else (c * 2) % 65536) (crc ^^^ (b.toNat * 256))

/-- CRC-16 over bytes. -/
def crc16 (bs : List Byte) : Nat := bs.foldl crc16Byte 0xFFFF

end Machine

/-- Source node, destination node, source cove and window of a packet's header. -/
def Packet.ends : Packet → Nat × Nat × Nat × Nat
  | .request r => (r.srcNode, r.dstNode, r.srcCove, r.window)
  | .response r => (r.srcNode, r.dstNode, r.srcCove, r.window)
  | .resyncReq src dst _ => (src, dst, 0, 0)
  | .resyncAck src dst _ _ => (src, dst, 0, 0)
  | .control => (0, 0, 0, 0)

/-- Destination node of a packet. -/
def Packet.dst (p : Packet) : Nat := p.ends.2.1

/-- h of R435. -/
def Packet.hash (p : Packet) : Nat :=
  let (s, d, c, w) := p.ends
  Machine.crc16 (Machine.leBytes 2 s ++ Machine.leBytes 2 d ++ Machine.leBytes 1 c ++ Machine.leBytes 1 w)

/-- Bytes of the frame that carries a packet (Table 11.4; a resync frame holds at most 72). -/
def Packet.bytes : Packet → Nat
  | .request r => 0x40 + r.data.length
  | .response r => 0x40 + r.data.length
  | .resyncReq _ _ _ => 72
  | .resyncAck _ _ _ _ => 72
  | .control => 32

/-- R426: blocks of 64 bytes that a frame consumes. -/
def Packet.blocks (p : Packet) : Nat := (p.bytes + 63) / 64

/-- TYPE of Table 11.5. -/
def Packet.type : Packet → Nat
  | .request _ => 1
  | .response _ => 1
  | .resyncReq _ _ _ => 6
  | .resyncAck _ _ _ _ => 7
  | .control => 2

/-- The fields a frame shows on the wire. -/
def Packet.fields : Packet → List Nat
  | .request r => [r.opc, r.srcNode, r.dstNode, r.srcCove, r.window, r.tag, r.len, r.offset, r.ctr, r.ssn, r.gcnt]
  | .response r => [r.opc, r.srcNode, r.dstNode, r.status, r.tag, r.ssn]
  | .resyncReq s d p => [s, d, p]
  | .resyncAck s d p l => [s, d, p, l]
  | .control => []

namespace Machine

/-! ### Ports and connections -/

/-- Port entry of the image in force. -/
def State.portEntry (s : State) (p : Nat) : PortEntry :=
  match s.image with
  | some im => nth {} im.ports p
  | none => {}

/-- One port. -/
def State.port (s : State) (p : Nat) : PortX := vget {} s.lnk.ports p

/-- Change one port. -/
def State.modPort (s : State) (p : Nat) (f : PortX → PortX) : State :=
  { s with lnk := { s.lnk with ports := vmod s.lnk.ports p f } }

/-- R405: MODE of a port: 0 OFF, 1 NATIVE, 2 ETH; the odd port of a group at ×8 is OFF. -/
def State.portMode (s : State) (p : Nat) : Nat :=
  if p % 2 = 1 ∧ (s.portEntry (p - 1)).width4 = false then 0 else (s.portEntry p).mode

/-- The fitted ports (Table 11.1). -/
def State.portCount (s : State) : Nat := if s.fuses.variant = .s then 24 else 36

/-- The key of a connection: of a NATIVE port its one connection, of an ETH port one for each peer node (R418). -/
def State.connKey (s : State) (p node : Nat) : Nat :=
  65536 * p + (if s.portMode p = 1 then (s.portEntry p).peerNode else node)

/-- A connection. -/
def State.conn (s : State) (k : Nat) : Conn := SMap.get {} s.lnk.conns k

/-- Change a connection. -/
def State.modConn (s : State) (k : Nat) (f : Conn → Conn) : State :=
  { s with lnk := { s.lnk with conns := SMap.upd {} s.lnk.conns k f } }

/-! ### Keys of a connection (R518 to R520) -/

/-- Z = ECDH(LINK_KA, the node's listed key) (R518). -/
def State.linkZ (s : State) (node : Nat) : List Byte :=
  Config.ecdh (fusedSecret s.wh.destroyed 5 48) (match s.image with
    | some im => SMap.get [] im.links node
    | none => [])

/-- This node and its peer in ascending node ID, each with a value of its own. -/
def State.inOrder (s : State) (node own peer : Nat) : Nat × Nat × Nat × Nat :=
  if s.ownNode < node then (s.ownNode, node, own, peer) else (node, s.ownNode, peer, own)

/-- PRK of a connection (R519). -/
def State.linkPrk (s : State) (node : Nat) : List Byte :=
  let x := s.inOrder node s.lnk.inc (s.node node).inc
  hkdfExtract (leBytes 2 x.2.2.1 ++ leBytes 2 x.2.2.2) (s.linkZ node)

/-- The ASCII bytes of a label. -/
def asciiBytes (l : String) : List Byte := l.toList.map fun c => BitVec.ofNat 8 c.toNat

/-- K_ID, which protects IDENT (R519). -/
def State.identKey (s : State) (node : Nat) : List Byte :=
  let x := s.inOrder node 0 0
  hkdfExpand (s.linkPrk node) (asciiBytes "RVX9 ident" ++ leBytes 2 x.1 ++ leBytes 2 x.2.1) 32

/-- The keys of the direction to the peer and of the direction from it (R519). -/
def State.linkKeys (s : State) (node port peerPort nOwn nPeer : Nat) : List Byte × List Byte :=
  let x := s.inOrder node port peerPort
  let n := s.inOrder node nOwn nPeer
  let k := hkdfExpand (s.linkPrk node) (asciiBytes "RVX9 link" ++ leBytes 2 x.1 ++ leBytes 2 x.2.1 ++ leBytes 1 x.2.2.1 ++ leBytes 1 x.2.2.2 ++
    leBytes 8 n.2.2.1 ++ leBytes 8 n.2.2.2) 64
  if s.ownNode < node then (k.take 32, k.drop 32) else (k.drop 32, k.take 32)

/-- The 96-bit nonce (R520). -/
def State.frameNonce (s : State) (node : Nat) (control ident : Bool) (n : Nat) : Nat :=
  2 ^ 95 * b2n control + 2 ^ 94 * b2n ident + 2 ^ 93 * b2n (decide (node < s.ownNode)) + n % 2 ^ 64

/-! ### Basin frames (R370, R414, R417, R520) -/

/-- The link header (Table 11.5). -/
def linkHeader (type lane lsn ack : Nat) : List Byte := leBytes 1 type ++ leBytes 1 lane ++ leBytes 3 lsn ++ leBytes 3 ack

/-- The transaction header of a packet (Table 10.4). -/
def txHeader : Packet → List Byte
  | .request r => leBytes 1 r.opc ++ leBytes 1 (b2n r.flag + 2 * b2n r.pmask.isSome) ++ [0] ++ leBytes 1 r.aop ++ leBytes 2 r.srcNode ++
      leBytes 2 r.dstNode ++ leBytes 1 r.srcCove ++ leBytes 1 r.window ++ leBytes 2 r.tag ++ leBytes 2 r.len ++ leBytes 1 r.firstBe ++
      leBytes 1 r.lastBe ++ leBytes 5 r.offset ++ [0] ++ leBytes 2 r.ctr ++ leBytes 8 (r.pmask.getD 0)
  | .response r => leBytes 1 r.opc ++ [0] ++ leBytes 1 r.status ++ [0] ++ leBytes 2 r.srcNode ++ leBytes 2 r.dstNode ++ leBytes 1 r.srcCove ++
      leBytes 1 r.window ++ leBytes 2 r.tag ++ leBytes 2 r.data.length ++ List.replicate 18 0
  | _ => []

/-- The payload of a packet. -/
def packetPayload : Packet → List Byte
  | .request r => r.data
  | .response r => r.data
  | _ => []

/-- The route header: SRC_INC, HOPS, GCNT and SSN (Table 11.4). -/
def routeHeader (own hops : Nat) : Packet → List Byte
  | .request r => leBytes 2 r.inc ++ leBytes 1 hops ++ leBytes 1 r.gcnt ++ leBytes 4 r.ssn
  | .response r => leBytes 2 r.inc ++ leBytes 1 hops ++ leBytes 1 1 ++ leBytes 4 r.ssn
  | _ => leBytes 2 own ++ leBytes 1 hops ++ leBytes 1 1 ++ leBytes 4 0

/-- What a frame numbered by LSN encrypts. -/
def sealedPart : Packet → List Byte
  | .resyncReq s d p => leBytes 2 s ++ leBytes 2 d ++ leBytes 1 p ++ List.replicate 35 0
  | .resyncAck s d p l => leBytes 2 s ++ leBytes 2 d ++ leBytes 1 p ++ leBytes 3 l ++ List.replicate 32 0
  | p => txHeader p ++ packetPayload p

/-- LANE of Table 11.5. -/
def EgItem.lane (i : EgItem) : Nat := i.vl + 8 * i.sub + 16 * i.dim

/-- A frame numbered by LSN as it leaves on a connection: its headers in clear, the rest under AES-256-GCM. -/
def State.numberedFrame (s : State) (k lsn : Nat) (i : EgItem) : List Byte :=
  let c := s.conn k
  let head := linkHeader i.packet.type i.lane (lsn % 0x1000000) ((c.expect + 0x1000000 - 1) % 0x1000000) ++ routeHeader s.lnk.inc i.hops i.packet
  head ++ gcmSeal c.keyTx (s.frameNonce (k % 65536) false false lsn) head (sealedPart i.packet)

/-- Numbers of a width in bits, the first in the lowest place. -/
def packBits (w : Nat) (l : List Nat) : Nat := l.foldr (fun x v => x % 2 ^ w + 2 ^ w * v) 0

/-- The body of a control frame behind its counter, by TYPE (log 45). -/
def controlBody : Nat → List Nat → List Byte
  | 3, [lsn] => leBytes 3 lsn
  | 4, freed => leBytes 40 (packBits 20 freed)
  | 5, n :: node :: pos :: inc :: port :: mode :: blocks =>
    leBytes 8 n ++ leBytes 2 node ++ leBytes 2 pos ++ leBytes 2 inc ++ leBytes 1 port ++ leBytes 1 mode ++ leBytes 24 (packBits 12 blocks)
  | _, _ => []

/-- A control frame as it leaves on a connection (R520). -/
def State.controlFrame (s : State) (k kind : Nat) (fields : List Nat) : List Byte :=
  let c := s.conn k
  let ident := decide (kind = 5)
  let n := if ident then s.lnk.identCtr else c.ctlTx
  let ack := if kind = 2 then nth 0 fields 0 else (c.expect + 0x1000000 - 1) % 0x1000000
  let head := linkHeader kind 0 0 ack ++ leBytes 8 n
  head ++ gcmSeal (if ident then s.identKey (k % 65536) else c.keyTx) (s.frameNonce (k % 65536) true ident n) head (controlBody kind fields)

/-! ### Routed frames (R413, R415) -/

/-- Bytes in network byte order. -/
def beBytes (n v : Nat) : List Byte := (leBytes n v).reverse

/-- The CRC-32 of IEEE 802.3 of one more byte. -/
def crc32Byte (crc : Nat) (b : Byte) : Nat :=
  (List.range 8).foldl (fun c _ => if c % 2 = 1 then (c / 2) ^^^ 0xEDB88320 else c / 2) (crc ^^^ b.toNat)

/-- The CRC-32 of IEEE 802.3. -/
def crc32 (bs : List Byte) : Nat := (bs.foldl crc32Byte 0xFFFFFFFF) ^^^ 0xFFFFFFFF

/-- The sum of the sixteen-bit words of bytes in network byte order. -/
def sumWords : List Byte → Nat
  | a :: b :: r => 256 * a.toNat + b.toNat + sumWords r
  | [a] => 256 * a.toNat
  | [] => 0

/-- Fold a sum to sixteen bits with its carries. -/
def foldCarry (n : Nat) : Nat :=
  let a := n % 65536 + n / 65536
  let b := a % 65536 + a / 65536
  b % 65536 + b / 65536

/-- The UDP checksum over a pseudo-header and a datagram. -/
def udpChecksum (pseudo dgram : List Byte) : Nat :=
  let c := 0xFFFF - foldCarry (sumWords (pseudo ++ dgram))
  if c = 0 then 0xFFFF else c

/-- The IPv6 address of a node: ETH_PREFIX and the interface ID (R415). -/
def State.nodeAddress (s : State) (node : Nat) : List Byte :=
  beBytes 8 (match s.image with
    | some im => im.portsHead.ethPrefix
    | none => 0) ++ beBytes 8 node

/-- The routed frame that carries a Basin frame on an ETH port (Table 11.6). -/
def State.routedFrame (s : State) (p peer vl h : Nat) (frame : List Byte) : List Byte :=
  let e := s.portEntry p
  let im := (s.image.map fun im => im.portsHead).getD {}
  let n := 8 + frame.length
  let src := s.nodeAddress s.ownNode
  let dst := s.nodeAddress peer
  let udp (sum : Nat) : List Byte := beBytes 2 (0xC000 + h % 0x4000) ++ beBytes 2 im.ethUdp ++ beBytes 2 n ++ beBytes 2 sum ++ frame
  let sum := udpChecksum (src ++ dst ++ beBytes 4 n ++ beBytes 4 17) (udp 0)
  let ip := beBytes 4 (6 * 2 ^ 28 + nth 0 im.dscp vl * 2 ^ 22 + h) ++ beBytes 2 n ++ [17, 64] ++ src ++ dst
  let body := beBytes 6 e.nextMac ++ beBytes 6 (s.fuses.macBase + p) ++ beBytes 2 0x8100 ++ beBytes 2 (8192 * vl + e.vid) ++ beBytes 2 0x86DD ++ ip ++ udp sum
  body ++ leBytes 4 (crc32 body)

/-- The bytes a port sends for a Basin frame of a connection: the frame itself, or the routed frame around it. -/
def State.onWire (s : State) (p k vl h : Nat) (frame : List Byte) : List Byte :=
  if s.portMode p = 2 then s.routedFrame p (k % 65536) vl h frame else frame

/-- The bytes that a frame of `n` bytes counts against the Basin egress grant of its port (R407). -/
def State.frameCharge (s : State) (p n : Nat) : Nat := if s.portMode p = 2 then 70 + n + 20 else n + 8

/-- Bytes on the wire of a port, recorded. -/
def State.putWire (s : State) (p : Nat) (b : List Byte) : State := { s with lnk := { s.lnk with wire := s.lnk.wire ++ [(p, b)] } }

/-- Send a control frame of a connection on a port; the house is charged for it (R407, R401). -/
def State.control (s : State) (p k kind : Nat) (fields : List Nat) : State :=
  let b := s.controlFrame k kind fields
  let h := (Packet.resyncReq s.ownNode (k % 65536) 0).hash
  let s := (s.bump (portOff p 0x48) 1).emit (.frame p kind fields)
  let s := (s.putWire p (s.onWire p k 0 h b)).spend 2 p 0 (s.frameCharge p (32 + (controlBody kind fields).length))
  if kind = 5 then { s with lnk := { s.lnk with identCtr := s.lnk.identCtr + 1 } } else s.modConn k fun c => { c with ctlTx := c.ctlTx + 1 }

/-- The IDENT fields that this package sends (R441). -/
def State.identFields (s : State) (p : Nat) : List Nat :=
  let x := s.port p
  let e := s.portEntry p
  [s.ownNode, s.lnk.pos, s.lnk.inc, p, s.portMode p] ++
    (if s.portMode p = 1 then (List.range 16).map fun c => nth 0 e.vlAlloc (c / 2) - nth 0 x.heldBlocks c else [])

/-- Send an IDENT on a connection with its N: a fresh one, or where the exchange has begun the one already sent (R519). The
free blocks of an IDENT that opens a connection start its counts of freed blocks anew (R427, R428). -/
def State.sendIdent (s : State) (p k : Nat) (fresh : Bool) : State :=
  let d := s.draw
  let s := if fresh || decide ((s.conn k).nOwn = 0) then d.2.modConn k fun c => { c with nOwn := d.1 % 2 ^ 64 } else s
  let s := if (s.conn k).isOpen then s else s.modConn k fun c => { c with freedOut := List.replicate 16 0, reported := List.replicate 16 0 }
  s.control p k 5 ((s.conn k).nOwn :: s.identFields p)

end Machine

end Sys2Proof
end

