-- ==== Sys2Proof/Machine/Transport.lean ====
section
/-! DEFINITION. Sys2Proof/Machine/Transport.lean: routes, egress queues, port arbitration, connections and their
resync, as shared operations (spec/11_basin_links_and_topology.md, R396, R397). -/
namespace Sys2Proof
namespace Machine

/-- Connections of a port. -/
def State.portConns (s : State) (p : Nat) : List Nat := (SMap.keys s.lnk.conns).filter fun k => k / 65536 = p

/-- LNK.EVENT bits (Table 11.12). -/
def State.lnkEvent (s : State) (i : Nat) : State := s.event (blkLNK + 0x24) i 3

/-- A package counter of LNK (Table 11.13). -/
def lnkCtr (r : Nat) : Nat := blkLNK + r

/-! ### Routes (R435 to R439) -/

/-- The route entry of a node. -/
def State.routeOf (s : State) (node : Nat) : RouteEntry :=
  match s.image with
  | some im => SMap.get {} im.routes node
  | none => {}

/-- R435, R436: live choices of a node in ascending choice order: port and dateline. -/
def State.liveChoices (s : State) (node : Nat) : List (Nat × Bool) :=
  ((s.routeOf node).choices.filter fun c => c.1 && decide ((s.port c.2.1).state = .up) &&
    !(s.conn (s.connKey c.2.1 node)).failed).map fun c => (c.2.1, c.2.2)

/-- R426, R427: a transit frame's blocks are freed at the port it came in by. -/
def State.freeBlocks (s : State) : Option (Nat × Nat × Nat) → State
  | none => s
  | some (p, cls, n) =>
    let s := s.modPort p fun x => { x with heldBlocks := modNth x.heldBlocks cls (· - n) }
    if s.portMode p = 1 then
      s.modConn (s.connKey p 0) fun c => { c with freedOut := modNth c.freedOut cls fun v => (v + n) % 0x100000000 }
    else s

/-- R439: discard a frame for a node without a live choice. -/
def State.noRoute (s : State) (node : Nat) (inPort : Option (Nat × Nat × Nat)) : State :=
  let s := (s.freeBlocks inPort).bump (lnkCtr 0x40) 1
  if s.isDrained node then s
  else { s with lnk := { s.lnk with unreach := node } }.lnkEvent 1

/-- R396, R434, Table 10.7: whether a local request joins a group whose members and first arrival are given. -/
def joinsGroup (cfg now at_ : Nat) (r : BasinReq) (ms : List Member) (port : Bool) : Bool :=
  match ms.head?, ms.getLast? with
  | some m0, some ml =>
    let a := m0.req
    let same := decide (a.dstNode = r.dstNode) && decide (a.window = r.window) && decide (a.offset = r.offset) && decide (a.len = r.len)
    let load := decide (a.opc = 1) && decide (r.opc = 1) && decide (a.firstBe = r.firstBe) && decide (a.lastBe = r.lastBe) && bit cfg 0
    let op := bits r.aop 0 6
    let addF := op = 0x03 || op = 0x04
    let atom := decide (a.opc = 3) && decide (r.opc = 3) && decide (a.aop = r.aop) && !a.flag && !r.flag && bit cfg 1 &&
      decide (1 ≤ op) && decide (op ≤ 0x10) && (!addF || !port && !bit r.aop 6)
    decide (ms.length < 64) && decide (now - at_ ≤ 12) && same && (load || atom) &&
      (!port || decide (a.srcCove = r.srcCove) && decide (a.srcNode = r.srcNode) && decide ((ml.req.ssn + 1) % 0x100000000 = r.ssn))
  | _, _ => false

/-- Whether an item holds a request of the ordering stream of another. -/
def EgItem.sameStream (i : EgItem) (r : BasinReq) : Bool :=
  match i.packet with
  | .request q => decide (q.srcNode = r.srcNode) && decide (q.srcCove = r.srcCove) && decide (q.dstNode = r.dstNode) && decide (q.window = r.window)
  | _ => false

/-- Put a local request into the first group of an egress that it joins (R396), else behind the rest. -/
def State.enqueue (s : State) (p : Nat) (it : EgItem) : State :=
  let q := SMap.get [] s.lnk.egress p
  let joined : Option (List EgItem) :=
    match it.packet, it.inPort with
    | .request r, none =>
      let mine := q.filter fun x => x.sameStream r
      match mine with
      | [g] =>
        if g.inPort.isNone && joinsGroup (s.reg (blkBSN + 0xC)).toNat s.now g.at_ r g.members true then
          some (q.map fun x => if x = g then { x with members := x.members ++ [⟨r⟩] } else x)
        else none
      | _ => none
    | _, _ => none
  { s with lnk := { s.lnk with egress := SMap.put [] s.lnk.egress p (joined.getD (q ++ [it])) } }

/-- R418: an ETH port opens a connection when the first frame for a peer is queued, while it has fewer than 256. -/
def State.opensConn (s : State) (p node : Nat) : Bool :=
  decide (s.portMode p = 2) && !(s.conn (s.connKey p node)).isOpen && !((SMap.get [] s.lnk.egress p).any fun i => i.packet.dst = node) &&
    decide (((s.portConns p).filter fun k => (s.conn k).isOpen).length < 256)

/-- R435 to R439: send an item toward its destination: it waits at the egress of the port that its hash names. -/
def State.toEgress (s : State) (it : EgItem) (front : Bool) : State :=
  let node := it.packet.dst
  let live := s.liveChoices node
  match live with
  | [] => s.noRoute node it.inPort
  | _ =>
    let (p, date) := nth (0, false) live (it.packet.hash % live.length)
    let dim := (s.routeOf node).dim
    let sub := if date then 1 else if it.inPort.isSome && dim = it.dim then it.sub else 0
    let it := { it with sub, dim }
    let s := if s.opensConn p node then s.sendIdent p (s.connKey p node) false else s
    if front then { s with lnk := { s.lnk with egress := SMap.upd [] s.lnk.egress p fun q => it :: q } } else s.enqueue p it

/-! ### Sending (R420, R425, R427) -/

/-- Bytes held in a port's replay buffer (R420). -/
def State.replayBytes (s : State) (p : Nat) : Nat :=
  ((s.portConns p).map fun k => ((s.conn k).held.map fun h => h.frame.packet.bytes).sum).sum

/-- The class of a lane: VL and sub-lane (R426). -/
def EgItem.cls (i : EgItem) : Nat := 2 * i.vl + i.sub

/-- Whether a frame can be sent on a port now: the port is UP, the connection open and not draining, the replay buffer
has room (R420), and there is credit (R427) or no pause (R429). -/
def State.sendable (s : State) (p : Nat) (i : EgItem) : Bool :=
  let c := s.conn (s.connKey p i.packet.dst)
  decide ((s.port p).state = .up) && c.isOpen && !c.rekeying && decide (s.replayBytes p + i.packet.bytes ≤ 2097152) &&
    (if s.portMode p = 1 then
      decide (i.packet.blocks ≤ (nth 0 c.init i.cls + nth 0 c.freedIn i.cls + 0x100000000 - nth 0 c.consumed i.cls) % 0x100000000)
    else !(s.port p).paused.contains i.vl)

/-- R425: within one VL, the frame whose turn it is by deficit round robin between transit and local frames. -/
def pickInVl (q : List EgItem) (d : Nat × Nat × Bool) : Option (EgItem × (Nat × Nat × Bool)) :=
  match q.find? (fun i => i.inPort.isSome), q.find? (fun i => i.inPort.isNone) with
  | none, none => none
  | some t, none => some (t, (0, 0, false))
  | none, some l => some (l, (0, 0, false))
  | some t, some l =>
    let (dt, dl, localTurn) := d
    if localTurn then
      let dl := if dl < l.packet.bytes then dl + 4160 else dl
      let left := dl - l.packet.bytes
      some (l, (dt, left, decide (l.packet.bytes ≤ left)))
    else
      let dt := if dt < t.packet.bytes then dt + 4160 else dt
      let left := dt - t.packet.bytes
      some (t, (left, dl, !decide (t.packet.bytes ≤ left)))

/-- Weighted round robin over four VLs from `base`: the VL that sends next and the new place. -/
def pickVl (base : Nat) (rr : Nat × Nat) (ready : Nat → Bool) (weight : Nat → Nat) : Option (Nat × (Nat × Nat)) :=
  if rr.2 ≠ 0 ∧ ready rr.1 then some (rr.1, (rr.1, rr.2 - 1))
  else
    ((List.range 4).map fun k => base + (rr.1 - base + 1 + k) % 4).find? ready |>.map fun v => (v, (v, weight v - 1))

/-- R425: the next frame of a port's egress that can be sent. -/
def State.pickEgress (s : State) (p : Nat) : Option (EgItem × PortX) :=
  let x := s.port p
  let q := SMap.get [] s.lnk.egress p
  let pick (vl : Nat) := pickInVl (q.filter fun i => i.vl = vl) (nth (0, 0, false) x.drr vl)
  let ready (vl : Nat) : Bool := match pick vl with
    | some (i, _) => s.sendable p i
    | none => false
  let w (vl : Nat) : Nat := match s.image with
    | some im => nth 1 im.portsHead.vlWeight vl
    | none => 1
  let done (vl : Nat) (x : PortX) : Option (EgItem × PortX) := (pick vl).map fun (i, d) => (i, { x with drr := modNth x.drr vl fun _ => d })
  match pickVl 4 x.rrHi ready w with
  | some (vl, rr) => done vl { x with rrHi := rr }
  | none =>
    match pickVl 0 x.rrLo ready w with
    | some (vl, rr) => done vl { x with rrLo := rr }
    | none => none

/-- R397, R434: the request that a group is sent on as: its first member with GCNT and, for an atomic, the operand of
all its members. -/
def groupRequest (ms : List Member) (r : BasinReq) : BasinReq :=
  match ms with
  | [] => r
  | m :: rest =>
    let data := if r.opc = 3 then rest.foldl (fun d x => aopResult r.aop d x.req.data) m.req.data else r.data
    { m.req with gcnt := ms.length, data }

/-- What a frame counts against the Basin egress grant of the activity it is sent for; a transit frame counts against
none (R407). -/
def State.chargeFrame (s : State) (p : Nat) (i : EgItem) : State :=
  match i.act with
  | some act => s.spend 2 p act (s.frameCharge p i.packet.bytes)
  | none => s

/-- Send a frame on a port: number it, hold it, take its credit and free a transit frame's blocks. -/
def State.sendOn (s : State) (p : Nat) (i : EgItem) : State :=
  let k := s.connKey p i.packet.dst
  let i := match i.packet with
    | .request r => { i with packet := .request (groupRequest i.members r) }
    | _ => i
  let c := s.conn k
  let b := s.onWire p k i.vl i.packet.hash (s.numberedFrame k c.nextLsn i)
  let s := s.modConn k fun c =>
    { c with nextLsn := c.nextLsn + 1, held := c.held ++ [⟨c.nextLsn, i, s.now, b⟩], ackDue := none, lastTx := s.now,
             consumed := modNth c.consumed i.cls fun v => (v + i.packet.blocks) % 0x100000000 }
  let s := (s.bump (portOff p 0x48) 1).emit (.frame p i.packet.type ([c.nextLsn % 0x1000000, i.vl, i.sub, i.hops] ++ i.packet.fields))
  let s := (s.putWire p b).chargeFrame p i
  let s := match i.packet, i.members with
    | .request r, m :: m' :: ms => { s with bsn := { s.bsn with groups := SMap.put [] s.bsn.groups r.tag (m :: m' :: ms) } }
    | _, _ => s
  s.freeBlocks i.inPort

/-- Send the next frame of a port's egress, if one can be sent. -/
def State.sendNext (s : State) (p : Nat) : State :=
  match s.pickEgress p with
  | none => s
  | some (i, x) =>
    let s := s.modPort p fun _ => x
    ({ s with lnk := { s.lnk with egress := SMap.upd [] s.lnk.egress p fun q => q.erase i } }).sendOn p i

/-! ### Connections that fail (R421 to R423, R446) -/

/-- R420: frames that ACK_LSN covers are released; progress ends a run of replays. -/
def State.ackUpTo (s : State) (k ack : Nat) : State :=
  s.modConn k fun c =>
    let left := c.held.filter fun h => decide (0x800000 ≤ (ack + 0x1000000 - h.lsn % 0x1000000) % 0x1000000)
    { c with held := left, replays := if left.length < c.held.length then 0 else c.replays }

/-- R421, R521: send every held frame again from an LSN on, as it was sent. -/
def State.replayFrom (s : State) (p k lsn : Nat) : State :=
  let c := s.conn k
  let again := c.held.filter fun h => decide ((h.lsn % 0x1000000 + 0x1000000 - lsn % 0x1000000) % 0x1000000 < 0x800000)
  let s := (s.bump (portOff p 0x30) 1).modConn k fun c =>
    { c with replays := c.replays + 1, lastTx := s.now, ackDue := none,
             held := c.held.map fun h => if again.contains h then { h with sent := s.now } else h }
  again.foldl (fun s h => ((((s.bump (portOff p 0x48) 1).emit (.frame p h.frame.packet.type
    ([h.lsn % 0x1000000, h.frame.vl, h.frame.sub, h.frame.hops] ++ h.frame.packet.fields))).putWire p h.wire).chargeFrame p h.frame)) s

/-- R422: send the held frames of a dead connection on their destinations' live choices, in LSN order, ahead of later
frames, and discard the rest. -/
def State.resolve (s : State) (k : Nat) : State :=
  let c := s.conn k
  let s := s.modConn k fun c => { c with held := [], isOpen := false, rxOpen := false, resync := none, failed := true, replays := 0, nOwn := 0 }
  c.held.reverse.foldl (fun s h =>
    let node := h.frame.packet.dst
    if (s.liveChoices node).isEmpty then
      let s := match h.frame.packet with
        | .request _ => s.modNode node fun n => { n with framesDropped := n.framesDropped + 1 }
        | .response _ => s.modNode node fun n => { n with framesDropped := n.framesDropped + 1 }
        | _ => s
      s.noRoute node none
    else s.toEgress { h.frame with inPort := none } true) s

/-- R436, R439, R608: what follows when route choices change: a node that keeps no live choice becomes unreachable and
its loss timer starts; a node that has one again has been reached. -/
def State.routesChanged (s : State) (before : State) : State :=
  match s.image with
  | none => s
  | some im =>
    im.nodes.foldl (fun s n =>
      let was := !(before.liveChoices n.node).isEmpty
      let is := !(s.liveChoices n.node).isEmpty
      if decide (some n.node = s.jvk.boundNode) then s
      else if is then
        if (s.node n.node).reached && (s.node n.node).noRouteSince.isNone then s
        else s.modNode n.node fun x => { x with reached := true, noRouteSince := none }
      else if was then
        let s := s.modNode n.node fun x => { x with noRouteSince := some s.now }
        if s.isDrained n.node then s
        else { s with lnk := { s.lnk with unreach := n.node } }.lnkEvent 1
      else s) s

/-- R422, R423, R446: a failed connection: ask the peer over another route, or resolve at once. -/
def State.failConnNow (s : State) (p k : Nat) : State :=
  let peer := k % 65536
  let s := s.modConn k fun c => { c with failed := true }
  let live := s.liveChoices peer
  if live.isEmpty then
    if (s.port p).state = .retrain then s.modConn k fun x => { x with failed := false, replays := 0 }
    else
      let alloc := 2 * (s.portEntry p).vlAlloc.sum
      let s := if s.portMode p = 1 then s.modNode peer fun n => { n with linkBlocks := n.linkBlocks + alloc } else s
      s.resolve k
  else
    let own := (s.jvk.boundNode).getD 0
    let hops := (s.reg (blkLNK + 0x10)).toNat % 256
    let s := s.modConn k fun c => { c with isOpen := false, rxOpen := false, resync := some s.now, nOwn := 0 }
    s.toEgress { packet := .resyncReq own peer p, vl := 7, sub := 0, dim := 0, hops, at_ := s.now, act := some 0 } false

/-- A failed connection, and what follows for the routes through it. -/
def State.failConn (s : State) (p k : Nat) : State := (s.failConnNow p k).routesChanged s

/-- Put a port into a state (Table 11.8). A port that leaves UP for a state other than RETRAIN breaks its
connections (R422). -/
def State.portTo (s : State) (p : Nat) (st : PortState) : State :=
  let old := (s.port p).state
  let s1 := s.modPort p fun x => { x with state := st, since := s.now, leftRetrain := if old = .retrain then s.now else x.leftRetrain }
  let s1 := if (old = .up ∨ old = .retrain) ∧ st ≠ .up ∧ st ≠ .retrain then
    (s1.portConns p).foldl (fun s k => if (s.conn k).isOpen then s.modConn k fun c => { c with failed := true } else s) s1
  else s1
  if old = .up ∨ st = .up then s1.routesChanged s else s1

end Machine

end Sys2Proof
end

