-- ==== Sys2Proof/Machine/Basin.lean ====
section
/-! DEFINITION. Sys2Proof/Machine/Basin.lean: Basin transactions, Ferry copies and arrival counters
(spec/10_basin_transactions.md). -/
namespace Sys2Proof.Machine
open Sys2Proof

/-- BSN registers of a cove (Table 10.10). -/
def bsnOff (c rel : Nat) : Nat := coveOff blkBSN c rel

/-- R390: the rank of a descriptor's status (R604 places OBJECT_LOST for a waiter of a failed refetch). -/
def Status.basinRank : Status → Nat
  | .nodeLost => 9
  | .targetStopped => 8
  | .objectLost => 7
  | .poisoned => 6
  | .permission => 5
  | .timeout => 4
  | .cancelled => 3
  | .range => 2
  | _ => 1

/-- R390: keep the higher status. -/
def mergeBasin (a b : Status) : Status := if a.basinRank < b.basinRank then b else a

/-- Change one Ferry engine's work. -/
def State.modFerry (s : State) (e : Nat) (f : FerryRun → FerryRun) : State :=
  { s with bsn := { s.bsn with engines := vmod s.bsn.engines e fun r => r.map f } }

/-- A Ferry engine's work. -/
def State.ferry (s : State) (e : Nat) : Option FerryRun := vget none s.bsn.engines e

/-! ### Work of an engine within the package (R386, R392) -/

/-- Whether an operation answers with the old value: FETCH, or CAS whatever FETCH holds (R392). -/
def aopFetches (aop : Nat) : Bool := bit aop 6 || decide (0x11 ≤ bits aop 0 6)

/-- The operand of an ATOMIC descriptor: of the descriptor, or for VEC what stands at SRC_ADDR. -/
def FerryJob.operands (j : FerryJob) (vec : List Byte) : List Byte :=
  let n := aopLen j.aop j.length
  if bit j.aop 7 then vec else if 0x11 ≤ bits j.aop 0 6 then j.operand.take n ++ j.compare.take n else j.operand.take n

/-- Carry out the local end of an engine's job: its store, its atomic operation, or the increment of its counter. -/
def State.localAct (s : State) (e : Nat) (r : FerryRun) : State :=
  let j := r.job
  let note (s : State) (er : Option AccErr) : State := match er with
    | some er => s.modFerry e fun r => { r with status := mergeBasin r.status er.status }
    | none => s
  match j.op with
  | 0x41 => (s.spend 3 0 j.act 1).incArrival (j.dstCtr % 65536)
  | 0x42 =>
    if j.length = 0 then s
    else match s.peek j.cove j.src j.length with
      | .error er => note (s.accErr j.cove unitFerry j.act j.src er) (some er)
      | .ok b =>
        let (s, er) := ((s.touch j.cove unitFerry j.act j.src j.length).spend 3 0 j.act (1 + (j.length + 127) / 128)).poke j.cove unitFerry j.act j.dst b
        note s er
  | _ =>
    let vec := s.peek j.cove j.src j.length
    match (if bit j.aop 7 then vec else .ok []), s.translate j.cove j.dst (aopLen j.aop j.length) .atomic with
    | .error er, _ => note (s.accErr j.cove unitFerry j.act j.src er) (some er)
    | _, .error er => note (s.accErr j.cove unitFerry j.act j.dst er) (some er)
    | .ok v, .ok (.dpa d) =>
      let s := if bit j.aop 7 then s.touch j.cove unitFerry j.act j.src j.length else s
      match (s.spend 3 0 j.act 1).atomicAt j.cove j.act d j.aop j.length (j.operands v) with
      | (s, none) => note s (some (.poisoned d))
      | (s, some old) =>
        if aopFetches j.aop then
          let (s, er) := s.poke j.cove unitFerry j.act j.result old
          note s er
        else s
    | _, .ok (.remote _ _ _) => s

/-! ### Ends of requests (R376 to R380) -/

/-- Give the end of a request to the unit that issued it: status and data. -/
def State.endOwner (s : State) (o : Owner) (opc : Nat) (st : Status) (data : List Byte) : State :=
  match o with
  | .none => s
  | .host _ => if opc = 1 then s.emit (if st = .done then .barData data else .barUR) else s
  | .refetch c va off =>
    { s with flt := { s.flt with refetch := s.flt.refetch.map fun r =>
        if r.cove = c ∧ r.va = va then
          ({ r with outs := r.outs - 1, failed := r.failed || decide (st ≠ .done),
                    parts := if st = .done then r.parts ++ [(off, data)] else r.parts } : Refetch)
        else r } }
  | .ferry e part off =>
    match s.ferry e with
    | none => s
    | some r =>
      let s := s.modFerry e fun r => { r with status := mergeBasin r.status st, stop := r.stop || decide (st ≠ .done),
                                              noCompletion := r.noCompletion || decide (st = .nodeLost) || decide (st = .targetStopped) ||
                                                (decide (opc = 4) && decide (st = .permission)) }
      if opc = 0 then
        let s := s.modFerry e fun r => { r with outs := r.outs - 1 }
        if st = .done then s.localAct e r else s
      else if opc = 4 then s.modFerry e fun r => { r with incs := r.incs - 1 }
      else if opc = 1 then
        s.modFerry e fun r =>
            { r with outs := r.outs - 1, loads := (if st = .done then data.zipIdx.foldl (fun m (b, i) => SMap.put 0 m (off + i) b) r.loads else r.loads) }
      else if opc = 3 ∧ st = .done ∧ part = 0 ∧ aopFetches r.job.aop then
        let (s, e2) := s.poke r.job.cove unitFerry r.job.act r.job.result data
        s.modFerry e fun r => { r with outs := r.outs - 1, status := (match e2 with | some er => mergeBasin r.status er.status | none => r.status) }
      else s.modFerry e fun r => { r with outs := r.outs - 1 }

/-- A credit is returned, and FLAG requests of the source that waited for it take note of the status (R383). -/
def State.noteEnded (s : State) (cove tag : Nat) (st : Status) : State :=
  { s with bsn := { s.bsn with flagHeld := s.bsn.flagHeld.map fun f =>
      if f.tx.req.srcCove = cove ∧ tag ∈ f.waits then { f with waits := f.waits.erase tag, worst := mergeBasin f.worst st } else f } }

/-- Return a credit. -/
def State.freeCredit (s : State) (tag : Nat) : State :=
  { s with bsn := { s.bsn with credits := SMap.put none s.bsn.credits tag none } }

/-- R376: the lowest free credit. -/
def State.freeTag (s : State) : Option Nat := (List.range 16384).find? fun t => (SMap.get none s.bsn.credits t).isNone

/-- R376: credits that a node holds. -/
def State.nodeCredits (s : State) (n : Nat) : Nat := (s.bsn.credits.filter fun x => match x.2 with | some o => o.node = n | none => false).length

/-- R376: whether a request for a node finds a credit. -/
def State.creditFor (s : State) (n : Nat) : Option Nat :=
  if bits (s.reg (blkBSN + 4)).toNat 16 11 ≤ s.nodeCredits n then none else s.freeTag

/-- R424: the request VL of a Basin egress activity. -/
def State.actVl (s : State) (act : Nat) : Nat :=
  match s.image with
  | some im => if act = 64 then 3 else bits im.portsHead.actVl (2 * act) 2
  | none => 0

/-- The key of a pair of cove and node. -/
def pairKey (cove node : Nat) : Nat := cove + 8 * node

/-- Put a packet of an activity on its way: looped back for the own node (R363), or at an egress. -/
def State.dispatchPacket (s : State) (p : Packet) (vl act : Nat) : State :=
  if p.dst = s.ownNode then
    match p with
    | .request r => { s with bsn := { s.bsn with inReq := s.bsn.inReq ++ [(r, 0)] } }
    | .response r => { s with bsn := { s.bsn with inResp := s.bsn.inResp ++ [r] } }
    | _ => s
  else
    let members := match p with
      | .request r => [⟨r⟩]
      | _ => []
    s.toEgress { packet := p, vl, sub := 0, dim := 0, hops := (s.reg (blkLNK + 0x10)).toNat % 256, at_ := s.now, act := some act, members } false

/-- R395: engine-cycles of a request of a Ferry engine. -/
def engineCycles (r : BasinReq) : Nat := if r.opc = 1 ∨ r.opc = 2 then 1 + (r.len + 127) / 128 else 1

/-- R395: charge a request to the Ferry grant of its activity, when an engine issued it. -/
def State.chargeFerry (s : State) (t : TxReq) : State :=
  match t.owner with
  | .ferry _ _ _ => s.spend 3 0 t.act (engineCycles t.req)
  | _ => s

/-- Send an accepted request under a credit with the next SSN of its pair. -/
def State.sendRequest (s : State) (t : TxReq) (tag : Nat) : State :=
  let r := t.req
  let k := pairKey r.srcCove r.dstNode
  let ssn := SMap.get 0 s.bsn.ssnOut k
  let r := { r with tag, ssn, srcNode := s.ownNode, inc := s.lnk.inc, vl := s.actVl t.act }
  let o : Outst := { owner := t.owner, node := r.dstNode, cove := r.srcCove, window := r.window, opc := r.opc, ssn, start := s.now, ssn0 := ssn }
  let s := { s with bsn := { s.bsn with credits := SMap.put none s.bsn.credits tag (some o),
                                        ssnOut := SMap.put 0 s.bsn.ssnOut k ((ssn + 1) % 0x100000000) } }
  let s := s.bump (bsnOff r.srcCove 0x28) r.data.length
  ((s.undeclared 2 t.act).chargeFerry t).dispatchPacket (.request r) r.vl t.act

/-- R372: a STORE with POISON covers whole granules and marks none beyond its length. -/
def poisonOk (r : BasinReq) : Bool :=
  match r.pmask with
  | none => true
  | some m => decide (r.opc = 2) && decide (r.offset % 64 = 0) && decide (r.len % 64 = 0) && decide (r.firstBe = 0xFF) && decide (r.lastBe = 0xFF) &&
    decide (m < 2 ^ (r.len / 64))

/-- Outcome of looking at one waiting request (R363, R372, R376, R380, R383). -/
inductive AcceptHow where
  | no
  | ends (st : Status)
  | hold (waits : List Nat) (worst : Status)
  | send (tag : Nat)
  deriving DecidableEq, Repr

/-- R383: the earlier STOREs, ATOMICs and CTR_INCs of a source whose credits are held: those still to end, and TIMEOUT
when one has timed out. -/
def State.flagWaits (s : State) (cove : Nat) : List Nat × Status :=
  let mine := s.bsn.credits.filter fun x => match x.2 with
    | some o => decide (o.cove = cove) && (decide (o.opc = 2) || decide (o.opc = 3) || decide (o.opc = 4))
    | none => false
  let late (x : Nat × Option Outst) : Bool := match x.2 with
    | some o => o.timedOut
    | none => false
  ((mine.filter fun x => !late x).map Prod.fst, if mine.any late then .timeout else .done)

/-- How the transaction layer acts on a waiting request. -/
def State.acceptHow (s : State) (t : TxReq) : AcceptHow :=
  let r := t.req
  if r.dstNode ≠ s.ownNode ∧ !s.nodeListed r.dstNode then .ends .range
  else if !poisonOk r then .ends .range
  else if (s.node r.dstNode).lost then .ends .nodeLost
  else if s.bsn.flagHeld.any (fun f => f.tx.req.opc ≠ 0 ∧ f.tx.req.srcCove = r.srcCove ∧ f.tx.req.dstNode = r.dstNode) then .no
  else
    let w := s.flagWaits r.srcCove
    if r.flag && (!w.1.isEmpty || decide (w.2 ≠ .done)) then .hold w.1 w.2
    else match s.creditFor r.dstNode with
      | some tag => .send tag
      | none => .no

/-- Act on the first waiting request that can be accepted; a request waits behind earlier ones of its pair. -/
def State.acceptFirst (s : State) : List TxReq → List TxReq → State
  | _, [] => s
  | before, t :: rest =>
    let blocked := before.any fun b => b.req.srcCove = t.req.srcCove ∧ b.req.dstNode = t.req.dstNode
    match if blocked then AcceptHow.no else s.acceptHow t with
    | .no => State.acceptFirst s (before ++ [t]) rest
    | .ends st => ({ s with bsn := { s.bsn with txWait := before ++ rest } }).endOwner t.owner t.req.opc st []
    | .hold waits worst =>
      ({ s with bsn := { s.bsn with txWait := before ++ rest, flagHeld := s.bsn.flagHeld ++ [({ tx := t, waits, worst } : FlagReq)] } }).bump (bsnOff t.req.srcCove 0x20) 1
    | .send tag => (({ s with bsn := { s.bsn with txWait := before ++ rest } }).bump (bsnOff t.req.srcCove 0x20) 1).sendRequest t tag

/-- R376, R383: accept one request: a held FLAG request whose condition is settled first, else a waiting one. A held
entry of opcode 0 is work of an engine within the package (R386), which needs no credit. -/
def State.transactionAccept (s : State) : State :=
  match s.bsn.flagHeld.find? fun f => f.waits.isEmpty ∧ (f.worst ≠ .done ∨ f.tx.req.opc = 0 ∨ (s.creditFor f.tx.req.dstNode).isSome) with
  | some f =>
    let s := { s with bsn := { s.bsn with flagHeld := s.bsn.flagHeld.erase f } }
    if f.worst ≠ .done ∨ f.tx.req.opc = 0 then s.endOwner f.tx.owner f.tx.req.opc f.worst []
    else match s.creditFor f.tx.req.dstNode with
      | some tag => s.sendRequest f.tx tag
      | none => s
  | none => s.acceptFirst [] s.bsn.txWait

/-- TRANSACTION_ACCEPT (R376). -/
def execTransactionAccept (s : State) : Host.Outcome State Fault Refusal := .next (s.whileOn fun s => s.transactionAccept)

/-- Hand a request to the transaction layer. -/
def State.issue (s : State) (t : TxReq) : State := { s with bsn := { s.bsn with txWait := s.bsn.txWait ++ [t] } }

/-- Hand several requests to the transaction layer. -/
def State.issueAll (s : State) (l : List TxReq) : State := { s with bsn := { s.bsn with txWait := s.bsn.txWait ++ l } }

/-- R378, R379: a request without a response ends with TIMEOUT, and a PROBE goes out under its credit. -/
def State.transactionTimeout (s : State) (tag : Nat) : State :=
  match SMap.get none s.bsn.credits tag with
  | none => s
  | some o =>
    if s.now < o.start + 100 * bits (s.reg (blkBSN + 4)).toNat 0 16 then s
    else
      let s := if o.timedOut then s
        else (((s.bump (blkBSN + 0x30) 1).endOwner o.owner o.opc .timeout []).noteEnded o.cove tag .timeout)
      if (s.node o.node).lost then s.freeCredit tag
      else
        let k := pairKey o.cove o.node
        let ssn := SMap.get 0 s.bsn.ssnOut k
        let o' := { o with timedOut := true, ssn, start := s.now, ssn0 := if o.timedOut then o.ssn0 else o.ssn }
        let r : BasinReq := { opc := 5, srcNode := s.ownNode, dstNode := o.node, srcCove := o.cove, window := o.window, tag, ssn, inc := s.lnk.inc }
        ({ s with bsn := { s.bsn with credits := SMap.put none s.bsn.credits tag (some o'),
                                      ssnOut := SMap.put 0 s.bsn.ssnOut k ((ssn + 1) % 0x100000000) } }).dispatchPacket (.request r) 0 0

/-- TRANSACTION_TIMEOUT (R378). -/
def execTransactionTimeout (tag : Fin 16384) (s : State) : Host.Outcome State Fault Refusal := .next (s.whileOn fun s => s.transactionTimeout tag)

/-- What a member of a group receives: a FETCH, the old value with the operands before it (R397). -/
def memberData (ms : List Member) (i : Nat) (old : List Byte) : List Byte :=
  (ms.take i).foldl (fun d m => if m.req.opc = 3 then aopResult m.req.aop d m.req.data else d) old

/-- R433: one response ends one request. -/
def State.endTag (s : State) (r : BasinResp) (tag ssn : Nat) (data : List Byte) : State :=
  match SMap.get none s.bsn.credits tag with
  | some o =>
    if o.node ≠ r.srcNode then s.bump (blkBSN + 0x38) 1
    else if !o.timedOut && decide (o.ssn = ssn) then
      ((s.freeCredit tag).noteEnded o.cove tag (statusOf r.status)).endOwner o.owner o.opc (statusOf r.status) data
    else if o.timedOut && decide (o.ssn = ssn) then s.freeCredit tag
    else if o.timedOut && decide (o.ssn0 = ssn) then (s.freeCredit tag).bump (blkBSN + 0x38) 1
    else s.bump (blkBSN + 0x38) 1
  | none => s.bump (blkBSN + 0x38) 1

/-- R433, R397, R398: a response arrives: it ends its request, or every member of the group it answers. -/
def State.responseArrive (s : State) : State :=
  match s.bsn.inResp with
  | [] => s
  | r :: rest =>
    let s := { s with bsn := { s.bsn with inResp := rest } }
    if (s.node r.srcNode).lost then s
    else match SMap.get [] s.bsn.groups r.tag with
    | [] => s.endTag r r.tag r.ssn r.data
    | ms =>
      if (ms.head?.map fun m => m.req.ssn) = some r.ssn then
        let s := { s with bsn := { s.bsn with groups := SMap.put [] s.bsn.groups r.tag [] } }
        let load := ms.all fun m => m.req.opc = 1
        let s := s.bump (blkBSN + if load then 0x20 else 0x28) (ms.length - 1)
        ms.zipIdx.foldl (fun s (m, i) => s.endTag r m.req.tag m.req.ssn (if r.data.isEmpty then [] else memberData ms i r.data)) s
      else s.endTag r r.tag r.ssn r.data

/-- RESPONSE_ARRIVE (R433). -/
def execResponseArrive (s : State) : Host.Outcome State Fault Refusal := .next (s.whileOn fun s => s.responseArrive)

/-- R380: every request outstanding to a node ends with NODE_LOST; the state, and how many ended. -/
def State.endNode (s : State) (node : Nat) : State × Nat :=
  let mine := s.bsn.credits.filter fun x => match x.2 with | some o => o.node = node | none => false
  (mine.foldl (fun s x => match x.2 with
    | some o =>
      let s := ((s.freeCredit x.1).bump (blkBSN + 0x40) 1).noteEnded o.cove x.1 .nodeLost
      if o.timedOut then s else s.endOwner o.owner o.opc .nodeLost []
    | none => s) s, mine.length)

/-! ### The target (R364 to R375, R430, R431) -/

/-- R371, R372, Table 10.4: whether a request's header is well formed. -/
def headerGood (r : BasinReq) : Bool :=
  let words := decide (r.offset % 8 = 0) && decide (r.len % 8 = 0) && decide (8 ≤ r.len) && decide (r.len ≤ 4096) &&
    decide (r.offset / 4096 = (r.offset + r.len - 1) / 4096) && (decide (r.len ≠ 8) || decide (r.firstBe = r.lastBe))
  !r.reserved && decide (r.gcnt ≠ 0) && decide (r.tag < 16384) && decide (r.srcCove < 8) && poisonOk r &&
    (match r.opc with
    | 1 => words && r.pmask.isNone
    | 2 => words
    | 3 => aopOk r.aop r.len r.offset && r.pmask.isNone
    | 4 => decide (r.len = 0)
    | 5 => decide (r.len = 0)
    | _ => false)

/-- An export window of the image in force. -/
def State.window (s : State) (w : Nat) : ExpWindow :=
  match s.image with
  | some im => SMap.get {} im.windows w
  | none => {}

/-- R366: whether bytes of BAR4 lie in a cove's entries or in its OR alias words. -/
def State.streamBytes (s : State) (c off len : Nat) : Bool :=
  match s.cove c with
  | none => false
  | some d =>
    (decide (128 * d.streamFirst ≤ off) && decide (off + len ≤ 128 * (d.streamFirst + d.streamCount))) ||
    (decide (0x2010000 + d.streamFirst / 8 ≤ off) && decide (off + len ≤ 0x2010000 + (d.streamFirst + d.streamCount) / 8))

/-- The access length of a request at the target. -/
def reqSpan (r : BasinReq) : Nat := if r.opc = 3 then aopLen r.aop r.len else if r.opc = 4 then 0 else r.len

/-- Row 8 of Table 10.2, R372 and R604: the first error of an access at the target. -/
def State.targetErr (s : State) (c va : Nat) (r : BasinReq) : Option (AccErr × Nat) :=
  ((pieces va (reqSpan r)).filterMap fun (a, n) =>
    match s.translate c a n (if r.opc = 1 then .read else if r.opc = 2 then .write else .atomic) with
    | .error e => some (e, a)
    | .ok (.remote _ _ _) => some (.ended .permission, a)
    | .ok (.dpa _) => none).head?

/-- Whether a STORE with POISON would reach host memory (R372). -/
def State.poisonToHost (s : State) (c va : Nat) (r : BasinReq) : Bool :=
  r.pmask.isSome && ((pieces va (reqSpan r)).any fun (a, n) => match s.translate c a n .write with
    | .ok (.dpa d) => decide (s.region d = .host)
    | _ => false)

/-- A cove reset of a cove runs (R592). -/
def State.coveResetting (s : State) (c : Nat) : Bool :=
  match s.hif.running with
  | some r => decide (r.kind = .cove) && decide (r.target = c)
  | none => false

/-- R501: memory has entered self-refresh after a stop. -/
def State.memoryGone (s : State) : Bool := s.stopped && decide (s.weir.stopTick + 4000 ≤ s.now)

/-- Table 10.2: the first failing row and its status, with the access error of row 8. -/
def State.checkRequest (s : State) (r : BasinReq) : Option (Nat × Status × Option (AccErr × Nat)) :=
  let w := s.window r.window
  if s.stopped ∨ s.pstate = 2 ∨ s.pstate = 3 ∨ s.image.isNone ∨ s.coveResetting w.cove then some (1, .targetStopped, none)
  else if !headerGood r then some (2, .range, none)
  else if r.opc = 5 then none
  else if w.kind = 0 then some (3, .permission, none)
  else if r.srcNode < w.srcLo ∨ w.srcHi < r.srcNode then some (4, .permission, none)
  else if (r.opc = 1 ∧ !bit w.perm 0) ∨ (r.opc = 2 ∧ !bit w.perm 1) ∨ (r.opc = 3 ∧ !bit w.perm 2) then some (5, .permission, none)
  else if (if w.kind = 1 then decide (w.size < r.offset + reqSpan r) else decide (r.opc ≠ 4) && !s.streamBytes w.cove r.offset (reqSpan r)) then
    some (6, .permission, none)
  else if r.opc = 4 then
    if w.ctrFirst ≤ r.ctr ∧ r.ctr < w.ctrFirst + w.ctrCount then none else some (7, .permission, none)
  else if w.kind ≠ 1 then none
  else match s.targetErr w.cove (w.baseVa + r.offset) r with
    | some (e, a) => some (8, e.status, some (e, a))
    | none => if s.poisonToHost w.cove (w.baseVa + r.offset) r then some (8, .poisoned, none) else none

/-- The response opcode of a request (Table 10.3). -/
def respOpc : Nat → Nat
  | 1 => 0x81
  | 3 => 0x83
  | _ => 0x82

/-- Send a response (R369, R424), charged to an activity on Basin egress (R375); one to a lost source is dropped
(R380). -/
def State.respond (s : State) (act : Nat) (r : BasinReq) (st : Status) (data : List Byte) : State :=
  if (s.node r.srcNode).lost then s
  else
    let resp : BasinResp :=
      { opc := respOpc r.opc, status := st.code, srcNode := s.ownNode, dstNode := r.srcNode, srcCove := r.srcCove, window := r.window,
        tag := r.tag, ssn := r.ssn, data, inc := s.lnk.inc }
    (s.undeclared 2 act).dispatchPacket (.response resp) (r.vl + 4) act

/-- The compute die a request's memory belongs to: 0 East, 1 West. -/
def State.dieOf (s : State) (r : BasinReq) : Nat :=
  let w := s.window r.window
  match s.translate w.cove (w.baseVa + r.offset) 1 .read with
  | .ok (.dpa d) => if (mereW ≤ d ∧ d < deepDpa) ∨ (s.region d = .hbm ∧ s.fuses.variant.nfit / 2 ≤ s.pchOf d) then 1 else 0
  | _ => 0

/-- R396, R398: a checked request joins a group of its die's egress, or stands behind the rest. -/
def State.toDie (s : State) (r : BasinReq) : State :=
  let die := s.dieOf r
  let q := vget [] s.bsn.dieQ die
  let n := s.bsn.taken
  let cfg := (s.reg (blkBSN + 0xC)).toNat
  let op := bits r.aop 0 6
  let addF := op = 0x03 || op = 0x04
  let stream (x : BasinReq) : Bool := decide (x.srcNode = r.srcNode) && decide (x.srcCove = r.srcCove) && decide (x.window = r.window)
  let free := !(q.any fun g => g.reqs.any fun x => stream x.2)
  let w := s.window r.window
  let can (g : DieGroup) : Bool := free && decide (r.gcnt = 1) && decide (g.win = w) && (!addF || bit w.perm 3) &&
    joinsGroup cfg s.now g.at_ r (g.reqs.map fun x => ⟨x.2⟩) false
  let s := { s with bsn := { s.bsn with taken := n + 1 } }
  match q.find? can with
  | some g => { s with bsn := { s.bsn with dieQ := vmod s.bsn.dieQ die fun q => q.map fun x =>
      if x = g then { x with reqs := x.reqs ++ [(n, r)] } else x } }
  | none => { s with bsn := { s.bsn with dieQ := vmod s.bsn.dieQ die fun q => q ++ [⟨[(n, r)], s.now, w⟩] } }

/-- R379: whether a request of a pair still waits to be applied. -/
def State.pairWaits (s : State) (r : BasinReq) : Bool :=
  ((vget [] s.bsn.dieQ 0) ++ (vget [] s.bsn.dieQ 1) ++ s.bsn.applyQ).any fun g =>
    g.reqs.any fun x => decide (x.2.srcNode = r.srcNode) && decide (x.2.srcCove = r.srcCove)

/-- R367, R379: a request taken in SSN order is checked, then refused, answered or held for its grant. A PROBE is
answered once every earlier request of its pair has been applied, as its ACK has to show. -/
def State.takeRequest (s : State) (r : BasinReq) : State :=
  match s.checkRequest r with
  | some (row, st, err) =>
    let c := (s.window r.window).cove
    let s := match err with
      | some (e, va) => s.accErr c 0x09 0 va e
      | none => s
    let s := if 4 ≤ row then s.bump (bsnOff c 0x38) 1 else s.bump (blkBSN + 0x48) 1
    s.respond 0 r st []
  | none =>
    if r.opc = 5 then
      if s.pairWaits r then { s with bsn := { s.bsn with taken := s.bsn.taken + 1, applyQ := s.bsn.applyQ ++ [⟨[(s.bsn.taken, r)], s.now, {}⟩] } }
      else s.respond 0 r .done []
    else (s.bump (bsnOff (s.window r.window).cove 0x30) 1).toDie r

/-- Whether incarnation `a` is newer than `b` (R412). -/
def newerInc (a b : Nat) : Bool :=
  let d := (a + 65536 - b % 65536) % 65536
  decide (1 ≤ d) && decide (d ≤ 32767)

/-- Whether SSN `a` is ahead of `b` in 32-bit serial arithmetic. -/
def aheadOf (a b : Nat) : Bool :=
  let d := (a + 0x100000000 - b % 0x100000000) % 0x100000000
  decide (1 ≤ d) && decide (d < 0x80000000)

/-- What is kept of a pair of source node and source cove. -/
def State.pairIn (s : State) (k : Nat) : SeqIn := SMap.get {} s.bsn.seqIn k

/-- Change what is kept of a pair. -/
def State.modPair (s : State) (k : Nat) (f : SeqIn → SeqIn) : State :=
  { s with bsn := { s.bsn with seqIn := SMap.upd {} s.bsn.seqIn k f } }

/-- R431: take the held requests that follow NEXT. The fuel bounds the held list. -/
def State.takeHeld (s : State) (k : Nat) : Nat → State
  | 0 => s
  | n + 1 =>
    let p := s.pairIn k
    match p.held.find? fun h => h.1.ssn = p.next with
    | none => s
    | some h =>
      let s := s.modPair k fun p => { p with held := p.held.erase h, next := (p.next + h.1.gcnt) % 0x100000000 }
      State.takeHeld (s.takeRequest h.1) k n

/-- R431, R610, R611: a request arrives at the target. -/
def State.requestArrive (s : State) (r : BasinReq) (die : Nat) : State :=
  let k := pairKey r.srcCove r.srcNode
  let nd := s.node r.srcNode
  if nd.lost ∧ !newerInc r.inc nd.inc then (s.bump (blkFLT + 0x70) 1).modNode r.srcNode fun x => { x with fromLost := x.fromLost + 1 }
  else
    let p := s.pairIn k
    let p : SeqIn :=
      if p.restored then { inc := r.inc, next := r.ssn, known := true }
      else if !p.known || newerInc r.inc p.inc then { inc := r.inc, next := 0, known := true }
      else p
    if newerInc p.inc r.inc || ((s.pairIn k).restored && newerInc nd.inc r.inc) then s
    else
      let s := s.modPair k fun _ => p
      if r.ssn = p.next then
        let s := s.modPair k fun p => { p with next := (p.next + r.gcnt) % 0x100000000 }
        (s.takeRequest r).takeHeld k p.held.length
      else if aheadOf r.ssn p.next then
        if p.held.any fun h => h.1.ssn = r.ssn then s else s.modPair k fun p => { p with held := p.held ++ [(r, s.now, die)] }
      else s.bump (lnkCtr 0x50) 1

/-- BASIN_REQUEST_ARRIVE (R431): the oldest request that has arrived for this node. -/
def execBasinRequestArrive (s : State) : Host.Outcome State Fault Refusal :=
  .next (s.whileOn fun s => match s.bsn.inReq with
    | [] => s
    | (r, die) :: rest => ({ s with bsn := { s.bsn with inReq := rest } }).requestArrive r die)

/-! ### BAR4 bytes (R211 to R214) -/

/-- A byte of BAR4 (Table 06.1). -/
def State.bar4Byte (s : State) (off : Nat) : Byte :=
  if off < 0x2000000 then BitVec.ofNat 8 (s.sget (off / 128) (off % 128) 1)
  else if off < 0x2008000 then
    BitVec.ofNat 8 (((List.range 8).map fun i => if SMap.get false s.ready (8 * (off - 0x2000000) + i) then 2 ^ i else 0).sum)
  else 0

/-- OR a byte into the ready bitmap (R213). -/
def State.orReady (s : State) (byte v : Nat) : State :=
  (List.range 8).foldl (fun s i => if bit v i then { s with ready := SMap.put false s.ready (8 * byte + i) true } else s) s

/-- Write one byte of BAR4 (Table 06.1). -/
def State.bar4Store (s : State) (off : Nat) (b : Byte) : State :=
  if off < 0x2000000 then s.sset (off / 128) (off % 128) 1 b.toNat
  else if 0x2010000 ≤ off ∧ off < 0x2018000 then s.orReady (off - 0x2010000) b.toNat
  else s

/-! ### Application (R373 to R375, R397) -/

/-- The bytes of a store that its byte enables select: offset and byte (R371). -/
def reqEnabled (r : BasinReq) : List (Nat × Byte) :=
  (r.data.zipIdx.filter fun (_, i) =>
    if i < 8 then bit r.firstBe i else if r.len - 8 ≤ i then bit r.lastBe (i - (r.len - 8)) else true).map fun (b, i) => (i, b)

/-- Runs of consecutive bytes: start and bytes. -/
def runsOf : List (Nat × Byte) → List (Nat × List Byte)
  | [] => []
  | (i, b) :: r =>
    match runsOf r with
    | (j, bs) :: t => if i + 1 = j then (i, b :: bs) :: t else (i, [b]) :: (j, bs) :: t
    | [] => [(i, [b])]

/-- Mark a granule poisoned (R260, R372). -/
def State.poisonDpa (s : State) (code dpa : Nat) : State :=
  if (s.region dpa).tagged then
    { s with mem := { s.mem with poison := SMap.put false s.mem.poison (dpa / 64) true, failed := SMap.put [] s.mem.failed (dpa / 64) [],
                                 tag := SMap.put 0 s.mem.tag (dpa / 64) (s.tagOf code) } }
  else s

/-- Mark the granule at a cove-virtual address poisoned, by a write of it for an activity. -/
def State.poisonVa (s : State) (c act va : Nat) : State :=
  match s.translate c va 64 .write with
  | .ok (.dpa d) => (s.chargeHbm c act .write [(va, 64)]).poisonDpa c d
  | _ => s

/-- Apply a store through a MEMORY window: the enabled bytes, and the granules that PMASK marks (R372). -/
def State.applyStore (s : State) (c va act : Nat) (r : BasinReq) : State × Status :=
  let m := r.pmask.getD 0
  let bs := (reqEnabled r).filter fun x => !bit m (x.1 / 64)
  let (s, st) := (runsOf bs).foldl (fun (x : State × Status) w =>
    let (s, e) := x.1.poke c 0x09 act (va + w.1) w.2
    (s, match e with | some e => mergeBasin x.2 e.status | none => x.2)) (s, Status.done)
  ((List.range (r.len / 64)).foldl (fun s i => if bit m i then s.poisonVa c act (va + 64 * i) else s) s, st)

/-- Apply one request of a group's kind to memory: the status, and the data or old value. -/
def State.applyOne (s : State) (w : ExpWindow) (r : BasinReq) : State × Status × List Byte :=
  let c := w.cove
  let va := w.baseVa + r.offset
  match r.opc with
  | 1 =>
    if w.kind = 2 then (s, .done, (List.range r.len).map fun i => s.bar4Byte (r.offset + i))
    else match s.peek c va r.len with
      | .ok b => (s.touch c 0x09 w.activity va r.len, .done, b)
      | .error e => (s.touch c 0x09 w.activity va r.len, e.status, [])
  | 2 =>
    if w.kind = 2 then ((reqEnabled r).foldl (fun s x => s.bar4Store (r.offset + x.1) x.2) s, .done, [])
    else let (s, st) := s.applyStore c va w.activity r; (s, st, [])
  | 3 =>
    match s.translate c va (reqSpan r) .atomic with
    | .ok (.dpa d) =>
      match s.atomicAt c w.activity d r.aop r.len r.data with
      | (s, some old) => (s, .done, old)
      | (s, none) => (s, .poisoned, [])
    | .ok (.remote _ _ _) => (s, .permission, [])
    | .error e => (s.accErr c 0x09 w.activity va e, e.status, [])
  | 4 => (s.incArrival r.ctr, .done, [])
  | _ => (s, .done, [])

/-- Whether an earlier request of a member's pair still waits to be applied (R375). -/
def State.earlierWaits (s : State) (g : DieGroup) : Bool :=
  let others := ((vget [] s.bsn.dieQ 0) ++ (vget [] s.bsn.dieQ 1) ++ s.bsn.applyQ).filter fun x => x ≠ g
  g.reqs.any fun (n, r) => others.any fun o => o.reqs.any fun (m, q) => decide (m < n) && decide (q.srcNode = r.srcNode) && decide (q.srcCove = r.srcCove)

/-- R375, R397, R398: apply a group that has been sent on to memory and answer every member. -/
def State.applyGroup (s : State) (g : DieGroup) : State :=
  match g.reqs with
  | [] => { s with bsn := { s.bsn with applyQ := s.bsn.applyQ.erase g } }
  | (_, r0) :: _ =>
    let w := g.win
    if r0.opc = 1 ∧ w.kind = 1 ∧ (s.poisonPage w.cove (w.baseVa + r0.offset) r0.len).isSome then s
    else
      let s := { s with bsn := { s.bsn with applyQ := s.bsn.applyQ.erase g } }
      let ms := g.reqs.map fun x => (⟨x.2⟩ : Member)
      let op := groupRequest ms r0
      let (s, st, old) := if s.memoryGone then (s, Status.targetStopped, []) else s.applyOne w { op with gcnt := r0.gcnt }
      let s := s.bump (blkBSN + if r0.opc = 1 then 0x20 else 0x28) (ms.length - 1)
      ms.zipIdx.foldl (fun s (m, i) =>
        let wants := m.req.opc = 1 ∨ (m.req.opc = 3 ∧ aopFetches m.req.aop)
        s.respond w.activity m.req st (if st = .done ∧ wants then memberData ms i old else [])) s

/-- BASIN_REQUEST_APPLY (R375): the oldest group, sent on to memory, whose first member is of a source node and cove. -/
def execBasinRequestApply (node : Node) (cove : Cove) (s : State) : Host.Outcome State Fault Refusal :=
  .next (s.whileOn fun s => match s.bsn.applyQ.find? fun g => g.reqs.any fun x => x.2.srcNode = node.toNat ∧ x.2.srcCove = cove.val with
    | none => s
    | some g => if s.earlierWaits g then s else s.applyGroup g)

/-- R397, R399: a Sluice stage sends its next frame, or its next group toward a compute die, on. -/
def State.sluiceSend (s : State) (eg : Nat) : State :=
  if eg < 36 then s.sendNext eg
  else match vget [] s.bsn.dieQ (eg - 36) with
    | [] => s
    | g :: rest => { s with bsn := { s.bsn with dieQ := vmod s.bsn.dieQ (eg - 36) fun _ => rest, applyQ := s.bsn.applyQ ++ [g] } }

/-- SLUICE_GROUP_SEND (R397): egress 0 to 35 toward a port, 36 East, 37 West. -/
def execSluiceGroupSend (eg : Fin 38) (s : State) : Host.Outcome State Fault Refusal := .next (s.whileOn fun s => s.sluiceSend eg)

/-- GAP_SKIP (R432): the oldest held request of a pair has waited GAP_US. -/
def State.gapSkip (s : State) (node cove : Nat) : State :=
  let k := pairKey cove node
  let p := s.pairIn k
  match p.held with
  | [] => s
  | h :: hs =>
    let oldest := hs.foldl (fun t x => Nat.min t x.2.1) h.2.1
    if s.now < oldest + 100 * bits (s.reg (blkLNK + 0x10)).toNat 16 16 then s
    else
      let dist (x : BasinReq × Nat × Nat) : Nat := (x.1.ssn + 0x100000000 - p.next) % 0x100000000
      let low := hs.foldl (fun m x => if dist x < dist m then x else m) h
      let s := s.modPair k fun p => { p with next := low.1.ssn }
      let s := (s.bump (lnkCtr 0x58) 1).ripple ripGapSkip 0 0x80 (node + 65536 * cove) (dist low)
      s.takeHeld k p.held.length

/-- GAP_SKIP (R432). -/
def execGapSkip (node : Node) (cove : Cove) (s : State) : Host.Outcome State Fault Refusal := .next (s.whileOn fun s => s.gapSkip node.toNat cove)

/-! ### Arrival counters (R394) -/

/-- Whether a function reaches an arrival counter: PF0 every one, a VF those of its cove (R403). -/
def State.ctrVisible (s : State) (fn i : Nat) : Bool :=
  decide (fn = 0) || match s.cove (fn - 1) with
    | some d => decide (d.ctrFirst ≤ i) && decide (i < d.ctrFirst + d.ctrCount)
    | none => false

/-- R394: a register write to an arrival counter: one half or both. -/
def State.ctrWrite (s : State) (fn i : Nat) (lo hi : Option Word) : State :=
  if !s.ctrVisible fn i then s
  else
    let old := s.arr i
    let v := (lo.getD (old.setWidth 32)).toNat + 0x100000000 * (hi.getD ((old >>> 32).setWidth 32)).toNat
    { s with arrival := SMap.put 0 s.arrival i (BitVec.ofNat 64 v) }.evalWatches i

/-- ARRIVAL_COUNTER_WRITE (R394). -/
def execArrivalCounterWrite (fn : Fin 9) (ctr : Fin 65536) (lo hi : Option Word) (s : State) : Host.Outcome State Fault Refusal :=
  .next (s.whileOn fun s => s.ctrWrite fn ctr lo hi)

/-! ### Ferry (R385 to R392) -/

/-- FERRY_POST (R385, R112). -/
def State.ferryPost (s : State) (c addr : Nat) (named : Bool) : State :=
  let q := vget [] s.bsn.queues c
  if 64 ≤ q.length then s.queueFlag c (bsnOff c 8) 16
  else
    let running := s.bsn.engines.toList.filterMap fun r => r.bind fun r => if r.job.cove = c ∧ r.job.desc.isSome then some r.job.id else none
    let w : FerryWait := { addr, id := s.bsn.nextId, ahead := running ++ q.map fun x => x.id, named }
    { s with bsn := { s.bsn with queues := vmod s.bsn.queues c fun q => q ++ [w], nextId := s.bsn.nextId + 1 } }

/-- FERRY_POST (R385): a write of BSN POST_HI. -/
def execFerryPost (c : Cove) (lo : Option Word) (hi : Word) (s : State) : Host.Outcome State Fault Refusal :=
  .next (s.whileOn fun s => s.ferryPost c ((lo.getD (s.reg (bsnOff c 0))).toNat + 0x100000000 * hi.toNat) false)

/-- A descriptor has ended: FLAG descriptors behind it take note (R385). -/
def State.ferryEnded (s : State) (c id : Nat) (st : Status) : State :=
  { s with bsn := { s.bsn with queues := vmod s.bsn.queues c fun q => q.map fun w =>
      if id ∈ w.ahead then { w with ahead := w.ahead.erase id, worst := mergeBasin w.worst st } else w } }

/-- The fields of a Ferry descriptor (Table 10.6). -/
def readFerry (c addr id : Nat) (d : List Byte) : FerryJob :=
  { cove := c, op := fld d 0 1, flag := bit (fld d 1 1) 0, chunkLog2 := fld d 2 1, act := fld d 4 1, aop := fld d 5 1,
    length := fld d 8 4, dstCtr := fld d 0xC 4, doneCtr := fld d 0x10 4, src := fld d 0x18 8, dst := fld d 0x20 8,
    result := fld d 0x28 8, operand := (d.drop 0x30).take 16, compare := (d.drop 0x40).take 16, desc := some addr, id }

/-- R386, R665, Table 10.6: whether a descriptor is sound. -/
def ferryOk (addr : Nat) (d : List Byte) : Bool :=
  let j := readFerry 0 addr 0 d
  let rsv := decide (bits (fld d 1 1) 1 7 = 0) && (d.drop 6).take 2 == [0, 0] && ((d.drop 0x50).take 48).all (· == 0) &&
    decide (bits j.dstCtr 17 15 = 0) && decide (bits j.doneCtr 17 15 = 0) && decide (addr % 32 = 0)
  let align := decide (j.src % 8 = 0) && decide (j.dst % 8 = 0)
  rsv && align &&
    (match j.op with
    | 0x41 => decide (12 ≤ j.chunkLog2) && decide (j.chunkLog2 ≤ 20) && decide (j.aop = 0) && decide (j.length ≤ 0x40000000)
    | 0x42 => decide (j.chunkLog2 = 0) && decide (j.aop = 0) && decide (j.length ≤ 4096) &&
        (decide (j.length = 0) || decide (j.dst / 4096 = (j.dst + j.length - 1) / 4096))
    | 0x43 => decide (j.chunkLog2 = 0) && aopOk j.aop j.length j.dst &&
        (bit j.aop 7 || decide (j.length = 0) || decide (j.length = aopLen j.aop 0))
    | _ => false)

/-- Where a destination address of a job leads (R386): the package itself, or a node and window. -/
def State.jobTarget (s : State) (j : FerryJob) (rel n : Nat) (k : AccKind) : Except AccErr Target :=
  match j.basin with
  | some (node, w, off) => .ok (.remote node w (off + rel))
  | none => s.translate j.cove (j.dst + rel) n k

/-- The destination of a target. -/
def Target.dest : Target → Option (Nat × Nat)
  | .dpa _ => none
  | .remote n w _ => some (n, w)

/-- The base whose 4 KiB boundaries cut the destination of a job. -/
def FerryJob.dstBase (j : FerryJob) : Nat := match j.basin with
  | some (_, _, off) => off
  | none => j.dst

/-- Bytes of the present chunk: relative offset and length (R387). -/
def FerryRun.span (r : FerryRun) : Nat × Nat :=
  let size := 2 ^ r.job.chunkLog2
  (r.chunk * size, Nat.min size (r.job.length - r.chunk * size))

/-- Chunks of a COPY (R387). -/
def FerryJob.chunks (j : FerryJob) : Nat := (j.length + 2 ^ j.chunkLog2 - 1) / 2 ^ j.chunkLog2

/-- The source bytes of one granule piece of a chunk: data, a poisoned granule, or an error. -/
inductive Piece where
  | data (b : List Byte)
  | poison
  | bad (va : Nat) (e : AccErr)
  deriving DecidableEq, Repr

/-- Read one granule piece of a job's source; remote pieces come from the loads made. -/
def State.sourcePiece (s : State) (r : FerryRun) (rel n : Nat) : Piece :=
  let va := r.job.src + rel
  match s.translate r.job.cove va n .read with
  | .ok (.remote _ _ _) => .data ((List.range n).map fun i => SMap.get 0 r.loads (rel + i))
  | _ => match s.peekPiece r.job.cove va n with
    | .ok b => .data b
    | .error (.poisoned _) => .poison
    | .error e => .bad va e

/-- End a chunk's issue with a status. -/
def State.ferryStop (s : State) (e : Nat) (st : Status) (noCompletion : Bool) : State :=
  s.modFerry e fun r =>
    { r with status := mergeBasin r.status st, stop := true, issued := true, completed := r.completed || decide (r.job.op ≠ 0x41),
             noCompletion := r.noCompletion || noCompletion }

/-- Write or send one piece of a chunk's data at a relative offset; it stays within 4 KiB of the destination. -/
def State.ferryWrite (s : State) (e : Nat) (r : FerryRun) (rel : Nat) (data : List Byte) (pmask : Option Nat) : State :=
  let j := r.job
  match s.jobTarget j rel data.length .write with
  | .error er => (s.accErr j.cove unitFerry j.act (j.dst + rel) er).ferryStop e er.status (decide (rel = 0))
  | .ok t =>
    if some t.dest ≠ (r.dest.map some).getD none ∧ t.dest ≠ r.dest then s.ferryStop e .range false
    else match t with
      | .dpa _ =>
        let (s, er) := match pmask with
          | none => (s.spend 3 0 j.act (1 + (data.length + 127) / 128)).poke j.cove unitFerry j.act (j.dst + rel) data
          | some _ => (s.poisonVa j.cove j.act (j.dst + rel), none)
        match er with
        | some er => s.ferryStop e er.status false
        | none => s
      | .remote node w off =>
        (s.modFerry e fun r => { r with outs := r.outs + 1 }).issue
          { req := storeReq j.cove node w off false data pmask, owner := .ferry e 0 rel, act := j.act }

/-- R389: move one piece of the source: its granules one after another; poison that falls on whole granules of the
destination outside host memory is written as poison, other poison stops the copy. -/
def State.ferryPieces (s : State) (e : Nat) : List (Nat × Nat) → State
  | [] => s
  | (rel, n) :: rest =>
    match s.ferry e with
    | none => s
    | some r =>
      if r.stop then s
      else
        match s.sourcePiece r rel n with
        | .data b => State.ferryPieces (s.ferryWrite e r rel b none) e rest
        | .bad va er => (s.accErr r.job.cove unitFerry r.job.act va er).ferryStop e er.status false
        | .poison =>
          let s := s.touch r.job.cove unitFerry r.job.act (r.job.src + rel) n
          let host := match s.jobTarget r.job rel n .write with
            | .ok (.dpa d) => decide (s.region d = .host)
            | _ => false
          if n = 64 ∧ (r.job.dstBase + rel) % 64 = 0 ∧ !host then
            let s := s.modFerry e fun r => { r with status := mergeBasin r.status .poisoned }
            State.ferryPieces (s.ferryWrite e r rel (List.replicate 64 0) (some 1)) e rest
          else State.ferryPieces (s.ferryStop e .poisoned false) e rest

/-- Join granule pieces of a source without poison into the STOREs of R371: pieces between 4 KiB boundaries. -/
def State.cleanChunk (s : State) (r : FerryRun) (rel n : Nat) : Bool :=
  (pieces (r.job.src + rel) n).all fun (a, m) => match s.sourcePiece r (a - r.job.src) m with
    | .data _ => true
    | _ => false

/-- Issue the stores of the present chunk. -/
def State.ferryStores (s : State) (e : Nat) (r : FerryRun) : State :=
  let (lo, n) := r.span
  let poisoned := (pieces (r.job.src + lo) n).find? fun (a, m) => match s.sourcePiece r (a - r.job.src) m with
    | .poison => true
    | _ => false
  let waitPage := match poisoned with
    | some (a, _) => if !r.waited && s.refetchable r.job.cove a then some (a / 65536 * 65536) else none
    | none => none
  match waitPage with
  | some p => s.modFerry e fun r => { r with waiting := some p }
  | none =>
    let s := s.modFerry e fun r => { r with issued := true, loading := false }
    let parts := (cut4k r.job.dstBase lo n).flatMap fun (rel, m) =>
      if s.cleanChunk r rel m then [(rel, m)] else (pieces (r.job.src + rel) m).map fun (a, k) => (a - r.job.src, k)
    parts.foldl (fun s (rel, m) =>
      match s.ferry e with
      | none => s
      | some r =>
        if r.stop then s
        else if m ≤ 64 then s.ferryPieces e ((pieces (r.job.src + rel) m).map fun (a, k) => (a - r.job.src, k))
        else
          let b := (pieces (r.job.src + rel) m).flatMap fun (a, k) => match s.sourcePiece r (a - r.job.src) k with
            | .data b => b
            | _ => []
          (s.touch r.job.cove unitFerry r.job.act (r.job.src + rel) m).ferryWrite e r rel b none) s

/-- Begin the present chunk: LOADs of the parts of the source that lie on another node (R387), else its stores. -/
def State.ferryChunk (s : State) (e : Nat) : State :=
  match s.ferry e with
  | none => s
  | some r =>
    if r.stop || r.issued || r.waiting.isSome || decide (r.job.chunks ≤ r.chunk) || (r.cancelled && !r.loading && !r.waited) then s
    else
      let (lo, n) := r.span
      let loads := (cut4k r.job.src lo n).filterMap fun (rel, m) =>
        match s.translate r.job.cove (r.job.src + rel) (Nat.min m 64) .read with
        | .ok (.remote node w off) => some (rel, m, node, w, off)
        | _ => none
      if loads.isEmpty || r.loading then s.ferryStores e r
      else
        let s := s.modFerry e fun r => { r with loading := true, outs := loads.length }
        s.issueAll (loads.map fun (rel, m, node, w, off) =>
          { req := { opc := 1, srcNode := 0, dstNode := node, srcCove := r.job.cove, window := w, len := (m + 7) / 8 * 8, offset := off },
            owner := .ferry e 0 rel, act := r.job.act })

/-- Do the local work of an engine's single operation, held under R383 while it carries FLAG. -/
def State.ferryLocal (s : State) (e : Nat) (j : FerryJob) (flag : Bool) : State :=
  let w := s.flagWaits j.cove
  let pseudo : TxReq := { req := { opc := 0, flag, srcNode := s.ownNode, dstNode := s.ownNode, srcCove := j.cove, window := 0 }, owner := .ferry e 0 0, act := j.act }
  let s := s.modFerry e fun r => { r with outs := r.outs + 1 }
  if flag && (!w.1.isEmpty || decide (w.2 ≠ .done)) then
    { s with bsn := { s.bsn with flagHeld := s.bsn.flagHeld ++ [({ tx := pseudo, waits := w.1, worst := w.2 } : FlagReq)] } }
  else s.endOwner pseudo.owner 0 .done []

/-- R392: a STORE or an ATOMIC of an engine: its one operation, within the package or sent to another node; a source
read that meets poison waits for the refetch of its page (R601). -/
def State.ferrySingle (s : State) (e : Nat) : State :=
  match s.ferry e with
  | none => s
  | some r =>
    let j := r.job
    let store := decide (j.op = 0x42)
    let reads := decide (j.length ≠ 0) && (store || bit j.aop 7)
    let n := if store then Nat.min j.length 64 else aopLen j.aop j.length
    let ended (s : State) (st : Status) : State := s.modFerry e fun r => { r with status := mergeBasin r.status st, completed := true }
    if store && decide (j.length = 0) then (ended s .done).ferryLocal e j j.flag
    else match if reads && !r.waited then s.poisonPage j.cove j.src j.length else none with
    | some p => s.modFerry e fun r => { r with waiting := some p }
    | none =>
      match (if reads then s.peek j.cove j.src j.length else .ok []), s.jobTarget j 0 n (if store then .write else .atomic) with
      | .error er, _ => ended (s.accErr j.cove unitFerry j.act j.src er) er.status
      | _, .error er => ended (s.accErr j.cove unitFerry j.act j.dst er) er.status
      | .ok _, .ok (.dpa _) => (ended s .done).ferryLocal e j j.flag
      | .ok b, .ok (.remote node w off) =>
        let s := if reads then s.touch j.cove unitFerry j.act j.src j.length else s
        let s := s.modFerry e fun r => { r with dest := some (node, w), completed := true, outs := 1 }
        let req : BasinReq := if store then storeReq j.cove node w off j.flag b none
          else { opc := 3, flag := j.flag, aop := j.aop, srcNode := 0, dstNode := node, srcCove := j.cove, window := w,
                 len := if bit j.aop 7 then j.length else n, offset := off, data := j.operands b }
        s.issue { req, owner := .ferry e 0 0, act := j.act }

/-- Begin a job on a free engine. -/
def State.ferryBegin (s : State) (e : Nat) (j : FerryJob) (early : Option Status) : State :=
  let start (r : FerryRun) : State := { s with bsn := { s.bsn with engines := vmod s.bsn.engines e fun _ => some r } }
  match early with
  | some st => start { job := j, status := st, completed := true, stop := true }
  | none =>
    match j.op with
    | 0x41 =>
      if j.length = 0 then
        match s.jobTarget j 0 1 .write with
        | .error er => (start { job := j, status := er.status, completed := true, stop := true }).accErr j.cove unitFerry j.act j.dst er
        | .ok t => start { job := j, dest := t.dest }
      else match s.jobTarget j 0 (Nat.min 8 j.length) .write with
        | .error er => (start { job := j, status := er.status, completed := true, stop := true }).accErr j.cove unitFerry j.act j.dst er
        | .ok t => (start { job := j, dest := t.dest }).ferryChunk e
    | _ => (start { job := j }).ferrySingle e

/-- R385: the first descriptor of a cove's queue that can start. -/
def State.ferryStartable (s : State) (c : Nat) : Option FerryWait :=
  (vget [] s.bsn.queues c).find? fun w => w.ahead.isEmpty ||
    match s.peek c w.addr 128 with
    | .ok d => !bit (fld d 1 1) 0
    | .error _ => true

/-- R385, R386, R667: a free engine takes work: a copy of the Shoal, or the next cove's oldest startable descriptor. -/
def State.ferryStart (s : State) (e : Nat) : State :=
  if (s.ferry e).isSome ∨ s.stopped ∨ 1 < s.pstate then s
  else match s.bsn.direct with
  | j :: js => ({ s with bsn := { s.bsn with direct := js } }).ferryBegin e j none
  | [] =>
    match ((List.range 8).map fun i => (s.bsn.lastCove + 1 + i) % 8).find? fun c => (s.ferryStartable c).isSome with
    | none => s
    | some c =>
      match s.ferryStartable c with
      | none => s
      | some w =>
        let s := { s with bsn := { s.bsn with queues := vmod s.bsn.queues c fun q => q.erase w, lastCove := c } }
        let s := s.touch c unitFerry 0 w.addr 128
        match s.peek c w.addr 128 with
        | .error _ => (s.ferryEnded c w.id .permission).queueFlag c (bsnOff c 8) 17
        | .ok d =>
          let j := { readFerry c w.addr w.id d with named := w.named }
          let early : Option Status :=
            if !ferryOk w.addr d then some .range
            else if j.flag && decide (w.worst ≠ .done) then some w.worst else none
          (s.undeclared 3 j.act).ferryBegin e j early

/-- FERRY_START (R385). -/
def execFerryStart (e : Fin 48) (s : State) : Host.Outcome State Fault Refusal :=
  .next (s.unlessHalted fun s => if s.mayWork (0xA0 + e.val) then s.ferryStart e else s)

/-- Raise the destination counter of a job: at once for a local destination, else by a CTR_INC (R387, R388). -/
def State.ferryInc (s : State) (e : Nat) (r : FerryRun) (part : Nat) (flag : Bool) : State :=
  if !bit r.job.dstCtr 16 then s
  else match r.dest with
    | none => if flag then s.ferryLocal e r.job true else s.localAct e r
    | some (node, w) =>
      (s.modFerry e fun r => { r with incs := r.incs + 1 }).issue
        { req := { opc := 4, flag, srcNode := 0, dstNode := node, srcCove := r.job.cove, window := w, ctr := r.job.dstCtr % 65536 },
          owner := .ferry e part 0, act := r.job.act }

/-- R387: the chunk's stores have ended: send its increment and go on to the next chunk. -/
def State.chunkIncrement (s : State) (e : Nat) : State :=
  match s.ferry e with
  | none => s
  | some r =>
    if r.job.op ≠ 0x41 ∨ r.completed then s
    else if r.loading ∧ !r.issued then (if r.outs = 0 ∧ !r.stop then s.ferryStores e r else s)
    else if !r.issued ∨ r.outs ≠ 0 then s
    else if r.stop then s
    else if r.job.chunks ≤ r.chunk then s
    else
      let s := s.modFerry e fun r => { r with done := r.done + 1, chunk := r.chunk + 1, issued := false, loads := [], waited := false }
      (s.ferryInc e r 1 false).ferryChunk e

/-- CHUNK_INCREMENT (R387). -/
def execChunkIncrement (e : Fin 48) (s : State) : Host.Outcome State Fault Refusal :=
  .next (s.unlessHalted fun s => s.chunkIncrement e)

/-- R388, R389: every chunk has ended and every increment has been answered: send the completion increment. -/
def State.completionIncrement (s : State) (e : Nat) : State :=
  match s.ferry e with
  | none => s
  | some r =>
    if r.job.op ≠ 0x41 ∨ r.completed ∨ r.outs ≠ 0 ∨ r.incs ≠ 0 ∨ r.waiting.isSome then s
    else if !r.stop ∧ r.chunk < r.job.chunks ∧ !(r.cancelled && !r.issued && !r.loading && !r.waited) then s
    else
      let s := s.modFerry e fun r => { r with completed := true }
      if r.noCompletion then s else s.ferryInc e r 2 r.job.flag

/-- COMPLETION_INCREMENT (R388). -/
def execCompletionIncrement (e : Fin 48) (s : State) : Host.Outcome State Fault Refusal :=
  .next (s.unlessHalted fun s => s.completionIncrement e)

/-- Write the end of a posted descriptor: CHUNKS_DONE, STATUS and DONE_CTR (R390). -/
def State.ferryWriteEnd (s : State) (c addr chunks doneCtr : Nat) (st : Status) : State :=
  let s := (s.poke c unitFerry 0 (addr + 0x14) (leBytes 4 chunks)).1
  let s := ((s.poke c unitFerry 0 (addr + 0x03) (leBytes 1 st.code)).1).noteStatus c st
  (s.bump (bsnOff c (if st = .done then 0x40 else 0x48)) 1).applyDone doneCtr

/-- R208: the rank of a descriptor's status; POISONED and TARGET_STOPPED, which R208 does not list,
stand beside OBJECT_LOST and NODE_LOST (DESIGN CHOICE, log 11). -/
def Status.shoalRank : Status → Nat
  | .nodeLost => 10
  | .targetStopped => 9
  | .objectLost => 8
  | .poisoned => 7
  | .timeout => 6
  | .permission => 5
  | .absentUnit => 4
  | .range => 3
  | .replayed => 2
  | _ => 1

/-- R208: keep the higher status. -/
def mergeShoal (a b : Status) : Status := if a.shoalRank < b.shoalRank then b else a

/-- A copy of the Shoal has ended: its router takes note by its destination or source number (R196, R200). -/
def State.shoalCopied (s : State) (router idx id : Nat) (st : Status) : State :=
  { s with routers := vmod s.routers router fun x => match x with
    | .route r =>
      if r.id ≠ id then x
      else .route { r with
        status := if st = .nodeLost then r.status else mergeShoal r.status st,
        dests := modNth r.dests idx fun d =>
          if d.phase = 1 then { d with phase := if st = .nodeLost then 5 else if st = .done ∨ st = .poisoned then 2 else 6, since := s.now } else d }
    | .recv r => if r.id ≠ id then x else .recv { r with returning := r.returning - 1, status := mergeShoal r.status st }
    | .idle => x }

/-- The participant of a descriptor that names no stream: the house, and for work that the loss of a node has ended the
house on that loss's account (R401, R613). -/
def FerryRun.sharer (r : FerryRun) : Nat :=
  match r.status, r.dest, r.job.basin with
  | .nodeLost, some (node, _), _ => lossKey node
  | .nodeLost, none, some (node, _, _) => lossKey node
  | _, _, _ => houseKey

/-- R390: a descriptor ends. -/
def State.ferryFinish (s : State) (e : Nat) : State :=
  match s.ferry e with
  | none => s
  | some r =>
    if !r.completed ∨ r.outs ≠ 0 ∨ r.incs ≠ 0 then s
    else
      let s := { s with bsn := { s.bsn with engines := vmod s.bsn.engines e fun _ => none } }
      let s := if r.job.named then s else s.addShare r.job.cove poolFerry r.sharer 1
      match r.job.desc, r.job.shoal with
      | some addr, _ => (s.ferryWriteEnd r.job.cove addr r.done r.job.doneCtr r.status).ferryEnded r.job.cove r.job.id r.status
      | none, some (rt, idx) => s.shoalCopied rt idx r.job.id r.status
      | none, none => s

/-- FERRY_END (R390). -/
def execFerryEnd (e : Fin 48) (s : State) : Host.Outcome State Fault Refusal :=
  .next (s.unlessHalted fun s => s.ferryFinish e)

/-- R391: cancel a descriptor by its address. -/
def State.ferryCancel (s : State) (c addr : Nat) : State :=
  match (vget [] s.bsn.queues c).find? fun w => w.addr = addr with
  | some w =>
    let s := { s with bsn := { s.bsn with queues := vmod s.bsn.queues c fun q => q.erase w } }
    let done := match s.peek c addr 128 with
      | .ok d => fld d 0x10 4
      | .error _ => 0
    (s.ferryWriteEnd c addr 0 done .cancelled).ferryEnded c w.id .cancelled
  | none =>
    { s with bsn := { s.bsn with engines := s.bsn.engines.map fun (x : Option FerryRun) => x.map (fun (r : FerryRun) =>
        if r.job.cove = c ∧ r.job.desc = some addr ∧ r.job.op = 0x41 ∧ !r.completed then
          ({ r with cancelled := true, status := mergeBasin r.status .cancelled } : FerryRun) else r) } }

/-- FERRY_CANCEL (R391): a write of CANCEL_HI. -/
def execFerryCancel (c : Cove) (lo : Option Word) (hi : Word) (s : State) : Host.Outcome State Fault Refusal :=
  .next (s.unlessHalted fun s => s.ferryCancel c ((lo.getD (s.reg (bsnOff c 0x10))).toNat + 0x100000000 * hi.toNat))

end Sys2Proof.Machine
end

