-- ==== Sys2Proof/Machine/Hbm.lean ====
section
/-! DEFINITION. Sys2Proof/Machine/Hbm.lean: patrol scrub, quarantine, channel map-out and stack temperatures
(spec/07_hbm_memory.md, R265 to R284). -/
namespace Sys2Proof.Machine
open Sys2Proof

/-- Change the HBM controllers. -/
def State.modHbm (s : State) (f : Hbm → Hbm) : State := { s with hbm := f s.hbm }

/-- The physical home of the 64-byte granule `g`: pseudo-channel and offset (R256, R275). -/
def State.granuleHome (s : State) (g : Nat) : Nat × Nat :=
  let h := homeOf s.fuses.variant (s.outsFor (g / 4)) (g / 4)
  (h.1, h.2 + 64 * (g % 4))

/-- Symbols of a granule have failed. Errors of three or more symbols that the decoder takes for fewer leave bytes of
which the spec makes no statement: the granule then reads as no tag's (R259, log 5). -/
def State.failSymbols (s : State) (g : Nat) (f : Flips) : State :=
  let lose (rest : Flips) : State :=
    { s with mem := { s.mem with failed := SMap.put [] s.mem.failed g rest, tag := SMap.put 0 s.mem.tag g (15 + 16 * s.draws) }, draws := s.draws + 1 }
  let keep : State := { s with mem := { s.mem with failed := SMap.put [] s.mem.failed g f } }
  match eccDecode f with
  | .clean => if f.isEmpty then s else lose []
  | .one sym x => if f = [(sym, x)] then keep else lose [(sym, x)]
  | .bad => keep

/-- Take note of the errors that a read of the package finds, in granules that pass a test: failed symbols, and errors
that a stack corrected on-die, each of which counts as one corrected symbol (R259). -/
def State.inject (s : State) (p : Nat → Bool) (found : List CellFault) : State :=
  found.foldl (fun s f =>
    if p f.granule && decide (s.region (64 * f.granule) = .hbm) then
      let s := if f.onDie = 0 then s else s.countCe (s.pchOf (64 * f.granule) / 2) f.onDie
      s.failSymbols f.granule (flipsOf (f.flips.map fun x => (x.1.val, x.2)))
    else s) s

/-- HBM page `page` of a cove, numbered from HBM_BASE: the KV pool first, then the object pool (Table 15.7). -/
def CoveDecl.pageDpa (d : CoveDecl) (page : Nat) : Nat := d.hbmBase + 65536 * page

/-! ### Patrol scrub (R265 to R267) -/

/-- R266: the scrubber decodes one granule under the house activity; a correction is written back (R288). -/
def State.scrubGranule (s : State) (g : Nat) : State :=
  if SMap.get false s.mem.poison g then
    (s.bump (blkMEM + 0x90) 1).bump (blkMEM + 0x1008 + 0x10 * (s.pchOf (64 * g) / 2)) 1
  else (if s.decodeAt g = .clean ∨ s.decodeAt g = .bad then s else s.charge 0 0 0 64).readGranule 8 0 (64 * g)

/-- Whether a 256-byte granule holds data: the bands of map-outs, those of a move in progress among them, hold none of
their own (R272, R275). -/
def State.holdsData (s : State) (g : Nat) : Bool :=
  decide (256 * g < capAfter s.fuses.variant (s.hbm.outs.length + b2n s.hbm.move.isSome))

/-- Channels that the scrubber reads: LIVE, WATCH, and MOVING as far as it has not moved (R265, Table 07.4). -/
def State.scrubs (s : State) (ch : Nat) : Bool := decide (s.chan ch ∈ [ChanState.live, .watch, .moving])

/-- R271: at the end of a pass the counts of the pass become those of the pass before. -/
def State.scrubPassEnd (s : State) : State :=
  s.modHbm fun h => { h with scrubOff := 0, scrubPass := h.scrubPass + 1, cePrev := h.ceNow, uePrev := h.ueNow, ceNow := [], ueNow := [] }

/-- R265, R266: the scrubber reads the granule at its offset of every pseudo-channel whose channel is LIVE or WATCH, or
MOVING and not yet moved, at 64 bytes each (R288). A granule that no symbol of has failed is left as it is. -/
def State.scrubRead (s : State) (found : List CellFault) : State :=
  if !s.hbm.scrubOn ∨ s.hbm.selfRefresh then s
  else
    let here (s : State) (g : Nat) : Bool :=
      let h := s.granuleHome g
      s.holdsData (g / 4) && decide (h.2 = s.hbm.scrubOff) && s.scrubs (h.1 / 2)
    let s := (s.charge 0 0 0 (128 * ((List.range 384).filter s.scrubs).length)).inject (here s) found
    let gs := (SMap.keys s.mem.poison ++ SMap.keys s.mem.failed).dedup.filter fun g => decide (s.region (64 * g) = .hbm) && here s g
    let s := gs.foldl (fun s g => s.scrubGranule g) s
    if 0x40000000 ≤ s.hbm.scrubOff + 64 then s.scrubPassEnd else s.modHbm fun h => { h with scrubOff := h.scrubOff + 64 }

/-- PATROL_SCRUB_READ (R265). -/
def execPatrolScrubRead (found : List CellFault) (s : State) : Host.Outcome State Fault Refusal := .next (s.whileOn fun s => s.scrubRead found)

/-! ### Quarantine (R268, R269) -/

/-- Whether a quarantined page is to be tested: it has not passed, and every channel that held a bad granule of it is
OUT (R269). -/
def State.quarDue (s : State) (c page : Nat) : Bool :=
  let x := vget ({} : SeqCove) s.seq c
  decide (page ∈ x.quar) && !(x.quarOk.any fun y => y.1 = page) && (x.quarBad.all fun y => y.1 ≠ page || decide (s.chan y.2 = .out))

/-- R268: write a page with zeros under its cove's code and read every granule back, at 64 bytes each way. -/
def State.quarantineTest (s : State) (c page : Nat) (found : List CellFault) : State :=
  match s.cove c with
  | none => s
  | some d =>
    if !s.quarDue c page then s
    else
      let a := d.pageDpa page
      let s := ({ s with seq := vmod s.seq c fun x => { x with quarBad := x.quarBad.filter fun y => y.1 ≠ page } } : State).charge 0 0 0 131072
      let s := (List.range 1024).foldl (fun s i => (s.writeGranule c (a + 64 * i) (List.replicate 64 0)).1) s
      let s := s.inject (fun g => decide (a / 64 ≤ g) && decide (g < a / 64 + 1024)) found
      let bad := (List.range 1024).any fun i => s.granuleBad (a / 64 + i)
      let s := (List.range 1024).foldl (fun s i => s.readGranule c 0 (a + 64 * i)) s
      if bad then s else { s with seq := vmod s.seq c fun x => { x with quarOk := x.quarOk ++ [(page, s.hbm.scrubPass + 2)] } }

/-- QUARANTINE_TEST (R268): the page is numbered from HBM_BASE of the cove. -/
def execQuarantineTest (c : Cove) (page : Nat) (found : List CellFault) (s : State) : Host.Outcome State Fault Refusal :=
  .next (s.whileOn fun s => s.quarantineTest c.val page found)

/-- R268: pages of a cove whose test stands and whose patrol pass has ended leave quarantine. -/
def State.quarRelease (s : State) (c : Nat) : State :=
  { s with seq := vmod s.seq c fun x =>
      let done := (x.quarOk.filter fun y => y.2 ≤ s.hbm.scrubPass).map Prod.fst
      { x with quar := x.quar.filter (· ∉ done), quarOk := x.quarOk.filter fun y => y.1 ∉ done } }

/-! ### Map-out (R270 to R282) -/

/-- Spare bands left (R272, R273). -/
def State.spareLeft (s : State) : Nat := s.hbm.spareEnd - s.hbm.outs.length - (if s.hbm.move.isSome then 1 else 0)

/-- R271, R273: a write of MAP_REQ. -/
def State.mapReq (s : State) (w : Word) : State :=
  let ch := w.toNat % 512
  if !w.getLsbD 31 then s
  else match s.chan ch with
    | .live => (s.modHbm fun h => { h with roster := vmod h.roster ch fun _ => .watch }).memEvent 0
    | .watch => if (s.reg (blkMEM + 4)).getLsbD 31 ∨ ch ∈ s.hbm.released then s else s.modHbm fun h => { h with released := h.released ++ [ch] }
    | _ => s.memEvent 2

/-- MAP_REQ (R271). -/
def execMapReq (value : Word) (s : State) : Host.Outcome State Fault Refusal := .next (s.whileOn fun s => s.mapReq value)

/-- The lowest WATCH channel that may move: any under AUTO 1, a released one under AUTO 0 (R273). -/
def State.nextWatch (s : State) : Option Nat :=
  (List.range 384).find? fun ch => decide (s.chan ch = .watch) && ((s.reg (blkMEM + 4)).getLsbD 31 || decide (ch ∈ s.hbm.released))

/-- A warm or device reset runs (Table 07.4). -/
def State.wideReset (s : State) : Bool := s.hif.running.any fun r => r.kind = .warm || r.kind = .device || r.kind = .cold

/-- R275: whatever the granules of a band held is dropped: they are spare, and their homes are to hold other granules. -/
def State.dropBand (s : State) (k : Nat) : State :=
  let keep (dpa : Nat) : Bool := decide (dpa < capAfter s.fuses.variant (k + 1)) || decide (capAfter s.fuses.variant k ≤ dpa)
  { s with mem := { bytes := SMap.filter (fun a _ => keep a) s.mem.bytes, poison := SMap.filter (fun g _ => keep (64 * g)) s.mem.poison,
                    tag := SMap.filter (fun g _ => keep (64 * g)) s.mem.tag, failed := SMap.filter (fun g _ => keep (64 * g)) s.mem.failed } }

/-- Moves pause: a coolant-fail stop, self-refresh, or a warm or device reset (Table 07.4, Table 13.3). -/
def State.movesPause (s : State) : Bool := s.stopped || s.hbm.selfRefresh || s.wideReset

/-- R273, R274: start the move of the lowest eligible channel, with its OUT entry and map-out number written to flash
first. -/
def State.moveStart (s : State) : State :=
  if s.hbm.move.isSome ∨ s.movesPause then s
  else match s.nextWatch with
    | none => s
    | some ch =>
      if s.spareLeft = 0 then s.memEvent 3
      else (s.dropBand s.hbm.outs.length).modHbm fun h =>
        { h with roster := vmod h.roster ch fun _ => .moving, released := h.released.erase ch,
                 flashRoster := h.flashRoster ++ [(ch, h.outs.length)], move := some ⟨ch, h.outs.length, 0⟩ }

/-- MAPOUT_MOVE_START (R273). -/
def execMapoutMoveStart (s : State) : Host.Outcome State Fault Refusal := .next (s.whileOn fun s => s.moveStart)

/-- V of R275, as far as it has not moved: 256-byte granules below the band whose home lies on the channel. -/
def State.unmoved (s : State) (m : MapMove) (g : Nat) : Bool :=
  decide (m.moved ≤ g) && decide (256 * g < capAfter s.fuses.variant (m.k + 1)) && decide (homePch s.fuses.variant s.hbm.outs g / 2 = m.ch)

/-- R277, R279: the granules of V below `bound` move, `n` of them, each at 512 bytes for the house: a granule that no
longer decodes moves as poison. -/
def State.moveTo (s : State) (m : MapMove) (bound n : Nat) : State :=
  let gs := (SMap.keys s.mem.failed).filter fun g => s.unmoved m (g / 4) && decide (g / 4 < bound)
  let s := s.charge 0 0 0 (512 * n)
  (gs.foldl (fun s g => s.readGranule 8 0 (64 * g)) s).modHbm fun h => { h with move := some { m with moved := bound } }

/-- How far the next `n` granules of V reach from granule `g` on, and how many of the `n` are not found within the steps
given. -/
def State.moveSpan (s : State) (m : MapMove) : Nat → Nat → Nat → Nat × Nat
  | 0, g, n => (g, n)
  | _, g, 0 => (g, 0)
  | f + 1, g, n + 1 => if s.unmoved m g then State.moveSpan s m f (g + 1) n else State.moveSpan s m f (g + 1) (n + 1)

/-- R277, R279: what the house's HBM grant of the period that ends has left moves granules of the channel. -/
def State.moveOn (s : State) : State :=
  match s.hbm.move with
  | none => s
  | some m =>
    let a := SMap.get ({} : Arb) s.arbs (arbKey 0 0)
    let n := (SMap.get 0 a.grant 0 - SMap.get 0 a.used 0) / 512
    if s.movesPause ∨ a.period = some (s.now / 800) then s
    else
      let x := s.moveSpan m (capAfter s.fuses.variant (m.k + 1) / 256 - m.moved) m.moved n
      s.moveTo m x.1 (n - x.2)

/-- R277, R278: every granule of the channel has moved; the channel is OUT. -/
def State.moveDone (s : State) (found : List CellFault) : State :=
  match s.hbm.move with
  | none => s
  | some m =>
    if s.movesPause then s
    else
      let s := s.inject (fun g => s.unmoved m (g / 4)) found
      let bound := capAfter s.fuses.variant (m.k + 1) / 256
      let s := s.moveTo m bound ((List.range' m.moved (bound - m.moved)).filter (s.unmoved m)).length
      (s.modHbm fun h => { h with roster := vmod h.roster m.ch fun _ => .out, outs := h.outs ++ [m.ch], move := none }).memEvent 1

/-- MAPOUT_MOVE_DONE (R278). -/
def execMapoutMoveDone (found : List CellFault) (s : State) : Host.Outcome State Fault Refusal := .next (s.whileOn fun s => s.moveDone found)

/-! ### Stack temperatures (R283, R284) -/

/-- Lower bound of a row of Table 07.5. -/
def rowBound : Nat → Nat
  | 0 => 0
  | 1 => 85
  | 2 => 95
  | 3 => 105
  | _ => 110

/-- The row that a temperature reaches going up. -/
def rowUp (t : Nat) : Nat := if 110 ≤ t then 4 else if 105 ≤ t then 3 else if 95 ≤ t then 2 else if 85 ≤ t then 1 else 0

/-- Going down from a row: one row for each lower bound that the temperature has fallen 3 °C below. -/
def rowDown (t : Nat) : Nat → Nat
  | 0 => 0
  | r + 1 => if t + 3 ≤ rowBound (r + 1) then rowDown t r else r + 1

/-- Table 07.5: the refresh rate of a row, in multiples of the nominal one. -/
def rowRefresh (row : Nat) : Nat := if row = 0 then 1 else if row = 1 then 2 else 4

/-- R283, R284: one stack's reading; none is a sensor that does not answer. -/
def StackTemp.read (x : StackTemp) : Option Nat → StackTemp
  | none => { x with row := 4, fail := true, refresh := rowRefresh 4 }
  | some t =>
    let row := Nat.max (rowUp t) (rowDown t x.row)
    { temp := t % 256, row, fail := false, refresh := rowRefresh row }

/-- STACK_TEMP_READ (R283): the readings of the fitted stacks, by number. -/
def execStackTempRead (readings : List (Option Nat)) (s : State) : Host.Outcome State Fault Refusal :=
  .next (s.whileOn fun s => s.modHbm fun h => { h with temps := h.temps.mapIdx fun i (x : StackTemp) =>
    if i < s.fuses.variant.stacks ∧ i < readings.length then x.read (nth none readings i) else x })

end Sys2Proof.Machine
end

