-- ==== Sys2Proof/Machine/Shoal.lean ====
section
/-! DEFINITION. Sys2Proof/Machine/Shoal.lean: expert routing: the ROUTE and RECEIVE descriptors of the two routers
(spec/05_expert_routing.md). -/
namespace Sys2Proof.Machine
open Sys2Proof

/-- SHOAL registers of a cove (Table 05.12). -/
def shoalOff (c rel : Nat) : Nat := coveOff blkSHOAL c rel

/-- Round up to whole granules. -/
def roundUp64 (n : Nat) : Nat := (n + 63) / 64 * 64

/-- The format of a placement's word (Table 05.1). -/
def plainFmt (w : Nat) : Fmt := (fmtOfCode (bits w 0 4)).getD .fp32

/-- Bytes of one dispatched row. -/
def Placement.rowBytes (p : Placement) : Nat := (plainFmt p.xFmtw).rowBytes p.h

/-- REC_BYTES of R181. -/
def Placement.recBytes (p : Placement) : Nat := roundUp64 (128 + p.rowBytes)

/-- RET_STRIDE of Table 05.9. -/
def Placement.retStride (p : Placement) : Nat := roundUp64 ((plainFmt p.retFmtw).rowBytes p.h)

/-- The Basin address under which other nodes reach an address of a cove: through the lowest MEMORY window that holds
it (DESIGN CHOICE, log 12). -/
def State.basinAddr (s : State) (c va : Nat) : Nat :=
  match s.image with
  | none => 0
  | some im =>
    match im.windows.find? fun x => x.2.kind = 1 ∧ x.2.cove = c ∧ x.2.baseVa ≤ va ∧ va < x.2.baseVa + x.2.size with
    | some (i, w) => 0x1000000000000 * s.ownNode + 0x10000000000 * i + (va - w.baseVa)
    | none => 0x1000000000000 * s.ownNode

/-- A router. -/
def State.router (s : State) (r : Nat) : Router := vget .idle s.routers r

/-- Set a router. -/
def State.setRouter (s : State) (r : Nat) (x : Router) : State := { s with routers := vmod s.routers r fun _ => x }

/-- The cove an image assigns a router to (COVE.SHOAL: bit 0 East, bit 1 West). -/
def State.routerCove (s : State) (r : Nat) : Option Nat :=
  (List.range 8).find? fun c => match s.cove c with
    | some d => bit d.shoal r
    | none => false

/-! ### Posting and the ends of descriptors (R210, R112, R13) -/

/-- Write the end of a descriptor: ROUNDS, STATUS and DONE_CTR at its offset. -/
def State.shoalEnd (s : State) (c addr rounds doneOff : Nat) (st : Status) : State :=
  let s := (s.poke c unitShoal 0 (addr + 0x0A) (leBytes 2 rounds)).1
  let s := ((s.poke c unitShoal 0 (addr + 0x09) (leBytes 1 st.code)).1).noteStatus c st
  match s.peekNat c (addr + doneOff) 4 with
  | .ok v => s.applyDone v
  | .error _ => s

/-- R184, R199: a refused descriptor: its status and its DONE_CTR, and nothing else. -/
def State.shoalRefuse (s : State) (c addr doneOff : Nat) (st : Status) : State :=
  let s := ((s.poke c unitShoal 0 (addr + 0x09) (leBytes 1 st.code)).1).noteStatus c st
  match s.peekNat c (addr + doneOff) 4 with
  | .ok v => s.applyDone v
  | .error _ => s

/-- DONE_CTR of a descriptor by its OP. -/
def shoalDone (op : Nat) : Nat := if op = 0x22 then 0x50 else 0x74

/-- R210: post a descriptor. On RVX9-S, which has no router, it completes with ABSENT_UNIT (R13). -/
def State.shoalPost (s : State) (c addr : Nat) : State :=
  let q := vget [] s.shoalQ c
  if s.fuses.variant = .s then
    match s.peek c addr 128, s.canWrite c (addr + 0x09) 1 with
    | .ok d, none => (s.touch c unitShoal 0 addr 128).shoalRefuse c addr (shoalDone (fld d 0 1)) .absentUnit
    | _, _ => s
  else if 64 ≤ q.length then s.queueFlag c (shoalOff c 8) 16
  else { s with shoalQ := vmod s.shoalQ c fun q => q ++ [addr] }

/-- SHOAL_POST (R210): a write of POST_HI. -/
def execShoalPost (c : Cove) (lo : Option Word) (hi : Word) (s : State) : Host.Outcome State Fault Refusal :=
  .next (s.whileOn fun s => s.shoalPost c (s.pair (shoalOff c 0) lo hi))

/-- The oldest descriptor of the cove a free router serves, with its bytes; none when the router may not start. -/
def State.shoalHead (s : State) (r : Nat) : Option (Nat × Nat × Except AccErr (List Byte)) :=
  match s.router r, s.routerCove r with
  | .idle, some c =>
    if s.stopped || decide (1 < s.pstate) then none
    else match vget [] s.shoalQ c with
      | a :: _ => some (c, a, s.peek c a 128)
      | [] => none
  | _, _ => none

/-- Take the oldest descriptor off a cove's queue. -/
def State.shoalPop (s : State) (c : Nat) : State := { s with shoalQ := vmod s.shoalQ c List.tail }

/-! ### Scoring and selection (R186, R187) -/

/-- Sum over a fixed pairwise tree of ascending index, padded to a power of two with zeros. -/
def paddedTree (l : List XNum) : XNum :=
  let n := 2 ^ (Nat.log2 (2 * l.length - 1))
  treeOf add32 .zero (l ++ List.replicate (n - l.length) .zero)

/-- R186: scores of the E logits of a token. -/
def scoresOf (fn : Nat) (z : List XNum) : List XNum :=
  match fn with
  | 0 =>
    let zm := (z.filter fun x => !x.isNan).foldl (fun m x => if m.lt x then x else m) (.inf true)
    let p := z.map fun x => expF (add32 x zm.neg)
    let t := paddedTree p
    p.map fun x => round32 (x.div t)
  | 1 => z.map fun x => round32 ((XNum.fin false 1).div (add32 (.fin false 1) (expF x.neg)))
  | _ => z

/-- Whether the expert at one place is chosen before another (R186). -/
def ranksBefore (a b : XNum × Nat) : Bool :=
  if a.1.isNan then b.1.isNan && decide (a.2 < b.2)
  else if b.1.isNan then true
  else if b.1.lt a.1 then true
  else if a.1.lt b.1 then false
  else decide (a.2 < b.2)

/-- R186: the TOPK experts chosen, in ascending index. -/
def chooseTop (k : Nat) (sel : List XNum) : List Nat :=
  ((sel.zipIdx.filter fun x => ((sel.zipIdx.filter fun y => ranksBefore y x).length < k)).map Prod.snd)

/-- R186: experts and FP32 weights of a token, in choice positions. -/
def gateOf (fn topk : Nat) (norm : Bool) (bias : Option (List XNum)) (scale : XNum) (z : List XNum) : List (Nat × Nat) :=
  let sc := scoresOf fn z
  let sel := match bias with
    | some b => (sc.zip b).map fun (x, y) => add32 x y
    | none => sc
  let es := chooseTop topk sel
  let w := es.map fun e => nth .zero sc e
  let w := if norm then
      match w with
      | [] => []
      | x :: xs =>
        let t := xs.foldl add32 x
        w.map fun y => round32 (y.div t)
    else w
  es.zip (w.map fun x => to32 (mul32 x scale))

/-! ### Rounds and pairs (R189 to R195) -/

/-- Counts of the round in progress: by expert * 4 + instance, and by destination. -/
structure RoundCounts where
  cnt : SMap Nat := []
  slots : SMap Nat := []
  deriving DecidableEq, Repr

/-- R189: place a token's choices in the round: instance and destination of each, and the counts after; none where it
does not fit. -/
def placeToken (p : Placement) (k : RoundCounts) (experts : List Nat) : Option (List (Nat × Nat) × RoundCounts) :=
  let step (acc : Option (List (Nat × Nat) × RoundCounts)) (e : Nat) : Option (List (Nat × Nat) × RoundCounts) :=
    match acc with
    | none => none
    | some (l, k) =>
      let inst := nth [] p.experts e
      match (List.range 4).find? fun i => (nth none inst i).isSome ∧ SMap.get 0 k.cnt (4 * e + i) < p.capE with
      | none => none
      | some i =>
        let d := ((nth none inst i).getD (0, 0)).1
        let k := { k with cnt := SMap.upd 0 k.cnt (4 * e + i) (· + 1) }
        if l.any fun x => x.2 = d then some (l ++ [(i, d)], k)
        else if SMap.get 0 k.slots d < p.rxSlots then some (l ++ [(i, d)], { k with slots := SMap.upd 0 k.slots d (· + 1) })
        else none
  experts.foldl step (some ([], k))

/-- What the assignment of rounds builds up: the round, its counts, and the choices placed (token, round, instance and
destination of each choice). -/
structure Assigned where
  round : Nat := 0
  counts : RoundCounts := {}
  placed : List (Nat × List (Nat × Nat)) := []
  deriving DecidableEq, Repr

/-- R189: the round, and the instance and destination of each choice, of every token in ascending token order. -/
def assignRounds (p : Placement) (tokens : List (List Nat)) : Assigned :=
  tokens.foldl (fun a es =>
    match placeToken p a.counts es with
    | some (l, k) => { a with counts := k, placed := a.placed ++ [(a.round, l)] }
    | none =>
      match placeToken p {} es with
      | some (l, k) => { round := a.round + 1, counts := k, placed := a.placed ++ [(a.round + 1, l)] }
      | none => { a with placed := a.placed ++ [(a.round + 1, [])] }) {}

/-- R190: the pairs of one token: one for each destination that its choices land on. -/
def tokenPairs (p : Placement) (t stream : Nat) (gate : List (Nat × Nat)) (round : Nat) (l : List (Nat × Nat)) : List Pair :=
  let cs := (gate.zip l).zipIdx
  ((l.map Prod.snd).eraseDups).map fun d =>
    let mine := cs.filter fun x => x.1.2.2 = d
    { token := t, dest := d, round, stream,
      mask := (mine.map fun x => 2 ^ x.2).sum,
      locals := mine.map fun x => ((nth none (nth [] p.experts x.1.1.1) x.1.2.1).getD (0, 0)).2,
      weights := mine.map fun x => x.1.1.2,
      experts := mine.map fun x => (x.1.1.1, x.2) }

/-- R194: pairs in ascending order of round and then destination, token order within a run. -/
def sortPairs (rounds ndest : Nat) (ps : List Pair) : List Pair :=
  (List.range rounds).flatMap fun r => (List.range ndest).flatMap fun d => ps.filter fun x => x.round = r ∧ x.dest = d

/-- The pairs of a run with their record numbers. -/
def runOf (ps : List Pair) (r d : Nat) : List (Pair × Nat) := ps.zipIdx.filter fun x => x.1.round = r ∧ x.1.dest = d

/-- Runs that hold records, in order: round, destination, count, first record. -/
def runTable (rounds ndest : Nat) (ps : List Pair) : List (Nat × Nat × Nat × Nat) :=
  (List.range rounds).flatMap fun r => (List.range ndest).filterMap fun d =>
    match runOf ps r d with
    | [] => none
    | x :: xs => some (r, d, xs.length + 1, x.2)

/-- Table 05.7: a record header. -/
def recordHeader (node : Nat) (x : Pair) : List Byte :=
  let n := x.locals.length
  leBytes 2 node ++ leBytes 2 x.mask ++ leBytes 4 x.token ++ leBytes 4 x.stream ++ leBytes 2 x.round ++ leBytes 1 n ++
    List.replicate 17 0 ++ x.locals.flatMap (leBytes 2) ++ List.replicate (32 - 2 * n) 0 ++
    x.weights.flatMap (leBytes 4) ++ List.replicate (64 - 4 * n) 0

/-- The 16-byte run table entry of R195. -/
def runEntry (e : Nat × Nat × Nat × Nat) : List Byte :=
  leBytes 2 e.1 ++ leBytes 1 e.2.1 ++ [0] ++ leBytes 4 e.2.2.1 ++ leBytes 4 e.2.2.2 ++ List.replicate 4 0

/-! ### ROUTE (R183 to R197, R201) -/

/-- R184, R22, R665: whether a ROUTE descriptor is sound under its placement. -/
def routeOk (addr c : Nat) (d : List Byte) (p : Placement) : Bool :=
  let t := fld d 4 4
  let topk := fld d 3 1
  let logit := fld d 0x1C 4
  let out := readFmtWord .output (fld d 0x6C 4) 0
  let outOk := match out with
    | some w => decide (w.gainMode = 0) && !w.round && w.fmt.lengthOk p.h && decide (w.fmt.rowBytes p.h ≤ fld d 0x68 4) &&
        (!w.fmt.isBlock || decide (fld d 0x68 4 % w.fmt.groupBytes = 0))
    | none => false
  decide (t ≤ 16384) && decide (1 ≤ topk) && decide (topk ≤ 16) && decide (topk ≤ p.e) && decide (p.cove = c) &&
    (decide (logit = 0) || decide (logit = 1)) && decide ((plainFmt logit).rowBytes p.e ≤ fld d 0x18 4) &&
    decide (p.rowBytes ≤ fld d 0x30 4) && outOk &&
    decide (16 * (p.dests.length + t * topk) + t * topk * p.recBytes ≤ fld d 0x50 8) &&
    decide (fld d 2 1 ≤ 2) && decide (bits (fld d 1 1) 2 6 = 0) && rsvZero d 0x72 2 && rsvZero d 0x78 8 &&
    decide (bits (fld d 0x74 4) 17 15 = 0) && decide (addr % 32 = 0)

/-- The gates of every token: experts and weights, and whether the logits hold a NaN; or the error met. -/
def State.routeGates (s : State) (c : Nat) (d : List Byte) (p : Placement) : Except (Nat × AccErr) (List (List (Nat × Nat) × Bool)) :=
  let f := plainFmt (fld d 0x1C 4)
  let flags := fld d 1 1
  match s.readRows c f (fld d 0x10 8) (fld d 0x18 4) 0 p.e (List.range (fld d 4 4)),
        (if bit flags 1 then s.readWords c (fld d 0x20 8) p.e else .ok []) with
  | .error e, _ => .error e
  | _, .error e => .error e
  | .ok rows, .ok bias =>
    .ok (rows.map fun row =>
      let z := (List.range p.e).map fun k => rowElem f row (.fin false 1) k
      (gateOf (fld d 2 1) (fld d 3 1) (bit flags 0) (if bit flags 1 then some (bias.map numOf32) else none) (numOf32 (fld d 0x34 4)) z,
        z.any XNum.isNan))

/-- The pages whose refetch a starting ROUTE waits for: of its logits, bias and row map (R601), and of the X rows that it
packs (R206). -/
def State.routeWaits (s : State) (c : Nat) (d : List Byte) (p : Placement) : List Nat :=
  let t := fld d 4 4
  (((List.range t).map fun i => (fld d 0x10 8 + i * fld d 0x18 4, (plainFmt (fld d 0x1C 4)).rowBytes p.e)) ++
    (if bit (fld d 1 1) 1 then [(fld d 0x20 8, 4 * p.e)] else []) ++ [(fld d 0x38 8, 4 * t)] ++
    ((List.range t).map fun i => (fld d 0x28 8 + i * fld d 0x30 4, p.rowBytes))).filterMap fun x => s.poisonPage c x.1 x.2

/-- Where the records of a ROUTE start: behind its run table (R195). -/
def recordBase (d : List Byte) (entries : Nat) : Nat := fld d 0x48 8 + 16 * entries

/-- Pack one record: header, the row copied from X, zeros (R195); a row that cannot be read is sent as zeros and its
pair counts as returned with zeros (R206). The pair is a share of its token's stream (R202). -/
def State.packRecord (s : State) (c : Nat) (d : List Byte) (p : Placement) (base i : Nat) (x : Pair) : State × Pair × Option Status :=
  let a := fld d 0x28 8 + x.token * fld d 0x30 4
  let s := (s.touch c unitShoal 0 a p.rowBytes).addShare c poolShoal (s.streamKey c x.stream) 1
  let at_ := base + i * p.recBytes
  let pad (b : List Byte) : List Byte := recordHeader s.ownNode x ++ b ++ List.replicate (p.recBytes - 128 - p.rowBytes) 0
  let x := { x with packed := true }
  let gone : State × Pair × Option Status :=
    let s := (s.poke c unitShoal 0 at_ (pad (List.replicate p.rowBytes 0))).1
    (if x.zero then s else s.bump (shoalOff c 0x48) 1, { x with zero := true }, some .objectLost)
  match s.peek c a p.rowBytes with
  | .ok b =>
    match s.poke c unitShoal 0 at_ (pad b) with
    | (s, e) => (s, x, e.map AccErr.status)
  | .error (.poisoned _) => gone
  | .error .objLost => gone
  | .error e => (s, x, some e.status)

/-- Pack every record. -/
def State.packAll (s : State) (c : Nat) (d : List Byte) (p : Placement) (base : Nat) : List (Pair × Nat) → State × List Pair × Status
  | [] => (s, [], .done)
  | (x, i) :: rest =>
    match s.packRecord c d p base i x with
    | (s, x, st) =>
      match State.packAll s c d p base rest with
      | (s, xs, st2) => (s, x :: xs, mergeShoal (st.getD .done) st2)

/-- Pack the records of a run that are not packed yet (R204). -/
def State.packRun (s : State) (r : RouteRun) (p : Placement) (round dest : Nat) : State × RouteRun :=
  (r.pairs.zipIdx.filter fun x => x.1.round = round ∧ x.1.dest = dest ∧ !x.1.packed).foldl (fun (a : State × RouteRun) x =>
    match a.1.packRecord r.cove r.desc p r.base x.2 x.1 with
    | (s, y, st) => (s, { a.2 with pairs := modNth a.2.pairs x.2 fun _ => y, status := mergeShoal a.2.status (st.getD .done) })) (s, r)

/-- The pages that the records still to be packed for a run wait for (R206). -/
def State.packWaits (s : State) (r : RouteRun) (p : Placement) (round dest : Nat) : List Nat :=
  (r.pairs.filter fun x => x.round = round ∧ x.dest = dest ∧ !x.packed).filterMap fun x =>
    s.poisonPage r.cove (fld r.desc 0x28 8 + x.token * fld r.desc 0x30 4) p.rowBytes

/-- The copy of the records of a run, which carries the number of its ROUTE (R196). -/
def runCopy (r : RouteRun) (rt i first count : Nat) (p : Placement) : FerryJob :=
  let x := nth (0, 0, 0) p.dests i
  let to_ := basinParts x.2.2
  { cove := r.cove, op := 0x41, flag := false, chunkLog2 := 20, act := 0, aop := 0, length := count * p.recBytes, dstCtr := x.2.1 + 65536,
    doneCtr := 0, src := r.base + first * p.recBytes, dst := 0, result := 0, operand := [], compare := [], desc := none, id := r.id,
    shoal := some (rt, i), basin := some (to_.1, to_.2.1, to_.2.2 + 64) }

/-- R196: issue the copy of the present run to a destination; a run with no records has none. A run whose records wait
for a refetch stays due (R206). -/
def State.sendRun (s : State) (rt : Nat) (r : RouteRun) (p : Placement) (i : Nat) : State × RouteRun :=
  let x := nth ({} : DestRun) r.dests i
  if !(s.packWaits r p x.round i).isEmpty then (s, r)
  else
    match s.packRun r p x.round i with
    | (s, r) =>
      let phase (n : Nat) : RouteRun := { r with dests := modNth r.dests i fun x => { x with phase := n, since := s.now } }
      match runOf r.pairs x.round i with
      | [] => (s, phase 2)
      | y :: ys =>
        (({ s with bsn := { s.bsn with direct := s.bsn.direct ++ [runCopy r rt i y.2 (ys.length + 1) p] } }).bump (shoalOff r.cove 0x28) (ys.length + 1), phase 1)

/-- Send the runs of every destination whose run is due (R196, R197). -/
def State.sendDue (s : State) (rt : Nat) (r : RouteRun) (p : Placement) : State × RouteRun :=
  (List.range p.dests.length).foldl (fun (a : State × RouteRun) i =>
    if (nth ({} : DestRun) a.2.dests i).phase = 0 then a.1.sendRun rt a.2 p i else a) (s, r)

/-- End a ROUTE: ROUNDS, STATUS and DONE_CTR (R201); a descriptor with an error sends nothing. -/
def State.routeEnd (s : State) (rt : Nat) (r : RouteRun) : State :=
  (s.shoalEnd r.cove r.addr r.rounds 0x74 r.status).setRouter rt .idle

/-- The number of a work has been given out. -/
def State.nextWork (s : State) : State := { s with bsn := { s.bsn with nextId := s.bsn.nextId + 1 } }

/-- R190, R194: the pairs of a batch as it was assigned, in the order of their records. -/
def Assigned.pairs (a : Assigned) (p : Placement) (gates : List (List (Nat × Nat) × Bool)) (streams : List Nat) : List Pair :=
  sortPairs (a.round + 1) p.dests.length
    (((gates.zip a.placed).zipIdx).flatMap fun x => tokenPairs p x.2 (nth 0 streams x.2) x.1.1.1 x.1.2.1 x.1.2.2)

/-- The choices of a batch as they are written (R187). -/
def Assigned.choices (a : Assigned) (gates : List (List (Nat × Nat) × Bool)) : List Byte :=
  (gates.zip a.placed).flatMap fun x => (x.1.1.zip x.2.2).flatMap fun y => leBytes 2 y.1.1 ++ leBytes 1 y.2.2 ++ leBytes 1 y.2.1 ++ leBytes 4 y.1.2

/-- R184 to R196: start a ROUTE descriptor. -/
def State.routeBegin (s : State) (rt c addr : Nat) (d : List Byte) (p : Placement) : State :=
  let t := fld d 4 4
  if t = 0 then s.shoalEnd c addr 0 0x74 .done
  else
    let s := (List.range t).foldl (fun s i => s.touch c unitShoal 0 (fld d 0x10 8 + i * fld d 0x18 4) ((plainFmt (fld d 0x1C 4)).rowBytes p.e)) s
    match s.routeGates c d p, s.readWords c (fld d 0x38 8) t with
    | .error e, _ => (s.accErr c unitShoal 0 e.1 e.2).shoalEnd c addr 0 0x74 e.2.status
    | _, .error e => (s.accErr c unitShoal 0 e.1 e.2).shoalEnd c addr 0 0x74 e.2.status
    | .ok gates, .ok streams =>
      let a := assignRounds p (gates.map fun g => g.1.map Prod.fst)
      let rounds := a.round + 1
      let n := p.dests.length
      let ps := a.pairs p gates streams
      let table := runTable rounds n ps
      let (s, e1) := s.poke c unitShoal 0 (fld d 0x40 8) (a.choices gates)
      let (s, e2) := s.poke c unitShoal 0 (fld d 0x48 8) (table.flatMap runEntry)
      let (s, ps, st) := s.packAll c d p (recordBase d table.length) ps.zipIdx
      let st := mergeShoal st (mergeShoal ((e1.map AccErr.status).getD .done) ((e2.map AccErr.status).getD .done))
      let s := (s.bump (shoalOff c 0x20) t).bump (shoalOff c 0x30) (rounds - 1)
      let s := s.bump (shoalOff c 0x38) ((a.placed.map fun x => (x.2.filter fun y => y.1 ≠ 0).length).sum)
      let s := s.bump (shoalOff c 0x40) (gates.filter fun g => g.2).length
      if st = .permission then s.shoalEnd c addr rounds 0x74 .permission
      else
        let dests := (List.range n).map fun i =>
          ({ base := s.arr (fld d 0x70 2 + i), last := ((ps.filter fun x => x.dest = i).map fun x => x.round).foldl Nat.max 0,
             phase := if (s.node (nth (0, 0, 0) p.dests i).1).lost then 5 else 0, since := s.now } : DestRun)
        let r : RouteRun :=
          { cove := c, addr, desc := d, place := fld d 8 1, pairs := ps, rounds, dests, status := st, id := s.bsn.nextId, base := recordBase d table.length }
        let (s, r) := (s.nextWork).sendDue rt r p
        s.setRouter rt (.route r)

/-! ### Loss of a destination (R204) -/

/-- R204: the lowest instance of an expert on a live destination other than a lost one: its number, destination and
local index. -/
def State.liveInstance (s : State) (p : Placement) (e lost : Nat) : Option (Nat × Nat × Nat) :=
  ((nth [] p.experts e).zipIdx.filterMap fun x => x.1.map fun y => (x.2, y)).find? fun x =>
    x.2.1 ≠ lost ∧ !(s.node (nth (0, 0, 0) p.dests x.2.1).1).lost

/-- R204: the new pairs that take the place of a pair: one for each destination that its experts now land on, with the
choices that go to replicas; none where an expert has no live instance. -/
def State.newPairs (s : State) (p : Placement) (x : Pair) : Option (List Pair × Nat) :=
  let homes := x.experts.map fun e => s.liveInstance p e.1 x.dest
  if homes.all Option.isSome then
    let cs := x.experts.zip (x.weights.zip (homes.filterMap id))
    some (((cs.map fun y => y.2.2.2.1).eraseDups).map fun d =>
      let mine := cs.filter fun y => y.2.2.2.1 = d
      ({ token := x.token, dest := d, round := 0, stream := x.stream, zero := x.zero, mask := (mine.map fun y => 2 ^ y.1.2).sum,
         locals := mine.map fun y => y.2.2.2.2, weights := mine.map fun y => y.2.1, experts := mine.map fun y => y.1 } : Pair),
      (cs.filter fun y => y.2.2.1 ≠ 0).length)
  else none

/-- R204: a pair that a lost destination has not returned: new pairs in its place, or lost with its token. `fresh`
gathers the new pairs. -/
def State.rehomePair (s : State) (p : Placement) (r : RouteRun) (fresh : List Pair) (i : Nat) (x : Pair) : State × RouteRun × List Pair :=
  match s.newPairs p x with
  | some (add, replicas) =>
    (s.bump (shoalOff r.cove 0x38) replicas, { r with pairs := modNth r.pairs i fun y => { y with returned := true, mask := 0 } }, fresh ++ add)
  | none =>
    ((s.bump (shoalOff r.cove 0x48) 1).setSx x.stream fun y => { y with nodeLost := true },
      { r with pairs := modNth r.pairs i fun y => { y with lost := true }, status := mergeShoal r.status .nodeLost }, fresh)

/-- Rounds for the new pairs of one destination, behind the last it has: a further round where RX_SLOTS or CAP_E is used
up. What is kept: the round, its records, and its tokens by local expert. -/
def placeFresh (p : Placement) : Nat → Nat → SMap Nat → List Pair → List Pair
  | _, _, _, [] => []
  | r, n, cnt, x :: xs =>
    let room := decide (n < p.rxSlots) && x.locals.all fun l => decide (SMap.get 0 cnt l < p.capE)
    let r' := if room then r else r + 1
    let cnt' := x.locals.foldl (fun m l => SMap.upd 0 m l (· + 1)) (if room then cnt else [])
    { x with round := r' } :: placeFresh p r' (if room then n + 1 else 1) cnt' xs

/-- R204: what the loss of one destination does to a running ROUTE: new pairs go out in additional rounds, their records
behind those packed before. -/
def State.destLost (s : State) (rt : Nat) (r : RouteRun) (p : Placement) (dest : Nat) : State :=
  let todo := r.pairs.zipIdx.filter fun x => x.1.dest = dest ∧ !x.1.returned ∧ !x.1.lost
  let (s, r, fresh) := todo.foldl (fun (a : State × RouteRun × List Pair) x => a.1.rehomePair p a.2.1 a.2.2 x.2 x.1) (s, r, [])
  let placed := (List.range p.dests.length).map fun d =>
    placeFresh p ((nth ({} : DestRun) r.dests d).last + 1) 0 [] (fresh.filter fun x => x.dest = d)
  let dests := r.dests.zipIdx.map fun (x, i) =>
    if i = dest then { x with phase := 5 }
    else match (nth [] placed i).getLast? with
      | none => x
      | some y => if x.phase = 4 then { x with last := y.round, round := x.last + 1, phase := 0 } else { x with last := y.round }
  let rounds := (placed.flatten.map fun x => x.round + 1).foldl Nat.max r.rounds
  let s := s.bump (shoalOff r.cove 0x30) (rounds - r.rounds)
  let (s, r) := s.sendDue rt { r with dests, rounds, pairs := r.pairs ++ placed.flatten } p
  s.setRouter rt (.route r)

/-- R204, R205: a node is recorded lost: running ROUTEs and RECEIVEs take note. -/
def State.shoalNodeLost (s : State) (node : Nat) : State :=
  (List.range 2).foldl (fun s rt =>
    match s.router rt with
    | .idle => s
    | .recv r =>
      match s.placement r.place with
      | none => s
      | some p => s.setRouter rt (.recv { r with srcs := r.srcs.zipIdx.map fun (x, i) => if (nth (0, 0) p.srcs i).1 = node then { x with gone := true } else x })
    | .route r =>
      match s.placement r.place with
      | none => s
      | some p => (p.dests.zipIdx.filter fun x => x.1.1 = node).foldl (fun s x =>
          match s.router rt with
          | .route r => s.destLost rt r p x.2
          | _ => s) s) s

/-- ROUTE_START (R184): a router takes the ROUTE at the head of its cove's queue; a descriptor with another OP than
ROUTE or RECEIVE is refused, and one that cannot be read leaves the queue (R667). -/
def State.routeStart (s : State) (rt : Nat) : State :=
  match s.shoalHead rt with
  | none => s
  | some (c, addr, rd) =>
    match rd with
    | .error _ => ((s.touch c unitShoal 0 addr 128).shoalPop c).queueFlag c (shoalOff c 8) 17
    | .ok d =>
      if fld d 0 1 = 0x22 then s
      else
        let s := (s.touch c unitShoal 0 addr 128).shoalPop c
        match s.placement (fld d 8 1) with
        | none => s.shoalRefuse c addr 0x74 .range
        | some p =>
          if fld d 0 1 ≠ 0x21 ∨ !routeOk addr c d p then s.shoalRefuse c addr 0x74 .range
          else if (s.routeWaits c d p).isEmpty then
            let s := s.routeBegin rt c addr d p
            (p.dests.zipIdx.filter fun x => (s.node x.1.1).lost).foldl (fun s x =>
              match s.router rt with
              | .route r => s.destLost rt r p x.2
              | _ => s) s
          else { s with shoalQ := vmod s.shoalQ c fun q => addr :: q }

/-- ROUTE_START (R184): router 0 East, 1 West. -/
def execRouteStart (rt : Fin 2) (s : State) : Host.Outcome State Fault Refusal :=
  .next (s.unlessHalted fun s => if s.mayWork (0xD0 + rt.val) then s.routeStart rt else s)

/-- The return increments that a run owes (R197). -/
def returnOwed (stride count : Nat) : Nat := if count = 0 then 1 else (count * stride + 0x100000 - 1) / 0x100000 + 1

/-- RUN_COPY_DONE (R196): write the round header of a run whose copy has completed, with one store. -/
def State.runCopyDone (s : State) (rt i : Nat) : State :=
  match s.router rt with
  | .route r =>
    match s.placement r.place with
    | none => s
    | some p =>
      let x := nth ({} : DestRun) r.dests i
      if x.phase ≠ 2 ∨ p.dests.length ≤ i then s
      else
        let mine := runOf r.pairs x.round i
        let first := (mine.head?.map Prod.snd).getD 0
        let (_, _, rx) := nth (0, 0, 0) p.dests i
        let (node, w, off) := basinParts rx
        let h := leBytes 4 mine.length ++ leBytes 2 x.round ++ leBytes 2 (b2n (decide (x.round = x.last))) ++ leBytes 2 s.ownNode ++
          leBytes 2 (fld r.desc 0x70 2 + i) ++ leBytes 4 (fld r.desc 0x0C 4) ++
          leBytes 8 (s.basinAddr r.cove (fld r.desc 0x58 8 + first * p.retStride)) ++ leBytes 4 p.retStride ++ List.replicate 36 0
        let s := s.issue { req := storeReq r.cove node w off false h none, owner := .none }
        s.setRouter rt (.route { r with dests := modNth r.dests i fun x =>
          { x with phase := 3, since := s.now, owed := x.owed + returnOwed p.retStride mine.length } })
  | _ => s

/-- RUN_COPY_DONE (R196). -/
def execRunCopyDone (rt : Fin 2) (dest : Fin 256) (s : State) : Host.Outcome State Fault Refusal :=
  .next (s.unlessHalted fun s => s.runCopyDone rt dest)

/-- RUN_RETURN_DONE (R197): the return of the present run has completed: the next run goes out. A run that waited for a
refetch goes out now, if the refetch has ended (R206). -/
def State.runReturnDone (s : State) (rt i : Nat) : State :=
  match s.router rt with
  | .route r =>
    match s.placement r.place with
    | none => s
    | some p =>
      let x := nth ({} : DestRun) r.dests i
      if x.phase = 0 then
        let (s, r) := s.sendDue rt r p
        s.setRouter rt (.route r)
      else if x.phase ≠ 3 ∨ (s.arr (fld r.desc 0x70 2 + i) - x.base).toNat < x.owed then s
      else
        let r := { r with pairs := r.pairs.map fun (y : Pair) => if y.dest = i ∧ y.round = x.round then ({ y with returned := true } : Pair) else y }
        let r := { r with dests := modNth r.dests i fun x =>
          if x.round < x.last then { x with round := x.round + 1, phase := 0 } else { x with phase := 4 } }
        let (s, r) := s.sendDue rt r p
        s.setRouter rt (.route r)
  | _ => s

/-- RUN_RETURN_DONE (R197). -/
def execRunReturnDone (rt : Fin 2) (dest : Fin 256) (s : State) : Host.Outcome State Fault Refusal :=
  .next (s.unlessHalted fun s => s.runReturnDone rt dest)

/-- The returned row of a pair as values; zeros for a pair of R206. -/
def State.returnedRow (s : State) (r : RouteRun) (p : Placement) (x : Pair × Nat) : Except AccErr (List XNum) :=
  if x.1.zero then .ok (List.replicate p.h .zero)
  else
    let f := plainFmt p.retFmtw
    match s.peek r.cove (fld r.desc 0x58 8 + x.2 * p.retStride) (f.rowBytes p.h) with
    | .error e => .error e
    | .ok b => .ok ((List.range p.h).map fun k => rowElem f (leNat b) (.fin false 1) k)

/-- R201: the output row of a token: its returned rows summed in ascending destination index. -/
def State.combineToken (s : State) (r : RouteRun) (p : Placement) (t : Nat) : State × Status :=
  let mine := r.pairs.zipIdx.filter fun x => x.1.token = t ∧ x.1.mask ≠ 0
  if mine.any fun x => x.1.lost || !x.1.returned then (s, .done)
  else
    let ordered := (List.range p.dests.length).flatMap fun d => mine.filter fun x => x.1.dest = d
    let rows := ordered.map fun x => s.returnedRow r p x
    match rows.find? fun x => match x with | .error _ => true | .ok _ => false with
    | some (.error e) => (s.accErr r.cove unitShoal 0 (fld r.desc 0x58 8) e, e.status)
    | _ =>
      let vals := rows.filterMap fun x => match x with
        | .ok v => some v
        | .error _ => none
      match vals with
      | [] => (s, .done)
      | v :: vs =>
        let sum := vs.foldl (fun a b => (a.zip b).map fun (x, y) => add32 x y) v
        match readFmtWord .output (fld r.desc 0x6C 4) 0 with
        | none => (s, .range)
        | some f =>
          let (b, _) := encodeRow f.fmt (.fin false 1) (fun _ => .rne) sum
          let (s, e) := s.poke r.cove unitShoal 0 (fld r.desc 0x60 8 + t * fld r.desc 0x68 4) b
          (s, (e.map AccErr.status).getD .done)

/-- ROUTE_COMBINE (R201): after the return of every run, the outputs and the end of the descriptor. -/
def State.routeCombine (s : State) (rt : Nat) : State :=
  match s.router rt with
  | .route r =>
    match s.placement r.place with
    | none => s
    | some p =>
      if !(r.dests.all fun x => decide (x.phase = 4) || decide (x.phase = 5)) then s
      else
        let (s, st) := (List.range (fld r.desc 4 4)).foldl (fun (a : State × Status) t =>
          let (s, st) := a.1.combineToken r p t
          (s, mergeShoal a.2 st)) (s, r.status)
        s.routeEnd rt { r with status := st }
  | _ => s

/-- ROUTE_COMBINE (R201). -/
def execRouteCombine (rt : Fin 2) (s : State) : Host.Outcome State Fault Refusal :=
  .next (s.unlessHalted fun s => s.routeCombine rt)

/-! ### RECEIVE (R198 to R200) -/

/-- R101: tiles of a descriptor at a row count. -/
def tilesAt (m n : Nat) : Nat := ((m + 255) / 256) * ((n + 127) / 128)

/-- Local experts that a source can reach on this package (R199). -/
def State.reachable (s : State) (p : Placement) : List Nat :=
  (p.experts.flatMap fun inst => inst.filterMap fun i => i.bind fun x =>
    if (nth (0, 0, 0) p.dests x.1).1 = s.ownNode then some x.2 else none).eraseDups

/-- R199: whether a RECEIVE descriptor and its expert table are sound; or the error met. -/
def State.recvOk (s : State) (c addr : Nat) (d : List Byte) (p : Placement) : Except AccErr Bool :=
  let n := fld d 1 1
  let basic := decide (1 ≤ n) && decide (n ≤ 4) && decide (p.cove = c) && rsvZero d 2 6 && rsvZero d 0x58 40 && decide (addr % 32 = 0) &&
    decide (bits (fld d 0x50 4) 17 15 = 0) && decide (fld d 0x18 8 % 64 = 0)
  if !basic then .ok false
  else
    let rows := (List.range p.nlocal).map fun l => s.expertEntry c d l
    match joinPieces rows, joinPieces ((List.range n).map fun j => s.peek c (fld d (0x20 + 8 * j) 8) 64) with
    | .error e, _ => .error e
    | _, .error e => .error e
    | .ok tb, .ok hs =>
      let ent (l off k : Nat) : Nat := fld tb (64 * l + off) k
      let dims := (List.range p.nlocal).all fun l => decide (p.srcs.length * p.capE ≤ ent l 0x0C 4) && decide (p.rowBytes ≤ ent l 8 4) &&
        decide (ent l 0x38 8 = 0)
      let ctrs := (List.range n).all fun j => bit (fld hs (64 * j + 0x30) 4) 16
      let nOf (a : Nat) : Nat := match s.peekNat c (a + 8) 4 with
        | .ok v => v
        | .error _ => 0
      let caps := (List.range n).all fun j =>
        decide (((List.range p.nlocal).map fun l =>
          let a := ent l (0x18 + 8 * j) 8
          if a = 0 then 0 else tilesAt (ent l 0x0C 4) (nOf a)).sum ≤ fld d (0x40 + 4 * j) 4)
      let last := (s.reachable p).all fun l => decide (ent l (0x18 + 8 * (n - 1)) 8 ≠ 0)
      .ok (dims && ctrs && caps && last)

/-- RECEIVE_START (R199). -/
def State.recvStart (s : State) (rt : Nat) : State :=
  match s.shoalHead rt with
  | none => s
  | some (c, addr, rd) =>
    match rd with
    | .error _ => ((s.touch c unitShoal 0 addr 128).shoalPop c).queueFlag c (shoalOff c 8) 17
    | .ok d =>
      if fld d 0 1 ≠ 0x22 then s
      else
        let s := (s.touch c unitShoal 0 addr 128).shoalPop c
        match s.placement (fld d 8 1) with
        | none => s.shoalRefuse c addr 0x50 .range
        | some p =>
          let s := s.touch c unitShoal 0 (fld d 0x10 8) (64 * p.nlocal)
          match s.recvOk c addr d p with
          | .error e => s.shoalRefuse c addr 0x50 e.status
          | .ok false => s.shoalRefuse c addr 0x50 .range
          | .ok true =>
            let srcs : List RecvSrc := p.srcs.map fun x => { gone := (s.node x.1).lost }
            (s.nextWork).setRouter rt (.recv { cove := c, addr, desc := d, place := fld d 8 1, since := s.now, srcs, id := s.bsn.nextId })

/-- RECEIVE_START (R199). -/
def execReceiveStart (rt : Fin 2) (s : State) : Host.Outcome State Fault Refusal :=
  .next (s.unlessHalted fun s => if s.mayWork (0xD0 + rt.val) then s.recvStart rt else s)

/-- The round header that a source has delivered for the present round (R200 item 1). -/
def State.roundHeader (s : State) (r : RecvRun) (p : Placement) (i : Nat) : Option (List Byte) :=
  match s.peek r.cove (nth (0, 0) p.srcs i).2 64 with
  | .ok h => if fld h 0x0C 4 = fld r.desc 0x0C 4 ∧ fld h 4 2 = r.round then some h else none
  | .error _ => none

/-- Records of a run: address of each. -/
def recordAddrs (p : Placement) (region count : Nat) : List Nat :=
  (List.range (Nat.min count p.rxSlots)).map fun k => region + 64 + k * p.recBytes

/-- What the gather has built: rows of each local expert so far, records. -/
structure Gather where
  rows : SMap Nat := []
  got : List GotRecord := []
  status : Status := .done
  deriving DecidableEq, Repr

/-- R200 item 2, R206: gather one record. -/
def State.gatherRecord (s : State) (r : RecvRun) (p : Placement) (src addr : Nat) (g : Gather) : State × Gather :=
  let c := r.cove
  let s := s.touch c unitShoal 0 addr (128 + p.rowBytes)
  match s.peek c addr (128 + p.rowBytes) with
  | .error e =>
    let st : Status := match e with
      | .poisoned _ => .objectLost
      | e => e.status
    (if st = .objectLost then s.bump (shoalOff c 0x48) 1 else s, { g with got := g.got ++ [⟨src, 0, 0, [], none⟩], status := mergeShoal g.status st })
  | .ok b =>
    let n := (List.range 16).filter fun k => bit (fld b 2 2) k
    let parts0 := n.zipIdx.map fun (_, k) => (fld b (0x20 + 2 * k) 2, fld b (0x40 + 4 * k) 4)
    let row := (b.drop 128).take p.rowBytes
    let (s, g, parts) := parts0.foldl (fun (a : State × Gather × List (Nat × Nat × Nat)) x =>
      let (s, g, parts) := a
      let (l, w) := x
      let k := SMap.get 0 g.rows l
      match s.expertEntry c r.desc l with
      | .error e => (s, { g with status := mergeShoal g.status e.status }, parts)
      | .ok en =>
        let (s, e1) := s.poke c unitShoal 0 (fld en 0 8 + k * fld en 8 4) row
        let (s, e2) := s.poke c unitShoal 0 (fld en 0x10 8 + 4 * k) (leBytes 4 (fld b 8 4))
        (s, { g with
                     rows := SMap.upd 0 g.rows l (· + 1),
                     status := mergeShoal g.status (mergeShoal ((e1.map AccErr.status).getD .done) ((e2.map AccErr.status).getD .done)) },
          parts ++ [(l, k, w)])) (s, g, [])
    (s, { g with got := g.got ++ [⟨src, fld b 2 2, fld b 8 4, parts, some (fld b 0 2)⟩] })

/-- R200 item 3: write the rows and entries of list `j`, and post it. -/
def State.postRound (s : State) (r : RecvRun) (p : Placement) (j : Nat) : State × DWord :=
  let c := r.cove
  let hdr := fld r.desc (0x20 + 8 * j) 8
  let rowsOf (l : Nat) : Nat := (r.got.map fun g => (g.parts.filter fun x => x.1 = l).length).sum
  let descs := (List.range p.nlocal).filterMap fun l => match s.expertEntry c r.desc l with
    | .ok en => if fld en (0x18 + 8 * j) 8 = 0 then none else some (fld en (0x18 + 8 * j) 8, rowsOf l)
    | .error _ => none
  let s := descs.foldl (fun s x => s.put c unitShoal (x.1 + 4) 4 x.2) s
  let entries := descs.flatMap fun x =>
    match s.peekNat c (x.1 + 8) 4 with
    | .ok n => (List.range (tilesAt x.2 n)).map fun t => (x.1, t)
    | .error _ => []
  match s.peek c hdr 64 with
  | .error e => (s.accErr c unitShoal 0 hdr e, 0)
  | .ok h =>
    let s := (s.poke c unitShoal 0 (fld h 0x10 8) (entries.flatMap fun e => leBytes 8 e.1 ++ leBytes 4 e.2 ++ leBytes 4 0)).1
    let s := (((s.put c unitShoal (hdr + 8) 4 entries.length).put c unitShoal hdr 8 0).put c unitShoal (hdr + 0x0C) 4 0).put c unitShoal (hdr + 0x28) 4 0
    let base := s.arr (fld h 0x30 2)
    (s.postPond c hdr, base)

/-- Whether the list that runs has applied its DONE_CTR (R200 item 3). -/
def State.listDone (s : State) (r : RecvRun) : Bool :=
  match s.peekNat r.cove (fld r.desc (0x20 + 8 * r.list) 8 + 0x30) 4 with
  | .ok v => decide (s.arr (v % 65536) ≠ r.listBase)
  | .error _ => false

/-- REPLAYS of a list's header. -/
def State.replaysOf (s : State) (r : RecvRun) (j : Nat) : Nat :=
  match s.peekNat r.cove (fld r.desc (0x20 + 8 * j) 8 + 0x34) 4 with
  | .ok v => v
  | .error _ => 0

/-- REPLAYED is taken from an expert list that escalated: a tile of it was replayed, or it took a further pass, whatever
status it ended with (R208). -/
def State.listStatus (s : State) (r : RecvRun) : Status := if s.replaysOf r r.list = r.listReplays then .done else .replayed

/-- The pages that a gather waits for (R206). -/
def State.recvWaits (s : State) (r : RecvRun) (p : Placement) (hs : List (Nat × List Byte)) : List Nat :=
  hs.flatMap fun x => (recordAddrs p (nth (0, 0) p.srcs x.1).2 (fld x.2 0 4)).filterMap fun a => s.poisonPage r.cove a (128 + p.rowBytes)

/-- The headers of a round, once every source that still sends has delivered one (R200 item 1, R205). -/
def State.roundHeaders (s : State) (r : RecvRun) (p : Placement) : Option (List (Nat × List Byte)) :=
  let act := r.srcs.zipIdx.filter fun x => !x.1.last
  if act.all fun x => x.1.gone || (s.roundHeader r p x.2).isSome then
    some (act.filterMap fun x => (s.roundHeader r p x.2).map fun h => (x.2, h))
  else none

/-- RECEIVE_ROUND_GATHER (R200 items 1 to 3): gather a round and post its first list, or post the next list. -/
def State.recvGather (s : State) (rt : Nat) : State :=
  match s.router rt with
  | .recv r =>
    match s.placement r.place with
    | none => s
    | some p =>
      if r.gathered then
        if r.list + 1 < fld r.desc 1 1 ∧ r.returning = 0 ∧ s.listDone r then
          let r := { r with status := mergeShoal r.status (s.listStatus r), list := r.list + 1 }
          let n := s.replaysOf r r.list
          let (s, base) := s.postRound r p r.list
          s.setRouter rt (.recv { r with listBase := base, listReplays := n })
        else s
      else match s.roundHeaders r p with
        | none => s
        | some hs =>
          if !(s.recvWaits r p hs).isEmpty then s
          else
            let (s, g) := hs.foldl (fun (a : State × Gather) x =>
              (recordAddrs p (nth (0, 0) p.srcs x.1).2 (fld x.2 0 4)).foldl (fun (a : State × Gather) addr => a.1.gatherRecord r p x.1 addr a.2) a) (s, {})
            let s := s.addShares r.cove poolShoal (g.got.map fun x => s.recordKey r.cove x)
            let srcs := r.srcs.zipIdx.map fun (x, i) => match hs.find? fun y => y.1 = i with
              | some (_, h) => { x with hdr := h, last := bit (fld h 6 2) 0 || x.gone }
              | none => { x with hdr := [], last := x.last || x.gone }
            let r := { r with srcs, got := g.got, gathered := true, list := 0, records := r.records + g.got.length, status := mergeShoal r.status g.status }
            let n := s.replaysOf r 0
            let (s, base) := s.postRound r p 0
            s.setRouter rt (.recv { r with listBase := base, listReplays := n })
  | _ => s

/-- RECEIVE_ROUND_GATHER (R200). -/
def execReceiveRoundGather (rt : Fin 2) (s : State) : Host.Outcome State Fault Refusal :=
  .next (s.unlessHalted fun s => s.recvGather rt)

/-- Where row `k` of C of a tile operation descriptor lies, and its format (R200 item 4). -/
def expertSpan (d : List Byte) (k h : Nat) : Nat × Nat × Fmt :=
  let f := (fmtOfCode (fld d 0x8D 1)).getD .fp32
  (fld d 0x20 8 + k * fld d 0x30 4, f.rowBytes h, f)

/-- The values of row `k` of C of a tile operation descriptor, in its final format (R200 item 4, R102), and the format
faults met (R74). -/
def State.expertRow (s : State) (c : Nat) (d : List Byte) (k h : Nat) : Except AccErr (List XNum × Nat) :=
  let x := expertSpan d k h
  let f := x.2.2
  let own := decide (fld d 0x8D 1 = bits (fld d 0x3C 4) 0 4)
  let mode := bits (fld d 0x3C 4) 4 2
  let tj := (fld d 8 4 + 127) / 128
  let garr := mode = 2 || (mode = 1 && tdFlag d 4)
  let gs : Except AccErr (List XNum) :=
    if !own || !f.isNB || decide (mode = 0) then .ok (List.replicate tj (.fin false 1))
    else if garr then
      match s.readWords c (fld d 0x60 8 + 4 * (k / 256 * tj)) tj with
      | .ok ws => .ok (ws.map numOf32)
      | .error e => .error e.2
    else .ok (List.replicate tj (numOf32 (fld d 0x48 4)))
  match s.peek c x.1 x.2.1, gs with
  | .ok b, .ok gs => .ok ((List.range h).map fun i => rowElem f (leNat b) (nth (.fin false 1) gs (i / 128)) i, Strip.faults ⟨f, [leNat b]⟩ 0 h)
  | .error e, _ => .error e
  | _, .error e => .error e

/-- The descriptor of a part of a record in the last list. -/
def State.partDesc (s : State) (r : RecvRun) (x : Nat × Nat × Nat) : Except AccErr (List Byte) :=
  match s.expertEntry r.cove r.desc x.1 with
  | .error e => .error e
  | .ok en => s.peek r.cove (fld en (0x18 + 8 * (fld r.desc 1 1 - 1)) 8) 160

/-- R200 item 4: the returned row of one record; a record that could not be gathered returns zeros (R206). Format faults
are taken as zero, and end the descriptor with RANGE (R74). -/
def State.reduceRecord (s : State) (r : RecvRun) (p : Placement) (g : GotRecord) : List XNum × Status :=
  let one (x : Nat × Nat × Nat) : Except AccErr (List XNum × Nat) :=
    match s.partDesc r x with
    | .error e => .error e
    | .ok d => (s.expertRow r.cove d x.2.1 p.h).map fun v => (v.1.map fun y => mul32 (numOf32 x.2.2) y, v.2)
  let rows := g.parts.map one
  let st := rows.foldl (fun a x => match x with | .error e => mergeShoal a e.status | .ok _ => a) Status.done
  let vals := rows.filterMap fun x => match x with
    | .ok v => some v
    | .error _ => none
  match st, vals with
  | .done, v :: vs =>
    (vs.foldl (fun a b => (a.zip b.1).map fun (x, y) => add32 x y) v.1, if (vals.map Prod.snd).sum = 0 then .done else .range)
  | st, _ => (List.replicate p.h .zero, st)

/-- What reading the expert rows of a record does to the state. -/
def State.touchRecord (s : State) (r : RecvRun) (p : Placement) (g : GotRecord) : State :=
  g.parts.foldl (fun s x => match s.partDesc r x with
    | .ok d => s.touch r.cove unitShoal 0 (expertSpan d x.2.1 p.h).1 (expertSpan d x.2.1 p.h).2.1
    | .error _ => s) s

/-- A return copy (R200 item 5). -/
def returnJob (r : RecvRun) (rt src from_ len : Nat) (h : List Byte) : FerryJob :=
  { cove := r.cove, op := 0x41, flag := false, chunkLog2 := 20, act := 0, aop := 0, length := len, dstCtr := fld h 0x0A 2 + 65536, doneCtr := 0,
    src := from_, dst := 0, result := 0, operand := [], compare := [], desc := none, id := r.id, shoal := some (rt, 256 + src),
    basin := some (basinParts (fld h 0x10 8)) }

/-- Complete a RECEIVE: RECORDS, ROUNDS, STATUS and DONE_CTR (R200). -/
def State.recvEnd (s : State) (rt : Nat) (r : RecvRun) (rounds : Nat) : State :=
  let s := (s.poke r.cove unitShoal 0 (r.addr + 0x54) (leBytes 4 r.records)).1
  (s.shoalEnd r.cove r.addr rounds 0x50 r.status).setRouter rt .idle

/-- RECEIVE_ROUND_RETURN (R200 items 4 and 5): reduce and return a round whose lists have completed; when its return
copies have ended, go on to the next round or complete. -/
def State.recvReturn (s : State) (rt : Nat) : State :=
  match s.router rt with
  | .recv r =>
    match s.placement r.place with
    | none => s
    | some p =>
      if !r.gathered then s
      else if r.list = 4 then
        if r.returning ≠ 0 then s
        else if r.srcs.all fun x => x.last || x.gone then s.recvEnd rt r (r.round + 1)
        else s.setRouter rt (.recv { r with round := r.round + 1, gathered := false, got := [], list := 0, since := s.now })
      else if r.list + 1 ≠ fld r.desc 1 1 ∨ !s.listDone r then s
      else
        let st := mergeShoal r.status (s.listStatus r)
        let f := plainFmt p.retFmtw
        let (s, st) := r.got.zipIdx.foldl (fun (a : State × Status) x =>
          let (v, e) := a.1.reduceRecord r p x.1
          let s := a.1.touchRecord r p x.1
          let b := (encodeRow f (.fin false 1) (fun _ => .rne) v).1
          let (s, we) := s.poke r.cove unitShoal 0 (fld r.desc 0x18 8 + x.2 * p.retStride) (b ++ List.replicate (p.retStride - b.length) 0)
          (s, mergeShoal a.2 (mergeShoal e ((we.map AccErr.status).getD .done)))) (s, st)
        let jobs := r.srcs.zipIdx.filterMap fun (x, i) =>
          if x.hdr.isEmpty then none
          else
            let before := (r.got.filter fun g => g.src < i).length
            let mine := (r.got.filter fun g => g.src = i).length
            some (returnJob r rt i (fld r.desc 0x18 8 + before * p.retStride) (mine * p.retStride) x.hdr)
        let s := { s with bsn := { s.bsn with direct := s.bsn.direct ++ jobs } }
        s.setRouter rt (.recv { r with status := st, list := 4, returning := jobs.length })
  | _ => s

/-- RECEIVE_ROUND_RETURN (R200). -/
def execReceiveRoundReturn (rt : Fin 2) (s : State) : Host.Outcome State Fault Refusal :=
  .next (s.unlessHalted fun s => s.recvReturn rt)

/-- R203: a ROUTE or RECEIVE that has waited longer than RT_TIMEOUT ends with TIMEOUT. -/
def State.shoalTimeout (s : State) (rt : Nat) : State :=
  let limit := 100 * (s.reg (blkSHOAL + 0x10)).toNat
  match s.router rt with
  | .idle => s
  | .route r =>
    if r.dests.any fun x => (x.phase = 3 ∨ x.phase = 6) ∧ x.since + limit < s.now then
      let r := { r with status := mergeShoal r.status .timeout, dests := r.dests.map fun x => if x.phase = 4 then x else { x with phase := 5 } }
      (s.setRouter rt (.route r)).routeCombine rt
    else s
  | .recv r =>
    match s.placement r.place with
    | none => s
    | some p =>
      if r.gathered ∨ (s.roundHeaders r p).isSome ∨ s.now ≤ r.since + limit then s
      else
        let jobs := r.srcs.zipIdx.filterMap fun (x, i) =>
          if x.last || x.gone then none
          else match s.roundHeader r p i with
            | some h => some (returnJob r rt i (fld r.desc 0x18 8) 0 h)
            | none => if x.hdr.isEmpty then none else some (returnJob r rt i (fld r.desc 0x18 8) 0 x.hdr)
        let s := { s with bsn := { s.bsn with direct := s.bsn.direct ++ jobs } }
        s.recvEnd rt { r with status := mergeShoal r.status .timeout } r.round

/-- SHOAL_TIMEOUT (R203). -/
def execShoalTimeout (rt : Fin 2) (s : State) : Host.Outcome State Fault Refusal :=
  .next (s.unlessHalted fun s => s.shoalTimeout rt)

end Sys2Proof.Machine
end

