-- ==== Sys2Proof/Machine/Loss.lean ====
section
/-! DEFINITION. Sys2Proof/Machine/Loss.lean: recording a node as lost and restoring it
(spec/17_faults_and_recovery.md, R607 to R612). -/
namespace Sys2Proof.Machine
open Sys2Proof

/-- LOST_PAIRS over every cove. -/
def State.lostPairs (s : State) : Nat := ((List.range 8).map fun c => (s.ctr (shoalOff c 0x48)).toNat).sum

/-- R612: the streams of a cove whose shadow lies at a lost node keep running without their shadow pages: the state,
and how many pages were removed. -/
def State.shadowLost (s : State) (node : Nat) : State × Nat :=
  let mine := s.strm.filter fun x => !x.2.shadow.isEmpty && match s.homeCove x.1 with
    | some c => match s.cove c with
      | some d => decide (d.shadowNode = node) && decide (d.shadowPages ≠ 0)
      | none => false
    | none => false
  (mine.foldl (fun s x =>
    let n := x.2.shadow.length
    let s := s.sset x.1 0x3C 4 (s.sget x.1 0x3C 4 - n)
    (s.sset x.1 0x70 4 0).setSx x.1 fun y => { y with shadow := [], shadowPending := [], shadowAt := 0 }) s,
   (mine.map fun x => x.2.shadow.length).sum)

/-- The Shoal work that waits on a node (R614): router and descriptor address, as router + 2 × address. -/
def State.shoalOn (s : State) (node : Nat) : List Nat :=
  (List.range 2).filterMap fun rt =>
    match s.router rt with
    | .idle => none
    | .route r => match s.placement r.place with
      | some p => if p.dests.any fun x => x.1 = node then some (rt + 2 * r.addr) else none
      | none => none
    | .recv r => match s.placement r.place with
      | some p => if p.srcs.any fun x => x.1 = node then some (rt + 2 * r.addr) else none
      | none => none

/-- Steps that run (R614): cove and the local tick at which the step started, as cove + 8 × tick. -/
def State.stepsOn (s : State) : List Nat :=
  (List.range 8).filterMap fun c => match (vget ({} : SeqCove) s.seq c).run with
    | some r => some (c + 8 * r.start)
    | none => none

/-- Change the open loss record of a node: its own, or the aggregate record. -/
def State.modLossRec (s : State) (node : Nat) (f : LossRec → LossRec) : State :=
  match s.flt.openLoss.findIdx? fun r => !r.aggregate && r.node == node with
  | some i => { s with flt := { s.flt with openLoss := modNth s.flt.openLoss i f } }
  | none => match s.flt.openLoss.findIdx? fun r => r.aggregate && r.nodes.contains node with
    | some i => { s with flt := { s.flt with openLoss := modNth s.flt.openLoss i f } }
    | none => s

/-- Add the counts of a loss to a record. -/
def LossRec.plus (a b : LossRec) : LossRec :=
  { a with nodes := a.nodes ++ b.nodes, txnsEnded := a.txnsEnded + b.txnsEnded, txnCredits := a.txnCredits + b.txnCredits, linkBlocks := a.linkBlocks + b.linkBlocks,
           framesDropped := a.framesDropped + b.framesDropped, lostPairs := a.lostPairs + b.lostPairs, shadowPages := a.shadowPages + b.shadowPages,
           waitStreams := a.waitStreams ++ b.waitStreams, waitShoal := a.waitShoal ++ b.waitShoal, waitSteps := a.waitSteps ++ b.waitSteps }

/-- R616: open a loss record, or add to the aggregate record while 256 are open. -/
def State.openLossRec (s : State) (r : LossRec) : State :=
  if (s.flt.openLoss.filter fun x => !x.aggregate).length < 256 then { s with flt := { s.flt with openLoss := s.flt.openLoss ++ [r] } }
  else match s.flt.openLoss.findIdx? fun x => x.aggregate with
    | some i => { s with flt := { s.flt with openLoss := modNth s.flt.openLoss i fun a => a.plus r } }
    | none => { s with flt := { s.flt with openLoss := s.flt.openLoss ++ [{ r with aggregate := true, node := 0xFFFF }] } }

/-- R609: record the loss of a node, as one action. -/
def State.recordLoss (s : State) (node cause newInc : Nat) : State :=
  let nd := s.node node
  let before := s.lostPairs
  let old := s
  let held := s.bsn.flagHeld.filter fun f => f.tx.req.dstNode = node
  let s := { s with bsn := { s.bsn with flagHeld := s.bsn.flagHeld.filter fun f => f.tx.req.dstNode ≠ node } }
  let s := held.foldl (fun s f => s.endOwner f.tx.owner f.tx.req.opc .nodeLost []) s
  let (s, ended) := s.endNode node
  let waitShoal := s.shoalOn node
  let s := s.modNode node fun x => { x with lost := true, framesDropped := 0, linkBlocks := 0, fromLost := 0, mirrorReads := 0 }
  let s := s.shoalNodeLost node
  let (s, pages) := s.shadowLost node
  let fresh := (s.strm.filter fun x => x.2.nodeLost && !(old.sx x.1).nodeLost).map Prod.fst
  let r : LossRec := { cause, node, nodes := [node], incarnation := nd.inc, newInc := if cause = 2 then newInc else 0, tLost := s.now,
                       txnsEnded := ended + held.length, txnCredits := ended, linkBlocks := nd.linkBlocks, framesDropped := nd.framesDropped,
                       lostPairs := s.lostPairs - before, shadowPages := pages, waitStreams := fresh, waitShoal, waitSteps := s.stepsOn }
  let s := s.openLossRec r
  let s := { s with seq := s.seq.map fun (x : SeqCove) => ({ x with adoptFrom := x.adoptFrom ++ [node] } : SeqCove) }
  let s := (s.bump (blkFLT + 0x68) 1).fltEvent 1
  let s := s.faultLog 0x08 unitLink .nodeLost 0x80 node 0
  s.ripple ripNodeLoss Status.nodeLost.code 0x80 (node + 65536 * cause) nd.inc

/-- A node returns to LIVE at an incarnation (R608 case 2, R611). -/
def State.nodeLive (s : State) (node inc : Nat) : State :=
  let live := !(s.liveChoices node).isEmpty
  s.modNode node fun x => { x with lost := false, inc, seen := true, reached := live, noRouteSince := none }

/-- R608 case 2, R607: an IDENT or a DATA frame has come from a node with an incarnation. -/
def State.sawIncarnation (s : State) (node inc : Nat) (ident : Bool) : State :=
  let nd := s.node node
  let s :=
    if !nd.seen then s.modNode node fun x => { x with inc, seen := true }
    else if !newerInc inc nd.inc then s
    else if nd.lost then s.nodeLive node inc
    else if nd.drainNotice then s.modNode node fun x => { x with inc }
    else (s.recordLoss node 2 inc).nodeLive node inc
  if ident then s.modNode node fun x => { x with drainNotice := false } else s

/-- Whether a node's record can change by request: listed, and not this package's own. -/
def State.otherNode (s : State) (node : Nat) : Bool := s.nodeListed node && decide (node ≠ s.ownNode)

/-- R608 case 1: the loss timer of a node has run out. -/
def State.lossDue (s : State) (node : Nat) : Bool :=
  let nd := s.node node
  let ports := ((s.routeOf node).choices.filter fun c => c.1).map fun c => c.2.1
  match nd.noRouteSince with
  | none => false
  | some t =>
    let from_ := ports.foldl (fun m p => Nat.max m (s.port p).leftRetrain) t
    s.otherNode node && !nd.lost && nd.reached && (s.liveChoices node).isEmpty && !s.isDrained node &&
      !(ports.any fun p => (s.port p).state = .retrain) && decide (from_ + 100 * (s.reg (blkFLT + 8)).toNat ≤ s.now)

/-- NODE_LOSS_TIMER (R608 case 1). -/
def execNodeLossTimer (node : Node) (s : State) : Host.Outcome State Fault Refusal :=
  .next (s.whileOn fun s => if s.lossDue node.toNat then s.recordLoss node.toNat 1 0 else s)

/-- NODE_LOSS_RECORD (R609): the recording of a loss that R608 case 1 calls for; cases 2 and 3 record theirs as the
frame or the request arrives. -/
def execNodeLossRecord (node : Node) (s : State) : Host.Outcome State Fault Refusal :=
  .next (s.whileOn fun s => if s.lossDue node.toNat then s.recordLoss node.toNat 1 0 else s)

/-- R608 case 3, Table 17.6: a write of LOSS_REQ with GO 1 and RESTORE 0. -/
def State.lossReq (s : State) (w : Word) : State :=
  let node := w.toNat % 65536
  if !w.getLsbD 31 || w.getLsbD 30 then s
  else if !s.otherNode node || (s.node node).lost then s.fltEvent 4
  else s.recordLoss node 3 0

/-- LOSS_REQ (R608). -/
def execLossReq (value : Word) (s : State) : Host.Outcome State Fault Refusal := .next (s.whileOn fun s => s.lossReq value)

/-- R611: a write of LOSS_REQ with GO 1 and RESTORE 1. -/
def State.lossRestore (s : State) (w : Word) : State :=
  let node := w.toNat % 65536
  if !w.getLsbD 31 || !w.getLsbD 30 then s
  else if !s.otherNode node || !(s.node node).lost then s.fltEvent 4
  else
    let s := s.nodeLive node (s.node node).inc
    let s := (List.range 8).foldl (fun s c => s.modPair (pairKey c node) fun _ => { restored := true }) s
    s.faultLog 0x0B unitLink .done 0x80 node 0

/-- LOSS_RESTORE (R611). -/
def execLossRestore (value : Word) (s : State) : Host.Outcome State Fault Refusal := .next (s.whileOn fun s => s.lossRestore value)

end Sys2Proof.Machine
end

