-- ==== Sys2Proof/Machine/Ripple.lean ====
section
/-! DEFINITION. Sys2Proof/Machine/Ripple.lean: writing and closing of Ripple records, and histograms
(spec/18_ripple_recorder_and_check_values.md, R621 to R631). -/
namespace Sys2Proof.Machine
open Sys2Proof

/-- R625: the bin of a value. -/
def binOf (v : Nat) : Nat := if v = 0 then 0 else Nat.min 31 (Nat.log2 v + 1)

/-- R625: the 32 bins over a list of values; a bin stops at 1,023. -/
def histBins (vs : List Nat) : List Nat := (List.range 32).map fun k => Nat.min 1023 (vs.filter fun v => binOf v = k).length

/-- R624, R626: report an H-form record of an interval that began at a tick. `aux` is the AUX byte. -/
def State.rippleHist (s : State) (kind aux cove start : Nat) (vs : List Nat) : State :=
  if !(s.reg (blkRIP + 0xC)).getLsbD kind then s
  else
    let r : RipRec := { kind, status := aux, cove, tick := s.grainTick start, epoch := s.mark, bins := histBins vs, closed := true }
    let q := match s.rip.queue.getLast? with
      | some l => s.rip.queue.dropLast ++ [{ l with closed := true }]
      | none => []
    { s with rip := { s.rip with queue := q } }.ripEnter r

/-- R629: close the last record when it is of a kind. -/
def State.ripCloseKind (s : State) (kind : Nat) : State :=
  match s.rip.queue.getLast? with
  | some l => if l.kind = kind then { s with rip := { s.rip with queue := s.rip.queue.dropLast ++ [{ l with closed := true }] } } else s
  | none => match s.rip.openRec with
    | some n => if (SMap.get ({} : RipRec) s.rip.ring (n % 1048576)).kind = kind then s.ripClose else s
    | none => s

/-- R627: close the open record of the ring. -/
def State.ripShut (s : State) : State :=
  match s.rip.openRec with
  | none => s
  | some n =>
    let r := SMap.get ({} : RipRec) s.rip.ring (n % 1048576)
    ({ s with rip := { s.rip with ring := SMap.put ({} : RipRec) s.rip.ring (n % 1048576) { r with closed := true }, openRec := none } }).ripNotify r.kind

/-- HBM is in self-refresh: in P2 to P4, or 40 µs after a stop (Tables 13.3 and 13.4). -/
def State.asleep (s : State) : Bool := s.hbm.selfRefresh || (s.stopped && decide (s.weir.stopTick + 4000 ≤ s.now))

/-- RIPPLE_RECORD_WRITE (R627): the oldest queued record is written to the ring, under the house activity (R623). One with
others behind it is written open, and the next write closes it. -/
def State.rippleWrite (s : State) : State :=
  match s.rip.queue with
  | [] => s
  | r :: rest =>
    let r := if rest.isEmpty ∨ r.kind = ripDroop ∨ r.kind = ripStepTime then r else { r with closed := false }
    if !s.rip.live || s.asleep then s
    else
      let s := s.ripShut
      let n := s.rip.head
      let s := { s with rip := { s.rip with queue := rest, head := n + 1, openRec := if r.closed then none else some n,
                                            ring := SMap.put ({} : RipRec) s.rip.ring (n % 1048576) { r with seq := n % 0x100000000, valid := true } } }
      let s := (s.bump (blkRIP + 0x40) 1).charge 0 0 0 64
      if r.closed then s.ripNotify r.kind else s

/-- RIPPLE_RECORD_WRITE (R627). -/
def execRippleRecordWrite (s : State) : Host.Outcome State Fault Refusal := .next (s.whileOn fun s => s.rippleWrite)

/-- RIPPLE_CLOSE_TIMER (R629): CLOSE_US after its last update the open record closes. -/
def execRippleCloseTimer (s : State) : Host.Outcome State Fault Refusal :=
  .next (s.whileOn fun s => if s.rip.openRec.isSome && decide (s.rip.lastUpdate + 100 * ((s.reg (blkRIP + 8)).toNat % 65536) ≤ s.now) then s.ripShut else s)

/-- STEP_TIME_HISTOGRAM (R626): at each second of local tick, one record for each cove that ended a step in it. -/
def State.stepTimes (s : State) : State :=
  if s.now % 100000000 ≠ 0 then s
  else
    let l := s.rip.stepTimes
    l.foldl (fun s x => s.rippleHist ripStepTime 0 x.1 (s.now - 100000000) x.2) { s with rip := { s.rip with stepTimes := [] } }

/-- STEP_TIME_HISTOGRAM (R626). -/
def execStepTimeHistogram (s : State) : Host.Outcome State Fault Refusal := .next (s.whileOn fun s => s.stepTimes)

end Sys2Proof.Machine
end

