-- ==== Sys2Proof/Machine/Links.lean ====
section
/-! DEFINITION. Sys2Proof/Machine/Links.lean: frames that arrive, link timers, ports and their training
(spec/11_basin_links_and_topology.md). -/
namespace Sys2Proof.Machine
open Sys2Proof

/-! ### Frames that arrive (R414 to R422, R431, R437 to R439) -/

/-- The link die of a port: 0 North, 1 South (Table 11.1). -/
def State.linkDie (s : State) (p : Nat) : Nat := if 2 * p < s.portCount then 0 else 1

/-- Bytes in a link die's hold store (R431). -/
def State.holdBytes (s : State) (die : Nat) : Nat :=
  (s.bsn.seqIn.map fun x => ((x.2.held.filter fun h => h.2.2 = die).map fun h => 0x40 + h.1.data.length).sum).sum

/-- R431: a request that would be held finds its die's 4 MiB hold store full. -/
def State.holdFull (s : State) (die : Nat) (r : BasinReq) : Bool :=
  aheadOf r.ssn (s.pairIn (pairKey r.srcCove r.srcNode)).next && decide (4194304 < s.holdBytes die + 0x40 + r.data.length)

/-- Send a NAK that names the next LSN expected (R421). -/
def State.nak (s : State) (p k : Nat) : State := s.control p k 3 [(s.conn k).expect % 0x1000000]

/-- R520: the counter of a control frame is above that of the last one accepted. -/
def Conn.aboveLast (c : Conn) (counter : Nat) : Bool := match c.ctlRx with
  | none => true
  | some n => decide (n < counter)

/-- The incarnation that a frame carries for its source node. -/
def frameInc (f : LinkFrame) : Nat := match f.packet with
  | .request r => r.inc
  | .response r => r.inc
  | _ => f.inc

/-- R422: the peer's request to close the receive side of one connection, answered with the last LSN accepted. -/
def State.takeResyncReq (s : State) (src port : Nat) : State :=
  match s.lnk.conns.find? fun x => x.2.peer = src ∧ x.2.peerPort = port with
  | none => s
  | some (k, c) =>
    let s := s.modConn k fun c => { c with rxOpen := false }
    s.toEgress { packet := .resyncAck s.ownNode src port ((c.expect + 0x1000000 - 1) % 0x1000000), vl := 7, sub := 0, dim := 0,
                 hops := (s.reg (blkLNK + 0x10)).toNat % 256, at_ := s.now, act := some 0 } false

/-- R422: the answer to a RESYNC_REQ: frames that the peer accepted are released, the rest sent on live routes. -/
def State.takeResyncAck (s : State) (src port lsn : Nat) : State :=
  let k := 65536 * port + src
  if (s.conn k).resync.isSome then (s.ackUpTo k lsn).resolve k else s

/-- An accepted frame for this node. -/
def State.deliver (s : State) (die : Nat) (f : LinkFrame) : State :=
  match f.packet with
  | .request r => { s with bsn := { s.bsn with inReq := s.bsn.inReq ++ [(r, die)] } }
  | .response r => { s with bsn := { s.bsn with inResp := s.bsn.inResp ++ [r] } }
  | .resyncReq src _ port => s.takeResyncReq src port
  | .resyncAck src _ port lsn => if newerInc (s.node src).inc f.inc then s else s.takeResyncAck src port lsn
  | .control => s

/-- A frame accepted in LSN order: delivered here, or forwarded with one hop fewer (R437, R438). -/
def State.acceptFrame (s : State) (p k : Nat) (f : LinkFrame) : State :=
  let cls := 2 * f.vl + f.sub
  let n := f.packet.blocks
  let s := s.modConn k fun c => { c with expect := c.expect + 1, ackDue := some (c.ackDue.getD s.now) }
  let s := s.modPort p fun x => { x with heldBlocks := modNth x.heldBlocks cls (· + n) }
  let src := f.packet.ends.1
  let s := if s.otherNode src then s.sawIncarnation src (frameInc f) false else s
  if f.packet.dst = s.ownNode then (s.freeBlocks (some (p, cls, n))).deliver (s.linkDie p) f
  else if f.hops = 0 then (s.freeBlocks (some (p, cls, n))).bump (lnkCtr 0x48) 1
  else
    let members : List Member := match f.packet with
      | .request r => [⟨r⟩]
      | _ => []
    s.toEgress { packet := f.packet, vl := f.vl, sub := f.sub, dim := f.dim, hops := f.hops - 1, at_ := s.now, inPort := some (p, cls, n), members } false

/-- R417 to R421: a frame arrives on a connection. -/
def State.receiveFrame (s : State) (p node : Nat) (f : LinkFrame) (health : FrameHealth) (corrected : Nat) : State :=
  let k := s.connKey p node
  if (s.port p).state ≠ .up then s
  else
    let s := s.bump (portOff p 0x20) corrected
    match health with
    | .uncorrectable => (s.bump (portOff p 0x28) 1).nak p k
    | .badTag => (s.bump (portOff p 0x38) 1).nak p k
    | .good =>
      if f.packet = .control ∧ (s.conn k).rxOpen ∧ !(s.conn k).aboveLast f.counter then s
      else
      let s := (s.modConn k fun c => { c with lastRx := s.now }).ackUpTo k f.ackLsn
      if !(s.conn k).rxOpen then s
      else match f.packet with
        | .control => s.modConn k fun c => { c with ctlRx := some f.counter }
        | _ =>
          let want := (s.conn k).expect % 0x1000000
          if f.lsn = want then
            let full := match f.packet with
              | .request r => decide (r.dstNode = s.ownNode) && s.holdFull (s.linkDie p) r
              | _ => false
            if full then s.nak p k else s.acceptFrame p k f
          else if (f.lsn + 0x1000000 - want) % 0x1000000 < 0x800000 then s.nak p k
          else s.modConn k fun c => { c with ackDue := some (c.ackDue.getD s.now) }

/-- DATA_FRAME_RECEIVE (R419): a DATA frame, or an ACK or KEEPALIVE frame, on port `p` from the peer `node`. -/
def execDataFrameReceive (p : Port) (node : Node) (f : LinkFrame) (health : FrameHealth) (corrected : Nat) (s : State) :
    Host.Outcome State Fault Refusal :=
  .next (s.whileOn fun s => match f.packet with
    | .resyncReq _ _ _ => s
    | .resyncAck _ _ _ _ => s
    | _ => s.receiveFrame p node.toNat f health corrected)

/-- RESYNC_REQ (R422): a RESYNC_REQ frame arrives. -/
def execResyncReq (p : Port) (node : Node) (f : LinkFrame) (health : FrameHealth) (s : State) : Host.Outcome State Fault Refusal :=
  .next (s.whileOn fun s => match f.packet with
    | .resyncReq _ _ _ => s.receiveFrame p node.toNat f health 0
    | _ => s)

/-- RESYNC_ACK (R422): a RESYNC_ACK frame arrives. -/
def execResyncAck (p : Port) (node : Node) (f : LinkFrame) (health : FrameHealth) (s : State) : Host.Outcome State Fault Refusal :=
  .next (s.whileOn fun s => match f.packet with
    | .resyncAck _ _ _ _ => s.receiveFrame p node.toNat f health 0
    | _ => s)

/-- A control frame that arrives on an open connection: its tag, its counter, and the ACK_LSN that rides on it; false where
the frame is discarded. -/
def State.controlIn (s : State) (p node ackLsn : Nat) (shown : CtlSeal) : State × Bool :=
  let k := s.connKey p node
  if (s.port p).state ≠ .up ∨ !(s.conn k).rxOpen then (s, false)
  else if !shown.authentic then ((s.bump (portOff p 0x38) 1).nak p k, false)
  else if !(s.conn k).aboveLast shown.counter.toNat then (s, false)
  else ((s.modConn k fun c => { c with lastRx := s.now, ctlRx := some shown.counter.toNat }).ackUpTo k ackLsn, true)

/-- NAK_RECEIVE (R421): a NAK that names the next LSN its sender expects. -/
def State.nakReceive (s : State) (p node lsn ackLsn : Nat) (shown : CtlSeal) : State :=
  match s.controlIn p node ackLsn shown with
  | (s, true) => s.replayFrom p (s.connKey p node) lsn
  | (s, false) => s

/-- NAK_RECEIVE (R421). -/
def execNakReceive (p : Port) (node : Node) (lsn ackLsn : BitVec 24) (shown : CtlSeal) (s : State) :
    Host.Outcome State Fault Refusal :=
  .next (s.whileOn fun s => s.nakReceive p node.toNat lsn.toNat ackLsn.toNat shown)

/-- ACK_SEND_TIMER (R419): a receiver that holds unacknowledged frames sends an ACK. -/
def State.ackSend (s : State) (p node : Nat) : State :=
  let k := s.connKey p node
  match (s.conn k).ackDue with
  | none => s
  | some _ =>
    if (s.port p).state ≠ .up then s
    else (s.modConn k fun c => { c with ackDue := none, lastTx := s.now }).control p k 2 [((s.conn k).expect + 0x1000000 - 1) % 0x1000000]

/-- ACK_SEND_TIMER (R419). -/
def execAckSendTimer (p : Port) (node : Node) (s : State) : Host.Outcome State Fault Refusal := .next (s.whileOn fun s => s.ackSend p node.toNat)

/-- The replay time of a connection in local ticks (R421). -/
def State.replayTime (s : State) (p : Nat) : Nat :=
  let r := (s.reg (blkLNK + 0x14)).toNat
  if s.portMode p = 1 then 10 * bits r 0 8 else 100 * bits r 8 8

/-- REPLAY_TIMER (R421): the oldest held frame has gone unacknowledged for the replay time. -/
def State.replayTimer (s : State) (p node : Nat) : State :=
  let k := s.connKey p node
  let c := s.conn k
  match c.held with
  | [] => s
  | h :: _ =>
    if (s.port p).state = .up ∧ c.isOpen ∧ h.sent + s.replayTime p ≤ s.now then s.replayFrom p k (h.lsn % 0x1000000) else s

/-- REPLAY_TIMER (R421). -/
def execReplayTimer (p : Port) (node : Node) (s : State) : Host.Outcome State Fault Refusal := .next (s.whileOn fun s => s.replayTimer p node.toNat)

/-- Whether a connection has failed: REPLAY_LIMIT replays without progress (R421), or its port has left UP (R422). -/
def State.connFailed (s : State) (k : Nat) : Bool :=
  let c := s.conn k
  c.isOpen && (c.failed || decide (bits (s.reg (blkLNK + 0x14)).toNat 16 8 ≤ c.replays))

/-- RESYNC_TIMEOUT (R422): no RESYNC_ACK within RESYNC_US. -/
def State.resyncTimeout (s : State) (p node : Nat) : State :=
  let k := s.connKey p node
  match (s.conn k).resync with
  | none => s
  | some t => if t + 100 * bits (s.reg (blkLNK + 0x10)).toNat 8 8 ≤ s.now then s.resolve k else s

/-- RESYNC_TIMEOUT (R422). -/
def execResyncTimeout (p : Port) (node : Node) (s : State) : Host.Outcome State Fault Refusal :=
  .next (s.whileOn fun s => s.resyncTimeout p node.toNat)

/-- CREDIT (R427): the cumulative freed counts of the sixteen classes. -/
def State.creditIn (s : State) (p node : Nat) (freed : List Nat) (ackLsn : Nat) (shown : CtlSeal) : State :=
  match s.controlIn p node ackLsn shown with
  | (s, true) => if s.portMode p = 1 then s.modConn (s.connKey p node) fun c => { c with freedIn := freed.map (· % 0x100000000) } else s
  | (s, false) => s

/-- CREDIT (R427). -/
def execCredit (p : Port) (node : Node) (freed : List Nat) (ackLsn : BitVec 24) (shown : CtlSeal) (s : State) :
    Host.Outcome State Fault Refusal :=
  .next (s.whileOn fun s => s.creditIn p node.toNat freed ackLsn.toNat shown)

/-- CREDIT_SEND_TIMER (R427): a CREDIT frame while any count has changed. -/
def State.creditSend (s : State) (p node : Nat) : State :=
  let k := s.connKey p node
  let c := s.conn k
  if s.portMode p = 1 ∧ (s.port p).state = .up ∧ c.isOpen ∧ c.freedOut ≠ c.reported then
    (s.modConn k fun c => { c with reported := c.freedOut, lastTx := s.now, ackDue := none }).control p k 4 c.freedOut
  else s

/-- CREDIT_SEND_TIMER (R427). -/
def execCreditSendTimer (p : Port) (node : Node) (s : State) : Host.Outcome State Fault Refusal :=
  .next (s.whileOn fun s => s.creditSend p node.toNat)

/-- KEEPALIVE (R418): 100 µs without sending. -/
def State.keepalive (s : State) (p node : Nat) : State :=
  let k := s.connKey p node
  if (s.port p).state = .up ∧ (s.conn k).isOpen ∧ (s.conn k).lastTx + 10000 ≤ s.now then
    (s.modConn k fun c => { c with lastTx := s.now, ackDue := none }).control p k 9 []
  else s

/-- KEEPALIVE (R418). -/
def execKeepalive (p : Port) (node : Node) (s : State) : Host.Outcome State Fault Refusal := .next (s.whileOn fun s => s.keepalive p node.toNat)

/-- ETH_CONNECTION_SILENCE (R418): no frame from the peer of an ETH connection for 1 ms. -/
def State.ethSilence (s : State) (p node : Nat) : State :=
  let k := s.connKey p node
  if s.portMode p = 2 ∧ (s.conn k).isOpen ∧ (s.conn k).lastRx + 100000 ≤ s.now then s.failConn p k else s

/-- ETH_CONNECTION_SILENCE (R418). -/
def execEthConnectionSilence (p : Port) (node : Node) (s : State) : Host.Outcome State Fault Refusal :=
  .next (s.whileOn fun s => s.ethSilence p node.toNat)

/-! ### Ports (R440 to R444) -/

/-- R443: write the port record, leave for OUT, and resolve the port's connections. -/
def State.mapOutPort (s : State) (p : Nat) : State :=
  let s := { s with lnk := { s.lnk with portRecord := if s.lnk.portRecord.contains p then s.lnk.portRecord else s.lnk.portRecord ++ [p] } }
  let ks := (s.portConns p).filter fun k => (s.conn k).isOpen
  let s := s.portTo p .out
  (ks.foldl (fun s k => s.failConn p k) s).lnkEvent 2

/-- A port goes DOWN; EVENT.DOWN is set when it leaves UP (Table 11.12). -/
def State.portDown (s : State) (p : Nat) : State :=
  if (s.port p).state = .up then (s.portTo p .down).lnkEvent 0 else s.portTo p .down

/-- R443: a port meets the first case: OUT under AUTO, else held DOWN. -/
def State.portLimit (s : State) (p : Nat) : State :=
  if (s.reg (blkLNK + 0x18)).getLsbD 31 then s.mapOutPort p
  else ((s.portTo p .down).modPort p fun x => { x with heldDown := true }).lnkEvent 0

/-- R441, R443: training fails. -/
def State.trainFail (s : State) (p : Nat) : State :=
  let s := s.modPort p fun x => { x with trainFails := if x.signal then x.trainFails + 1 else x.trainFails }
  if (s.port p).signal && decide (3 ≤ (s.port p).trainFails) then s.portLimit p else s.portTo p .down



/-- R440 to R442: a port enters TRAINING; a module above CABLE_POWER sends it back to DOWN. -/
def State.train (s : State) (p : Nat) : State :=
  let s := (s.portTo p .training).modPort p fun x => { x with heldDown := false }
  if s.portMode p = 1 ∧ (s.portEntry p).cablePower < (s.port p).powerClass then (s.trainFail p).lnkEvent 4
  else s.sendIdent p (s.connKey p 0) true

/-- PORT_SIGNAL_LOSS (R440): loss of signal for 2 µs. -/
def State.signalLoss (s : State) (p : Nat) : State :=
  let s := s.modPort p fun x => { x with signal := false }
  if (s.port p).state = .up then s.portDown p else s

/-- PORT_SIGNAL_LOSS (R440). A package that does not run keeps the level its receiver sees. -/
def execPortSignalLoss (p : Port) (s : State) : Host.Outcome State Fault Refusal :=
  .next (if s.answers then s.signalLoss p else s.modPort p fun x => { x with signal := false })

/-- PORT_SIGNAL_DETECT (R440). -/
def State.signalDetect (s : State) (p : Nat) : State :=
  let s := s.modPort p fun x => { x with signal := true }
  if (s.port p).state = .down ∧ !(s.port p).heldDown then s.train p else s

/-- PORT_SIGNAL_DETECT (R440). A package that does not run keeps the level its receiver sees. -/
def execPortSignalDetect (p : Port) (s : State) : Host.Outcome State Fault Refusal :=
  .next (if s.answers then s.signalDetect p else s.modPort p fun x => { x with signal := true })

/-- One hour of local tick. -/
def hourTicks : Nat := 360000000000

/-- R440, R443: an UP port enters RETRAIN; more than RETRAIN_MAX of them in an hour meet the first case of R443. A
connection whose peer has another live choice is resolved; the others keep their frames (R422, R423). -/
def State.retrainEntry (s : State) (p : Nat) : State :=
  if (s.port p).state ≠ .up then s
  else
    let s := (s.portTo p .retrain).bump (portOff p 0x40) 1
    let s := s.modPort p fun x => { x with retrains := x.retrains.filter (fun t => s.now < t + hourTicks) ++ [s.now] }
    if (s.reg (blkLNK + 0x18)).toNat % 256 < (s.port p).retrains.length then s.portLimit p
    else ((s.portConns p).filter fun k => (s.conn k).isOpen).foldl (fun s k => s.failConn p k) s

/-- R421 to R423: a connection has failed. A NATIVE port leaves UP for RETRAIN with it (Table 11.8). -/
def State.connectionFail (s : State) (p node : Nat) : State :=
  let k := s.connKey p node
  if !s.connFailed k then s
  else
    let s := if s.portMode p = 1 then s.retrainEntry p else s
    if (s.conn k).isOpen then s.failConn p k else s

/-- CONNECTION_FAIL (R422). -/
def execConnectionFail (p : Port) (node : Node) (s : State) : Host.Outcome State Fault Refusal :=
  .next (s.whileOn fun s => s.connectionFail p node.toNat)

/-- PORT_RETRAIN_ENTRY (R440): loss of PCS lock, more than 16 uncorrectable codewords in 1 ms, or a failed NATIVE
connection. -/
def execPortRetrainEntry (p : Port) (s : State) : Host.Outcome State Fault Refusal := .next (s.whileOn fun s => s.retrainEntry p)

/-- PORT_TRAINING_TIMEOUT (R441). -/
def State.trainingTimeout (s : State) (p : Nat) : State :=
  let bound := if s.portMode p = 1 then 25000000 else 50000000
  if (s.port p).state = .training ∧ (s.port p).since + bound ≤ s.now then s.trainFail p else s

/-- PORT_TRAINING_TIMEOUT (R441). -/
def execPortTrainingTimeout (p : Port) (s : State) : Host.Outcome State Fault Refusal := .next (s.whileOn fun s => s.trainingTimeout p)

/-- PORT_RETRAIN_TIMEOUT (R440): a RETRAIN not complete in 30 ms. -/
def State.retrainTimeout (s : State) (p : Nat) : State :=
  if (s.port p).state = .retrain ∧ (s.port p).since + 3000000 ≤ s.now then s.portDown p else s

/-- PORT_RETRAIN_TIMEOUT (R440). -/
def execPortRetrainTimeout (p : Port) (s : State) : Host.Outcome State Fault Refusal := .next (s.whileOn fun s => s.retrainTimeout p)

/-- PORT_DOWN_RETRY (R440): 1 s in DOWN, or at once where its receiver detects signal. -/
def State.downRetry (s : State) (p : Nat) : State :=
  if (s.port p).state = .down ∧ !(s.port p).heldDown ∧ ((s.port p).signal ∨ (s.port p).since + 100000000 ≤ s.now) then s.train p else s

/-- PORT_DOWN_RETRY (R440). -/
def execPortDownRetry (p : Port) (s : State) : Host.Outcome State Fault Refusal := .next (s.whileOn fun s => s.downRetry p)

/-- PORT_RETRAIN_DONE (R440, R423): a port in RETRAIN regains its link; sending resumes. A NATIVE connection that was
resolved meanwhile opens anew with an IDENT exchange (log 13). -/
def State.retrainDone (s : State) (p : Nat) : State :=
  if (s.port p).state = .retrain ∧ s.now < (s.port p).since + 3000000 then
    let s := s.portTo p .up
    let s := (s.portConns p).foldl (fun s k => match (s.conn k).held with
      | [] => s
      | h :: _ => if (s.conn k).isOpen then s.replayFrom p k (h.lsn % 0x1000000) else s) s
    if s.portMode p = 1 ∧ !(s.conn (s.connKey p 0)).isOpen then s.sendIdent p (s.connKey p 0) true else s
  else s

/-- PORT_RETRAIN_DONE (R440). -/
def execPortRetrainDone (p : Port) (s : State) : Host.Outcome State Fault Refusal := .next (s.whileOn fun s => s.retrainDone p)

/-- MODULE_FLAG_POLL (R442): what the module of a NATIVE port's cable shows. -/
def State.modulePoll (s : State) (p : Nat) (los fault alarm : Bool) (temp powerClass state : Nat) : State :=
  let s := s.modPort p fun x => { x with temp, powerClass, moduleState := state }
  if s.portMode p ≠ 1 then s
  else if alarm ∧ ((s.port p).state = .up ∨ (s.port p).state = .retrain) then s.portDown p
  else if los || fault then s.retrainEntry p
  else s

/-- MODULE_FLAG_POLL (R442). -/
def execModuleFlagPoll (p : Port) (los fault alarm : Bool) (temp powerClass state : Byte) (s : State) : Host.Outcome State Fault Refusal :=
  .next (s.whileOn fun s => s.modulePoll p los fault alarm temp.toNat powerClass.toNat state.toNat)

/-- PORT_REQ (R443): a write of PORT_REQ. -/
def State.portReq (s : State) (w : Word) : State :=
  let p := w.toNat % 64
  if !w.getLsbD 31 then s
  else if 36 ≤ p ∨ (s.port p).state = .off ∨ (s.port p).state = .out then s.lnkEvent 5
  else s.mapOutPort p

/-- PORT_REQ (R443). -/
def execPortReq (value : Word) (s : State) : Host.Outcome State Fault Refusal := .next (s.whileOn fun s => s.portReq value)

/-! ### IDENT, DRAIN_NOTICE, rekeying (R428, R441, R447, R518, R522) -/

/-- R518: whether a connection to a node may open: its key is listed and Z has been computed. -/
def State.keyReady (s : State) (node : Nat) : Bool :=
  (match s.image with
    | some im => (SMap.keys im.links).contains node
    | none => false) && s.lnk.zReady.contains node

/-- R428: blocks that the sender counts as held at the receiver, for one class. -/
def Conn.heldAt (c : Conn) (cls : Nat) : Nat := (nth 0 c.consumed cls + 0x100000000 - nth 0 c.freedIn cls) % 0x100000000

/-- R428: compare the reported free blocks of one class with this package's own count of held blocks. -/
def State.creditCheck (s : State) (p k : Nat) (blocks : List Nat) (cls : Nat) : State :=
  let c := s.conn k
  let alloc := nth 0 (s.portEntry p).vlAlloc (cls / 2)
  let held := (alloc : Int) - (nth 0 c.init cls : Int) + (c.heldAt cls : Int)
  let diff := (alloc : Int) - (nth 0 blocks cls : Int) - held
  if c.init.isEmpty ∨ diff = 0 then s
  else (s.bump (lnkCtr 0x60) 1).ripple ripCreditMismatch 0 0x80 (p + 64 * (cls / 2) + 512 * (cls % 2)) (BitVec.ofInt 64 diff).toNat

/-- R519: take the peer's N: the keys of both directions follow from it and from the N sent. -/
def State.switchKeys (s : State) (p k : Nat) (i : IdentFrame) : State :=
  let x := s.linkKeys i.node p i.port (s.conn k).nOwn i.nonce
  s.modConn k fun c => { c with nPeer := i.nonce, keyTx := x.1, keyRx := x.2, ctlTx := 0, ctlRx := none }

/-- Open a connection at an IDENT (R418, R428). Frames still held of an earlier one are sent first. -/
def State.openConn (s : State) (p : Nat) (i : IdentFrame) : State :=
  let k := s.connKey p i.node
  let old := (s.conn k).held
  let before := s
  let s := if s.portMode p = 1 then (List.range 16).foldl (fun s cls => s.creditCheck p k i.blocks cls) s else s
  let s := s.modConn k fun _ =>
    { peer := i.node, peerPort := i.port, isOpen := true, rxOpen := true, init := if s.portMode p = 1 then i.blocks else [], lastTx := s.now,
      lastRx := s.now, opened := s.now, nOwn := (s.conn k).nOwn, freedOut := (s.conn k).freedOut, reported := (s.conn k).reported }
  let s := s.switchKeys p k i
  let s := old.reverse.foldl (fun s h => s.toEgress { h.frame with inPort := none } true) s
  s.routesChanged before

/-- R428: the receiver's figure of its free blocks, taken where this package's own count differs. -/
def State.takeFigure (s : State) (p k : Nat) (blocks : List Nat) : State :=
  if s.portMode p ≠ 1 then s
  else
    let s := (List.range 16).foldl (fun s cls => s.creditCheck p k blocks cls) s
    s.modConn k fun c => if c.init.isEmpty then c else { c with freedIn := (List.range 16).map fun cls =>
      (nth 0 blocks cls + nth 0 c.consumed cls + 0x100000000 - nth 0 c.init cls) % 0x100000000 }

/-- R522: both ends switch keys at the IDENT exchange, and numbering restarts at 0. Frames that this end still holds are
protected again under the new keys. -/
def State.rekeyed (s : State) (p k : Nat) (i : IdentFrame) : State :=
  let s := s.takeFigure p k i.blocks
  let old := (s.conn k).held
  let s := (s.switchKeys p k i).modConn k fun c =>
    { c with nextLsn := 0, expect := 0, held := [], opened := s.now, rekeying := false, ackDue := none }
  old.reverse.foldl (fun s h => s.toEgress { h.frame with inPort := none } true) s

/-- IDENT (R441): an IDENT arrives; `trained` says that both ends have completed link training and the peer has accepted
this package's IDENT. -/
def State.identIn (s : State) (p : Nat) (i : IdentFrame) (trained : Bool) : State :=
  let st := (s.port p).state
  let native := decide (s.portMode p = 1)
  let e := s.portEntry p
  if st ≠ .training ∧ st ≠ .up then s
  else if !i.authentic then s.bump (portOff p 0x38) 1
  else if !s.keyReady i.node || (native && (decide (i.node ≠ e.peerNode) || decide (i.port ≠ e.peerPort))) then
    if native && decide (st = .training) then (s.trainFail p).lnkEvent 3 else s
  else
    let k := s.connKey p i.node
    let s := s.sawIncarnation i.node i.inc true
    let s := s.modPort p fun x => { x with peerValid := true, drained := false, peerPort := i.port, peerNode := i.node }
    if (s.conn k).rekeying then s.rekeyed p k i
    else if st = .training then
      if trained then ((s.openConn p i).portTo p .up).modPort p fun x => { x with trainFails := 0 } else s
    else if (s.conn k).isOpen && !(s.conn k).failed then
      if i.nonce = (s.conn k).nPeer then s else (s.sendIdent p k true).rekeyed p k i
    else (s.sendIdent p k false).openConn p i

/-- IDENT (R441). -/
def execIdent (p : Port) (frame : IdentFrame) (trained : Bool) (s : State) : Host.Outcome State Fault Refusal :=
  .next (s.whileOn fun s => s.identIn p frame trained)

/-- DRAIN_NOTICE (R447): the port goes DOWN with PEER.DRAINED set, and raises no UNREACH for that peer. -/
def State.drainNotice (s : State) (p node ackLsn : Nat) (shown : CtlSeal) : State :=
  match s.controlIn p node ackLsn shown with
  | (s, false) => s
  | (s, true) =>
    let peer := if s.portMode p = 1 then (s.portEntry p).peerNode else node
    let s := s.modPort p fun x => { x with drained := true, peerNode := peer }
    (s.modNode peer fun x => { x with drainNotice := true }).portDown p

/-- DRAIN_NOTICE (R447). -/
def execDrainNotice (p : Port) (node : Node) (ackLsn : BitVec 24) (shown : CtlSeal) (s : State) :
    Host.Outcome State Fault Refusal :=
  .next (s.whileOn fun s => s.drainNotice p node.toNat ackLsn.toNat shown)

/-- R522: a connection has reached a limit: its extended LSN, its control counter, or 24 hours. -/
def Conn.worn (c : Conn) (now : Nat) : Bool :=
  c.rekeying || decide (2 ^ 40 ≤ c.nextLsn) || decide (2 ^ 40 ≤ c.ctlTx) || decide (c.opened + 8640000000000 ≤ now)

/-- LINK_REKEY (R522): an open connection reaches a limit: it stops sending new frames, and exchanges IDENT once every
held frame has been acknowledged. -/
def State.linkRekey (s : State) (p node : Nat) : State :=
  let k := s.connKey p node
  let c := s.conn k
  if !c.isOpen ∨ c.failed ∨ !c.worn s.now then s
  else if c.held.isEmpty then (s.modConn k fun c => { c with rekeying := true }).sendIdent p k true
  else s.modConn k fun c => { c with rekeying := true }

/-- LINK_REKEY (R522). -/
def execLinkRekey (p : Port) (node : Node) (s : State) : Host.Outcome State Fault Refusal := .next (s.whileOn fun s => s.linkRekey p node.toNat)

/-- PFC_RECEIVE (R429): the switch pauses or releases a VL of an ETH port. -/
def execPfcReceive (p : Port) (vl : Fin 8) (pause : Bool) (s : State) : Host.Outcome State Fault Refusal :=
  .next (s.whileOn fun s => if s.portMode p = 2 then
    s.modPort p fun x => { x with paused := if pause then (if x.paused.contains vl.val then x.paused else x.paused ++ [vl.val]) else x.paused.erase vl.val }
    else s)

/-- LINK_Z_COMPUTED (R543): Z of a listed node has been computed. -/
def execLinkZComputed (node : Node) (s : State) : Host.Outcome State Fault Refusal :=
  .next (s.whileOn fun s => match s.image with
    | some im =>
      if (SMap.keys im.links).contains node.toNat && !s.lnk.zReady.contains node.toNat then
        { s with lnk := { s.lnk with zReady := s.lnk.zReady ++ [node.toNat] } }
      else s
    | none => s)

end Sys2Proof.Machine
end

