-- ==== Sys2Proof/Machine/Drain.lean ====
section
/-! DEFINITION. Sys2Proof/Machine/Drain.lean: when the package or a cove is drained or idle (spec/01_package_overview.md
R52, spec/15_jieverik_image.md R559, R505), and what enters and leaves those conditions. -/
namespace Sys2Proof.Machine
open Sys2Proof

/-- What the sequencer keeps of a cove. -/
def State.seqc (s : State) (c : Nat) : SeqCove := vget {} s.seq c

/-- Change what the sequencer keeps of a cove. -/
def State.modSeq (s : State) (c : Nat) (f : SeqCove → SeqCove) : State := { s with seq := vmod s.seq c f }

/-- Entries of the stream table that are not FREE. -/
def State.liveEntries (s : State) : List Nat := (s.streams.filter fun x => entField x.2 0 1 ≠ 0).map Prod.fst

/-- Cove of the work of a router. -/
def Router.cove : Router → Option Nat
  | .idle => none
  | .route r => some r.cove
  | .recv r => some r.cove

/-- A cove's queues hold work, or an engine runs a tile, unit, descriptor, list or load of it (R52, R559). -/
def State.coveWork (s : State) (c : Nat) : Bool :=
  !(vget [] s.ponds c).isEmpty || !(vget [] s.atnLists c).isEmpty || !(vget [] s.shoalQ c).isEmpty || !(vget [] s.bsn.queues c).isEmpty ||
    !(vget [] s.inl.queues c).isEmpty ||
    s.cores.toList.any (fun x => x.any fun r => r.cove = c) || s.atns.toList.any (fun x => x.any fun r => r.cove = c) ||
    s.routers.toList.any (fun r => r.cove = some c) || s.bsn.engines.toList.any (fun x => x.any fun r => r.job.cove = c) ||
    s.bsn.direct.any (fun j => j.cove = c) || s.inl.ctx.toList.any (fun x => x.any fun l => l.cove = c)

/-- The cove of the window that a request came through. -/
def State.reqCove (s : State) (r : BasinReq) : Nat := (s.window r.window).cove

/-- Basin requests through the package's export windows that are in progress. -/
def State.inProgress (s : State) : List BasinReq :=
  (s.bsn.inReq.map Prod.fst) ++ (s.bsn.seqIn.flatMap fun x => x.2.held.map fun h => h.1) ++
    ((vget [] s.bsn.dieQ 0) ++ (vget [] s.bsn.dieQ 1) ++ s.bsn.applyQ).flatMap fun g => g.reqs.map Prod.snd

/-- Transactions of a cove that it has issued and that have not ended. -/
def State.issuedBy (s : State) (c : Nat) : Bool :=
  (s.bsn.credits.any fun x => x.2.any fun o => o.cove = c && !o.timedOut) || (s.bsn.txWait.any fun t => t.req.srcCove = c) ||
    s.bsn.flagHeld.any fun f => f.tx.req.srcCove = c

/-- R559: a cove is drained. -/
def State.coveDrained (s : State) (c : Nat) : Bool :=
  !(s.liveEntries.any fun e => decide (s.homeCove e = some c) || decide (s.sServeCove e = c)) && !(s.seqc c).stepEn && !s.coveWork c &&
    !(s.objs.any fun o => decide (o.1 / 16384 = c) && (o.2.word.state = .loading || o.2.word.state = .promoting || o.2.word.state = .evicting)) &&
    !(s.inProgress.any fun r => r.opc ≠ 5 && s.reqCove r = c) && !s.issuedBy c

/-- Every link credit that the package has lent has been returned (R52). -/
def State.linkCreditsBack (s : State) : Bool :=
  s.lnk.ports.toList.all (fun p => p.heldBlocks.all fun b => b = 0) && s.lnk.conns.all fun x => !x.2.isOpen || x.2.freedOut = x.2.reported

/-- R52: the package is drained. -/
def State.drained (s : State) : Bool :=
  s.liveEntries.isEmpty && s.linkCreditsBack && (s.bsn.credits.all fun x => x.2.isNone) && s.bsn.txWait.isEmpty && s.bsn.flagHeld.isEmpty &&
    ((List.range 8).all fun c => !s.coveWork c) && s.inProgress.isEmpty

/-- Table 13.4: nothing runs that keeps the package out of P1. -/
def State.idle (s : State) : Bool :=
  ((List.range 8).all fun c => !s.coveWork c && (s.seqc c).run.isNone) && s.inProgress.isEmpty && s.bsn.txWait.isEmpty && s.hbm.move.isNone

/-- R596: judge STAT.DRAINED; its rise sets EVENT.DRAINED_NOW. -/
def State.judgeDrained (s : State) : State :=
  let d := s.drained
  let was := s.hif.drainedWas
  let s := { s with hif := { s.hif with drainedWas := d } }
  if d && !was then s.hifEvent 1 else s

/-- R447: send DRAIN_NOTICE on every open connection. -/
def State.sendDrainNotices (s : State) : State :=
  (SMap.keys (SMap.filter (fun _ c => c.isOpen) s.lnk.conns)).foldl (fun s k => s.control (k / 65536) k 8 []) s

/-- Take every port DOWN, but those OFF or OUT; connections close and nothing of them is kept (Table 16.8). -/
def State.closePorts (s : State) : State :=
  let ports := s.lnk.ports.map fun p => if p.state = .off ∨ p.state = .out then p
    else ({ p with state := .down, since := s.now, peerValid := false, heldBlocks := List.replicate 16 0, drr := List.replicate 8 (0, 0, false) } : PortX)
  let s' := { s with lnk := { s.lnk with ports, conns := [], egress := [] } }
  s'.routesChanged s

/-- Ports whose mode is not OFF and that are not OUT start training. -/
def State.trainPorts (s : State) : State :=
  (List.range s.portCount).foldl (fun s p => if s.portMode p ≠ 0 ∧ (s.port p).state ≠ .out then s.train p else s) s

/-- Zero the granules of the Meres that satisfy a test. -/
def State.zeroMereIf (s : State) (p : Nat → Bool) : State :=
  let out (a : Nat) : Bool := decide (s.region a = .mere) && p (SMap.get 0 s.mem.tag (a / 64))
  { s with mem := { s.mem with bytes := SMap.filter (fun a _ => !out a) s.mem.bytes, tag := SMap.filter (fun g _ => !out (64 * g)) s.mem.tag } }

/-- Zero the Meres (R516, R536, Table 16.8). -/
def State.zeroMeres (s : State) : State := s.zeroMereIf fun _ => true

/-- R516: zero what a cove has written in the Meres (DEDUCED, log 26). -/
def State.zeroMereOf (s : State) (c : Nat) : State := s.zeroMereIf fun t => decide (t % 16 = 1 + c)

end Sys2Proof.Machine
end

