-- ==== Sys2Proof/Machine/Keys.lean ====
section
/-! DEFINITION. Sys2Proof/Machine/Keys.lean: model keys and their erasure, the security state and what leaves it, cove
epochs (spec/14_security.md R516, R529, R533, R539). -/
namespace Sys2Proof.Machine
open Sys2Proof

/-- Change the WH block. -/
def State.modWh (s : State) (f : Wh → Wh) : State := { s with wh := f s.wh }

/-- WH.EVENT bits (Table 14.12). -/
def State.whEvent (s : State) (i : Nat) : State := s.event (blkWH + 0x4) i 6

/-- A WH counter (Table 14.13). -/
def State.whCount (s : State) (r : Nat) : State := s.bump (blkWH + r) 1

/-- The digest of the running firmware (Table 14.5). -/
def State.fwDigest (s : State) : List Byte := if s.jvk.fwRunning.isEmpty then Config.measured 2 else sha384 s.jvk.fwRunning

/-- CDI, the seed of the alias keys: of the mask ROM, the firmware and the security state at the cold reset (R511; the
state as one byte, log 6). -/
def State.cdi (s : State) : List Byte :=
  hmac384 (fusedSecret s.wh.bootDestroyed 3 48) (Config.measured 1 ++ s.fwDigest ++ [BitVec.ofNat 8 s.wh.bootSec.code])

/-- A signature by an alias key: 0 ALIAS_RSA, 1 ALIAS_SLH (R475, R527). -/
def State.aliasSign (s : State) (k : Nat) (m : List Byte) : List Byte := Config.signature k s.cdi m

/-- A certificate chain (R525): that of LINK_KA names no alias key. -/
def State.certChain (s : State) (slot : Nat) : List Byte := Config.certChain slot (if slot = 1 then [] else s.cdi)

/-- Slots that hold a key. -/
def State.heldKeys (s : State) : List Nat := (List.range 32).filter fun i => (vget none s.wh.keys i).isSome

/-- R341, R358: loads and reruns that decrypt under the key of a slot have it no longer; KEY_ID is byte 6 of the descriptor. -/
def State.loadsLoseKey (s : State) (cove slot : Nat) : State :=
  { s with inl := { s.inl with ctx := s.inl.ctx.map fun (k : Option LoadCtx) => k.map fun (k : LoadCtx) =>
      if k.cove = cove ∧ (nth 0 k.desc 6).toNat = slot then ({ k with key := none } : LoadCtx) else k } }

/-- Erase one held key: its slot is emptied, KEY_ERASES and EVENT.KEY_ERASED follow, and the VF of its cove is told
(R533, Table 16.4). -/
def State.eraseKey (s : State) (i : Nat) : State :=
  match vget none s.wh.keys i with
  | none => s
  | some k => ((((s.loadsLoseKey k.cove i).modWh fun w => { w with keys := vmod w.keys i fun _ => none }).whCount 0x50).whEvent 1).raise (1 + k.cove) 4

/-- Erase the slots that satisfy a test (R533). -/
def State.eraseKeys (s : State) (p : ModelKey → Bool) : State :=
  (s.heldKeys.filter fun i => (vget none s.wh.keys i).any p).foldl (fun s i => s.eraseKey i) s

/-- Erase every model key (Table 14.7). -/
def State.eraseAllKeys (s : State) : State := s.eraseKeys fun _ => true

/-- Erase the keys bound to a cove (Table 14.7). -/
def State.eraseCoveKeys (s : State) (c : Nat) : State := s.eraseKeys fun k => decide (k.cove = c)

/-- R533: a binding measurement changes while ATTESTED: SEALED, every key erased. -/
def State.loseAttested (s : State) : State :=
  if s.wh.sec = .attested then (((s.modWh fun w => { w with sec := .sealed }).eraseAllKeys).whCount 0x58).whEvent 2 else s

/-- The state at another debug level. -/
def State.withDebug (s : State) (d : Nat) : State := { s with debug := d }

/-- R629: the recorder closes its record when its grain changes. -/
def State.grainTo (s : State) (d : Nat) : State := if s.grainFine = (s.withDebug d).grainFine then s else s.ripShut

/-- The open batch is marked while the level is D2 or D3 (Table 12.4). -/
def State.fineBatch (s : State) : State :=
  if 2 ≤ s.debug ∧ s.gau.batchLive then
    { s with gau := { s.gau with batches := SMap.upd ({} : Batch) s.gau.batches (s.gau.batchNext % 64) fun b => { b with fine := true } } }
  else s

/-- A new debug level (Table 14.8). -/
def State.setDebug (s : State) (d : Nat) : State :=
  if s.debug = d then s else (((s.grainTo d).withDebug d).fineBatch).whEvent 3

/-- R516: a cove's epoch rises by one. -/
def State.nextEpoch (s : State) (c : Nat) : State := { s with epochs := vmod s.epochs c fun e => (e + 1) % 0x1000000000000 }

/-- R516: every cove's epoch rises by one. -/
def State.nextEpochs (s : State) : State := { s with epochs := s.epochs.map fun e => (e + 1) % 0x1000000000000 }

end Sys2Proof.Machine
end

