-- ==== Sys2Proof/Machine/Weir.lean ====
section
/-! DEFINITION. Sys2Proof/Machine/Weir.lean: power caps, the control loop, droop, temperature, the stop, margin trim and
power states (spec/13_power_and_thermal.md). -/
namespace Sys2Proof.Machine
open Sys2Proof

/-- Change the WEIR block. -/
def State.modWeir (s : State) (f : Weir → Weir) : State := { s with weir := f s.weir }

/-- WEIR.EVENT bits (Table 13.7). -/
def State.weirEvent (s : State) (i : Nat) : State := s.event (blkWEIR + 4) i 4

/-- A WEIR counter (Table 13.8). -/
def State.weirCount (s : State) (r n : Nat) : State := s.bump (blkWEIR + r) n

/-- SUSTAINED_W, BURST_W, BURST_MS, GUARD_W, DROOP_RATE and TJ_LIMIT (Table 13.7). -/
def State.sustainedW (s : State) : Nat := bits (s.reg (blkWEIR + 8)).toNat 0 13
def State.burstW (s : State) : Nat := bits (s.reg (blkWEIR + 8)).toNat 16 13
def State.burstMs (s : State) : Nat := bits (s.reg (blkWEIR + 0xC)).toNat 0 8
def State.guardW (s : State) : Nat := bits (s.reg (blkWEIR + 0xC)).toNat 8 8
def State.droopRate (s : State) : Nat := bits (s.reg (blkWEIR + 0x28)).toNat 8 8
def State.tjLimit (s : State) : Nat := (s.reg (blkWEIR + 0x2C)).toNat % 256

/-- The preset of a CAP_LVL (R491). -/
def State.capPreset (s : State) (lvl : Nat) : Nat := bits (s.reg (blkWEIR + 0x10 + 4 * (lvl / 2))).toNat (16 * (lvl % 2)) 16

/-- The fast cap, and the effective cap: the lesser of the I3C cap and the fast cap (R491, R494). -/
def State.fastCap (s : State) : Nat := s.capPreset s.weir.lvl
def State.capEff (s : State) : Nat := Nat.min s.weir.capI3c s.fastCap

/-- C_MAX of R486. -/
def State.creditMax (s : State) : Nat := (s.burstW - s.sustainedW) * 1000 * s.burstMs

/-- R486: a burst is allowed. -/
def State.burstOk (s : State) : Bool :=
  decide (0 < s.weir.credit) && match s.weir.aboveSince with
    | some t => decide (s.now < t + 100000 * s.burstMs)
    | none => true

/-- R506: the governor acts while an image is committed and the package is in P0 or P1. -/
def State.governed (s : State) : Bool := s.image.isSome && decide (s.pstate < 2)

/-- R493: enter floor mode. -/
def State.enterFloor (s : State) : State :=
  if s.weir.floor then s.modWeir fun w => { w with n := 2 }
  else ((s.modWeir fun w => { w with floor := true, floorSince := s.now, n := 2 }).weirCount 0x50 1).weirEvent 1

/-- R494: a calibrated sample of the package, in gauge units over 2 µs, against the effective cap. -/
def State.capLagSample (s : State) (e : Nat) : State :=
  let cap := s.capEff
  if cap * 0x2000000 < e then
    let s := if s.weir.capLag.isSome then s
      else ((s.modWeir fun w => { w with capLag := some (s.now, cap) }).weirCount 0x40 1).weirEvent 0
    let cap0 := (s.weir.capLag.getD (0, cap)).2
    s.ripple ripCapLag 0 0x80 (cap0 % 8192) (e / 0x2000000 - cap)
  else match s.weir.capLag with
    | none => s
    | some (t, _) => ((s.modWeir fun w => { w with capLag := none }).weirCount 0x48 ((s.now - t) / 100)).ripCloseKind ripCapLag

/-- R498: set the thermal ceiling; a change counts, and a fall from 16 is an event. -/
def State.setNTh (s : State) (n : Nat) : State :=
  if n = s.weir.nTh then s
  else
    let from16 := decide (s.weir.nTh = 16)
    let s := (s.modWeir fun w => { w with nTh := n }).weirCount 0x68 1
    if from16 then s.weirEvent 2 else s

/-- R498: the hottest junction of a set of readings; a sensor that does not answer reads as TJ_LIMIT. -/
def State.hottest (s : State) (tj : List (Option Nat)) : Nat := (tj.map fun x => x.getD s.tjLimit).foldl Nat.max 0

/-- R498: the thermal ceiling at a closure. -/
def State.thermalClosure (s : State) (tj : List (Option Nat)) : State :=
  let hot := s.hottest tj
  let s := if tj.contains none then s.modWeir fun w => { w with tjFail := true } else s
  let n1 := if s.tjLimit ≤ hot then Nat.max 2 (s.weir.nTh - 1) else s.weir.nTh
  let rows := s.hbm.temps.toList.map fun t => t.row
  let n2 := if rows.any fun r => r = 4 then Nat.min n1 8 else if rows.any fun r => r = 3 then Nat.min n1 12 else n1
  let s := if s.tjLimit ≤ hot + 3 then s.modWeir fun w => { w with coolMs := false } else s
  s.setNTh n2

/-- R497: the droop ceiling at a closure. -/
def State.droopClosure (s : State) : State :=
  s.modWeir fun w =>
    let trips := w.trips.filter fun t => s.now < t + 100000
    { w with trips, nDr := if s.droopRate ≤ trips.length then Nat.max 2 (w.nDr - 1) else w.nDr }

/-- R486, R488: p10 of the samples since the last closure, and the burst credit. -/
def State.powerClosure (s : State) : State :=
  let l := s.weir.samples
  let p10 := if l.isEmpty then s.weir.p10 else l.sum / (0x2000000 * l.length)
  let above := decide (s.sustainedW < p10)
  let s := if above && s.weir.aboveSince.isNone then s.weirCount 0x60 1 else s
  s.modWeir fun w =>
    let c : Int := (w.credit : Int) + ((s.sustainedW : Int) - (p10 : Int)) * 10
    { w with p10, samples := [], credit := Nat.min s.creditMax c.toNat,
             aboveSince := if above then some (w.aboveSince.getD (s.now - 1000)) else none }

/-- R492: the internal limit at a closure: it steps down toward the cap, and 90 µs or more after the acceptance a limit
still above the cap forces the floor. -/
def State.capClosure (s : State) : State :=
  match s.weir.following with
  | some t =>
    let l := Nat.max s.weir.capI3c (s.weir.lInt - 200)
    let s := s.modWeir fun w => { w with lInt := l, following := if l ≤ w.capI3c then none else some t }
    if s.weir.capI3c < l ∧ t + 9000 ≤ s.now then s.enterFloor else s
  | none => if s.weir.raise then s.modWeir fun w => { w with lInt := w.capI3c, raise := false } else s

/-- R488: n of a closure. -/
def State.setN (s : State) : State :=
  let w := s.weir
  let lim := Nat.min w.lInt (Nat.min s.fastCap (if s.burstOk then s.burstW else s.sustainedW))
  let cap := Nat.min w.nMax (Nat.min w.nTh w.nDr)
  let hold (n : Nat) : Nat := Nat.max 2 (Nat.min n cap)
  if w.floor then
    if w.floorSince + 10000 ≤ s.now ∧ w.p10 + s.guardW ≤ lim then
      s.modWeir fun w => { w with lim, n := hold 2, floor := false, floorEnded := s.now }
    else s.modWeir fun w => { w with lim, n := hold 2 }
  else if lim < w.p10 then s.modWeir fun w => { w with lim, n := hold (Nat.max 2 (w.n * lim / w.p10)) }
  else if w.p10 * (w.n + 1) ≤ (lim - s.guardW) * w.n then s.modWeir fun w => { w with lim, n := hold (w.n + 1) }
  else s.modWeir fun w => { w with lim, n := hold w.n }

/-- LOOP_CLOSURE (R486 to R498): a closure at a multiple of 1,000 local ticks, with the junction readings taken. -/
def State.loopClosure (s : State) (tj : List (Option Nat)) : State :=
  if s.now % 1000 ≠ 0 ∨ s.weir.lastClosure = some s.now ∨ !s.governed ∨ s.stopped then s
  else
    let s := s.modWeir fun w => { w with lastClosure := some s.now }
    (((((s.thermalClosure tj).droopClosure).powerClosure).capClosure).setN)

/-- LOOP_CLOSURE (R488). -/
def execLoopClosure (junctions : List (Option Nat)) (s : State) : Host.Outcome State Fault Refusal :=
  .next (s.whileOn fun s => s.loopClosure junctions)

/-- WEIR_MS_TICK (R497, R498): each millisecond the ceilings may rise and droops are reported. -/
def State.weirMs (s : State) : State :=
  if s.now % 100000 ≠ 0 ∨ s.weir.lastMs = some s.now ∨ !s.governed ∨ s.stopped then s
  else
    let trips := (s.weir.trips.filter fun t => s.now ≤ t + 100000).length
    let cool := s.weir.coolMs
    let s := s.modWeir fun w =>
      { w with lastMs := some s.now, coolMs := true, nDr := if 2 * trips < s.droopRate then Nat.min 16 (w.nDr + 1) else w.nDr }
    let rows := s.hbm.temps.toList.map fun t => t.row
    let top := if rows.any fun r => r = 4 then 8 else if rows.any fun r => r = 3 then 12 else 16
    let s := if cool then s.setNTh (Nat.min top (s.weir.nTh + 1)) else s
    let ds := s.rip.droops
    let s := { s with rip := { s.rip with droops := [] } }
    if ds.isEmpty ∨ !s.grainFine then s
    else s.rippleHist ripDroop ((ds.map fun d => Nat.min 255 (d.2 / 2)).foldl Nat.max 0) 0x80 (s.now - 100000) (ds.map Prod.fst)

/-- WEIR_MS_TICK (R497). -/
def execWeirMsTick (s : State) : Host.Outcome State Fault Refusal := .next (s.whileOn fun s => s.weirMs)

/-- I3C_CAP (R490, R492, R651): a private write to the Weir's cap address. -/
def State.i3cCap (s : State) (bs : List Byte) : State :=
  if s.pstate = 4 then s
  else
    let v := leNat bs
    let cap := bits v 0 13
    if bs.length ≠ 8 ∨ bits v 13 3 ≠ 0 ∨ bits v 24 40 ≠ 0 ∨ cap < 1800 ∨ 4200 < cap then
      ((s.weirCount 0x70 1).weirEvent 5).emit (.i3c false)
    else
      let s := s.modWeir fun w =>
        if cap < w.lim then { w with capI3c := cap, lInt := Nat.max cap (Nat.min w.lim w.p10), following := some s.now, raise := false }
        else { w with capI3c := cap, following := none, raise := true }
      s.emit (.i3c true)

/-- I3C_CAP (R490). -/
def execI3cCap (bytes : List Byte) (s : State) : Host.Outcome State Fault Refusal := .next (s.whileOn fun s => s.i3cCap bytes)

/-- CAP_LVL_ACCEPT (R491): the pins have held a level for four SK cycles. -/
def State.capLvl (s : State) (lvl : Nat) : State :=
  let old := s.fastCap
  let s := s.modWeir fun w => { w with lvl }
  if s.fastCap < old ∧ s.governed ∧ !s.stopped then s.enterFloor else s

/-- CAP_LVL_ACCEPT (R491). -/
def execCapLvlAccept (lvl : Fin 8) (s : State) : Host.Outcome State Fault Refusal := .next (s.whileOn fun s => s.capLvl lvl)

/-- DROOP_TRIP (R496): a detector of a die (0 East, 1 West) trips, at a depth in mV below its set-point. -/
def State.droopTrip (s : State) (die depth : Nat) : State :=
  let s := (s.modWeir fun w => { w with trips := w.trips ++ [s.now], stretch := vmod w.stretch die fun _ => true }).weirCount 0x58 1
  { s with rip := { s.rip with droops := s.rip.droops ++ [(0, 2 * depth + die)] } }

/-- DROOP_TRIP (R496). -/
def execDroopTrip (die : Fin 2) (depth : Nat) (s : State) : Host.Outcome State Fault Refusal := .next (s.whileOn fun s => s.droopTrip die depth)

/-- DROOP_RECOVER (R496): the rail has stayed above the threshold for 64 AK cycles; the trip lasted so many AK cycles. -/
def State.droopRecover (s : State) (die duration : Nat) : State :=
  let s := s.modWeir fun w => { w with stretch := vmod w.stretch die fun _ => false }
  { s with rip := { s.rip with droops := s.rip.droops.map fun d => if d.2 % 2 = die ∧ d.1 = 0 then (duration, d.2) else d } }

/-- DROOP_RECOVER (R496). -/
def execDroopRecover (die : Fin 2) (duration : Nat) (s : State) : Host.Outcome State Fault Refusal :=
  .next (s.whileOn fun s => s.droopRecover die duration)

/-! ### The stop (R499 to R502) -/

/-- R500: the package stops until cold reset; in P4 the pins do not act (R506). -/
def State.enterStop (s : State) : State :=
  if s.stopped ∨ s.pstate = 4 then s else ({ s with stopped := true }.modWeir fun w => { w with stopTick := s.now }).weirEvent 4

/-- THERMTRIP (R499): a junction reaches 125 °C. -/
def execThermtrip (s : State) : Host.Outcome State Fault Refusal :=
  .next (s.whileOn fun s => if s.pstate = 4 then s else (s.modWeir fun w => { w with thermtrip := true }).enterStop)

/-- COOLANT_FAIL (R500): COOLANT_FAIL_N has been low for 1 µs. -/
def execCoolantFail (s : State) : Host.Outcome State Fault Refusal := .next (s.whileOn fun s => s.enterStop)

/-! ### Margin trim (R503, R504) -/

/-- R503: trim one die by the slacks measured in turn: the steps reached, the last slack, and whether it lies in the
window. -/
def trimDie (lo hi : Int) : Nat → List Int → Int → Int × Int × Bool
  | 0, l, v => (v, l.headD lo, l.headD lo ≥ lo ∧ l.headD lo ≤ hi)
  | _, [], v => (v, lo, true)
  | n + 1, x :: l, v =>
    if x < lo then (if v < 16 then trimDie lo hi n l (v + 1) else (v, x, false))
    else if hi < x then (if -16 < v then trimDie lo hi n l (v - 1) else (v, x, false))
    else (v, x, true)

/-- Local ticks in P0 or P1 since the last trim run. -/
def State.trimElapsed (s : State) : Nat := s.weir.trimTime + (if s.pstate < 2 then s.now - s.weir.trimMark else 0)

/-- R503: a trim run is due: at boot, once memory is trained, or after 24 hours in P0 or P1, out of floor mode. -/
def State.trimDue (s : State) : Bool :=
  if !s.hif.trimDone then s.hif.hbmTrained && s.hif.deepTrained
  else decide (8640000000000 ≤ s.trimElapsed) && !s.weir.floor && (decide (s.weir.floorEnded = 0) || decide (s.weir.floorEnded + 100000 ≤ s.now))

/-- R504: a die has reached +16 steps with its slack still below the window. -/
def State.trimLimitOf (s : State) (die : Nat) (r : Int × Int × Bool) : State :=
  if r.1 = 16 ∧ r.2.1 < s.fuses.slackLo ∧ !r.2.2 then
    ((s.modWeir fun w => { w with trimLimit := true, nMax := 15 }).weirEvent 3).ripple ripTrimLimit 0 0x80 die (BitVec.ofInt 64 r.2.1).toNat
  else s

/-- TRIM_RUN (R503): one run, with the worst slack of each die as measured after each step. -/
def State.trimRun (s : State) (east west : List Int) : State :=
  if !s.trimDue then s
  else
    let start (d : Nat) : Int := if s.hif.trimDone then vget 0 s.weir.trim d else vget 0 s.weir.flashTrim d
    let e := trimDie s.fuses.slackLo s.fuses.slackHi 32 east (start 0)
    let w := trimDie s.fuses.slackLo s.fuses.slackHi 32 west (start 1)
    let t : Vector Int 2 := #v[e.1, w.1]
    let s := (s.modWeir fun x => { x with trim := t, flashTrim := t, trimTime := 0, trimMark := s.now }).weirCount 0x78 1
    let s := if e.2.2 && w.2.2 then s.modWeir fun x => { x with nMax := 16, trimLimit := false } else s
    let s := (s.trimLimitOf 0 e).trimLimitOf 1 w
    let boot := !s.hif.trimDone
    let s := { s with hif := { s.hif with trimDone := true } }
    if boot ∧ s.jvk.flashDefault.isNone then { s with hif := { s.hif with defaultDone := true } } else s

/-- TRIM_RUN (R503). -/
def execTrimRun (east west : List Int) (s : State) : Host.Outcome State Fault Refusal := .next (s.whileOn fun s => s.trimRun east west)

/-! ### Power states (R505, R506) -/

/-- Enter a power state, keeping the time spent in P0 or P1 since the last trim run. -/
def State.toPstate (s : State) (p : Nat) : State :=
  { (s.modWeir fun w => { w with trimTime := s.trimElapsed, trimMark := s.now }) with pstate := p }

/-- A request for a power state is refused. -/
def State.pstateRefuse (s : State) (st : Status) : State := s.modWeir fun w => { w with reqStatus := st.code }

/-- A request for a power state is accepted. -/
def State.pstateAccept (s : State) (p : Nat) : State := s.modWeir fun w => { w with reqStatus := 0, psWant := some p }

/-- PSTATE_REQ_P0 (R505). -/
def State.reqP0 (s : State) : State :=
  if s.weir.psWant.isSome ∨ s.pstate = 4 then s.pstateRefuse .busy
  else
    let s := if s.pstate = 3 then s.trainPorts else s
    s.pstateAccept 0

/-- PSTATE_REQ_P2 (R505). -/
def State.reqP2 (s : State) : State :=
  if s.weir.psWant.isSome ∨ 2 < s.pstate ∨ !s.drained ∨ s.wh.sec = .scrapped then s.pstateRefuse .busy else s.pstateAccept 2

/-- PSTATE_REQ_P3 (R505). -/
def State.reqP3 (s : State) : State :=
  if s.weir.psWant.isSome ∨ 2 < s.pstate ∨ !s.drained ∨ s.wh.sec = .scrapped then s.pstateRefuse .busy
  else (s.sendDrainNotices.closePorts).pstateAccept 3

/-- PSTATE_REQ_P4 (R505). -/
def State.reqP4 (s : State) : State :=
  if s.weir.psWant.isSome ∨ 3 < s.pstate ∨ !s.drained then s.pstateRefuse .busy
  else s.sendDrainNotices.pstateAccept 4

/-- PSTATE_REQ_P0 (R505). -/
def execPstateReqP0 (s : State) : Host.Outcome State Fault Refusal := .next (s.whileOn fun s => s.reqP0)
/-- PSTATE_REQ_P2 (R505). -/
def execPstateReqP2 (s : State) : Host.Outcome State Fault Refusal := .next (s.whileOn fun s => s.reqP2)
/-- PSTATE_REQ_P3 (R505). -/
def execPstateReqP3 (s : State) : Host.Outcome State Fault Refusal := .next (s.whileOn fun s => s.reqP3)
/-- PSTATE_REQ_P4 (R505). -/
def execPstateReqP4 (s : State) : Host.Outcome State Fault Refusal := .next (s.whileOn fun s => s.reqP4)

/-- PSTATE_REQ_REFUSED (R505): TARGET 1 or a reserved value. -/
def execPstateReqRefused (target : Fin 8) (s : State) : Host.Outcome State Fault Refusal :=
  .next (s.whileOn fun s => if target.val = 1 ∨ 4 < target.val then s.pstateRefuse .range else s)

/-- P1_ENTRY (R505): 20 µs in P0 with no work. -/
def execP1Entry (s : State) : Host.Outcome State Fault Refusal :=
  .next (s.whileOn fun s => if s.pstate = 0 ∧ s.image.isSome ∧ s.idle ∧ s.weir.psWant.isNone then s.toPstate 1 else s)

/-- P1_EXIT (R505): any work wakes the package. -/
def execP1Exit (s : State) : Host.Outcome State Fault Refusal := .next (s.whileOn fun s => if s.pstate = 1 ∧ !s.idle then s.toPstate 0 else s)

/-- PSTATE_DONE (R505): a requested power state is reached (Table 16.8 for what it keeps). -/
def State.pstateDone (s : State) : State :=
  match s.weir.psWant with
  | none => s
  | some p =>
    if (p = 2 ∨ p = 3) ∧ !s.drained then s else
    let s := s.modWeir fun w => { w with psWant := none, p4Ready := w.p4Ready || decide (p = 4) }
    let s := s.toPstate p
    let s := { s with hbm := { s.hbm with selfRefresh := decide (2 ≤ p) } }
    let s := if p = 3 then { s.zeroMeres with arrival := [] } else s
    let s := if p = 4 then s.eraseAllKeys else s
    s.weirEvent 6

/-- PSTATE_DONE (R505). -/
def execPstateDone (s : State) : Host.Outcome State Fault Refusal := .next (s.whileOn fun s => s.pstateDone)

end Sys2Proof.Machine
end

