-- ==== Sys2Proof/Machine/Gauge.lean ====
section
/-! DEFINITION. Sys2Proof/Machine/Gauge.lean: samples, calibration, attribution, energy records and signed batches
(spec/12_energy_gauge.md). -/
namespace Sys2Proof.Machine
open Sys2Proof

/-- Change the GAU block. -/
def State.modGau (s : State) (f : Gau → Gau) : State := { s with gau := f s.gau }

/-- A GAU counter (Table 12.10). -/
def State.gauCount (s : State) (r n : Nat) : State := s.bump (blkGAU + r) n

/-- Gauge units in one microjoule (R453). -/
def guPerUj : Nat := 0x1000000

/-! ### Samples (R451 to R454, R458, R462) -/

/-- Table 12.1: the pool of a class. -/
def poolOf (cls : Nat) (replay : Bool) : Nat :=
  if cls < 24 then (if replay then poolReplay else poolMxc)
  else if cls < 36 then poolAtn
  else if cls < 42 then poolShoal
  else if cls < 48 then poolFerry
  else if cls < 51 then poolSpillKv
  else if cls = 51 then poolSpillSched
  else if cls < 54 then poolHouse
  else if cls < 76 then poolMem
  else if cls < 86 then poolLink
  else if cls < 88 then poolHouse
  else poolStatic

/-- Whether a sample counts an event of a class: static classes count none, nor do deep-tier classes without a deep
tier (Table 12.1, R454). -/
def State.countsClass (s : State) (cls : Nat) : Bool := decide (cls < 88) && !(decide (70 ≤ cls ∧ cls ≤ 73) && decide (s.hbm.deepGiB = 0))

/-- Table 12.5: every slot's energy goes to the house in the stop and in P2 and P3. -/
def State.allHouse (s : State) : Bool := s.stopped || decide (2 ≤ s.pstate)

/-- The slot an event is counted in. -/
def State.slotOf (s : State) (slot : Nat) : Nat := if s.allHouse then 8 else slot

/-- STATIC_SHARE of a cove. -/
def State.staticShare (s : State) (c : Nat) : Nat := match s.image with
  | some im => nth 0 im.staticShare c
  | none => 0

/-- Raw energy of a sample, by 11 × slot + pool, in gauge units (R453, R454). -/
def State.rawSample (s : State) (ev : List SampleEvent) (static : Nat) : SMap Nat :=
  let m := (ev.filter fun e => s.countsClass e.cls).foldl (fun m e =>
    SMap.upd 0 m (11 * s.slotOf e.slot + poolOf e.cls e.replay) (· + e.count * nth 0 s.fuses.weight e.cls)) []
  let parts := (List.range 8).map fun c => static * s.staticShare c / 256
  let m := parts.zipIdx.foldl (fun m x => SMap.upd 0 m (11 * s.slotOf x.2 + poolStatic) (· + x.1)) m
  SMap.upd 0 m (11 * 8 + poolStatic) (· + (static - parts.sum))

/-- GAUGE_SAMPLE_LATCH (R454, R457, R458): a sample at a multiple of 200 local ticks: the events counted since the last
and the static raw energy of the package. -/
def State.latch (s : State) (ev : List SampleEvent) (static : Nat) : State :=
  if s.now % 200 ≠ 0 ∨ s.gau.lastLatch = some s.now ∨ s.pstate = 4 then s
  else
    let s := s.modGau fun g => match g.kNext with
      | some (k, t) => if t ≤ s.now then { g with k, kNext := none } else g
      | none => g
    let raw := s.rawSample ev static
    let cal : SMap Nat := raw.map fun x => (x.1, x.2 * s.gau.k / 65536)
    let slots := (List.range 9).map fun i => ((cal.filter fun x => x.1 / 11 = i).map Prod.snd).sum
    let rawAll := (raw.map Prod.snd).sum
    let s := s.modGau fun g =>
      { g with lastLatch := some s.now, sample := slots, sampleRaw := rawAll, winRaw := g.winRaw + rawAll, winCal := g.winCal + slots.sum,
               acc := cal.foldl (fun m x => SMap.upd 0 m x.1 (· + x.2)) g.acc,
               ms := (g.ms.zip slots).map fun (a, b) => a + b,
               classCnt := (ev.filter fun e => s.countsClass e.cls).foldl (fun m e => SMap.upd 0 m (96 * s.slotOf e.slot + e.cls) (· + e.count)) g.classCnt }
    (s.modWeir fun w => { w with samples := w.samples ++ [slots.sum] }).capLagSample slots.sum

/-- GAUGE_SAMPLE_LATCH (R454). -/
def execGaugeSampleLatch (events : List SampleEvent) (static : Nat) (s : State) : Host.Outcome State Fault Refusal :=
  .next (s.whileOn fun s => s.latch events static)

/-- HOUSE_MOVE_TICK (R462): whole microjoules of slot 8 and of the HOUSE_ONLY pools go to the house account. -/
def State.houseMove (s : State) : State :=
  if s.now % 100000 ≠ 0 then s
  else
    let mine (k : Nat) : Bool := decide (k / 11 = 8) || decide (k % 11 = poolHouse)
    let e := ((s.gau.acc.filter fun x => mine x.1).map fun x => x.2 / guPerUj).sum
    s.modGau fun g => { g with acc := SMap.mapAll 0 (fun k v => if mine k then v % guPerUj else v) g.acc,
                               total := g.total + e, housePkg := g.housePkg + e }

/-- HOUSE_MOVE_TICK (R462). -/
def execHouseMoveTick (s : State) : Host.Outcome State Fault Refusal := .next (s.whileOn fun s => s.houseMove)

/-- R478: energy of a millisecond in gauge units as power in W, rounded down to a multiple of 8. -/
def coarseW (e : Nat) : Nat := e / (1000 * guPerUj) / 8 * 8

/-- COARSE_POWER_UPDATE (R478). -/
def State.coarsePower (s : State) : State :=
  if s.now % 100000 ≠ 0 ∨ s.gau.lastCoarse = some s.now then s
  else s.modGau fun g => { g with lastCoarse := some s.now, power := coarseW g.ms.sum, covePower := (g.ms.take 8).map coarseW,
                                  ms := List.replicate 9 0 }

/-- COARSE_POWER_UPDATE (R478). -/
def execCoarsePowerUpdate (s : State) : Host.Outcome State Fault Refusal := .next (s.whileOn fun s => s.coarsePower)

/-! ### Batches: what the open batch takes note of (Table 12.4) -/

/-- Change the open batch. -/
def State.modOpenBatch (s : State) (f : Batch → Batch) : State :=
  if s.gau.batchLive then s.modGau fun g => { g with batches := SMap.upd {} g.batches (g.batchNext % 64) f } else s

/-- CAL_STALE or CAL_CLAMP has been set: every stream and the open batch take note. -/
def State.markCal (s : State) (stale clamp : Bool) : State :=
  let s := s.liveEntries.foldl (fun s e => s.setSx e fun x => { x with calMark := true }) s
  s.modOpenBatch fun b => { b with calStale := b.calStale || stale, calClamp := b.calClamp || clamp }

/-- GAU.STAT.CAL_CLAMP. -/
def State.calClamp (s : State) : Bool := s.flagBit blkGAU 2

/-! ### Calibration (R455 to R459) -/

/-- K_LO and K_HI (R457). -/
def State.kLo (s : State) : Nat := s.fuses.kNom * 88 / 100
def State.kHi (s : State) : Nat := s.fuses.kNom * 112 / 100

/-- R457: close a calibration window with a measured energy in mJ: the new scale applies from 20 µs on. Where the window
held no raw energy the spec states no quotient, and the scale is a free value within its bounds (log 1). -/
def State.closeWindow (s : State) (mj : Nat) : State :=
  let (q, s) := if s.gau.winRaw = 0 then s.draw else (1000 * mj * 65536 * guPerUj / s.gau.winRaw, s)
  let k := Nat.max s.kLo (Nat.min s.kHi q)
  let s := s.modOpenBatch fun b => { b with measuredMj := b.measuredMj + mj, estimateGu := b.estimateGu + s.gau.winCal }
  let s := s.modGau fun g => { g with kNext := some (k, s.now + 2000), winRaw := 0, winCal := 0 }
  if k = q then s
  else ((s.setFlags blkGAU (setBit32 (s.flag blkGAU) 2)).gauCount 0x90 1).markCal false true

/-- EIN (R455, R456, R651): a private write to the Gauge's telemetry address. -/
def State.ein (s : State) (bs : List Byte) : State :=
  if s.pstate = 4 then s
  else
    let v := leNat bs
    let e := bits v 0 40
    let diff := (e + 0x10000000000 - s.gau.einMj) % 0x10000000000
    let bad := bs.length ≠ 8 ∨ bits v 48 16 ≠ 0 ∨ (s.gau.calLive ∧ 8400 * (s.now - s.gau.einTick) < 100000 * diff)
    if bad then (s.gauCount 0x88 1).emit (.i3c false)
    else
      let s := if s.gau.calLive then s.closeWindow diff else s.modGau fun g => { g with winRaw := 0, winCal := 0 }
      let s := s.modGau fun g => { g with einMj := e, einSeq := bits v 40 8, einTick := s.now, calLive := true, calStale := false }
      (s.gauCount 0x80 1).emit (.i3c true)

/-- EIN (R456). -/
def execEin (bytes : List Byte) (s : State) : Host.Outcome State Fault Refusal := .next (s.whileOn fun s => s.ein bytes)

/-- CAL_STALE_TIMER (R459): no EIN has been accepted for 10 ms. -/
def execCalStaleTimer (s : State) : Host.Outcome State Fault Refusal :=
  .next (s.whileOn fun s => if s.gau.einTick + 1000000 ≤ s.now ∧ !s.gau.calStale then (s.modGau fun g => { g with calStale := true }).markCal true false else s)

/-! ### Totals (R465, R469) -/

/-- OPEN_UJ: ENERGY_UJ over the entries that are not FREE. -/
def State.openUj (s : State) : Nat := (s.liveEntries.map fun e => s.sget e 0x48 8).sum
/-- HOUSE_UJ, RESIDUE_UJ, HELD_UJ, PENDING_UJ. -/
def State.houseUj (s : State) : Nat := s.gau.housePkg + s.gau.houseCove.sum
def State.residueUj (s : State) : Nat := s.gau.residue.sum
def State.heldUj (s : State) : Nat := ((s.gau.waiting.filter fun r => r.kind = 2).map fun r => r.energy).sum
def State.pendingUj (s : State) : Nat := (s.gau.acc.map Prod.snd).sum / guPerUj

/-! ### Records (R470 to R472) -/

/-- RING_SLOTS (R470). -/
def State.ringSlots (s : State) : Nat := match s.image with
  | some im => 2 ^ im.ringLog2
  | none => 0

/-- R472: the batch that holds a record has been signed, or given up as unsigned. -/
def State.recordSigned (s : State) (n : Nat) : Bool :=
  match s.gau.batches.find? fun x => decide (x.2.firstSeq ≤ n) && (!x.2.closed || decide (n < x.2.firstSeq + x.2.count)) with
  | some (_, b) => b.closed && (decide (b.state = .signed) || decide (b.state = .unsigned))
  | none => true

/-- R472: whether the next record can be written. -/
def State.ringRoom (s : State) : Bool :=
  let n := s.gau.nextSeq
  decide (n < s.gau.recRelease + s.ringSlots) && (decide (n < s.ringSlots) || s.recordSigned (n - s.ringSlots))

/-- STAT.RING_FULL follows the room in the ring; its rise raises the Gauge vector. -/
def State.judgeRing (s : State) : State :=
  let full := !s.ringRoom && s.image.isSome
  let was := s.gau.ringFull
  let s := s.modGau fun g => { g with ringFull := full }
  if full && !was then s.raise 0 5 else s

/-- NODE, INCARNATION, SEQ and EPOCH of a record as it is written, and its place in the ring (R470); the house carries the
write (R43). -/
def State.putRecord (s : State) (r : EnergyRec) : State :=
  let n := s.gau.nextSeq
  let r := { r with seq := n, node := s.ownNode, inc := s.lnk.inc, epoch := s.mark }
  let s := (s.modGau fun g => { g with nextSeq := n + 1, ring := SMap.put {} g.ring (n % s.ringSlots) r }).charge 0 0 0 64
  match r.kind with
  | 1 => s.gauCount 0x98 1
  | 2 => s.gauCount 0xA0 1
  | _ => s

/-- Write the records that wait while the ring has room: at most `fuel` of them. -/
def State.flushRecords : Nat → State → State
  | 0, s => s
  | n + 1, s =>
    match s.gau.waiting with
    | [] => s
    | r :: rest => if s.ringRoom then State.flushRecords n ((s.modGau fun g => { g with waiting := rest }).putRecord r) else s

/-- Write every waiting record there is room for. -/
def State.flush (s : State) : State := (State.flushRecords s.gau.waiting.length s).judgeRing

/-- R471, R472: write a record, or keep it waiting; a remote credit that finds the pending table full goes to the
house. -/
def State.emitRecord (s : State) (r : EnergyRec) : State :=
  if s.gau.waiting.isEmpty && s.ringRoom then (s.putRecord r).judgeRing
  else if r.kind = 2 ∧ 65536 ≤ (s.gau.waiting.filter fun x => x.kind = 2).length then
    (s.modGau fun g => { g with houseCove := modNth g.houseCove (r.cove % 8) (· + r.energy) }).gauCount 0xA8 r.energy
  else (s.modGau fun g => { g with waiting := g.waiting ++ [r] }).judgeRing

/-! ### Attribution (R463 to R466, R613) -/

/-- R613: energy that the loss of a node has sent to the house counts in LOSS_UJ of the node's open record. -/
def State.lossCredit (s : State) (key a : Nat) : State :=
  if lossKey 0 ≤ key then s.modLossRec (key - lossKey 0) fun r => { r with lossUj := r.lossUj + a } else s

/-- One participant's credit (R464): a stream's ENERGY_UJ, a remote key's accumulator, or the house account. -/
def State.creditTo (s : State) (c key a : Nat) (remote : SMap Nat) : State × SMap Nat :=
  if key < streamEntries then
    ((s.sset key 0x48 8 (s.sget key 0x48 8 + a)).modGau fun g => { g with coveUj := modNth g.coveUj c (· + a) }, remote)
  else if houseKey ≤ key then ((s.modGau fun g => { g with houseCove := modNth g.houseCove c (· + a) }).lossCredit key a, remote)
  else (s, SMap.upd 0 remote key (· + a))

/-- R464: apportion one pool among its participants. `remote` gathers the credits of remote keys. -/
def State.closePool (s : State) (c p : Nat) (shares : SMap Nat) (remote : SMap Nat) : State × SMap Nat :=
  let k := 11 * c + p
  let acc := SMap.get 0 s.gau.acc k
  let e := acc / guPerUj
  let s := s.modGau fun g => { g with acc := SMap.put 0 g.acc k (acc % guPerUj), total := g.total + e }
  let sum := (shares.map Prod.snd).sum
  if sum = 0 then (s.modGau fun g => { g with houseCove := modNth g.houseCove c (· + e) }, remote)
  else
    let (s, remote, given) := shares.foldl (fun (x : State × SMap Nat × Nat) q =>
      let a := e * q.2 / sum
      let (s, r) := x.1.creditTo c q.1 a x.2.1
      (s, r, x.2.2 + a)) (s, remote, 0)
    (s.modGau fun g => { g with residue := modNth g.residue c (· + (e - given)) }, remote)

/-- R613: a remote key of a node that has been recorded lost becomes a house participant, and its energy is added to
LOSS_UJ of the open record. -/
def State.remoteLost (s : State) (key : Nat) : Bool := (s.node ((key - 0x10000000000000000000000000) / 0x100000000)).lost

/-- R471, R613: the remote credits of a step that has closed: records in ascending key order, or the house account. -/
def State.closeRemote (s : State) (c gstep opened : Nat) (remote : SMap Nat) : State :=
  remote.foldl (fun s x =>
    let node := (x.1 - 0x10000000000000000000000000) / 0x100000000
    let stream := (x.1 - 0x10000000000000000000000000) % 0x100000000
    if s.remoteLost x.1 then (s.modGau fun g => { g with houseCove := modNth g.houseCove c (· + x.2) }).lossCredit (lossKey node) x.2
    else s.emitRecord { kind := 2, cove := c, flags := if s.gau.calStale || s.calClamp then 4 else 0, entry := stream, tag := node,
                        tSubmit := opened, tEnd := s.now, energy := x.2, first := gstep, last := gstep }) s

/-- R464: item 1 of R32: close every pool of a cove's step, given the rows of its participants and the rows that count
for FERRY, to which come the house participants of descriptors that name no stream (Table 12.2, R401, R613). -/
def State.closeStep (s : State) (c gstep opened : Nat) (rows ferry : SMap Nat) : State :=
  let share (p : Nat) : SMap Nat :=
    if p = poolFerry then (SMap.get [] s.gau.shares (11 * c + p)).foldl (fun m x => SMap.upd 0 m x.1 (· + x.2)) ferry
    else if p = poolSpillSched ∨ p = poolMem ∨ p = poolLink ∨ p = poolStatic then rows
    else SMap.get [] s.gau.shares (11 * c + p)
  let (s, remote) := (List.range 10).foldl (fun (x : State × SMap Nat) p => x.1.closePool c p (share p) x.2) (s, [])
  let s := s.modGau fun g => { g with shares := SMap.filter (fun k _ => decide (k / 11 ≠ c)) g.shares }
  s.closeRemote c gstep opened remote

/-- R461: close an idle interval of a cove: SPILL_KV as in a step, every other pool to the house; what of FERRY the loss of
a node has caused counts as such (R613). -/
def State.closeIdle (s : State) (c : Nat) : State :=
  let lost := SMap.get [] s.gau.shares (11 * c + poolFerry)
  let e := SMap.get 0 s.gau.acc (11 * c + poolFerry) / guPerUj
  let s := lost.foldl (fun s x => s.lossCredit x.1 (e * x.2 / (lost.map Prod.snd).sum)) s
  let (s, remote) := (List.range 10).foldl (fun (x : State × SMap Nat) p =>
    x.1.closePool c p (if p = poolSpillKv then SMap.get [] s.gau.shares (11 * c + p) else []) x.2) (s, [])
  (s.modGau fun g => { g with shares := SMap.filter (fun k _ => decide (k / 11 ≠ c)) g.shares }).closeRemote c 0 s.now remote

/-- R591: the energy accumulated for a cove goes to the house account. -/
def State.closeToHouse (s : State) (c : Nat) : State :=
  let (s, _) := (List.range 10).foldl (fun (x : State × SMap Nat) p => x.1.closePool c p [] x.2) (s, [])
  s.modGau fun g => { g with shares := SMap.filter (fun k _ => decide (k / 11 ≠ c)) g.shares }

/-- R471: the STREAM record of an entry that retires (Table 12.3). -/
def State.streamRecord (s : State) (c e status : Nat) : EnergyRec :=
  let x := s.sx e
  { kind := 1, status, cove := c + 16 * x.lastServe, flags := b2n x.fbServed + 2 * b2n x.adopted + 4 * b2n x.calMark,
    entry := e, tag := s.sget e 0x2C 4, tSubmit := s.sget e 0x50 8, tEnd := s.sget e 0x68 8, energy := s.sget e 0x48 8,
    first := (x.gsteps.map Prod.fst).getD 0xFFFFFFFF, last := (x.gsteps.map Prod.snd).getD 0xFFFFFFFF }

/-! ### Batches (R473 to R476) -/

/-- The bytes of a record (Table 12.3). -/
def EnergyRec.bytes (r : EnergyRec) : List Byte :=
  leBytes 1 r.kind ++ leBytes 1 r.status ++ leBytes 1 r.cove ++ leBytes 1 r.flags ++ leBytes 4 r.entry ++ leBytes 4 r.tag ++ leBytes 2 r.node ++
    leBytes 2 r.inc ++ leBytes 8 r.seq ++ leBytes 8 r.tSubmit ++ leBytes 8 r.tEnd ++ leBytes 8 r.epoch ++ leBytes 8 r.energy ++
    leBytes 4 r.first ++ leBytes 4 r.last

/-- Table 12.4: the code of STATE. -/
def BatchState.code : BatchState → Nat
  | .opened => 0
  | .rooted => 1
  | .signed => 2
  | .unsigned => 3

/-- FLAGS of a batch (Table 12.4). -/
def Batch.flags (b : Batch) : Nat :=
  b2n b.calStale + 2 * b2n b.calClamp + 4 * b2n b.extended + 8 * b2n b.fine + 16 * b2n (decide (b.seq = 0))

/-- A list of bytes, or zeros where it has not been written. -/
def bytesOr (n : Nat) (l : List Byte) : List Byte := if l.isEmpty then List.replicate n 0 else l

/-- Bytes 0x000 to 0x0FF of a batch slot, with a value of STATE. -/
def Batch.head (b : Batch) (state : Nat) : List Byte :=
  leBytes 4 0x31424147 ++ leBytes 2 1 ++ leBytes 2 b.flags ++ leBytes 2 b.node ++ leBytes 2 b.inc ++ leBytes 1 state ++ leBytes 3 0 ++
    leBytes 8 b.seq ++ leBytes 8 b.firstSeq ++ leBytes 8 b.count ++ leBytes 8 b.tOpen ++ leBytes 8 b.tClose ++ leBytes 8 b.epoch ++
    leBytes 8 b.total ++ leBytes 8 b.house ++ leBytes 8 b.residue ++ leBytes 8 b.openUj ++ leBytes 8 b.pendingUj ++ leBytes 8 b.measuredMj ++
    leBytes 8 (b.estimateGu / guPerUj) ++ leBytes 8 b.heldUj ++ bytesOr 48 b.root ++ bytesOr 48 b.prevHash ++ List.replicate 32 0

/-- The bytes of a batch slot (Table 12.4), 36 KiB with its padding. -/
def Batch.bytes (b : Batch) : List Byte :=
  let x := b.head b.state.code ++ bytesOr 384 b.sigRsa ++ bytesOr 35664 b.sigSlh
  x ++ List.replicate (36864 - x.length) 0

/-- One level of the hash tree (R474). -/
def hashLevel : List (List Byte) → List (List Byte)
  | a :: b :: r => sha384 (0x01 :: (a ++ b)) :: hashLevel r
  | l => l

/-- R474: pair levels until one node remains. -/
def hashTree : Nat → List (List Byte) → List Byte
  | 0, l => l.headD []
  | n + 1, l => match l with
    | [x] => x
    | l => hashTree n (hashLevel l)

/-- R474: ROOT over the records of a batch. -/
def hashRoot (rs : List (List Byte)) : List Byte :=
  if rs.isEmpty then sha384 [0x02] else hashTree (Nat.log2 rs.length + 1) (rs.map fun r => sha384 (0x00 :: r))

/-- Whether the Wellhead can sign batches in a state (Table 14.8). -/
def State.canSign (s : State) : Bool := decide (s.wh.sec ≠ .scrapped) && decide (s.debug ≠ 3)

/-- Open a batch (R473). -/
def State.openBatch (s : State) (b : Nat) : State :=
  s.modGau fun g => { g with batchLive := true, batchNext := b,
                             batches := SMap.put {} g.batches (b % 64)
                               { seq := b, firstSeq := g.nextSeq, tOpen := s.now, calStale := g.calStale, calClamp := s.calClamp, fine := decide (2 ≤ s.debug) } }

/-- BATCH_CLOSE (R473): the batch closes, and the next one opens, once a second has passed and a slot is free. -/
def State.batchClose (s : State) : State :=
  if !s.gau.batchLive then s
  else
    let b := SMap.get {} s.gau.batches (s.gau.batchNext % 64)
    if s.now < b.tOpen + 100000000 then s
    else if s.gau.released + 64 ≤ s.gau.batchNext + 1 then
      let was := s.gau.batchFull
      let s := (s.modGau fun g => { g with batchFull := true }).modOpenBatch fun b => { b with extended := true }
      if was then s else s.raise 0 5
    else
      let s := s.modOpenBatch fun b =>
        { b with closed := true, node := s.ownNode, inc := s.lnk.inc, count := s.gau.nextSeq - b.firstSeq, tClose := s.now, epoch := s.mark,
                 total := s.gau.total, house := s.houseUj, residue := s.residueUj, openUj := s.openUj, pendingUj := s.pendingUj,
                 heldUj := s.heldUj, able := s.canSign }
      let s := s.modGau fun g => { g with batchFull := false }
      s.openBatch (s.gau.batchNext + 1)

/-- BATCH_CLOSE (R473). -/
def execBatchClose (s : State) : Host.Outcome State Fault Refusal := .next (s.whileOn fun s => s.batchClose)

/-- The oldest closed batch in a state. -/
def State.oldestBatch (s : State) (st : BatchState) : Option Batch :=
  (s.gau.batches.filter fun x => x.2.closed && decide (x.2.state = st)).foldl (fun o x => match o with
    | none => some x.2
    | some b => if x.2.seq < b.seq then some x.2 else some b) none

/-- Change a batch. -/
def State.modBatch (s : State) (b : Nat) (f : Batch → Batch) : State :=
  s.modGau fun g => { g with batches := SMap.upd {} g.batches (b % 64) f }

/-- BATCH_ROOTED (R474, R476): ROOT and PREV_HASH of the oldest closed batch are written. -/
def State.batchRooted (s : State) : State :=
  match s.oldestBatch .opened with
  | none => s
  | some b =>
    let rs := (List.range b.count).map fun i => (SMap.get {} s.gau.ring ((b.firstSeq + i) % s.ringSlots)).bytes
    let prev := if b.seq = 0 then List.replicate 48 0 else sha384 ((SMap.get {} s.gau.batches ((b.seq - 1) % 64)).head 0)
    s.modBatch b.seq fun b => { b with root := hashRoot rs, prevHash := prev, state := .rooted }

/-- BATCH_ROOTED (R476). -/
def execBatchRooted (s : State) : Host.Outcome State Fault Refusal := .next (s.whileOn fun s => s.batchRooted)

/-- BATCH_SIGNED (R475): the Wellhead signs the oldest rooted batch twice, once the alias keys are ready, or cannot. -/
def State.batchSigned (s : State) : State :=
  match s.oldestBatch .rooted with
  | none => s
  | some b =>
    if !s.hif.aliasReady then s
    else if b.able then
      let m := b.head 0
      let s := s.modBatch b.seq fun b => { b with sigRsa := s.aliasSign 0 m, sigSlh := s.aliasSign 1 m, state := .signed }
      ((s.gauCount 0xB8 1).bump (blkWH + 0x60) 2).flush
    else
      let s := s.modBatch b.seq fun b => { b with state := .unsigned }
      ((s.setFlags blkGAU (setBit32 (s.flag blkGAU) 5)).raise 0 5).flush

/-- BATCH_SIGNED (R475). -/
def execBatchSigned (s : State) : Host.Outcome State Fault Refusal := .next (s.whileOn fun s => s.batchSigned)

/-- A 64-bit value with one half, or both, replaced by a write (R23). -/
def putHalves (old : Nat) (lo hi : Option Word) : Nat :=
  (lo.map BitVec.toNat).getD (old % 0x100000000) + 0x100000000 * (hi.map BitVec.toNat).getD (old / 0x100000000 % 0x100000000)

/-- REC_RELEASE (R472, Table 12.9): a value above NEXT_SEQ is held at NEXT_SEQ. -/
def execRecRelease (lo hi : Option Word) (s : State) : Host.Outcome State Fault Refusal :=
  .next (s.whileOn fun s => (s.modGau fun g => { g with recRelease := Nat.min g.nextSeq (putHalves g.recRelease lo hi) }).flush)

/-- BATCH_RELEASE (R476, Table 12.9): a value at or above BATCH_NEXT is ignored. -/
def execBatchRelease (lo hi : Option Word) (s : State) : Host.Outcome State Fault Refusal :=
  .next (s.whileOn fun s => s.modGau fun g =>
    let v := putHalves g.batchRelease lo hi
    if g.batchNext ≤ v then g else { g with batchRelease := v, released := Nat.max g.released (v + 1) })

end Sys2Proof.Machine
end

