-- ==== Sys2Proof/Machine/Tiers.lean ====
section
/-! DEFINITION. Sys2Proof/Machine/Tiers.lean: leaves that the package writes, pools of pages, objects and their state
words, promotions and evictions, and the KV map (spec/08_tiers_and_translation.md, R299 to R314, R669). -/
namespace Sys2Proof.Machine
open Sys2Proof

/-! ### Leaves (R297, R299, R669) -/

/-- The next table that a pointer entry at a DPA names, where it is sound (R296, R297). -/
def State.nextTable (s : State) (c a size : Nat) : Option Nat :=
  match s.tableEntry c a with
  | none => none
  | some e => if bit e 0 && !bit e 1 && decide (bits e 2 6 = 0) && s.tableOk (e / 256 * 256) size then some (e / 256 * 256) else none

/-- R669: the DPA of the level-3 entry of an address, where software has built the tables down to it. -/
def State.leafDpa (s : State) (c va : Nat) : Option Nat :=
  if 0x1000000000000 ≤ va then none
  else match s.cove c with
    | none => none
    | some d => match s.nextTable c (d.root + 8 * (va / 0x40000000)) 4096 with
      | none => none
      | some t2 => (s.nextTable c (t2 + 8 * (va / 0x200000 % 512)) 256).map fun t3 => t3 + 8 * (va / 0x10000 % 32)

/-- TIER of a leaf to a DPA (Tables 08.1 and 08.3). -/
def tierOf (dpa : Nat) : Nat := if hostDpa ≤ dpa then 2 else if deepDpa ≤ dpa then 1 else 0

/-- Table 08.3: a leaf that the package writes: VALID, LEAF, READ, PKG and the rest as given. -/
def leafOf (dpa : Nat) (write atomic : Bool) : Nat :=
  0x40B + 16 * b2n write + 64 * tierOf dpa + 256 * b2n atomic + dpa / 65536 * 65536

/-- A leaf of a KV page: read and write, no memory-side operations (log 17). -/
def kvLeafOf (dpa : Nat) : Nat := leafOf dpa true false

/-! ### Pools (R225, Table 15.7) -/

/-- The lowest `n` numbers from `first` up to `first + size - 1` that are not taken; fewer where fewer are free. -/
def lowestFree (first size n : Nat) (taken : List Nat) : List Nat :=
  (((List.range (Nat.min size (n + taken.length))).map fun i => first + i).filter fun p => p ∉ taken).take n

/-- HBM pages of a cove that loads which wait for more have taken (R360). -/
def State.loadHeld (s : State) (c : Nat) : List Nat :=
  s.inl.ctx.toList.flatMap fun k => match k with
    | some k => if k.cove = c then k.pages else []
    | none => []

/-- HBM pages of a cove that objects own, loads have taken or quarantine holds. -/
def State.objTaken (s : State) (c : Nat) : List Nat :=
  ((s.objs.filter fun o => o.1 / 16384 = c).flatMap fun o => o.2.pages) ++ s.loadHeld c ++ (vget ({} : SeqCove) s.seq c).quar

/-- As many as there are, up to `n`, of the free pages of a cove's object pool, in ascending number. -/
def State.objFreePages (s : State) (c n : Nat) : List Nat :=
  match s.cove c with
  | none => []
  | some d => lowestFree d.kvHbmPages d.objHbmPages n (s.objTaken c)

/-- R313: `n` pages of a cove's object pool, in ascending number; none where the pool cannot supply them. -/
def State.objPages (s : State) (c n : Nat) : Option (List Nat) :=
  if (s.cove c).isSome ∧ (s.objFreePages c n).length = n then some (s.objFreePages c n) else none

/-- Pages of a pool of a cove that streams own. -/
def State.kvOwned (s : State) (c : Nat) (p : Pool) : List Nat :=
  s.strm.flatMap fun x => ((x.2.pages ++ x.2.oldPages).filter fun k => k.cove = c ∧ k.pool = p).map KvPage.page

/-- Pages that a pool of a cove holds (Table 15.7). -/
def CoveDecl.poolSize (d : CoveDecl) : Pool → Nat
  | .hbm => d.kvHbmPages
  | .deep => d.kvDeepPages
  | .host => d.kvHostPages

/-- The DPA of a page of a pool. -/
def CoveDecl.poolDpa (d : CoveDecl) (p : Pool) (page : Nat) : Nat :=
  (match p with
   | .hbm => d.hbmBase
   | .deep => d.deepBase
   | .host => d.kvHostBase) + 65536 * page

/-- Pages of a pool that are on no list and owned by no stream's free list: taken pages. -/
def State.kvTaken (s : State) (c : Nat) (p : Pool) : List Nat :=
  s.kvOwned c p ++ (if p = Pool.hbm then (vget ({} : SeqCove) s.seq c).quar else [])

/-- Pages on the free list of a pool. -/
def State.kvFree (s : State) (c : Nat) (p : Pool) : Nat :=
  match s.cove c with
  | none => 0
  | some d => d.poolSize p - ((s.kvTaken c p).filter fun n => n < d.poolSize p).length

/-- The lowest `n` free pages of a pool. -/
def State.kvPick (s : State) (c : Nat) (p : Pool) (n : Nat) : List Nat :=
  match s.cove c with
  | none => []
  | some d => lowestFree 0 (d.poolSize p) n (s.kvTaken c p)

/-- The DPA of a KV page. -/
def State.kvDpa (s : State) (k : KvPage) : Nat := match s.cove k.cove with
  | some d => d.poolDpa k.pool k.page
  | none => 0

/-! ### The KV map (R308, R309) -/

/-- Positions of a layer that are held when a stream holds `n`. -/
def KvEntry.held (k : KvEntry) (n : Nat) : Nat := if k.ring then Nat.min n k.slots else n

/-- Offsets in the range of the pages that a layer needs for `n` positions (R309). -/
def KvEntry.pageOffs (k : KvEntry) (n : Nat) : List Nat :=
  let u := k.held n
  ((List.range ((u * k.kPitch + 65535) / 65536)).map fun i => k.layerOff + 65536 * i) ++
    (List.range ((u * k.vPitch + 65535) / 65536)).map fun i => k.layerOff + k.vOff + 65536 * i

/-- Offsets in the range of the pages that a stream of a slot needs for `n` positions. -/
def SlotDecl.pageOffs (d : SlotDecl) (n : Nat) : List Nat := d.kv.flatMap fun k => k.pageOffs n

/-- pages(n) of R309. -/
def SlotDecl.pagesFor (d : SlotDecl) (n : Nat) : Nat := (d.pageOffs n).length

/-! ### State words (Table 08.7) -/

/-- Code of STATE. -/
def ObjState.code : ObjState → Nat
  | .free => 0
  | .absent => 1
  | .loading => 2
  | .slow => 3
  | .promoting => 4
  | .resident => 5
  | .evicting => 6
  | .lost => 7

/-- The STATE that a code names. -/
def objStateOf : Nat → Option ObjState
  | 0 => some .free
  | 1 => some .absent
  | 2 => some .loading
  | 3 => some .slow
  | 4 => some .promoting
  | 5 => some .resident
  | 6 => some .evicting
  | 7 => some .lost
  | _ => none

/-- A state word as its 64 bits. -/
def ObjWord.enc (w : ObjWord) : Nat :=
  w.state.code + 256 * w.tier + 0x10000 * b2n w.pend + 0x1000000 * w.pins + 0x100000000 * w.use + 0x10000000000 * w.lastStatus + 0x1000000000000 * w.seq

/-- The state word that 64 bits spell; none where a reserved bit or code is used. -/
def objWordOf (n : Nat) : Option ObjWord :=
  match objStateOf (bits n 0 4) with
  | none => none
  | some st =>
    if bits n 4 4 ≠ 0 ∨ bits n 10 6 ≠ 0 ∨ bits n 17 7 ≠ 0 then none
    else some { seq := bits n 48 16, lastStatus := bits n 40 8, use := bits n 32 8, pins := bits n 24 8, pend := bit n 16, tier := bits n 8 2, state := st }

/-- One object of a cove. -/
def State.obj (s : State) (c i : Nat) : Obj := SMap.get {} s.objs (16384 * c + i)

/-- Change an object. -/
def State.modObj (s : State) (c i : Nat) (f : Obj → Obj) : State := { s with objs := SMap.upd {} s.objs (16384 * c + i) f }

/-- R312: a change of a state word: SEQ adds 1. -/
def State.setWord (s : State) (c i : Nat) (f : ObjWord → ObjWord) : State :=
  s.modObj c i fun o => { o with word := { f o.word with seq := (o.word.seq + 1) % 65536 } }

/-- Pages of an object. -/
def ObjDecl.npages (d : ObjDecl) : Nat := d.bytes / 65536

/-- DPA of the slow copy's page. -/
def ObjDecl.slowDpa (d : ObjDecl) (i : Nat) : Nat := d.slowBase + 65536 * i

/-- WRITE and ATOMIC of an object's leaves, WB (Table 08.6). -/
def ObjDecl.leaf (d : ObjDecl) (dpa : Nat) : Nat := leafOf dpa (bit d.flags 0) (bit d.flags 1)
def ObjDecl.wb (d : ObjDecl) : Bool := bit d.flags 2

/-- A cove's view. -/
def State.unified (s : State) (c : Nat) : Bool := (s.cove c).any fun d => d.unified

/-- Leaves of an object's slow copy. -/
def ObjDecl.slowLeaves (d : ObjDecl) : List Nat := (List.range d.npages).map fun i => d.leaf (d.slowDpa i)

/-- Leaves to an object's HBM pages. -/
def State.hbmLeaves (s : State) (c : Nat) (o : Obj) : List Nat :=
  match s.cove c with
  | none => []
  | some d => o.pages.map fun p => o.decl.leaf (d.pageDpa p)

/-! ### Leaves and their tables (R299, R304, R669) -/

/-- The leaves at VA of an object as its state calls for them (R310, R313, R355). -/
def State.vaLeaves (s : State) (c : Nat) (o : Obj) : List Nat :=
  let hbm := s.hbmLeaves c o
  let slow := o.decl.slowLeaves
  match o.word.state with
  | .slow => slow
  | .promoting => if s.unified c then hbm.take o.moved ++ slow.drop o.moved else slow
  | .resident => if s.unified c then hbm else if o.evict = 2 then [] else slow
  | .evicting => if o.evict = 2 then [] else if s.unified c then slow.take o.moved ++ hbm.drop o.moved else slow
  | .lost => if s.unified c ∧ !hbm.isEmpty then hbm else slow
  | .free => []
  | .absent => []
  | .loading => []

/-- Every leaf of a cove that the package owns, with its address: those of KV pages and those of objects. -/
def State.ownLeaves (s : State) (c : Nat) : List (Nat × Nat) :=
  let at_ (va : Nat) (es : List Nat) : List (Nat × Nat) := es.zipIdx.map fun x => (va + 65536 * x.2, x.1)
  (s.strm.flatMap fun x => ((x.2.pages ++ x.2.oldPages).filter fun k => k.cove = c).map fun k => (k.va, kvLeafOf (s.kvDpa k))) ++
    (s.objs.filter fun o => o.1 / 16384 = c).flatMap fun o =>
      at_ o.2.decl.va (s.vaLeaves c o.2) ++ (if !s.unified c ∧ o.2.word.state = .resident then at_ o.2.decl.hbmVa (s.hbmLeaves c o.2) else [])

/-- R304: the package writes a granule of one of its tables anew, from what it owns. -/
def State.mendGranule (s : State) (c g : Nat) : State :=
  let own := (s.ownLeaves c).filterMap fun x => (s.leafDpa c x.1).map fun a => (a, x.2)
  let entry (a : Nat) : Nat := ((own.find? fun x => x.1 = a).map Prod.snd).getD 0
  (s.writeGranule c (64 * g) ((List.range 8).flatMap fun i => leBytes 8 (entry (64 * g + 8 * i)))).1

/-- R304: the poisoned granules of a cove's tables that hold leaves of the package are written anew. -/
def State.mendTables (s : State) (c : Nat) : State :=
  if s.mem.poison.isEmpty ∧ s.mem.failed.isEmpty then s
  else
    let gs := (((s.ownLeaves c).filterMap fun x => s.leafDpa c x.1).map fun a => a / 64).eraseDups
    (gs.filter fun g => (s.region (64 * g)).tagged && s.granuleBad g).foldl (fun s g => s.mendGranule c g) s

/-- Write a leaf of a cove, into a granule that is sound or has been written anew; false where there is no level-3
table. -/
def State.writeLeaf (s : State) (c va e : Nat) : State × Bool :=
  match s.leafDpa c va with
  | none => (s, false)
  | some a =>
    let s := if (s.region a).tagged && s.granuleBad (a / 64) then s.mendGranule c (a / 64) else s
    ((s.writeGranule c a (leBytes 8 e)).1, true)

/-- R669: write a KV leaf, or count a fault where no level-3 table exists. -/
def State.kvLeaf (s : State) (c va e : Nat) : State :=
  match s.writeLeaf c va e with
  | (s, true) => s
  | (s, false) => s.bump (coveOff blkDTU c 0x30) 1

/-- Write the leaves of pages of an object from an address, page by page. -/
def State.objLeaves (s : State) (c va : Nat) (es : List Nat) : State :=
  es.zipIdx.foldl (fun s x => (s.writeLeaf c (va + 65536 * x.2) x.1).1) s

/-- Two ranges of addresses overlap. -/
def overlaps (a n b m : Nat) : Bool := decide (0 < n) && decide (0 < m) && decide (a < b + m) && decide (b < a + n)

/-- A range lies within another. -/
def inside (a n b m : Nat) : Bool := decide (b ≤ a) && decide (a + n ≤ b + m)

/-- Whether every page of a range has a level-3 table and no software leaf (R310, R669). -/
def State.rangeBuilt (s : State) (c va n : Nat) : Bool :=
  (List.range (n / 65536)).all fun i =>
    match s.leafDpa c (va + 65536 * i) with
    | none => false
    | some a => match s.tableEntry c a with
      | none => false
      | some e => !bit e 0 || bit e 10

/-- R310: whether a declaration allows its object to leave FREE. -/
def State.declOk (s : State) (c i : Nat) (d : ObjDecl) : Bool :=
  match s.cove c with
  | none => false
  | some cv =>
    let fields := decide (i < cv.objCount) && decide (d.va % 65536 = 0) && decide (d.hbmVa % 65536 = 0) && decide (d.bytes % 65536 = 0) &&
      decide (d.bytes ≠ 0) && decide (d.slowBase % 65536 = 0) && decide (d.flags < 8) && decide (d.rsvA = 0) && decide (d.rsvB = 0) &&
      decide (d.activity ≤ 64) && decide (d.va + d.bytes ≤ 0x1000000000000) && decide (d.hbmVa + d.bytes ≤ 0x1000000000000)
    let slow := inside d.slowBase d.bytes deepDpa (0x40000000 * s.hbm.deepGiB) ||
      (decide (hostDpa ≤ d.slowBase) && s.hostAdmits c false (d.slowBase - hostDpa) d.bytes)
    let clear (va : Nat) : Bool :=
      !overlaps va d.bytes cv.kvRegion (cv.kvRanges * 2 ^ cv.kvRangeLog2) &&
        s.objs.all fun o => decide (o.1 / 16384 ≠ c) || decide (o.1 % 16384 = i) || decide (o.2.word.state = .free) ||
          (!overlaps va d.bytes o.2.decl.va o.2.decl.bytes && (decide (o.2.decl.hbmVa = 0) || !overlaps va d.bytes o.2.decl.hbmVa o.2.decl.bytes))
    fields && slow && clear d.va && s.rangeBuilt c d.va d.bytes &&
      (if cv.unified then decide (d.hbmVa = 0)
       else inside d.va d.bytes cv.slowWinVa cv.slowWinBytes && inside d.hbmVa d.bytes cv.hbmWinVa cv.hbmWinBytes &&
         clear d.hbmVa && s.rangeBuilt c d.hbmVa d.bytes)

/-! ### Moves of objects (R313 to R316) -/

/-- A state of an object has changed: what R314 and R313 leave as its status. -/
def Status.into (st : Status) (w : ObjWord) : ObjWord := { w with lastStatus := st.code }

/-- R313, R314: a promotion that a change of the state word has just asked for takes its pages, or ends at once. `act` is
its activity where that is not the object's own (R316). -/
def State.promoteBegin (s : State) (c i : Nat) (act : Option Nat) : State :=
  let o := s.obj c i
  match s.objPages c o.decl.npages with
  | some ps => s.modObj c i fun o => { o with pages := ps, moved := 0, moveAct := act, pendAct := none }
  | none => s.setWord c i fun w => { w with state := .slow, lastStatus := Status.noResource.code }

/-- R312, R313: a package change of SLOW to PROMOTING. -/
def State.promote (s : State) (c i : Nat) (act : Option Nat) : State :=
  (s.setWord c i fun w => { w with state := .promoting }).promoteBegin c i act

/-- R320, R352: ask for a promotion when the eviction in progress has ended. -/
def State.promoteAfter (s : State) (c i : Nat) (act : Option Nat) : State :=
  (s.setWord c i fun w => { w with pend := true }).modObj c i fun o => { o with pendAct := act }

/-- R313, R355: an eviction that a change of the state word has just asked for: under SEPARATE the leaves at HBM_VA become
invalid, and without a slow copy those at VA. -/
def State.evictBegin (s : State) (c i : Nat) : State :=
  let o := s.obj c i
  let s := s.modObj c i fun o => { o with moved := 0, moveAct := none, pendAct := none }
  let s := if s.unified c then s else s.objLeaves c o.decl.hbmVa (List.replicate o.decl.npages 0)
  if o.evict = 2 then s.objLeaves c o.decl.va (List.replicate o.decl.npages 0) else s

/-- R312, R355: a package change of RESIDENT to EVICTING: 0 under R313, 1 with WB 0, 2 without a slow copy. -/
def State.evict (s : State) (c i kind : Nat) : State :=
  ((s.setWord c i fun w => { w with state := .evicting }).modObj c i fun o => { o with evict := kind }).evictBegin c i

/-- R288, R316: charge `n` bytes to an activity's HBM grant for each side of a move that lies in HBM. -/
def State.chargeMove (s : State) (act src dst n : Nat) : State :=
  let sides := b2n (decide (s.region src = .hbm)) + b2n (decide (s.region dst = .hbm))
  if sides = 0 then s else s.charge 0 0 act (n * sides)

/-- Copy one 64-byte granule between DPAs for an activity, each side under its cove's code; poison goes with it, but
never into host memory (R264, R316, R670, R671). -/
def State.copyGranule (s : State) (act cs src cd dst : Nat) : State :=
  let bad := (s.region src).tagged && s.granuleBad (src / 64)
  let bs := s.bytesAt cs src 64
  let s := (s.chargeMove act src dst 64).readGranule cs act src
  if !bad then (s.writeGranule cd dst bs).1
  else if (s.region dst).tagged then
    let s := (s.writeGranule cd dst (List.replicate 64 0)).1
    { s with mem := { s.mem with poison := SMap.put false s.mem.poison (dst / 64) true } }
  else if s.region dst = .host then s
  else (s.writeGranule cd dst (List.replicate 64 0)).1

/-- R315: copy a 64 KiB page for an activity. -/
def State.copyPage (s : State) (act cs src cd dst : Nat) : State :=
  (List.range 1024).foldl (fun s g => s.copyGranule act cs (src + 64 * g) cd (dst + 64 * g)) s

/-- A page that holds a poisoned granule. -/
def State.pageBad (s : State) (dpa : Nat) : Bool :=
  (s.region dpa).tagged && (List.range 1024).any fun g => s.granuleBad (dpa / 64 + g)

/-- SPW counters of a cove (Table 08.15). -/
def spwOff (c r : Nat) : Nat := coveOff blkSPW c r

/-- SPILL_SHORT, the low word of its register (Table 08.15). -/
def State.spillShort (s : State) (c : Nat) : State := s.bump (spwOff c 0x68) 1

/-- PROMOTE_WAITS, the high word. -/
def State.promoteWait (s : State) (c : Nat) : State := s.bump (spwOff c 0x6C) 1

/-- R351: every object of a slot's list with STREAMED 0 is RESIDENT. -/
def State.slotReady (s : State) (c sl : Nat) : Bool :=
  match s.slot c sl with
  | none => false
  | some d => d.objs.all fun x => x.2 || decide ((s.obj c x.1).word.state = .resident)

/-- R351: a slot lists an object that is ABSENT, LOADING or LOST. -/
def State.slotMissing (s : State) (c sl : Nat) : Bool :=
  match s.slot c sl with
  | none => false
  | some d => d.objs.any fun x => !x.2 && ((s.obj c x.1).word.state ∈ [ObjState.absent, .loading, .lost])

/-- R353: slots of a cove have become ready: LAST_USE. -/
def State.noteSlots (s : State) (c : Nat) (ready : List Nat) : State :=
  { s with seq := vmod s.seq c fun x => { x with lastUse := ready.foldl (fun l k => modNth l k fun _ => s.now) x.lastUse },
           inl := { s.inl with promoting := vmod s.inl.promoting c fun l => l.filter fun k => !s.slotReady c k } }

/-- R353: an object has become RESIDENT: LAST_USE of the slots that it makes ready. -/
def State.noteReady (s : State) (c i : Nat) : State :=
  s.noteSlots c ((List.range 8).filter fun sl => s.slotReady c sl && match s.slot c sl with
    | some d => d.objs.any fun x => x.1 = i && !x.2
    | none => false)

/-- Table 09.12: a slot has promotions of R352 in progress: it asked for them, and an object of its list is PROMOTING, or
is to be once its eviction has ended. -/
def State.slotPromoting (s : State) (c sl : Nat) : Bool :=
  decide (sl ∈ vget [] s.inl.promoting c) && match s.slot c sl with
    | none => false
    | some d => d.objs.any fun x => !x.2 && (decide ((s.obj c x.1).word.state = .promoting) ||
        (decide ((s.obj c x.1).word.state = .evicting) && (s.obj c x.1).word.pend))

/-- R313: a promotion whose last page has been copied. -/
def State.promoteEnd (s : State) (c i : Nat) : State :=
  let o := s.obj c i
  let s := if s.unified c then s else s.objLeaves c o.decl.hbmVa (s.hbmLeaves c o)
  State.noteReady (c := c) (i := i) <| (s.setWord c i fun w => { w with state := .resident, tier := 1, lastStatus := 0 }).bump (spwOff c 0x40) 1

/-- R313: an eviction whose last page has been dealt with. -/
def State.evictEnd (s : State) (c i : Nat) : State :=
  let o := s.obj c i
  let tier := if hostDpa ≤ o.decl.slowBase then 3 else 2
  let s := (s.modObj c i fun o => { o with pages := [], moved := 0, evict := 0 }).bump (spwOff c 0x48) 1
  if o.evict = 2 then s.setWord c i fun w => { w with state := .absent, tier := 0, pend := false, lastStatus := 0 }
  else if o.word.pend then (s.setWord c i fun w => { w with state := .promoting, tier, pend := false, lastStatus := 0 }).promoteBegin c i o.pendAct
  else s.setWord c i fun w => { w with state := .slow, tier, lastStatus := 0 }

/-- R604, R606: an object becomes LOST. -/
def State.loseWord (s : State) (c i : Nat) : State :=
  s.setWord c i fun w => { w with state := .lost, tier := 0, pend := false, lastStatus := Status.objectLost.code }

/-- R315, R316: one page of an object's move is copied, at the cost of its activity. -/
def State.movePage (s : State) (act c src dst : Nat) : State :=
  (s.charge 4 (b2n (decide (hostDpa ≤ src) || decide (hostDpa ≤ dst))) act 65536).copyPage act c src c dst

/-- R315: the Spillway completes one page of an object's move. `readOk` says that a read from host memory has come back
sound (R606). A page with poison that is to go to host memory waits for its refetch (R670). -/
def State.objMove (s : State) (c i : Nat) (readOk : Bool) : State :=
  let o := s.obj c i
  match s.cove c, o.word.state with
  | some d, .promoting =>
    let src := o.decl.slowDpa o.moved
    if hostDpa ≤ src ∧ !readOk then s.loseWord c i
    else
      let dst := d.pageDpa (nth 0 o.pages o.moved)
      let s := s.movePage (o.moveAct.getD o.decl.activity) c src dst
      let s := if d.unified then (s.writeLeaf c (o.decl.va + 65536 * o.moved) (o.decl.leaf dst)).1 else s
      let s := (s.modObj c i fun o => { o with moved := o.moved + 1 }).bump (spwOff c 0x50) 1
      if o.decl.npages ≤ o.moved + 1 then s.promoteEnd c i else s
  | some d, .evicting =>
    let src := d.pageDpa (nth 0 o.pages o.moved)
    let dst := o.decl.slowDpa o.moved
    let wb := o.decl.wb && decide (o.evict = 0)
    if o.evict = 2 then s.evictEnd c i
    else if wb ∧ hostDpa ≤ dst ∧ s.pageBad src then s
    else
      let s := if wb then ((s.movePage o.decl.activity c src dst).bump (spwOff c 0x50) 1) else s
      let s := if d.unified then (s.writeLeaf c (o.decl.va + 65536 * o.moved) (o.decl.leaf dst)).1 else s
      let s := s.modObj c i fun o => { o with moved := o.moved + 1 }
      if o.decl.npages ≤ o.moved + 1 then s.evictEnd c i else s
  | _, _ => s

/-! ### Slot readiness and the least-used eviction (R351 to R355) -/

/-- Pages that evictions in progress of a cove will return. -/
def State.evictingPages (s : State) (c : Nat) : Nat :=
  ((s.objs.filter fun o => o.1 / 16384 = c ∧ o.2.word.state = .evicting).map fun o => o.2.pages.length).sum

/-- Free pages of a cove's object pool. -/
def State.objFree (s : State) (c : Nat) : Nat :=
  match s.cove c with
  | none => 0
  | some d => d.objHbmPages - ((s.objTaken c).filter fun p => d.kvHbmPages ≤ p).length

/-- R353: whether a slot is a candidate for eviction on behalf of another (8 for none). -/
def State.evictCandidate (s : State) (c on sl : Nat) : Bool :=
  match s.slot c sl with
  | none => false
  | some d => decide (sl ≠ on) && !d.group &&
      !((s.streams.map Prod.fst).any fun e => s.sServeCove e = c && s.sServeSlot e = sl &&
        (s.sState e ∈ [some StreamState.queued, some .prefill, some .decode, some .fallback]))

/-- R354, R355: evict one object on behalf of a slot's eviction. -/
def State.evictFor (s : State) (c sl i : Nat) : State :=
  let s := s.evict c i (if (s.obj c i).slowValid then 1 else 2)
  (s.bump (coveOff blkINL c 0x58) 1).ripple ripSlotEvict 0 (coveByte c) sl i

/-- R354: the objects of a slot that may be evicted: RESIDENT, unpinned, unused, every slot that lists them a candidate. -/
def State.evictable (s : State) (c on sl : Nat) : List Nat :=
  match s.slot c sl with
  | none => []
  | some d => (d.objs.map Prod.fst).filter fun i =>
      let w := (s.obj c i).word
      decide (w.state = .resident) && decide (w.pins = 0) && decide (w.use = 0) &&
        (List.range 8).all fun k => match s.slot c k with
          | none => true
          | some dk => !(dk.objs.any fun x => x.1 = i) || s.evictCandidate c on k

/-- R354: the least-used eviction, over at most `fuel` slots in turn; `done` are candidates no longer. False is
NO_RESOURCE. -/
def State.leastUsed (c on need : Nat) : Nat → List Nat → State → State × Bool
  | 0, _, s => (s, decide (need ≤ s.objFree c + s.evictingPages c))
  | fuel + 1, done, s =>
    if need ≤ s.objFree c + s.evictingPages c then (s, true)
    else
      let x := vget ({} : SeqCove) s.seq c
      let cands := (List.range 8).filter fun k => k ∉ done ∧ s.evictCandidate c on k
      match cands.foldl (fun (b : Option Nat) k => match b with
        | none => some k
        | some j => if nth 0 x.lastUse k < nth 0 x.lastUse j then some k else some j) none with
      | none => (s, false)
      | some k => State.leastUsed c on need fuel (k :: done) ((s.evictable c on k).foldl (fun s i => s.evictFor c k i) s)

/-- R352: the sequencer would choose a slot that is not ready: promote its SLOW objects, after the least-used eviction
where the pool cannot supply them. -/
def State.wantSlot (s : State) (c sl : Nat) : State :=
  match s.slot c sl with
  | none => s
  | some d =>
    let objs := (d.objs.filter fun x => !x.2).map Prod.fst
    let s := if s.slotMissing c sl then
        (if sl ∈ vget [] s.inl.missing c then s
         else { s with inl := { s.inl with missing := vmod s.inl.missing c fun l => l ++ [sl] } }.raiseCove c 1)
      else { s with inl := { s.inl with missing := vmod s.inl.missing c fun l => l.erase sl } }
    let act := (s.cove c).map fun v => v.slotAct
    let s := objs.foldl (fun s i =>
      if (s.obj c i).word.state = .evicting ∧ (s.obj c i).evict ≠ 2 ∧ !(s.obj c i).word.pend then s.promoteAfter c i act else s) s
    let s := objs.foldl (fun s i =>
      let o := s.obj c i
      if o.word.state ≠ .slow then s
      else if (s.objPages c o.decl.npages).isSome then s.promote c i act
      else (s.leastUsed c sl o.decl.npages 8 []).1) s
    if sl ∈ vget [] s.inl.promoting c then s else { s with inl := { s.inl with promoting := vmod s.inl.promoting c fun l => l ++ [sl] } }

/-! ### Compare-and-swap of a state word (R311) -/

/-- Table 08.8: what a change from one word to another asks for. -/
inductive CasRow where | bad | free | fromFree | lostAbsent | promote | evict | busy | pend | pins
  deriving DecidableEq, Repr

/-- R311 item 2: the row of Table 08.8 that a change is; an eviction asked for while PROMOTING is one that Table 08.10
answers BUSY. -/
def casRow (o n : ObjWord) : CasRow :=
  if n.seq ≠ o.seq ∨ n.lastStatus ≠ o.lastStatus ∨ n.use ≠ o.use ∨ n.tier ≠ o.tier then .bad
  else if n.pins ≠ o.pins then
    if n.state = o.state ∧ n.pend = o.pend ∧ o.state ≠ .free ∧ o.state ≠ .lost ∧ (n.pins = o.pins + 1 ∨ o.pins = n.pins + 1) then .pins else .bad
  else if n.pend ≠ o.pend then (if n.state = .evicting ∧ o.state = .evicting ∧ n.pend then .pend else .bad)
  else match o.state, n.state with
    | .free, .absent => .fromFree
    | .absent, .free => .free
    | .slow, .free => .free
    | .lost, .free => .free
    | .lost, .absent => .lostAbsent
    | .slow, .promoting => .promote
    | .resident, .evicting => .evict
    | .promoting, .evicting => .busy
    | _, _ => .bad

/-- R605: the HBM pages of an object that leaves LOST return to the pool, those with poison by way of quarantine. -/
def State.dropPages (s : State) (c i : Nat) : State :=
  match s.cove c with
  | none => s
  | some d =>
    let bad := (s.obj c i).pages.filter fun p => s.pageBad (d.pageDpa p)
    let s := s.modObj c i fun o => { o with pages := [], moved := 0 }
    { s with seq := vmod s.seq c fun x => { x with quar := x.quar ++ bad } }

/-- Table 08.8: leaves of an object written invalid, or removed: entries with VALID 0. -/
def State.clearLeaves (s : State) (c i : Nat) : State :=
  let o := s.obj c i
  let s := s.objLeaves c o.decl.va (List.replicate o.decl.npages 0)
  if o.decl.hbmVa = 0 then s else s.objLeaves c o.decl.hbmVa (List.replicate o.decl.npages 0)

/-- R311 item 3: apply a row; the status. -/
def State.casApply (s : State) (c i : Nat) (n : ObjWord) : CasRow → State × Status
  | .bad => (s, .range)
  | .fromFree =>
    if s.declOk c i (s.obj c i).decl then ((s.setWord c i fun _ => n).clearLeaves c i, .done) else (s, .range)
  | .free =>
    if n.pins = 0 ∧ n.use = 0 then
      let s := (s.clearLeaves c i).dropPages c i
      ((s.setWord c i fun _ => { n with tier := 0 }).modObj c i fun o => { o with intake := none, slowValid := false }, .done)
    else (s, .busy)
  | .lostAbsent => (((s.dropPages c i).clearLeaves c i).setWord c i fun _ => { n with tier := 0 }, .done)
  | .promote => ((s.setWord c i fun _ => n).promoteBegin c i none, .done)
  | .busy => (s, .busy)
  | .evict => if n.pins = 0 ∧ n.use = 0 then ((s.setWord c i fun _ => n).evictBegin c i, .done) else (s, .busy)
  | .pend => (s.setWord c i fun _ => n, .done)
  | .pins => (s.setWord c i fun _ => n, .done)

/-- R311: a compare-and-swap: CAS_OLD and CAS_STAT, and the change. -/
def State.objectCas (s : State) (c : Nat) (hi : Word) : State :=
  let i := (s.reg (spwOff c 0)).toNat % 16384
  let old := (s.obj c i).word
  let new := (s.reg (spwOff c 0x10)).toNat + 0x100000000 * hi.toNat
  let result (s : State) (fail : Bool) (st : Status) : State :=
    { s with spw := vmod s.spw c fun _ => { casOld := BitVec.ofNat 64 old.enc, casStatus := st.code, cmpFail := fail } }.setReg (spwOff c 0x14) hi
  if (s.cove c).isNone then result s false .absentUnit
  else if old.enc ≠ s.reg64 (spwOff c 8) then result s true .busy
  else
    let (s, st) := match objWordOf new with
      | none => (s, Status.range)
      | some n => s.casApply c i n (casRow old n)
    result s false st

/-- OBJECT_CAS (R311): a write of CAS_NEW_HI of a cove, CAS_NEW_LO with it where both are written. -/
def execObjectCas (c : Cove) (lo : Option Word) (hi : Word) (s : State) : Host.Outcome State Fault Refusal :=
  .next (s.whileOn fun s => (match lo with
    | some w => s.setReg (spwOff c.val 0x10) w
    | none => s).objectCas c.val hi)

/-! ### Invalidation (R300, R301) -/

/-- R301: INVAL_CTRL.GO starts an invalidation; a length of zero completes at once. -/
def State.dtuInval (s : State) (c : Nat) (w : Word) : State :=
  let d := vget ({} : DtuCove) s.dtu c
  if !w.getLsbD 0 ∨ d.busy then s
  else
    let va := s.reg64 (coveOff blkDTU c 0x10)
    let n := (s.reg (coveOff blkDTU c 0x18)).toNat
    { s with dtu := vmod s.dtu c fun d => { d with busy := decide (n ≠ 0), invalVa := va / 65536 * 65536, invalLen := n } }

/-- DTU_INVAL (R301): a write of INVAL_CTRL of a cove. -/
def execDtuInval (c : Cove) (value : Word) (s : State) : Host.Outcome State Fault Refusal := .next (s.whileOn fun s => s.dtuInval c.val value)

/-- DTU_INVAL_DONE (R301): no translation is kept beyond an access, so nothing remains to be dropped (log 18). -/
def execDtuInvalDone (c : Cove) (s : State) : Host.Outcome State Fault Refusal :=
  .next (s.whileOn fun s => { s with dtu := vmod s.dtu c.val fun d => { d with busy := false } })

end Sys2Proof.Machine
end

