-- ==== Sys2Proof/Machine/Kv.lean ====
section
/-! DEFINITION. Sys2Proof/Machine/Kv.lean: KV pages and ranges of streams, their moves between tiers, and the Spillway's
page moves (spec/06_serving_sequencer.md R225 to R228, spec/08_tiers_and_translation.md R307, R322, R323, R670). -/
namespace Sys2Proof.Machine
open Sys2Proof

/-- SEQ registers of a cove (Table 06.11). -/
def seqOff (c r : Nat) : Nat := coveOff blkSEQ c r

/-- The cove's sequencer event vector (Table 16.4). -/
def State.seqEvent (s : State) (c : Nat) : State := s.raiseCove c 0

/-- STEP_SEQS, STEP_TOKENS, CHUNK_MAX, CHUNK_MIN, DECODE_RESERVE, BE_AGE and MISS_STEPS (Tables 06.13 and 06.14). -/
def State.stepSeqs (s : State) (c : Nat) : Nat := bits (s.reg (seqOff c 4)).toNat 16 11
def State.stepTokens (s : State) (c : Nat) : Nat := bits (s.reg (seqOff c 4)).toNat 0 15
def State.chunkMax (s : State) (c : Nat) : Nat := bits (s.reg (seqOff c 8)).toNat 16 14
def State.chunkMin (s : State) (c : Nat) : Nat := bits (s.reg (seqOff c 8)).toNat 0 14
def State.decodeReserve (s : State) (c : Nat) : Nat := bits (s.reg (seqOff c 0xC)).toNat 16 16
def State.beAge (s : State) (c : Nat) : Nat := bits (s.reg (seqOff c 0xC)).toNat 8 8
def State.missSteps (s : State) (c : Nat) : Nat := bits (s.reg (seqOff c 0xC)).toNat 0 8

/-! ### Ranges (R307) -/

/-- Ranges of a cove that entries hold. -/
def State.heldRanges (s : State) (c : Nat) : List Nat :=
  s.strm.flatMap fun x => (x.2.range.toList ++ x.2.oldRange).filterMap fun r => if r.1 = c then some r.2 else none

/-- R307: the lowest free range of a cove. -/
def State.freeRange (s : State) (c : Nat) : Option Nat :=
  match s.cove c with
  | none => none
  | some d => (lowestFree 0 d.kvRanges 1 (s.heldRanges c)).head?

/-- Base of a range. -/
def CoveDecl.rangeBase (d : CoveDecl) (k : Nat) : Nat := d.kvRegion + k * 2 ^ d.kvRangeLog2

/-- Give a stream a range of a cove: KV_VBASE. -/
def State.giveRange (s : State) (e c k : Nat) : State :=
  match s.cove c with
  | none => s
  | some d => (s.sset e 0x40 8 (d.rangeBase k)).setSx e fun x => { x with range := some (c, k) }

/-! ### Pages (R226, R227) -/

/-- The slot that serves a stream. -/
def State.serving (s : State) (e : Nat) : Option SlotDecl := s.slot (s.sServeCove e) (s.sServeSlot e)

/-- Put pages in ascending address. -/
def sortPages (l : List KvPage) : List KvPage := l.insertionSort fun a b => a.va ≤ b.va

/-- Addresses of the pages that a stream still needs to hold `n` positions. -/
def State.kvMissing (s : State) (e n : Nat) : List Nat :=
  match s.serving e with
  | none => []
  | some d => ((d.pageOffs n).map fun o => s.sget e 0x40 8 + o).filter fun va => !((s.sx e).pages.any fun k => k.va = va)

/-- R226: take the pages a stream needs to hold `n` positions from the HBM free list of the cove that serves it, where
`keep` pages remain free; none where the list cannot give them. -/
def State.takePages (s : State) (e n keep : Nat) : Option State :=
  let c := s.sServeCove e
  let vas := s.kvMissing e n
  if vas.isEmpty then some s
  else if s.kvFree c .hbm < vas.length + keep then none
  else
    let new := ((s.kvPick c .hbm vas.length).zip vas).map fun x => (⟨c, .hbm, x.1, x.2⟩ : KvPage)
    let s := new.foldl (fun s k => s.kvLeaf c k.va (kvLeafOf (s.kvDpa k))) s
    some ((s.sset e 0x3C 4 (s.sget e 0x3C 4 + new.length)).setSx e fun x => { x with pages := sortPages (x.pages ++ new) })

/-- Remove the leaves of pages: they return to their free lists. -/
def State.unmapPages (s : State) (ps : List KvPage) : State :=
  ps.foldl (fun s k => match s.writeLeaf k.cove k.va 0 with
    | (s, _) => s) s

/-- R226: everything a stream owns returns: pages of every pool, shadow pages and ranges. -/
def State.dropKv (s : State) (e : Nat) : State :=
  let x := s.sx e
  (((s.unmapPages (x.pages ++ x.oldPages)).sset e 0x3C 4 0)).setSx e fun x =>
    { x with pages := [], oldPages := [], shadow := [], range := none, oldRange := [], importing := none, move := none, wantDemote := none,
             wantPromote := false, shadowPending := [], shadowAt := 0, shadowFrom := [], shadowDue := false }

/-- The pages and range that a switch or a RESUME left in another cove return (R248, R672). -/
def State.dropOld (s : State) (e : Nat) : State :=
  let x := s.sx e
  ((s.unmapPages x.oldPages).sset e 0x3C 4 (s.sget e 0x3C 4 - x.oldPages.length)).setSx e fun x => { x with oldPages := [], oldRange := [] }

/-- Whether every page of a stream lies in HBM and no move of its range runs or waits. -/
def StreamX.inHbm (x : StreamX) : Bool := x.move.isNone && !x.wantPromote && x.pages.all fun k => k.pool = .hbm

/-! ### Package cancel (R241) -/

/-- R241: a package cancel with its END_CAUSE. -/
def State.packageCancel (s : State) (e st : Nat) : State := (s.setSState e .cancelling).sset e 0x76 1 st

/-! ### Moves of KV ranges (R322, R323, R670) -/

/-- A move of a stream's range has ended; a RESUME or PAUSE that waited for it follows. -/
def State.kvMoveEnd (s : State) (e : Nat) : State :=
  s.setSx e fun x =>
    let slow := x.pages.any fun k => k.pool ≠ .hbm
    { x with move := if x.wantPromote && slow then some .promote else none, movePos := 0, wantPromote := false, moveWait := false }

/-- Move one page of a stream to a page of another pool of its cove: copy, leaf, record, counts (R315, R316). -/
def State.kvMovePage (s : State) (e : Nat) (k : KvPage) (p : Pool) (n : Nat) : State :=
  let new : KvPage := { k with pool := p, page := n }
  let act := ((s.cove k.cove).map fun d => d.kvAct).getD 0
  let s := s.movePage act k.cove (s.kvDpa k) (s.kvDpa new)
  let s := s.kvLeaf k.cove k.va (kvLeafOf (s.kvDpa new))
  let s := s.setSx e fun x => { x with pages := x.pages.map fun y => if y = k then new else y, movePos := k.va + 1 }
  (s.bump (spwOff k.cove 0x50) 1).addShare k.cove poolSpillKv (s.streamKey k.cove e) 1

/-- R315, R322, R323, R670: the Spillway completes the next page of a stream's move. -/
def State.kvMoveStep (s : State) (e : Nat) (readOk : Bool) : State :=
  let x := s.sx e
  match x.move with
  | none => s
  | some (.demote deep) =>
    let p : Pool := if deep then .deep else .host
    match x.pages.find? fun k => k.pool = .hbm ∧ x.movePos ≤ k.va with
    | none => s.kvMoveEnd e
    | some k =>
      if !deep && s.pageBad (s.kvDpa k) then (s.spillShort k.cove).setSx e fun x => { x with movePos := k.va + 1 }
      else match s.kvPick k.cove p 1 with
        | [] => (s.spillShort k.cove).kvMoveEnd e
        | n :: _ =>
          let s := s.kvMovePage e k p n
          if (s.sx e).pages.any fun y => y.pool = .hbm ∧ k.va < y.va then s else s.kvMoveEnd e
  | some .promote =>
    match x.pages.find? fun k => k.pool ≠ .hbm with
    | none => s.kvMoveEnd e
    | some k =>
      if k.pool = .host && !readOk then (s.setSx e fun x => { x with move := none, moveWait := false }).noteStatus k.cove .objectLost
      else if s.decodeReserve k.cove < s.kvFree k.cove .hbm then
        match s.kvPick k.cove .hbm 1 with
        | [] => s
        | n :: _ =>
          let s := s.kvMovePage e k .hbm n
          if (s.sx e).pages.any fun y => y.pool ≠ .hbm then s else s.kvMoveEnd e
      else if x.moveWait then s
      else (s.promoteWait k.cove).setSx e fun x => { x with moveWait := true }

/-- SPILLWAY_PAGE_MOVE (R315): the Spillway completes one page of a move. `readOk` says that a page read from host
memory has come back sound (R606). -/
def execSpillwayPageMove (t : MoveTarget) (readOk : Bool) (s : State) : Host.Outcome State Fault Refusal :=
  .next (s.unlessHalted fun s => match t with
    | .object c i => s.objMove c.val i.val readOk
    | .stream e => s.kvMoveStep e.val readOk)

end Sys2Proof.Machine
end

