-- ==== Sys2Proof/Machine/StepProgram.lean ====
section
/-! DEFINITION. Sys2Proof/Machine/StepProgram.lean: the step program: instantiating and posting entries, layer
schedules, and the completion of entries (spec/06_serving_sequencer.md R235 to R242, spec/08_tiers_and_translation.md
R319 to R321). -/
namespace Sys2Proof.Machine
open Sys2Proof

/-- Change the step that runs in a cove. -/
def State.modRun (s : State) (c : Nat) (f : StepRun → StepRun) : State := s.modSeq c fun x => { x with run := x.run.map f }

/-- Write bytes for the sequencer; the status of an error. -/
def State.seqWrite (s : State) (c va : Nat) (b : List Byte) : State × Option Status :=
  match s.poke c unitSeq 0 va b with
  | (s, none) => (s, none)
  | (s, some e) => (s, some e.status)

/-- Write several ranges until one fails. -/
def State.seqWrites (s : State) (c : Nat) : List (Nat × List Byte) → State × Option Status
  | [] => (s, none)
  | (va, b) :: r =>
    match s.seqWrite c va b with
    | (s, none) => State.seqWrites s c r
    | (s, some e) => (s, some e)

/-- Read bytes for the sequencer. -/
def State.seqRead (s : State) (c va n : Nat) : Except AccErr (List Byte) := s.peek c va n

/-- What a failed read of the sequencer does to the state, and its status. -/
def State.seqFail (s : State) (c va : Nat) (e : AccErr) : State × Option Status := (s.accErr c unitSeq 0 va e, some e.status)

/-- Replace `n` bytes at an offset of a byte list by a little-endian number. -/
def patch (b : List Byte) (off n v : Nat) : List Byte := b.take off ++ leBytes n v ++ b.drop (off + n)

/-! ### Entries of a step program (Tables 06.7 and 06.8) -/

/-- The bytes of an entry of a slot's step program. -/
def State.progEntry (s : State) (c : Nat) (d : SlotDecl) (k : Nat) : Except AccErr (List Byte) := s.seqRead c (d.stepProg + 32 * k) 32

/-- KIND, WITH_PREV, LAYER, PARAM, TEMPLATE, INST_ADDR and INST_BYTES of an entry. -/
def peKind (e : List Byte) : Nat := fld e 0 1
def peWithPrev (e : List Byte) : Bool := bit (fld e 1 1) 0
def peLayer (e : List Byte) : Nat := fld e 2 2
def peParam (e : List Byte) : Nat := fld e 4 4
def peTemplate (e : List Byte) : Nat := fld e 8 8
def peInst (e : List Byte) : Nat := fld e 0x10 8
def peBytes (e : List Byte) : Nat := fld e 0x18 4

/-- LAYER of an entry by number. -/
def State.layerOf (s : State) (c : Nat) (d : SlotDecl) (k : Nat) : Option Nat :=
  match s.progEntry c d k with
  | .ok e => some (peLayer e)
  | .error _ => none

/-- WITH_PREV of an entry by number. -/
def State.withPrev (s : State) (c : Nat) (d : SlotDecl) (k : Nat) : Bool :=
  match s.progEntry c d k with
  | .ok e => peWithPrev e
  | .error _ => false

/-- DONE_CTR that names the cove's step counter (R237). -/
def CoveDecl.stepDone (d : CoveDecl) : Nat := d.stepCtr + 65536

/-- One list entry of 16 bytes (Table 03.6). -/
def listEntry (desc tile : Nat) : List Byte := leBytes 8 desc ++ leBytes 4 tile ++ leBytes 4 0

/-- MATRIX_LIST (Table 06.8): patch the descriptors, write the entries and the header. -/
def State.instMatrix (s : State) (c : Nat) (d : CoveDecl) (e : List Byte) (rows : Nat) : State × Option Status :=
  let t := peTemplate e
  let inst := peInst e
  match s.seqRead c t 64 with
  | .error er => s.seqFail c t er
  | .ok h =>
    match s.listEntries c (fld h 0x10 8) (fld h 8 4) with
    | .error er => s.seqFail c (fld h 0x10 8) er
    | .ok es =>
      let descs := (es.map Prod.fst).eraseDups
      match s.readAll c 160 descs with
      | .error er => s.seqFail c (fld h 0x10 8) er
      | .ok ds =>
        let tiles := ds.flatMap fun x => (List.range (((rows + 255) / 256) * ((fld x.2 8 4 + 127) / 128))).map fun i => listEntry x.1 i
        let hdr := patch (patch (patch (patch (patch (patch (patch h 0 8 0) 8 4 tiles.length) 0xC 4 0) 0x10 8 (inst + 64)) 0x28 4 0) 0x30 4 d.stepDone) 0x34 4 0
        s.seqWrites c ((descs.flatMap fun a => [(a + 4, leBytes 4 rows), (a + 0x70, leBytes 8 d.batchAddr)]) ++
          [(inst + 64, tiles.flatten), (inst, hdr)])

/-- Bytes of a private slice of WORK_ADDR (R158): counters, then partials; and the bytes of its counters. -/
def workSlice (x : List Byte) (rows : Nat) : Nat × Nat :=
  let hkv := fld x 6 2
  let g := fld x 4 2 / Nat.max 1 hkv
  let rb := (rows * g + 127) / 128
  let sp := fld x 0xA 1
  let ctrs := (8 * hkv + 8 * hkv * rb + 63) / 64 * 64
  (ctrs + (if 1 < sp then hkv * rb * sp * (128 * (4 * fld x 8 2 + 8)) else 0), ctrs)

/-- Units of a copy (R157). -/
def attnUnits (x : List Byte) (rows : Nat) : Nat :=
  let hkv := fld x 6 2
  hkv * ((rows * (fld x 4 2 / Nat.max 1 hkv) + 127) / 128) * fld x 0xA 1

/-- Table 06.8: the copy of an attention template for one stream of the batch; `work` is where its slice starts. -/
def State.attnCopy (s : State) (x : List Byte) (layerOff work : Nat) (p : BatchPart) : List Byte :=
  let r := p.row
  let x := patch (patch (patch x 0xC 4 p.rows) 0x10 4 p.pos) 0x1C 4 p.ent
  let x := patch x 0x58 8 (s.sget p.ent 0x40 8 + layerOff)
  let x := patch x 0x98 8 work
  let x := patch x 0x20 8 (fld x 0x20 8 + r * fld x 0x28 4)
  let x := patch x 0x40 8 (fld x 0x40 8 + r * fld x 0x50 4)
  let x := patch x 0x48 8 (fld x 0x48 8 + r * fld x 0x50 4)
  let x := patch x 0x80 8 (fld x 0x80 8 + r * fld x 0x88 4)
  patch x 0x90 8 (fld x 0x90 8 + r * fld x 4 2 * 8)

/-- Where the header of an instantiated attention list lies (log 19): behind the copies. -/
def State.attnHdr (s : State) (c : Nat) (e : List Byte) : Nat := peInst e + 256 * s.stepSeqs c

/-- Where the slices of WORK_ADDR start, part by part. -/
def workStarts (x : List Byte) : Nat → List BatchPart → List Nat
  | _, [] => []
  | a, p :: ps => a :: workStarts x (a + (workSlice x p.rows).1) ps

/-- ATTN_LIST (Table 06.8, R236). -/
def State.instAttn (s : State) (c : Nat) (d : CoveDecl) (sl : SlotDecl) (e : List Byte) (r : StepRun) : State × Option Status :=
  let t := peTemplate e
  match s.seqRead c t 256 with
  | .error er => s.seqFail c t er
  | .ok x =>
    let off := ((sl.kv.find? fun k => k.layer = peLayer e).map fun k => k.layerOff).getD 0
    let starts := workStarts x (fld x 0x98 8) r.parts
    let hdr := s.attnHdr c e
    let copies := (r.parts.zip starts).zipIdx.map fun q => (peInst e + 256 * q.2, s.attnCopy x off q.1.2 q.1.1)
    let counters := (r.parts.zip starts).map fun q => (q.2, List.replicate (workSlice x q.1.rows).2 (0 : Byte))
    let entries := r.parts.zipIdx.flatMap fun q => (List.range (attnUnits x q.1.rows)).map fun u => listEntry (peInst e + 256 * q.2) u
    let h := leBytes 8 0 ++ leBytes 4 entries.length ++ leBytes 4 0 ++ leBytes 8 (hdr + 64) ++ leBytes 16 d.atnMask ++ leBytes 8 0 ++
      leBytes 4 d.stepDone ++ leBytes 12 0
    let pad := if r.pad then
        let width := match fmtOfCode (bits (fld x 0x8C 4) 0 4) with
          | some f => f.rowBytes (fld x 4 2 * fld x 8 2)
          | none => 0
        [(fld x 0x80 8, List.replicate width (0 : Byte))]
      else []
    s.seqWrites c (pad ++ copies ++ counters ++ [(hdr + 64, entries.flatten), (hdr, h)])

/-- TAG of R238. -/
def stepTag (gstep layer : Nat) : Nat := gstep % 0x400000 * 1024 + layer

/-- ROUTE, RECEIVE and COPY (Table 06.8): patch a copy of 128 bytes at INST_ADDR. -/
def State.instCopy (s : State) (c : Nat) (e : List Byte) (f : List Byte → List Byte) : State × Option Status :=
  match s.seqRead c (peTemplate e) 128 with
  | .error er => s.seqFail c (peTemplate e) er
  | .ok b => s.seqWrite c (peInst e) (f b)

/-- R601: the page that the posting of entry `k` waits for: the entry, its template, or what a list's template names meets
a poisoned granule of an object. -/
def State.postPoison (s : State) (c : Nat) (sl : SlotDecl) (k : Nat) : Option Nat :=
  match s.progEntry c sl k with
  | .error _ => s.poisonPage c (sl.stepProg + 32 * k) 32
  | .ok e =>
    let t := peTemplate e
    if peKind e = 1 then
      match s.seqRead c t 64 with
      | .error _ => s.poisonPage c t 64
      | .ok h => match s.listEntries c (fld h 0x10 8) (fld h 8 4) with
        | .error _ => s.poisonPage c (fld h 0x10 8) (16 * fld h 8 4)
        | .ok es => (es.map Prod.fst).findSome? fun a => s.poisonPage c a 160
    else if peKind e = 2 then s.poisonPage c t 256
    else if peKind e ∈ [3, 4, 5] then s.poisonPage c t 128
    else none

/-- What posting one entry comes to: posted, ended at once with a status, or its queue is full. -/
inductive Posting where
  | posted (s : State) (p : Posted)
  | ended (s : State) (p : Posted) (st : Status)
  | full
  deriving DecidableEq, Repr

/-- Finish an instantiation: post it, or end the entry with the error met. -/
def postingOf (k : Nat) (addr : Nat) (r : State × Option Status) (post : State → State) : Posting :=
  match r.2 with
  | none => .posted (post r.1) { entry := k, addr, counts := true }
  | some st => .ended r.1 { entry := k, addr, counts := false, ended := true } st

/-- R237, Table 06.8: instantiate and post entry `k`. -/
def State.postEntry (s : State) (c : Nat) (d : CoveDecl) (sl : SlotDecl) (r : StepRun) (k : Nat) : Posting :=
  match s.progEntry c sl k with
  | .error er => let x := s.seqFail c (sl.stepProg + 32 * k) er
                 .ended x.1 { entry := k, addr := 0, counts := false, ended := true } (x.2.getD .permission)
  | .ok e =>
    let a := peInst e
    match peKind e with
    | 1 => if 64 ≤ (vget [] s.ponds c).length then .full else postingOf k a (s.instMatrix c d e r.rows) fun s => s.postPond c a
    | 2 => if 64 ≤ (vget [] s.atnLists c).length then .full
           else postingOf k (s.attnHdr c e) (s.instAttn c d sl e r) fun s => s.postAttn c (s.attnHdr c e)
    | 3 => if 64 ≤ (vget [] s.shoalQ c).length then .full
           else postingOf k a (s.instCopy c e fun b => patch (patch (patch (patch b 4 4 r.rows) 0x38 8 d.batchAddr) 0xC 4 (stepTag r.groupStep (peLayer e))) 0x74 4 d.stepDone)
             fun s => s.shoalPost c a
    | 4 => if 64 ≤ (vget [] s.shoalQ c).length then .full
           else postingOf k a (s.instCopy c e fun b => patch (patch b 0xC 4 (stepTag r.groupStep (peLayer e))) 0x50 4 d.stepDone) fun s => s.shoalPost c a
    | 5 => if 64 ≤ (vget [] s.bsn.queues c).length then .full
           else postingOf k a (s.instCopy c e fun b => patch (patch b 8 4 (r.rows * peParam e)) 0x10 4 d.stepDone) fun s => s.ferryPost c a true
    | 6 => .posted s { entry := k, addr := 0, counts := false }
    | 7 => .posted s { entry := k, addr := peTemplate e, counts := false }
    | _ => .ended s { entry := k, addr := 0, counts := false, ended := true } .range

/-! ### Statuses of entries (R240, Table 06.9) -/

/-- The stronger of two effects on a stream. -/
def Effect.join : Effect → Effect → Effect
  | .ended, _ => .ended
  | _, .ended => .ended
  | .cancel st, _ => .cancel st
  | _, .cancel st => .cancel st
  | .rebuild, _ => .rebuild
  | _, .rebuild => .rebuild
  | .suppress, _ => .suppress
  | _, .suppress => .suppress
  | .none, .none => .none

/-- Apply an effect to the parts of a step that satisfy a test. -/
def StepRun.affect (r : StepRun) (p : BatchPart → Bool) (x : Effect) : StepRun :=
  { r with parts := r.parts.map fun b => if p b then { b with effect := b.effect.join x } else b }

/-- Table 06.9: what a status of an entry other than a single attention descriptor does to every stream of the step;
NODE_LOST of a ROUTE ends streams under R204 alone. -/
def effectOf (kind : Nat) : Status → Effect
  | .done => .none
  | .replayed => .none
  | .range => .none
  | .permission => .cancel Status.permission.code
  | .objectLost => .cancel Status.objectLost.code
  | .absentUnit => .cancel Status.absentUnit.code
  | .nodeLost => if kind = 3 then .none else .suppress
  | _ => .suppress

/-- The cove is marked degraded (R604, Table 06.9). -/
def State.degrade (s : State) (c : Nat) : State :=
  if (s.seqc c).degraded then s
  else (((s.modSeq c fun x => { x with degraded := true }).fltEvent 3).seqEvent c).faultLog 0x06 unitSeq .objectLost c 0 0

/-- One status of an entry takes effect on every stream of the step. -/
def State.entryStatus (s : State) (c kind : Nat) (st : Status) : State :=
  let s := if st = .objectLost then s.degrade c else s
  s.modRun c fun r => r.affect (fun _ => true) (effectOf kind st)

/-- The status byte at an address of a posted entry. -/
def State.statusAt (s : State) (c va : Nat) : Status :=
  match s.peekNat c va 1 with
  | .ok n => statusOf n
  | .error e => e.status

/-- Table 06.9: the statuses of one attention list: each descriptor's counts for its stream where it is PERMISSION or
POISONED. -/
def State.attnStatuses (s : State) (c inst : Nat) (r : StepRun) : State :=
  r.parts.zipIdx.foldl (fun s q =>
    let st := s.statusAt c (inst + 256 * q.2 + 0xB)
    match st with
    | .permission => s.modRun c fun r => r.affect (fun b => b.ent = q.1.ent) (.cancel Status.permission.code)
    | .poisoned => s.modRun c fun r => r.affect (fun b => b.ent = q.1.ent) .rebuild
    | st => s.entryStatus c 2 st) s

/-- The status of an entry that has completed takes effect. -/
def State.entryEnds (s : State) (c : Nat) (sl : SlotDecl) (r : StepRun) (p : Posted) : State :=
  if p.ended then s
  else match s.progEntry c sl p.entry with
    | .error _ => s
    | .ok e => match peKind e with
      | 1 => s.entryStatus c 1 (s.statusAt c (p.addr + 0x2D))
      | 2 => s.attnStatuses c (peInst e) r
      | 3 => s.entryStatus c 3 (s.statusAt c (p.addr + 9))
      | 4 => s.entryStatus c 4 (s.statusAt c (p.addr + 9))
      | 5 => s.entryStatus c 5 (s.statusAt c (p.addr + 3))
      | _ => s

/-! ### Layer schedules (R319, R320) -/

/-- The schedule entry of a layer, by number. -/
def Schedule.entryOf (x : Schedule) (layer : Nat) : Option Nat := x.entries.findIdx? fun e => e.layer = layer

/-- R319: whether the first entry of a layer may be posted: its transfer has ended, or it has none. -/
def State.layerOpen (sl : SlotDecl) (r : StepRun) (layer : Nat) : Bool :=
  match sl.sched.entryOf layer with
  | none => true
  | some j => layer ∈ r.started || nth Xfer.ended r.xfers j = .ended

/-- R320: release the schedule entries of layers that have completed; an entry with DROP evicts its object. -/
def State.releaseHeld (s : State) (c : Nat) (sl : SlotDecl) (layer : Nat) : State :=
  match (s.seqc c).run, sl.sched.entryOf layer with
  | some r, some j =>
    if j ∈ r.held then
      match sl.sched.entries[j]? with
      | none => s
      | some x =>
        let s := s.modRun c fun r => { r with held := r.held.erase j }
        let s := s.setWord c x.objId fun w => { w with use := w.use - 1 }
        let w := (s.obj c x.objId).word
        if x.drop ∧ w.pins = 0 ∧ w.use = 0 ∧ w.state = .resident then s.evict c x.objId 0 else s
    else s
  | _, _ => s

/-- Whether a posted entry has completed: it has ended, or its list or descriptor is neither queued nor at work. -/
def State.entryDone (s : State) (c : Nat) (p : Posted) : Bool :=
  p.ended || (p.counts &&
    !((vget [] s.ponds c).any fun l => l.hdr = p.addr) && !((vget [] s.atnLists c).any fun l => l.hdr = p.addr) &&
    decide (p.addr ∉ vget [] s.shoalQ c) && !((vget [] s.bsn.queues c).any fun w => w.addr = p.addr) &&
    !(s.routers.toList.any fun x => match x with
      | .idle => false
      | .route r => r.cove = c && r.addr = p.addr
      | .recv r => r.cove = c && r.addr = p.addr) &&
    !(s.bsn.engines.toList.any fun x => x.any fun r => r.job.cove = c && decide (r.job.desc = some p.addr)))

/-- R319: layers that have started, whose every entry has been posted and has completed, and which have not been counted
as completed. -/
def State.layersDone (s : State) (c : Nat) (sl : SlotDecl) (r : StepRun) : List Nat :=
  let busy := (r.posted.filter fun p => !s.entryDone c p).filterMap fun p => s.layerOf c sl p.entry
  r.started.filter fun l => l ∉ r.completed ∧ l ∉ busy ∧
    !((List.range (sl.stepCount - r.next)).any fun i => s.layerOf c sl (r.next + i) = some l)

/-- R319, R320: layers that have completed release what they hold. -/
def State.layersEnd (s : State) (c : Nat) (sl : SlotDecl) : State :=
  match (s.seqc c).run with
  | none => s
  | some r =>
    let done := s.layersDone c sl r
    done.foldl (fun s l => s.releaseHeld c sl l) (s.modRun c fun r => { r with completed := r.completed ++ done })

/-! ### Posting and completion (R237) -/

/-- Post entries from the next on until the group ends: an entry that does not carry WITH_PREV, a full queue, a layer
whose transfer has not ended, or a page that is to be refetched (R601). -/
def State.postGroup (c : Nat) (d : CoveDecl) (sl : SlotDecl) : Nat → State → State
  | 0, s => s
  | fuel + 1, s =>
    match (s.seqc c).run with
    | none => s
    | some r =>
      let first := r.posted.isEmpty
      let layer := (s.layerOf c sl r.next).getD 0
      let begun (r : StepRun) : List Nat := if layer ∈ r.started then r.started else r.started ++ [layer]
      if sl.stepCount ≤ r.next then s
      else if (s.postPoison c sl r.next).isSome then s.modRun c fun r => { r with retry := true }
      else if !first ∧ !s.withPrev c sl r.next then s
      else
        if !State.layerOpen sl r layer then s
        else match s.postEntry c d sl r r.next with
          | .full => s.modRun c fun r => { r with retry := true }
          | .posted s p =>
            let isCopy := match s.progEntry c sl r.next with
              | .ok e => peKind e = 5
              | .error _ => false
            State.postGroup c d sl fuel (s.modRun c fun r =>
              { r with next := r.next + 1, retry := false, posted := r.posted ++ [p], started := begun r, copies := r.copies + b2n isCopy })
          | .ended s p st =>
            let s := s.modRun c fun r => { r with next := r.next + 1, retry := false, posted := r.posted ++ [p], started := begun r }
            State.postGroup c d sl fuel (s.entryStatus c 0 st)

/-- R236: whether a WAIT entry's counter has risen by INST_BYTES since the step started. -/
def State.waitMet (s : State) (c : Nat) (sl : SlotDecl) (r : StepRun) (p : Posted) : Bool :=
  match s.progEntry c sl p.entry with
  | .ok e => peKind e = 6 && decide (peBytes e ≤ (s.arr (peParam e % 65536) - SMap.get 0 r.waitBase (peParam e % 65536)).toNat)
  | .error _ => true

/-- Whether every entry of the present group has completed: those that count have applied their increments (R237). -/
def State.groupDone (s : State) (d : CoveDecl) (r : StepRun) : Bool :=
  decide ((r.posted.filter fun p => p.counts).length ≤ (s.arr d.stepCtr - r.ctrBase).toNat) && r.posted.all fun p => p.counts || p.ended

/-- The present group is posted whole. -/
def State.groupPosted (s : State) (c : Nat) (sl : SlotDecl) (r : StepRun) : Bool :=
  !r.posted.isEmpty && (decide (sl.stepCount ≤ r.next) || ((s.postPoison c sl r.next).isNone && !s.withPrev c sl r.next))

end Sys2Proof.Machine
end

