-- ==== Sys2Proof/Machine/Sequencer.lean ====
section
/-! DEFINITION. Sys2Proof/Machine/Sequencer.lean: the end of a step, step boundaries, requests, composition, the deadline
monitor, fallback, shadows and adoption (spec/06_serving_sequencer.md). -/
namespace Sys2Proof.Machine
open Sys2Proof

/-- Whether a stream has input left to compose: HIST_LEN − POS (R232). -/
def State.need (s : State) (e : Nat) : Nat := s.sHist e - s.sPos e

/-! ### Prediction (R243, R244) -/

/-- t_pred of R243 in ns. -/
def State.tPred (s : State) (c sl n : Nat) : Nat :=
  match s.slot c sl with
  | none => 0
  | some d => nth 256 (s.seqc c).kappa sl * (d.t0 + n * d.t1) / 256

/-- n_prev: rows of the slot's last step, or STEP_TOKENS before the first. -/
def State.nPrevOf (s : State) (c sl : Nat) : Nat :=
  let n := nth 0 (s.seqc c).nPrev sl
  if n = 0 then s.stepTokens c else n

/-- The deadline of a stream in ns (R243); none where its target is 0 (R245). -/
def State.deadline (s : State) (e : Nat) : Option Nat :=
  if s.need e = 1 ∧ 0 < s.sGen e then
    (if s.sget e 0x24 4 = 0 then none else some (s.sget e 0x60 8 * 10 + s.sget e 0x24 4 * 1000))
  else if s.sget e 0x20 4 = 0 then none
  else some (s.sget e 0x50 8 * 10 + s.sget e 0x20 4 * 1000)

/-- Slack of a stream (R243). -/
def State.slack (s : State) (e : Nat) : Int := (((s.deadline e).getD 0 : Nat) : Int) - ((s.now * 10 : Nat) : Int)

/-- The predicted token time of a stream served by a cove and slot, in ns (R243). -/
def State.predicted (s : State) (c sl e : Nat) : Nat :=
  let t := s.tPred c sl (s.nPrevOf c sl)
  if s.need e = 1 then s.now * 10 + t else s.now * 10 + (s.need e + s.chunkMax c - 1) / s.chunkMax c * t

/-! ### The end of a step (R239 to R242, R244) -/

/-- Whether a stream is in a state that the end of a step may change: PREFILL, DECODE or FALLBACK (Table 06.5). -/
def State.sRuns (s : State) (e : Nat) : Bool := decide (s.sState e ∈ [some StreamState.prefill, some .decode, some .fallback])

/-- R223: a turn ends: DONE, or PAUSED under HOLD. -/
def State.turnEnds (s : State) (e : Nat) : State :=
  if s.sHold e then
    ((s.setSState e .paused).sset e 0x68 8 (s.now + s.sget e 0x28 4 * 100000)).setSx e fun x => { x with wantDemote := some (s.sget e 0x07 1 = 1), wantPromote := false }
  else s.setSState e .done

/-- R245: a token that comes later than its deadline is a miss of its kind. -/
def State.countMiss (s : State) (e : Nat) : State :=
  match s.deadline e with
  | some d => if d < s.now * 10 then s.bump (seqOff (s.sServeCove e) (if s.sGen e = 0 then 0x70 else 0x78)) 1 else s
  | none => s

/-- R239 items 1 to 3: POS, HIST_LEN, GENERATED, T_LAST and T_FIRST once a token has been written. -/
def State.emitFields (s : State) (e rows : Nat) : State :=
  let first := s.sGen e
  let s := (s.sset e 0x30 4 (s.sPos e + rows)).sset e 0x34 4 (s.sHist e + 1)
  let s := ((s.sset e 0x38 4 (first + 1)).sset e 0x60 8 s.now).sset e 0x75 1 0
  let s := if first = 0 then s.sset e 0x58 8 s.now else s
  if s.sState e = some .prefill then s.setSState e .decode else s

/-- R223: whether an emitted token ends the turn. -/
def State.turnOver (s : State) (e tok : Nat) : Bool :=
  (decide (tok = s.sget e 0x1C 4) && decide (tok ≠ 0xFFFFFFFF)) || decide (s.sGen e = s.sget e 0x0C 4)

/-- R239: emit a token for a stream: history, fields, misses, and R223. -/
def State.emitToken (s : State) (e tok rows : Nat) : State :=
  let c := s.sServeCove e
  let w := s.seqWrite c (s.sget e 0x10 8 + 4 * s.sHist e) (leBytes 4 tok)
  match w.2 with
  | some st => (if w.1.sRuns e then w.1.packageCancel e st.code else w.1).noteStatus c st
  | none =>
    let s := (w.1.countMiss e).emitFields e rows
    if s.turnOver e tok ∧ s.sRuns e then s.turnEnds e else s

/-- R242: a rebuild: poisoned pages go to quarantine, and the history is prefilled again. -/
def State.rebuildStream (s : State) (e : Nat) : State :=
  let c := s.sServeCove e
  let bad := (s.sx e).pages.filter fun k => k.pool = .hbm && s.pageBad (s.kvDpa k)
  let s := s.unmapPages bad
  let s := s.setSx e fun x => { x with pages := x.pages.filter fun k => k ∉ bad, houseTo := s.sHist e, shadowFrom := [] }
  let s := bad.foldl (fun s k => s.modSeq k.cove fun x => { x with quar := x.quar ++ [k.page] }) s
  let s := (s.sset e 0x3C 4 (s.sget e 0x3C 4 - bad.length)).sset e 0x30 4 0
  let s := if s.sState e = some .fallback then s else s.setSState e .prefill
  s.bump (seqOff c 0x88) 1

/-- R240: a suppressed step; the third in a row cancels the stream (R241). -/
def State.suppressStream (s : State) (e : Nat) : State :=
  let n := Nat.min 255 (s.sget e 0x75 1 + 1)
  let s := s.sset e 0x75 1 n
  if 3 ≤ n ∧ s.sRuns e then s.packageCancel e Status.timeout.code else s

/-- R242, R252: once POS has passed the rows that the house pays for, the stream pays again. -/
def State.houseEnds (s : State) (e : Nat) : State :=
  if (s.sx e).houseTo ≤ s.sPos e then s.setSx e fun x => { x with houseTo := 0 } else s

/-- Table 06.9, R239 to R242: what the end of a step does to the stream of one part of its batch. A stream that has left
the cove since (R672) keeps its fields; one that was paused or cancelled since keeps its state. -/
def State.partEnds (s : State) (c : Nat) (b : BatchPart) : State :=
  let e := b.ent
  if s.sState e = some .free ∨ s.sServeCove e ≠ c ∨ (s.sx e).nodeLost then s
  else match b.effect with
    | .ended => s
    | .cancel st => if s.sRuns e then s.packageCancel e st else s
    | .rebuild => if !s.sRuns e then s else if s.sShadow e then s.suppressStream e else s.rebuildStream e
    | .suppress => s.suppressStream e
    | .none =>
      let s := if s.sShadow e then s.setSx e fun x => { x with shadowDue := true } else s
      let last := decide (b.pos + b.rows = s.sHist e)
      match last && decide (s.sGen e < s.sget e 0x0C 4), b.token with
      | true, some t => (s.emitToken e t b.rows).houseEnds e
      | _, _ =>
        let s := ((s.sset e 0x30 4 (s.sPos e + b.rows)).sset e 0x75 1 0).houseEnds e
        if last ∧ s.sget e 0x0C 4 = 0 ∧ s.sRuns e then s.turnEnds e else s

/-- R244: κ after a step of `n` rows that took `t` ns. -/
def kappaNext (d : SlotDecl) (k n t : Nat) : Nat :=
  let q : Int := ((t * 256 / (d.t0 + n * d.t1) : Nat) : Int)
  (clampInt 128 1024 ((k : Int) + (q - (k : Int)) / 8)).toNat

/-- R247: the prefill rates of the slots whose fallback is this slot, after a step with prefill rows. -/
def State.fbRates (s : State) (c sl pf t : Nat) : State :=
  if pf = 0 ∨ t = 0 then s
  else (List.range 64).foldl (fun s k =>
    match s.slot (k / 8) (k % 8) with
    | none => s
    | some d =>
      if d.fallback ∧ d.fbCove = c ∧ d.fbSlot = sl then
        s.modSeq (k / 8) fun x =>
          let r := if nth 0 x.rFb (k % 8) = 0 then d.fbRate * 1000 else nth 0 x.rFb (k % 8)
          let new := ((r : Int) + (((1000000000 * pf / t : Nat) : Int) - (r : Int)) / 8).toNat
          { x with rFb := modNth x.rFb (k % 8) fun _ => new }
      else s) s

/-- The end of a step (R229, R239): every entry has completed. -/
def State.stepEnds (s : State) (c : Nat) : State :=
  match (s.seqc c).run with
  | none => s
  | some r =>
    match s.slot c r.slot with
    | none => s.modRun c fun r => { r with ended := true }
    | some d =>
      let t := (s.now - r.start) * 10
      let dec := (r.parts.filter fun b => s.sHist b.ent - b.pos = 1).map fun b => b.rows
      let pf := ((r.parts.map fun b => b.rows).sum) - dec.sum
      let s := r.parts.foldl (fun s b =>
        let s := if d.group then s.setSx b.ent fun x => { x with gsteps := some ((x.gsteps.map Prod.fst).getD r.groupStep, r.groupStep) } else s
        (s.setSx b.ent fun x => { x with lastServe := c }).partEnds c b) s
      let s := (((s.bump (seqOff c 0x40) 1).bump (seqOff c 0x48) dec.sum).bump (seqOff c 0x50) pf).bump (seqOff c 0x90) (b2n r.pad)
      let s := s.modSeq c fun x =>
        { x with kappa := modNth x.kappa r.slot fun k => kappaNext d k r.rows t, nPrev := modNth x.nPrev r.slot fun _ => r.rows,
                 lastNs := t, lastRows := r.rows, lastUse := modNth x.lastUse r.slot fun _ => s.now, run := x.run.map fun r => { r with ended := true } }
      s.fbRates c r.slot pf t

/-- R237: an entry has completed. Layers whose last entry it was complete; once the present group has completed, its
statuses take effect, and the next group or the end of the step follows. -/
def State.stepAdvance (s : State) (c : Nat) : State :=
  match (s.seqc c).run, s.cove c with
  | some r, some d =>
    if r.ended then s
    else match s.slot c r.slot with
      | none => s
      | some sl =>
        if s.groupPosted c sl r ∧ s.groupDone d r then
          let s := r.posted.foldl (fun s p => s.entryEnds c sl r p) s
          let s := (s.modRun c fun r => { r with posted := [], ctrBase := s.arr d.stepCtr }).layersEnd c sl
          if sl.stepCount ≤ r.next then s.stepEnds c else State.postGroup c d sl 4096 s
        else s.layersEnd c sl
  | _, _ => s

/-- STEP_ENTRY_COMPLETE (R237): an entry of a cove's step program has completed. -/
def execStepEntryComplete (c : Cove) (s : State) : Host.Outcome State Fault Refusal := .next (s.unlessHalted fun s => s.stepAdvance c.val)

/-- STEP_WAIT_MET (R236): the WAIT entries of a cove whose counters have risen complete. -/
def State.stepWaitMet (s : State) (c : Nat) : State :=
  match (s.seqc c).run with
  | none => s
  | some r =>
    match s.slot c r.slot with
    | none => s
    | some sl => (s.modRun c fun r => { r with posted := r.posted.map fun p => if s.waitMet c sl r p then { p with ended := true } else p }).stepAdvance c

/-- STEP_WAIT_MET (R236). -/
def execStepWaitMet (c : Cove) (s : State) : Host.Outcome State Fault Refusal := .next (s.unlessHalted fun s => s.stepWaitMet c.val)

/-- R239: whether EMIT takes a token for a part: its last row lies at HIST_LEN − 1 and its turn requires one. -/
def State.wantsToken (s : State) (b : BatchPart) : Bool :=
  decide (b.pos + b.rows = s.sHist b.ent) && decide (s.sGen b.ent < s.sget b.ent 0x0C 4)

/-- R239, R601: the posted EMIT of a step that has not run, and the page of an object that its tokens wait for. -/
def State.emitPending (s : State) (c : Nat) (sl : SlotDecl) (r : StepRun) : Option Posted :=
  r.posted.find? fun p => !p.ended && !p.counts && (match s.progEntry c sl p.entry with
    | .ok e => peKind e = 7
    | .error _ => false)
def State.emitPoison (s : State) (c : Nat) (r : StepRun) (p : Posted) : Option Nat :=
  (r.parts.filter s.wantsToken).findSome? fun b => s.poisonPage c (p.addr + 4 * (b.row + b.rows - 1)) 4

/-- R239: EMIT takes TOKEN_OUT of the last row of every part that wants a token. -/
def State.emitStep (s : State) (c : Nat) : State :=
  match (s.seqc c).run with
  | none => s
  | some r =>
    match s.slot c r.slot with
    | none => s
    | some sl =>
      match s.emitPending c sl r with
      | none => s
      | some p =>
        if (s.emitPoison c r p).isSome then s
        else
        let took : List (BatchPart × Except AccErr (List Byte)) := r.parts.map fun b =>
          (b, if s.wantsToken b then s.seqRead c (p.addr + 4 * (b.row + b.rows - 1)) 4 else .ok [])
        let s := took.foldl (fun s x => match x.2 with
          | .ok _ => s
          | .error e => (s.accErr c unitSeq 0 (p.addr + 4 * (x.1.row + x.1.rows - 1)) e).entryStatus c 7 e.status) s
        let s := s.modRun c fun r => { r with
          posted := r.posted.map fun q => if q.entry = p.entry then { q with ended := true } else q,
          parts := r.parts.zipIdx.map fun x => match took[x.2]? with
            | some (_, Except.ok b) => if s.wantsToken x.1 then ({ x.1 with token := some (leNat b) } : BatchPart) else x.1
            | _ => x.1 }
        s.stepAdvance c

/-- EMIT (R239). -/
def execEmit (c : Cove) (s : State) : Host.Outcome State Fault Refusal := .next (s.unlessHalted fun s => s.emitStep c.val)

/-- STEP_POST_RETRY (R237): at the start of a budget period a posting that found its queue full is retried. -/
def execStepPostRetry (c : Cove) (s : State) : Host.Outcome State Fault Refusal :=
  .next (s.unlessHalted fun s =>
    match (s.seqc c.val).run, s.cove c.val with
    | some r, some d =>
      if r.retry ∧ s.now % 800 = 0 then
        match s.slot c.val r.slot with
        | some sl => State.postGroup c.val d sl 4096 s
        | none => s
      else s
    | _, _ => s)

/-! ### Layer transfers (R319 to R321) -/

/-- R319: whether the transfer of schedule entry `j` may start. -/
def xferEligible (sl : SlotDecl) (r : StepRun) (j : Nat) : Bool :=
  let layer (i : Nat) : Option Nat := (sl.sched.entries[i]?).map fun e => e.layer
  let lead := decide (j < sl.sched.lead) || (match layer (j - sl.sched.lead) with
    | some l => decide (l ∈ r.started)
    | none => false)
  let buffer := sl.sched.mode ≠ 1 || decide (j < sl.sched.nbuf) || (match layer (j - sl.sched.nbuf) with
    | some l => decide (l ∈ r.completed)
    | none => true)
  lead && buffer

/-- A transfer has ended; posting goes on. -/
def State.xferEnds (s : State) (c j : Nat) (sl : SlotDecl) (d : CoveDecl) (hold : Option Nat) : State :=
  let s := match hold with
    | some i => (s.setWord c i fun w => { w with use := (w.use + 1) % 256 }).modRun c fun r => { r with held := r.held ++ [j] }
    | none => s
  State.postGroup c d sl 4096 (s.modRun c fun r => { r with xfers := modNth r.xfers j fun _ => .ended })

/-- R319, R320: start the transfer that is next: the lowest waiting one, when it is eligible and none runs. -/
def State.xferStart (s : State) (c : Nat) : State :=
  match (s.seqc c).run, s.cove c with
  | some r, some d =>
    match s.slot c r.slot with
    | none => s
    | some sl =>
      if r.ended ∨ r.xfers.any (· = Xfer.running) then s
      else match r.xfers.findIdx? (· = Xfer.waiting) with
        | none => s
        | some j =>
          match sl.sched.entries[j]? with
          | none => s
          | some x =>
            if !xferEligible sl r j then s
            else
              let run (s : State) : State := s.modRun c fun r => { r with xfers := modNth r.xfers j fun _ => .running }
              if sl.sched.mode = 1 then run s
              else match (s.obj c x.objId).word.state with
                | .resident => s.xferEnds c j sl d (some x.objId)
                | .slow => run (s.promote c x.objId (some sl.sched.activity))
                | .evicting => run (s.promoteAfter c x.objId (some sl.sched.activity))
                | .promoting => run s
                | .loading => s.xferEnds c j sl d (some x.objId)
                | .absent => s.xferEnds c j sl d (some x.objId)
                | .lost => s.xferEnds c j sl d (some x.objId)
                | .free => s.xferEnds c j sl d none
  | _, _ => s

/-- LAYER_TRANSFER_START (R319). -/
def execLayerTransferStart (c : Cove) (s : State) : Host.Outcome State Fault Refusal := .next (s.unlessHalted fun s => s.xferStart c.val)

/-- R298, R320, R670: copy the bytes of a COPY transfer, granule by granule; the error met. What lies at other nodes is
read and written by transactions; a poisoned granule is not written to host memory. -/
def State.xferCopy (s : State) (act c src dst : Nat) : Nat → Nat → State × Option AccErr
  | 0, _ => (s, none)
  | n + 1, i =>
    let from_ := src + 64 * i
    let to_ := dst + 64 * i
    match s.translate c from_ 64 .read, s.translate c to_ 64 .write with
    | .error e, _ => (s.accErr c unitSpw act from_ e, some e)
    | _, .error e => (s.accErr c unitSpw act to_ e, some e)
    | .ok (.dpa a), .ok (.dpa b) =>
      if (s.region b = .host) && (s.region a).tagged && s.granuleBad (a / 64) then (s.accErr c unitSpw act from_ (.poisoned a), some (.poisoned a))
      else State.xferCopy (s.copyGranule act c a c b) act c src dst n (i + 1)
    | .ok _, .ok _ =>
      match s.peek c from_ 64 with
      | .error e => (s.accErr c unitSpw act from_ e, some e)
      | .ok b => match (s.touch c unitSpw act from_ 64).poke c unitSpw act to_ b with
        | (s, some e) => (s, some e)
        | (s, none) => State.xferCopy s act c src dst n (i + 1)

/-- R601, R670: the page of an object that the running COPY transfer of a cove, to host memory, waits for. -/
def State.xferPoison (s : State) (c : Nat) : Option Nat :=
  match (s.seqc c).run with
  | none => none
  | some r => match s.slot c r.slot, r.xfers.findIdx? (· = Xfer.running) with
    | some sl, some j => match sl.sched.entries[j]? with
      | none => none
      | some x =>
        let toHost := match s.translate c x.dstVa 1 .write with
          | .ok (.dpa a) => decide (hostDpa ≤ a)
          | _ => false
        if sl.sched.mode = 1 && toHost then s.poisonPage c x.srcVa x.bytes else none
    | _, _ => none

/-- R321: a transfer that ends with OBJECT_LOST ends the step's remaining entries unrun, each with OBJECT_LOST. -/
def State.xferLost (s : State) (c j : Nat) (sl : SlotDecl) : State :=
  let s := (s.entryStatus c 0 .objectLost).modRun c fun r => { r with next := sl.stepCount, xfers := modNth r.xfers j fun _ => .ended }
  match (s.seqc c).run with
  | some r => if r.posted.isEmpty then s.stepEnds c else s
  | none => s

/-- R319, R320: the running transfer of a cove ends. -/
def State.xferDone (s : State) (c : Nat) (readOk : Bool) : State :=
  match (s.seqc c).run, s.cove c with
  | some r, some d =>
    match s.slot c r.slot, r.xfers.findIdx? (· = Xfer.running) with
    | some sl, some j =>
      match sl.sched.entries[j]? with
      | none => s
      | some x =>
        if sl.sched.mode = 1 then
          let fromHost := match s.translate c x.srcVa 1 .read with
            | .ok (.dpa a) => decide (hostDpa ≤ a)
            | _ => false
          if fromHost && !readOk then s.xferLost c j sl
          else if (s.xferPoison c).isSome then s
          else match (s.charge 4 (b2n fromHost) sl.sched.activity x.bytes).xferCopy sl.sched.activity c x.srcVa x.dstVa (x.bytes / 64) 0 with
            | (s, some .objLost) => s.xferLost c j sl
            | (s, _) => (s.bump (spwOff c 0x50) (x.bytes / 65536)).xferEnds c j sl d none
        else
          let w := (s.obj c x.objId).word
          if w.state = .promoting ∨ w.state = .evicting then s
          else
            let s := if w.state = .slow ∧ w.lastStatus = Status.noResource.code then s.bump (spwOff c 0x60) 1 else s
            s.xferEnds c j sl d (if w.state = .free then none else some x.objId)
    | _, _ => s
  | _, _ => s

/-- LAYER_TRANSFER_DONE (R320): `readOk` says that the reads from host memory have come back sound. -/
def execLayerTransferDone (c : Cove) (readOk : Bool) (s : State) : Host.Outcome State Fault Refusal :=
  .next (s.unlessHalted fun s => s.xferDone c.val readOk)

end Sys2Proof.Machine
end

