-- ==== Sys2Proof/Machine/Boundary.lean ====
section
/-! DEFINITION. Sys2Proof/Machine/Boundary.lean: step boundaries: attribution, retirement, requests, adoption, the
deadline monitor, fallback switches, composition and the start of a step (spec/01_package_overview.md R32,
spec/06_serving_sequencer.md). -/
namespace Sys2Proof.Machine
open Sys2Proof

/-! ### Item 1: attribution -/

/-- Rows of one part that the house and the stream are charged for (R242, R252). -/
def State.partShares (s : State) (c : Nat) (m : SMap Nat) (b : BatchPart) : SMap Nat :=
  SMap.upd 0 (SMap.upd 0 m houseKey (· + b.house)) (s.streamKey c b.ent) (· + (b.rows - b.house))

/-- R32 item 1: close the attribution of the step just ended, or of the idle interval (R461, R464). -/
def State.closeBoundary (s : State) (c : Nat) : State :=
  match (s.seqc c).run with
  | none => s.closeIdle c
  | some r =>
    let rows := r.parts.foldl (s.partShares c) (if r.pad then [(houseKey, 1)] else [])
    let grouped := (s.slot c r.slot).any fun d => d.group
    let s := s.closeStep c (if grouped then r.groupStep else 0xFFFFFFFF) r.start rows (rows.map fun x => (x.1, x.2 * r.copies))
    let s := { s with rip := { s.rip with stepTimes := SMap.upd [] s.rip.stepTimes c fun l => l ++ [(s.seqc c).lastNs / 1000] } }
    s.modSeq c fun x => { x with run := none }

/-! ### Items 2 and 3: retirement and the free lists -/

/-- Whether a stream has rows in a step that runs. -/
def State.inStep (s : State) (e : Nat) : Bool := s.seq.toList.any fun x => x.run.any fun r => r.parts.any fun b => b.ent = e

/-- Table 06.5: the final status with which a stream is due to retire (R33). -/
def State.retireDue (s : State) (e : Nat) : Option Status :=
  if (s.sx e).nodeLost then some .nodeLost
  else match s.sState e with
    | some .done => some .done
    | some .cancelling => some .cancelled
    | some .paused => if s.sget e 0x68 8 ≤ s.now then some .ttlExpired else none
    | _ => none

/-- R614, R615: a stream that a loss ended or adopted has retired. -/
def State.lossRetire (s : State) (e : Nat) (st : Status) : State :=
  let adopted := (s.sx e).adopted
  { s with flt := { s.flt with openLoss := s.flt.openLoss.map fun r =>
      if e ∈ r.waitStreams then
        ({ r with waitStreams := r.waitStreams.filter (· ≠ e), streamsEnded := r.streamsEnded + b2n (decide (st = .nodeLost) && !adopted) } : LossRec)
      else r } }

/-- R224: a retirement. -/
def State.retireOne (s : State) (c e : Nat) (st : Status) : State :=
  let s := (s.sset e 0x68 8 s.now).sset e 0x03 1 st.code
  let s := (s.emitRecord (s.streamRecord c e st.code)).setSState e .free
  let s := if st = .nodeLost then s.faultLog 0x0A unitSeq .nodeLost c e 0 else s
  s.lossRetire e st

/-- Live entries of a cove's range, in ascending index. -/
def State.coveEntries (s : State) (c : Nat) : List Nat := s.liveEntries.filter fun e => s.homeCove e = some c

/-- R32 item 2: retire what is due among entries of a cove, where the ring has room; a retirement that waits is counted
once (R472). -/
def State.retireList (s : State) (c : Nat) (es : List Nat) : State × List Nat :=
  es.foldl (fun (x : State × List Nat) e =>
    match x.1.retireDue e with
    | none => x
    | some st =>
      if x.1.inStep e then x
      else if x.1.gau.waiting.isEmpty && x.1.ringRoom then (x.1.retireOne c e st, x.2 ++ [e])
      else if (x.1.sx e).deferred then x
      else ((x.1.setSx e fun y => { y with deferred := true }).gauCount 0xB0 1, x.2)) (s, [])

/-- R32 item 2 for a cove. -/
def State.retireAll (s : State) (c : Nat) : State × List Nat := s.retireList c (s.coveEntries c)

/-- R32 item 3: what retired streams owned returns; so do pages that leave quarantine (R268) and those that a switch or
a RESUME left behind (R248, R672). -/
def State.freeItems (s : State) (c : Nat) (gone : List Nat) : State :=
  let s := gone.foldl (fun s e => (s.dropKv e).setSx e fun _ => {}) s
  let s := s.quarRelease c
  let left := (s.strm.filter fun x => (s.homeCove x.1 = some c) && x.2.importing.isNone && (!x.2.oldRange.isEmpty || !x.2.oldPages.isEmpty)).map Prod.fst
  let s := left.foldl (fun s e => s.dropOld e) s
  { s with strm := SMap.mapAll {} (fun e (x : StreamX) => if s.sServeCove e = c then { x with moveWait := false } else x) s.strm }

/-! ### Item 4: requests and adoption -/

/-- The deep tier is present (ID.UNITS_PRESENT.DEEP_MEM). -/
def State.deepPresent (s : State) : Bool := decide (s.hbm.deepGiB ≠ 0)

/-- The checks of Table 06.4 on PAUSE_TIER. -/
def State.tierCheck (s : State) (e : Nat) : Option Status :=
  let t := s.sget e 0x07 1
  if t = 1 then (if s.deepPresent then none else some .absentUnit) else if t = 2 then none else some .range

/-- R665: a reserved bit of CLASS or SLOT is set. -/
def State.reservedSet (s : State) (e : Nat) : Bool := decide (32 ≤ s.sget e 0x04 1) || decide (8 ≤ s.sget e 0x05 1)

/-- The checks that START and RESUME share, from LC targets on (Table 06.4). -/
def State.classCheck (s : State) (e : Nat) : Option Status :=
  if s.sClass e = 0 ∧ (s.sget e 0x20 4 = 0 ∨ s.sget e 0x24 4 = 0) then some .range else none

/-- The further checks that START and RESUME share. -/
def State.flagCheck (s : State) (c e : Nat) : Option Status :=
  let sl := s.sget e 0x05 1 % 8
  if s.sFallbackOk e ∧ !((s.slot c sl).any fun d => d.fallback) then some .range
  else if s.sShadow e ∧ !((s.cove c).any fun d => d.shadowEn) then some .range
  else if s.sHold e then s.tierCheck e else none

/-- Table 06.4: the first check that START fails. -/
def State.startCheck (s : State) (c e : Nat) : Option Status :=
  let cap := s.sget e 0x18 4
  if s.sget e 0x08 4 = 0 ∨ s.reservedSet e ∨ s.sClass e = 3 ∨ (s.slot c (s.sget e 0x05 1 % 8)).isNone then some .range
  else match s.classCheck e with
    | some st => some st
    | none =>
      if 4194304 < cap ∨ cap < s.sget e 0x08 4 + s.sget e 0x0C 4 then some .range
      else match s.flagCheck c e with
        | some st => some st
        | none => if (s.freeRange c).isNone then some .noResource else none

/-- Table 06.4: the first check that RESUME fails. -/
def State.resumeCheck (s : State) (c e : Nat) : Option Status :=
  if s.sget e 0x18 4 < s.sHist e + s.sget e 0x08 4 + s.sget e 0x0C 4 ∨ s.reservedSet e ∨ s.sClass e = 3 then some .range
  else match s.classCheck e with
    | some st => some st
    | none => match s.flagCheck c e with
      | some st => some st
      | none => if s.sServeCove e ≠ c ∧ (s.freeRange c).isNone then some .noResource else none

/-- Table 06.4: the effect of START. -/
def State.startStream (s : State) (c e : Nat) : State :=
  let s := s.setSx e fun _ => { calMark := s.gau.calStale || s.calClamp, lastServe := c }
  let s := s.giveRange e c ((s.freeRange c).getD 0)
  let s := s.sset e 0x34 4 (s.sget e 0x08 4)
  let s := [(0x30, 4), (0x38, 4), (0x3C, 4), (0x48, 8), (0x74, 1), (0x75, 1), (0x76, 1), (0x03, 1), (0x70, 4)].foldl
    (fun s (x : Nat × Nat) => s.sset e x.1 x.2 0) s
  ((s.sset e 0x06 1 (c + 16 * (s.sget e 0x05 1 % 8))).sset e 0x50 8 s.now).setSState e .queued

/-- Table 06.4, R672: the effect of RESUME. -/
def State.resumeStream (s : State) (c e : Nat) : State :=
  let s := s.sset e 0x34 4 (s.sHist e + s.sget e 0x08 4)
  let s := ((s.sset e 0x38 4 0).sset e 0x74 1 0).sset e 0x75 1 0
  let s := (s.sset e 0x50 8 s.now).setSState e .queued
  if s.sServeCove e = c then
    s.setSx e fun x =>
      let slow := x.pages.any fun k => k.pool ≠ .hbm
      if x.move.isSome then { x with wantDemote := none, wantPromote := true }
      else { x with wantDemote := none, wantPromote := false, move := if slow then some .promote else none, movePos := 0, moveWait := false }
  else
    let k := (s.freeRange c).getD 0
    let s := s.setSx e fun x => { x with oldRange := x.oldRange ++ x.range.toList, oldPages := x.oldPages ++ x.pages, pages := [], range := none,
                                         move := none, wantDemote := none, wantPromote := false, importing := none, houseTo := 0, shadowAt := 0 }
    ((s.giveRange e c k).sset e 0x06 1 (c + 16 * (s.sget e 0x05 1 % 8))).sset e 0x30 4 0

/-- Table 06.4: the effect of PAUSE. -/
def State.pauseStream (s : State) (e : Nat) : State :=
  ((s.setSState e .paused).sset e 0x68 8 (s.now + s.sget e 0x28 4 * 100000)).setSx e fun x =>
    { x with wantDemote := some (s.sget e 0x07 1 = 1), wantPromote := false }

/-- Table 06.4: act on REQ of an entry; REQ_STATUS. A stream whose retirement was due at item 2 and waits is no longer
one that takes requests (Table 06.10, R472). -/
def State.request (s : State) (c e : Nat) : State × Status :=
  let due := (s.retireDue e).isSome
  let st := s.sState e
  let alive := !due && decide (st ∈ [some StreamState.queued, some .prefill, some .decode, some .fallback, some .paused])
  match s.sget e 0x01 1 with
  | 0 => (s, .done)
  | 1 =>
    if st ≠ some .free then (s, .busy)
    else match s.startCheck c e with
      | some x => (s, x)
      | none => (s.startStream c e, .done)
  | 2 => if alive then (s.setSState e .cancelling, .done) else (s, .busy)
  | 3 =>
    if !alive then (s, .busy)
    else match s.tierCheck e with
      | some x => (s, x)
      | none => (s.pauseStream e, .done)
  | 4 =>
    if due ∨ st ≠ some .paused then (s, .busy)
    else match s.resumeCheck c e with
      | some x => (s, x)
      | none => (s.resumeStream c e, .done)
  | _ => (s, .range)

/-- R221: take the request of one entry. -/
def State.takeEntry (s : State) (c e : Nat) : State :=
  let (s, st) := s.request c e
  let s := ((s.sset e 0x02 1 st.code).sset e 0x01 1 0).sset e 0x77 1 (s.sget e 0x77 1 + 1)
  { s with ready := SMap.put false s.ready e false }

/-- R217: set bits that lie in no cove's range. -/
def State.strayBits (s : State) : State :=
  let stray := (s.ready.filter fun x => x.2 && (s.homeCove x.1).isNone).map Prod.fst
  stray.foldl (fun s e => { s with ready := SMap.put false s.ready e false }.bump blkSEQ 1) s

/-- R217, R221: the scan of the ready bitmap. -/
def State.scanReady (s : State) (c : Nat) : State :=
  let s := s.strayBits
  let set := (s.ready.filter fun x => x.2 && s.homeCove x.1 = some c).map Prod.fst
  set.foldl (fun s e => s.takeEntry c e) s

/-- R226, R252: the pages that an adopted stream takes at item 5 begin as copies of its shadow pages. -/
def State.adoptPages (s : State) (c e : Nat) : State :=
  let base := s.sget e 0x40 8
  let ps := (s.sx e).shadowFrom
  if ps.isEmpty then s
  else ((s.sx e).pages.foldl (fun s k => match ps.find? fun p => base + p.1 = k.va with
    | some p => s.copyPage 0 c p.2 c (s.kvDpa k)
    | none => s) s).setSx e fun x => { x with shadowFrom := [] }

/-- R252: adopt one shadowed stream into an entry and a range of the cove. -/
def State.adoptInto (s : State) (c : Nat) (node : Nat) (x : ShadowStream) (e range : Nat) : State :=
  let pos := entField x.bits 0x70 4
  let s := { s with streams := SMap.put 0 s.streams e x.bits }
  let s := s.setSx e fun _ => { adopted := true, houseTo := entField x.bits 0x34 4, lastServe := c, calMark := s.gau.calStale || s.calClamp,
                                shadowFrom := x.pages }
  let s := [(0x01, 1), (0x03, 1), (0x3C, 4), (0x48, 8), (0x70, 4), (0x74, 1), (0x75, 1), (0x76, 1)].foldl
    (fun s (y : Nat × Nat) => s.sset e y.1 y.2 0) s
  let s := ((s.sset e 0x30 4 pos).sset e 0x06 1 (c + 16 * (s.sget e 0x05 1 % 8))).setSState e .queued
  let s := s.giveRange e c range
  let s := ((s.bump (seqOff c 0x98) 1).seqEvent c).faultLog 0x0A unitSeq .done c e (0x100000000 * node + x.source)
  s.modLossRec node fun r => { r with streamsAdopted := r.streamsAdopted + 1, waitStreams := r.waitStreams ++ [e] }

/-- R252, R615: one shadowed stream of a lost node: adopted, ended, or no longer alive. -/
def State.adoptOne (s : State) (c : Nat) (a : Adoption) (x : ShadowStream) : State :=
  let node := a.node.toNat
  let ended (s : State) : State :=
    (s.faultLog 0x0A unitSeq .nodeLost c x.source 0).modLossRec node fun r => { r with streamsEnded := r.streamsEnded + 1 }
  match streamStateOf (entField x.bits 0 1) with
  | some .paused => ended s
  | some st =>
    if st ∈ [StreamState.queued, .prefill, .decode, .fallback] then
      let free := (List.range a.count).find? fun i => (s.homeCove (a.first + i) = some c) && s.sState (a.first + i) = some .free
      match free, s.freeRange c with
      | some i, some k => s.adoptInto c node x (a.first + i) k
      | _, _ => ended s
    else s
  | none => s

/-- R252: the adoptions of a cove's first boundary after a loss. -/
def State.adoptAll (s : State) (c : Nat) (as : List Adoption) : State :=
  let due := (s.seqc c).adoptFrom
  let s := as.foldl (fun s a => if a.node.toNat ∈ due then a.streams.foldl (fun s x => s.adoptOne c a x) s else s) s
  s.modSeq c fun x => { x with adoptFrom := [] }

/-! ### Item 5, first and second part: demotions, shadow copies, monitor (R231) -/

/-- R233: the demotions that are due begin. -/
def State.startDemotions (s : State) (c : Nat) : State :=
  { s with strm := SMap.mapAll ({} : StreamX) (fun e (x : StreamX) =>
      if s.sServeCove e = c ∧ s.sState e = some .paused then
        (match x.wantDemote with
        | some deep => if x.importing.isNone && x.move.isNone then ({ x with wantDemote := none, move := some (.demote deep), movePos := 0 } : StreamX) else x
        | none => x) else x) s.strm }

/-- Ranges of a KV range, as offset and length, that hold the positions `a` to `b` − 1 of a layer (R308, R309). -/
def KvEntry.newBytes (k : KvEntry) (a b : Nat) : List (Nat × Nat) :=
  (List.range (b - a)).flatMap fun i =>
    let slot := if k.ring then (a + i) % k.slots else a + i
    [(k.layerOff + slot * k.kPitch, k.kPitch), (k.layerOff + k.vOff + slot * k.vPitch, k.vPitch)]

/-- Free pages of a cove's shadow pool (R251). -/
def State.shadowFree (s : State) (c : Nat) (n : Nat) : List Nat :=
  match s.cove c with
  | none => []
  | some d => lowestFree 0 d.shadowPages n (s.strm.flatMap fun x => if s.homeCove x.1 = some c then x.2.shadow.map Prod.fst else [])

/-- R251: pages of the shadow pool for the pages of a range that have none yet; none where the pool cannot give them. -/
def State.shadowTake (s : State) (c e : Nat) (offs : List Nat) : Option State :=
  let need := offs.filter fun o => !((s.sx e).shadow.any fun p => p.2 = o)
  let got := s.shadowFree c need.length
  if got.length < need.length then none
  else some ((s.sset e 0x3C 4 (s.sget e 0x3C 4 + need.length)).setSx e fun x => { x with shadow := x.shadow ++ got.zip need })

/-- R251: the STORE requests that carry a piece of a range to the shadow pool; an error of the read. -/
def State.shadowStores (s : State) (d : CoveDecl) (c e : Nat) (p : Nat × Nat) : Except AccErr (List TxReq) :=
  let (_, win, base) := basinParts d.shadowPool
  joinReqs ((cut4k p.1 0 p.2).map fun q =>
    let o := p.1 + q.1
    match s.peek (s.sServeCove e) (s.sget e 0x40 8 + o) q.2 with
    | .error er => .error er
    | .ok b =>
      let page := (((s.sx e).shadow.find? fun y => y.2 = o / 65536 * 65536).map Prod.fst).getD 0
      .ok [{ req := storeReq c d.shadowNode win (base + 65536 * page + o % 65536) false b none, owner := Owner.none }])
where
  /-- Join lists of requests. -/
  joinReqs : List (Except AccErr (List TxReq)) → Except AccErr (List TxReq)
    | [] => .ok []
    | .error e :: _ => .error e
    | .ok l :: r => match joinReqs r with
      | .ok m => .ok (l ++ m)
      | .error e => .error e

/-- R251: the shadow copy of one stream: its new positions' KV bytes, as the slot that serves it lays them out, and its
entry. -/
def State.shadowCopy (s : State) (c : Nat) (d : CoveDecl) (e : Nat) : State :=
  let note (s : State) : State := (s.emit (.shadow d.shadowNode e (SMap.get 0 s.streams e))).setSx e fun x => { x with shadowDue := false }
  if (s.node d.shadowNode).lost ∨ s.sState e = some .paused then s.setSx e fun x => { x with shadowDue := false }
  else match s.serving e with
    | none => s
    | some sl =>
      if s.sPos e ≤ (s.sx e).shadowAt then note s
      else match s.shadowTake c e (sl.pageOffs (s.sPos e)) with
        | none => s
        | some s =>
          let span := sl.kv.flatMap fun k => k.newBytes (s.sx e).shadowAt (s.sPos e)
          match State.shadowStores.joinReqs (span.map fun p => s.shadowStores d c e p) with
          | .error _ => s
          | .ok reqs => note ((s.issueAll reqs).setSx e fun x => { x with shadowPending := x.shadowPending ++ [s.sPos e], shadowAt := s.sPos e })

/-- R251: the shadow copies due from the step just ended. -/
def State.shadowCopies (s : State) (c : Nat) : State :=
  match s.cove c with
  | none => s
  | some d =>
    if !d.shadowEn then s
    else ((s.coveEntries c).filter fun e => (s.sx e).shadowDue).foldl (fun s e => s.shadowCopy c d e) s

/-- SHADOW_COPY_DONE (R251): the arrival-counter increments of the oldest of a stream's shadow copies have arrived. -/
def execShadowCopyDone (e : Fin 262144) (s : State) : Host.Outcome State Fault Refusal :=
  .next (s.unlessHalted fun s => match (s.sx e.val).shadowPending with
    | [] => s
    | p :: rest => (s.sset e.val 0x70 4 p).setSx e.val fun x => { x with shadowPending := rest })

/-- Streams that a cove serves, in ascending index. -/
def State.served (s : State) (c : Nat) : List Nat := s.liveEntries.filter fun e => s.sServeCove e = c

/-- R245: the monitor's judgement of one stream. -/
def State.judge (s : State) (c e : Nat) : State :=
  let run := s.sClass e = 0 ∧ (s.sState e = some .prefill ∨ s.sState e = some .decode ∨ (s.sState e = some .queued ∧ s.need e = 1))
  if !run then s
  else match s.deadline e with
    | none => s
    | some d =>
      if d < s.predicted c (s.sServeSlot e) e then (s.sset e 0x74 1 (Nat.min 255 (s.sget e 0x74 1 + 1))).bump (seqOff c 0x58) 1
      else s.sset e 0x74 1 0

/-- R245: the deadline monitor. -/
def State.monitor (s : State) (c : Nat) : State := (s.served c).foldl (fun s e => s.judge c e) s

/-! ### Item 5, third part: fallback switches (R246 to R248) -/

/-- R247: t_switch in ns. -/
def State.tSwitch (s : State) (c e : Nat) (d : SlotDecl) : Nat :=
  let r0 := nth 0 (s.seqc c).rFb (s.sServeSlot e)
  let r := if r0 = 0 then d.fbRate * 1000 else r0
  let bytes := if d.importKv then
      ((d.layerMap.filterMap fun m => d.kv.find? fun k => k.layer = m.1).map fun k => k.held (s.sPos e) * (k.kPitch + k.vPitch)).sum
    else 0
  let tokens := if d.importKv then s.need e else s.sHist e
  25000 + 1000 * bytes / d.fbCopy + 1000000000 * tokens / r

/-- R246: conditions 3 and 4. -/
def State.switchOk (s : State) (c e : Nat) (d fb : SlotDecl) : Bool :=
  (s.freeRange d.fbCove).isSome &&
    decide (fb.pagesFor (s.sHist e) + s.decodeReserve d.fbCove ≤ s.kvFree d.fbCove .hbm) &&
    decide (s.now * 10 + s.tSwitch c e d + s.tPred d.fbCove d.fbSlot (s.nPrevOf d.fbCove d.fbSlot + 1) < s.predicted c (s.sServeSlot e) e)

/-- R248: a switch. -/
def State.switch (s : State) (c e : Nat) (d : SlotDecl) : State :=
  let k := (s.freeRange d.fbCove).getD 0
  let pos := s.sPos e
  let s := ((s.setSState e .fallback).sset e 0x06 1 (d.fbCove + 16 * d.fbSlot)).sset e 0x74 1 0
  let s := s.bump (seqOff c 0x60) 1
  let s := if d.importKv then
      s.setSx e fun x => { x with oldRange := x.oldRange ++ x.range.toList, oldPages := x.oldPages ++ x.pages, pages := [], range := none }
    else
      let x := s.sx e
      ((s.unmapPages x.pages).sset e 0x3C 4 (s.sget e 0x3C 4 - x.pages.length)).setSx e fun x => { x with pages := [], range := none }
  let s := ((s.giveRange e d.fbCove k).setSx e fun x => { x with fbServed := true, unserved := 0, houseTo := 0, shadowAt := 0 }).sset e 0x30 4 0
  if d.importKv then
    match s.takePages e pos 0 with
    | some s => s.setSx e fun x => { x with importing := some pos }
    | none => s
  else s

/-- R246: the switches of a boundary, in ascending entry index. -/
def State.switches (s : State) (c : Nat) : State :=
  (s.served c).foldl (fun s e =>
    let wants := s.sClass e = 0 ∧ (s.sState e = some .prefill ∨ s.sState e = some .decode) ∧ s.missSteps c ≤ s.sget e 0x74 1 ∧ s.sFallbackOk e
    match s.serving e with
    | none => s
    | some d =>
      if !wants ∨ !d.fallback ∨ (s.sx e).nodeLost then s
      else match s.slot d.fbCove d.fbSlot with
        | none => s
        | some fb => if s.switchOk c e d fb then s.switch c e d else s.bump (seqOff c 0x68) 1) s

/-- R248: the copies of one mapped layer: K and V rows of the held positions, pitch by pitch. -/
def State.importLayer (s : State) (e : Nat) (from_ : Nat × Nat) (n : Nat) (kh kp : KvEntry) : State :=
  let to_ := (s.sServeCove e, s.sget e 0x40 8)
  let first := if kp.ring then n - Nat.min n kp.slots else 0
  let copy (s : State) (a b len : Nat) : State :=
    match s.peek from_.1 (from_.2 + a) len with
    | .ok bs => (s.poke to_.1 unitFerry 0 (to_.2 + b) bs).1
    | .error _ => s
  (List.range (n - first)).foldl (fun s i =>
    let p := first + i
    let sh := if kh.ring then p % kh.slots else p
    let sp := if kp.ring then p % kp.slots else p
    let s := copy s (kh.layerOff + sh * kh.kPitch) (kp.layerOff + sp * kp.kPitch) (Nat.min kh.kPitch kp.kPitch)
    copy s (kh.layerOff + kh.vOff + sh * kh.vPitch) (kp.layerOff + kp.vOff + sp * kp.vPitch) (Nat.min kh.vPitch kp.vPitch)) s

/-- R248 item 5: the Ferry copies of a switch have completed. -/
def State.importDone (s : State) (e : Nat) : State :=
  match (s.sx e).importing, (s.sx e).oldRange.getLast?, s.serving e with
  | some n, some (hc, hr), some fb =>
    match s.cove hc, s.slot hc (s.sget e 0x05 1 % 8) with
    | some d, some home =>
      let s := home.layerMap.foldl (fun s m =>
        match home.kv.find? fun k => k.layer = m.1, fb.kv.find? fun k => k.layer = m.2 with
        | some kh, some kp => s.importLayer e (hc, d.rangeBase hr) n kh kp
        | _, _ => s) s
      (s.sset e 0x30 4 n).setSx e fun x => { x with importing := none }
    | _, _ => s
  | _, _, _ => s

/-- FALLBACK_IMPORT_DONE (R248). -/
def execFallbackImportDone (e : Fin 262144) (s : State) : Host.Outcome State Fault Refusal := .next (s.unlessHalted fun s => s.importDone e.val)

/-! ### Item 5, fourth part: the slot and the batch (R230, R232, R234) -/

/-- Whether a stream can have rows in a step of a slot. -/
def State.composable (s : State) (c sl e : Nat) : Bool :=
  decide (s.sServeCove e = c) && decide (s.sServeSlot e = sl) && decide (0 < s.need e) && (s.sx e).inHbm && (s.sx e).importing.isNone &&
    !(s.sx e).nodeLost && decide (s.sState e ∈ [some StreamState.queued, some .prefill, some .decode, some .fallback])

/-- Streams that a step of a slot could compose, in ascending index. -/
def State.composables (s : State) (c sl : Nat) : List Nat := (s.served c).filter fun e => s.composable c sl e

/-- The slot of a cove that is a member of an expert group. -/
def State.groupSlot (s : State) (c : Nat) : Option Nat := (List.range 8).find? fun k => (s.slot c k).any fun d => d.group

/-- R230: the slot that is chosen among some: the member of an expert group, or that of the LC stream with the least slack,
or the first in turn that has a stream to compose. -/
def State.chooseFrom (s : State) (c : Nat) (able : List Nat) : Option Nat :=
  match s.groupSlot c with
  | some k => if k ∈ able then some k else none
  | none =>
    let lc := able.flatMap fun k => ((s.composables c k).filter fun e => s.sClass e = 0).map fun e => (s.slack e, e, k)
    match lc.insertionSort fun a b => a.1 < b.1 ∨ (a.1 = b.1 ∧ a.2.1 ≤ b.2.1) with
    | x :: _ => some x.2.2
    | [] => ((List.range 8).map fun i => ((s.seqc c).lastSlot + 1 + i) % 8).find? fun k => decide (k ∈ able) && !(s.composables c k).isEmpty

/-- Slots that a cove declares. -/
def State.declaredSlots (s : State) (c : Nat) : List Nat := (List.range 8).filter fun k => (s.slot c k).isSome

/-- R230: the slot of the next step: the choice among those that are ready. -/
def State.chooseSlot (s : State) (c : Nat) : Option Nat := s.chooseFrom c ((s.declaredSlots c).filter fun k => s.slotReady c k)

/-- R352: the slot that would be chosen, were it ready, has its weights promoted. -/
def State.askSlots (s : State) (c : Nat) : State :=
  match s.chooseFrom c (s.declaredSlots c) with
  | some k => if s.slotReady c k then s else s.wantSlot c k
  | none => s

/-- A batch as it is composed (R232). -/
structure Batching where
  s : State
  parts : List BatchPart := []
  seats : Nat
  budget : Nat
  row : Nat := 0
  /-- Streams that a page stall passed over; the tokens of the rows, from the row with which they begin. -/
  stalled : List Nat := []
  tokens : List (Nat × List Byte) := []

/-- Kind of candidates of a pass (R232). -/
inductive PassKind where | decode | prefill | aged
  deriving DecidableEq, Repr

/-- R227, R228: the pages a stream's next rows need; those of an adopted stream begin as copies of its shadow (R252). -/
def State.pagesFor (s : State) (c e n : Nat) : Option State :=
  (if s.sState e = some .queued ∧ 1 < s.need e then s.takePages e (s.sHist e) (s.decodeReserve c)
   else s.takePages e (s.sPos e + n) 0).map fun s => s.adoptPages c e

/-- R232: add rows of a stream, whose pages have been taken. A history that cannot be read ends the stream at the end of
the step (R220, R241); no tokens are then written for its rows. -/
def Batching.add (b : Batching) (s : State) (c e n : Nat) : Batching :=
  let pos := s.sPos e
  let va := s.sget e 0x10 8 + 4 * pos
  let got := s.seqRead c va (4 * n)
  let s := match got with
    | .error er => (s.accErr c unitSeq 0 va er).noteStatus c er.status
    | .ok _ => s
  let s := if s.sState e = some .queued then s.setSState e (if s.need e = 1 then .decode else .prefill) else s
  let effect : Effect := match got with
    | .error er => .cancel er.status.code
    | .ok _ => .none
  let tokens := match got with
    | .error _ => []
    | .ok t => [(b.row, t)]
  { b with s, parts := b.parts ++ [{ ent := e, row := b.row, rows := n, pos, house := Nat.min n ((s.sx e).houseTo - pos), effect }],
           seats := b.seats - 1, budget := b.budget - n, row := b.row + n, tokens := b.tokens ++ tokens }

/-- R601: the page of an object that holds the next `n` tokens of a stream's history and waits for its refetch. -/
def State.histPoison (s : State) (c e n : Nat) : Option Nat := s.poisonPage c (s.sget e 0x10 8 + 4 * s.sPos e) (4 * n)

/-- R232: one pass over its candidates, in order. A stream whose history waits for a refetch is passed over. -/
def Batching.pass (c : Nat) (kind : PassKind) : List Nat → Batching → Batching
  | [], b => b
  | e :: es, b =>
    let need := b.s.need e
    let n := if need = 1 then 1 else Nat.min (Nat.min need (if kind = .aged then b.s.chunkMin c else b.s.chunkMax c)) b.budget
    if b.seats = 0 ∨ b.budget = 0 ∨ (n < need ∧ n < b.s.chunkMin c) then b
    else if (b.s.histPoison c e n).isSome then
      Batching.pass c kind es { b with s := b.s.modSeq c fun q => { q with histWaits := q.histWaits ++ (b.s.histPoison c e n).toList }, stalled := b.stalled ++ [e] }
    else match b.s.pagesFor c e n with
      | none => Batching.pass c kind es { b with s := (b.s.bump (seqOff c 0x80) 1).seqEvent c, stalled := b.stalled ++ [e] }
      | some s => Batching.pass c kind es (b.add s c e n)

/-- Table 06.6: the key of a stream's place in its pass. -/
def State.passKey (s : State) (c e : Nat) : Int :=
  match s.sClass e with
  | 0 => s.slack e
  | 1 => ((s.sget e 0x50 8 : Nat) : Int)
  | _ => match s.cove c with
    | none => 0
    | some d =>
      let n := Nat.max 1 d.streamCount
      (((e + 262144 * n - d.streamFirst - (s.seqc c).beStart) % n : Nat) : Int)

/-- The candidates of a pass in its order. -/
def Batching.candidates (b : Batching) (c sl cls : Nat) (kind : PassKind) : List Nat :=
  let s := b.s
  let fits (e : Nat) : Bool := decide (s.sClass e = cls) && !(b.parts.any fun p => p.ent = e) && decide (e ∉ b.stalled) && (match kind with
    | .decode => decide (s.need e = 1)
    | .prefill => decide (1 < s.need e)
    | .aged => decide (s.beAge c ≤ (s.sx e).unserved))
  (((s.composables c sl).filter fits).map fun e => (s.passKey c e, e)).insertionSort (fun x y => x.1 < y.1 ∨ (x.1 = y.1 ∧ x.2 ≤ y.2)) |>.map Prod.snd

/-- R232: the passes in order. -/
def State.compose (s : State) (c sl : Nat) : Batching :=
  [(0, PassKind.decode), (1, .decode), (2, .aged), (0, .prefill), (1, .prefill), (2, .decode), (2, .prefill)].foldl
    (fun (b : Batching) (x : Nat × PassKind) => b.pass c x.2 (b.candidates c sl x.1 x.2))
    { s := s.modSeq c fun q => { q with histWaits := [] }, seats := s.stepSeqs c, budget := s.stepTokens c }

/-- R234: the counts of BE streams after a step of their serving slot has been composed. -/
def Batching.ages (b : Batching) (c sl : Nat) : State :=
  (b.s.served c).foldl (fun s e =>
    if s.sClass e ≠ 2 ∨ s.sServeSlot e ≠ sl ∨ s.sState e ∉ [some StreamState.queued, some .prefill, some .decode] ∨ e ∈ b.stalled then s
    else if b.parts.any fun p => p.ent = e then s.setSx e fun x => { x with unserved := 0 }
    else s.setSx e fun x => { x with unserved := x.unserved + 1 }) b.s

/-! ### Item 5, last part: the batch tables and the start of the step (R235, R236) -/

/-- ROWMAP, TOKENS and POSITIONS of a batch (R235), or of the pad row (R236). -/
def Batching.tables (b : Batching) (d : CoveDecl) (sl : SlotDecl) (tokens : Nat) : List (Nat × List Byte) :=
  if b.parts.isEmpty then [(d.batchAddr, leBytes 4 0xFFFFFFFF), (d.batchAddr + 4 * tokens, leBytes 4 sl.padToken), (d.batchAddr + 8 * tokens, leBytes 4 0)]
  else
    (d.batchAddr, b.parts.flatMap fun p => (List.replicate p.rows (leBytes 4 p.ent)).flatten) ::
    (d.batchAddr + 8 * tokens, b.parts.flatMap fun p => (List.range p.rows).flatMap fun i => leBytes 4 (p.pos + i)) ::
    b.tokens.map fun t => (d.batchAddr + 4 * tokens + 4 * t.1, t.2)

/-- Values at the start of a step of the arrival counters that WAIT entries name (R236). -/
def State.waitBases (s : State) (c : Nat) (sl : SlotDecl) : SMap DWord :=
  (List.range sl.stepCount).foldl (fun m i => match s.progEntry c sl i with
    | .ok e => if peKind e = 6 then SMap.put 0 m (peParam e % 65536) (s.arr (peParam e % 65536)) else m
    | .error _ => m) []

/-- R231 item 5: write the batch tables and start the step program. -/
def Batching.start (b : Batching) (c k : Nat) (d : CoveDecl) (sl : SlotDecl) : State :=
  let s := b.ages c k
  let pad := b.parts.isEmpty
  let g := (s.reg (seqOff c 0x10)).toNat
  let s := if sl.group then s.setReg (seqOff c 0x10) (BitVec.ofNat 32 (g + 1)) else s
  let (s, bad) := s.seqWrites c (b.tables d sl (s.stepTokens c))
  let r : StepRun := { slot := k, start := s.now, parts := b.parts, rows := if pad then 1 else b.row, pad, groupStep := g,
                       ctrBase := s.arr d.stepCtr, waitBase := s.waitBases c sl, xfers := List.replicate sl.sched.entries.length .waiting }
  let s := s.modSeq c fun x => { x with run := some r, lastSlot := k, beStart := (x.beStart + 1) % Nat.max 1 d.streamCount }
  let s := match bad with
    | some st => s.entryStatus c 0 st
    | none => s
  State.postGroup c d sl 4096 s

/-- R231: item 5 of a boundary. -/
def State.item5 (s : State) (c : Nat) (d : CoveDecl) : State :=
  let s := (s.startDemotions c).shadowCopies c
  let s := ((s.monitor c).switches c).askSlots c
  match s.chooseSlot c with
  | none => s
  | some k =>
    match s.slot c k with
    | none => s
    | some sl =>
      let b := s.compose c k
      if b.parts.isEmpty ∧ !sl.group then b.s else b.start c k d sl

/-! ### The boundary -/

/-- R229: a boundary of a cove is due: its step has ended, or it has none to run and a budget period begins. -/
def State.boundaryDue (s : State) (c : Nat) : Bool :=
  match (s.seqc c).run with
  | some r => r.ended
  | none => (s.seqc c).stepEn && decide (s.now % 800 = 0) && decide ((s.seqc c).boundAt ≠ some s.now)

/-- R32: a step boundary of a cove. -/
def State.stepBoundary (s : State) (c : Nat) (as : List Adoption) : State :=
  match s.cove c with
  | none => s
  | some d =>
    if !s.boundaryDue c ∨ s.coveResetting c then s
    else
      let s := ((s.mendTables c).closeBoundary c).modSeq c fun x => { x with boundAt := some s.now }
      let (s, gone) := s.retireAll c
      let s := s.freeItems c gone
      if !(s.seqc c).stepEn then s
      else ((s.adoptAll c as).scanReady c).item5 c d

/-- STEP_BOUNDARY (R32, R229): `adopt` gives the shadowed streams of lost nodes as this buddy holds them (R252). -/
def execStepBoundary (c : Cove) (adopt : List Adoption) (s : State) : Host.Outcome State Fault Refusal :=
  .next (s.unlessHalted fun s => s.stepBoundary c.val adopt)

/-! ### Writes by software (Table 06.1, Table 06.12) -/

/-- R575, R576: whether a write of a function to a byte of BAR4 takes effect. -/
def State.bar4Writable (s : State) (fn off : Nat) : Bool :=
  if fn = 0 then true else s.streamBytes (fn - 1) off 1

/-- Host writes to BAR4: bytes of entries, and bytes of the OR alias, which OR into the ready bitmap (Table 06.1). Under
REQUIRE_IDE a request outside an IDE stream ends as Unsupported Request (R523). -/
def State.bar4Write (s : State) (fn off : Nat) (data : List (Option Byte)) (ide : Bool) : State :=
  match s.image with
  | none => s
  | some im =>
    if im.requireIde && !ide then s.emit .barUR
    else if s.stopped ∨ (fn ≠ 0 ∧ (s.cove (fn - 1)).isNone) then s
    else data.zipIdx.foldl (fun s x => match x.1 with
      | some b => if s.bar4Writable fn (off + x.2) then s.bar4Store (off + x.2) b else s
      | none => s) s

/-- BAR4_ENTRY_WRITE (Table 06.1, R213, R575): bytes written to stream-table entries by PF0 or a VF. -/
def execBar4EntryWrite (fn : Fin 9) (offset : Fin 0x2000000) (data : List (Option Byte)) (ide : Bool) (s : State) : Host.Outcome State Fault Refusal :=
  .next (s.whileOn fun s => s.bar4Write fn.val offset.val data ide)

/-- READY_BITMAP_OR (Table 06.1, R214): bytes written to the OR alias of the ready bitmap. -/
def execReadyBitmapOr (fn : Fin 9) (offset : Fin 0x8000) (data : List (Option Byte)) (ide : Bool) (s : State) : Host.Outcome State Fault Refusal :=
  .next (s.whileOn fun s => s.bar4Write fn.val (0x2010000 + offset.val) data ide)

/-- SEQ_CTRL_WRITE (Table 06.12): STEP_EN, written by PF0 (0) or by the VF of the cove (1 + its number); a write by
another VF is ignored (R253, R573, R576). -/
def execSeqCtrlWrite (a : CoveAccess) (value : Word) (s : State) : Host.Outcome State Fault Refusal :=
  .next (s.whileOn fun s =>
    if a.fn.val ≠ 0 ∧ (a.fn.val ≠ a.cove.val + 1 ∨ (s.cove a.cove.val).isNone) then s
    else
      let s := if value.getLsbD 0 && (s.seqc a.cove.val).toHouse then (s.closeToHouse a.cove.val).modSeq a.cove.val fun x => { x with toHouse := false } else s
      s.modSeq a.cove.val fun x => { x with stepEn := value.getLsbD 0 })

end Sys2Proof.Machine
end

