-- ==== Sys2Proof/Machine/Budget.lean ====
section
/-! DEFINITION. Sys2Proof/Machine/Budget.lean: the budget arbiter (spec/01_package_overview.md R39 to R49). -/
namespace Sys2Proof.Machine
open Sys2Proof

/-- A budget period in local ticks (R39). -/
def budgetTicks : Nat := 800

/-! ### Live capacities (Table 01.7, R40) -/

/-- Table 07.5: capacity of a pseudo-channel in a stack of a temperature row. -/
def rowCapacity (row : Nat) : Nat := if row = 3 then 192000 else if row = 4 then 96000 else 384000

/-- HBM: 384,000 bytes per live pseudo-channel, two to a channel, less where a stack is hot. -/
def State.hbmCapacity (s : State) : Nat :=
  ((List.range 384).map fun ch => match s.chan ch with
    | .live => 2 * rowCapacity (vget ({} : StackTemp) s.hbm.temps (ch / 32)).row
    | .watch => 2 * rowCapacity (vget ({} : StackTemp) s.hbm.temps (ch / 32)).row
    | .moving => 2 * rowCapacity (vget ({} : StackTemp) s.hbm.temps (ch / 32)).row
    | .absent => 0
    | .out => 0).sum

/-- Bridges of Table 01.2, each way: 0, 1 East–West; 2 to 5 the hub's; 6 to 13 the link dies'; flit slots per period. -/
def bridgeCapacity (i : Nat) : Nat := if i < 2 then 1250000 else if i < 6 then 125000 else 150000

/-- R408, Table 11.2: capacity of a port that is UP; a port in any other state, RETRAIN among them, is not a live port
(DESIGN CHOICE, log 40). -/
def State.portCapacity (s : State) (p : Nat) : Nat :=
  let e := s.portEntry p
  if (s.port p).state ≠ .up then 0
  else (if s.portMode p = 1 then (if e.width4 then 843294 else 1686588) else (if e.width4 then 800000 else 1600000)) * e.txLimit / 64

/-- PCIe: the negotiated rate; of two links, the sum (R572). -/
def State.pcieCapacity (s : State) : Nat :=
  Config.pcieBytes 0 s.hif.linkSpeed s.hif.linkWidth + (if s.hif.split then Config.pcieBytes 1 s.hif.linkSpeed s.hif.linkWidth else 0)

/-- Bytes of the deep tier in a period, as the example at R321 states them. -/
def deepCapacity : Nat := 11040000

/-- Full live capacity of a resource (0 HBM, 1 network, 2 Basin egress, 3 Ferry, 4 Spillway, 5 Inlet), or of one of its
parts. Spillway: part 0 between HBM and the deep tier, part 1 between HBM and host memory. -/
def State.fullCapacity (s : State) (resource sub : Nat) : Nat :=
  match resource with
  | 0 => s.hbmCapacity
  | 1 => bridgeCapacity sub
  | 2 => s.portCapacity sub
  | 3 => 268800
  | 4 => Nat.min s.hbmCapacity (if sub = 0 then (if s.hbm.deepGiB = 0 then 0 else deepCapacity) else s.pcieCapacity)
  | _ => s.pcieCapacity

/-- Live capacity: in floor mode a quarter for HBM, Ferry, Spillway and Inlet (R493). -/
def State.capacity (s : State) (resource sub : Nat) : Nat :=
  let full := s.fullCapacity resource sub
  if s.weir.floor ∧ resource ≠ 1 ∧ resource ≠ 2 then full / 4 else full

/-- Parts of a resource, each with its own grants. -/
def State.resourceParts (s : State) : Nat → Nat
  | 1 => 14
  | 2 => s.portCount
  | 4 => 2
  | _ => 1

/-! ### Grants (R43 to R48) -/

/-- R43: the house activity. -/
def houseActivity (resource : Nat) : Activity := ⟨resource, 0, .std, 4, 256, 1, 0⟩

/-- Activities of a resource: the house and the declared ones. -/
def State.activitiesOf (s : State) (resource : Nat) : List Activity :=
  houseActivity resource :: (match s.image with
    | some im => im.activities.filter fun a => a.resource = resource
    | none => [])

/-- Give indivisible units one each, from the start index on (R44). -/
def giveUnits (start : Nat) (ms : List (Nat × Nat)) (n : Nat) : List (Nat × Nat) :=
  let order := ms.insertionSort fun a b => (a.1 + 65 - start) % 65 ≤ (b.1 + 65 - start) % 65
  let lucky := ((order.filter fun m => 0 < m.2).take n).map Prod.fst
  ms.map fun m => (m.1, if m.1 ∈ lucky then 1 else 0)

/-- R44: split `left` by weight among members (index, weight, limit); what limited members leave is split again. -/
def splitByWeight (start : Nat) : Nat → Nat → List (Nat × Nat × Nat) → List (Nat × Nat)
  | 0, _, _ => []
  | fuel + 1, left, ms =>
    let w := (ms.map fun m => m.2.1).sum
    let capped := ms.filter fun m => m.2.2 * w ≤ left * m.2.1
    if ms.isEmpty then []
    else if capped.isEmpty then
      let given := ms.map fun m => (m.1, left * m.2.1 / w)
      let units := giveUnits start (ms.map fun m => (m.1, m.2.2 - left * m.2.1 / w)) (left - (given.map Prod.snd).sum)
      (given.zip units).map fun x => (x.1.1, x.1.2 + x.2.2)
    else
      (capped.map fun m => (m.1, m.2.2)) ++
        splitByWeight start fuel (left - (capped.map fun m => m.2.2).sum) (ms.filter fun m => left * m.2.1 < m.2.2 * w)

/-- R44: the grants of one class from what is left. -/
def classGrants (start cap left : Nat) (acts : List Activity) (dem : Nat → Nat) (g : SMap Nat) (cls : ActClass) : SMap Nat :=
  let ms := (acts.filter fun a => a.cls = cls ∧ SMap.get 0 g a.index < dem a.index).map fun a =>
    (a.index, a.weight, Nat.min (a.ceiling * cap / 256 - SMap.get 0 g a.index) (dem a.index - SMap.get 0 g a.index))
  (splitByWeight start 66 left ms).foldl (fun g x => SMap.upd 0 g x.1 (· + x.2)) g

/-- R44: the grants of a resource or a part of it for one period. -/
def grantsFor (start cap : Nat) (acts : List Activity) (aged : SMap Nat) (dem : Nat → Nat) : SMap Nat :=
  let g := acts.foldl (fun g a => if SMap.get 0 aged a.index = 0 then g else SMap.put 0 g a.index (Nat.min (dem a.index) (cap / 16))) []
  let g := acts.foldl (fun g a => SMap.upd 0 g a.index fun x => x + Nat.min (dem a.index - x) (a.floor * cap / 256)) g
  [ActClass.lc, .std, .be].foldl (fun g cls => classGrants start cap (cap - (g.map Prod.snd).sum) acts dem g cls) g

/-- R47: the aged periods of an arbiter end or run on; a count returns to zero at their end. -/
def Arb.ageOn (a : Arb) : Arb :=
  let ended := (a.aged.filter fun x => x.2 = 1).map Prod.fst
  { a with aged := (a.aged.filter fun x => x.2 ≠ 1).map fun x => (x.1, x.2 - 1), starve := ended.foldl (fun m i => SMap.put 0 m i 0) a.starve }

/-- R47, R48: the activities of a resource that become aged at a boundary, with their parts: as many as slots of the
resource are free, by starvation count, then index, then part. -/
def newlyAged (acts : List Activity) (parts : List (Nat × Arb)) : List (Nat × Activity) :=
  let due := parts.flatMap fun p =>
    (acts.filter fun x => x.cls = .be ∧ 64 ≤ SMap.get 0 p.2.starve x.index ∧ SMap.get 0 p.2.aged x.index = 0).map fun x => (p.1, x, SMap.get 0 p.2.starve x.index)
  let order := due.insertionSort fun x y =>
    y.2.2 < x.2.2 ∨ (x.2.2 = y.2.2 ∧ (x.2.1.index < y.2.1.index ∨ (x.2.1.index = y.2.1.index ∧ x.1 ≤ y.1)))
  (order.take (4 - (parts.map fun p => p.2.aged.length).sum)).map fun x => (x.1, x.2.1)

/-- An arbiter at the start of period `k`, with the activities that become aged: grants and counts follow (R44, R46). The
start index is `k` mod 65, and the count of an aged activity stands until its periods end (DESIGN CHOICE, log 40). -/
def Arb.next (a : Arb) (k cap : Nat) (acts fresh : List Activity) (dem : Nat → Nat) : Arb :=
  let aged := fresh.foldl (fun m x => SMap.put 0 m x.index 16) a.aged
  let g := grantsFor (k % 65) cap acts aged dem
  let starve := (acts.filter fun x => x.cls = .be).foldl (fun m x =>
    if SMap.get 0 aged x.index ≠ 0 then m
    else SMap.upd 0 m x.index fun n => if 0 < dem x.index ∧ SMap.get 0 g x.index = 0 then n + 1 else 0) a.starve
  { cap, grant := g, starve, aged, start := k % 65, period := some k, used := [] }

/-- The arbiter of a part of a resource. -/
def State.arb (s : State) (resource sub : Nat) : Arb := SMap.get ({} : Arb) s.arbs (arbKey resource sub)

/-- Demand of an activity of a part of a resource. -/
def demandOf (ds : List Demand) (resource sub act : Nat) : Nat :=
  ((ds.filter fun d => d.resource = resource ∧ d.sub = sub ∧ d.act = act).map fun d => d.amount).sum

/-- R44, R47 to R49: the arbiters of a resource at a period boundary. -/
def State.arbitrate (s : State) (ds : List Demand) (resource : Nat) : State :=
  let k := s.now / budgetTicks
  let acts := s.activitiesOf resource
  let parts := (((List.range (s.resourceParts resource)).filter fun i => (s.arb resource i).period ≠ some k).map fun i => (i, (s.arb resource i).ageOn))
  let fresh := newlyAged acts parts
  let s := parts.foldl (fun s p =>
    let b := p.2.next k (s.capacity resource p.1) acts ((fresh.filter fun x => x.1 = p.1).map Prod.snd) (demandOf ds resource p.1)
    { s with arbs := SMap.put ({} : Arb) s.arbs (arbKey resource p.1) b }) s
  fresh.foldl (fun s x =>
    s.ripple ripAgeing 0 (coveByte x.2.cove) (resource + 256 * x.2.index)
      (((parts.find? fun p => p.1 = x.1).map fun p => SMap.get 0 p.2.starve x.2.index).getD 0)) s

/-- Every arbiter of the package. -/
def State.arbitrateAll (s : State) (ds : List Demand) : State :=
  (List.range 6).foldl (fun s r => s.arbitrate ds r) s

/-- A budget period boundary (R39): grants, and the idle intervals of coves without boundaries (R229, R461). -/
def State.budgetBoundary (s : State) (ds : List Demand) : State :=
  if s.now % budgetTicks ≠ 0 ∨ s.pstate = 4 then s
  else
    let s := (s.moveOn.arbitrateAll ds).judgeDrained
    (List.range 8).foldl (fun s c => if (s.seqc c).run.isNone && !(s.seqc c).stepEn then s.closeIdle c else s) s

/-- BUDGET_PERIOD_BOUNDARY (R44): `demand` gives the demands pending at the start of the period. -/
def execBudgetPeriodBoundary (demand : List Demand) (s : State) : Host.Outcome State Fault Refusal :=
  .next (s.whileOn fun s => s.budgetBoundary demand)

end Sys2Proof.Machine
end

