-- ==== Sys2Proof/Machine/Cvu.lean ====
section
/-! DEFINITION. Sys2Proof/Machine/Cvu.lean: the check-value unit (spec/18_ripple_recorder_and_check_values.md, R635 to
R639). -/
namespace Sys2Proof.Machine
open Sys2Proof

/-- Width, polynomial (reflected where the algorithm is), initial value, reflection and XOROUT (Table 18.6). -/
structure CrcAlg where
  width : Nat
  poly : Nat
  init : Nat
  refl : Bool
  xorOut : Nat
  deriving DecidableEq, Repr

/-- Table 18.6. -/
def crcAlg : Nat → CrcAlg
  | 0 => ⟨32, 0xEDB88320, 0xFFFFFFFF, true, 0xFFFFFFFF⟩
  | 1 => ⟨32, 0x82F63B78, 0xFFFFFFFF, true, 0xFFFFFFFF⟩
  | 2 => ⟨64, 0x42F0E1EBA9EA3693, 0, false, 0⟩
  | _ => ⟨16, 0x1021, 0xFFFF, false, 0⟩

/-- R636: the running register after one bit has been taken from it. -/
def CrcAlg.shift (a : CrcAlg) (v : Nat) : Nat :=
  if a.refl then (if bit v 0 then (v / 2) ^^^ a.poly else v / 2)
  else (if bit v (a.width - 1) then ((2 * v) % 2 ^ a.width) ^^^ a.poly else (2 * v) % 2 ^ a.width)

/-- R636: the running register after one byte. -/
def CrcAlg.byte (a : CrcAlg) (v : Nat) (b : Byte) : Nat :=
  (List.range 8).foldl (fun v _ => a.shift v) (if a.refl then v ^^^ b.toNat else v ^^^ (b.toNat * 2 ^ (a.width - 8)))

/-- One instance. -/
def State.cvuInst (s : State) (i : Nat) : CvuInst := vget {} s.cvu i

/-- Change one instance. -/
def State.setCvu (s : State) (i : Nat) (f : CvuInst → CvuInst) : State := { s with cvu := vmod s.cvu i f }

/-- R639: whether a function sees an instance: PF0 (0) sees every one, VF v (v + 1) those assigned to it. -/
def State.cvuSees (s : State) (fn i : Nat) : Bool :=
  decide (fn = 0) || (decide (bits (s.reg blkCVU).toNat (4 * i) 4 = fn) && s.image.isSome && (s.cove (fn - 1)).isSome)

/-- VALUE of an instance as it reads: bits above the width of the algorithm read 0 (R637). -/
def CvuInst.shown (x : CvuInst) : DWord := x.value &&& BitVec.ofNat 64 (2 ^ (crcAlg x.alg.toNat).width - 1)

/-- RESULT of an instance (R637). -/
def CvuInst.result (x : CvuInst) : DWord := x.shown ^^^ BitVec.ofNat 64 (crcAlg x.alg.toNat).xorOut

/-- R636, R638: feed bytes to an instance, or discard them in a stop. -/
def State.cvuFeed (s : State) (fn i : Nat) (bs : List Byte) : State :=
  if !s.cvuSees fn i then s
  else if s.stopped then
    let off := blkCVU + 0x1000 + 0x100 * i + 0x20
    s.setFlags off (setBit32 (s.flag off) 0)
  else s.setCvu i fun x => { x with value := BitVec.ofNat 64 (bs.foldl (crcAlg x.alg.toNat).byte x.shown.toNat) }

/-- R637: a write of CTRL. -/
def State.cvuCtrl (s : State) (fn i : Nat) (w : Word) : State :=
  if !s.cvuSees fn i then s
  else
    let alg := w.toNat % 4
    s.setCvu i fun x =>
      { alg := BitVec.ofNat 2 alg
        value := if w.getLsbD 8 then BitVec.ofNat 64 (crcAlg alg).init else x.value }

/-- R637: a write of either half of VALUE, or of both at once. -/
def State.cvuValue (s : State) (fn i : Nat) (lo hi : Option Word) : State :=
  if !s.cvuSees fn i then s
  else s.setCvu i fun x =>
    let l := (lo.map BitVec.toNat).getD (x.value.toNat % 0x100000000)
    let h := (hi.map BitVec.toNat).getD (x.value.toNat / 0x100000000)
    { x with value := BitVec.ofNat 64 (l + 0x100000000 * h) &&& BitVec.ofNat 64 (2 ^ (crcAlg x.alg.toNat).width - 1) }

/-- CVU_CTRL_WRITE (R637). -/
def execCvuCtrlWrite (fn : Fin 9) (unit : Fin 4) (value : Word) (s : State) : Host.Outcome State Fault Refusal :=
  .next (s.whileOn fun s => s.cvuCtrl fn unit value)

/-- CVU_DATA8 (R636). -/
def execCvuData8 (fn : Fin 9) (unit : Fin 4) (value : Word) (s : State) : Host.Outcome State Fault Refusal :=
  .next (s.whileOn fun s => s.cvuFeed fn unit (leBytes 1 value.toNat))

/-- CVU_DATA16 (R636). -/
def execCvuData16 (fn : Fin 9) (unit : Fin 4) (value : Word) (s : State) : Host.Outcome State Fault Refusal :=
  .next (s.whileOn fun s => s.cvuFeed fn unit (leBytes 2 value.toNat))

/-- CVU_DATA32 (R636). -/
def execCvuData32 (fn : Fin 9) (unit : Fin 4) (value : Word) (s : State) : Host.Outcome State Fault Refusal :=
  .next (s.whileOn fun s => s.cvuFeed fn unit (leBytes 4 value.toNat))

/-- CVU_VALUE_WRITE (R637). -/
def execCvuValueWrite (fn : Fin 9) (unit : Fin 4) (lo hi : Option Word) (s : State) : Host.Outcome State Fault Refusal :=
  .next (s.whileOn fun s => s.cvuValue fn unit lo hi)

end Sys2Proof.Machine
end

