-- ==== Sys2Proof/Machine/Image.lean ====
section
/-! DEFINITION. Sys2Proof/Machine/Image.lean: how the bytes of an image read, and what refuses an image
(spec/15_jieverik_image.md R545 to R556, Table 15.10). Reading is total; the checks look at the bytes and at what they
read as. -/
namespace Sys2Proof.Machine
open Sys2Proof

/-! ### Reading (Tables 15.1 to 15.8) -/

/-- Entry `i` of a section whose entries have `n` bytes each. -/
def entryAt (b : List Byte) (n i : Nat) : List Byte := (b.drop (n * i)).take n

/-- The entries of a section. -/
def entriesOf (b : List Byte) (n count : Nat) : List (List Byte) := (List.range count).map fun i => entryAt b n i

/-- Section table entry `i` (Table 15.2). -/
def tableEntryAt (raw : List Byte) (i : Nat) : List Byte := (raw.drop (0x40 + 16 * i)).take 16

/-- The sections of an image, in table order. -/
def sectionsOf (raw : List Byte) : List ImgSection :=
  (List.range (fld raw 6 2)).map fun i =>
    let t := tableEntryAt raw i
    { type := fld t 0 2, index := fld t 2 1, count := fld t 0xC 4, bytes := (raw.drop (fld t 4 4)).take (fld t 8 4) }

/-- The first section of a type and index. -/
def secOf (ss : List ImgSection) (type index : Nat) : Option ImgSection := ss.find? fun x => x.type = type ∧ x.index = index

/-- The index of a section in the section table; 0x3FF where there is none. -/
def secIndex (ss : List ImgSection) (type index : Nat) : Nat := (ss.findIdx? fun x => x.type = type ∧ x.index = index).getD 0x3FF

/-- Bytes and COUNT of a section; nothing where it is absent. -/
def secBytes (ss : List ImgSection) (type index : Nat) : List Byte := ((secOf ss type index).map fun x => x.bytes).getD []
def secCount (ss : List ImgSection) (type index : Nat) : Nat := ((secOf ss type index).map fun x => x.count).getD 0

/-- A node table entry (Table 11.3). -/
def readNode (b : List Byte) : NodeEntry :=
  let w := fld b 0 8
  { node := bits w 0 16, strapped := bit w 29, strap := bits w 16 12 }

/-- A route entry (Table 11.7). -/
def readRoute (w : Nat) : RouteEntry :=
  { dim := bits w 32 2, choices := (List.range 4).map fun k => (bit w (24 + k), bits w (6 * k) 6, bit w (28 + k)) }

/-- The head of PORTS, and a port entry (Table 15.6). -/
def readPortsHead (b : List Byte) : PortsHead :=
  { ethPrefix := fld b 0 8, ethUdp := fld b 8 2, recordClear := bit (fld b 0xC 4) 0,
    dscp := (List.range 8).map fun i => fld b (0x10 + i) 1, vlWeight := (List.range 8).map fun i => fld b (0x18 + i) 1,
    actVl := fld b 0x20 16 }
def readPort (b : List Byte) : PortEntry :=
  { mode := fld b 0 1, width4 := bit (fld b 1 1) 0, txLimit := fld b 2 1, cablePower := fld b 3 1, peerNode := fld b 4 2,
    peerPort := fld b 6 1, nextMac := fld b 8 6, vid := bits (fld b 0xE 2) 0 12,
    vlAlloc := (List.range 8).map fun i => fld b (0x10 + 2 * i) 2 }

/-- An activity entry (Table 15.3); class codes 0 LC, 1 STD, 2 BE. -/
def readActivity (b : List Byte) : Activity :=
  { resource := fld b 0 1, index := fld b 1 1, cls := if fld b 2 1 = 0 then .lc else if fld b 2 1 = 1 then .std else .be,
    floor := fld b 3 1, ceiling := fld b 4 2, weight := fld b 6 1, cove := fld b 7 1 }

/-- An export window entry (Table 10.1). -/
def readWindow (b : List Byte) : ExpWindow :=
  { kind := fld b 0 1, cove := bits (fld b 1 1) 0 3, perm := bits (fld b 2 1) 0 4, activity := fld b 3 1, srcLo := fld b 4 2,
    srcHi := fld b 6 2, ctrFirst := fld b 8 2, ctrCount := fld b 0xC 4, baseVa := fld b 0x10 8, size := fld b 0x18 8 }

/-- A valid instance of an expert entry (Table 05.4). -/
def readInstance (w : Nat) : Option (Nat × Nat) := if bit w 31 then some (bits w 0 8, bits w 8 10) else none

/-- A placement of a cove (Tables 05.1 to 05.4). -/
def readPlacement (cove : Nat) (b : List Byte) : Placement :=
  let e := fld b 0 2
  let nd := fld b 6 2
  let ns := fld b 8 2
  { cove, e, capE := fld b 2 2, rxSlots := fld b 4 2, nlocal := fld b 0xA 2, h := fld b 0xC 4, xFmtw := fld b 0x10 4,
    retFmtw := fld b 0x14 4, regionBytes := fld b 0x18 8,
    dests := (entriesOf (b.drop 0x20) 16 nd).map fun d => (fld d 0 2, fld d 2 2, fld d 8 8),
    srcs := (entriesOf (b.drop (0x20 + 16 * nd)) 16 ns).map fun d => (fld d 0 2, fld d 8 8),
    experts := (entriesOf (b.drop (0x20 + 16 * nd + 16 * ns)) 16 e).map fun d =>
      (List.range 4).map fun i => readInstance (fld d (4 * i) 4) }

/-- The placements of a PLACEMENTS section: index, COVE and the bytes of each; `count` of them at most. -/
def placementParts : Nat → List Byte → List (Nat × List Byte × List Byte)
  | 0, _ => []
  | n + 1, b =>
    if b.isEmpty then []
    else
      let len := fld b 4 4
      (fld b 0 1, b.take 8, (b.drop 8).take len) :: placementParts n (b.drop (8 + len))

/-- A KV map entry (Table 08.5). -/
def readKv (b : List Byte) : KvEntry :=
  { layer := fld b 0 2, ring := bit (fld b 2 2) 0, slots := fld b 4 4, layerOff := fld b 8 8, vOff := fld b 0x10 8,
    kPitch := fld b 0x18 4, vPitch := fld b 0x1C 4 }

/-- A layer schedule (Table 08.9). -/
def readSchedule (b : List Byte) : Schedule :=
  { mode := fld b 0 1, lead := fld b 1 1, nbuf := fld b 2 1, activity := fld b 3 1,
    entries := (entriesOf (b.drop 16) 32 (fld b 4 2)).map fun e =>
      { layer := fld e 0 2, drop := bit (fld e 2 1) 0, objId := fld e 4 4, srcVa := fld e 8 8, dstVa := fld e 0x10 8, bytes := fld e 0x18 8 } }

/-- Where the parts of a SLOT section start (R555): object words, layer map words, schedule, end. -/
def slotParts (b : List Byte) : Nat × Nat × Nat × Nat :=
  let o := 48 + 32 * fld b 0x24 2
  let m := o + 4 * fld b 0x26 2
  let c := m + 4 * fld b 0x28 2
  (o, m, c, c + 16 + 32 * fld b (c + 4) 2)

/-- A SLOT section (R555, Table 15.8). -/
def readSlot (b : List Byte) : SlotDecl :=
  let (o, m, c, _) := slotParts b
  { group := bit (fld b 0 1) 0, fallback := bit (fld b 0 1) 1, importKv := bit (fld b 0 1) 2, fbCove := fld b 1 1, fbSlot := fld b 2 1,
    padToken := fld b 4 4, t0 := fld b 8 4, t1 := fld b 0xC 4, stepProg := fld b 0x10 8, stepCount := fld b 0x18 4, fbRate := fld b 0x1C 4,
    fbCopy := fld b 0x20 4,
    kv := (entriesOf (b.drop 48) 32 (fld b 0x24 2)).map readKv,
    objs := (entriesOf (b.drop o) 4 (fld b 0x26 2)).map fun w => (bits (fld w 0 4) 0 14, bit (fld w 0 4) 31),
    layerMap := (entriesOf (b.drop m) 4 (fld b 0x28 2)).map fun w => (bits (fld w 0 4) 0 10, bits (fld w 0 4) 16 10),
    sched := readSchedule (b.drop c) }

/-- A COVE section (Table 15.7). -/
def readCove (b : List Byte) : CoveDecl :=
  { unified := bit (fld b 0 1) 0, shadowEn := bit (fld b 0 1) 1, shoal := bits (fld b 1 1) 0 2, objCount := fld b 2 2,
    atnMask := fld b 4 4, coreMask := fld b 8 16, root := fld b 0x18 8, streamFirst := fld b 0x20 4, streamCount := fld b 0x24 4,
    ctrFirst := fld b 0x28 4, ctrCount := fld b 0x2C 4, hbmBase := fld b 0x30 8, hbmBytes := fld b 0x38 8, deepBase := fld b 0x40 8,
    deepBytes := fld b 0x48 8, kvHbmPages := fld b 0x50 4, objHbmPages := fld b 0x54 4, kvDeepPages := fld b 0x58 4,
    kvHostPages := fld b 0x5C 4, kvHostBase := fld b 0x60 8, kvRegion := fld b 0x68 8, kvRangeLog2 := fld b 0x70 1, kvAct := fld b 0x71 1,
    slotAct := fld b 0x72 1, kvRanges := fld b 0x74 4, batchAddr := fld b 0x78 8, stepCtr := fld b 0x80 2, shadowNode := fld b 0x82 2,
    shadowPages := fld b 0x84 4, shadowPool := fld b 0x88 8, adoptCove := fld b 0x90 1, adoptFirst := fld b 0x94 4,
    adoptCount := fld b 0x98 4, hbmWinVa := fld b 0xA0 8, hbmWinBytes := fld b 0xA8 8, slowWinVa := fld b 0xB0 8, slowWinBytes := fld b 0xB8 8 }

/-- Fill a sparse table from a list; a later entry of a key replaces an earlier one. -/
def SMap.ofList {α : Type} [DecidableEq α] (d : α) (l : List (Nat × α)) : SMap α := l.foldl (fun m x => SMap.put d m x.1 x.2) []

/-- Everything an image says. -/
def readImage (raw : List Byte) : Image :=
  let ss := sectionsOf raw
  let b (t : Nat) : List Byte := secBytes ss t 0
  let n (t : Nat) : Nat := secCount ss t 0
  let sec := b 9
  { imgSeq := fld raw 0xC 4, floor := fld raw 0x10 4, ownerSlot := fld raw 0x14 1, sections := ss, raw,
    rsvBase := fld (b 1) 0 8, rsvBytes := fld (b 1) 8 8, ringLog2 := if (secOf ss 1 0).isSome then fld (b 1) 0x10 1 else 20,
    regs := (entriesOf (b 2) 8 (n 2)).map fun e => (fld e 0 4, fld e 4 4),
    nodes := ((entriesOf (b 3) 8 (n 3)).filter fun e => bit (fld e 0 8) 28).map readNode,
    portsHead := if (secOf ss 4 0).isSome then readPortsHead (b 4) else {},
    ports := if (secOf ss 4 0).isSome then (entriesOf ((b 4).drop 64) 64 36).map readPort else List.replicate 36 {},
    routes := SMap.ofList {} ((entriesOf (b 5) 16 (n 5)).map fun e => (fld e 0 2, readRoute (fld e 8 8))),
    activities := (entriesOf (b 6) 8 (n 6)).map readActivity,
    windows := SMap.ofList {} ((entriesOf (b 7) 40 (n 7)).map fun e => (fld e 0 1, readWindow (e.drop 8))),
    spareCh := fld (b 8) 0 1, rosterClear := bit (fld (b 8) 1 1) 0,
    brokerRsa := sec.take 48, brokerSlh := (sec.drop 48).take 48, requireIde := bit (fld sec 0x60 1) 0, plainOk := fld sec 0x61 1,
    links := SMap.ofList [] ((entriesOf (sec.drop 0x80) 104 (fld sec 0x62 2)).map fun e => (fld e 0 2, e.drop 8)),
    staticShare := (List.range 8).map fun c => fld (b 10) c 1,
    placements := SMap.ofList none ((placementParts (n 11) (b 11)).map fun (i, h, x) => (i, some (readPlacement (fld h 1 1) x))),
    coves := Vector.ofFn fun c => (secOf ss 0x10 c.val).map fun x => readCove x.bytes,
    slots := Vector.ofFn fun i => (secOf ss 0x11 i.val).map fun x => readSlot x.bytes }

/-! ### Checks on the bytes of one section (R547, R665) -/

/-- Bytes that are reserved hold zero. -/
def zeroAt (b : List Byte) (off n : Nat) : Bool := decide (fld b off n = 0)

/-- Whether an entry of a layer schedule is sound (Table 08.9, R318, R665). -/
def schedEntryOk (e : List Byte) : Bool :=
  decide (fld e 2 1 < 2) && zeroAt e 3 1 && decide (fld e 0x18 8 % 65536 = 0)

/-- Whether a SLOT section is sound by itself (Table 15.8, R308, R318, R555, R665). -/
def slotBytesOk (b : List Byte) : Bool :=
  let (o, m, c, e) := slotParts b
  let d := readSlot b
  decide (48 ≤ b.length) && decide (b.length = e) && decide (fld b 0 1 < 8) && zeroAt b 3 1 && zeroAt b 0x2A 6 && decide (d.t0 ≠ 0) &&
    decide (1 ≤ d.stepCount) && decide (d.stepCount ≤ 4096) && (!d.fallback || decide (d.fbRate ≠ 0)) && (!d.importKv || decide (d.fbCopy ≠ 0)) &&
    decide (fld b 0x24 2 ≤ 1024) && decide (fld b 0x26 2 ≤ 256) && decide (fld b 0x28 2 ≤ 1024) && decide (fld b (c + 4) 2 ≤ 1024) &&
    ((entriesOf (b.drop 48) 32 (fld b 0x24 2)).all fun k => decide (fld k 2 2 < 2) && decide (fld k 4 4 ≠ 0)) &&
    ((entriesOf (b.drop o) 4 (fld b 0x26 2)).all fun w => decide (bits (fld w 0 4) 14 17 = 0)) &&
    ((entriesOf (b.drop m) 4 (fld b 0x28 2)).all fun w => decide (bits (fld w 0 4) 10 6 = 0) && decide (bits (fld w 0 4) 26 6 = 0)) &&
    zeroAt b (c + 6) 10 && ((entriesOf (b.drop (c + 16)) 32 (fld b (c + 4) 2)).all schedEntryOk)

/-- Whether a port entry is sound by itself (Table 15.6, R665). -/
def portBytesOk (b : List Byte) : Bool :=
  decide (fld b 0 1 ≤ 2) && decide (fld b 1 1 < 2) && decide (fld b 2 1 ≤ 64) && (decide (fld b 0 1 = 0) || decide (1 ≤ fld b 2 1)) &&
    zeroAt b 7 1 && decide (fld b 0xE 2 < 4096) && zeroAt b 0x20 16 && zeroAt b 0x30 16

/-- Whether the head of PORTS is sound by itself (Table 15.6, R665). -/
def portsHeadOk (b : List Byte) : Bool :=
  zeroAt b 0xA 2 && decide (fld b 0xC 4 < 2) && ((List.range 8).all fun i => decide (fld b (0x10 + i) 1 < 64) && decide (fld b (0x18 + i) 1 ≠ 0)) &&
    zeroAt b 0x30 16

/-- Whether a placement is sound by itself (Tables 05.1 to 05.4, R181, R665). -/
def placementBytesOk (h b : List Byte) : Bool :=
  let p := readPlacement (fld h 1 1) b
  let nd := p.dests.length
  let ns := p.srcs.length
  decide (fld h 0 1 < 64) && decide (fld h 1 1 < 8) && zeroAt h 2 2 && decide (b.length = fld h 4 4) && decide (b.length = 0x20 + 16 * (nd + ns + p.e)) &&
    decide (1 ≤ p.e) && decide (p.e ≤ 1024) && decide (p.capE ≠ 0) && decide (p.rxSlots ≠ 0) && decide (1 ≤ nd) && decide (nd ≤ 256) &&
    decide (1 ≤ ns) && decide (ns ≤ 256) && decide (p.nlocal ≤ 1024) && decide (1 ≤ p.h) && decide (p.h ≤ 32768) &&
    ((entriesOf (b.drop 0x20) 16 nd).all fun d => zeroAt d 4 4 && decide (fld d 8 8 % 64 = 0)) &&
    ((entriesOf (b.drop (0x20 + 16 * nd)) 16 ns).all fun d => zeroAt d 2 6) &&
    ((entriesOf (b.drop (0x20 + 16 * nd + 16 * ns)) 16 p.e).all fun d => (List.range 4).all fun i => decide (bits (fld d (4 * i) 4) 18 13 = 0)) &&
    (match readFmtWord .output p.xFmtw 0 with
      | some w => decide (w.gainMode = 0) && !w.round && w.fmt.lengthOk p.h
      | none => false) &&
    (decide (p.retFmtw = 0) || decide (p.retFmtw = 1)) && decide (64 + p.rxSlots * p.recBytes ≤ p.regionBytes) &&
    p.experts.all fun l =>
      let ds := l.filterMap fun x => x.map Prod.fst
      (nth none l 0).isSome && (ds.all fun d => decide (d < nd)) && decide ds.Nodup

/-- Whether a section is sound by itself: its type is listed, its length fits its entries, reserved bytes hold zero and
no field breaks the range its own table gives. -/
def sectionOk (x : ImgSection) : Bool :=
  let b := x.bytes
  let es (n : Nat) : List (List Byte) := entriesOf b n x.count
  let sized (n cap : Nat) : Bool := decide (b.length = n * x.count) && decide (x.count ≤ cap)
  (decide (x.type = 0x10) || decide (x.type = 0x11) || decide (x.index = 0)) &&
  match x.type with
  | 1 => decide (b.length = 32) && decide (fld b 0 8 % 0x40000000 = 0) && decide (fld b 8 8 % 0x40000000 = 0) && decide (20 ≤ fld b 0x10 1) &&
      decide (fld b 0x10 1 ≤ 26) && zeroAt b 0x11 15
  | 2 => sized 8 1024
  | 3 => sized 8 65536 && (es 8).all fun e => decide (bits (fld e 0 8) 30 34 = 0) && decide (fld e 0 2 ≠ 0xFFFF)
  | 4 => decide (b.length = 64 + 36 * 64) && portsHeadOk b && (entriesOf (b.drop 64) 64 36).all portBytesOk
  | 5 => sized 16 65536 && (es 16).all fun e => zeroAt e 2 6 && decide (bits (fld e 8 8) 34 30 = 0)
  | 6 => decide (b.length = 8 * x.count) && (es 8).all fun e =>
      decide (fld e 0 1 ≤ 5) && decide (1 ≤ fld e 1 1) && decide (fld e 1 1 ≤ 64) && decide (fld e 2 1 ≤ 2) && decide (fld e 3 1 ≤ 188) &&
        decide (fld e 4 2 ≤ 256) && decide (fld e 3 1 ≤ fld e 4 2) && decide (fld e 6 1 ≠ 0) && decide (fld e 7 1 < 8) &&
        decide ((fld e 2 1 = 2) ↔ fld e 3 1 = 0)
  | 7 => sized 40 256 && (es 40).all fun e => zeroAt e 1 7 && decide (fld e 8 1 ≤ 2) && decide (fld e 9 1 < 8) && decide (fld e 10 1 < 16) &&
      zeroAt e 18 2 && decide (fld e 20 4 ≤ 65536)
  | 8 => decide (b.length = 16) && decide (fld b 0 1 ≤ 16) && decide (fld b 1 1 < 2) && zeroAt b 2 14
  | 9 => decide (b.length = 0x80 + 104 * fld b 0x62 2) && decide (fld b 0x60 1 < 2) && zeroAt b 0x64 28 &&
      (let ls := entriesOf (b.drop 0x80) 104 (fld b 0x62 2)
       ls.all (fun e => zeroAt e 2 6 && decide (fld e 0 2 ≠ 0xFFFF)) && decide (ls.map fun e => fld e 0 2).Nodup)
  | 10 => decide (b.length = 16) && zeroAt b 8 8 && decide (((List.range 8).map fun c => fld b c 1).sum ≤ 256)
  | 11 =>
      let ps := placementParts x.count b
      decide (x.count ≤ 64) && decide (ps.length = x.count) && decide (b.length = (ps.map fun p => 8 + fld p.2.1 4 4).sum) &&
        ps.all fun p => placementBytesOk p.2.1 p.2.2
  | 0x10 =>
      let d := readCove b
      decide (b.length = 192) && decide (x.index < 8) && decide (fld b 0 1 < 4) && decide (fld b 1 1 < 4) && decide (d.objCount ≤ 16384) &&
        zeroAt b 0x73 1 && zeroAt b 0x91 3 && zeroAt b 0x9C 4 && decide (26 ≤ d.kvRangeLog2) && decide (d.kvRangeLog2 ≤ 36)
  | 0x11 => decide (x.index < 64) && slotBytesOk b
  | _ => false

end Sys2Proof.Machine
end

