-- ==== Sys2Proof/Machine/ImageCheck.lean ====
section
/-! DEFINITION. Sys2Proof/Machine/ImageCheck.lean: the rules of the manual that refuse an image, against the present state
(Table 15.10, R556). -/
namespace Sys2Proof.Machine
open Sys2Proof

/-- A refusal: status and section index (0x3FF for the header). -/
abbrev Refused := Option (Status × Nat)

/-- The refusal with the least section index among the checks that fail. -/
def firstFail (st : Status) (checks : List (Nat × Bool)) : Refused :=
  ((checks.filter fun c => !c.2).map Prod.fst).foldl (fun r i => match r with
    | none => some (st, i)
    | some (_, j) => some (st, Nat.min i j)) none

/-- Refusals in order: the first that stands. -/
def orElseRefused : List Refused → Refused
  | [] => none
  | some r :: _ => some r
  | none :: l => orElseRefused l

/-! ### Rows 1 to 6 (R545, R546, R411, R565) -/

/-- Row 1. -/
def imgHeaderOk (raw : List Byte) (len : Nat) : Bool :=
  decide (len = fld raw 8 4 + 16608) && decide (raw.length = len) && decide (fld raw 0 4 = 0x314B564A) && decide (fld raw 4 2 = 1) &&
    decide (1 ≤ fld raw 6 2) && decide (fld raw 6 2 ≤ 1024) && decide (fld raw 8 4 % 64 = 0) && decide (fld raw 8 4 ≤ 0x1000000)

/-- Whether section `i` keeps R546: aligned, within the signed bytes, clear of the sections before it, and the only one
of its type and index so far. -/
def tableRowOk (raw : List Byte) (i : Nat) : Bool :=
  let t := tableEntryAt raw i
  let off := fld t 4 4
  let n := fld t 8 4
  decide (off % 64 = 0) && decide (0x40 + 16 * fld raw 6 2 ≤ off) && decide (off + n ≤ fld raw 8 4) &&
    (List.range i).all fun j =>
      let u := tableEntryAt raw j
      !overlaps off n (fld u 4 4) (fld u 8 4) && decide (¬(fld t 0 2 = fld u 0 2 ∧ fld t 2 1 = fld u 2 1))

/-- The node ID that an image binds at a strap word (R411): of the one STRAPPED entry that holds it. -/
def Image.ownNode (im : Image) (pos : Nat) : Option Nat :=
  match im.nodes.filter fun n => n.strapped && n.strap = pos with
  | [n] => some n.node
  | _ => none

/-- Row 6. -/
def State.row6 (s : State) (im : Image) : Refused :=
  orElseRefused
    [firstFail .badImage ((List.range (fld im.raw 6 2)).map fun i => (i, tableRowOk im.raw i)),
     match im.ownNode s.lnk.pos with
     | none => some (.badImage, secIndex im.sections 3 0)
     | some n => if s.jvk.boundNode.any fun b => decide (b ≠ n) then some (.badImage, secIndex im.sections 3 0) else none]

/-- The owner slot byte that an image must hold, and the floor store of that slot (R545, R565). -/
def State.slotByte (s : State) : Nat := if s.wh.sec = .factory then 0xFF else s.wh.ownerSlot
def State.floorSlot (s : State) : Nat := if s.wh.sec = .factory then 4 else s.wh.ownerSlot

/-- ID.VARIANT.CODE (Table 00.2). -/
def Variant.code : Variant → Nat
  | .f => 1
  | .m => 2
  | .s => 3

/-- Row 4 (R513): both signatures verify under the keys whose digests fill the owner slot, or under the factory keys. -/
def State.signed (s : State) (raw : List Byte) : Bool :=
  let n := fld raw 8 4
  let keys := if s.wh.sec = .factory then Config.measured 3 else (vget none s.wh.owners s.wh.ownerSlot).getD []
  Config.sigVerifies (keys.take 48) (raw.take n) ((raw.drop n).take 384) &&
    Config.sigVerifies (keys.drop 48) (raw.take n) ((raw.drop (n + 384)).take 16224)

/-- Rows 1 to 5. -/
def State.rows1to5 (s : State) (im : Image) (len : Nat) : Refused :=
  let h := 0x3FF
  let fl := vget 0 s.jvk.floors s.floorSlot
  if !imgHeaderOk im.raw len then some (.badImage, h)
  else if s.wh.sec = .scrapped then some (.badImage, h)
  else if im.ownerSlot ≠ s.slotByte ∨ (fld im.raw 0x15 1 ≠ 0 ∧ fld im.raw 0x15 1 ≠ s.fuses.variant.code) ∨
      (fld im.raw 0x18 8 ≠ 0 ∧ fld im.raw 0x18 8 ≠ s.fuses.serial) then some (.badImage, h)
  else if !s.signed im.raw then some (.sigFail, h)
  else if im.imgSeq < fl ∨ im.floor < fl ∨ im.imgSeq < im.floor then some (.badImage, h)
  else none

/-! ### Row 7: absent units (R12, R553, R554) -/

/-- Expert routers are fitted (Table 00.3). -/
def Variant.shoal : Variant → Bool
  | .s => false
  | _ => true

/-- UNIFIED_OK (Table 00.3). -/
def State.unifiedOk (s : State) : Bool := decide (s.fuses.variant = .f) && decide (s.hbm.deepGiB ≠ 0)

/-- Row 7 for one section. -/
def State.unitsThere (s : State) (x : ImgSection) : Bool :=
  let b := x.bytes
  match x.type with
  | 2 => s.fuses.variant.shoal || (entriesOf b 8 x.count).all fun e => decide (fld e 0 4 / 0x100000 * 0x100000 ≠ blkSHOAL)
  | 4 => (List.range 36).all fun p => decide (p < s.portCount) || decide (fld (entryAt (b.drop 64) 64 p) 0 1 = 0)
  | 5 => (entriesOf b 16 x.count).all fun e =>
      (readRoute (fld e 8 8)).choices.all fun c => !c.1 || decide (c.2.1 < s.portCount) || decide (36 ≤ c.2.1)
  | 11 => s.fuses.variant.shoal || decide (x.count = 0)
  | 0x10 =>
      let d := readCove b
      (s.fuses.variant.shoal || decide (d.shoal = 0)) && (decide (s.hbm.deepGiB ≠ 0) || (decide (d.deepBytes = 0) && decide (d.kvDeepPages = 0))) &&
        (!d.unified || s.unifiedOk)
  | _ => true

/-- Row 7. -/
def State.row7 (s : State) (im : Image) : Refused := firstFail .absentUnit (im.sections.zipIdx.map fun x => (x.2, s.unitsThere x.1))

/-! ### Row 8: registers (R549, R577, R581) -/

/-- The value an image gives a register: that of its REGS entry, or the reset value. -/
def Image.regVal (im : Image) (off : Nat) : Nat :=
  match im.regs.reverse.find? fun e => e.1 = off with
  | some e => e.2
  | none => (regReset off).toNat

/-- Whether a register entry names an RWL register and leaves its reserved and RO bits zero (R549). -/
def regEntryOk (e : Nat × Nat) : Bool :=
  match regSpec e.1 with
  | some r => decide (r.acc = .rwl) && decide (e.2 = e.2 &&& r.mask)
  | none => false

/-- `lo ≤ x ≤ hi`. -/
def within (lo x hi : Nat) : Bool := decide (lo ≤ x) && decide (x ≤ hi)

/-- The ranges of the RWL fields of one cove (Tables 03.13, 06.13, 06.14). -/
def Image.coveRegsOk (im : Image) (c : Nat) : Bool :=
  let cfg := im.regVal (coveOff blkSEQ c 4)
  let chk := im.regVal (coveOff blkSEQ c 8)
  let dl := im.regVal (coveOff blkSEQ c 0xC)
  within 1 (bits cfg 16 11) 1024 && within 1 (bits cfg 0 15) 16384 && within (bits chk 0 14) (bits chk 16 14) 8192 && decide (256 ≤ bits chk 0 14) &&
    decide (bits dl 8 8 ≠ 0) && decide (bits dl 0 8 ≠ 0) && decide (bits (im.regVal (coveOff blkMXC c 0x10)) 0 5 ≠ 0)

/-- The ranges of the RWL fields of the memory, Basin and link blocks (Tables 05.11, 07.9, 07.11, 10.11, 11.12). -/
def Image.linkRegsOk (im : Image) : Bool :=
  let map := im.regVal (blkMEM + 4)
  let txn := im.regVal (blkBSN + 4)
  let xp := im.regVal (blkLNK + 0x10)
  let rp := im.regVal (blkLNK + 0x14)
  decide (bits (im.regVal (blkSHOAL + 0x10)) 0 16 ≠ 0) && decide (bits map 16 8 ≠ 0) && decide (bits map 0 16 ≠ 0) &&
    within 1 (bits (im.regVal (blkMEM + 0x10)) 0 8) 168 && within 16 (bits txn 16 11) 1024 && decide (bits txn 0 16 ≠ 0) &&
    within (4 * bits xp 8 8) (bits xp 16 16) (bits txn 0 16 - 1) && decide (bits xp 8 8 ≠ 0) && decide (bits xp 0 8 ≠ 0) &&
    decide (bits rp 16 8 ≠ 0) && decide (bits rp 8 8 ≠ 0) && decide (bits rp 0 8 ≠ 0) && decide (bits (im.regVal (blkLNK + 0x18)) 0 8 ≠ 0)

/-- The ranges of the RWL fields of the Weir, FLT, RIP and CVU blocks (Tables 13.7, 17.8, 18.8). -/
def Image.weirRegsOk (im : Image) : Bool :=
  let lim := im.regVal (blkWEIR + 8)
  let burst := im.regVal (blkWEIR + 0xC)
  let droop := im.regVal (blkWEIR + 0x28)
  within 1800 (bits lim 0 13) 3600 && within (bits lim 0 13) (bits lim 16 13) 4200 && decide (bits burst 8 8 ≤ 200) && decide (bits burst 0 8 ≤ 10) &&
    ((List.range 4).all fun i =>
      let v := im.regVal (blkWEIR + 0x10 + 4 * i)
      within 1800 (bits v 0 16) 4200 && within 1800 (bits v 16 16) 4200) &&
    decide (bits droop 8 8 ≠ 0) && within 20 (bits droop 0 8) 80 && within 85 (bits (im.regVal (blkWEIR + 0x2C)) 0 8) 115 &&
    decide (10 ≤ bits (im.regVal (blkFLT + 8)) 0 16) && decide (bits (im.regVal (blkRIP + 8)) 0 16 ≠ 0) &&
    (List.range 4).all fun i => decide (bits (im.regVal blkCVU) (4 * i) 4 ≤ 8)

/-- A BAR2 window: offset, size, kind, cove, function, WRITE, activity, target. -/
structure Bar2Win where
  off : Nat
  size : Nat
  target : Nat
  kind : Nat
  cove : Nat
  func : Nat
  write : Bool
  act : Nat
  deriving DecidableEq, Repr

/-- BAR2 window `i` of a register file. -/
def bar2Win (reg : Nat → Nat) (i : Nat) : Bar2Win :=
  let o := blkHIF + 0x400 + 0x20 * i
  let c := reg (o + 0x18)
  { off := reg o + 0x100000000 * reg (o + 4), size := reg (o + 8) + 0x100000000 * reg (o + 0xC), target := reg (o + 0x10) + 0x100000000 * reg (o + 0x14),
    kind := bits c 0 4, cove := bits c 4 3, func := bits c 8 4, write := bit c 12, act := bits c 16 8 }

/-- The size of a window of kinds 2 to 5 (Table 16.3). -/
def bar2Size (ringLog2 : Nat) : Nat → Option Nat
  | 2 => some (0x100000)
  | 3 => some (64 * 2 ^ ringLog2)
  | 4 => some (64 * 36864)
  | 5 => some (64 * 0x100000)
  | _ => none

/-- The used BAR2 windows of an image. -/
def Image.bar2s (im : Image) : List Bar2Win := ((List.range 32).map (bar2Win im.regVal)).filter fun w => w.kind ≠ 0

/-- R577 and the field ranges of Table 16.11. -/
def Image.bar2Ok (im : Image) : Bool :=
  ((List.range 32).all fun i => decide ((bar2Win im.regVal i).func ≤ 8)) &&
    (im.bar2s.all fun w =>
      decide (w.kind ≤ 5) && decide (w.off % 65536 = 0) && decide (w.size % 65536 = 0) && decide (w.size ≠ 0) &&
        (decide (2 < w.kind) || (vget none im.coves w.cove).isSome) && (decide (w.kind < 3) || decide (w.func = 0)) &&
        (decide (w.func = 0) || decide (w.cove + 1 = w.func)) && (bar2Size im.ringLog2 w.kind).all fun n => decide (w.size = n)) &&
    im.bar2s.zipIdx.all fun x => im.bar2s.zipIdx.all fun y =>
      decide (x.2 = y.2) || decide (x.1.func ≠ y.1.func) || !overlaps x.1.off x.1.size y.1.off y.1.size

/-- R581: whether one host window of an image admits a cove for reads and writes over a range of bus addresses. -/
def Image.hostRange (im : Image) (c bus n : Nat) : Bool :=
  (List.range 16).any fun i =>
    let o := blkHIF + 0x800 + 0x10 * i
    let ctl := im.regVal (o + 0xC)
    bit ctl (8 + c) && bit ctl 0 && bit ctl 1 && inside bus n (im.regVal o + 0x100000000 * im.regVal (o + 4)) (65536 * im.regVal (o + 8))

/-- Row 8 for REGS. -/
def Image.regsOk (im : Image) : Bool :=
  im.regs.all regEntryOk && ((List.range 8).all im.coveRegsOk) && im.linkRegsOk && im.weirRegsOk && im.bar2Ok

/-! ### Row 8: nodes, routes, ports, activities, windows, placements -/

/-- R411. -/
def Image.nodesOk (im : Image) : Bool :=
  decide (im.nodes.map NodeEntry.node).Nodup && decide ((im.nodes.filter NodeEntry.strapped).map NodeEntry.strap).Nodup

/-- A port entry of an image. -/
def Image.portAt (im : Image) (p : Nat) : PortEntry := nth {} im.ports p

/-- R437: no choice with DATELINE names an ETH port; a choice names a port index. -/
def Image.routesOk (im : Image) : Bool :=
  im.routes.all fun r => r.2.choices.all fun c => !c.1 || (decide (c.2.1 < 36) && (!c.2.2 || decide ((im.portAt c.2.1).mode ≠ 2)))

/-- R426, R553, Table 15.6. A VL in use is one with an allocation. -/
def Image.portsOk (im : Image) : Bool :=
  (decide (im.portsHead.ethUdp ≠ 0) || im.ports.all fun p => decide (p.mode ≠ 2)) &&
    (List.range 36).all fun i =>
      let p := im.portAt i
      let split := (im.portAt (i / 2 * 2)).width4
      (decide (p.mode = 0) || decide (i % 2 = 0) || split) &&
        (decide (p.mode ≠ 1) ||
          ((im.nodes.any fun n => decide (n.node = p.peerNode)) && decide (2 * p.vlAlloc.sum ≤ if split then 4096 else 8192) &&
            p.vlAlloc.all fun a => decide (a = 0) || decide (65 ≤ a)))

/-- R42, R547: each activity once, floors within 188 on each resource. -/
def Image.activitiesOk (im : Image) : Bool :=
  decide (im.activities.map fun a => (a.resource, a.index)).Nodup &&
    (List.range 6).all fun r => decide (((im.activities.filter fun a => a.resource = r).map Activity.floor).sum ≤ 188)

/-- R365, Table 10.1. -/
def Image.windowsOk (im : Image) : Bool :=
  (im.windows.all fun x =>
    let w := x.2
    decide (w.kind = 0) ||
      match vget none im.coves w.cove with
      | none => false
      | some d =>
        decide (w.srcLo ≤ w.srcHi) && (decide (w.ctrCount = 0) || inside w.ctrFirst w.ctrCount d.ctrFirst d.ctrCount) &&
          (if w.kind = 2 then decide (w.baseVa = 0) && decide (w.size = 0) && decide (w.perm < 4)
            else decide (w.baseVa % 65536 = 0) && decide (w.size % 65536 = 0) && decide (w.size ≠ 0) && decide (w.size ≤ 0x10000000000) &&
              decide (w.baseVa + w.size ≤ 0x1000000000000))) &&
    decide ((im.windows.filter fun x => x.2.kind = 2).map fun x => x.2.cove).Nodup

/-- R181: every node that a placement names is listed. -/
def Image.placementsOk (im : Image) : Bool :=
  im.placements.all fun x => match x.2 with
    | none => true
    | some p => (p.dests.all fun d => im.nodes.any fun n => decide (n.node = d.1)) && p.srcs.all fun d => im.nodes.any fun n => decide (n.node = d.1)

/-! ### Row 8: memory, coves, slots -/

/-- The state as it would stand with an image in force: its tables, reserved region, bands and registers. -/
def State.asIf (s : State) (im : Image) : State :=
  let regs := SMap.filter (fun off _ => !((regSpec off).any fun r => decide (r.acc = .rwl))) s.regs
  { s with jvk := { s.jvk with inForce := some im }, hbm := { s.hbm with spareEnd := s.hbm.outs.length + im.spareCh },
           regs := im.regs.foldl (fun m e => SMap.put (regReset e.1) m e.1 (BitVec.ofNat 32 e.2)) regs }

/-- The DPA below which coves and the reserved region lie: above it are the spare bands and the bands used (R272). -/
def State.bandBase (s : State) (im : Image) : Nat :=
  capAfter s.fuses.variant (s.hbm.outs.length + Nat.max im.spareCh (if s.hbm.move.isSome then 1 else 0))

/-- R550 and R272 for the reserved region. -/
def State.platformOk (s : State) (im : Image) : Bool := decide (im.rsvBase + im.rsvBytes ≤ s.bandBase im)

/-- R272 for SPARE_CH. -/
def State.spareOk (s : State) (im : Image) : Bool := decide (s.hbm.outs.length + im.spareCh ≤ 16)

/-- Numbers of the coves of an image, with their sections. -/
def Image.coveList (im : Image) : List (Nat × CoveDecl) :=
  (List.range 8).filterMap fun c => (vget none im.coves c).map fun d => (c, d)

/-- R216, R306, R393, R550, R554: what one cove's numbers must keep by themselves. -/
def State.coveOk (s : State) (im : Image) (d : CoveDecl) : Bool :=
  decide (d.streamFirst % 64 = 0) && decide (d.streamCount % 64 = 0) && decide (d.streamFirst + d.streamCount ≤ 262144) &&
    decide (d.ctrFirst % 256 = 0) && decide (d.ctrCount % 256 = 0) && decide (d.ctrFirst + d.ctrCount ≤ 65536) &&
    inside d.stepCtr 1 d.ctrFirst d.ctrCount &&
    decide (d.hbmBase % 0x40000000 = 0) && decide (d.hbmBytes % 0x40000000 = 0) && decide (d.hbmBase + d.hbmBytes ≤ s.bandBase im) &&
    !overlaps d.hbmBase d.hbmBytes im.rsvBase im.rsvBytes &&
    decide (d.deepBase % 0x40000000 = 0) && decide (d.deepBytes % 0x40000000 = 0) &&
    (decide (d.deepBytes = 0) || inside d.deepBase d.deepBytes deepDpa (0x40000000 * s.hbm.deepGiB)) &&
    decide (d.root % 0x200000 = 0) && inside d.root (0x200000) d.hbmBase d.hbmBytes &&
    decide (65536 * (d.kvHbmPages + d.objHbmPages) ≤ d.hbmBytes) && decide (65536 * d.kvDeepPages ≤ d.deepBytes) &&
    decide (d.kvRegion % 0x40000000 = 0) && decide (d.kvRanges ≤ 65536) && decide (d.kvRegion + d.kvRanges * 2 ^ d.kvRangeLog2 ≤ 0x1000000000000) &&
    (!d.unified || (decide (d.hbmWinVa = 0) && decide (d.hbmWinBytes = 0) && decide (d.slowWinVa = 0) && decide (d.slowWinBytes = 0)))

/-- Two coves share nothing that only one may hold (R216, R393, R554). -/
def covesApart (a b : CoveDecl) : Bool :=
  !overlaps a.streamFirst a.streamCount b.streamFirst b.streamCount && !overlaps a.ctrFirst a.ctrCount b.ctrFirst b.ctrCount &&
    !overlaps a.hbmBase a.hbmBytes b.hbmBase b.hbmBytes && !overlaps a.deepBase a.deepBytes b.deepBase b.deepBytes &&
    decide (a.coreMask &&& b.coreMask = 0) && decide (a.atnMask &&& b.atnMask = 0) && decide (a.shoal &&& b.shoal = 0)

/-- R554: BATCH_ADDR translates to a Mere outside the reserved ranges; `s` stands as if the image were in force. -/
def State.batchOk (s : State) (c : Nat) (d : CoveDecl) : Bool :=
  (pieces d.batchAddr (12 * s.stepTokens c)).all fun p => match s.translate c p.1 p.2 .write with
    | .ok (.dpa a) => decide (s.region a = .mere) && !s.reserved a
    | _ => false

/-- Whether a page of a cove's address space is one that a stream owns. -/
def State.kvPageAt (s : State) (c va : Nat) : Bool := s.strm.any fun x => (x.2.pages ++ x.2.oldPages).any fun k => k.cove = c && k.va = va

/-- R306: the KV region overlaps no software leaf; `s` stands as if the image were in force. -/
def State.kvRegionClear (s : State) (c : Nat) (d : CoveDecl) : Bool :=
  (List.range (d.kvRanges * 2 ^ (d.kvRangeLog2 - 16))).all fun i =>
    let va := d.kvRegion + 65536 * i
    s.kvPageAt c va || match s.walk c va with
      | .ok _ => false
      | .error _ => true

/-- R581: the cove's KV pool and its objects' slow copies in host memory. -/
def State.hostCopiesOk (s : State) (im : Image) (c : Nat) (d : CoveDecl) : Bool :=
  (decide (d.kvHostPages = 0) || (decide (hostDpa ≤ d.kvHostBase) && im.hostRange c (d.kvHostBase - hostDpa) (65536 * d.kvHostPages))) &&
    s.objs.all fun o => decide (o.1 / 16384 ≠ c) || decide (o.2.word.state = .free) || decide (o.2.decl.slowBase < hostDpa) ||
      im.hostRange c (o.2.decl.slowBase - hostDpa) o.2.decl.bytes

/-- Row 8 for a COVE section. -/
def State.row8Cove (s : State) (im : Image) (c : Nat) (d : CoveDecl) : Bool :=
  let s' := s.asIf im
  s.coveOk im d && ((im.coveList.filter fun x => x.1 ≠ c).all fun x => covesApart d x.2) && s.hostCopiesOk im c d && s'.batchOk c d &&
    s'.kvRegionClear c d

/-- R308: the areas of a KV map: from the layer region's start to the end of its value area, or of its key area where
that ends later. -/
def kvMapOk (range : Nat) (kv : List KvEntry) : Bool :=
  let area (k : KvEntry) : Nat := Nat.max (k.vOff + k.slots * k.vPitch) (k.slots * k.kPitch)
  (kv.all fun k => decide (k.layerOff + k.vOff + k.slots * k.vPitch ≤ range) && decide (k.layerOff % 65536 = 0) && decide (k.vOff % 65536 = 0)) &&
    kv.zipIdx.all fun x => kv.zipIdx.all fun y => decide (x.2 = y.2) || !overlaps x.1.layerOff (area x.1) y.1.layerOff (area y.1)

/-- R318, Table 08.9. A schedule with no entry is none. -/
def schedOk (unified : Bool) (x : Schedule) : Bool :=
  x.entries.isEmpty ||
    (decide (x.lead ≤ 15) && decide ((x.entries.map SchedEntry.layer).Pairwise (· < ·)) &&
      (if x.mode = 1 then within (x.lead + 1) x.nbuf 16 &&
          x.entries.all fun a => x.entries.all fun b => decide (a.layer % x.nbuf ≠ b.layer % x.nbuf) || decide (a.dstVa = b.dstVa)
        else decide (x.mode = 2) && unified && decide (x.nbuf = 0)))

/-- A slot of an image. -/
def Image.slotAt (im : Image) (c sl : Nat) : Option SlotDecl := if sl < 8 then vget none im.slots (c * 8 + sl) else none

/-- Slots of a cove with GROUP set. -/
def Image.groupSlots (im : Image) (c : Nat) : List Nat := (List.range 8).filter fun sl => (im.slotAt c sl).any SlotDecl.group

/-- R308, R318, R467, R556 for a SLOT section, less its step program. -/
def Image.slotOk (im : Image) (i : Nat) (d : SlotDecl) : Bool :=
  match vget none im.coves (i / 8) with
  | none => false
  | some cv =>
    kvMapOk (2 ^ cv.kvRangeLog2) d.kv && schedOk cv.unified d.sched && decide ((im.groupSlots (i / 8)).length ≤ 1) &&
      (!d.fallback || ((im.slotAt d.fbCove d.fbSlot).isSome && (vget none im.coves d.fbCove).isSome && (im.groupSlots d.fbCove).isEmpty))

/-- Row 8 of Table 15.10: every rule that refuses an image with RANGE, but for the step programs of R556. -/
def State.row8 (s : State) (im : Image) : Refused :=
  let at_ (t : Nat) (ok : Bool) : Nat × Bool := (secIndex im.sections t 0, ok)
  firstFail .range
    ((im.sections.zipIdx.map fun x => (x.2, sectionOk x.1 && decide (fld (tableEntryAt im.raw x.2) 3 1 = 0))) ++
      [at_ 1 (s.platformOk im), at_ 2 im.regsOk, at_ 3 im.nodesOk, at_ 4 im.portsOk, at_ 5 im.routesOk, at_ 6 im.activitiesOk,
       at_ 7 im.windowsOk, at_ 8 (s.spareOk im), at_ 11 im.placementsOk] ++
      (im.coveList.map fun x => (secIndex im.sections 0x10 x.1, s.row8Cove im x.1 x.2)) ++
      ((List.range 64).filterMap fun i => (vget none im.slots i).map fun d => (secIndex im.sections 0x11 i, im.slotOk i d)))

/-- Row 9 of Table 15.10 (R550, R280). -/
def State.row9 (s : State) (im : Image) : Refused :=
  if im.rsvBytes < 626 * 0x100000 + 64 * 2 ^ im.ringLog2 ∨ s.hbm.noNumber then some (.noResource, secIndex im.sections 1 0) else none

/-- Table 15.10. -/
def State.stageRefusal (s : State) (im : Image) (len : Nat) : Refused :=
  match s.rows1to5 im len with
  | some r => some r
  | none => orElseRefused [s.row6 im, s.row7 im, s.row8 im, s.row9 im]

/-! ### Step programs (R556) -/

/-- Bytes that the template of an entry requires at STEP_SEQS streams and STEP_TOKENS rows; none where the template
cannot be read. -/
def State.instNeed (s : State) (c : Nat) (e : List Byte) : Option Nat :=
  let t := peTemplate e
  let tok := s.stepTokens c
  match peKind e with
  | 1 => match s.peek c t 64 with
    | .error _ => none
    | .ok h => match s.listEntries c (fld h 0x10 8) (fld h 8 4) with
      | .error _ => none
      | .ok es => match s.readAll c 160 (es.map Prod.fst).eraseDups with
        | .error _ => none
        | .ok ds => some (64 + 16 * (ds.map fun x => ((tok + 255) / 256) * ((fld x.2 8 4 + 127) / 128)).sum)
  | 2 => match s.peek c t 256 with
    | .error _ => none
    | .ok x =>
      let hkv := fld x 6 2
      let g := fld x 4 2 / Nat.max 1 hkv
      some (256 * s.stepSeqs c + 64 + 16 * hkv * fld x 0xA 1 * ((tok * g + 127) / 128 + s.stepSeqs c))
  | 6 => some 0
  | 7 => some 0
  | _ => some 128

/-- One entry of a step program: its refusal's status, if it has one. -/
def State.progEntryRefusal (s : State) (c : Nat) (d : SlotDecl) (e : List Byte) : Option Status :=
  let k := peKind e
  if k = 0 ∨ 7 < k ∨ 2 ≤ fld e 1 1 ∨ 1024 ≤ peLayer e ∨ fld e 0x1C 4 ≠ 0 then some .range
  else if k = 2 ∧ !(d.kv.any fun m => m.layer = peLayer e) then some .range
  else match s.instNeed c e with
    | none => some .permission
    | some n => if k ≠ 6 ∧ peBytes e < n then some .range else none

/-- The step program of a slot: the status of the first entry that fails. -/
def State.progRefusal (s : State) (c : Nat) (d : SlotDecl) : Option Status :=
  (List.range d.stepCount).findSome? fun k => match s.progEntry c d k with
    | .error _ => some .permission
    | .ok e => s.progEntryRefusal c d e

/-- R556: the step programs of an image, read as if it were in force. -/
def State.programRefusal (s : State) (im : Image) : Refused :=
  let s' := s.asIf im
  ((List.range 64).filterMap fun i => (vget none im.slots i).bind fun d =>
      (s'.progRefusal (i / 8) d).map fun st => (st, secIndex im.sections 0x11 i)).foldl (fun r x => match r with
    | none => some x
    | some y => if x.2 < y.2 then some x else some y) none

end Sys2Proof.Machine
end

