-- ==== Sys2Proof/Machine/Intake.lean ====
section
/-! DEFINITION. Sys2Proof/Machine/Intake.lean: what the Inlet makes of a load's source: the weight-packing stream,
source formats, conversion and relayout (spec/09_weight_intake.md, R337 to R347). -/
namespace Sys2Proof.Machine
open Sys2Proof

/-- A little-endian field of a byte list. -/
def fldOf (d : List Byte) (off n : Nat) : Nat := leNat ((d.drop off).take n)

/-! ### The weight-packing stream (Table 09.6, R342) -/

/-- Code lengths of a coded plane: symbol 2i in the low half of byte i. -/
def codeLengths (b : List Byte) : List Nat := b.flatMap fun x => [x.toNat % 16, x.toNat / 16]

/-- The canonical codes: symbol, length, codeword; lengths ascending from `b`, with the first code of the length. -/
def canonicalCodes (lens : List Nat) : List (Nat × Nat × Nat) :=
  let count (b : Nat) : Nat := if b = 0 then 0 else (lens.filter fun l => l = b).length
  let first := (List.range 15).foldl (fun (f : List Nat) i => f ++ [2 * (nth 0 f i + count i)]) [0]
  (List.range 15).flatMap fun i =>
    let b := i + 1
    let syms := (lens.zipIdx.filter fun x => x.1 = b).map Prod.snd
    syms.zipIdx.map fun x => (x.1, b, nth 0 first b + x.2)

/-- R342: a set of lengths is sound: some symbol, and a Kraft sum of at most 1. -/
def lengthsOk (lens : List Nat) : Bool :=
  lens.any (· ≠ 0) && decide (((lens.filter (· ≠ 0)).map fun l => 2 ^ (15 - l)).sum ≤ 0x8000)

/-- Read one symbol: bits from `pos` on, the first the most significant; its symbol and the position behind it. -/
def readSymbol (codes : List (Nat × Nat × Nat)) (stream limit : Nat) : Nat → Nat → Nat → Nat → Option (Nat × Nat)
  | 0, _, _, _ => none
  | fuel + 1, len, code, pos =>
    if limit ≤ pos then none
    else
      let code := 2 * code + bits stream pos 1
      match codes.find? fun c => c.2.1 = len + 1 ∧ c.2.2 = code with
      | some c => some (c.1, pos + 1)
      | none => readSymbol codes stream limit fuel (len + 1) code (pos + 1)

/-- Read `n` symbols from exactly `limit` bits. -/
def readSymbols (codes : List (Nat × Nat × Nat)) (stream limit : Nat) : Nat → Nat → Option (List Byte)
  | 0, pos => if pos = limit then some [] else none
  | n + 1, pos =>
    match readSymbol codes stream limit 15 0 0 pos with
    | none => none
    | some (sym, pos) => (readSymbols codes stream limit n pos).map fun l => BitVec.ofNat 8 sym :: l

/-- One plane of `n` bytes, and the bytes behind it. -/
def readPlane (n : Nat) (b : List Byte) : Option (List Byte × List Byte) :=
  match b with
  | [] => none
  | m :: r =>
    if m = 0 then (if r.length < n then none else some (r.take n, r.drop n))
    else if m = 1 then (match r with
      | [] => none
      | x :: r => some (List.replicate n x, r))
    else if m = 2 then
      let lens := codeLengths (r.take 128)
      let bitCount := fldOf r 128 4
      let code := r.drop 132
      let k := (bitCount + 7) / 8
      if r.length < 132 ∨ code.length < k ∨ !lengthsOk lens then none
      else (readSymbols (canonicalCodes lens) (leNat (code.take k)) bitCount n 0).map fun l => (l, code.drop k)
    else none

/-- `j` planes of `n` bytes from a payload that they use up. -/
def readPlanes (n : Nat) : Nat → List Byte → Option (List (List Byte))
  | 0, b => if b.isEmpty then some [] else none
  | j + 1, b =>
    match readPlane n b with
    | none => none
    | some (p, r) => (readPlanes n j r).map fun l => p :: l

/-- The decoded bytes of one frame's payload. -/
def readFrame (type elem raw : Nat) (payload : List Byte) : Option (List Byte) :=
  match type with
  | 0 => if elem = 1 ∧ payload.length = raw then some payload else none
  | 1 => if payload.length = elem then some ((List.replicate (raw / elem) payload).flatten) else none
  | 2 => (readPlanes (raw / elem) elem payload).map fun ps => (List.range (raw / elem)).flatMap fun i => ps.map fun p => nth 0 p i
  | _ => none

/-- The frames of a stream up to END, which nothing follows. -/
def readFrames : Nat → List Byte → Option (List Byte)
  | 0, _ => none
  | fuel + 1, b =>
    let type := fldOf b 0 1
    let elem := fldOf b 1 1
    let raw := fldOf b 4 4
    let packed := fldOf b 8 4
    let rest := b.drop 12
    if b.length < 12 ∨ fldOf b 2 2 ≠ 0 then none
    else if type = 0xFF then (if elem = 1 ∧ raw = 0 ∧ packed = 0 ∧ rest.isEmpty then some [] else none)
    else if (elem ≠ 1 ∧ elem ≠ 2 ∧ elem ≠ 4) ∨ raw = 0 ∨ 1048576 < raw ∨ raw % elem ≠ 0 ∨ rest.length < packed then none
    else match readFrame type elem raw (rest.take packed) with
      | none => none
      | some l => (readFrames fuel (rest.drop packed)).map fun r => l ++ r

/-- Table 09.6, R342: the decoded stream of a weight-packing stream. -/
def unpackStream (b : List Byte) : Option (List Byte) :=
  if b.length < 16 ∨ fldOf b 0 4 ≠ 0x31435057 ∨ fldOf b 4 1 ≠ 1 ∨ fldOf b 5 3 ≠ 0 then none
  else match readFrames b.length (b.drop 16) with
    | some l => if l.length = fldOf b 8 8 then some l else none
    | none => none

/-! ### Tensor entries (Table 09.2) -/

/-- Fields of a tensor entry. -/
def tnSrcOff (e : List Byte) : Nat := fldOf e 0x00 8
def tnSrcLd (e : List Byte) : Nat := fldOf e 0x08 4
def tnSrcFmt (e : List Byte) : Nat := fldOf e 0x0C 1
def tnKN (e : List Byte) : Bool := decide (fldOf e 0x0D 1 = 1)
def tnGainSrc (e : List Byte) : Bool := bit (fldOf e 0x0E 1) 0
def tnK (e : List Byte) : Nat := fldOf e 0x10 4
def tnN (e : List Byte) : Nat := fldOf e 0x14 4
def tnWord (e : List Byte) : Nat := fldOf e 0x18 4
def tnGain (e : List Byte) : Nat := fldOf e 0x1C 4
def tnSeed (e : List Byte) : Nat := fldOf e 0x20 4
def tnDst (e : List Byte) : Nat := fldOf e 0x28 8
def tnGainOff (e : List Byte) : Nat := fldOf e 0x30 8
def tnSrcGain (e : List Byte) : Nat := fldOf e 0x38 8

/-- GAIN_MODE and ROUND of DST_FMTW. -/
def tnMode (e : List Byte) : Nat := bits (tnWord e) 4 2
def tnRound (e : List Byte) : Bool := bit (tnWord e) 6

/-- The destination format. -/
def tnFmt (e : List Byte) : Option Fmt := fmtOfCode (bits (tnWord e) 0 4)

/-- Table 09.4: source formats that are converted, and whether they are OCP MX formats. -/
def convertedSource : Nat → Option (Fmt × Bool)
  | 0x01 => some (.bf16, false)
  | 0x03 => some (.e4m3, false)
  | 0x04 => some (.e5m2, false)
  | 0x10 => some (.e4m3, true)
  | 0x11 => some (.e5m2, true)
  | 0x12 => some (.e3m2, true)
  | 0x13 => some (.e2m3, true)
  | _ => none

/-- Table 09.4: destinations of a conversion. -/
def convertedDest (f : Fmt) : Bool :=
  decide (f ∈ [Fmt.nb4f, .nb4i, .nb3, .nb2, .mxfp4, .bf16, .e4m3, .e5m2, .e3m2, .e2m3, .e2m1])

/-- Table 09.4: a native format loaded as itself is copied. FP8 stands in both rows: as itself, without ROUND, under NK it
is copied (DEDUCED, log 22). -/
def tnCopied (e : List Byte) (f : Fmt) : Bool :=
  !tnKN e && decide (2 ≤ tnSrcFmt e) && decide (tnSrcFmt e = f.code) && !(tnRound e && (convertedSource (tnSrcFmt e)).isSome)

/-- Elements and number of source rows. -/
def tnRowLen (e : List Byte) : Nat := if tnKN e then tnN e else tnK e
def tnRows (e : List Byte) : Nat := if tnKN e then tnK e else tnN e

/-- Number of gains of R340. -/
def tnGains (e : List Byte) : Nat := (tnN e + 127) / 128 * ((tnK e + 511) / 512)

/-- Whether a gain array is written at GAIN_OFF. -/
def tnHasGains (e : List Byte) : Bool := decide (tnMode e = 2) || tnGainSrc e

/-- R340: LD_OUT. -/
def tnLdOut (e : List Byte) (f : Fmt) : Nat := if f.isBlock then f.rowBytes (tnK e) else (f.rowBytes (tnK e) + 63) / 64 * 64

/-- Source bytes per element, in 1/32 bytes (R339). -/
def tnUnit (f : Fmt) (mx : Bool) : Nat := 4 * f.width + b2n mx

/-- R338, R339, Table 09.4: whether a tensor entry is sound. -/
def tensorOk (e : List Byte) : Bool :=
  match tnFmt e with
  | none => false
  | some f =>
    let gm := tnMode e
    let common := decide (f ≠ .fp32) && decide (bits (tnWord e) 7 25 = 0) && decide (gm ≠ 3) && (decide (gm = 0) || f.isNB) &&
      (decide (gm ≠ 1) || gainOk (tnGain e)) && f.lengthOk (tnK e) && decide (tnK e ≤ 1048576) && decide (tnN e ≤ 1048576) &&
      decide (tnDst e % 64 = 0) && (!tnHasGains e || decide (tnGainOff e % 64 = 0))
    if tnCopied e f then
      common && !tnRound e && decide (gm ≠ 2) && (!tnGainSrc e || (f.isNB && decide (gm = 0)))
    else match convertedSource (tnSrcFmt e) with
      | none => false
      | some (g, mx) =>
        common && convertedDest f && !tnGainSrc e && (!tnRound e || decide (f.width ≤ 8)) &&
          (!tnKN e || decide (512 * tnN e * tnUnit g mx ≤ 32 * 0x1000000)) &&
          (tnKN e || decide (gm ≠ 2) || decide (128 * tnK e * tnUnit g mx ≤ 32 * 0x1000000))

/-- Table 09.4: source formats that are not reserved. -/
def sourceFmtOk (n : Nat) : Bool := (decide (1 ≤ n) && decide (n ≤ 0x0E)) || (decide (0x10 ≤ n) && decide (n ≤ 0x13))

/-- Table 09.3, first row, as it concerns a tensor entry: reserved fields and values, those of its format word (Table 02.5)
among them, and fields that may not be zero. -/
def tensorFields (e : List Byte) : Bool :=
  decide (fldOf e 0x0D 1 < 2) && decide (fldOf e 0x0E 1 < 2) && decide (tnK e ≠ 0) && decide (tnN e ≠ 0) && sourceFmtOk (tnSrcFmt e) &&
    (tnFmt e).isSome && decide (tnMode e ≠ 3) && decide (bits (tnWord e) 7 25 = 0)

/-- Source extents of a tensor: its rows, and its gains under GAIN_SRC. -/
def tnExtents (e : List Byte) : List (Nat × Nat) :=
  (tnSrcOff e, tnSrcLd e * tnRows e) :: (if tnGainSrc e then [(tnSrcGain e, 4 * tnGains e)] else [])

/-- Areas of the object that a tensor writes. -/
def tnAreas (e : List Byte) : List (Nat × Nat) :=
  match tnFmt e with
  | none => []
  | some f => (tnDst e, tnLdOut e f * tnN e) :: (if tnHasGains e then [(tnGainOff e, 4 * tnGains e)] else [])

/-- Extents in ascending order without overlap. -/
def ascending : Nat → List (Nat × Nat) → Bool
  | _, [] => true
  | a, x :: xs => decide (a ≤ x.1) && ascending (x.1 + x.2) xs

/-- Areas that do not overlap one another. -/
def apart : List (Nat × Nat) → Bool
  | [] => true
  | x :: xs => (xs.all fun y => decide (x.1 + x.2 ≤ y.1) || decide (y.1 + y.2 ≤ x.1)) && apart xs

/-! ### Conversion and relayout (R340, R343 to R346) -/

/-- What one tensor gives: result rows at DST_OFF, gains at GAIN_OFF, events, and whether a source gain failed R76. -/
structure TensorOut where
  bytes : List Byte
  gains : List Byte := []
  ev : QEvents := {}
  badGain : Bool := false

/-- Bytes of a source row. -/
def sourceRow (stream e : List Byte) (i n : Nat) : List Byte := (stream.drop (tnSrcOff e + i * tnSrcLd e)).take n

/-- Bytes brought to a length with zeros. -/
def padTo (n : Nat) (b : List Byte) : List Byte := b.take n ++ List.replicate (n - b.length) 0

/-- R70: a copied block row, with the padding blocks of its last group zero. -/
def clearPadding (f : Fmt) (k : Nat) (b : List Byte) : List Byte :=
  b.zipIdx.map fun x =>
    let p := x.2 % f.groupBytes
    let blk := 16 * (x.2 / f.groupBytes) + (if p < 16 * f.blockBytes then p / f.blockBytes else p - 16 * f.blockBytes)
    if k / 32 ≤ blk then 0 else x.1

/-- R343: a copied tensor. -/
def copyTensor (stream e : List Byte) (f : Fmt) : TensorOut :=
  let row (i : Nat) : List Byte :=
    let b := padTo (f.rowBytes (tnK e)) (sourceRow stream e i (f.rowBytes (tnK e)))
    padTo (tnLdOut e f) (if f.isBlock then clearPadding f (tnK e) b else b)
  let gains := if tnGainSrc e then padTo (4 * tnGains e) ((stream.drop (tnSrcGain e)).take (4 * tnGains e)) else []
  { bytes := (List.range (tnN e)).flatMap row, gains,
    badGain := tnGainSrc e && (List.range (tnGains e)).any fun i => !gainOk (fldOf gains (4 * i) 4) }

/-- R91: the value of element `i` of a source row of `n` elements. -/
def sourceElem (g : Fmt) (mx : Bool) (row n i : Nat) : XNum :=
  let x := decodeElem g (packedCode row g.width i)
  if !mx then x
  else
    let sc := bits row (8 * ((g.width * n + 7) / 8 + i / 32)) 8
    if sc = 255 then .nan else (XNum.fin false (pow2 ((sc : Int) - 127))).mul x

/-- Bytes of a source row of a converted format. -/
def sourceBytes (g : Fmt) (mx : Bool) (n : Nat) : Nat := (g.width * n + 7) / 8 + (if mx then (n + 31) / 32 else 0)

/-- The source rows as numbers. -/
def sourceRows (stream e : List Byte) (g : Fmt) (mx : Bool) : List Nat :=
  (List.range (tnRows e)).map fun i => leNat (sourceRow stream e i (sourceBytes g mx (tnRowLen e)))

/-- Row `n` of the weight operand, as exact values. -/
def operandRow (rows : List Nat) (e : List Byte) (g : Fmt) (mx : Bool) (n : Nat) : List XNum :=
  (List.range (tnK e)).map fun k => if tnKN e then sourceElem g mx (nth 0 rows k) (tnN e) n else sourceElem g mx (nth 0 rows n) (tnK e) k

/-- R81, R345: the rounding of element `k` of row `n`. -/
def operandRnd (e : List Byte) (n k : Nat) : Rnd :=
  if tnRound e then .sr (srBits (tnSeed e) (n / 128 * ((tnK e + 511) / 512) + k / 512) (n % 128 * 512 + k % 512)) else .rne

/-- R344: the gain of a B gain tile: chosen by R90 under GAIN_MODE 0b10, given, or 1. -/
def tileGain (e : List Byte) (f : Fmt) (m : List (List XNum)) (tj kg : Nat) : XNum :=
  match tnMode e with
  | 2 => autoGain f (((m.drop (128 * tj)).take 128).flatMap fun r => (r.drop (512 * kg)).take 512)
  | 1 => numOf32 (tnGain e)
  | _ => .fin false 1

/-- R343: a converted tensor: each 512 elements of a row under the gain of their gain tile. -/
def convertTensor (stream e : List Byte) (f g : Fmt) (mx : Bool) : TensorOut :=
  let rows := sourceRows stream e g mx
  let m := (List.range (tnN e)).map fun n => operandRow rows e g mx n
  let nk := (tnK e + 511) / 512
  let gains := (List.range ((tnN e + 127) / 128)).map fun tj => (List.range nk).map fun kg => tileGain e f m tj kg
  let enc (n : Nat) (xs : List XNum) : List Byte × QEvents :=
    if f.isBlock then
      (chunksOf 512 nk xs).zipIdx.foldl (fun (a : List Byte × QEvents) x =>
        let r := encodeRow f (nth (XNum.fin false 1) (nth [] gains (n / 128)) x.2) (fun i => operandRnd e n (512 * x.2 + i)) x.1
        (a.1 ++ r.1, a.2.add r.2)) ([], {})
    else encodeRow f (.fin false 1) (fun i => operandRnd e n i) xs
  let outs := m.zipIdx.map fun x => enc x.2 x.1
  { bytes := outs.flatMap fun x => padTo (tnLdOut e f) x.1,
    gains := if tnMode e = 2 then gains.flatMap fun r => r.flatMap fun x => leBytes 4 (to32 x) else [],
    ev := outs.foldl (fun a x => a.add x.2) {} }

/-- R343: what a tensor entry makes of the decoded stream. -/
def tensorOut (stream e : List Byte) : TensorOut :=
  match tnFmt e with
  | none => { bytes := [] }
  | some f =>
    if tnCopied e f then copyTensor stream e f
    else match convertedSource (tnSrcFmt e) with
      | some (g, mx) => convertTensor stream e f g mx
      | none => { bytes := [] }

/-- Put bytes into an area of a byte list. -/
def overlay (l : List Byte) (off : Nat) (b : List Byte) : List Byte := l.take off ++ b ++ l.drop (off + b.length)

/-- R333, R340: the bytes of the object: results and gains, zeros elsewhere. -/
def objectBytes (n : Nat) (es : List (List Byte × TensorOut)) : List Byte :=
  es.foldl (fun l x => overlay (overlay l (tnDst x.1) x.2.bytes) (tnGainOff x.1) x.2.gains) (List.replicate n 0)

end Sys2Proof.Machine
end

