-- ==== Sys2Proof/Machine/Inlet.lean ====
section
/-! DEFINITION. Sys2Proof/Machine/Inlet.lean: loads (spec/09_weight_intake.md, R328 to R348). -/
namespace Sys2Proof.Machine
open Sys2Proof

/-- INL registers of a cove (Table 09.10). -/
def inlOff (c r : Nat) : Nat := coveOff blkINL c r

/-- Change the INL block. -/
def State.modInl (s : State) (f : Inl → Inl) : State := { s with inl := f s.inl }

/-- A load context. -/
def State.loadCtx (s : State) (x : Nat) : Option LoadCtx := vget none s.inl.ctx x

/-- Set a load context. -/
def State.setCtx (s : State) (x : Nat) (k : Option LoadCtx) : State := s.modInl fun i => { i with ctx := vmod i.ctx x fun _ => k }

/-! ### Posting (R328) -/

/-- R328: post a load. -/
def State.loadPost (s : State) (c addr : Nat) : State :=
  if 16 ≤ (vget [] s.inl.queues c).length then s.queueFlag c (inlOff c 8) 16
  else s.modInl fun i => { i with queues := vmod i.queues c fun q => q ++ [addr] }

/-- LOAD_POST (R328): a write of LOAD_POST_HI. -/
def execLoadPost (c : Cove) (lo : Option Word) (hi : Word) (s : State) : Host.Outcome State Fault Refusal :=
  .next (s.whileOn fun s => s.loadPost c.val ((lo.getD (s.reg (inlOff c.val 0))).toNat + 0x100000000 * hi.toNat))

/-! ### The load descriptor (Table 09.1) -/

/-- Fields of a load descriptor. -/
def ldFlags (d : List Byte) : Nat := fldOf d 1 1
def ldEncrypted (d : List Byte) : Bool := bit (ldFlags d) 0
def ldPacked (d : List Byte) : Bool := bit (ldFlags d) 1
def ldKeep (d : List Byte) : Bool := bit (ldFlags d) 2
/-- DEST: the load writes HBM pages; the load writes the slow copy. -/
def ldHbm (d : List Byte) : Bool := bit (fldOf d 2 1) 0
def ldSlow (d : List Byte) : Bool := bit (fldOf d 2 1) 1
def ldObj (d : List Byte) : Nat := fldOf d 4 2
def ldKey (d : List Byte) : Nat := fldOf d 6 1
def ldAct (d : List Byte) : Nat := fldOf d 7 1
def ldSrc (d : List Byte) : Nat := fldOf d 8 8
def ldBytes (d : List Byte) : Nat := fldOf d 0x10 8
def ldTweak (d : List Byte) : Nat := fldOf d 0x18 8
def ldTensorAddr (d : List Byte) : Nat := fldOf d 0x20 8
def ldTensors (d : List Byte) : Nat := fldOf d 0x28 2
def ldDone (d : List Byte) : Nat := fldOf d 0x2C 4

/-- The tensor entries of a tensor table. -/
def tensorList (t : List Byte) : List (List Byte) := chunksOf 64 ((t.length + 63) / 64) t

/-- The model key of a slot, while it may be used for a cove (R529, R532). -/
def State.modelKey (s : State) (c k : Nat) : Option ModelKey :=
  (vget none s.wh.keys k).bind fun m => if m.cove = c ∧ m.usable then some m else none

/-- The key that an encrypted load uses. -/
def State.loadKey (s : State) (c : Nat) (d : List Byte) : Option (List Byte) :=
  if ldEncrypted d then (s.modelKey c (ldKey d)).map fun m => m.key else none

/-- Table 09.3: every leaf of the source is TIER 2 with READ; whether a host window admits the source is found as it is
read. -/
def State.sourceOk (s : State) (c : Nat) (d : List Byte) : Bool :=
  let a := ldSrc d / 65536 * 65536
  (List.range ((ldSrc d - a + ldBytes d + 65535) / 65536)).all fun i => match s.walk c (a + 65536 * i) with
    | .ok w => decide (bits w.entry 6 2 = 2) && bit w.entry 3
    | .error _ => false

/-- The first row of Table 09.3, as it concerns the descriptor. -/
def loadFields (addr : Nat) (d : List Byte) : Bool :=
  decide (fldOf d 0 1 = 0x31) && decide (ldFlags d < 8) && decide (fldOf d 2 1 ≠ 0) && decide (fldOf d 2 1 < 4) && decide (ldObj d < 16384) &&
    (!ldEncrypted d || decide (ldKey d < 32)) && decide (ldTensors d ≤ 256) && decide (fldOf d 0x2A 2 = 0) && decide (ldDone d < 0x20000) &&
    ((d.drop 0x38).take 72).all (· == 0) && decide (addr % 32 = 0)

/-- Table 09.3: whether a load's tensors fit the object and the source. -/
def State.tensorsOk (s : State) (c : Nat) (d : List Byte) (es : List (List Byte)) : Bool :=
  let ext := es.flatMap tnExtents
  let areas := es.flatMap tnAreas
  es.all tensorOk && ascending 0 ext && (ldPacked d || ext.all fun x => decide (x.1 + x.2 ≤ ldBytes d)) &&
    (areas.all fun x => decide (x.1 + x.2 ≤ (s.obj c (ldObj d)).decl.bytes)) && apart areas

/-- Table 09.3: the first check that a load fails. The decompressor is fitted in every ordering code (Table 00.3). -/
def State.loadCheck (s : State) (c addr : Nat) (d : List Byte) (es : List (List Byte)) : Option Status :=
  let o := s.obj c (ldObj d)
  let plain := (s.image.map fun im => bit im.plainOk c).getD false
  if !loadFields addr d || !es.all tensorFields then some .range
  else if ((s.cove c).map fun v => v.objCount).getD 0 ≤ ldObj d then some .range
  else if o.word.state ≠ .absent then some .busy
  else if ldSlow d ∧ s.hbm.deepGiB = 0 then some .absentUnit
  else if ldSlow d && !inside o.decl.slowBase o.decl.bytes deepDpa (0x40000000 * s.hbm.deepGiB) then some .range
  else if !ldEncrypted d && !plain then some .permission
  else if ldEncrypted d && (s.modelKey c (ldKey d)).isNone then some .permission
  else if ldBytes d % 16 ≠ 0 ∨ (ldEncrypted d ∧ ldBytes d < 16) then some .range
  else if !s.sourceOk c d then some .permission
  else if !s.tensorsOk c d es then some .range
  else none

/-! ### Taking a load (R329 to R332) -/

/-- R330, R331: a load that ends at once: STATUS and DONE_CTR. -/
def State.loadAnswer (s : State) (c addr : Nat) (d : List Byte) (st : Status) : State :=
  (((s.poke c unitInlet 0 (addr + 3) (leBytes 1 st.code)).1).noteStatus c st).applyDone (ldDone d)

/-- R332, R360: take what the pool can give of the pages of a load's object: all of them, which become the object's, or
some, which the context holds while it waits for the rest. -/
def State.loadPages (s : State) (x : Nat) (k : LoadCtx) : State × Bool :=
  let n := (s.obj k.cove k.obj).decl.npages
  let ps := k.pages ++ s.objFreePages k.cove (n - k.pages.length)
  if ps.length = n then
    ((s.setCtx x (some { k with waiting := false, pages := [] })).modObj k.cove k.obj fun o => { o with pages := ps, moved := 0 }, true)
  else (s.setCtx x (some { k with waiting := true, pages := ps }), false)

/-- R334: an abort. -/
def State.loadAbort (s : State) (x : Nat) (st : Status) : State :=
  match s.loadCtx x with
  | none => s
  | some k =>
    let s := (s.setCtx x none).modObj k.cove k.obj fun o => { o with pages := [], moved := 0, slowValid := false, intake := none, loadStatus := st.code }
    let s := s.setWord k.cove k.obj fun w => { w with state := .absent, use := w.use - 1, lastStatus := st.code, tier := 0 }
    (s.bump (inlOff k.cove 0x28) 1).loadAnswer k.cove k.addr k.desc st

/-- R332: a load takes its pages, or makes the least-used eviction that is to free the rest; a load that no eviction can
help is aborted. -/
def State.loadWait (s : State) (x : Nat) (k : LoadCtx) : State :=
  match s.loadPages x k with
  | (s, true) => s
  | (s, false) =>
    match s.leastUsed k.cove 8 ((s.obj k.cove k.obj).decl.npages - ((s.loadCtx x).map fun k => k.pages.length).getD 0) 8 [] with
    | (s, true) => s
    | (s, false) => s.loadAbort x .noResource

/-- R332: a load has been accepted: LOADING, and its pages or the eviction that frees them. -/
def State.loadAccept (s : State) (x c addr : Nat) (d t : List Byte) : State :=
  let i := ldObj d
  let s := s.setWord c i fun w => { w with state := .loading, use := w.use + 1 }
  let k : LoadCtx := { cove := c, addr, desc := d, tensors := t, obj := i, key := s.loadKey c d }
  if ldHbm d then s.loadWait x k else s.setCtx x (some k)

/-! ### Intake records (R357) -/

/-- The tensor table that an intake record's descriptor names, as memory holds it now (R358). -/
def State.recordTensors (s : State) (c : Nat) (k : Intake) : Except AccErr (List Byte) :=
  s.peek c (ldTensorAddr k.desc) (64 * ldTensors k.desc)

/-- Tensor entries whose result or gains cover the page at an offset of the object. -/
def coverPage (es : List (List Byte)) (off : Nat) : List (List Byte) :=
  es.filter fun e => (tnAreas e).any fun a => overlaps a.1 a.2 off 65536

/-- R357: a rerun is made for the page of a refetch: its source is the intake record, and a tensor covers it, or the table
cannot be read. -/
def State.wantsRerun (s : State) (r : Refetch) : Bool :=
  let o := s.obj r.cove r.obj
  decide (r.source = 2) && o.intake.any fun k => match s.recordTensors r.cove k with
    | .ok t => !(coverPage (tensorList t) (o.decl.offsetOf r.va)).isEmpty
    | .error _ => true

/-- A context reruns the load of an object. -/
def State.rerunning (s : State) (c i : Nat) : Bool := s.inl.ctx.toList.any fun k => k.any fun k => k.refetch.isSome && k.cove == c && k.obj == i

/-- A refetch of an object waits for a load context (R357). -/
def State.rerunDue (s : State) : Bool := s.flt.refetch.any fun r => s.wantsRerun r && !s.rerunning r.cove r.obj

/-- R329: the next cove with a queued load and no running one. -/
def State.loadCove (s : State) : Option Nat :=
  ((List.range 8).map fun i => (s.inl.lastCove + 1 + i) % 8).find? fun c =>
    !(vget [] s.inl.queues c).isEmpty && !(s.inl.ctx.toList.any fun k => k.any fun k => k.cove == c && k.refetch.isNone)

/-- R601: pages that the read of a load's descriptor or of its tensor table waits for. -/
def State.loadPoison (s : State) (c addr : Nat) : List Nat :=
  (s.poisonPage c addr 128).toList ++ match s.peek c addr 128 with
    | .ok d => if loadFields addr d then (s.poisonPage c (ldTensorAddr d) (64 * ldTensors d)).toList else []
    | .error _ => []

/-- R329, R330, R667: a free context takes a load. -/
def State.loadTake (s : State) (x : Nat) : State :=
  if (s.loadCtx x).isSome ∨ s.rerunDue then s
  else match s.loadCove with
    | none => s
    | some c =>
      match vget [] s.inl.queues c with
      | [] => s
      | addr :: rest =>
        if !(s.loadPoison c addr).isEmpty then s
        else
        let s := s.modInl fun i => { i with queues := vmod i.queues c fun _ => rest, lastCove := c }
        let s := s.touch c unitInlet 0 addr 128
        match s.peek c addr 128 with
        | .error _ => s.queueFlag c (inlOff c 8) 17
        | .ok d =>
          if !loadFields addr d then s.loadAnswer c addr d .range
          else match s.peek c (ldTensorAddr d) (64 * ldTensors d) with
            | .error e => (s.accErr c unitInlet 0 (ldTensorAddr d) e).loadAnswer c addr d e.status
            | .ok t =>
              match s.loadCheck c addr d (tensorList t) with
              | some st => s.loadAnswer c addr d st
              | none =>
                if ldTensors d = 0 then (s.bump (inlOff c 0x20) 1).loadAnswer c addr d .done else s.loadAccept x c addr d t

/-- LOAD_TAKE (R330). -/
def execLoadTake (ctx : Fin 4) (s : State) : Host.Outcome State Fault Refusal := .next (s.unlessHalted fun s => if s.mayWork (0xD4 + ctx.val) then s.loadTake ctx.val else s)

/-! ### The pipeline (R341, R342, R347) -/

/-- R341: the bytes [a, a + n) of a source, which ends at SRC_BYTES, with the status of a read that fails; under a key they
come from the data units that hold them. SRC_BYTES is a multiple of 16, so no unit calls for ciphertext stealing. -/
def State.readSource (s : State) (c : Nat) (d : List Byte) (key : Option (List Byte)) (a n : Nat) : Except Status (List Byte) :=
  let got (lo n : Nat) : Except Status (List Byte) := match s.peek c (ldSrc d + lo) n with
    | .ok b => .ok b
    | .error e => .error e.status
  match key with
  | none => got a n
  | some k =>
    let lo := a / 4096 * 4096
    let hi := Nat.min (ldBytes d) ((a + n + 4095) / 4096 * 4096)
    (got lo (hi - lo)).map fun b =>
      (((chunksOf 4096 ((b.length + 4095) / 4096) b).zipIdx.flatMap fun x =>
        xtsDecrypt k (ldTweak d + lo / 4096 + x.2) x.1).drop (a - lo)).take n

/-- Put what each extent of a source holds in its place. -/
def State.readExtents (s : State) (c : Nat) (d : List Byte) (key : Option (List Byte)) : List (Nat × Nat) → List Byte → Except Status (List Byte)
  | [], l => .ok l
  | x :: xs, l =>
    match s.readSource c d key x.1 x.2 with
    | .error st => .error st
    | .ok b => State.readExtents s c d key xs (overlay l x.1 b)

/-- R341, R342: the decoded stream of a load, or the status of its fault. A stream that is not packed is read whole, or for a
rerun the extents given of it (R357). -/
def State.loadStream (s : State) (c : Nat) (d : List Byte) (key : Option (List Byte)) (es : List (List Byte)) (part : Option (List (Nat × Nat))) :
    Except Status (List Byte) :=
  let held (l : List Byte) : Except Status (List Byte) := if (es.flatMap tnExtents).all fun x => x.1 + x.2 ≤ l.length then .ok l else .error .range
  let whole := s.readSource c d key 0 (ldBytes d)
  if ldPacked d then
    match whole with
    | .error st => .error st
    | .ok b => match unpackStream b with
      | some l => held l
      | none => .error .range
  else match part with
    | none => match whole with
      | .error st => .error st
      | .ok b => held b
    | some xs => s.readExtents c d key xs (List.replicate (ldBytes d) 0)

/-- What a load makes: the bytes of its object and each tensor's result; or the status of its fault. A rerun makes the
tensors that cover a page, given by its offset (R357). -/
def State.loadResult (s : State) (k : LoadCtx) (page : Option Nat) : Except Status (List Byte × List (List Byte × TensorOut)) :=
  let es := tensorList k.tensors
  let made := match page with
    | some off => coverPage es off
    | none => es
  match s.loadStream k.cove k.desc k.key es (page.map fun _ => made.flatMap tnExtents) with
  | .error st => .error st
  | .ok l =>
    let outs := made.map fun e => (e, tensorOut l e)
    if outs.any fun x => x.2.badGain then .error .range else .ok (objectBytes (s.obj k.cove k.obj).decl.bytes outs, outs)

/-- R348: write a 64 KiB page in whole granules. -/
def State.writePage (s : State) (c dpa : Nat) (b : List Byte) : State :=
  (chunksOf 64 1024 b).zipIdx.foldl (fun s x => (s.writeGranule c (dpa + 64 * x.2) x.1).1) s

/-- Write the pages of an object at the DPAs given. -/
def State.writePages (s : State) (c : Nat) (b : List Byte) (dpas : List Nat) : State :=
  dpas.zipIdx.foldl (fun s x => s.writePage c x.1 ((b.drop (65536 * x.2)).take 65536)) s

/-- R346: the events of a tensor. -/
def TensorOut.sats (o : TensorOut) : Nat := o.ev.sat + o.ev.infBounded + o.ev.ovfFin + o.ev.ovfInf
def TensorOut.status (o : TensorOut) : Status := if o.ev.nan = 0 then .done else .range

/-- Table 09.5: the object after a load has completed. -/
def State.loadedObject (s : State) (c i : Nat) (d : List Byte) (key : Option (List Byte)) (st : Status) : State :=
  let s := s.modObj c i fun o => { o with slowValid := ldSlow d, loadStatus := st.code, intake := some { keep := ldKeep d, desc := d, key } }
  let o := s.obj c i
  let s :=
    if ldHbm d then
      if s.unified c then s.objLeaves c o.decl.va (s.hbmLeaves c o)
      else (s.objLeaves c o.decl.hbmVa (s.hbmLeaves c o)).objLeaves c o.decl.va o.decl.slowLeaves
    else s.objLeaves c o.decl.va o.decl.slowLeaves
  let s := s.setWord c i fun w => { w with state := if ldHbm d then .resident else .slow, tier := if ldHbm d then 1 else 2,
                                           use := w.use - 1, lastStatus := st.code }
  if ldHbm d then s.noteReady c i else s

/-- R333: a load completes. -/
def State.loadFinish (s : State) (x : Nat) (k : LoadCtx) (b : List Byte) (outs : List (List Byte × TensorOut)) : State :=
  let c := k.cove
  let d := k.desc
  let o := s.obj c k.obj
  let st : Status := if outs.any fun y => y.2.ev.nan ≠ 0 then .range else .done
  let s := ((s.charge 5 0 (ldAct d) (ldBytes d)).bump (inlOff c 0x30) (ldBytes d)).charge 0 0 (ldAct d) (b2n (ldHbm d) * o.decl.bytes)
  let s := if ldHbm d then s.writePages c b (o.pages.map fun p => ((s.cove c).map fun v => v.pageDpa p).getD 0) else s
  let s := if ldSlow d then s.writePages c b ((List.range o.decl.npages).map o.decl.slowDpa) else s
  let s := s.bump (inlOff c 0x38) (o.decl.bytes * (b2n (ldHbm d) + b2n (ldSlow d)))
  let s := outs.foldl (fun s y => ((s.bump (inlOff c 0x40) y.2.ev.nan).bump (inlOff c 0x48) y.2.sats).bump (inlOff c 0x50) y.2.ev.underflow) s
  let s := s.loadedObject c k.obj d k.key st
  let s := outs.zipIdx.foldl (fun s y =>
    let a := ldTensorAddr d + 64 * y.2
    let s := (s.poke c unitInlet 0 (a + 0x0F) (leBytes 1 y.1.2.status.code)).1
    (s.poke c unitInlet 0 (a + 0x24) (leBytes 4 (((tnFmt y.1.1).map fun f => tnLdOut y.1.1 f).getD 0))).1) s
  let s := (s.poke c unitInlet 0 (k.addr + 0x30) (leBytes 8 o.decl.bytes)).1
  ((s.setCtx x none).bump (inlOff c 0x20) 1).loadAnswer c k.addr d st

/-- R335: rank of a status that ends a load; POISONED, of a source leaf that cannot be read (R304), behind OBJECT_LOST. -/
def Status.loadRank : Status → Nat
  | .objectLost => 7
  | .poisoned => 6
  | .permission => 5
  | .timeout => 4
  | .cancelled => 3
  | .noResource => 2
  | .range => 1
  | _ => 0

/-- R335: the higher of a status and one that may not have arisen. -/
def higherLoad (a : Status) : Option Status → Status
  | some b => if a.loadRank < b.loadRank then b else a
  | none => a

/-- R334, R335, R341, R359: what aborts a load, the highest status first: a source read that failed (`some false`) or
timed out (`some true`), an erased key, a cancel. -/
def LoadCtx.abortCause (k : LoadCtx) (readFail : Option Bool) : Option Status :=
  if readFail = some false ∧ !k.waiting then some .objectLost
  else if ldEncrypted k.desc && k.key.isNone then some .permission
  else if readFail = some true ∧ !k.waiting then some .timeout
  else if k.cancelled then some .cancelled
  else none

/-- A read of the source that a translation fault ends leaves its records (R303, R304). -/
def State.sourceFault (s : State) (k : LoadCtx) : State :=
  match s.peek k.cove (ldSrc k.desc) (ldBytes k.desc) with
  | .ok _ => s
  | .error e => s.accErr k.cove unitInlet (ldAct k.desc) (s.errAt k.cove (ldSrc k.desc) (ldBytes k.desc)) e

/-- R333 to R335, R342: a load that has its pages runs through its pipeline. -/
def State.loadRun (s : State) (x : Nat) (k : LoadCtx) : State :=
  match s.loadResult k none with
  | .error st => (s.sourceFault k).loadAbort x (higherLoad st (k.abortCause none))
  | .ok (b, outs) => match k.abortCause none with
    | some st => s.loadAbort x st
    | none => s.loadFinish x k b outs

/-- R332 to R335: the load of a context goes on: one that waits for pages takes them, or asks again, unless something aborts
it; one that has them runs. -/
def State.loadComplete (s : State) (x : Nat) : State :=
  match s.loadCtx x with
  | none => s
  | some k =>
    if k.refetch.isSome then s
    else if !k.waiting then s.loadRun x k
    else match k.abortCause none with
      | some st => s.loadAbort x st
      | none =>
        let s := s.loadWait x k
        match s.loadCtx x with
        | some k => if k.waiting then s else s.loadRun x k
        | none => s

/-- LOAD_COMPLETE (R333). -/
def execLoadComplete (ctx : Fin 4) (s : State) : Host.Outcome State Fault Refusal := .next (s.unlessHalted fun s => s.loadComplete ctx.val)

/-- R334: a load is aborted where something aborts it; one that waits for pages that no eviction can free ends with
NO_RESOURCE. -/
def State.loadStop (s : State) (x : Nat) (readFail : Option Bool) : State :=
  match s.loadCtx x with
  | none => s
  | some k =>
    if k.refetch.isSome then s
    else match k.abortCause readFail with
      | some st => s.loadAbort x st
      | none => if k.waiting then s.loadWait x k else s

/-- LOAD_ABORT (R334): `readFail` tells of a source read that failed (false) or timed out (true). -/
def execLoadAbort (ctx : Fin 4) (readFail : Option Bool) (s : State) : Host.Outcome State Fault Refusal :=
  .next (s.unlessHalted fun s => s.loadStop ctx.val readFail)

/-- R336: cancel a load by its descriptor's address. -/
def State.loadCancel (s : State) (c addr : Nat) : State :=
  if addr ∈ vget [] s.inl.queues c then
    let s := s.modInl fun i => { i with queues := vmod i.queues c fun q => q.erase addr }
    match s.peek c addr 128 with
    | .ok d => s.loadAnswer c addr d .cancelled
    | .error _ => ((s.poke c unitInlet 0 (addr + 3) (leBytes 1 Status.cancelled.code)).1).noteStatus c .cancelled
  else s.modInl fun i => { i with ctx := i.ctx.map fun (k : Option LoadCtx) => k.map fun (k : LoadCtx) =>
    if k.cove = c ∧ k.addr = addr ∧ k.refetch.isNone then ({ k with cancelled := true } : LoadCtx) else k }

/-- LOAD_CANCEL (R336): a write of CANCEL_HI. -/
def execLoadCancel (c : Cove) (lo : Option Word) (hi : Word) (s : State) : Host.Outcome State Fault Refusal :=
  .next (s.unlessHalted fun s => s.loadCancel c.val ((lo.getD (s.reg (inlOff c.val 0x10))).toNat + 0x100000000 * hi.toNat))

end Sys2Proof.Machine
end

