-- ==== Sys2Proof/Machine/Refetch.lean ====
section
/-! DEFINITION. Sys2Proof/Machine/Refetch.lean: refetches of poisoned pages (spec/17_faults_and_recovery.md R601 to
R606, spec/08_tiers_and_translation.md R317, spec/09_weight_intake.md R357, R358). -/
namespace Sys2Proof.Machine
open Sys2Proof

/-- Change the refetch table. -/
def State.modRefetch (s : State) (f : List Refetch → List Refetch) : State := { s with flt := { s.flt with refetch := f s.flt.refetch } }

/-- The entry of a page. -/
def State.refetchOf (s : State) (c va : Nat) : Option Refetch := s.flt.refetch.find? fun r => r.cove = c ∧ r.va = va

/-! ### Who waits (R601) -/

/-- Pages that the Shoal waits for at a router (R206). -/
def State.shoalWaits (s : State) (rt : Nat) : List (Nat × Nat) :=
  match s.router rt with
  | .recv r =>
    if r.gathered then []
    else match s.placement r.place with
      | none => []
      | some p => match s.roundHeaders r p with
        | none => []
        | some hs => (s.recvWaits r p hs).map fun va => (r.cove, va)
  | .route r =>
    match s.placement r.place with
    | none => []
    | some p => (r.dests.zipIdx.filter fun x => x.1.phase = 0).flatMap fun x => (s.packWaits r p x.1.round x.2).map fun va => (r.cove, va)
  | .idle =>
    match s.shoalHead rt with
    | some (c, addr, .ok d) =>
      if fld d 0 1 ≠ 0x21 then []
      else match s.placement (fld d 8 1) with
        | some p => if routeOk addr c d p then (s.routeWaits c d p).map fun va => (c, va) else []
        | none => []
    | _ => []

/-- Pages that evictions into host memory wait for (R670). -/
def State.evictWaits (s : State) : List (Waiter × Nat) :=
  s.objs.filterMap fun o =>
    let c := o.1 / 16384
    let x := o.2
    match s.cove c with
    | none => none
    | some d =>
      if x.word.state = .evicting ∧ x.evict = 0 ∧ x.decl.wb ∧ hostDpa ≤ x.decl.slowBase ∧ s.pageBad (d.pageDpa (nth 0 x.pages x.moved)) then
        some (⟨unitSpw, c, o.1 % 16384⟩, (if d.unified then x.decl.va else x.decl.hbmVa) + 65536 * x.moved)
      else none

/-- Pages that a cove's sequencer waits for: an entry to post, EMIT's tokens, a COPY transfer to host memory, and token
histories that could not be composed. -/
def State.seqWaits (s : State) (c : Nat) : List Nat :=
  (match (s.seqc c).run with
   | none => []
   | some r => match s.slot c r.slot with
     | none => []
     | some sl => (if r.retry then (s.postPoison c sl r.next).toList else []) ++ ((s.emitPending c sl r).bind (s.emitPoison c r)).toList) ++
    (s.xferPoison c).toList ++ (s.seqc c).histWaits.filter fun va => (s.poisonPage c va 65536).isSome

/-- Pages that the descriptor at the head of the loads that a free context would take waits for. -/
def State.inletWaits (s : State) : List (Waiter × Nat) :=
  match s.loadCove with
  | none => []
  | some c => match vget [] s.inl.queues c with
    | [] => []
    | a :: _ => (s.loadPoison c a).map fun va => (⟨unitInlet, c, 0⟩, va)

/-- Everything that waits on a poisoned page, with the page's address. -/
def State.poisonWaits (s : State) : List (Waiter × Nat) :=
  let engines := fun (unit : Nat) (l : List (Option TileRun)) => l.zipIdx.filterMap fun x => match x.1 with
    | some r => if r.released then none else r.waiting.map fun va => ((⟨unit, r.cove, x.2⟩ : Waiter), va)
    | none => none
  engines unitMxc s.cores.toList ++ engines unitAtn s.atns.toList ++
    ((List.range 2).flatMap fun rt => (s.shoalWaits rt).map fun x => (⟨unitShoal, x.1, rt⟩, x.2)) ++
    (s.bsn.engines.toList.zipIdx.filterMap fun x => match x.1 with
      | some r => r.waiting.map fun va => ((⟨unitFerry, r.job.cove, x.2⟩ : Waiter), va)
      | none => none) ++
    (s.bsn.applyQ.filterMap fun g => match g.reqs with
      | (n, r) :: _ =>
        let w := g.win
        if r.opc = 1 ∧ w.kind = 1 then (s.poisonPage w.cove (w.baseVa + r.offset) r.len).map fun va => ((⟨unitBasin, w.cove, n⟩ : Waiter), va) else none
      | [] => none) ++
    s.evictWaits ++ ((List.range 8).flatMap fun c => (s.seqWaits c).map fun va => (⟨unitSeq, c, 0⟩, va)) ++ s.inletWaits

/-! ### Opening an entry (R601, R602) -/

/-- Number in the refetch table of a stream's KV page, which its shadow restores (R171): 16,384 + the entry index. -/
def kvObj (e : Nat) : Nat := 16384 + e

/-- What a waited page belongs to: an object, or the stream that an attention unit works for. -/
def State.pageOwner (s : State) (w : Waiter) (va : Nat) : Option Nat :=
  match s.objAt w.cove va with
  | some (i, _) => some i
  | none =>
    if w.unit = unitAtn then (vget none s.atns w.idx).map fun r => kvObj (fld r.desc 0x1C 4) else none

/-- The Basin address from which a page can be read: the mirror of an object, or the shadow of a stream. -/
def State.pageSource (s : State) (c i va : Nat) : Option Nat :=
  if i < 16384 then
    let d := (s.obj c i).decl
    let node := (basinParts d.mirror).1
    if d.mirror ≠ 0 ∧ !(s.node node).lost then some (d.mirror + d.offsetOf va) else none
  else
    let e := i - 16384
    match (s.homeCove e).bind s.cove with
    | none => none
    | some d =>
      if (s.node d.shadowNode).lost then none
      else ((s.sx e).shadow.find? fun p => s.sget e 0x40 8 + p.2 = va).map fun p => d.shadowPool + 65536 * p.1

/-- The LOADs of a page, under the house activity (R602). -/
def pageLoads (c va src : Nat) : List TxReq :=
  let (node, w, off) := basinParts src
  (cut4k src 0 65536).map fun x =>
    { req := { opc := 1, srcNode := 0, dstNode := node, srcCove := c, window := w, len := (x.2 + 7) / 8 * 8, offset := off + x.1 },
      owner := .refetch c va x.1 }

/-- Whether an object's page can be refetched from its intake record. -/
def State.hasIntake (s : State) (c i : Nat) : Bool := decide (i < 16384) && (s.obj c i).intake.any fun k => k.keep

/-- R602: open the entry of a page with its first source: 1 a mirror, 2 the intake record, 0 none. -/
def State.openRefetch (s : State) (c i va : Nat) (w : Waiter) : State :=
  let s := if i < 16384 then s.setWord c i fun x => { x with use := x.use + 1 } else s
  match s.pageSource c i va with
  | some src =>
    let reqs := pageLoads c va src
    (s.modRefetch fun l => l ++ [{ cove := c, obj := i, va, source := 1, waiters := [w], outs := reqs.length }]).issueAll reqs
  | none => s.modRefetch fun l => l ++ [{ cove := c, obj := i, va, source := if s.hasIntake c i then 2 else 0, waiters := [w] }]

/-- R601: one read joins or opens an entry. -/
def State.joinRefetch (s : State) (w : Waiter) (va : Nat) : State :=
  let noted (s : State) (i : Nat) : State :=
    ((s.bump (blkFLT + 0x40) 1).bump (coveOff blkFLT w.cove 8) 1).faultLog 0x02 w.unit .poisoned w.cove va i
  match s.refetchOf w.cove va with
  | some r =>
    if w ∈ r.waiters then s
    else noted (s.modRefetch fun l => l.map fun x => if x.cove = w.cove ∧ x.va = va then ({ x with waiters := x.waiters ++ [w] } : Refetch) else x) r.obj
  | none =>
    match s.pageOwner w va with
    | none => s
    | some i => if 512 ≤ s.flt.refetch.length then s else noted (s.openRefetch w.cove i va w) i

/-- POISON_REFETCH_START (R601): every read that waits on a poisoned page joins or opens its entry. -/
def execPoisonRefetchStart (s : State) : Host.Outcome State Fault Refusal :=
  .next (s.unlessHalted fun s => s.poisonWaits.foldl (fun s x => s.joinRefetch x.1 x.2) s)

/-! ### Reruns of intake records (R357, R358) -/

/-- A mirror read that failed moves its refetch to the intake record (R602). -/
def State.moveToIntake (s : State) : State :=
  s.modRefetch fun l => l.map fun r =>
    if r.source = 1 ∧ r.failed ∧ r.outs = 0 ∧ s.hasIntake r.cove r.obj then ({ r with source := 2, failed := false, parts := [] } : Refetch) else r

/-- Whether the key of an intake record is still in its slot (R358). -/
def State.recordKeyOk (s : State) (c : Nat) (k : Intake) : Bool := !ldEncrypted k.desc || (k.key.isSome && s.loadKey c k.desc == k.key)

/-- R357: a free context takes the pages of one object that wait for a rerun. It reads the tensor table again, and decrypts
under the load's key where the slot still holds it (R358). -/
def State.rerun (s : State) (x : Nat) : State :=
  let s := s.moveToIntake
  if (s.loadCtx x).isSome then s
  else
    match s.flt.refetch.find? fun r => s.wantsRerun r && !s.rerunning r.cove r.obj with
    | none => s
    | some r =>
      match (s.obj r.cove r.obj).intake with
      | none => s
      | some k =>
        let pages := (s.flt.refetch.filter fun y => y.cove = r.cove ∧ y.obj = r.obj ∧ s.wantsRerun y).map fun y => y.va
        let tensors := match s.recordTensors r.cove k with
          | .ok t => t
          | .error _ => []
        let key := if s.recordKeyOk r.cove k then k.key else none
        (((s.setCtx x (some { cove := r.cove, addr := 0, desc := k.desc, tensors, obj := r.obj, key, refetch := some pages })).bump
          (inlOff r.cove 0x60) 1).charge 5 0 0 (ldBytes k.desc)).charge 0 0 0 (65536 * pages.length)

/-- INLET_REFETCH_RERUN (R357). -/
def execInletRefetchRerun (ctx : Fin 4) (s : State) : Host.Outcome State Fault Refusal := .next (s.unlessHalted fun s => if s.mayWork (0xD4 + ctx.val) then s.rerun ctx.val else s)

/-- The context that reruns a page's load. -/
def State.rerunCtx (s : State) (r : Refetch) : Option Nat :=
  s.inl.ctx.toList.findIdx? fun k => k.any fun k => k.cove == r.cove && k.obj == r.obj && (k.refetch.any fun l => r.va ∈ l)

/-- The bytes of a page of an object as its intake record gives them; a page that no tensor covers is zero, without a rerun
(R357). A tensor table that cannot be read again, or is sound no longer, ends the refetch (DESIGN CHOICE, log 47). -/
def State.recordPage (s : State) (r : Refetch) : Except Status (List Byte) :=
  let off := (s.obj r.cove r.obj).decl.offsetOf r.va
  match (s.rerunCtx r).bind s.loadCtx with
  | none => if (s.obj r.cove r.obj).intake.isSome && !s.wantsRerun r then .ok (List.replicate 65536 0) else .error .objectLost
  | some k =>
    if k.tensors.length ≠ 64 * ldTensors k.desc || (ldEncrypted k.desc && k.key.isNone) || !s.tensorsOk k.cove k.desc (tensorList k.tensors) then .error .objectLost
    else (s.loadResult k (some off)).map fun x => (x.1.drop off).take 65536

/-! ### Ends of refetches (R603, R604) -/

/-- Forget an entry; a context whose pages have all been dealt with is free again; the object is no longer in use. -/
def State.dropRefetch (s : State) (r : Refetch) : State :=
  let s := s.modRefetch fun l => l.filter fun x => !(x.cove = r.cove ∧ x.va = r.va)
  let s := if r.obj < 16384 then s.setWord r.cove r.obj fun w => { w with use := w.use - 1 } else s
  s.modInl fun i => { i with ctx := i.ctx.map fun (k : Option LoadCtx) => k.bind fun (k : LoadCtx) =>
    match k.refetch with
    | none => some k
    | some l =>
      let l := if k.cove = r.cove ∧ k.obj = r.obj then l.filter (· ≠ r.va) else l
      if l.isEmpty then none else some { k with refetch := some l } }

/-- The memory page that a refetch restores: under SEPARATE an address of an object's HBM copy names the object's own page,
also while its leaf is invalid (R313, R670). -/
def State.restoreDpa (s : State) (r : Refetch) : Option Nat :=
  let o := s.obj r.cove r.obj
  if r.obj < 16384 ∧ !s.unified r.cove ∧ o.decl.hbmVa ≤ r.va ∧ r.va < o.decl.hbmVa + 65536 * o.pages.length then
    (s.cove r.cove).map fun d => d.pageDpa (nth 0 o.pages ((r.va - o.decl.hbmVa) / 65536))
  else match s.translate r.cove r.va 1 .read with
    | .ok (.dpa a) => some (a / 65536 * 65536)
    | _ => none

/-- R603: write a page, of an object whole, of a stream's KV the granules that hold poison. -/
def State.restorePage (s : State) (r : Refetch) (b : List Byte) : State :=
  match s.restoreDpa r with
  | some a =>
    if r.obj < 16384 then s.writePage r.cove a b
    else (chunksOf 64 1024 b).zipIdx.foldl (fun s x =>
      if s.granuleBad (a / 64 + x.2) then (s.writeGranule r.cove (a + 64 * x.2) x.1).1 else s) s
  | none => s

/-- R603, R389: Ferry engines that waited go on. -/
def State.ferryResume (s : State) (ws : List Waiter) : State :=
  (ws.filter fun w => w.unit = unitFerry).foldl (fun s w =>
    let s := s.modFerry w.idx fun r => { r with waiting := none, waited := true }
    if (s.ferry w.idx).any fun r => r.job.op = 0x41 then s.ferryChunk w.idx else s.ferrySingle w.idx) s

/-- R603, R127, R171: cores and attention engines that waited for a page may restart. -/
def State.releaseEngines (s : State) (c va : Nat) : State :=
  let free (x : Option TileRun) : Option TileRun := x.map fun t => if t.cove = c ∧ t.waiting = some va then ({ t with released := true } : TileRun) else t
  { s with cores := s.cores.map free, atns := s.atns.map free }

/-- The page that a mirror or a shadow has sent, once it is whole. -/
def Refetch.page (r : Refetch) : Option (List Byte) :=
  if r.failed ∨ r.outs ≠ 0 ∨ (r.parts.map fun x => x.2.length).sum < 65536 then none
  else some (r.parts.foldl (fun l x => overlay l x.1 x.2) (List.replicate 65536 0))

/-- R603: a refetch succeeds. -/
def State.refetchDone (s : State) (c va : Nat) : State :=
  match s.refetchOf c va with
  | none => s
  | some r =>
    let got := if r.source = 1 then r.page else if r.source = 2 then (match s.recordPage r with
      | .ok b => some b
      | .error _ => none) else none
    match got with
    | none => s
    | some b =>
      let s := s.restorePage r b
      let s := (s.bump (blkFLT + if r.source = 1 then 0x48 else 0x50) 1).bump (spwOff c 0x58) 1
      let s := (s.faultLog 0x03 unitSpw .done c va r.obj).dropRefetch r
      let s := r.writes.foldl (fun s w => (s.writePiece c unitSpw w.1 w.2.1 w.2.2.length w.2.2).1) s
      (s.releaseEngines c va).ferryResume r.waiters

/-- REFETCH_DONE (R603): the refetch of the page at `va` of a cove has its bytes. -/
def execRefetchDone (c : Cove) (va : Nat) (s : State) : Host.Outcome State Fault Refusal := .next (s.unlessHalted fun s => s.refetchDone c.val va)

/-- R604: the waiters of a page end with OBJECT_LOST. -/
def State.loseWaiters (s : State) (r : Refetch) : State :=
  r.waiters.foldl (fun s w =>
    let gone (x : Option TileRun) : Option TileRun := x.map fun t => if t.waiting = some r.va then ({ t with waiting := none, lost := true } : TileRun) else t
    if w.unit = unitMxc then { s with cores := vmod s.cores w.idx gone }
    else if w.unit = unitAtn then { s with atns := vmod s.atns w.idx gone }
    else if w.unit = unitFerry then (s.modFerry w.idx fun x => { x with waiting := none, waited := true }).ferryStop w.idx .objectLost false
    else s) s

/-- R604: an object is lost: every entry of it ends. -/
def State.loseObject (s : State) (c i va : Nat) : State :=
  let rs := s.flt.refetch.filter fun r => r.cove = c ∧ r.obj = i
  let s := rs.foldl (fun s r => (((s.dropRefetch r).loseWaiters r).bump (blkFLT + 0x58) 1).faultLog 0x04 unitSpw .objectLost c r.va i) s
  let s := ((s.loseWord c i).degrade c).fltEvent 2
  let s := (s.faultLog 0x05 unitSpw .objectLost c va i).ripple ripObjectLost Status.objectLost.code (coveByte c) i va
  (s.bump (blkFLT + 0x60) 1).bump (coveOff blkFLT c 0x10) 1

/-- A shadow that cannot restore a page is given up: its unit then ends with POISONED (R171; DESIGN CHOICE, log 23). -/
def State.loseShadow (s : State) (r : Refetch) : State :=
  let e := r.obj - 16384
  let n := (s.sx e).shadow.length
  let s := ((s.sset e 0x3C 4 (s.sget e 0x3C 4 - n)).sset e 0x70 4 0).setSx e fun x => { x with shadow := [], shadowPending := [], shadowAt := 0 }
  ((s.dropRefetch r).bump (blkFLT + 0x58) 1).faultLog 0x04 unitSpw .poisoned r.cove r.va r.obj

/-- R602, R604: a refetch that has no source left, or whose rerun has failed (R358). `hostFailed` says that a source read
of the rerun failed or timed out. -/
def State.refetchFail (s : State) (c va : Nat) (hostFailed : Bool) : State :=
  let s := s.moveToIntake
  match s.refetchOf c va with
  | none => s
  | some r =>
    let rerunBad := match s.recordPage r with
      | .ok _ => false
      | .error _ => (s.rerunCtx r).isSome
    let failed := if r.source = 1 then r.failed && decide (r.outs = 0) else if r.source = 2 then ((s.rerunCtx r).isSome && hostFailed) || rerunBad else true
    if !failed then s
    else if r.obj < 16384 then s.loseObject c r.obj va
    else s.loseShadow r

/-- REFETCH_FAIL (R604). -/
def execRefetchFail (c : Cove) (va : Nat) (hostFailed : Bool) (s : State) : Host.Outcome State Fault Refusal :=
  .next (s.unlessHalted fun s => s.refetchFail c.val va hostFailed)

end Sys2Proof.Machine
end

