-- ==== Sys2Proof/Machine/Reset.lean ====
section
/-! DEFINITION. Sys2Proof/Machine/Reset.lean: cold boot and the six resets (spec/16_host_interface_and_reset.md R588 to
R595, Tables 16.5 to 16.8; spec/19_pins_and_electrical.md R644, R648, R656, R660). -/
namespace Sys2Proof.Machine
open Sys2Proof

/-- Change the HIF block. -/
def State.modHif (s : State) (f : Hif → Hif) : State := { s with hif := f s.hif }

/-- Table 16.6: the code of a kind. -/
def ResetKind.code : ResetKind → Nat
  | .cold => 1
  | .warm => 2
  | .device => 3
  | .cove => 4
  | .engine => 5
  | .port => 6

/-- RESET_STAT.KIND and STATUS (Table 16.11). -/
def State.resetStat (s : State) (kind : Nat) (st : Status) : State := s.modHif fun h => { h with lastKind := kind, lastStatus := st.code }

/-- A reset runs, or waits for its start. -/
def State.resetBusy (s : State) : Bool := s.hif.running.isSome || !s.hif.waitingResets.isEmpty

/-- R589: what refuses a request for a reset. -/
def State.resetRefusal (s : State) (kind : Nat) : Option Status :=
  if kind = 0 ∨ 6 < kind then some .range
  else if s.resetBusy then some .busy
  else if s.stopped ∧ kind ≠ 1 then some .targetStopped
  else none

/-! ### What a reset ends (R591) -/

/-- The coves that a scope names. -/
def scopeCoves : Option Nat → List Nat
  | none => List.range 8
  | some c => [c]

/-- Whether a cove lies in a scope: one cove, or the package. -/
def inScope (scope : Option Nat) (c : Nat) : Bool := match scope with
  | none => true
  | some d => decide (c = d)

/-- Replace the elements of a vector whose index lies in a scope. -/
def scopeSet {α : Type} (scope : Option Nat) (d : α) (v : Vector α 8) : Vector α 8 := (scopeCoves scope).foldl (fun v c => vmod v c fun _ => d) v

/-- Keep what an engine does for a cove outside the scope. -/
def scopeKeep {α : Type} {n : Nat} (scope : Option Nat) (cove : α → Nat) (v : Vector (Option α) n) : Vector (Option α) n :=
  v.map fun x => x.bind fun r => if inScope scope (cove r) then none else some r

/-- Halt every engine, descriptor, list, load, router descriptor and copy of a scope, and discard its queues. -/
def State.haltWork (s : State) (scope : Option Nat) : State :=
  let b := s.bsn
  { s with
    ponds := scopeSet scope [] s.ponds, atnLists := scopeSet scope [] s.atnLists, shoalQ := scopeSet scope [] s.shoalQ,
    cores := scopeKeep scope TileRun.cove s.cores, atns := scopeKeep scope TileRun.cove s.atns,
    routers := s.routers.map fun r => if r.cove.any (inScope scope) then .idle else r,
    bsn := { b with engines := scopeKeep scope (fun r => r.job.cove) b.engines, queues := scopeSet scope [] b.queues,
                    direct := b.direct.filter fun j => !inScope scope j.cove },
    inl := { s.inl with ctx := scopeKeep scope LoadCtx.cove s.inl.ctx, queues := scopeSet scope [] s.inl.queues,
                        promoting := scopeSet scope [] s.inl.promoting, missing := scopeSet scope [] s.inl.missing },
    dtu := (scopeCoves scope).foldl (fun v c => vmod v c fun d => { d with busy := false }) s.dtu,
    flt := { s.flt with refetch := s.flt.refetch.filter fun r => !inScope scope r.cove } }

/-- The transaction layer of the package: every credit is freed, and requests and responses in progress are dropped
(R591). -/
def State.dropBasin (s : State) : State :=
  { s with bsn := { s.bsn with txWait := [], flagHeld := [], credits := [], inReq := [], inResp := [], groups := [], applyQ := [],
                               dieQ := Vector.replicate 2 [], seqIn := SMap.mapAll {} (fun _ (x : SeqIn) => { x with held := [] }) s.bsn.seqIn } }

/-- R592: what a cove has issued completes at the transaction layer; its responses are discarded and its credits return as
they arrive. -/
def State.orphanBasin (s : State) (c : Nat) : State :=
  { s with bsn := { s.bsn with
      txWait := s.bsn.txWait.filter fun t => t.req.srcCove ≠ c,
      flagHeld := s.bsn.flagHeld.filter fun f => f.tx.req.srcCove ≠ c,
      credits := SMap.mapAll none (fun _ x => x.map fun (o : Outst) => if o.cove = c then { o with owner := .none } else o) s.bsn.credits } }

/-- Loss records no longer wait for Shoal work and steps that a reset has ended (R614). -/
def State.pruneLoss (s : State) : State :=
  let steps := s.stepsOn
  let shoal := (List.range 2).filterMap fun rt => match s.router rt with
    | .idle => none
    | .route r => some (rt + 2 * r.addr)
    | .recv r => some (rt + 2 * r.addr)
  { s with flt := { s.flt with openLoss := s.flt.openLoss.map fun r =>
      ({ r with waitShoal := r.waitShoal.filter fun x => x ∈ shoal, waitSteps := r.waitSteps.filter fun x => x ∈ steps } : LossRec) } }

/-- What an abandoned step leaves of a part: suppressed, where nothing else has been found for it (R240). -/
def BatchPart.suppressed (b : BatchPart) : BatchPart := { b with effect := match b.effect with
  | .none => .suppress
  | e => e }

/-- R591: abandon the step of a cove; with `suppress` its streams count as suppressed (R240). STEP_EN and GROUP_STEP
clear, and the energy goes to the house account. -/
def State.dropStep (s : State) (suppress : Bool) (c : Nat) : State :=
  let s := match (s.seqc c).run with
    | some r => if suppress then r.parts.foldl (fun (s : State) (b : BatchPart) => s.partEnds c b.suppressed) s else s
    | none => s
  let s := (s.modSeq c fun x => { x with run := none, stepEn := false, toHouse := true }).closeToHouse c
  let s := s.setReg (seqOff c 0x10) 0
  { s with strm := SMap.mapAll {} (fun e (x : StreamX) =>
      if s.sServeCove e = c then { x with importing := none, shadowPending := [], shadowAt := s.sget e 0x70 4 } else x) s.strm }

/-! ### Objects and streams -/

/-- R591: a warm reset of one object. -/
def State.warmObject (s : State) (k : Nat) : State :=
  let c := k / 16384
  let i := k % 16384
  let o := s.obj c i
  let ended (w : ObjWord) (st : ObjState) : ObjWord := { w with state := st, lastStatus := Status.cancelled.code, pend := false }
  let s := if o.word.use = 0 then s else s.setWord c i fun w => { w with use := 0 }
  match o.word.state with
  | .loading => ((s.modObj c i fun o => { o with pages := [], moved := 0 }).clearLeaves c i).setWord c i fun w => ended w .absent
  | .promoting =>
    let s := if s.unified c then s.objLeaves c o.decl.va o.decl.slowLeaves else s
    (s.modObj c i fun o => { o with pages := [], moved := 0, moveAct := none, pendAct := none }).setWord c i fun w => ended w .slow
  | .evicting =>
    let s := if s.unified c then s else s.objLeaves c o.decl.hbmVa (s.hbmLeaves c o)
    let s := (s.modObj c i fun o => { o with moved := 0, evict := 0, moveAct := none, pendAct := none }).setWord c i fun w =>
      { ended w .resident with tier := 1 }
    (s.objLeaves c o.decl.va (s.vaLeaves c (s.obj c i))).noteReady c i
  | _ => s

/-- R591, R592, R562: every object of a cove becomes FREE, and its intake records are dropped. -/
def State.freeObjects (s : State) (c : Nat) : State :=
  { s with objs := SMap.mapAll {} (fun k (o : Obj) => if k / 16384 = c then
      { decl := o.decl, word := if o.word.state = .free then o.word else { seq := (o.word.seq + 1) % 65536 } } else o) s.objs }

/-- R591: a cove's level-1 table is rewritten with every entry invalid. -/
def State.clearRoot (s : State) (c : Nat) : State :=
  match s.cove c with
  | none => s
  | some d =>
    let out (a : Nat) : Bool := decide (d.root ≤ a) && decide (a < d.root + 0x200000)
    { s with mem := { bytes := SMap.filter (fun a _ => !out a) s.mem.bytes, poison := SMap.filter (fun g _ => !out (64 * g)) s.mem.poison,
                      tag := SMap.filter (fun g _ => !out (64 * g)) s.mem.tag, failed := SMap.filter (fun g _ => !out (64 * g)) s.mem.failed } }

/-- Streams that a device reset, or a reset of a cove, ends (R591, R592). -/
def State.endedStreams (s : State) (scope : Option Nat) : List Nat :=
  s.liveEntries.filter fun e => match scope with
    | none => true
    | some c => decide (s.homeCove e = some c) || decide (s.sServeCove e = c)

/-- R591, Table 06.5: end streams as part of a reset: CANCELLING, but for what is DONE; then items 2 and 3 of R32. -/
def State.endStreams (s : State) (scope : Option Nat) (es : List Nat) : State :=
  let s := es.foldl (fun s e => if s.sState e = some .done ∨ s.sState e = some .cancelling then s else s.packageCancel e Status.targetStopped.code) s
  let ready := SMap.filter (fun e _ => !es.contains e) s.ready
  (List.range 8).foldl (fun (s : State) c =>
    let mine := es.filter fun e => s.homeCove e = some c
    if mine.isEmpty && !inScope scope c then s
    else
      let (s, gone) := s.retireList c mine
      s.freeItems c gone) { s with ready }

/-- Arrival counters of a cove return to zero (Table 16.8). -/
def State.clearArrival (s : State) (c : Nat) : State :=
  match s.cove c with
  | none => s
  | some d => { s with arrival := SMap.filter (fun i _ => !(decide (d.ctrFirst ≤ i) && decide (i < d.ctrFirst + d.ctrCount))) s.arrival }

/-! ### Warm, device and cove resets -/

/-- R590, R629: what a warm or device reset does as it begins. -/
def State.wideBegin (s : State) : State :=
  let s := s.ripClose
  if s.drained then s.sendDrainNotices.closePorts
  else ({ s with lnk := { s.lnk with inc := (s.lnk.inc + 1) % 65536 }, bsn := { s.bsn with ssnOut := [] } }.closePorts).loseAttested

/-- R591: what a warm reset does (Tables 14.7, 14.8, 16.7, 16.8). -/
def State.warmNow (s : State) : State :=
  let s := s.wideBegin
  let s := ((s.haltWork none).dropBasin)
  let s := (List.range 8).foldl (fun s c => s.dropStep true c) s
  let s := (SMap.keys s.objs).foldl (fun s k => s.warmObject k) s
  let s := (s.loseAttested.eraseAllKeys).pruneLoss
  let s : State := { s with jvk := { s.jvk with staged := none, fwStaged := false, fwStagedRaw := [], running := none, reading := none,
                                                commitWait := false, flashWait := false } }
  let s : State := { s with hif := { s.hif with running := some ⟨.warm, 0, s.now⟩, waitingResets := [] } }
  if s.pstate = 2 ∨ s.pstate = 3 then
    { (s.toPstate 0).modWeir fun w => { w with psWant := none } with hbm := { s.hbm with selfRefresh := false } }
  else s

/-- R591: what a device reset does (Tables 14.7 and 16.8). -/
def State.deviceNow (s : State) : State :=
  let s := s.wideBegin
  let s := ((s.haltWork none).dropBasin)
  let s := (List.range 8).foldl (fun s c => s.dropStep false c) s
  let s := s.endStreams none (s.endedStreams none)
  let s := (List.range 8).foldl (fun s c => (s.freeObjects c).clearRoot c) s
  let s := ((s.nextEpochs.eraseAllKeys).zeroMeres).pruneLoss
  ({ s with arrival := [] } : State).modHif fun h => { h with running := some ⟨.device, 0, s.now⟩ }

/-- R592: what a reset of a cove does. -/
def State.coveNow (s : State) (c : Nat) : State :=
  let s := (s.haltWork (some c)).orphanBasin c
  let s := s.dropStep false c
  let s := s.endStreams (some c) (s.endedStreams (some c))
  let s := (s.freeObjects c).clearRoot c
  let s := (((s.nextEpoch c).eraseCoveKeys c).zeroMereOf c).clearArrival c
  s.pruneLoss.modHif fun h => { h with running := some ⟨.cove, c, s.now⟩ }

/-- Start a reset (R589). -/
def State.startReset (s : State) (r : ResetRun) : State :=
  match r.kind with
  | .warm => s.warmNow
  | .device => s.deviceNow
  | .cove => s.coveNow r.target
  | _ => s.modHif fun h => { h with running := some { r with since := s.now } }

/-- Whether a reset must wait: while another runs, or, for a device or cove reset, while a JVK command runs (Table 16.7). -/
def State.mustWait (s : State) (k : ResetKind) : Bool :=
  s.hif.running.isSome || (s.jvk.running.isSome && (decide (k = .device) || decide (k = .cove)))

/-- Start a reset, or let it wait. -/
def State.beginReset (s : State) (k : ResetKind) (target : Nat) : State :=
  if s.mustWait k then s.modHif fun h => { h with waitingResets := h.waitingResets ++ [⟨k, target, s.now⟩] }
  else s.startReset ⟨k, target, s.now⟩

/-- Start the oldest waiting reset, once nothing holds it back. -/
def State.nextReset (s : State) : State :=
  match s.hif.waitingResets with
  | [] => s
  | r :: rest => if s.mustWait r.kind then s else (s.modHif fun h => { h with waitingResets := rest }).startReset r

/-- A request through RESET_REQ with GO (R589): refused, or accepted with its kind in RESET_STAT. -/
def State.requestReset (s : State) (k : ResetKind) (accepted : State → State) : State :=
  if s.pstate = 4 ∨ s.hif.heldInReset then s
  else match s.resetRefusal k.code with
    | some st => s.resetStat k.code st
    | none => accepted (s.resetStat k.code .done)

/-- WARM_RESET (R591): RESET_REQ WARM. -/
def execWarmReset (s : State) : Host.Outcome State Fault Refusal := .next (s.requestReset .warm fun s => s.beginReset .warm 0)

/-- DEVICE_RESET (R591): RESET_REQ DEVICE. -/
def execDeviceReset (s : State) : Host.Outcome State Fault Refusal := .next (s.requestReset .device fun s => s.beginReset .device 0)

/-- COVE_RESET (R592): RESET_REQ COVE; a TARGET that is no cove is refused (log 26). -/
def execCoveReset (target : Byte) (s : State) : Host.Outcome State Fault Refusal :=
  .next (s.requestReset .cove fun s => if 8 ≤ target.toNat then s.resetStat 4 .range else s.beginReset .cove target.toNat)

/-- RESET_REQ_REFUSED (R589): RESET_REQ with KIND 0 or 7. -/
def execResetReqRefused (seven : Bool) (s : State) : Host.Outcome State Fault Refusal :=
  .next (if s.pstate = 4 ∨ s.hif.heldInReset then s else s.resetStat (if seven then 7 else 0) .range)

/-! ### Engine and port resets (R593, R594) -/

/-- R593: the targets of an engine reset. -/
def engineTarget (t : Nat) : Bool :=
  decide (t ≤ 0x9F) || (decide (0xA0 ≤ t) && decide (t ≤ 0xCF)) || decide (t = 0xD0) || decide (t = 0xD1) ||
    (decide (0xD4 ≤ t) && decide (t ≤ 0xD7))

/-- Whether an engine holds work. -/
def State.engineWorks (s : State) (t : Nat) : Bool :=
  if t < 0x80 then (vget none s.cores t).isSome
  else if t < 0xA0 then (vget none s.atns (t - 0x80)).isSome
  else if t < 0xD0 then (vget none s.bsn.engines (t - 0xA0)).isSome
  else if t < 0xD2 then decide (s.router (t - 0xD0) ≠ .idle)
  else (s.loadCtx (t - 0xD4)).isSome

/-- ENGINE_RESET (R593): RESET_REQ ENGINE. -/
def execEngineReset (target : Byte) (s : State) : Host.Outcome State Fault Refusal :=
  .next (s.requestReset .engine fun s => if engineTarget target.toNat then s.beginReset .engine target.toNat else s.resetStat 5 .range)

/-- Close a port's connections under R422, and train it. -/
def State.portAgain (s : State) (p : Nat) : State :=
  let ks := (s.portConns p).filter fun k => (s.conn k).isOpen
  ((ks.foldl (fun s k => s.failConn p k) (s.portTo p .down))).train p

/-- R594: a port reset, which ends at once. -/
def State.portReset (s : State) (p : Nat) : State :=
  if 36 ≤ p then s.resetStat 6 .range
  else if s.portCount ≤ p then s.resetStat 6 .absentUnit
  else if (s.port p).state = .off ∨ (s.port p).state = .out then (s.resetStat 6 .busy).hifEvent 0
  else (s.portAgain p).hifEvent 0

/-- PORT_RESET (R594): RESET_REQ PORT. -/
def execPortReset (target : Byte) (s : State) : Host.Outcome State Fault Refusal := .next (s.requestReset .port fun s => s.portReset target.toNat)

/-! ### Resets by pins and by function level reset -/

/-- PERST (R589): PERST#, Hot Reset or Link Disable starts a warm reset; in the stop the PCIe side alone resets (Table
16.7), and during a warm reset it joins. -/
def State.perst (s : State) : State :=
  if s.pstate = 4 ∨ s.hif.heldInReset ∨ s.stopped ∨ (s.hif.running.any fun r => r.kind = .warm) then s else s.warmNow

/-- PERST (R589). -/
def execPerst (s : State) : Host.Outcome State Fault Refusal := .next s.perst

/-- FLR (R589): of PF0 a device reset, of VF c a cove reset. One that meets a reset with the same or a wider scope joins
it (R589, log 26). -/
def State.flr (s : State) (fn : Nat) : State :=
  let all := (match s.hif.running with
    | some r => [r]
    | none => []) ++ s.hif.waitingResets
  let joins := all.any fun r => r.kind = .warm || r.kind = .device || (fn ≠ 0 && r.kind = .cove && r.target + 1 = fn)
  if s.pstate = 4 ∨ s.hif.heldInReset ∨ s.stopped ∨ joins then s
  else if fn = 0 then s.beginReset .device 0 else s.beginReset .cove (fn - 1)

/-- FLR (R589). -/
def execFlr (fn : Fin 9) (s : State) : Host.Outcome State Fault Refusal := .next (s.flr fn.val)

/-! ### The end of a reset -/

/-- A reset has ended: RESET_STAT, EVENT.RESET_DONE, and the next in waiting. -/
def State.resetEnds (s : State) (r : ResetRun) (st : Status) : State :=
  let s := ((s.modHif fun h => { h with running := none }).resetStat r.kind.code st).hifEvent 0
  s.nextReset

/-- RESET_DONE (R589): the reset that runs ends; an engine reset, once its engine is idle or 10 ms have passed (R593). -/
def State.resetDone (s : State) : State :=
  match s.hif.running with
  | none => s
  | some r => match r.kind with
    | .engine =>
      if !s.engineWorks r.target then s.resetEnds r .done
      else if r.since + 1000000 ≤ s.now then s.resetEnds r .busy
      else s
    | .cove => (s.raise (1 + r.target) 5).resetEnds r .done
    | _ => (if s.pstate = 3 then s else s.trainPorts).resetEnds r .done

/-- RESET_DONE (R589). -/
def execResetDone (s : State) : Host.Outcome State Fault Refusal := .next (s.whileOn fun s => s.resetDone)

/-! ### Cold reset and boot (R588, R541, R566, R568, Table 16.8) -/

/-- R541: the security state after a cold reset. -/
def SecState.cold : SecState → SecState
  | .attested => .sealed
  | .ownerDebug => .sealed
  | x => x

/-- Table 16.8, cold: fuses and flash are kept, straps are sampled (R644), and everything else is as at reset. Host memory
is not the package's; `heat` says that THERMTRIP_N stays asserted (R647). -/
def State.coldBoot (s : State) (pos : Nat) (split heat : Bool) : State :=
  let valid := s.jvk.flashFwValid
  let out : List Nat := s.lnk.portRecord
  { State.reset with
    pending := s.pending, out := s.out, draws := s.draws, fuses := s.fuses,
    streams := SMap.mapAll 0 (fun _ x => setEntField x 0 1 0) s.streams,
    mem := { bytes := SMap.filter (fun a _ => decide (s.region a = .host)) s.mem.bytes },
    hbm := { ({} : Hbm) with flashRoster := s.hbm.flashRoster },
    jvk := { ({} : Jvk) with floors := s.jvk.floors, flashDefault := s.jvk.flashDefault, flashFw := s.jvk.flashFw, flashFwValid := valid,
                             fwRunning := if valid then s.jvk.flashFw else [], fwFactory := !valid },
    lnk := { ({} : Lnk) with pos, inc := s.lnk.inc, portRecord := out,
                             ports := Vector.ofFn fun p => ({ signal := (s.port p.val).signal, state := if out.contains p.val then .out else .off } : PortX) },
    gau := { ({} : Gau) with k := s.fuses.kNom },
    weir := { ({} : Weir) with lvl := s.weir.lvl, trim := s.weir.flashTrim, flashTrim := s.weir.flashTrim, thermtrip := s.weir.thermtrip && heat },
    wh := { ({} : Wh) with sec := s.wh.sec.cold, owners := s.wh.owners, ownerSlot := s.wh.ownerSlot, destroyed := s.wh.destroyed,
                           boot := s.wh.boot + 1, bootSec := s.wh.sec.cold, bootDestroyed := s.wh.destroyed },
    hif := { ({} : Hif) with split } }

/-- COLD_RESET (R588): power-up or exit from P4, or RESET_REQ COLD, with the straps as they are sampled. -/
def execColdReset (requested : Bool) (pos : BitVec 12) (split : Bool) (s : State) : Host.Outcome State Fault Refusal :=
  .next (if requested then s.requestReset .cold fun s => s.coldBoot pos.toNat split true else s.coldBoot pos.toNat split false)

/-- PKG_RESET_N (R648): low for 10 µs or more. -/
def execPkgResetN (pos : BitVec 12) (split : Bool) (s : State) : Host.Outcome State Fault Refusal := .next (s.coldBoot pos.toNat split true)

/-- The package is held in cold reset until clock and rails have been good for 1 ms (R656, R660). -/
def State.hold (s : State) : State :=
  (s.coldBoot s.lnk.pos s.hif.split true).modHif fun h => { h with heldInReset := true }

/-- REFCLK_LOSS (R656). -/
def execRefclkLoss (s : State) : Host.Outcome State Fault Refusal := .next s.hold

/-- RAIL_FAULT (R660). -/
def execRailFault (s : State) : Host.Outcome State Fault Refusal := .next s.hold

/-- REFCLK_RETURN (R656): the package leaves the cold reset it was held in, and samples its straps. -/
def execRefclkReturn (pos : BitVec 12) (split : Bool) (s : State) : Host.Outcome State Fault Refusal :=
  .next (if s.hif.heldInReset then s.coldBoot pos.toNat split true else s)

/-- The first stages of Table 16.5: firmware verified, and the incarnation written to flash (R412). -/
def State.bootFirmware (s : State) : State :=
  if s.hif.fwVerified then s
  else { (s.modHif fun h => { h with fwVerified := true }) with lnk := { s.lnk with inc := (s.lnk.inc + 1) % 65536 } }

/-- Boot goes on: no stop, no hold, no P4. -/
def State.booting (s : State) : Bool := !s.stopped && !s.hif.heldInReset && decide (s.pstate ≠ 4)

/-- The roster record after training (R280): what flash records, in map-out order, then the channels that failed with the
next map-out numbers, as far as these reach (the failed ones written to flash: DEDUCED from R270 and R281, log 26). -/
def rosterOuts (flash : List (Nat × Nat)) (failed : List Nat) : List (Nat × Nat) :=
  let old := flash.insertionSort fun a b => a.2 ≤ b.2
  ((old.map Prod.fst ++ failed.filter fun c => !(old.map Prod.fst).contains c).take 16).zipIdx

/-- HBM_TRAINED (R588, R280), with the fitted channels that failed training. -/
def State.hbmTrain (s : State) (failed : List Nat) : State :=
  if !s.booting ∨ s.hif.hbmTrained then s
  else
    let s := s.bootFirmware
    let n := s.fuses.variant.nfit / 2
    let bad := (failed.filter fun c => c < n).dedup.insertionSort (· ≤ ·)
    let flashRoster := rosterOuts s.hbm.flashRoster bad
    let outs := flashRoster.map Prod.fst
    let roster : Vector ChanState 384 := Vector.ofFn fun c => if n ≤ c.val then .absent else if outs.contains c.val then .out else .live
    let hbm := { s.hbm with roster, outs, flashRoster, trained := true, noNumber := bad.any fun c => !outs.contains c }
    ({ s with hbm } : State).modHif fun h => { h with hbmTrained := true, deepTrained := h.deepTrained || decide (s.fuses.variant = Variant.m) }

/-- HBM_TRAINED (R588). -/
def execHbmTrained (failed : List (Fin 384)) (s : State) : Host.Outcome State Fault Refusal := .next (s.hbmTrain (failed.map Fin.val))

/-- DEEP_TRAINED (R668, R643): with the LPDDR6 capacity that training finds on each of the eight controllers, in GiB; none
where DEEP_MEM stays 0. -/
def State.deepTrain (s : State) (perController : Option Nat) : State :=
  if !s.booting ∨ !s.hif.hbmTrained ∨ s.hif.deepTrained then s
  else { (s.modHif fun h => { h with deepTrained := true }) with hbm := { s.hbm with deepGiB := 8 * Nat.min 256 (perController.getD 0) } }

/-- DEEP_TRAINED (R668). -/
def execDeepTrained (perController : Option (Fin 257)) (s : State) : Host.Outcome State Fault Refusal :=
  .next (s.deepTrain (perController.map Fin.val))

end Sys2Proof.Machine
end

