-- ==== Sys2Proof/Machine/HostIf.lean ====
section
/-! DEFINITION. Sys2Proof/Machine/HostIf.lean: BAR2 windows, watches, EPOCH_MARK and MSI-X masks
(spec/16_host_interface_and_reset.md R573 to R587). -/
namespace Sys2Proof.Machine
open Sys2Proof

/-- R573, R576: a VF shows more than the ID block; PF0 (0) always does. -/
def State.vfLive (s : State) (fn : Nat) : Bool := decide (fn = 0) || (s.cove (fn - 1)).isSome

/-- A BAR error (R574, R579). -/
def State.barError (s : State) : State := (s.bump (blkHIF + 0x40) 1).hifEvent 3

/-! ### What the windows of kinds 2 to 5 show -/

/-- An object table entry as its 64 bytes (Table 08.6). -/
def objEntry (o : Obj) : List Byte :=
  leBytes 8 o.decl.va ++ leBytes 8 o.decl.hbmVa ++ leBytes 8 o.decl.bytes ++ leBytes 8 o.decl.slowBase ++ leBytes 8 o.decl.mirror ++
    leBytes 1 o.decl.flags ++ leBytes 1 o.decl.activity ++ leBytes 6 o.decl.rsvA ++ leBytes 8 o.word.enc ++ leBytes 8 o.decl.rsvB

/-- The declaration that 64 bytes spell. -/
def objDeclOf (b : List Byte) : ObjDecl :=
  { va := fld b 0 8, hbmVa := fld b 8 8, bytes := fld b 0x10 8, slowBase := fld b 0x18 8, mirror := fld b 0x20 8, flags := fld b 0x28 1,
    activity := fld b 0x29 1, rsvA := fld b 0x2A 6, rsvB := fld b 0x38 8 }

/-- R578: a byte written to a cove's object table. -/
def State.objStore (s : State) (c off : Nat) (b : Byte) : State :=
  if 0x30 ≤ off % 64 ∧ off % 64 < 0x38 then s
  else s.modObj c (off / 64) fun o => { o with decl := objDeclOf ((objEntry o).set (off % 64) b) }

/-- The 64 bytes of a Ripple record (Tables 18.1 to 18.3). -/
def RipRec.bytes (r : RipRec) : List Byte :=
  leBytes 1 (128 * b2n r.valid + 64 * b2n r.closed) ++ leBytes 1 r.kind ++ leBytes 1 r.status ++ leBytes 1 r.cove ++ leBytes 4 r.seq ++
    leBytes 8 r.tick ++ leBytes 8 r.epoch ++
    (if r.kind = ripDroop ∨ r.kind = ripStepTime then leBytes 40 ((r.bins.zipIdx.map fun x => x.1 % 1024 * 2 ^ (10 * x.2)).sum)
     else leBytes 4 r.key ++ leBytes 4 r.repeats ++ leBytes 8 r.min ++ leBytes 8 r.minTick ++ leBytes 8 r.max ++ leBytes 8 r.maxTick)

/-- A byte of the Gauge ring (R470): a slot that holds no record reads as memory that nothing has written. -/
def State.ringByte (s : State) (off : Nat) : Byte :=
  let r := SMap.get ({} : EnergyRec) s.gau.ring (off / 64)
  if r = {} then 0 else nth 0 r.bytes (off % 64)

/-- A byte of the batch table (R473). -/
def State.batchByte (s : State) (off : Nat) : Byte :=
  let i := off / 36864
  if s.gau.batchLive && (decide (i ≤ s.gau.batchNext) || decide (64 ≤ s.gau.batchNext)) then
    nth 0 (SMap.get ({} : Batch) s.gau.batches i).bytes (off % 36864)
  else 0

/-- A byte that a window of kinds 2 to 5 shows. -/
def State.winByte (s : State) (w : Bar2Win) (off : Nat) : Byte :=
  match w.kind with
  | 2 => nth 0 (objEntry (s.obj w.cove (off / 64))) (off % 64)
  | 3 => s.ringByte off
  | 4 => s.batchByte off
  | _ => nth 0 (SMap.get ({} : RipRec) s.rip.ring (off / 64)).bytes (off % 64)

/-! ### BAR2 (R577 to R579) -/

/-- The window of a function that covers a range of its BAR2. -/
def State.bar2At (s : State) (fn off n : Nat) : Option Bar2Win :=
  ((List.range 32).map (bar2Win fun o => (s.reg o).toNat)).find? fun w =>
    decide (w.kind ≠ 0) && decide (w.func = fn) && decide (w.off ≤ off) && decide (off + n ≤ w.off + w.size)

/-- REQUIRE_IDE refuses a request that came outside an IDE stream (R523). -/
def State.ideRefuses (s : State) (ide : Bool) : Bool := (s.image.any fun im => im.requireIde) && !ide

/-- R579: a read through a window: data, or Completer Abort; poison of an object has its refetch opened (R317, R601). -/
def State.windowRead (s : State) (w : Bar2Win) (off n : Nat) : State :=
  if w.kind ≠ 1 then s.emit (.barData ((List.range n).map fun i => s.winByte w (off - w.off + i)))
  else
    let va := w.target + (off - w.off)
    let r := s.peek w.cove va n
    match r with
    | .error e =>
      let s := match s.poisonPage w.cove va n with
        | some p => s.joinRefetch ⟨unitHost, w.cove, 0⟩ p
        | none => s
      (s.accErr w.cove unitHost w.act va e).emit .barCA
    | .ok bs => (s.touch w.cove unitHost w.act va n).emit (.barData bs)

/-- R579: a read of `n` bytes at an offset of a function's BAR2. -/
def State.bar2Read (s : State) (fn off n : Nat) (ide : Bool) : State :=
  if !s.answers then s
  else if s.ideRefuses ide then s.emit .barUR
  else if s.stopped then s.emit .barCA
  else if !s.vfLive fn then s.emit (.barData (List.replicate n 0))
  else match s.bar2At fn off n with
    | none => s.barError.emit .barUR
    | some w => s.windowRead w off n

/-- BAR2_READ (R579): a read of 1 to 4,096 bytes. -/
def execBar2Read (fn : Fin 9) (offset : Fin 0x10000000000) (length : Fin 4097) (ide : Bool) (s : State) : Host.Outcome State Fault Refusal :=
  .next (s.bar2Read fn.val offset.val length.val ide)

/-- The runs of bytes that a write's byte enables select: place in the data, and bytes. -/
def byteRuns (data : List (Option Byte)) : List (Nat × List Byte) :=
  (data.zipIdx.foldl (fun (x : List (Nat × List Byte)) y => match y.1, x with
    | none, l => l
    | some b, [] => [(y.2, [b])]
    | some b, (i, bs) :: l => if i + bs.length = y.2 then (i, bs ++ [b]) :: l else (y.2, [b]) :: (i, bs) :: l) []).reverse

/-- R579: a write of kind 1 takes effect whole, or is discarded where its translation fails. -/
def State.coveWrite (s : State) (w : Bar2Win) (va : Nat) (rs : List (Nat × List Byte)) : State :=
  match rs.findSome? fun r => (s.canWrite w.cove (va + r.1) r.2.length).map fun e => (e, va + r.1) with
  | some (e, a) => s.accErr w.cove unitHost w.act a e
  | none => rs.foldl (fun s r => (s.poke w.cove unitHost w.act (va + r.1) r.2).1) s

/-- R578, R579: a write through a window. -/
def State.windowWrite (s : State) (w : Bar2Win) (off : Nat) (data : List (Option Byte)) : State :=
  match w.kind with
  | 1 => if w.write then s.coveWrite w (w.target + (off - w.off)) (byteRuns data) else s.barError
  | 2 => data.zipIdx.foldl (fun s x => match x.1 with
    | some b => s.objStore w.cove (off - w.off + x.2) b
    | none => s) s
  | _ => s.barError

/-- R579: a write at an offset of a function's BAR2. -/
def State.bar2Write (s : State) (fn off : Nat) (data : List (Option Byte)) (ide : Bool) : State :=
  if !s.answers then s
  else if s.ideRefuses ide then s.emit .barUR
  else if s.stopped ∨ !s.vfLive fn then s
  else match s.bar2At fn off data.length with
    | none => s.barError
    | some w => s.windowWrite w off data

/-- BAR2_WRITE (R579): bytes written, with none where a byte enable is clear. -/
def execBar2Write (fn : Fin 9) (offset : Fin 0x10000000000) (data : List (Option Byte)) (ide : Bool) (s : State) : Host.Outcome State Fault Refusal :=
  .next (s.bar2Write fn.val offset.val data ide)

/-! ### Watches, EPOCH_MARK and MSI-X (R584, R585, R587) -/

/-- R573: a function sees a watch: PF0 every one, VF v those of cove v. -/
def State.seesWatch (s : State) (fn w : Nat) : Bool := decide (fn = 0) || (s.vfLive fn && decide (512 + 64 * (fn - 1) ≤ w) && decide (w < 576 + 64 * (fn - 1)))

/-- R585: a watch of a cove names a counter outside the cove's range. -/
def State.watchForeign (s : State) (w ctr : Nat) : Bool :=
  decide (512 ≤ w) && match s.cove ((w - 512) / 64) with
    | some d => !(decide (d.ctrFirst ≤ ctr) && decide (ctr < d.ctrFirst + d.ctrCount))
    | none => true

/-- R585: a write of a watch's W_CTRL: COUNTER and ARM, FIRED where a 1 clears it, and the evaluation at arming. -/
def State.watchCtrl (s : State) (w : Nat) (value : Word) : State :=
  let v := value.toNat
  if bit v 16 && s.watchForeign w (v % 65536) then s
  else
    let x := SMap.get ({} : Watch) s.hif.watches w
    let x' : Watch := { fired := x.fired && !bit v 17, arm := bit v 16, counter := v % 65536 }
    let s := s.modHif fun h => { h with watches := SMap.put ({} : Watch) h.watches w x' }
    if bit v 16 then s.evalWatch w else s

/-- WATCH_CTRL_WRITE (R585): watch 0 to 511 of PF0, or 512 + 64 c + j of cove c. -/
def execWatchCtrlWrite (fn : Fin 9) (w : Fin 1024) (value : Word) (s : State) : Host.Outcome State Fault Refusal :=
  .next (if s.answers && s.seesWatch fn.val w.val then s.watchCtrl w.val value else s)

/-- EPOCH_MARK_WRITE (R587): PF0's write of the high word, with the low word where one write carries both; otherwise with
the low word written before. -/
def execEpochMarkWrite (lo : Option Word) (hi : Word) (s : State) : Host.Outcome State Fault Refusal :=
  .next (if !s.answers then s
    else
      let l := lo.getD (s.reg (blkHIF + 0x20))
      (s.setReg (blkHIF + 0x20) l).modHif fun h => { h with epochMark := hi ++ l, epochTick := s.tick })

/-- MSIX_UNMASK (R584): a function's MSI-X Enable (under SR-IOV for a VF), its Function Mask and the mask of one vector take
the values given, and the messages of pending vectors that nothing masks any more are sent. PF0 stays enabled (log 2). -/
def execMsixUnmask (fn : Fin 9) (enabled funcMask : Bool) (vec : Option (Fin 1024 × Bool)) (s : State) : Host.Outcome State Fault Refusal :=
  .next (s.whileOn fun s => (s.modHif fun h => { h with msix := vmod h.msix fn.val fun m =>
    { m with enabled := enabled || decide (fn.val = 0), funcMask,
             masked := match vec with
               | some (v, b) => SMap.put false m.masked v.val b
               | none => m.masked } }).flushVectors fn.val)

end Sys2Proof.Machine
end

