-- ==== Sys2Proof/Machine/Faults.lean ====
section
/-! DEFINITION. Sys2Proof/Machine/Faults.lean: the close of loss records and the loss log
(spec/17_faults_and_recovery.md R614, R616, R620, Tables 17.3 and 17.4). -/
namespace Sys2Proof.Machine
open Sys2Proof

/-- FLT.LOSS_TAIL. -/
def regLossTail : Nat := blkFLT + 0x1C

/-- Slots of the loss log that hold records not yet released. -/
def State.lossHeld (s : State) : Nat := s.flt.lossHead - (s.reg regLossTail).toNat

/-- Write closed records into the loss log while it has room (R616). -/
def State.lossWrite (s : State) : List LossRec → State
  | [] => { s with flt := { s.flt with waitingLoss := [] } }
  | r :: rest =>
    if s.lossHeld < 64 then
      ({ s with flt := { s.flt with lossLog := SMap.put ({} : LossRec) s.flt.lossLog (s.flt.lossHead % 64) r,
                                    lossHead := s.flt.lossHead + 1 } }).lossWrite rest
    else { s with flt := { s.flt with waitingLoss := r :: rest } }

/-- R614: nothing that a record waits for is left. -/
def State.lossSettled (s : State) (r : LossRec) : Bool :=
  let shoal := (List.range 2).filterMap fun rt => match s.router rt with
    | .idle => none
    | .route x => some (rt + 2 * x.addr)
    | .recv x => some (rt + 2 * x.addr)
  r.waitStreams.isEmpty && (r.waitShoal.all fun x => x ∉ shoal) && (r.waitSteps.all fun x => x ∉ s.stepsOn) &&
    (List.range 8).all fun c => !((s.cove c).isSome && (s.seqc c).stepEn && (s.seqc c).adoptFrom.any fun n => r.nodes.contains n)

/-- The record as it is written at its close (Table 17.3). -/
def State.lossClosed (s : State) (r : LossRec) : LossRec :=
  let r : LossRec := { r with tClosed := s.now, epoch := s.mark }
  r.nodes.foldl (fun (r : LossRec) k =>
    let n := s.node k
    { r with linkBlocks := r.linkBlocks + n.linkBlocks, framesDropped := r.framesDropped + n.framesDropped,
             fromLost := r.fromLost + n.fromLost, mirrorReads := r.mirrorReads + n.mirrorReads }) r

/-- The LOSS record of the Gauge ring (Table 17.4). -/
def LossRec.gauge (r : LossRec) : EnergyRec :=
  { kind := 3, status := Status.nodeLost.code, entry := r.streamsEnded, tag := r.node + 65536 * r.incarnation, tSubmit := r.tLost,
    tEnd := r.tClosed, energy := r.lossUj, first := r.txnsEnded, last := r.lostPairs }

/-- R614: the oldest open record that nothing holds open closes. -/
def State.lossClose (s : State) : State :=
  match s.flt.openLoss.find? s.lossSettled with
  | none => s
  | some r =>
    let done := s.lossClosed r
    let s := { s with flt := { s.flt with openLoss := s.flt.openLoss.erase r } }
    (s.lossWrite (s.flt.waitingLoss ++ [done])).emitRecord done.gauge

/-- LOSS_RECORD_CLOSE (R614). -/
def execLossRecordClose (s : State) : Host.Outcome State Fault Refusal := .next (s.whileOn fun s => s.lossClose)

/-- LOSS_TAIL_WRITE (R616): slots freed, and the closed records that wait written into them. -/
def execLossTailWrite (value : Word) (s : State) : Host.Outcome State Fault Refusal :=
  .next (if s.answers then
    let s := s.setReg regLossTail value
    s.lossWrite s.flt.waitingLoss
  else s)

end Sys2Proof.Machine
end

