-- ==== Sys2Proof/Machine/Jvk.lean ====
section
/-! DEFINITION. Sys2Proof/Machine/Jvk.lean: the commands of the JVK block: staging, commit and its flash writes, the
user default, firmware (spec/15_jieverik_image.md R557 to R570). -/
namespace Sys2Proof.Machine
open Sys2Proof

/-- Change the JVK block. -/
def State.modJvk (s : State) (f : Jvk → Jvk) : State := { s with jvk := f s.jvk }

/-- A JVK command ends: RESULT, STAT.BUSY and the JVK vector (R570); a reset that waited for it starts (Table 16.7). -/
def State.jvkEnd (s : State) (st : Status) (sec : Nat) : State :=
  ((s.modJvk fun j => { j with running := none, reading := none, commitWait := false, flashWait := false, resStatus := st.code,
                               resSection := sec }).raise 0 1).nextReset

/-- R569, R588: what every JVK command meets first: BUSY while another runs, and before DEFAULT_DONE. -/
def State.jvkCmd (s : State) (f : State → State) : State :=
  if s.pstate = 4 ∨ s.hif.heldInReset then s
  else if s.jvk.running.isSome then s.modJvk fun j => { j with resStatus := Status.busy.code, resSection := 0 }
  else if !s.hif.defaultDone then s.jvkEnd .busy 0
  else f s

/-! ### Staging (R557, R567, R568) -/

/-- The longest image (Table 15.1). -/
def maxImage : Nat := 0x1000000 + 16608

/-- Bytes that JVK reads from host memory at SRC: none where no stream may carry the read (R523); nothing of a length that
no image can have. -/
def State.jvkRead (s : State) (max : Nat) : Option (List Byte) :=
  let n := (s.reg (blkJVK + 0x10)).toNat
  if !s.ideOk 0 then none else some (if max < n then [] else s.bytesAt 8 (hostDpa + s.reg64 (blkJVK + 8)) n)

/-- Start a command. -/
def State.jvkStart (s : State) (c : JvkCmd) : State := s.modJvk fun j => { j with running := some c }

/-- STAGE (R557): the image staged before is discarded, and the new one is read. -/
def execStage (s : State) : Host.Outcome State Fault Refusal :=
  .next (s.jvkCmd fun s => (s.modJvk fun j => { j with staged := none, reading := s.jvkRead maxImage }).jvkStart .stage)

/-- DISCARD (R557). -/
def execDiscard (s : State) : Host.Outcome State Fault Refusal :=
  .next (s.jvkCmd fun s => (s.modJvk fun j => { j with staged := none }).jvkEnd .done 0)

/-- SAVE_DEFAULT (R567). -/
def execSaveDefault (s : State) : Host.Outcome State Fault Refusal :=
  .next (s.jvkCmd fun s => if s.jvk.staged.isNone then s.jvkEnd .range 0x3FF else s.jvkStart .saveDefault)

/-- ERASE_DEFAULT (R567). -/
def execEraseDefault (s : State) : Host.Outcome State Fault Refusal :=
  .next (s.jvkCmd fun s => (s.modJvk fun j => { j with flashDefault := none }).jvkEnd .done 0)

/-- FW_STAGE (R568), with the verdict on the firmware's signatures under Galsan's keys and its security version (log 6). -/
def execFwStage (verified : Bool) (version : Nat) (s : State) : Host.Outcome State Fault Refusal :=
  .next (s.jvkCmd fun s =>
    let st : Status := if !verified then .sigFail else if version < s.fuses.fwFloor then .badImage else .done
    (s.modJvk fun j => { j with fwStaged := false, fwStagedRaw := [], reading := s.jvkRead (0x100000000), pendStatus := st.code }).jvkStart .fwStage)

/-- FW_INSTALL (R568): on a drained package, clear the valid mark and write; with nothing staged, RANGE (log 27). -/
def execFwInstall (s : State) : Host.Outcome State Fault Refusal :=
  .next (s.jvkCmd fun s =>
    if !s.drained then s.jvkEnd .busy 0
    else if !s.jvk.fwStaged then s.jvkEnd .range 0
    else (s.modJvk fun j => { j with flashFwValid := false }).jvkStart .fwInstall)

/-- JVK_RESERVED_CODE (R570): CODE 0 or 8 to 15. -/
def execJvkReservedCode (code : Fin 16) (s : State) : Host.Outcome State Fault Refusal :=
  .next (if 1 ≤ code.val ∧ code.val ≤ 7 then s else s.jvkCmd fun s => s.jvkEnd .range 0)

/-- JVK_COMMAND_DONE (R570): the command that runs ends; a commit ends with its flash writes. -/
def State.jvkDone (s : State) : State :=
  match s.jvk.running with
  | some .stage => match s.jvk.reading with
    | none => s.jvkEnd .permission 0x3FF
    | some raw =>
      let im := readImage raw
      match s.stageRefusal im raw.length with
      | some (st, i) => s.jvkEnd st i
      | none => (s.modJvk fun j => { j with staged := some im }).jvkEnd .done 0
  | some .saveDefault => (s.modJvk fun j => { j with flashDefault := j.staged.map Image.raw }).jvkEnd .done 0
  | some .fwStage => match s.jvk.reading with
    | none => s.jvkEnd .permission 0
    | some raw =>
      if s.jvk.pendStatus = Status.sigFail.code then s.jvkEnd .sigFail 0
      else if s.jvk.pendStatus = Status.badImage.code then s.jvkEnd .badImage 0
      else (s.modJvk fun j => { j with fwStaged := true, fwStagedRaw := raw }).jvkEnd .done 0
  | some .fwInstall => (s.modJvk fun j => { j with flashFw := j.fwStagedRaw, flashFwValid := true }).jvkEnd .done 0
  | _ => s

/-- JVK_COMMAND_DONE (R570). -/
def execJvkCommandDone (s : State) : Host.Outcome State Fault Refusal := .next (s.whileOn fun s => s.jvkDone)

/-! ### What a commit tests (R558 to R560, R562) -/

/-- R558: a section differs between two images, or is present in one alone. -/
def secChanged (a b : Option ImgSection) : Bool := decide (a.map (fun x => (x.count, x.bytes)) ≠ b.map fun x => (x.count, x.bytes))

/-- Table 15.7: a COVE section without its LIVE fields. -/
def coveFixed (b : List Byte) : List Byte := b.take 4 ++ b.drop 0x18

/-- R558: a slot is idle. -/
def State.slotIdle (s : State) (i : Nat) : Bool :=
  !(s.liveEntries.any fun e => (decide (s.homeCove e = some (i / 8)) && decide (s.sget e 5 1 % 8 = i % 8)) ||
      (decide (s.sServeCove e = i / 8) && decide (s.sServeSlot e = i % 8))) &&
    !((s.seqc (i / 8)).run.any fun r => r.slot = i % 8)

/-- Coves whose placements differ between two images (Table 15.3). -/
def placementCoves (a b : SMap (Option Placement)) : List Nat :=
  (List.range 64).flatMap fun i =>
    let x := SMap.get none a i
    let y := SMap.get none b i
    if x = y then [] else ([x, y].filterMap id).map fun p => p.cove

/-- R562: an object at or above an index is not FREE. -/
def State.objectsAbove (s : State) (c n : Nat) : Bool :=
  s.objs.any fun o => decide (o.1 / 16384 = c) && decide (n ≤ o.1 % 16384) && decide (o.2.word.state ≠ .free)

/-- Tables 15.3 and 15.11: whether a changed section may apply. -/
def State.classOk (s : State) (im : Image) (type index : Nat) : Bool :=
  let old := s.image
  match type with
  | 1 => old.isNone
  | 4 => !im.portsHead.recordClear || s.drained
  | 11 => (placementCoves ((old.map Image.placements).getD []) im.placements).all s.coveDrained
  | 0x10 =>
    let a := (old.bind fun o => secOf o.sections 0x10 index).map ImgSection.bytes
    let b := (secOf im.sections 0x10 index).map ImgSection.bytes
    (match a, b with
      | some x, some y => decide (coveFixed x = coveFixed y)
      | _, _ => false) ||
      (s.coveDrained index && match b with
        | some y => !s.objectsAbove index (readCove y).objCount
        | none => true)
  | 0x11 => s.slotIdle index
  | _ => true

/-- R558: the first changed section, in section-table order, whose class forbids it; then sections that the image
removes, which have no place in its table. -/
def State.classRefusal (s : State) (im : Image) : Refused :=
  let old := (s.image.map Image.sections).getD []
  let now := im.sections.zipIdx.find? fun x => secChanged (secOf old x.1.type x.1.index) (some x.1) && !s.classOk im x.1.type x.1.index
  let gone := old.find? fun x => (secOf im.sections x.type x.index).isNone && !s.classOk im x.type x.index
  match now, gone with
  | some x, _ => some (.busy, x.2)
  | none, some _ => some (.busy, 0x3FF)
  | none, none => none

/-- R558 to R560: what refuses a commit. -/
def State.commitRefusal (s : State) (im : Image) : Refused :=
  if s.stopped then some (.targetStopped, 0x3FF)
  else if s.pstate = 3 ∨ (s.hbm.move.isSome ∧ im.spareCh = 0) then some (.busy, 0x3FF)
  else orElseRefused [s.row6 im, s.row8 im, s.row9 im, s.programRefusal im, s.classRefusal im]

/-! ### The commit point (R561 to R563) -/

/-- R562: a commit removes a cove, or changes its ranges. -/
def coveMoves (a b : Option CoveDecl) : Bool :=
  match a, b with
  | some x, some y => decide (x.hbmBase ≠ y.hbmBase) || decide (x.hbmBytes ≠ y.hbmBytes) || decide (x.deepBase ≠ y.deepBase) || decide (x.deepBytes ≠ y.deepBytes)
  | some _, none => true
  | none, _ => false

/-- R562, R516: what such a commit does to the cove. -/
def State.commitCove (s : State) (im : Image) (c : Nat) : State :=
  if coveMoves (s.cove c) (vget none im.coves c) then
    ((((s.nextEpoch c).eraseCoveKeys c).freeObjects c).zeroMereOf c).modSeq c fun x => { x with quar := [], quarOk := [], quarBad := [] }
  else s

/-- Table 15.11: whether a commit changes a port's entry, its group's width or the ETH address of its frames. -/
def portChanges (a b : Image) (p : Nat) : Bool :=
  decide (a.portAt p ≠ b.portAt p) || decide ((a.portAt (p / 2 * 2)).width4 ≠ (b.portAt (p / 2 * 2)).width4) ||
    (decide ((b.portAt p).mode = 2) && (decide (a.portsHead.ethPrefix ≠ b.portsHead.ethPrefix) || decide (a.portsHead.ethUdp ≠ b.portsHead.ethUdp)))

/-- R558, R422: close the connections of the ports that a commit changes, under the image in force. -/
def State.commitClose (s : State) (im : Image) : State :=
  let old := s.image.getD {}
  ((List.range s.portCount).filter fun p => portChanges old im p && decide ((s.port p).state ≠ .off) && decide ((s.port p).state ≠ .out)).foldl (fun s p =>
    let ks := (s.portConns p).filter fun k => (s.conn k).isOpen
    ks.foldl (fun s k => s.failConn p k) (s.portTo p .down)) s

/-- R444, Table 11.8: the ports under the new image: `old` is the image before it, and `clear` says that the port record is
cleared. -/
def State.commitPorts (s : State) (old im : Image) (clear : Bool) : State :=
  (List.range s.portCount).foldl (fun s p =>
    let mode := (im.portAt p).mode
    match (s.port p).state with
    | .out => if !clear then s else if mode = 0 then s.portTo p .off else s.train p
    | .off => if mode = 0 then s else s.train p
    | _ => if mode = 0 then s.portTo p .off else if portChanges old im p then s.train p else s) s

/-- R561: connections to nodes no longer listed close without resync. -/
def State.commitNodes (s : State) (im : Image) : State :=
  (SMap.keys (SMap.filter (fun k c => c.isOpen && !(im.nodes.any fun n => decide (n.node = k % 65536))) s.lnk.conns)).foldl (fun s k => s.resolve k) s

/-- R562, R244: slots whose section changed start anew; every committed cove clears DEGRADED. -/
def State.commitSlots (s : State) (old im : Image) : State :=
  let s := ((List.range 64).filter fun i => secChanged (secOf old.sections 0x11 i) (secOf im.sections 0x11 i)).foldl (fun s i =>
    s.modSeq (i / 8) fun x => { x with kappa := modNth x.kappa (i % 8) fun _ => 256, rFb := modNth x.rFb (i % 8) fun _ => 0 }) s
  (im.coveList.map Prod.fst).foldl (fun s c => s.modSeq c fun x => { x with degraded := false }) s

/-- R563, R218: what the first commit after cold reset does beside. -/
def State.firstCommit (s : State) (im : Image) : State :=
  let s := { s with jvk := { s.jvk with boundNode := im.ownNode s.lnk.pos },
                    streams := SMap.mapAll 0 (fun _ x => setEntField x 0 1 0) s.streams, ready := [], strm := [],
                    bsn := { s.bsn with ssnOut := [], seqIn := [] }, rip := { s.rip with live := true } }
  s.openBatch 0

/-- R353: slots that a commit has made ready. -/
def State.commitReady (s before : State) : State :=
  (List.range 8).foldl (fun s c => s.noteSlots c ((List.range 8).filter fun sl => s.slotReady c sl && !before.slotReady c sl)) s

/-- R561: the commit point: every part of the image takes effect at one instant. -/
def State.applyImage (s : State) (im : Image) : State :=
  let before := s
  let first := s.image.isNone
  let old := s.image.getD {}
  let clear := im.portsHead.recordClear && s.drained
  let s := if first || secChanged (secOf old.sections 9 0) (secOf im.sections 9 0) then s.loseAttested else s
  let s := (List.range 8).foldl (fun s c => s.commitCove im c) s
  let s := (s.commitClose im).asIf im
  let s := if first then s.firstCommit im else s
  let s := ((s.commitNodes im).commitPorts old im clear).commitSlots old im
  let kept := s.lnk.zReady.filter fun n => decide (SMap.get [] old.links n = SMap.get [] im.links n) && (SMap.keys im.links).contains n
  let s : State := { s with lnk := { s.lnk with zReady := kept }, hbm := { s.hbm with scrubOn := true } }
  let s := if s.pstate = 1 ∨ s.pstate = 2 then { s.toPstate 0 with hbm := { s.hbm with selfRefresh := false } } else s
  (List.range 9).foldl (fun s fn => s.flushVectors fn) ((s.routesChanged before).commitReady before)

/-- COMMIT (R558): with nothing staged, RANGE (log 27). -/
def execCommit (s : State) : Host.Outcome State Fault Refusal :=
  .next (s.jvkCmd fun s => match s.jvk.staged with
    | none => s.jvkEnd .range 0x3FF
    | some im => match s.commitRefusal im with
      | some (st, i) => s.jvkEnd st i
      | none => (s.modJvk fun j => { j with commitWait := true }).jvkStart .commit)

/-- COMMIT_POINT (R561): the conditions of R558 are judged as they stand at this instant. -/
def State.commitPoint (s : State) : State :=
  if !s.jvk.commitWait then s
  else match s.jvk.staged with
    | none => s.jvkEnd .range 0x3FF
    | some im => match s.commitRefusal im with
      | some (st, i) => s.jvkEnd st i
      | none => (s.applyImage im).modJvk fun j => { j with commitWait := false, flashWait := true }

/-- COMMIT_POINT (R561). -/
def execCommitPoint (s : State) : Host.Outcome State Fault Refusal := .next (s.whileOn fun s => s.commitPoint)

/-- R564: the flash writes of a commit: the floor, the roster clear, the port record clear. -/
def State.commitFlash (s : State) (im : Image) : State :=
  let s := s.modJvk fun j => { j with floors := vmod j.floors s.floorSlot fun _ => im.floor }
  let s := if im.rosterClear then { s with hbm := { s.hbm with flashRoster := [] } } else s
  let s := if im.portsHead.recordClear then
      { s with lnk := { s.lnk with portRecord := s.lnk.portRecord.filter fun p => (s.port p).state = .out } }
    else s
  s.bump (blkJVK + 0x60) 1

/-- COMMIT_FLASH_DONE (R564). -/
def execCommitFlashDone (s : State) : Host.Outcome State Fault Refusal :=
  .next (s.whileOn fun s => if !s.jvk.flashWait then s
    else match s.image with
      | none => s
      | some im => (s.commitFlash im).jvkEnd .done 0)

/-! ### The default image at boot (R566) -/

/-- DEFAULT_IMAGE_COMMIT (R566): the user default is read, staged and committed; a refused one leaves the factory
defaults. -/
def State.defaultCommit (s : State) : State :=
  if !s.booting ∨ !s.hif.trimDone ∨ s.hif.defaultDone then s
  else
    let s := s.modHif fun h => { h with defaultDone := true }
    match s.jvk.flashDefault with
    | none => s
    | some raw =>
      let im := readImage raw
      match orElseRefused [s.stageRefusal im raw.length, s.commitRefusal im] with
      | some (st, _) => s.modJvk fun j => { j with defaultStatus := st.code, defaultInForce := false }
      | none => ((s.applyImage im).commitFlash im).modJvk fun j => { j with defaultStatus := 0, defaultInForce := true }

/-- DEFAULT_IMAGE_COMMIT (R566). -/
def execDefaultImageCommit (s : State) : Host.Outcome State Fault Refusal := .next (s.whileOn fun s => s.defaultCommit)

end Sys2Proof.Machine
end

