-- ==== Sys2Proof/Machine/Registers.lean ====
section
/-! DEFINITION. Sys2Proof/Machine/Registers.lean: writes of the registers that have no behaviour of their own, by access
code, and BAR0 accesses of a wrong size or alignment (spec/00_scope.md R11, R23 to R25; spec/16_host_interface_and_reset.md
R573, R574, R576; spec/17_faults_and_recovery.md R620). -/
namespace Sys2Proof.Machine
open Sys2Proof

/-! ### What a function reaches (R573, R576) -/

/-- Functions as commands number them: 0 PF0, 1 + v VF v, 9 PF1 (R572). -/
abbrev Fn := Nat

/-- R573, Table 16.2: the part of BAR0 that VF c shows, without the CVU. -/
def vfShows (c off : Nat) : Bool :=
  let blk := off / 0x100000
  let rel := off % 0x100000
  decide (blk = 0) ||
    (coveBlock blk && decide (0x1000 + 0x100 * c ≤ rel) && decide (rel < 0x1100 + 0x100 * c)) ||
    (decide (blk = 0x02) && ((decide (0x60000 + 0x400 * c ≤ rel) && decide (rel < 0x60400 + 0x400 * c)) ||
      decide (rel = 0) || decide (rel ∈ [0x18, 0x1C, 0x20, 0x24, 0x28, 0x2C]))) ||
    (decide (blk = 0x05) && decide (0x80000 + 0x100 * c ≤ rel) && decide (rel < 0x80100 + 0x100 * c)) ||
    decide (off = blkMEM) || decide (off = blkWH)

/-- R403: the arrival counter that a BAR0 offset belongs to. -/
def ctrIndex (off : Nat) : Option Nat :=
  if blkBSN + 0x80000 ≤ off ∧ off < blkBSN + 0x100000 then some ((off - (blkBSN + 0x80000)) / 8) else none

/-- R640: the CVU instance that a BAR0 offset belongs to. -/
def cvuIndex (off : Nat) : Option Nat :=
  if blkCVU + 0x1000 ≤ off ∧ off < blkCVU + 0x1400 then some ((off - (blkCVU + 0x1000)) / 0x100) else none

/-- R11, R450: the block or sub-block of a unit that the ordering code leaves out. -/
def State.absentAt (s : State) (off : Nat) : Bool :=
  (decide (s.fuses.variant = .s) && (decide (off / 0x100000 = blkSHOAL / 0x100000) ||
    (decide (blkATN + 0x80000 ≤ off) && decide (off < blkATN + 0x100000)))) ||
    (decide (s.fuses.variant = .s) && decide (portOff 24 0 ≤ off) && decide (off < portOff 36 0)) ||
    (decide (s.fuses.variant = .m) && decide (blkSPW + 0x80000 ≤ off) && decide (off < blkSPW + 0x100000))

/-- R573, R576, R639, R403: a function's BAR0 shows the register at an offset. -/
def State.sees (s : State) (fn : Fn) (off : Nat) : Bool :=
  decide (fn = 0) ||
    (decide (fn = 9) && decide (off / 0x100000 = 0)) ||
    (decide (fn ≠ 9) && (decide (off / 0x100000 = 0) || (s.vfLive fn &&
      (match cvuIndex off with
       | some i => s.cvuSees fn i
       | none => match ctrIndex off with
         | some i => (s.cove (fn - 1)).any fun d => decide (d.ctrFirst ≤ i) && decide (i < d.ctrFirst + d.ctrCount)
         | none => vfShows (fn - 1) off))))

/-! ### Write-one-to-clear bits (Table 00.5) -/

/-- The W1C bits of the register at an offset. -/
def w1cMask (off : Nat) : Nat :=
  let blk := off / 0x100000
  let rel := off % 0x100000
  if cvuIndex off ≠ none then (if rel % 0x100 = 0x20 then 1 else 0)
  else if 0x1000 ≤ rel ∧ rel < 0x1800 then
    (if blk ∈ [0x04, 0x05, 0x06, 0x0A, 0x0B] ∧ rel % 0x100 = 8 then 0x30000
     else if blk = 0x08 ∧ rel % 0x100 = 0x28 then 0x80000000 else 0)
  else if off = blkHIF + 0x10 then 0xF
  else if off = blkMEM + 0xC then 0xF
  else if off = blkLNK + 0x24 then 0x3F
  else if off = blkGAU then 0x24
  else if off = blkWEIR + 4 then 0x7F
  else if off = blkWH + 4 then 0x1F
  else if off = blkRIP + 4 then 3
  else if off = blkFLT + 4 then 0x1F
  else 0

/-! ### A write -/

/-- The COVE byte of Table 17.9 for a register: its cove where the block keeps it per cove, else the package. -/
def regCove (off : Nat) : Nat :=
  let rel := off % 0x100000
  if coveBlock (off / 0x100000) && decide (0x1000 ≤ rel) && decide (rel < 0x1800) then (rel - 0x1000) / 0x100 else 0x80

/-- R24, R620: an RWL write after commit is ignored, logged with kind 0x07 and counted in RWL_IGNORED (log 31). -/
def State.rwlIgnored (s : State) (off : Nat) (value : Word) : State :=
  (s.faultLog 0x07 unitHost .done (regCove off) off value.toNat).bump (blkFLT + 0x7C) 1

/-- R620: a write of LOG_TAIL; LOG_FULL falls once the log has room (log 31). -/
def State.logTail (s : State) (value : Word) : State :=
  let s := s.setReg regLogTail value
  if s.flt.logHead - value.toNat < 256 then { s with flt := { s.flt with logFull := false } } else s

/-- A write of a plain register. -/
def State.plainWrite (s : State) (off : Nat) (r : RegSpec) (value : Word) : State :=
  if r.acc = .rwl && s.image.isSome then s.rwlIgnored off value
  else if off = regLogTail then s.logTail value
  else if off / 0x100000 = 0x03 ∧ off % 0x100 = 0x10 then
    (if (s.seqc ((off - (blkSEQ + 0x1000)) / 0x100)).stepEn then s else s.setReg off value)
  else s.setReg off (value &&& BitVec.ofNat 32 r.mask)

/-- A write of one register (R24, R25). -/
def State.writeReg (s : State) (fn : Fn) (off : Nat) (value : Word) : State :=
  if s.absentAt off || !s.sees fn off then s
  else match regSpec off with
    | some r => s.plainWrite off r value
    | none => if w1cMask off = 0 then s else s.setFlags off (s.flag off &&& ~~~(value &&& BitVec.ofNat 32 (w1cMask off)))

/-- R574: an access of a wrong size or alignment. -/
def State.badAccess (s : State) : State := if s.answers then s.barError.emit .barUR else s

/-- REGISTER_WRITE (R24): a write of 4 bytes, or of 8 with the high half. Writes of registers that act are commands of
their own. -/
def execRegisterWrite (fn : Fin 10) (offset : Fin 0x4000000) (value : Word) (high : Option Word) (s : State) : Host.Outcome State Fault Refusal :=
  .next (if !s.answers then s
    else if offset.val % 4 ≠ 0 then s.badAccess
    else match high with
      | none => s.writeReg fn.val offset.val value
      | some h => if offset.val % 8 ≠ 0 then s.badAccess else (s.writeReg fn.val offset.val value).writeReg fn.val (offset.val + 4) h)

/-- BAR0_BAD_ACCESS (R574). -/
def execBar0BadAccess (s : State) : Host.Outcome State Fault Refusal := .next s.badAccess

end Sys2Proof.Machine
end

