-- ==== Sys2Proof/Machine/Wellhead.lean ====
section
/-! DEFINITION. Sys2Proof/Machine/Wellhead.lean: SPDM mailboxes and sessions, attestation, the key broker, owner
commands, debug levels and IDE streams (spec/14_security.md R510 to R543). -/
namespace Sys2Proof.Machine
open Sys2Proof

/-! ### Mailboxes (R524, R528) -/

/-- Codes of SPDM responses (DSP0274; log 24). -/
def spdmDigests : Nat := 0x01
def spdmCertificate : Nat := 0x02
def spdmChallengeAuth : Nat := 0x03
def spdmVersion : Nat := 0x04
def spdmMeasurements : Nat := 0x60
def spdmCapabilities : Nat := 0x61
def spdmAlgorithms : Nat := 0x63
def spdmKeyExchangeRsp : Nat := 0x64
def spdmFinishRsp : Nat := 0x65
def spdmHeartbeatAck : Nat := 0x68
def spdmKeyUpdateAck : Nat := 0x69
def spdmEndSessionAck : Nat := 0x6C
def spdmVendor : Nat := 0x7E
def spdmErrorCode : Nat := 0x7F

/-- Mailbox of PF0, those of VF 0 to 7, and that of PF1, which stands at 9 and exists in split mode (R572). -/
def State.boxThere (s : State) (box : Nat) : Bool := s.answers && (decide (box ≠ 9) || s.hif.split)

/-- The mailbox of a function. -/
def State.mbox (s : State) (box : Nat) : Mailbox := vget {} s.wh.boxes box

/-- Change a mailbox. -/
def State.modBox (s : State) (box : Nat) (f : Mailbox → Mailbox) : State := s.modWh fun w => { w with boxes := vmod w.boxes box f }

/-- An SPDM response. -/
def State.spdm (s : State) (box code : Nat) (data : List Byte) : State := s.emit (.spdm box code data)

/-- An SPDM error. -/
def State.spdmError (s : State) (box : Nat) : State := s.spdm box spdmErrorCode []

/-- The answer to a Galsan command: its status and what follows it. -/
def State.vendorReply (s : State) (box : Nat) (st : Status) (data : List Byte) : State :=
  s.spdm box spdmVendor (BitVec.ofNat 8 st.code :: data)

/-- A request arrives at a mailbox; whatever is not GET_PQ_SIG ends what GET_PQ_SIG could sign (R527). -/
def State.atBox (s : State) (box : Nat) (f : State → State) : State :=
  if s.boxThere box then f (s.modBox box fun m => { m with signed := none }) else s

/-- A request that needs the negotiation to have ended. -/
def State.negotiated (s : State) (box : Nat) (f : State → State) : State :=
  s.atBox box fun s => if (s.mbox box).algs then f s else s.spdmError box

/-- Send a signed response: one ALIAS_RSA signature over the transcript (R527). -/
def State.sendSigned (s : State) (r : SignedReply) : State :=
  ((s.modBox r.box fun m => { m with signed := some r.transcript }).whCount 0x60).spdm r.box r.code (r.data ++ s.aliasSign 0 r.transcript)

/-- Answer with a signature: an SPDM error once the fused secrets are destroyed (R537); the answer waits for the alias
keys (R543). -/
def State.signedReply (s : State) (r : SignedReply) : State :=
  if s.wh.sec = .scrapped then s.spdmError r.box
  else if s.hif.aliasReady then s.sendSigned r
  else s.modWh fun w => { w with waiting := w.waiting ++ [r] }

/-- GET_VERSION (R524). -/
def execGetVersion (box : Fin 10) (s : State) : Host.Outcome State Fault Refusal :=
  .next (s.atBox box fun s => (s.modBox box fun _ => { version := true }).spdm box spdmVersion [0x00, 0x13])

/-- GET_CAPABILITIES (R524). -/
def execGetCapabilities (box : Fin 10) (s : State) : Host.Outcome State Fault Refusal :=
  .next (s.atBox box fun s =>
    if (s.mbox box).version then (s.modBox box fun m => { m with caps := true }).spdm box spdmCapabilities [] else s.spdmError box)

/-- NEGOTIATE_ALGORITHMS (R524): `offered` says that the requester offers every algorithm of Table 14.3. -/
def execNegotiateAlgorithms (box : Fin 10) (offered : Bool) (s : State) : Host.Outcome State Fault Refusal :=
  .next (s.atBox box fun s =>
    if (s.mbox box).caps && offered then (s.modBox box fun m => { m with algs := true }).spdm box spdmAlgorithms [] else s.spdmError box)

/-- GET_DIGESTS (R525): the digests of the chains of slots 0 and 1. -/
def execGetDigests (box : Fin 10) (s : State) : Host.Outcome State Fault Refusal :=
  .next (s.negotiated box fun s => s.spdm box spdmDigests (sha384 (s.certChain 0) ++ sha384 (s.certChain 1)))

/-- GET_CERTIFICATE (R525): part of the chain of a slot. -/
def execGetCertificate (box : Fin 10) (slot : Fin 8) (offset length : Half) (s : State) : Host.Outcome State Fault Refusal :=
  .next (s.negotiated box fun s =>
    if 1 < slot.val then s.spdmError box
    else s.spdm box spdmCertificate (((s.certChain slot).drop offset.toNat).take length.toNat))

/-- CHALLENGE (R527). -/
def execChallenge (box : Fin 10) (transcript : List Byte) (s : State) : Host.Outcome State Fault Refusal :=
  .next (s.negotiated box fun s => s.signedReply { box, code := spdmChallengeAuth, data := [], transcript })

/-! ### Measurements (R526) -/

/-- The bytes of the first section of a type in the committed image. -/
def Image.sectionBytes (im : Image) (type : Nat) : List Byte :=
  match im.sections.find? fun x => x.type = type with
  | some x => x.bytes
  | none => []

/-- Digest of the roster summary and the port record (measurement 8; layout of log 25). -/
def State.rosterDigest (s : State) : List Byte :=
  sha384 ((List.range 384).map (fun ch => BitVec.ofNat 8 (s.chan ch).code) ++
    ((List.range 36).map fun p => if p ∈ s.lnk.portRecord then (1 : Byte) else 0))

/-- The content of a measurement block (Table 14.5; raw layouts of log 25). -/
def State.measurement (s : State) (i : Nat) : List Byte :=
  match i with
  | 1 => Config.measured 1
  | 2 => s.fwDigest
  | 3 => match s.image with
    | some im => sha384 (im.sectionBytes 9)
    | none => List.replicate 48 0
  | 4 => match s.image with
    | some im => sha384 im.raw
    | none => List.replicate 48 0
  | 5 => [BitVec.ofNat 8 s.wh.sec.code, BitVec.ofNat 8 s.debug, BitVec.ofNat 8 s.wh.ownerSlot, 0]
  | 6 => leBytes 2 s.ownNode ++ leBytes 2 s.lnk.pos ++ leBytes 2 s.lnk.inc
  | 7 => s.wh.keys.toList.flatMap fun k => match k with
    | some k => 1 :: BitVec.ofNat 8 k.cove :: k.kcv
    | none => List.replicate 10 0
  | _ => s.rosterDigest

/-- Type byte of a block in DMTF measurement form; bit 7 marks a raw one (DSP0274; log 24). -/
def measurementType (i : Nat) : Byte := nth 0 [0, 0x00, 0x01, 0x03, 0x03, 0x85, 0x82, 0x83, 0x02] i

/-- A block in DMTF measurement form. -/
def State.measurementBlock (s : State) (i : Nat) : List Byte :=
  let v := s.measurement i
  [BitVec.ofNat 8 i, 1] ++ leBytes 2 (v.length + 3) ++ [measurementType i] ++ leBytes 2 v.length ++ v

/-- The measurement record: every block (R526). -/
def State.measurementRecord (s : State) : List Byte := ((List.range 8).map fun i => s.measurementBlock (i + 1)).flatten

/-- GET_MEASUREMENTS (R526, R527): the number of blocks (0), one block (1 to 8), or all of them (255). -/
def execGetMeasurements (box : Fin 10) (index : Fin 256) (transcript : List Byte) (s : State) : Host.Outcome State Fault Refusal :=
  .next (s.negotiated box fun s =>
    if index.val = 0 then s.signedReply { box, code := spdmMeasurements, data := [8], transcript }
    else if index.val ≤ 8 then s.signedReply { box, code := spdmMeasurements, data := s.measurementBlock index, transcript }
    else if index.val = 255 then s.signedReply { box, code := spdmMeasurements, data := s.measurementRecord, transcript }
    else s.spdmError box)

/-! ### Secure sessions -/

/-- A session of a mailbox, by its number there. -/
def State.session (s : State) (box k : Nat) : Option Session := SMap.get none s.wh.sessions (16 * box + k)

/-- Set a session. -/
def State.setSession (s : State) (box k : Nat) (x : Option Session) : State :=
  s.modWh fun w => { w with sessions := SMap.put none w.sessions (16 * box + k) x }

/-- Sessions of a mailbox (Table 14.3). -/
def sessionLimit (box : Nat) : Nat := if box = 0 then 4 else 1

/-- Act within an open session of a mailbox. -/
def State.inSession (s : State) (box k : Nat) (f : State → Session → State) : State :=
  s.atBox box fun s =>
    match s.session box k with
    | some x => if x.opened then f s x else s.spdmError box
    | none => s.spdmError box

/-- KEY_EXCHANGE (R524): a free session of the mailbox is taken; mutual authentication is requested on PF0 only. -/
def execKeyExchange (box : Fin 10) (mutualAuth : Bool) (transcript : List Byte) (s : State) : Host.Outcome State Fault Refusal :=
  .next (s.negotiated box fun s =>
    match (List.range (sessionLimit box)).find? fun k => (s.session box k).isNone with
    | none => s.spdmError box
    | some k =>
      if s.wh.sec = .scrapped then s.spdmError box
      else
        (s.setSession box k (some { fn := box, mutualAuth := mutualAuth && decide (box.val = 0) })).signedReply
          { box, code := spdmKeyExchangeRsp, data := [BitVec.ofNat 8 k], transcript })

/-- FINISH (R524, R530): the handshake verifies, or not; `rsa` is the SHA-384 of the RSA key of the certificate with which
the requester authenticated itself. -/
def execFinish (box : Fin 10) (k : Fin 4) (good : Bool) (rsa : Option (BitVec 384)) (s : State) : Host.Outcome State Fault Refusal :=
  .next (s.atBox box fun s =>
    match s.session box k with
    | some x =>
      if x.opened then s.spdmError box
      else if !good || (x.mutualAuth && rsa.isNone) then (s.setSession box k none).spdmError box
      else
        let isBroker := match s.image, rsa with
          | some im, some d => decide (leBytes 48 d.toNat = im.brokerRsa)
          | _, _ => false
        ((s.setSession box k (some { x with opened := true, rsaMatch := x.mutualAuth && isBroker })).whCount 0x40).spdm box spdmFinishRsp []
    | none => s.spdmError box)

/-- KEY_UPDATE (R524). -/
def execKeyUpdate (box : Fin 10) (k : Fin 4) (s : State) : Host.Outcome State Fault Refusal :=
  .next (s.inSession box k fun s x => (s.setSession box k (some { x with updates := x.updates + 1 })).spdm box spdmKeyUpdateAck [])

/-- HEARTBEAT (R524). -/
def execHeartbeat (box : Fin 10) (k : Fin 4) (s : State) : Host.Outcome State Fault Refusal :=
  .next (s.inSession box k fun s _ => s.spdm box spdmHeartbeatAck [])

/-- END_SESSION (R524). -/
def execEndSession (box : Fin 10) (k : Fin 4) (s : State) : Host.Outcome State Fault Refusal :=
  .next (s.inSession box k fun s _ => (s.setSession box k none).spdm box spdmEndSessionAck [])

/-! ### Galsan commands of any function (R525, R527) -/

/-- GET_PQ_CERT (R525). -/
def execGetPqCert (box : Fin 10) (s : State) : Host.Outcome State Fault Refusal :=
  .next (s.atBox box fun s => s.vendorReply box .done (s.certChain 2))

/-- GET_PQ_SIG (R527): an ALIAS_SLH signature over the transcript of the signed response just sent, or RANGE. -/
def execGetPqSig (box : Fin 10) (s : State) : Host.Outcome State Fault Refusal :=
  .next (if !s.boxThere box then s
    else match (s.mbox box).signed with
    | none => s.vendorReply box .range []
    | some t =>
      let s := s.modBox box fun m => { m with signed := none }
      if s.wh.sec = .scrapped then s.spdmError box else (s.whCount 0x60).vendorReply box .done (s.aliasSign 1 t))

/-! ### The key broker (R530 to R533) -/

/-- A command of the broker: PERMISSION but in an open session on PF0 whose PQ_FINISH has verified (R530, R532). -/
def State.broker (s : State) (box k : Nat) (f : State → State) : State :=
  s.atBox box fun s =>
    if box = 0 && (s.session box k).any (fun x => x.opened && x.broker) then f s else s.vendorReply box .permission []

/-- PQ_FINISH (R530): the broker's SLH-DSA key, and its signature over the session transcript. -/
def execPqFinish (box : Fin 10) (k : Fin 4) (slhKey transcript signature : List Byte) (s : State) : Host.Outcome State Fault Refusal :=
  .next (if box.val ≠ 0 then s.atBox box fun s => s.spdmError box
    else s.inSession box k fun s x =>
      if !x.rsaMatch then s.vendorReply box .permission []
      else if s.image.any (fun im => decide (sha384 slhKey = im.brokerSlh)) && Config.sigVerifies slhKey transcript signature then
        (s.setSession box k (some { x with broker := true })).vendorReply box .done []
      else (s.whEvent 4).vendorReply box .sigFail [])

/-- SET_ATTESTED (R531): the digest of the measurement record that the broker has judged good. -/
def execSetAttested (box : Fin 10) (k : Fin 4) (digest : BitVec 384) (s : State) : Host.Outcome State Fault Refusal :=
  .next (s.broker box k fun s =>
    if s.wh.sec ≠ .sealed then s.vendorReply box .permission []
    else if leBytes 48 digest.toNat = sha384 s.measurementRecord then
      (s.modWh fun w => { w with sec := .attested }).vendorReply box .done []
    else s.vendorReply box .busy [])

/-- The key check value of a model key (R529). -/
def keyCheckValue (key : List Byte) : List Byte := (hmac384 key [0x52, 0x56, 0x58, 0x39, 0x20, 0x4B, 0x43, 0x56]).take 8

/-- Put a model key in a slot (R529, R532): the lease is in seconds, 0xFFFFFFFF for none. -/
def State.putKey (s : State) (slot cove lease : Nat) (key : List Byte) : State :=
  let k : ModelKey := { key, cove, kcv := keyCheckValue key, put := s.now,
                        lease := if lease = 0xFFFFFFFF then none else some (s.now + 100000000 * lease) }
  (((s.modWh fun w => { w with keys := vmod w.keys slot fun _ => some k }).whCount 0x48).whEvent 0).raise (1 + cove) 4

/-- KEY_PUT (R532): checked in the order of its table. -/
def execKeyPut (box : Fin 10) (k : Fin 4) (slot cove : Byte) (lease : Word) (reserved : Bool) (key : BitVec 512) (s : State) :
    Host.Outcome State Fault Refusal :=
  .next (s.broker box k fun s =>
    if s.wh.sec ≠ .attested then s.vendorReply box .permission []
    else if 31 < slot.toNat ∨ (s.cove cove.toNat).isNone ∨ lease = 0 ∨ reserved then s.vendorReply box .range []
    else if (vget none s.wh.keys slot.toNat).isSome then s.vendorReply box .busy []
    else if s.stopped then s.vendorReply box .targetStopped []
    else
      let key := leBytes 64 key.toNat
      (s.putKey slot.toNat cove.toNat lease.toNat key).vendorReply box .done (keyCheckValue key))

/-- KEY_USABLE (R532): 50 µs after the response. -/
def execKeyUsable (slot : Fin 32) (s : State) : Host.Outcome State Fault Refusal :=
  .next (s.whileOn fun s => match vget none s.wh.keys slot with
    | some k =>
      if k.put + 5000 ≤ s.now then s.modWh fun w => { w with keys := vmod w.keys slot fun _ => some { k with usable := true } } else s
    | none => s)

/-- KEY_ERASE (R533): the named slot, or all. -/
def execKeyErase (box : Fin 10) (k : Fin 4) (all : Bool) (slot : Fin 32) (s : State) : Host.Outcome State Fault Refusal :=
  .next (s.broker box k fun s => (if all then s.eraseAllKeys else s.eraseKey slot).vendorReply box .done [])

/-- WH_KEY_ERASE (R533, Table 14.12). -/
def execWhKeyErase (value : Word) (s : State) : Host.Outcome State Fault Refusal :=
  .next (s.whileOn fun s => if !value.getLsbD 31 then s else if value.getLsbD 8 then s.eraseAllKeys else s.eraseKey (value.toNat % 32))

/-- LEASE_END (R533). -/
def execLeaseEnd (slot : Fin 32) (s : State) : Host.Outcome State Fault Refusal :=
  .next (s.whileOn fun s => match vget none s.wh.keys slot with
    | some k => if k.lease.any fun t => decide (t ≤ s.now) then s.eraseKey slot else s
    | none => s)

/-! ### Owner commands (R534 to R537) -/

/-- A command that is sent on PF0 alone (Table 14.6, R528). -/
def State.onPf0 (s : State) (box : Nat) (f : State → State) : State :=
  s.atBox box fun s => if box = 0 then f s else s.spdmError box

/-- The message that the signatures of a command cover (R534): code, operands, nonce, serial number. -/
def State.signedMessage (s : State) (code : Nat) (args nonce : List Byte) : List Byte :=
  leBytes 2 code ++ args ++ nonce ++ leBytes 8 s.fuses.serial

/-- Whether both signatures of a command verify by keys of the digests given (R513, R534). -/
def State.ownerSigned (s : State) (owner : Option (List Byte)) (code : Nat) (args : List Byte) (sig : OwnerSig) : Bool :=
  match s.wh.nonce with
  | none => false
  | some n =>
    let m := s.signedMessage code args n
    decide (some (sha384 sig.rsaKey ++ sha384 sig.slhKey) = owner) && Config.sigVerifies sig.rsaKey m sig.rsa && Config.sigVerifies sig.slhKey m sig.slh

/-- The owner's digests in force (R535). -/
def State.ownerNow (s : State) : Option (List Byte) := vget none s.wh.owners s.wh.ownerSlot

/-- A signed command: it consumes the nonce; a signature that fails is SIG_FAIL (R534). -/
def State.signedCommand (s : State) (box : Nat) (owner : Option (List Byte)) (code : Nat) (args : List Byte) (sig : OwnerSig)
    (f : State → State) : State :=
  let ok := s.ownerSigned owner code args sig
  let s := s.modWh fun w => { w with nonce := none }
  if ok then f s else (s.whEvent 4).vendorReply box .sigFail []

/-- GET_NONCE (R534): 32 free bytes. -/
def execGetNonce (box : Fin 10) (s : State) : Host.Outcome State Fault Refusal :=
  .next (s.onPf0 box fun s =>
    let (n, s) := s.draw
    let b := leBytes 32 n
    (s.modWh fun w => { w with nonce := some b }).vendorReply box .done b)

/-- CLAIM (R535): signed by the keys it names. -/
def execClaim (box : Fin 10) (sig : OwnerSig) (s : State) : Host.Outcome State Fault Refusal :=
  .next (s.onPf0 box fun s =>
    let d := sha384 sig.rsaKey ++ sha384 sig.slhKey
    s.signedCommand box (some d) 0x21 d sig fun s =>
      if s.wh.sec ≠ .factory then s.vendorReply box .permission []
      else
        ((s.modWh fun w => { w with owners := vmod w.owners 0 fun _ => some d, ownerSlot := 0, sec := .sealed }).setDebug 0).vendorReply box .done [])

/-- TRANSFER (R535): to the owner of two digests. -/
def execTransfer (box : Fin 10) (owner : BitVec 768) (sig : OwnerSig) (s : State) : Host.Outcome State Fault Refusal :=
  .next (s.onPf0 box fun s =>
    let d := leBytes 96 owner.toNat
    s.signedCommand box s.ownerNow 0x22 d sig fun s =>
      if s.wh.sec ≠ .sealed ∧ s.wh.sec ≠ .attested then s.vendorReply box .permission []
      else if 3 ≤ s.wh.ownerSlot then s.vendorReply box .noResource []
      else
        let n := s.wh.ownerSlot
        let s := s.modWh fun w => { w with owners := vmod (vmod w.owners n fun _ => none) (n + 1) fun _ => some d, ownerSlot := n + 1 }
        ((s.loseAttested.eraseAllKeys).setDebug 0).vendorReply box .done [])

/-- Debug levels that DEBUG_SET may reach in a security state (Table 14.8). -/
def SecState.allows (x : SecState) (level : Nat) : Bool :=
  match x with
  | .factory => true
  | .scrapped => true
  | .sealed => decide (level < 2)
  | .attested => decide (level < 2)
  | .ownerDebug => decide (2 ≤ level)

/-- DEBUG_SET past its signature: a new level is a change of measurement 5 (R533). -/
def State.debugSet (s : State) (box level : Nat) : State :=
  if !s.wh.sec.allows level then s.vendorReply box .permission []
  else (if s.debug = level then s else (s.setDebug level).loseAttested).vendorReply box .done []

/-- DEBUG_SET (R534, Table 14.8): unsigned in FACTORY and SCRAPPED. -/
def execDebugSet (box : Fin 10) (level : Fin 4) (sig : OwnerSig) (s : State) : Host.Outcome State Fault Refusal :=
  .next (s.onPf0 box fun s =>
    if s.wh.sec = .factory ∨ s.wh.sec = .scrapped then s.debugSet box level
    else s.signedCommand box s.ownerNow 0x23 [BitVec.ofNat 8 level] sig fun s => s.debugSet box level)

/-- DEBUG_ENTER (R536): erasure, epochs, Meres and Tarns, state and level, in that order. -/
def execDebugEnter (box : Fin 10) (level : Fin 4) (sig : OwnerSig) (s : State) : Host.Outcome State Fault Refusal :=
  .next (s.onPf0 box fun s =>
    s.signedCommand box s.ownerNow 0x24 [BitVec.ofNat 8 level] sig fun s =>
      if s.wh.sec ≠ .sealed ∧ s.wh.sec ≠ .attested then s.vendorReply box .permission []
      else if !s.drained then s.vendorReply box .busy []
      else if level.val < 2 then s.vendorReply box .permission []
      else
        (((s.eraseAllKeys.nextEpochs.zeroMeres).modWh fun w => { w with sec := .ownerDebug }).setDebug level).vendorReply box .done [])

/-- SCRAP past its signature (R537). OWNER_DEBUG holds until cold reset (R536). -/
def State.scrap (s : State) (box : Nat) : State :=
  if s.wh.sec = .ownerDebug then s.vendorReply box .permission []
  else if !s.drained then s.vendorReply box .busy []
  else ((s.eraseAllKeys).modWh fun w => { w with sec := .scrapped, destroyed := true, waiting := [] }).vendorReply box .done []

/-- SCRAP (R537): unsigned in FACTORY. -/
def execScrap (box : Fin 10) (sig : OwnerSig) (s : State) : Host.Outcome State Fault Refusal :=
  .next (s.onPf0 box fun s =>
    if s.wh.sec = .factory then s.scrap box
    else s.signedCommand box s.ownerNow 0x25 [] sig fun s => s.scrap box)

/-! ### IDE streams (R523) -/

/-- KEY_PROG (R523): streams 0 to 8 are the selective ones of PF0 and of VF 0 to 7, 9 is the link stream. -/
def execKeyProg (box : Fin 10) (k : Fin 4) (stream : Fin 10) (s : State) : Host.Outcome State Fault Refusal :=
  .next (s.inSession box k fun s _ =>
    (s.modWh fun w => { w with ideKeys := if stream.val ∈ w.ideKeys then w.ideKeys else w.ideKeys ++ [stream.val] }).vendorReply box .done [])

/-- K_SET_GO (R523): a stream whose keys are programmed becomes active; messages held back for want of it are sent. -/
def execKSetGo (box : Fin 10) (k : Fin 4) (stream : Fin 10) (s : State) : Host.Outcome State Fault Refusal :=
  .next (s.inSession box k fun s _ =>
    if stream.val ∉ s.wh.ideKeys then s.spdmError box
    else
      let s := s.modWh fun w =>
        if stream.val = 9 then { w with ideLink := true }
        else { w with ideSel := if stream.val ∈ w.ideSel then w.ideSel else w.ideSel ++ [stream.val] }
      ((List.range 9).foldl (fun s fn => s.flushVectors fn) s).vendorReply box .done [])

/-- K_SET_STOP (R523). -/
def execKSetStop (box : Fin 10) (k : Fin 4) (stream : Fin 10) (s : State) : Host.Outcome State Fault Refusal :=
  .next (s.inSession box k fun s _ =>
    (s.modWh fun w =>
      if stream.val = 9 then { w with ideLink := false } else { w with ideSel := w.ideSel.filter fun f => decide (f ≠ stream.val) }).vendorReply
        box .done [])

/-- ALIAS_KEYS_READY (R543): 1.5 s after cold reset; the responses that waited are sent. -/
def execAliasKeysReady (s : State) : Host.Outcome State Fault Refusal :=
  .next (s.whileOn fun s => if s.hif.aliasReady ∨ s.now < 150000000 then s
    else
      let ws := s.wh.waiting
      let s := ({ s with hif := { s.hif with aliasReady := true } }).modWh fun w => { w with waiting := [] }
      ws.foldl (fun s r => s.sendSigned r) s)

end Sys2Proof.Machine
end

