-- ==== Sys2Proof/Machine/View.lean ====
section
/-! DEFINITION. Sys2Proof/Machine/View.lean: what reads of BAR0 and BAR4 return: the register tables of every chapter, and
the views of virtual functions (spec/00_scope.md R7 to R11, R23, R24; spec/16_host_interface_and_reset.md R573 to R576,
R598). -/
namespace Sys2Proof.Machine
open Sys2Proof

/-! ### Helpers -/

/-- The half of a 64-bit quantity at an offset: the low word where the offset is a multiple of 8 (R23). -/
def half (off v : Nat) : Nat := if off % 8 = 0 then v % 0x100000000 else v / 0x100000000 % 0x100000000

/-- Whether the two halves of a pair are 32-bit counters of their own: LOG_DROPPED and RWL_IGNORED (Table 17.10), and the
like pair of the Spillway (Table 08.15). -/
def ctrApart (off : Nat) : Bool :=
  decide (off / 8 = (blkFLT + 0x78) / 8) || (decide (off / 0x100000 = 0x09) && decide (0x1000 ≤ off % 0x100000) && decide (off % 0x100000 < 0x1800) && decide (off % 0x100 / 8 = 13))

/-- A counter register as an offset shows it. -/
def State.ctrHalf (s : State) (off : Nat) : Nat :=
  if ctrApart off then (s.ctr off).toNat % 0x100000000 else half off (s.ctr (off - off % 8)).toNat

/-- Word `i` of a bitmap given bit by bit. -/
def bitWord (i : Nat) (f : Nat → Bool) : Nat := ((List.range 32).map fun b => b2n (f (32 * i + b)) * 2 ^ b).sum

/-- The word at an offset of a table of bytes. -/
def wordAt (b : List Byte) (off : Nat) : Nat := fld b (off - off % 4) 4

/-- Offsets at which counters stand (the counter tables of every block). -/
def counterAt (off : Nat) : Bool :=
  let blk := off / 0x100000
  let rel := off % 0x100000
  let r := rel % 0x100
  let within (a b x : Nat) : Bool := decide (a ≤ x) && decide (x < b)
  if coveBlock blk && within 0x1000 0x1800 rel then
    match blk with
    | 0x04 => within 0x20 0x60 r
    | 0x05 => within 0x20 0x60 r
    | 0x06 => within 0x20 0x50 r
    | 0x03 => within 0x40 0xA0 r
    | 0x08 => within 0x30 0x40 r
    | 0x09 => within 0x40 0x70 r
    | 0x0A => within 0x20 0x68 r
    | 0x0B => within 0x20 0x50 r
    | 0x12 => within 0x08 0x18 r
    | _ => false
  else
    match blk with
    | 0x01 => within 0x60 0x70 rel
    | 0x02 => within 0x40 0x58 rel
    | 0x03 => within 0 8 rel
    | 0x05 => within 0x80000 0x80800 rel && within 0 0x18 r
    | 0x07 => within 0x80 0xA0 rel
    | 0x0B => within 0x20 0x50 rel
    | 0x0C => within 0x40 0x68 rel || (within 0x1000 0x3400 rel && within 0x20 0x50 r)
    | 0x0D => within 0x80 0xC0 rel
    | 0x0E => within 0x40 0x80 rel
    | 0x0F => within 0x40 0x68 rel
    | 0x10 => within 0x40 0x58 rel
    | 0x12 => within 0x40 0x80 rel
    | _ => false

/-! ### ID, JVK and HIF -/

/-- Lanes and deep-tier controllers of an ordering code (Table 00.3). -/
def Variant.lanes (v : Variant) : Nat := if v = .s then 96 else 144
def Variant.deepCtrl (v : Variant) : Bool := decide (v ≠ .m)

/-- ID.UNITS_PRESENT (R8). -/
def State.unitsPresent (s : State) : Nat :=
  let v := s.fuses.variant
  let full := decide (v ≠ .s)
  let deep := decide (s.hbm.deepGiB ≠ 0)
  b2n full + 2 * b2n full + 4 * b2n full + 8 + 16 * b2n v.deepCtrl + 32 * b2n deep + 64 * b2n s.unifiedOk + 0x10000 * v.stacks + 0x1000000 * v.lanes

/-- The ID block. -/
def State.readId (s : State) (rel : Nat) : Nat := if rel = 8 then s.fuses.variant.code else if rel = 0x10 then s.unitsPresent else 0

/-- The JVK block (Tables 15.14 and 15.15). -/
def State.readJvk (s : State) (rel : Nat) : Nat :=
  let j := s.jvk
  if rel = 0 then b2n j.inForce.isSome + 2 * b2n j.staged.isSome + 4 * b2n j.running.isSome + 8 * b2n j.defaultInForce +
    16 * b2n j.fwFactory + 32 * b2n j.fwStaged
  else if rel = 0x14 then j.resStatus + 0x10000 * j.resSection
  else if rel = 0x18 then (j.inForce.map Image.imgSeq).getD 0
  else if rel = 0x1C then vget 0 j.floors s.floorSlot
  else if 0x20 ≤ rel ∧ rel < 0x50 then (match j.inForce with
    | some im => wordAt (sha384 im.raw) (rel - 0x20)
    | none => 0)
  else if rel = 0x50 then j.defaultStatus
  else 0

/-- A watch's registers; W_CTRL (Table 16.11). -/
def Watch.word (w : Watch) : Nat := w.counter + 0x10000 * b2n w.arm + 0x20000 * b2n w.fired

/-- The HIF block (Tables 16.10 and 16.11). -/
def State.readHif (s : State) (rel : Nat) : Nat :=
  let h := s.hif
  if rel = 0 then b2n s.drained + 2 * b2n (h.defaultDone && h.aliasReady) + 4 * b2n h.split + 256 * h.linkWidth + 0x10000 * h.linkSpeed
  else if rel = 4 then b2n h.fwVerified + 2 * b2n h.hbmTrained + 4 * b2n h.deepTrained + 8 * b2n h.trimDone + 16 * b2n h.aliasReady +
    32 * b2n h.defaultDone
  else if rel = 0xC then h.lastStatus + 256 * h.lastKind + 0x10000 * b2n h.running.isSome
  else if rel = 0x18 ∨ rel = 0x1C then half rel s.now
  else if rel = 0x20 ∨ rel = 0x24 then half rel h.epochMark.toNat
  else if rel = 0x28 ∨ rel = 0x2C then half rel h.epochTick.toNat
  else if 0x1000 ≤ rel ∧ rel < 0x1800 ∧ rel % 0x100 = 0 then
    let c := (rel - 0x1000) / 0x100
    b2n (s.cove c).isSome + 2 * b2n (h.running.any fun r => r.kind = .cove && r.target == c) + 4 * b2n (s.coveDrained c)
  else if 0x40000 ≤ rel ∧ rel < 0x42000 ∧ rel % 0x10 = 8 then (SMap.get ({} : Watch) h.watches ((rel - 0x40000) / 0x10)).word
  else if 0x60000 ≤ rel ∧ rel < 0x62000 ∧ rel % 0x10 = 8 then (SMap.get ({} : Watch) h.watches (512 + (rel - 0x60000) / 0x10)).word
  else 0

/-! ### The serving and compute blocks -/

/-- Owned pages of a cove's shadow pool. -/
def State.shadowOwned (s : State) (c : Nat) : Nat := ((s.strm.filter fun x => s.homeCove x.1 = some c).map fun x => x.2.shadow.length).sum

/-- A cove's SEQ registers (Tables 06.11 and 06.12). -/
def State.readSeq (s : State) (c r : Nat) : Nat :=
  let q := s.seqc c
  let d := s.cove c
  if r = 0 then b2n q.stepEn + 256 * b2n q.degraded
  else if r = 0x14 then (d.map CoveDecl.streamFirst).getD 0
  else if r = 0x18 then (d.map CoveDecl.streamCount).getD 0
  else if r = 0x1C then s.kvFree c .hbm
  else if r = 0x20 then s.kvFree c .deep + s.kvFree c .host
  else if r = 0x24 then q.quar.length
  else if r = 0x28 then q.lastNs % 0x100000000
  else if r = 0x2C then q.lastRows
  else if 0x30 ≤ r ∧ r < 0x40 then
    let k := (r - 0x30) / 4 * 2
    nth 0 q.kappa k + 0x10000 * nth 0 q.kappa (k + 1)
  else if r = 0xA0 then (match d with
    | some x => if x.shadowEn then x.shadowPages - s.shadowOwned c else 0
    | none => 0)
  else 0

/-- The package registers of MXC, ATN and SHOAL (Tables 03.12, 04.7 and 05.12). -/
def State.readMxc (s : State) (rel : Nat) : Nat :=
  if rel < 0x10 then bitWord (rel / 4) fun i => (vget none s.cores i).isSome
  else if rel < 0x20 then bitWord ((rel - 0x10) / 4) fun i => (s.coreCove i).isSome
  else 0
def State.readAtn (s : State) (rel : Nat) : Nat :=
  if rel = 0 then bitWord 0 fun i => (vget none s.atns i).isSome
  else if rel = 4 then bitWord 0 fun i => (s.atnCove i).isSome
  else 0
def State.readShoal (s : State) (rel : Nat) : Nat :=
  if rel = 0 then b2n (s.router 0 != .idle) + 2 * b2n (s.router 1 != .idle)
  else if rel = 4 then (s.routerCove 0).getD 0 + 16 * (s.routerCove 1).getD 0 + 256 * b2n (s.routerCove 0).isSome + 512 * b2n (s.routerCove 1).isSome
  else 0

/-- DEPTH and W1C bits of a queue (Tables 03.13, 04.8, 05.14, 09.11 and 10.10). -/
def State.queueStat (s : State) (off depth : Nat) : Nat := (s.flag off).toNat + depth

/-! ### MEM -/

/-- The MEM block (Tables 07.7 to 07.11). -/
def State.readMem (s : State) (rel : Nat) : Nat :=
  let h := s.hbm
  if rel = 0 then s.fuses.variant.stacks * 64 - 2 * h.outs.length + 0x1000 * (h.move.map MapMove.ch).getD 0 + 0x200000 * b2n h.move.isSome +
    0x400000 * s.spareLeft + 0x8000000 * h.outs.length
  else if rel = 0x14 then h.scrubPass % 0x100000000
  else if 0x20 ≤ rel ∧ rel < 0x50 then
    let t := vget ({} : StackTemp) h.temps ((rel - 0x20) / 4)
    t.temp % 256 + 256 * t.row + 0x1000 * b2n t.fail
  else if 0x100 ≤ rel ∧ rel < 0x280 then
    ((List.range 4).map fun i => (s.chan (rel - 0x100 + i)).code * 2 ^ (8 * i)).sum
  else if 0x1000 ≤ rel ∧ rel < 0x2800 then (s.ctr (blkMEM + rel)).toNat % 0x100000000
  else 0

/-! ### DTU, SPW and INL -/

/-- A cove's DTU registers (Tables 08.11 and 08.12). -/
def State.readDtu (s : State) (c r : Nat) : Nat :=
  let x := vget ({} : DtuCove) s.dtu c
  let root := ((s.cove c).map CoveDecl.root).getD 0
  if r = 0 ∨ r = 4 then half r root
  else if r = 8 then b2n (s.unified c)
  else if r = 0x1C then 2 * b2n x.busy
  else if r = 0x20 ∨ r = 0x24 then half r x.faultVa
  else if r = 0x28 then (s.flag (coveOff blkDTU c 0x28)).toNat + x.faultCause + 256 * x.faultUnit
  else 0

/-- A cove's SPW registers (Tables 08.13 and 08.14); an operation is applied within the command that writes it, so that BUSY
reads 0. -/
def State.readSpw (s : State) (c r : Nat) : Nat :=
  let x := vget ({} : SpwCove) s.spw c
  if r = 0x14 then (s.reg (coveOff blkSPW c 0x14)).toNat
  else if r = 0x18 ∨ r = 0x1C then half r x.casOld.toNat
  else if r = 0x20 then x.casStatus + 512 * b2n x.cmpFail
  else 0

/-- OBJ_INFO (Table 09.13). -/
def State.objInfo (s : State) (c : Nat) : Nat :=
  let o := s.obj c ((s.reg (coveOff blkINL c 0x18)).toNat % 16384)
  b2n o.intake.isSome + 2 * b2n o.slowValid + 4 * b2n (o.intake.any fun x => x.keep) + 256 * o.loadStatus

/-- A cove's INL registers (Tables 09.10 to 09.13). -/
def State.readInl (s : State) (c r : Nat) : Nat :=
  if r = 8 then s.queueStat (coveOff blkINL c 8) (vget [] s.inl.queues c).length +
    32 * b2n (s.inl.ctx.toList.any fun x => x.any fun l => l.cove == c && l.refetch.isNone)
  else if r = 0xC then ((List.range 8).map fun k => 2 ^ k * (b2n (s.slotReady c k) + 256 * b2n (s.slotMissing c k) +
    0x10000 * b2n (s.slotPromoting c k))).sum
  else if r = 0x1C then s.objInfo c
  else 0

/-- INL.CTX_BUSY. -/
def State.ctxBusy (s : State) : Nat :=
  ((List.range 4).map fun i => match s.loadCtx i with
    | some l => 2 ^ i + 2 ^ (4 + i) * b2n l.refetch.isSome
    | none => 0).sum

/-! ### BSN and LNK -/

/-- The BSN block (Tables 10.10 and 10.13). -/
def State.readBsn (s : State) (rel : Nat) : Nat :=
  if rel = 0 then (match s.jvk.boundNode with
    | some n => n + 0x10000
    | none => 0)
  else if rel = 8 then 16384 - (s.bsn.credits.filter fun x => x.2.isSome).length
  else if rel = 0x10 then bitWord 0 fun i => (vget none s.bsn.engines i).isSome
  else if rel = 0x14 then bitWord 1 fun i => (vget none s.bsn.engines i).isSome
  else if 0x80000 ≤ rel then half rel (s.arr ((rel - 0x80000) / 8)).toNat
  else 0

/-- A port's registers (Table 11.12). -/
def State.readPort (s : State) (p r : Nat) : Nat :=
  let x := s.port p
  if r = 0 then x.state.code + 32 * b2n (s.image.any fun im => (nth {} im.ports p).width4) + 64 * s.portMode p +
    256 * Nat.min 255 (x.retrains.filter fun t => s.now < t + hourTicks).length
  else if r = 4 then x.peerNode + 0x10000 * x.peerPort + 0x40000000 * b2n x.drained + 0x80000000 * b2n x.peerValid
  else if r = 8 then x.moduleState % 256 + 256 * (x.powerClass % 256) + 0x10000 * (x.temp % 256)
  else 0

/-- A route entry as its 64 bits (Table 11.7). -/
def RouteEntry.enc (r : RouteEntry) : Nat :=
  0x100000000 * r.dim + (r.choices.zipIdx.map fun x => x.1.2.1 * 2 ^ (6 * x.2) + b2n x.1.1 * 2 ^ (24 + x.2) + b2n x.1.2.2 * 2 ^ (28 + x.2)).sum

/-- The LNK block (Tables 11.11 and 11.12). -/
def State.readLnk (s : State) (rel : Nat) : Nat :=
  if rel = 0 then s.lnk.pos
  else if rel = 4 then s.readBsn 0
  else if rel = 8 then s.lnk.inc
  else if rel = 0x28 then s.lnk.unreach
  else if 0x1000 ≤ rel ∧ rel < 0x3400 then s.readPort ((rel - 0x1000) / 0x100) (rel % 0x100)
  else if 0x80000 ≤ rel then half rel (s.routeOf ((rel - 0x80000) / 8)).enc
  else 0

/-! ### GAU, WEIR, WH -/

/-- R480: what the FINE sub-block shows at D2 and D3; where in it each value stands the spec leaves open (log 30). -/
def State.readFine (s : State) (off : Nat) : Nat :=
  if s.debug < 2 then 0
  else Config.fineWord off (s.gau.sample ++ s.gau.classCnt.flatMap (fun x => [x.1, x.2]) ++ [s.gau.k, s.gau.sampleRaw]) % 0x100000000

/-- The GAU block (Tables 12.7 to 12.9). -/
def State.readGau (s : State) (rel : Nat) : Nat :=
  let g := s.gau
  if rel = 0 then (s.flag blkGAU).toNat + b2n g.calLive + 2 * b2n g.calStale + 8 * b2n g.ringFull + 16 * b2n g.batchFull
  else if rel = 4 then s.fuses.kNom % 0x100000000
  else if rel = 8 then g.power % 0x10000
  else if rel = 0x10 ∨ rel = 0x14 then half rel ((s.image.map fun im => im.rsvBase + 0x27200000).getD 0)
  else if rel = 0x18 then (s.image.map fun im => 2 ^ im.ringLog2).getD 0
  else if 0x20 ≤ rel ∧ rel < 0x78 then
    half rel (match rel / 8 * 8 with
      | 0x20 => g.total
      | 0x28 => g.housePkg
      | 0x30 => g.residue.sum
      | 0x38 => s.openUj
      | 0x40 => s.pendingUj
      | 0x48 => g.nextSeq
      | 0x50 => g.recRelease
      | 0x58 => g.batchNext
      | 0x60 => g.batchRelease
      | 0x68 => g.einMj + 0x10000000000 * g.einSeq
      | _ => s.heldUj)
  else if 0x200 ≤ rel ∧ rel < 0x240 then half rel (nth 0 g.houseCove ((rel - 0x200) / 8))
  else if 0x4000 ≤ rel ∧ rel < 0x4180 then nth 0 s.fuses.weight ((rel - 0x4000) / 4)
  else if 0x80000 ≤ rel then s.readFine (rel - 0x80000)
  else 0

/-- A cove's GAU registers (Table 12.7, R479). -/
def State.readGauCove (s : State) (c r : Nat) : Nat :=
  if r = 0 then nth 0 s.gau.covePower c % 0x10000
  else if r = 8 ∨ r = 0xC then
    let n := SMap.get 0 s.gau.classCnt (96 * c + (s.reg (coveOff blkGAU c 4)).toNat)
    half r (n - n % 4096)
  else if r = 0x10 ∨ r = 0x14 then half r (nth 0 s.gau.coveUj c)
  else 0

/-- A trim in two's complement (Table 13.7). -/
def trimByte (t : Int) : Nat := (t % 256).toNat

/-- The WEIR block (Tables 13.6 and 13.7). -/
def State.readWeir (s : State) (rel : Nat) : Nat :=
  let w := s.weir
  if rel = 0 then b2n s.burstOk + 2 * b2n w.floor + 4 * b2n w.capLag.isSome + 8 * b2n (decide (w.nTh < 16)) +
    16 * b2n (s.hbm.temps.toList.any fun t => decide (3 ≤ t.row)) + 32 * b2n w.tjFail + 64 * b2n w.trimLimit + 128 * b2n s.stopped +
    256 * b2n w.thermtrip
  else if rel = 0x20 then w.capI3c + 0x10000 * s.capEff + 0x20000000 * w.lvl
  else if rel = 0x24 then w.n + 256 * w.nTh + 0x10000 * w.nMax
  else if rel = 0x30 then trimByte (vget 0 w.trim 0) + 256 * trimByte (vget 0 w.trim 1)
  else if rel = 0x34 then s.fuses.floorW
  else if rel = 0x3C then s.pstate + 8 * b2n w.p4Ready + 256 * w.reqStatus
  else 0

/-- The cove that a key slot is bound to, where it holds a key. -/
def State.keyCove (s : State) (k : Nat) : Option Nat := (vget none s.wh.keys k).map ModelKey.cove

/-- The WH block (Tables 14.11 and 14.12). -/
def State.readWh (s : State) (rel : Nat) : Nat :=
  if rel = 0 then s.wh.sec.code + 16 * s.debug + 256 * s.wh.ownerSlot + 0x10000 * b2n s.hif.aliasReady
  else if rel = 8 then bitWord 0 fun k => (s.keyCove k).isSome
  else if 0x10 ≤ rel ∧ rel < 0x20 then
    ((List.range 8).map fun i => (s.keyCove ((rel - 0x10) / 4 * 8 + i)).getD 0 * 2 ^ (4 * i)).sum
  else if rel = 0x24 then (bitWord 0 fun f => s.wh.ideSel.contains f) + 512 * b2n s.wh.ideLink + 0x400 * b2n (s.image.any fun im => im.requireIde)
  else 0

/-- A cove's WH registers. -/
def State.readWhCove (s : State) (c r : Nat) : Nat :=
  if r = 0 then bitWord 0 fun k => s.keyCove k == some c
  else if r = 8 ∨ r = 0xC then half r (vget 0 s.epochs c)
  else 0

/-! ### RIP, CVU and FLT -/

/-- The RIP block (Tables 18.7 and 18.8). -/
def State.readRip (s : State) (rel : Nat) : Nat :=
  if rel = 0 then b2n s.rip.live + 2 * b2n s.rip.openRec.isSome + 4 * b2n s.grainFine
  else if rel = 0x18 ∨ rel = 0x1C then half rel s.rip.head
  else if rel = 0x20 ∨ rel = 0x24 then half rel ((s.image.map fun im => im.rsvBase + 0x03200000).getD 0)
  else 0

/-- A CVU instance (Tables 18.7 and 18.8). -/
def State.readCvu (s : State) (i r : Nat) : Nat :=
  let x := s.cvuInst i
  if r = 0 then x.alg.toNat
  else if r = 0x10 ∨ r = 0x14 then half r x.shown.toNat
  else if r = 0x18 ∨ r = 0x1C then half r x.result.toNat
  else 0

/-- A fault log entry as its 32 bytes (Table 17.9). -/
def LogEntry.bytes (e : LogEntry) : List Byte :=
  leBytes 4 e.seq ++ leBytes 1 e.kind ++ leBytes 1 e.unit ++ leBytes 1 e.status ++ leBytes 1 e.cove ++ leBytes 8 e.tick ++ leBytes 8 e.addr ++
    leBytes 8 e.info

/-- A loss record as its 128 bytes (Table 17.3). -/
def LossRec.bytes (r : LossRec) : List Byte :=
  leBytes 1 1 ++ leBytes 1 r.cause ++ leBytes 2 (b2n r.aggregate) ++ leBytes 2 r.node ++ leBytes 2 r.incarnation ++ leBytes 2 r.newInc ++ leBytes 6 0 ++
    leBytes 8 r.tLost ++ leBytes 8 r.tClosed ++ leBytes 8 r.epoch ++ leBytes 4 r.txnsEnded ++ leBytes 4 r.txnCredits ++ leBytes 4 r.linkBlocks ++
    leBytes 4 r.framesDropped ++ leBytes 4 r.streamsEnded ++ leBytes 4 r.streamsAdopted ++ leBytes 4 r.lostPairs ++ leBytes 4 r.shadowPages ++
    leBytes 4 r.mirrorReads ++ leBytes 4 r.fromLost ++ leBytes 8 r.lossUj ++ leBytes 40 0

/-- The FLT block (Tables 17.7 to 17.9). -/
def State.readFlt (s : State) (rel : Nat) : Nat :=
  let f := s.flt
  if rel = 0 then b2n f.logFull + 2 * b2n (!f.waitingLoss.isEmpty) + 4 * b2n (!f.openLoss.isEmpty)
  else if rel = 0x10 then f.logHead % 0x100000000
  else if rel = 0x18 then f.lossHead % 0x100000000
  else if 0x20000 ≤ rel ∧ rel < 0x22000 then bitWord ((rel - 0x20000) / 4) fun n => (s.node n).lost
  else if 0x40000 ≤ rel ∧ rel < 0x42000 then
    (match SMap.get ({} : LogEntry) f.log ((rel - 0x40000) / 32) with
     | e => if e = {} then 0 else wordAt e.bytes (rel % 32))
  else if 0x80000 ≤ rel ∧ rel < 0x82000 then
    (match SMap.get ({} : LossRec) f.lossLog ((rel - 0x80000) / 128) with
     | r => if r = {} then 0 else wordAt r.bytes (rel % 128))
  else 0

/-- A cove's FLT registers (Table 17.8). -/
def State.readFltCove (s : State) (c r : Nat) : Nat := if r = 0 then vget 0 s.flt.lastStatus c + 256 * b2n (s.seqc c).degraded else 0

/-! ### A read of BAR0 -/

/-- A per-cove register that holds more than what was written to it. -/
def State.readCove (s : State) (blk c r : Nat) : Nat :=
  match blk with
  | 0x03 => s.readSeq c r
  | 0x04 => if r = 8 then s.queueStat (coveOff blkMXC c 8) (vget [] s.ponds c).length else 0
  | 0x05 => if r = 8 then s.queueStat (coveOff blkATN c 8) (vget [] s.atnLists c).length else 0
  | 0x06 => if r = 8 then s.queueStat (coveOff blkSHOAL c 8) (vget [] s.shoalQ c).length else 0
  | 0x08 => s.readDtu c r
  | 0x09 => s.readSpw c r
  | 0x0A => s.readInl c r
  | 0x0B =>
    if r = 8 then s.queueStat (coveOff blkBSN c 8) (vget [] s.bsn.queues c).length
    else if r = 0x18 then ((s.cove c).map CoveDecl.ctrFirst).getD 0
    else if r = 0x1C then ((s.cove c).map CoveDecl.ctrCount).getD 0
    else 0
  | 0x0D => s.readGauCove c r
  | 0x0F => s.readWhCove c r
  | 0x12 => s.readFltCove c r
  | _ => 0

/-- A package register that holds more than what was written to it. -/
def State.readPkg (s : State) (blk rel : Nat) : Nat :=
  match blk with
  | 0x00 => s.readId rel
  | 0x01 => s.readJvk rel
  | 0x02 => s.readHif rel
  | 0x04 => s.readMxc rel
  | 0x05 => s.readAtn rel
  | 0x06 => s.readShoal rel
  | 0x07 => s.readMem rel
  | 0x09 => if rel = 0x80000 then b2n (decide (s.hbm.deepGiB ≠ 0)) + 0x10000 * s.hbm.deepGiB else 0
  | 0x0A => if rel = 0 then s.ctxBusy else if rel = 0x80000 then 1 else 0
  | 0x0B => s.readBsn rel
  | 0x0C => s.readLnk rel
  | 0x0D => s.readGau rel
  | 0x0E => s.readWeir rel
  | 0x0F => s.readWh rel
  | 0x10 => s.readRip rel
  | 0x12 => s.readFlt rel
  | _ => 0

/-- What the register at an offset holds. A write-only register reads 0 (Table 00.5), and so does a reserved offset (R574). -/
def State.readReg (s : State) (off : Nat) : Nat :=
  let blk := off / 0x100000
  let rel := off % 0x100000
  if s.absentAt off then 0
  else if off = regLossTail ∨ (regSpec off).any (fun r => r.acc ≠ .lo ∧ off ≠ blkHIF + 0x20) then (s.reg off).toNat
  else if counterAt off then s.ctrHalf off
  else match cvuIndex off with
    | some i => if rel % 0x100 = 0x20 then (s.flag off).toNat else s.readCvu i (rel % 0x100)
    | none =>
      if coveBlock blk && decide (0x1000 ≤ rel) && decide (rel < 0x1800) && decide (blk ≠ 0x02) then s.readCove blk ((rel - 0x1000) / 0x100) (rel % 0x100)
      else if w1cMask off ≠ 0 ∧ off ≠ blkGAU then (s.flag off).toNat
      else s.readPkg blk rel

/-- A BAR0 read of 4 bytes by a function (R573, R576): what its view leaves out reads 0. -/
def State.bar0Read (s : State) (fn off : Nat) : Word := if s.sees fn off then BitVec.ofNat 32 (s.readReg off) else 0

/-- A byte of BAR4 as a function reads it (R211, R575, R576): a VF sees the entries of its own cove, and their bits. -/
def State.bar4Shows (s : State) (fn off : Nat) : Byte :=
  let mine (e : Nat) : Bool := decide (fn = 0) || (match s.cove (fn - 1) with
    | some d => decide (d.streamFirst ≤ e) && decide (e < d.streamFirst + d.streamCount)
    | none => false)
  if mine (if off < 0x2000000 then off / 128 else 8 * (off - 0x2000000)) then s.bar4Byte off else 0

end Sys2Proof.Machine
end

