-- ==== Sys2Proof/Machine/Pins.lean ====
section
/-! DEFINITION. Sys2Proof/Machine/Pins.lean: SETDASA on the I3C bus, and the JTAG debug port
(spec/19_pins_and_electrical.md R651; spec/14_security.md R538, Table 14.4). -/
namespace Sys2Proof.Machine
open Sys2Proof

/-- R651: the target (0 Gauge telemetry, 1 Weir cap) that a static address names. -/
def State.i3cTarget (s : State) (static : Nat) : Option Nat :=
  if static = 0x30 + s.lnk.pos % 4 then some 0
  else if static = 0x38 + s.lnk.pos % 4 then some 1
  else none

/-- SETDASA (R651): in P0 to P3. -/
def execSetdasa (static dyn : Fin 128) (s : State) : Host.Outcome State Fault Refusal :=
  .next (if !s.answers then s
    else match s.i3cTarget static.val with
      | some t => { s with i3cDyn := vmod s.i3cDyn t fun _ => some dyn.val }
      | none => s)

/-- Table 14.4: the debug level that opens an instruction. -/
def jtagLevel : JtagOp → Nat
  | .idcode => 1
  | .boundary => 1
  | .fwLog => 1
  | .snapshot _ => 1
  | .trace => 2
  | .scan => 3
  | .halt => 3
  | .step => 3
  | .memory _ _ => 3

/-- Free bytes that the debug port shifts out, where the spec gives no value (log 32). -/
def State.jtagFree (s : State) (n : Nat) : State :=
  let (v, s) := s.draw
  s.emit (.jtag (leBytes n v))

/-- A byte of memory as the debug port reads it: the ciphertext of HBM and the deep tier, a Mere as it stands; `free` where
nothing has been written, and elsewhere (R538, log 32). -/
def State.debugByte (s : State) (dpa : Nat) (free : Byte) : Byte :=
  if s.region dpa = .mere then SMap.get 0 s.mem.bytes dpa
  else if (s.region dpa).tagged && decide (SMap.get 0 s.mem.tag (dpa / 64) ≠ 0) then nth 0 (s.cipherOf (dpa / 64)) (dpa % 64)
  else free

/-- R538: an instruction that the debug level opens. -/
def State.jtagDo (s : State) : JtagOp → State
  | .snapshot off => s.emit (.jtag (leBytes 4 (s.bar0Read 0 off.val).toNat))
  | .halt => { s with wh := { s.wh with fwHalted := true } }
  | .step => { s with wh := { s.wh with fwHalted := true } }
  | .memory a n =>
    let (v, s) := s.draw
    s.emit (.jtag ((leBytes n v).zipIdx.map fun x => s.debugByte (a.toNat + x.2) x.1))
  | .idcode => s.jtagFree 4
  | .boundary => s.jtagFree 4
  | .fwLog => s.jtagFree 4
  | .trace => s.jtagFree 4
  | .scan => s.jtagFree 4

/-- JTAG_INSTRUCTION (R538). -/
def execJtagInstruction (op : JtagOp) (s : State) : Host.Outcome State Fault Refusal :=
  .next (s.whileOn fun s => if jtagLevel op ≤ s.debug then s.jtagDo op else s)

end Sys2Proof.Machine
end

