-- ==== Sys2Proof/Machine/Dispatch.lean ====
section
/-! DEFINITION. Sys2Proof/Machine/Dispatch.lean: the meaning of every command, one arm each. -/
namespace Sys2Proof.Machine
open Sys2Proof

/-- What a command does to everything but the queue. -/
def exec (i : Instr) (s : State) : Host.Outcome State Fault Refusal :=
  match i with
  | .registerWrite fn offset value high => Sys2Proof.Machine.execRegisterWrite fn offset value high s
  | .bar0BadAccess => Sys2Proof.Machine.execBar0BadAccess s
  | .budgetPeriodBoundary demand => Sys2Proof.Machine.execBudgetPeriodBoundary demand s
  | .stepBoundary c adopt => Sys2Proof.Machine.execStepBoundary c adopt s
  | .bar4EntryWrite fn offset data ide => Sys2Proof.Machine.execBar4EntryWrite fn offset data ide s
  | .readyBitmapOr fn offset data ide => Sys2Proof.Machine.execReadyBitmapOr fn offset data ide s
  | .seqCtrlWrite c value => Sys2Proof.Machine.execSeqCtrlWrite c value s
  | .stepEntryComplete c => Sys2Proof.Machine.execStepEntryComplete c s
  | .stepPostRetry c => Sys2Proof.Machine.execStepPostRetry c s
  | .stepWaitMet c => Sys2Proof.Machine.execStepWaitMet c s
  | .emit c => Sys2Proof.Machine.execEmit c s
  | .shadowCopyDone e => Sys2Proof.Machine.execShadowCopyDone e s
  | .fallbackImportDone e => Sys2Proof.Machine.execFallbackImportDone e s
  | .pondPost c lo hi => Sys2Proof.Machine.execPondPost c lo hi s
  | .tileClaim core => Sys2Proof.Machine.execTileClaim core s
  | .tilePassEnd core => Sys2Proof.Machine.execTilePassEnd core s
  | .pondListComplete c => Sys2Proof.Machine.execPondListComplete c s
  | .tileRestart core => Sys2Proof.Machine.execTileRestart core s
  | .listPost c lo hi => Sys2Proof.Machine.execListPost c lo hi s
  | .attentionUnitClaim e => Sys2Proof.Machine.execAttentionUnitClaim e s
  | .attentionUnitEnd e => Sys2Proof.Machine.execAttentionUnitEnd e s
  | .attnListComplete c => Sys2Proof.Machine.execAttnListComplete c s
  | .attentionUnitRestart e => Sys2Proof.Machine.execAttentionUnitRestart e s
  | .shoalPost c lo hi => Sys2Proof.Machine.execShoalPost c lo hi s
  | .routeStart rt => Sys2Proof.Machine.execRouteStart rt s
  | .runCopyDone rt dest => Sys2Proof.Machine.execRunCopyDone rt dest s
  | .runReturnDone rt dest => Sys2Proof.Machine.execRunReturnDone rt dest s
  | .routeCombine rt => Sys2Proof.Machine.execRouteCombine rt s
  | .receiveStart rt => Sys2Proof.Machine.execReceiveStart rt s
  | .receiveRoundGather rt => Sys2Proof.Machine.execReceiveRoundGather rt s
  | .receiveRoundReturn rt => Sys2Proof.Machine.execReceiveRoundReturn rt s
  | .shoalTimeout rt => Sys2Proof.Machine.execShoalTimeout rt s
  | .patrolScrubRead found => Sys2Proof.Machine.execPatrolScrubRead found s
  | .quarantineTest c page found => Sys2Proof.Machine.execQuarantineTest c page found s
  | .mapReq value => Sys2Proof.Machine.execMapReq value s
  | .mapoutMoveStart => Sys2Proof.Machine.execMapoutMoveStart s
  | .mapoutMoveDone found => Sys2Proof.Machine.execMapoutMoveDone found s
  | .stackTempRead readings => Sys2Proof.Machine.execStackTempRead readings s
  | .dtuInval c value => Sys2Proof.Machine.execDtuInval c value s
  | .dtuInvalDone c => Sys2Proof.Machine.execDtuInvalDone c s
  | .objectCas c lo hi => Sys2Proof.Machine.execObjectCas c lo hi s
  | .spillwayPageMove t readOk => Sys2Proof.Machine.execSpillwayPageMove t readOk s
  | .layerTransferStart c => Sys2Proof.Machine.execLayerTransferStart c s
  | .layerTransferDone c readOk => Sys2Proof.Machine.execLayerTransferDone c readOk s
  | .poisonRefetchStart => Sys2Proof.Machine.execPoisonRefetchStart s
  | .refetchDone c va => Sys2Proof.Machine.execRefetchDone c va s
  | .refetchFail c va hostFailed => Sys2Proof.Machine.execRefetchFail c va hostFailed s
  | .loadPost c lo hi => Sys2Proof.Machine.execLoadPost c lo hi s
  | .loadTake ctx => Sys2Proof.Machine.execLoadTake ctx s
  | .loadComplete ctx => Sys2Proof.Machine.execLoadComplete ctx s
  | .loadAbort ctx readFail => Sys2Proof.Machine.execLoadAbort ctx readFail s
  | .loadCancel c lo hi => Sys2Proof.Machine.execLoadCancel c lo hi s
  | .inletRefetchRerun ctx => Sys2Proof.Machine.execInletRefetchRerun ctx s
  | .ferryPost c lo hi => Sys2Proof.Machine.execFerryPost c lo hi s
  | .ferryStart e => Sys2Proof.Machine.execFerryStart e s
  | .chunkIncrement e => Sys2Proof.Machine.execChunkIncrement e s
  | .completionIncrement e => Sys2Proof.Machine.execCompletionIncrement e s
  | .ferryEnd e => Sys2Proof.Machine.execFerryEnd e s
  | .ferryCancel c lo hi => Sys2Proof.Machine.execFerryCancel c lo hi s
  | .transactionAccept => Sys2Proof.Machine.execTransactionAccept s
  | .basinRequestArrive => Sys2Proof.Machine.execBasinRequestArrive s
  | .basinRequestApply node cove => Sys2Proof.Machine.execBasinRequestApply node cove s
  | .responseArrive => Sys2Proof.Machine.execResponseArrive s
  | .transactionTimeout tag => Sys2Proof.Machine.execTransactionTimeout tag s
  | .arrivalCounterWrite fn ctr lo hi => Sys2Proof.Machine.execArrivalCounterWrite fn ctr lo hi s
  | .sluiceGroupSend eg => Sys2Proof.Machine.execSluiceGroupSend eg s
  | .dataFrameReceive p node f health corrected => Sys2Proof.Machine.execDataFrameReceive p node f health corrected s
  | .nakReceive p node lsn ackLsn shown => Sys2Proof.Machine.execNakReceive p node lsn ackLsn shown s
  | .ackSendTimer p node => Sys2Proof.Machine.execAckSendTimer p node s
  | .replayTimer p node => Sys2Proof.Machine.execReplayTimer p node s
  | .connectionFail p node => Sys2Proof.Machine.execConnectionFail p node s
  | .resyncReq p node f health => Sys2Proof.Machine.execResyncReq p node f health s
  | .resyncAck p node f health => Sys2Proof.Machine.execResyncAck p node f health s
  | .resyncTimeout p node => Sys2Proof.Machine.execResyncTimeout p node s
  | .credit p node freed ackLsn shown => Sys2Proof.Machine.execCredit p node freed ackLsn shown s
  | .creditSendTimer p node => Sys2Proof.Machine.execCreditSendTimer p node s
  | .keepalive p node => Sys2Proof.Machine.execKeepalive p node s
  | .ethConnectionSilence p node => Sys2Proof.Machine.execEthConnectionSilence p node s
  | .ident p frame trained => Sys2Proof.Machine.execIdent p frame trained s
  | .drainNotice p node ackLsn shown => Sys2Proof.Machine.execDrainNotice p node ackLsn shown s
  | .portSignalLoss p => Sys2Proof.Machine.execPortSignalLoss p s
  | .portSignalDetect p => Sys2Proof.Machine.execPortSignalDetect p s
  | .portRetrainEntry p => Sys2Proof.Machine.execPortRetrainEntry p s
  | .portTrainingTimeout p => Sys2Proof.Machine.execPortTrainingTimeout p s
  | .portRetrainTimeout p => Sys2Proof.Machine.execPortRetrainTimeout p s
  | .portDownRetry p => Sys2Proof.Machine.execPortDownRetry p s
  | .moduleFlagPoll p los fault alarm temp powerClass state => Sys2Proof.Machine.execModuleFlagPoll p los fault alarm temp powerClass state s
  | .portReq value => Sys2Proof.Machine.execPortReq value s
  | .gapSkip node cove => Sys2Proof.Machine.execGapSkip node cove s
  | .linkRekey p node => Sys2Proof.Machine.execLinkRekey p node s
  | .gaugeSampleLatch events static => Sys2Proof.Machine.execGaugeSampleLatch events static s
  | .ein bytes => Sys2Proof.Machine.execEin bytes s
  | .calStaleTimer => Sys2Proof.Machine.execCalStaleTimer s
  | .houseMoveTick => Sys2Proof.Machine.execHouseMoveTick s
  | .coarsePowerUpdate => Sys2Proof.Machine.execCoarsePowerUpdate s
  | .batchClose => Sys2Proof.Machine.execBatchClose s
  | .batchRooted => Sys2Proof.Machine.execBatchRooted s
  | .batchSigned => Sys2Proof.Machine.execBatchSigned s
  | .recRelease lo hi => Sys2Proof.Machine.execRecRelease lo hi s
  | .batchRelease lo hi => Sys2Proof.Machine.execBatchRelease lo hi s
  | .loopClosure junctions => Sys2Proof.Machine.execLoopClosure junctions s
  | .weirMsTick => Sys2Proof.Machine.execWeirMsTick s
  | .i3cCap bytes => Sys2Proof.Machine.execI3cCap bytes s
  | .capLvlAccept lvl => Sys2Proof.Machine.execCapLvlAccept lvl s
  | .droopTrip die depth => Sys2Proof.Machine.execDroopTrip die depth s
  | .droopRecover die duration => Sys2Proof.Machine.execDroopRecover die duration s
  | .thermtrip => Sys2Proof.Machine.execThermtrip s
  | .coolantFail => Sys2Proof.Machine.execCoolantFail s
  | .trimRun east west => Sys2Proof.Machine.execTrimRun east west s
  | .pstateReqP0 => Sys2Proof.Machine.execPstateReqP0 s
  | .pstateReqP2 => Sys2Proof.Machine.execPstateReqP2 s
  | .pstateReqP3 => Sys2Proof.Machine.execPstateReqP3 s
  | .pstateReqP4 => Sys2Proof.Machine.execPstateReqP4 s
  | .pstateReqRefused target => Sys2Proof.Machine.execPstateReqRefused target s
  | .p1Entry => Sys2Proof.Machine.execP1Entry s
  | .p1Exit => Sys2Proof.Machine.execP1Exit s
  | .getVersion box => Sys2Proof.Machine.execGetVersion box s
  | .getCapabilities box => Sys2Proof.Machine.execGetCapabilities box s
  | .negotiateAlgorithms box offered => Sys2Proof.Machine.execNegotiateAlgorithms box offered s
  | .getDigests box => Sys2Proof.Machine.execGetDigests box s
  | .getCertificate box slot offset length => Sys2Proof.Machine.execGetCertificate box slot offset length s
  | .challenge box transcript => Sys2Proof.Machine.execChallenge box transcript s
  | .getMeasurements box index transcript => Sys2Proof.Machine.execGetMeasurements box index transcript s
  | .keyExchange box mutualAuth transcript => Sys2Proof.Machine.execKeyExchange box mutualAuth transcript s
  | .finish box k good rsa => Sys2Proof.Machine.execFinish box k good rsa s
  | .keyUpdate box k => Sys2Proof.Machine.execKeyUpdate box k s
  | .heartbeat box k => Sys2Proof.Machine.execHeartbeat box k s
  | .endSession box k => Sys2Proof.Machine.execEndSession box k s
  | .getPqCert box => Sys2Proof.Machine.execGetPqCert box s
  | .getPqSig box => Sys2Proof.Machine.execGetPqSig box s
  | .pqFinish box k slhKey transcript signature => Sys2Proof.Machine.execPqFinish box k slhKey transcript signature s
  | .setAttested box k digest => Sys2Proof.Machine.execSetAttested box k digest s
  | .keyPut box k slot cove lease reserved key => Sys2Proof.Machine.execKeyPut box k slot cove lease reserved key s
  | .keyUsable slot => Sys2Proof.Machine.execKeyUsable slot s
  | .keyErase box k all slot => Sys2Proof.Machine.execKeyErase box k all slot s
  | .whKeyErase value => Sys2Proof.Machine.execWhKeyErase value s
  | .leaseEnd slot => Sys2Proof.Machine.execLeaseEnd slot s
  | .getNonce box => Sys2Proof.Machine.execGetNonce box s
  | .claim box sig => Sys2Proof.Machine.execClaim box sig s
  | .transfer box owner sig => Sys2Proof.Machine.execTransfer box owner sig s
  | .debugSet box level sig => Sys2Proof.Machine.execDebugSet box level sig s
  | .debugEnter box level sig => Sys2Proof.Machine.execDebugEnter box level sig s
  | .scrap box sig => Sys2Proof.Machine.execScrap box sig s
  | .keyProg box k stream => Sys2Proof.Machine.execKeyProg box k stream s
  | .kSetGo box k stream => Sys2Proof.Machine.execKSetGo box k stream s
  | .kSetStop box k stream => Sys2Proof.Machine.execKSetStop box k stream s
  | .aliasKeysReady => Sys2Proof.Machine.execAliasKeysReady s
  | .stage => Sys2Proof.Machine.execStage s
  | .commit => Sys2Proof.Machine.execCommit s
  | .commitPoint => Sys2Proof.Machine.execCommitPoint s
  | .commitFlashDone => Sys2Proof.Machine.execCommitFlashDone s
  | .discard => Sys2Proof.Machine.execDiscard s
  | .saveDefault => Sys2Proof.Machine.execSaveDefault s
  | .eraseDefault => Sys2Proof.Machine.execEraseDefault s
  | .fwStage verified version => Sys2Proof.Machine.execFwStage verified version s
  | .fwInstall => Sys2Proof.Machine.execFwInstall s
  | .jvkReservedCode code => Sys2Proof.Machine.execJvkReservedCode code s
  | .bar2Read fn offset length ide => Sys2Proof.Machine.execBar2Read fn offset length ide s
  | .bar2Write fn offset data ide => Sys2Proof.Machine.execBar2Write fn offset data ide s
  | .watchCtrlWrite fn w value => Sys2Proof.Machine.execWatchCtrlWrite fn w value s
  | .epochMarkWrite lo hi => Sys2Proof.Machine.execEpochMarkWrite lo hi s
  | .coldReset requested pos split => Sys2Proof.Machine.execColdReset requested pos split s
  | .hbmTrained failed => Sys2Proof.Machine.execHbmTrained failed s
  | .deepTrained perController => Sys2Proof.Machine.execDeepTrained perController s
  | .defaultImageCommit => Sys2Proof.Machine.execDefaultImageCommit s
  | .warmReset => Sys2Proof.Machine.execWarmReset s
  | .deviceReset => Sys2Proof.Machine.execDeviceReset s
  | .coveReset target => Sys2Proof.Machine.execCoveReset target s
  | .engineReset target => Sys2Proof.Machine.execEngineReset target s
  | .portReset target => Sys2Proof.Machine.execPortReset target s
  | .resetReqRefused seven => Sys2Proof.Machine.execResetReqRefused seven s
  | .nodeLossTimer node => Sys2Proof.Machine.execNodeLossTimer node s
  | .nodeLossRecord node => Sys2Proof.Machine.execNodeLossRecord node s
  | .lossReq value => Sys2Proof.Machine.execLossReq value s
  | .lossRestore value => Sys2Proof.Machine.execLossRestore value s
  | .lossRecordClose => Sys2Proof.Machine.execLossRecordClose s
  | .rippleRecordWrite => Sys2Proof.Machine.execRippleRecordWrite s
  | .rippleCloseTimer => Sys2Proof.Machine.execRippleCloseTimer s
  | .stepTimeHistogram => Sys2Proof.Machine.execStepTimeHistogram s
  | .cvuCtrlWrite fn unit value => Sys2Proof.Machine.execCvuCtrlWrite fn unit value s
  | .cvuData8 fn unit value => Sys2Proof.Machine.execCvuData8 fn unit value s
  | .cvuData16 fn unit value => Sys2Proof.Machine.execCvuData16 fn unit value s
  | .cvuData32 fn unit value => Sys2Proof.Machine.execCvuData32 fn unit value s
  | .cvuValueWrite fn unit lo hi => Sys2Proof.Machine.execCvuValueWrite fn unit lo hi s
  | .pkgResetN pos split => Sys2Proof.Machine.execPkgResetN pos split s
  | .refclkLoss => Sys2Proof.Machine.execRefclkLoss s
  | .railFault => Sys2Proof.Machine.execRailFault s
  | .perst => Sys2Proof.Machine.execPerst s
  | .flr fn => Sys2Proof.Machine.execFlr fn s
  | .portRetrainDone p => Sys2Proof.Machine.execPortRetrainDone p s
  | .resetDone => Sys2Proof.Machine.execResetDone s
  | .pstateDone => Sys2Proof.Machine.execPstateDone s
  | .jvkCommandDone => Sys2Proof.Machine.execJvkCommandDone s
  | .refclkReturn pos split => Sys2Proof.Machine.execRefclkReturn pos split s
  | .pfcReceive p vl pause => Sys2Proof.Machine.execPfcReceive p vl pause s
  | .setdasa static dyn => Sys2Proof.Machine.execSetdasa static dyn s
  | .jtagInstruction op => Sys2Proof.Machine.execJtagInstruction op s
  | .msixUnmask fn enabled funcMask vec => Sys2Proof.Machine.execMsixUnmask fn enabled funcMask vec s
  | .lossTailWrite value => Sys2Proof.Machine.execLossTailWrite value s
  | .linkZComputed node => Sys2Proof.Machine.execLinkZComputed node s

end Sys2Proof.Machine
end

