-- ==== Sys2Proof/Machine/Step.lean ====
section
/-! DEFINITION. Sys2Proof/Machine/Step.lean: one step of the package: the command at the front of the queue, or, with
no command waiting, one period of the local tick. -/
namespace Sys2Proof.Machine
open Sys2Proof

/-- One step. With no command waiting the local tick advances by one (DESIGN CHOICE, log 10), but in P4 (R586) and in a held cold
reset (R656), and DRAINED is judged (R596). -/
def step (s : State) : Host.Outcome State Fault Refusal :=
  match s.pending with
  | [] => .next (if s.hif.heldInReset ∨ s.pstate = 4 then s else ({ s with tick := s.tick + 1 } : State).judgeDrained)
  | c :: rest => exec c { s with pending := rest }

/-- The state with the command that a word spells put at the front of its queue; no word spells one. -/
def State.withFetchWord (s : State) (nbits w : Nat) : State :=
  match decodeTableWord nbits w with
  | some c => { s with pending := c :: s.pending }
  | none => s

end Sys2Proof.Machine
end

