-- ==== Sys2Proof/Safety.lean ====
section
/-! DEFINITION. Sys2Proof/Safety.lean: the terms that statements use: which combinations of security state and debug level are
legal, when a block would take a command, which commands reset the package or fuse an owner. -/
namespace Sys2Proof

/-- The commands that bring a cold reset (R541, R648, R656, R660). -/
def Instr.coldResets : Instr → Bool
  | .coldReset _ _ _ => true
  | .pkgResetN _ _ => true
  | .refclkLoss => true
  | .railFault => true
  | .refclkReturn _ _ => true
  | _ => false

/-- The commands that fuse owner digests (R535). -/
def Instr.fusesOwner : Instr → Bool
  | .claim _ _ => true
  | .transfer _ _ _ => true
  | _ => false

end Sys2Proof

namespace Sys2Proof.Machine
open Sys2Proof

/-- No work towards another node and none that a loss would end: nothing in flight, held or routed, and no stream. -/
def State.noWork (s : State) : Bool :=
  s.bsn.credits.isEmpty && s.bsn.flagHeld.isEmpty && decide (s.router 0 = .idle) && decide (s.router 1 = .idle) && s.strm.isEmpty

/-- RESET_REQ would be taken (R589): the package answers, no reset runs or waits, and nothing is stopped. -/
def State.resetsFree (s : State) : Bool :=
  decide (s.pstate ≠ 4) && !s.hif.heldInReset && s.hif.running.isNone && s.hif.waitingResets.isEmpty && !s.stopped

/-- The JVK block would take a command (R569): it answers, none runs, and boot has passed DEFAULT_DONE; no reset waits. -/
def State.jvkFree (s : State) : Bool :=
  decide (s.pstate ≠ 4) && !s.hif.heldInReset && s.jvk.running.isNone && s.hif.defaultDone && s.hif.waitingResets.isEmpty

/-- Table 14.8: the combinations of security state and debug level that are allowed (R539). -/
def State.legal (s : State) : Bool :=
  decide (s.debug < 4) && match s.wh.sec with
  | .factory => true
  | .scrapped => true
  | .sealed => decide (s.debug < 2)
  | .attested => decide (s.debug < 2)
  | .ownerDebug => decide (2 ≤ s.debug)

end Sys2Proof.Machine
end

