-- ==== Sys2Proof/Certificates/Slice0/Obligations.lean ====
section
/-! DEFINITION. Sys2Proof/Certificates/Slice0/Obligations.lean: the statements for the provers. Each docstring names the rules
of spec/ that it comes from. In a conclusion, `t = { s with f := t.f, … }` says that nothing but the fields named may change. -/
open Sys2Proof Sys2Proof.Machine

/-- A step takes the command at the front of the queue and runs it with the queue's rest. -/
def Obligations.StepRunsTheCommandInFront : Prop :=
  ∀ (c : Instr) (rest : List Instr) (s : State), step { s with pending := c :: rest } = exec c { s with pending := rest }

/-- Log 10 (DESIGN CHOICE): with no command waiting, the local tick advances by one and DRAINED is judged; a package in
P4 (R586) or held in cold reset does nothing. -/
def Obligations.StepOfAnEmptyQueue : Prop :=
  (∀ (s : State), s.pending = [] → s.hif.heldInReset = false → s.pstate ≠ 4 →
    ∃ t, step s = .next t ∧ t.tick = s.tick + 1 ∧ t.hif.drainedWas = { s with tick := s.tick + 1 }.drained ∧
      ({ s with tick := s.tick + 1 }.drained = true → s.hif.drainedWas = false → t.flagBit (blkHIF + 0x10) 1 = true) ∧
      t = { s with tick := t.tick, hif := t.hif, ctrs := t.ctrs, flags := t.flags, out := t.out }) ∧
  (∀ (s : State), s.pending = [] → (s.hif.heldInReset = true ∨ s.pstate = 4) → step s = .next s)

/-- No command stops the package: every command answers a next state, whatever the state (log 33). -/
def Obligations.EveryCommandAnswers : Prop := ∀ (i : Instr) (s : State), ∃ t, exec i s = .next t

/-- R217, R541, R563, R588, Table 16.8: the state after reset: level D0 in a combination of Table 14.8, no image in force or
staged, no key held, no stream live, no page of memory poisoned, no watch armed, every write-one-to-clear bit, counter and
arrival counter 0, no command waiting. -/
def Obligations.StateAfterReset : Prop :=
  State.reset.legal = true ∧ State.reset.debug = 0 ∧ State.reset.pending = [] ∧ State.reset.image = none ∧ State.reset.jvk.staged = none ∧
    (∀ j : Fin 32, vget none State.reset.wh.keys j = none) ∧ (∀ j : Fin 4, vget none State.reset.wh.owners j = none) ∧
    (∀ e n k, entField (SMap.get 0 State.reset.streams e) n k = 0) ∧ (∀ a, State.reset.granuleBad a = false) ∧
    (∀ w, (SMap.get {} State.reset.hif.watches w).arm = false) ∧ (∀ r, State.reset.ctr r = 0) ∧ (∀ r, State.reset.flag r = 0) ∧
    (∀ i, State.reset.arr i = 0) ∧ (∀ r, State.reset.reg r = regReset r) ∧ State.reset.hif.defaultDone = false ∧ State.reset.hif.hbmTrained = false ∧
    State.reset.tick = 0 ∧ State.reset.stopped = false ∧ (∀ p : Fin 36, (State.reset.port p).state = .off)

/-- Commands wait first in, first out: a step removes the command in front and no other, whatever the command does. -/
def Obligations.CommandsWaitInOrder : Prop :=
  ∀ (s t : State), step s = .next t → t.pending = s.pending.tail

/-- R539: a combination of security state and debug level that Table 14.8 does not allow never arises. -/
def Obligations.LegalSecurityStatesStayLegal : Prop :=
  ∀ (s t : State), s.legal = true → step s = .next t → t.legal = true

/-- R535 to R537, R541: what is fused stays. SCRAPPED is for good, FACTORY never returns, destroyed secrets stay destroyed, the
owners' digests change by CLAIM and TRANSFER alone, and OWNER_DEBUG ends only with a cold reset, in SEALED. -/
def Obligations.FusedStateHolds : Prop :=
  ∀ (s t : State), step s = .next t →
    t.fuses = s.fuses ∧ (s.wh.sec = .scrapped → t.wh.sec = .scrapped) ∧ (t.wh.sec = .factory → s.wh.sec = .factory) ∧
    (s.wh.destroyed = true → t.wh.destroyed = true) ∧
    (s.wh.sec = .ownerDebug → t.wh.sec = .ownerDebug ∨ t.wh.sec = .sealed ∧ ∃ c rest, s.pending = c :: rest ∧ c.coldResets = true) ∧
    (t.wh.owners = s.wh.owners ∨ ∃ c rest, s.pending = c :: rest ∧ c.fusesOwner = true)

/-- R620: the fault log: a ring of 256 entries, written at LOG_HEAD; with the ring full the entry is counted as dropped. -/
def Obligations.FaultLogEntries : Prop :=
  (∀ (s : State) (kind unit : Nat) (st : Status) (cove addr info : Nat), s.flt.logHead < (s.reg regLogTail).toNat + 256 →
    let t := s.faultLog kind unit st cove addr info
    t.flt.logHead = s.flt.logHead + 1 ∧
      SMap.get {} t.flt.log (s.flt.logHead % 256) =
        { seq := s.flt.logHead % 0x100000000, kind := kind, unit := unit, status := st.code, cove := cove, tick := s.now, addr := addr, info := info } ∧
      (∀ i, i ≠ s.flt.logHead % 256 → SMap.get {} t.flt.log i = SMap.get {} s.flt.log i) ∧ t.flagBit (blkFLT + 0x4) 0 = true ∧
      t = { s with flt := t.flt, hif := t.hif, ctrs := t.ctrs, flags := t.flags, out := t.out }) ∧
  (∀ (s : State) (kind unit : Nat) (st : Status) (cove addr info : Nat), (s.reg regLogTail).toNat + 256 ≤ s.flt.logHead →
    let t := s.faultLog kind unit st cove addr info
    t.ctr (blkFLT + 0x78) = s.ctr (blkFLT + 0x78) + 1 ∧ t.flt.log = s.flt.log ∧ t.flt.logHead = s.flt.logHead ∧ t.flt.logFull = true ∧
      t = { s with flt := { s.flt with logFull := true }, ctrs := t.ctrs })

/-- R531: SET_ATTESTED compares the digest it carries with a fresh measurement record: equal in SEALED, the package is ATTESTED and
the status DONE; not equal, BUSY and nothing changes; in any other state, PERMISSION. -/
def Obligations.SetAttestedComparesTheRecord : Prop :=
  ∀ (s : State) (k : Fin 4) (x : Session) (d : BitVec 384), s.answers = true → s.session 0 k = some x → x.opened = true → x.broker = true →
    (s.wh.sec = .sealed → leBytes 48 d.toNat = sha384 s.measurementRecord →
      ∃ t, exec (.setAttested 0 k d) s = .next t ∧ t.wh.sec = .attested ∧ t.out = s.out ++ [Out.spdm 0 0x7E [0x00]] ∧
        t = { s with wh := { s.wh with boxes := t.wh.boxes, sec := .attested }, out := t.out }) ∧
    (s.wh.sec = .sealed → leBytes 48 d.toNat ≠ sha384 s.measurementRecord →
      ∃ t, exec (.setAttested 0 k d) s = .next t ∧ t.out = s.out ++ [Out.spdm 0 0x7E [0x01]] ∧
        t = { s with wh := { s.wh with boxes := t.wh.boxes }, out := t.out }) ∧
    (s.wh.sec ≠ .sealed →
      ∃ t, exec (.setAttested 0 k d) s = .next t ∧ t.out = s.out ++ [Out.spdm 0 0x7E [0x09]] ∧
        t = { s with wh := { s.wh with boxes := t.wh.boxes }, out := t.out })

/-- R594: a port reset of a port in OUT or OFF changes nothing and ends with BUSY: RESET_STAT and the event of the end are all
that is written. -/
def Obligations.PortResetOfAPortOutOrOff : Prop :=
  ∀ (s : State) (b : Byte), s.resetsFree = true → b.toNat < s.portCount → b.toNat < 36 → ((s.port b.toNat).state = .off ∨ (s.port b.toNat).state = .out) →
    ∃ t, exec (.portReset b) s = .next t ∧ t.hif.lastKind = 6 ∧ t.hif.lastStatus = 0x01 ∧ t.hif.running = none ∧ t.flagBit (blkHIF + 0x10) 0 = true ∧
      t = { s with hif := { s.hif with lastKind := 6, lastStatus := 0x01, msix := t.hif.msix }, flags := t.flags, ctrs := t.ctrs, out := t.out }

/-- R328: the write of LOAD_POST_HI posts the load whose address stands in the pair; a queue with room takes it at its tail, a
full one (16 loads) sets LOAD_STAT.DROPPED and does not. -/
def Obligations.LoadsArePosted : Prop :=
  ∀ (s : State) (c : Cove) (lo : Option Word) (hi : Word) (a : Nat), s.answers = true →
    a = (lo.getD (s.reg (inlOff c 0))).toNat + 0x100000000 * hi.toNat →
    ((vget [] s.inl.queues c).length < 16 →
      ∃ t, exec (.loadPost c lo hi) s = .next t ∧ vget [] t.inl.queues c = vget [] s.inl.queues c ++ [a] ∧
        (∀ e : Cove, e ≠ c → vget [] t.inl.queues e = vget [] s.inl.queues e) ∧ t = { s with inl := { s.inl with queues := t.inl.queues } }) ∧
    (16 ≤ (vget [] s.inl.queues c).length →
      ∃ t, exec (.loadPost c lo hi) s = .next t ∧ t.flagBit (inlOff c 8) 16 = true ∧
        t = { s with flags := t.flags, hif := t.hif, ctrs := t.ctrs, out := t.out })

/-- R24, R25, R574, Table 00.5: what a BAR0 write of a plain register does, by access code and by function. -/
def Obligations.RegisterWriteByAccessCode : Prop :=
  (∀ (s : State) (off : Fin 0x4000000) (v : Word) (r : RegSpec), s.answers = true → off.val % 4 = 0 → s.absentAt off = false →
    regSpec off = some r → off.val ≠ regLogTail →
    (r.acc ≠ .rwl ∨ s.image = none) → ¬(off.val / 0x100000 = 0x03 ∧ off.val % 0x100 = 0x10) →
    ∃ t, exec (.registerWrite 0 off v none) s = .next t ∧ t.reg off = v &&& BitVec.ofNat 32 r.mask ∧
      (∀ o, o ≠ off.val → t.reg o = s.reg o) ∧ t = { s with regs := t.regs }) ∧
  (∀ (s : State) (off : Fin 0x4000000) (v : Word) (r : RegSpec), s.answers = true → off.val % 4 = 0 → s.absentAt off = false →
    regSpec off = some r → r.acc = .rwl → s.image ≠ none → s.flt.logHead - (s.reg regLogTail).toNat < 256 →
    ∃ t, exec (.registerWrite 0 off v none) s = .next t ∧ t.regs = s.regs ∧ t.mem = s.mem ∧
      (SMap.get {} t.flt.log (s.flt.logHead % 256)).kind = 0x07 ∧ t.flt.logHead = s.flt.logHead + 1) ∧
  (∀ (s : State) (off : Fin 0x4000000) (v : Word), s.answers = true → off.val % 4 = 0 → s.absentAt off = false →
    regSpec off = none →
    ∃ t, exec (.registerWrite 0 off v none) s = .next t ∧ t.flag off = s.flag off &&& ~~~(v &&& BitVec.ofNat 32 (w1cMask off)) ∧
      (∀ o, o ≠ off.val → t.flag o = s.flag o) ∧ t = { s with flags := t.flags }) ∧
  (∀ (s : State) (fn : Fin 10) (off : Fin 0x4000000) (v : Word), s.answers = true → off.val % 4 = 0 → s.sees fn off = false →
    exec (.registerWrite fn off v none) s = .next s) ∧
  (∀ (s : State) (fn : Fin 10) (off : Fin 0x4000000) (v : Word) (h : Option Word), s.answers = true → off.val % 4 ≠ 0 →
    exec (.registerWrite fn off v h) s = exec .bar0BadAccess s) ∧
  (∀ (s : State), s.answers = true →
    ∃ t, exec .bar0BadAccess s = .next t ∧ t.ctr (blkHIF + 0x40) = s.ctr (blkHIF + 0x40) + 1 ∧ t.flagBit (blkHIF + 0x10) 3 = true ∧
      t.out.getLast? = some .barUR ∧ t.regs = s.regs ∧ t.mem = s.mem)

/-- R635 to R639: the check-value unit. A write of CTRL sets the algorithm and, with INIT, loads its initial value; DATA8,
DATA16 and DATA32 feed one, two and four bytes, lowest first; VALUE is restored by halves; in the stop the data writes are
discarded and STAT.DISCARDED is set. Each leaves every other part of the state alone. -/
def Obligations.CheckValueUnitWrites : Prop :=
  (∀ (s : State) (fn : Fin 9) (i : Fin 4) (w : Word), s.answers = true → s.cvuSees fn i = true →
    ∃ t, exec (.cvuCtrlWrite fn i w) s = .next t ∧ (t.cvuInst i).alg = w.setWidth 2 ∧
      (t.cvuInst i).value = (if w.getLsbD 8 then BitVec.ofNat 64 (crcAlg (w.toNat % 4)).init else (s.cvuInst i).value) ∧
      (∀ j, j ≠ i.val → t.cvuInst j = s.cvuInst j) ∧ t = { s with cvu := t.cvu }) ∧
  (∀ (s : State) (fn : Fin 9) (i : Fin 4) (w : Word), s.answers = true → s.cvuSees fn i = true → s.stopped = false →
    (∃ t, exec (.cvuData8 fn i w) s = .next t ∧
      (t.cvuInst i).value = BitVec.ofNat 64 ((crcAlg (s.cvuInst i).alg.toNat).byte (s.cvuInst i).shown.toNat (w.setWidth 8)) ∧
      (t.cvuInst i).alg = (s.cvuInst i).alg ∧ (∀ j, j ≠ i.val → t.cvuInst j = s.cvuInst j) ∧ t = { s with cvu := t.cvu }) ∧
    (∃ t, exec (.cvuData16 fn i w) s = .next t ∧
      (t.cvuInst i).value = BitVec.ofNat 64 ([w.setWidth 8, (w >>> 8).setWidth 8].foldl (crcAlg (s.cvuInst i).alg.toNat).byte
        (s.cvuInst i).shown.toNat) ∧
      (∀ j, j ≠ i.val → t.cvuInst j = s.cvuInst j) ∧ t = { s with cvu := t.cvu }) ∧
    (∃ t, exec (.cvuData32 fn i w) s = .next t ∧
      (t.cvuInst i).value = BitVec.ofNat 64 ([w.setWidth 8, (w >>> 8).setWidth 8, (w >>> 16).setWidth 8, (w >>> 24).setWidth 8].foldl
        (crcAlg (s.cvuInst i).alg.toNat).byte (s.cvuInst i).shown.toNat) ∧
      (∀ j, j ≠ i.val → t.cvuInst j = s.cvuInst j) ∧ t = { s with cvu := t.cvu })) ∧
  (∀ (s : State) (fn : Fin 9) (i : Fin 4) (w : Word), s.answers = true → s.cvuSees fn i = true → s.stopped = true →
    ∃ t, exec (.cvuData8 fn i w) s = .next t ∧ t.flagBit (blkCVU + 0x1000 + 0x100 * i.val + 0x20) 0 = true ∧ t = { s with flags := t.flags }) ∧
  (∀ (s : State) (fn : Fin 9) (i : Fin 4) (lo hi : Word), s.answers = true → s.cvuSees fn i = true →
    ∃ t, exec (.cvuValueWrite fn i (some lo) (some hi)) s = .next t ∧
      (t.cvuInst i).value = (hi ++ lo) &&& BitVec.ofNat 64 (2 ^ (crcAlg (s.cvuInst i).alg.toNat).width - 1) ∧
      (t.cvuInst i).alg = (s.cvuInst i).alg ∧ (∀ j, j ≠ i.val → t.cvuInst j = s.cvuInst j) ∧ t = { s with cvu := t.cvu }) ∧
  (∀ (s : State) (fn : Fin 9) (i : Fin 4) (w : Word), s.cvuSees fn i = false →
    exec (.cvuCtrlWrite fn i w) s = .next s ∧ exec (.cvuData8 fn i w) s = .next s ∧ exec (.cvuData16 fn i w) s = .next s ∧
      exec (.cvuData32 fn i w) s = .next s ∧ exec (.cvuValueWrite fn i (some w) (some w)) s = .next s) ∧
  (∀ (alg : Fin 4), (CvuInst.result
      { alg := BitVec.ofNat 2 alg.val, value := BitVec.ofNat 64 (([0x31, 0x32, 0x33, 0x34, 0x35, 0x36, 0x37, 0x38, 0x39] : List Byte).foldl
          (crcAlg alg.val).byte (crcAlg alg.val).init) }).toNat =
    [0xCBF43926, 0xE3069283, 0x6C40DF5F0B497347, 0x29B1][alg.val])

/-- R584, R585, R587, R394, R403: EPOCH_MARK takes the 64 bits of the write that carries its high word and EPOCH_TICK the local
tick; a write of W_CTRL sets the counter and ARM; a write of an arrival counter replaces its value where nothing watches it;
a change of an MSI-X mask with nothing pending changes the mask alone, and one that unmasks a pending vector sends its message
and clears its pending bit. -/
def Obligations.HostPairsWatchesAndMasks : Prop :=
  (∀ (s : State) (lo : Option Word) (hi : Word), s.answers = true →
    ∃ t, exec (.epochMarkWrite lo hi) s = .next t ∧ t.hif.epochMark = hi ++ (lo.getD (s.reg (blkHIF + 0x20))) ∧ t.hif.epochTick = s.tick ∧
      t = { s with regs := t.regs, hif := { s.hif with epochMark := t.hif.epochMark, epochTick := t.hif.epochTick } }) ∧
  (∀ (s : State) (fn : Fin 9) (w : Fin 1024) (v : Word), s.answers = true → s.seesWatch fn w = true → v.getLsbD 16 = false →
    ∃ t, exec (.watchCtrlWrite fn w v) s = .next t ∧ (SMap.get {} t.hif.watches w).arm = false ∧
      (SMap.get {} t.hif.watches w).counter = v.toNat % 65536 ∧
      (∀ x, x ≠ w.val → SMap.get {} t.hif.watches x = SMap.get {} s.hif.watches x) ∧ t = { s with hif := { s.hif with watches := t.hif.watches } }) ∧
  (∀ (s : State) (fn : Fin 9) (w : Fin 1024) (v : Word), s.answers = true → s.seesWatch fn w = true → v.getLsbD 16 = true →
    s.watchForeign w (v.toNat % 65536) = false →
    0x8000000000000000 ≤ (s.arr (v.toNat % 65536) - BitVec.ofNat 64 (s.reg64 (watchOff w))).toNat →
    ∃ t, exec (.watchCtrlWrite fn w v) s = .next t ∧ (SMap.get {} t.hif.watches w).arm = true ∧
      (SMap.get {} t.hif.watches w).counter = v.toNat % 65536 ∧ t = { s with hif := { s.hif with watches := t.hif.watches } }) ∧
  (∀ (s : State) (fn : Fin 9) (i : Fin 65536) (lo hi : Word), s.answers = true → s.ctrVisible fn i = true →
    (∀ p ∈ s.hif.watches, p.2.arm = false) →
    ∃ t, exec (.arrivalCounterWrite fn i (some lo) (some hi)) s = .next t ∧ t.arr i = hi ++ lo ∧
      (∀ j, j ≠ i.val → t.arr j = s.arr j) ∧ t = { s with arrival := t.arrival }) ∧
  (∀ (s : State) (fn : Fin 9) (f : Bool) (v : Fin 1024) (b : Bool), s.answers = true → (vget {} s.hif.msix fn).pending = [] →
    ∃ t, exec (.msixUnmask fn true f (some (v, b))) s = .next t ∧ (vget {} t.hif.msix fn).enabled = true ∧
      (vget {} t.hif.msix fn).funcMask = f ∧ SMap.get false (vget {} t.hif.msix fn).masked v = b ∧
      t = { s with hif := { s.hif with msix := t.hif.msix } }) ∧
  (∀ (s : State) (fn : Fin 9) (v : Fin 1024), s.answers = true → (vget {} s.hif.msix fn).pending = [(v.val, true)] → s.ideOk fn = true →
    ∃ t, exec (.msixUnmask fn true false (some (v, false))) s = .next t ∧ t.out = s.out ++ [.msix fn v] ∧
      (vget {} t.hif.msix fn).pending = [] ∧ t.mem = s.mem ∧ t.regs = s.regs)

/-- R651, R538, Table 14.4: SETDASA gives a target its dynamic address; a JTAG instruction that the debug level does not open
does nothing, a register snapshot shows what a BAR0 read shows, and a firmware halt holds the firmware. -/
def Obligations.I3cAddressesAndDebugPort : Prop :=
  (∀ (s : State) (dyn : Fin 128), s.answers = true →
    (∃ t, exec (.setdasa (Fin.ofNat 128 (0x30 + s.lnk.pos % 4)) dyn) s = .next t ∧ vget none t.i3cDyn 0 = some dyn.val ∧
      vget none t.i3cDyn 1 = vget none s.i3cDyn 1 ∧ t = { s with i3cDyn := t.i3cDyn }) ∧
    (∃ t, exec (.setdasa (Fin.ofNat 128 (0x38 + s.lnk.pos % 4)) dyn) s = .next t ∧ vget none t.i3cDyn 1 = some dyn.val ∧
      vget none t.i3cDyn 0 = vget none s.i3cDyn 0 ∧ t = { s with i3cDyn := t.i3cDyn })) ∧
  (∀ (s : State) (op : JtagOp), s.debug < jtagLevel op → exec (.jtagInstruction op) s = .next s) ∧
  (∀ (s : State) (off : Fin 0x4000000), s.answers = true → 1 ≤ s.debug →
    ∃ t, exec (.jtagInstruction (.snapshot off)) s = .next t ∧ t.out = s.out ++ [.jtag (leBytes 4 (s.bar0Read 0 off).toNat)] ∧
    t = { s with out := t.out }) ∧
  (∀ (s : State), s.answers = true → 3 ≤ s.debug →
    ∃ t, exec (.jtagInstruction .halt) s = .next t ∧ t.wh.fwHalted = true ∧ t = { s with wh := { s.wh with fwHalted := true } })

/-- R573, R574, R579: a BAR2 read answers with the bytes its window shows, with Unsupported Request outside every window
of its function (a BAR error), with Completer Abort in the stop, and with zeros through a VF whose cove is not declared. -/
def Obligations.Bar2ReadAnswers : Prop :=
  (∀ (s : State) (fn : Fin 9) (off : Fin 0x10000000000) (n : Fin 4097) (ide : Bool) (w : Bar2Win), s.answers = true → s.ideRefuses ide = false →
    s.stopped = false → s.vfLive fn = true → s.bar2At fn off n = some w → w.kind ≠ 1 →
    ∃ t, exec (.bar2Read fn off n ide) s = .next t ∧
      t = { s with out := s.out ++ [.barData ((List.range n).map fun i => s.winByte w (off - w.off + i))] }) ∧
  (∀ (s : State) (fn : Fin 9) (off : Fin 0x10000000000) (n : Fin 4097) (ide : Bool) (w : Bar2Win) (bs : List Byte), s.answers = true →
    s.ideRefuses ide = false → s.stopped = false → s.vfLive fn = true → s.bar2At fn off n = some w → w.kind = 1 →
    s.peek w.cove (w.target + (off - w.off)) n = .ok bs →
    ∃ t, exec (.bar2Read fn off n ide) s = .next t ∧ t.out.getLast? = some (.barData bs)) ∧
  (∀ (s : State) (fn : Fin 9) (off : Fin 0x10000000000) (n : Fin 4097) (ide : Bool) (w : Bar2Win) (e : AccErr), s.answers = true →
    s.ideRefuses ide = false → s.stopped = false → s.vfLive fn = true → s.bar2At fn off n = some w → w.kind = 1 →
    s.peek w.cove (w.target + (off - w.off)) n = .error e →
    ∃ t, exec (.bar2Read fn off n ide) s = .next t ∧ t.out.getLast? = some .barCA) ∧
  (∀ (s : State) (fn : Fin 9) (off : Fin 0x10000000000) (n : Fin 4097) (ide : Bool), s.answers = true → s.ideRefuses ide = false →
    s.stopped = false → s.vfLive fn = true → s.bar2At fn off n = none →
    ∃ t, exec (.bar2Read fn off n ide) s = .next t ∧ t.out.getLast? = some .barUR ∧ t.flagBit (blkHIF + 0x10) 3 = true ∧
      t.ctr (blkHIF + 0x40) = s.ctr (blkHIF + 0x40) + 1 ∧ t = { s with out := t.out, flags := t.flags, ctrs := t.ctrs, hif := t.hif }) ∧
  (∀ (s : State) (fn : Fin 9) (off : Fin 0x10000000000) (n : Fin 4097) (ide : Bool), s.answers = true →
    (s.ideRefuses ide = true → exec (.bar2Read fn off n ide) s = .next { s with out := s.out ++ [.barUR] }) ∧
    (s.ideRefuses ide = false → s.stopped = true → exec (.bar2Read fn off n ide) s = .next { s with out := s.out ++ [.barCA] }) ∧
    (s.ideRefuses ide = false → s.stopped = false → s.vfLive fn = false →
      exec (.bar2Read fn off n ide) s = .next { s with out := s.out ++ [.barData (List.replicate n 0)] }))

/-- R578, R579: a byte that BAR2 writes to an object table changes the declaration fields alone (OBJ_WORD, offsets 0x30 to
0x37, is discarded), and a write through a window that does not let it through is a BAR error. -/
def Obligations.Bar2WriteEffects : Prop :=
  (∀ (s : State) (fn : Fin 9) (off : Fin 0x10000000000) (b : Byte) (ide : Bool) (w : Bar2Win), s.answers = true → s.ideRefuses ide = false →
    s.stopped = false → s.vfLive fn = true → s.bar2At fn off 1 = some w → w.kind = 2 →
    ∃ t, exec (.bar2Write fn off [some b] ide) s = .next t ∧ t = { s with objs := t.objs } ∧
      (∀ c i, (t.obj c i).word = (s.obj c i).word) ∧
      ((off - w.off) % 64 ∈ List.range' 0x30 8 → t = s) ∧
      ((off - w.off) % 64 = 0x28 → (t.obj w.cove ((off - w.off) / 64)).decl.flags = b.toNat)) ∧
  (∀ (s : State) (fn : Fin 9) (off : Fin 0x10000000000) (d : List (Option Byte)) (ide : Bool) (w : Bar2Win), s.answers = true →
    s.ideRefuses ide = false → s.stopped = false → s.vfLive fn = true → s.bar2At fn off d.length = some w →
    (w.kind = 3 ∨ w.kind = 4 ∨ w.kind = 5 ∨ (w.kind = 1 ∧ w.write = false)) →
    ∃ t, exec (.bar2Write fn off d ide) s = .next t ∧ t.flagBit (blkHIF + 0x10) 3 = true ∧
      t.ctr (blkHIF + 0x40) = s.ctr (blkHIF + 0x40) + 1 ∧ t = { s with out := t.out, flags := t.flags, ctrs := t.ctrs, hif := t.hif }) ∧
  (∀ (s : State) (fn : Fin 9) (off : Fin 0x10000000000) (d : List (Option Byte)) (ide : Bool), s.answers = true → s.ideRefuses ide = false →
    (s.stopped = true ∨ s.vfLive fn = false) → exec (.bar2Write fn off d ide) s = .next s)

/-- Table 06.1, Table 06.2: a byte written through BAR4 to a stream-table entry replaces that byte of that entry; a byte
written to the OR alias sets the ready bits it has set and clears none. -/
def Obligations.Bar4WritesTheStreamTable : Prop :=
  (∀ (s : State) (im : Image) (off : Fin 0x2000000) (b : Byte) (ide : Bool), s.answers = true → s.image = some im → (im.requireIde = true → ide = true) →
    s.stopped = false →
    ∃ t, exec (.bar4EntryWrite 0 off [some b] ide) s = .next t ∧ t.sget (off / 128) (off % 128) 1 = b.toNat ∧
      (∀ o, o < 128 → o ≠ off % 128 → t.sget (off / 128) o 1 = s.sget (off / 128) o 1) ∧
      (∀ e o, e ≠ off / 128 → t.sget e o 1 = s.sget e o 1) ∧ t = { s with streams := t.streams }) ∧
  (∀ (s : State) (im : Image) (off : Fin 0x8000) (b : Byte) (ide : Bool), s.answers = true → s.image = some im → (im.requireIde = true → ide = true) →
    s.stopped = false →
    ∃ t, exec (.readyBitmapOr 0 off [some b] ide) s = .next t ∧
      (∀ e, SMap.get false t.ready e = (SMap.get false s.ready e || (decide (e / 8 = off) && b.getLsbD (e % 8)))) ∧ t = { s with ready := t.ready })

/-- R608, R609, R611, R616: a LOSS_REQ or LOSS_RESTORE that the node's record does not admit sets FLT.EVENT bit 4 alone; a
node recorded as lost with no work towards it is LOST, with one open record of the cause, its incarnation and the local
tick; LOSS_TAIL frees the slots that firmware has read; a record that nothing waits for is closed. -/
def Obligations.LossOfANode : Prop :=
  (∀ (s : State) (v : Word), s.answers = true → v.getLsbD 31 = true → v.getLsbD 30 = false →
    (s.otherNode (v.toNat % 65536) = false ∨ (s.node (v.toNat % 65536)).lost = true) →
    ∃ t, exec (.lossReq v) s = .next t ∧ t.flagBit (blkFLT + 4) 4 = true ∧ t = { s with out := t.out, flags := t.flags, ctrs := t.ctrs, hif := t.hif }) ∧
  (∀ (s : State) (v : Word), s.answers = true → v.getLsbD 31 = true → v.getLsbD 30 = true →
    (s.otherNode (v.toNat % 65536) = false ∨ (s.node (v.toNat % 65536)).lost = false) →
    ∃ t, exec (.lossRestore v) s = .next t ∧ t.flagBit (blkFLT + 4) 4 = true ∧
    t = { s with out := t.out, flags := t.flags, ctrs := t.ctrs, hif := t.hif }) ∧
  (∀ (s : State) (v : Word), s.answers = true → v.getLsbD 31 = true → v.getLsbD 30 = true → s.otherNode (v.toNat % 65536) = true →
    (s.node (v.toNat % 65536)).lost = true →
    ∃ t, exec (.lossRestore v) s = .next t ∧ (t.node (v.toNat % 65536)).lost = false ∧
      (t.node (v.toNat % 65536)).inc = (s.node (v.toNat % 65536)).inc ∧ (∀ n, n ≠ v.toNat % 65536 → t.node n = s.node n)) ∧
  (∀ (s : State) (v : Word), s.answers = true → s.otherNode (v.toNat % 65536) = true → (s.node (v.toNat % 65536)).lost = false → v.getLsbD 31 = true →
    v.getLsbD 30 = false → s.noWork = true → s.flt.openLoss = [] →
    ∃ t, exec (.lossReq v) s = .next t ∧ (t.node (v.toNat % 65536)).lost = true ∧ (∀ n, n ≠ v.toNat % 65536 → t.node n = s.node n) ∧
      (∃ r, t.flt.openLoss = [r] ∧ r.cause = 3 ∧ r.node = v.toNat % 65536 ∧ r.incarnation = (s.node (v.toNat % 65536)).inc ∧ r.tLost = s.now) ∧
      t.flagBit (blkFLT + 4) 1 = true ∧ t.mem = s.mem ∧ t.regs = s.regs) ∧
  (∀ (s : State) (n : Node), s.answers = true → s.lossDue n.toNat = true → s.noWork = true → s.flt.openLoss = [] →
    (∃ t, exec (.nodeLossTimer n) s = .next t ∧ (t.node n.toNat).lost = true ∧ (∃ r, t.flt.openLoss = [r] ∧ r.cause = 1 ∧ r.node = n.toNat) ∧
    t.mem = s.mem) ∧
    (∃ t, exec (.nodeLossRecord n) s = .next t ∧ (t.node n.toNat).lost = true ∧ (∃ r, t.flt.openLoss = [r] ∧ r.cause = 1 ∧ r.node = n.toNat) ∧
    t.mem = s.mem)) ∧
  (∀ (s : State) (n : Node), s.lossDue n.toNat = false → exec (.nodeLossTimer n) s = .next s ∧ exec (.nodeLossRecord n) s = .next s) ∧
  (∀ (s : State) (v : Word), s.answers = true → s.flt.waitingLoss = [] →
    ∃ t, exec (.lossTailWrite v) s = .next t ∧ t.reg regLossTail = v ∧ (∀ o, o ≠ regLossTail → t.reg o = s.reg o) ∧ t = { s with regs := t.regs }) ∧
  (∀ (s : State) (r : LossRec), s.answers = true → s.flt.openLoss = [r] → s.lossSettled r = true → s.flt.waitingLoss = [] → s.lossHeld < 64 →
    ∃ t, exec .lossRecordClose s = .next t ∧ t.flt.openLoss = [] ∧ t.flt.lossHead = s.flt.lossHead + 1 ∧
      (SMap.get {} t.flt.lossLog (s.flt.lossHead % 64)).node = r.node ∧ (SMap.get {} t.flt.lossLog (s.flt.lossHead % 64)).tClosed = s.now)

/-- R236, R237, R239: the entries of a step program. A WAIT entry whose counter has risen completes; an EMIT entry takes the
token of each part; the last group of a step completes and ends the step; a posting that found its queue full is retried at
the start of a budget period. -/
def Obligations.StepProgramEntries : Prop :=
  (∀ (s : State) (c : Cove) (r : StepRun) (sl : SlotDecl), s.halted = false → (s.seqc c).run = some r → s.slot c r.slot = some sl →
    r.next < sl.stepCount → s.withPrev c sl r.next = true → r.held = [] →
    ∃ t q, exec (.stepWaitMet c) s = .next t ∧ t = { s with seq := t.seq } ∧ (t.seqc c).run = some q ∧
      q = { r with posted := r.posted.map fun p => if s.waitMet c sl r p then { p with ended := true } else p, completed := q.completed } ∧
      (∀ d : Cove, d ≠ c → t.seqc d = s.seqc d)) ∧
  (∀ (s : State) (c : Cove) (r : StepRun) (sl : SlotDecl) (p : Posted) (e b : List Byte) (x : BatchPart), s.halted = false →
    (s.seqc c).run = some r → s.slot c r.slot = some sl → r.next < sl.stepCount → s.withPrev c sl r.next = true →
    r.posted = [p] → p.ended = false → p.counts = false → s.progEntry c sl p.entry = .ok e → peKind e = 7 → r.parts = [x] → r.held = [] →
    s.emitPoison c r p = none → (s.wantsToken x = true → s.peek c (p.addr + 4 * (x.row + x.rows - 1)) 4 = .ok b) →
    ∃ t q, exec (.emit c) s = .next t ∧ t = { s with seq := t.seq } ∧ (t.seqc c).run = some q ∧
      q = { r with posted := [{ p with ended := true }], completed := q.completed,
                   parts := [if s.wantsToken x then { x with token := some (leNat b) } else x] } ∧
      (∀ d : Cove, d ≠ c → t.seqc d = s.seqc d)) ∧
  (∀ (s : State) (c : Cove) (r : StepRun) (sl : SlotDecl) (d : CoveDecl) (p : Posted), s.halted = false → (s.seqc c).run = some r →
    s.cove c = some d → s.slot c r.slot = some sl → r.ended = false → r.parts = [] → r.posted = [p] → p.ended = true → p.counts = false →
    r.held = [] → sl.stepCount ≤ r.next →
    ∃ t, exec (.stepEntryComplete c) s = .next t ∧ t = { s with seq := t.seq, ctrs := t.ctrs } ∧
      (∃ q, (t.seqc c).run = some q ∧ q.ended = true ∧ q.posted = []) ∧ (t.seqc c).lastNs = (s.now - r.start) * 10 ∧
      t.ctr (seqOff c 0x40) = s.ctr (seqOff c 0x40) + 1 ∧ (∀ d : Cove, d ≠ c → t.seqc d = s.seqc d)) ∧
  (∀ (s u : State) (c : Cove) (r : StepRun) (sl : SlotDecl) (d : CoveDecl) (p : Posted), s.halted = false → (s.seqc c).run = some r →
    s.cove c = some d → s.slot c r.slot = some sl → r.retry = true → s.now % 800 = 0 → sl.stepCount = r.next + 1 →
    (r.posted = [] ∨ s.withPrev c sl r.next = true) → State.layerOpen sl r ((s.layerOf c sl r.next).getD 0) = true →
    s.postPoison c sl r.next = none → s.postEntry c d sl r r.next = .posted u p → u.seqc c = s.seqc c →
    ∃ t, exec (.stepPostRetry c) s = .next t ∧ t = { u with seq := t.seq } ∧
      (∃ q, (t.seqc c).run = some q ∧ q.next = r.next + 1 ∧ q.retry = false ∧ q.posted = r.posted ++ [p]))

/-- R319, R320: a COPY transfer that may start runs; its end, its bytes copied, ends it and counts its 64 KiB units; the
transfer of an object that is resident holds it in USE and ends. -/
def Obligations.LayerTransfers : Prop :=
  (∀ (s : State) (c : Cove) (r : StepRun) (d : CoveDecl) (sl : SlotDecl) (j : Nat) (x : SchedEntry), s.halted = false → (s.seqc c).run = some r →
    s.cove c = some d → s.slot c r.slot = some sl → r.ended = false → (∀ y ∈ r.xfers, y ≠ .running) →
    r.xfers.findIdx? (· = Xfer.waiting) = some j → sl.sched.entries[j]? = some x → xferEligible sl r j = true → sl.sched.mode = 1 →
    ∃ t, exec (.layerTransferStart c) s = .next t ∧ t = { s with seq := t.seq, ctrs := t.ctrs } ∧
      (t.seqc c).run = some { r with xfers := modNth r.xfers j fun _ => .running } ∧ (∀ e : Cove, e ≠ c → t.seqc e = s.seqc e)) ∧
  (∀ (s u : State) (c : Cove) (r : StepRun) (d : CoveDecl) (sl : SlotDecl) (j : Nat) (x : SchedEntry) (a : Nat) (ok : Bool), s.halted = false →
    (s.seqc c).run = some r → s.cove c = some d → s.slot c r.slot = some sl → r.xfers.findIdx? (· = Xfer.running) = some j →
    sl.sched.entries[j]? = some x → sl.sched.mode = 1 → s.translate c x.srcVa 1 .read = .ok (.dpa a) → a < hostDpa → s.xferPoison c = none →
    (s.charge 4 0 sl.sched.activity x.bytes).xferCopy sl.sched.activity c x.srcVa x.dstVa (x.bytes / 64) 0 = (u, none) → u.seqc c = s.seqc c →
    sl.stepCount ≤ r.next →
    ∃ t, exec (.layerTransferDone c ok) s = .next t ∧ t = { u with seq := t.seq, ctrs := t.ctrs } ∧
      t.ctr (spwOff c 0x50) = u.ctr (spwOff c 0x50) + BitVec.ofNat 64 (x.bytes / 65536) ∧
      (t.seqc c).run = some { r with xfers := modNth r.xfers j fun _ => .ended }) ∧
  (∀ (s : State) (c : Cove) (r : StepRun) (d : CoveDecl) (sl : SlotDecl) (j : Nat) (x : SchedEntry) (ok : Bool), s.halted = false →
    (s.seqc c).run = some r → s.cove c = some d → s.slot c r.slot = some sl → r.xfers.findIdx? (· = Xfer.running) = some j →
    sl.sched.entries[j]? = some x → sl.sched.mode ≠ 1 → (s.obj c x.objId).word.state = .resident → sl.stepCount ≤ r.next →
    ∃ t, exec (.layerTransferDone c ok) s = .next t ∧ t = { s with seq := t.seq, objs := t.objs } ∧
      (t.obj c x.objId).word.use = ((s.obj c x.objId).word.use + 1) % 256 ∧
      (t.seqc c).run = some { r with held := r.held ++ [j], xfers := modNth r.xfers j fun _ => .ended })

/-- R221, Table 06.4, R251, R248, R214, Table 06.12: what a boundary does with the request of an entry whose ready bit is
set, what the completion of shadow copies and of fallback imports write, and STEP_EN, which the VF of another cove does
not write. -/
def Obligations.BoundaryTakesRequests : Prop :=
  (∀ (s : State) (c : Cove) (d : CoveDecl) (e : Nat) (as : List Adoption), s.halted = false → s.cove c = some d → (s.seqc c).run = none →
    s.boundaryDue c = true → s.coveResetting c = false → s.mem.poison = [] → s.mem.failed = [] → s.liveEntries = [] → s.strm = [] → s.gau.shares = [] → (s.seqc c).adoptFrom = [] →
    s.ready = [(e, true)] → s.homeCove e = some c.val → s.sget e 1 1 ≠ 1 → s.groupSlot c = none →
    ∃ t, exec (.stepBoundary c as) s = .next t ∧ SMap.get false t.ready e = false ∧ t.sget e 1 1 = 0 ∧
      t.sget e 2 1 = (if s.sget e 1 1 = 0 then Status.done.code else if s.sget e 1 1 ≤ 4 then Status.busy.code else Status.range.code) ∧
      t.sget e 0x77 1 = (s.sget e 0x77 1 + 1) % 256 ∧ (∀ i, i ≠ e → SMap.get 0 t.streams i = SMap.get 0 s.streams i) ∧ t.mem = s.mem ∧ t.regs = s.regs) ∧
  (∀ (s : State) (e : Fin 262144) (p : Nat) (rest : List Nat), s.halted = false → (s.sx e).shadowPending = p :: rest → p < 0x100000000 →
    ∃ t, exec (.shadowCopyDone e) s = .next t ∧ t.sget e 0x70 4 = p ∧ (t.sx e).shadowPending = rest ∧
      (∀ i, i ≠ e.val → SMap.get 0 t.streams i = SMap.get 0 s.streams i ∧ t.sx i = s.sx i) ∧ t = { s with streams := t.streams, strm := t.strm }) ∧
  (∀ (s : State) (e : Fin 262144) (n hc hr : Nat) (fb home : SlotDecl) (d : CoveDecl), s.halted = false → (s.sx e).importing = some n →
    n < 0x100000000 → (s.sx e).oldRange.getLast? = some (hc, hr) → s.serving e = some fb → s.cove hc = some d → s.slot hc (s.sget e 5 1 % 8) = some home →
    ∃ t, exec (.fallbackImportDone e) s = .next t ∧ t.sget e 0x30 4 = n ∧ (t.sx e).importing = none) ∧
  (∀ (s : State) (fn : Fin 9) (c : Cove) (v : Word), s.answers = true → (fn.val = 0 ∨ (fn.val = c.val + 1 ∧ (s.cove c).isSome = true)) →
    ((s.seqc c).toHouse = false ∨ v.getLsbD 0 = false) →
    ∃ t, exec (.seqCtrlWrite ⟨fn, c⟩ v) s = .next t ∧ t.seqc c = { s.seqc c with stepEn := v.getLsbD 0 } ∧ (∀ d : Cove, d ≠ c → t.seqc d = s.seqc d) ∧
      t = { s with seq := t.seq }) ∧
  (∀ (s : State) (fn : Fin 9) (c : Cove) (v : Word), s.answers = true → (fn.val = 0 ∨ (fn.val = c.val + 1 ∧ (s.cove c).isSome = true)) →
    (s.seqc c).toHouse = true → v.getLsbD 0 = true →
    ∃ t, exec (.seqCtrlWrite ⟨fn, c⟩ v) s = .next t ∧ (t.seqc c).stepEn = true ∧ (t.seqc c).toHouse = false ∧ t.mem = s.mem ∧ t.streams = s.streams) ∧
  (∀ (s : State) (fn : Fin 9) (c : Cove) (v : Word), fn.val ≠ 0 → (fn.val ≠ c.val + 1 ∨ s.cove c = none) →
    exec (.seqCtrlWrite ⟨fn, c⟩ v) s = .next s)

/-- Table 06.4: what the requests other than START and RESUME do to a stream's state. -/
def Obligations.StreamRequests : Prop :=
  ∀ (s : State) (c e : Nat), 
    (s.sget e 1 1 = 1 → s.sState e ≠ some .free → s.request c e = (s, .busy)) ∧
    (∀ x, s.sget e 1 1 = 1 → s.sState e = some .free → s.startCheck c e = some x → s.request c e = (s, x)) ∧
    (s.sget e 1 1 = 2 → s.sState e = some .decode → (s.sx e).nodeLost = false → (s.request c e).2 = .done ∧ (s.request c e).1.sState e = some .cancelling ∧
      (s.request c e).1 = { s with streams := (s.request c e).1.streams }) ∧
    (s.sget e 1 1 = 2 → s.sState e = some .free → s.request c e = (s, .busy)) ∧
    (s.sget e 1 1 = 3 → s.sState e = some .decode → (s.sx e).nodeLost = false → s.tierCheck e = none → (s.request c e).2 = .done ∧
      (s.request c e).1.sState e = some .paused ∧ ((s.request c e).1.sx e).wantDemote = some (decide (s.sget e 7 1 = 1))) ∧
    (s.sget e 1 1 = 4 → s.sState e ≠ some .paused → s.request c e = (s, .busy)) ∧
    (5 ≤ s.sget e 1 1 → s.request c e = (s, .range))

/-- R39, R44, R623 to R629: a budget period boundary begins a period at every arbiter; the oldest waiting Ripple record is
written at the ring's head, open where it may still grow, and the open record before it is closed; the open record is closed
when its time has run out; the step-time histograms are recorded at
each second. -/
def Obligations.PeriodsAndRecords : Prop :=
  (∀ (s : State) (ds : List Demand), s.now % 800 = 0 → s.answers = true → (∀ k, (SMap.get {} s.arbs k).period ≠ some (s.now / 800)) →
    ∃ t, exec (.budgetPeriodBoundary ds) s = .next t ∧ t.tick = s.tick ∧
      (∀ r i, r < 6 → i < s.resourceParts r → i < 64 → (SMap.get {} t.arbs (arbKey r i)).period = some (s.now / 800) ∧
        (SMap.get {} t.arbs (arbKey r i)).cap = s.capacity r i)) ∧
  (∀ (s : State) (ds : List Demand), (s.now % 800 ≠ 0 ∨ s.pstate = 4) → exec (.budgetPeriodBoundary ds) s = .next s) ∧
  (∀ (s : State) (r : RipRec) (rest : List RipRec) (shut : Bool), s.answers = true → s.rip.queue = r :: rest → s.rip.live = true → s.asleep = false →
    shut = (r.closed && (rest.isEmpty || decide (r.kind = ripDroop) || decide (r.kind = ripStepTime))) →
    ∃ t, exec .rippleRecordWrite s = .next t ∧ t.rip.queue = rest ∧ t.rip.head = s.rip.head + 1 ∧
      t.rip.openRec = (if shut then none else some s.rip.head) ∧
      SMap.get {} t.rip.ring (s.rip.head % 1048576) = { r with seq := s.rip.head % 0x100000000, valid := true, closed := shut } ∧
      (∀ k, k ≠ s.rip.head % 1048576 → SMap.get {} t.rip.ring k =
        (if (s.rip.openRec.map (· % 1048576)) = some k then { SMap.get ({} : RipRec) s.rip.ring k with closed := true } else SMap.get {} s.rip.ring k)) ∧
      t = { s with rip := t.rip, ctrs := t.ctrs, flags := t.flags, hif := t.hif, out := t.out, arbs := t.arbs }) ∧
  (∀ (s : State) (n : Nat), s.answers = true → s.rip.openRec = some n → s.rip.lastUpdate + 100 * ((s.reg (blkRIP + 8)).toNat % 65536) ≤ s.now →
    ∃ t, exec .rippleCloseTimer s = .next t ∧ t.rip.openRec = none ∧ (SMap.get {} t.rip.ring (n % 1048576)).closed = true ∧
      t = { s with rip := t.rip, ctrs := t.ctrs, flags := t.flags, hif := t.hif, out := t.out }) ∧
  (∀ (s : State) (n : Nat), s.rip.openRec = some n → s.now < s.rip.lastUpdate + 100 * ((s.reg (blkRIP + 8)).toNat % 65536) →
    exec .rippleCloseTimer s = .next s) ∧
  (∀ (s : State), s.answers = true → s.now % 100000000 = 0 → 
    ∃ t, exec .stepTimeHistogram s = .next t ∧ t.rip.stepTimes = [] ∧
    t = { s with rip := t.rip, ctrs := t.ctrs, flags := t.flags, hif := t.hif, out := t.out })

/-- R112, R159, R667: posting a list to a Pond or to the attention engines of a cove: a full queue sets DROPPED and changes
no queue; a header that cannot be read sets POST_FAULT; a list that the checks admit is queued last. -/
def Obligations.PostingAList : Prop :=
  (∀ (s : State) (c : Cove) (lo hi : Word), s.answers = true → 64 ≤ (vget [] s.ponds c).length →
    ∃ t, exec (.pondPost c (some lo) hi) s = .next t ∧ t.flagBit (mxcOff c 8) 16 = true ∧
      t = { s with flags := t.flags, hif := t.hif, ctrs := t.ctrs, out := t.out }) ∧
  (∀ (s : State) (c : Cove) (lo hi : Word), s.answers = true → 64 ≤ (vget [] s.atnLists c).length →
    ∃ t, exec (.listPost c (some lo) hi) s = .next t ∧ t.flagBit (atnOff c 8) 16 = true ∧
      t = { s with flags := t.flags, hif := t.hif, ctrs := t.ctrs, out := t.out }) ∧
  (∀ (s : State) (c : Cove) (lo hi : Word) (a : Nat) (er : AccErr), s.answers = true → (vget [] s.ponds c).length < 64 →
    a = lo.toNat + 0x100000000 * hi.toNat →
    (s.touch c unitMxc 0 a 64).peek c a 64 = .error er →
    ∃ t, exec (.pondPost c (some lo) hi) s = .next t ∧ t.flagBit (mxcOff c 8) 17 = true ∧ t.ponds = (s.touch c unitMxc 0 a 64).ponds) ∧
  (∀ (s : State) (c : Cove) (lo hi : Word) (a : Nat) (er : AccErr), s.answers = true → (vget [] s.atnLists c).length < 64 →
    a = lo.toNat + 0x100000000 * hi.toNat →
    (s.touch c unitAtn 0 a 64).peek c a 64 = .error er →
    ∃ t, exec (.listPost c (some lo) hi) s = .next t ∧ t.flagBit (atnOff c 8) 17 = true ∧ t.atnLists = (s.touch c unitAtn 0 a 64).atnLists) ∧
  (∀ (s u : State) (c : Cove) (lo hi : Word) (a : Nat) (h : List Byte) (m : Bool) (esc rung : Nat) (ds : List Nat) (d : CoveDecl), s.answers = true →
    (vget [] s.ponds c).length < 64 → a = lo.toNat + 0x100000000 * hi.toNat → u = s.touch c unitMxc 0 a 64 → u.cove c = some d →
    u.peek c a 64 = .ok h → u.checkList c a d.coreMask 160 true h = .ok m esc rung ds →
    ∃ t, exec (.pondPost c (some lo) hi) s = .next t ∧
      vget [] t.ponds c = vget [] s.ponds c ++ [⟨a, m, esc, .done, ds.map fun x => (x, .done), false, []⟩] ∧
      (∀ e : Cove, e ≠ c → vget [] t.ponds e = vget [] s.ponds e)) ∧
  (∀ (s u : State) (c : Cove) (lo hi : Word) (a : Nat) (h : List Byte) (m : Bool) (esc rung : Nat) (ds : List Nat) (d : CoveDecl), s.answers = true →
    (vget [] s.atnLists c).length < 64 → a = lo.toNat + 0x100000000 * hi.toNat → u = s.touch c unitAtn 0 a 64 → u.cove c = some d →
    u.peek c a 64 = .ok h → u.checkList c a d.atnMask 256 false h = .ok m esc rung ds →
    ∃ t, exec (.listPost c (some lo) hi) s = .next t ∧
      vget [] t.atnLists c = vget [] s.atnLists c ++ [⟨a, false, 0, .done, ds.map fun x => (x, .done), false, []⟩] ∧
      (∀ e : Cove, e ≠ c → vget [] t.atnLists e = vget [] s.atnLists e))

/-- R113, R119, R158, R165: an idle core or attention unit that claims work holds the descriptor that the claimed list
entry names, with the status that its checks give it (R116) or with the rung of the list it follows (R122, R153); a core or
unit that is not idle claims nothing. -/
def Obligations.ClaimingWork : Prop :=
  (∀ (s u v : State) (k : Fin 128) (c a : Nat) (l : WorkList) (p i : Nat) (h e d : List Byte), s.halted = false → vget none s.cores k = none →
    s.coreCove k = some c → s.mayClaim k = true → s.claimFrom c unitMxc k (vget [] s.ponds c) = (u, some (l, p, i, h)) →
    a = fld h 0x10 8 + 16 * i → u.peek c a 16 = .ok e → (u.touch c unitMxc 0 a 16).peek c (fld e 0 8) 160 = .ok d →
    v = (u.touch c unitMxc 0 a 16).touch c unitMxc 0 (fld e 0 8) 160 →
    (tdFlag d 1 = false ∨ v.tileEarly c (fld e 0 8) d (fld e 8 4) (rsvZero e 12 4) ≠ none) →
    ∃ t, exec (.tileClaim k) s = .next t ∧ t = { v with cores := t.cores } ∧
      vget none t.cores k = some { cove := c, hdr := l.hdr, pass := p, descAddr := fld e 0 8, desc := d, tile := fld e 8 4, rung := fld h 0x2C 1,
                                   early := v.tileEarly c (fld e 0 8) d (fld e 8 4) (rsvZero e 12 4), waiting := none, lost := false, entry := a } ∧
      (∀ j : Fin 128, j ≠ k → vget none t.cores j = vget none s.cores j)) ∧
  (∀ (s u v : State) (k : Fin 128) (c a n : Nat) (l : WorkList) (p i : Nat) (h e d : List Byte), s.halted = false → vget none s.cores k = none →
    s.coreCove k = some c → s.mayClaim k = true → s.claimFrom c unitMxc k (vget [] s.ponds c) = (u, some (l, p, i, h)) →
    a = fld h 0x10 8 + 16 * i → u.peek c a 16 = .ok e → (u.touch c unitMxc 0 a 16).peek c (fld e 0 8) 160 = .ok d →
    v = (u.touch c unitMxc 0 a 16).touch c unitMxc 0 (fld e 0 8) 160 →
    tdFlag d 1 = true → v.tileEarly c (fld e 0 8) d (fld e 8 4) (rsvZero e 12 4) = none → v.peekNat c (fld d 0x78 8 + 0x2C) 1 = .ok n →
    ∃ t r, exec (.tileClaim k) s = .next t ∧ vget none t.cores k = some r ∧ r.follow = n ∧ r.desc = d ∧ r.tile = fld e 8 4 ∧ r.early = none ∧
      r.rungErr = none ∧ r.waiting = none ∧ (∀ j : Fin 128, j ≠ k → vget none t.cores j = vget none s.cores j)) ∧
  (∀ (s : State) (k : Fin 128), vget none s.cores k ≠ none → exec (.tileClaim k) s = .next s) ∧
  (∀ (s u v : State) (k : Fin 32) (c a : Nat) (l : WorkList) (p i : Nat) (h e d : List Byte), s.halted = false → vget none s.atns k = none →
    s.atnCove k = some c → s.mayClaim (0x80 + k) = true → s.claimFrom c unitAtn k (vget [] s.atnLists c) = (u, some (l, p, i, h)) →
    a = fld h 0x10 8 + 16 * i → u.peek c a 16 = .ok e → (u.touch c unitAtn 0 a 16).peek c (fld e 0 8) 256 = .ok d →
    v = (u.touch c unitAtn 0 a 16).touch c unitAtn 0 (fld e 0 8) 256 →
    (bit (fld d 1 1) 4 = false ∨ v.unitEarly (fld e 0 8) d (fld e 8 4) (rsvZero e 12 4) ≠ none) →
    ∃ t, exec (.attentionUnitClaim k) s = .next t ∧ t = { v with atns := t.atns } ∧
      vget none t.atns k = some { cove := c, hdr := l.hdr, pass := p, descAddr := fld e 0 8, desc := d, tile := fld e 8 4, rung := 0xFF,
                                  early := v.unitEarly (fld e 0 8) d (fld e 8 4) (rsvZero e 12 4), waiting := none, lost := false, entry := a } ∧
      (∀ j : Fin 32, j ≠ k → vget none t.atns j = vget none s.atns j)) ∧
  (∀ (s u v : State) (k : Fin 32) (c a n : Nat) (l : WorkList) (p i : Nat) (h e d : List Byte), s.halted = false → vget none s.atns k = none →
    s.atnCove k = some c → s.mayClaim (0x80 + k) = true → s.claimFrom c unitAtn k (vget [] s.atnLists c) = (u, some (l, p, i, h)) →
    a = fld h 0x10 8 + 16 * i → u.peek c a 16 = .ok e → (u.touch c unitAtn 0 a 16).peek c (fld e 0 8) 256 = .ok d →
    v = (u.touch c unitAtn 0 a 16).touch c unitAtn 0 (fld e 0 8) 256 →
    bit (fld d 1 1) 4 = true → v.unitEarly (fld e 0 8) d (fld e 8 4) (rsvZero e 12 4) = none → v.peekNat c (fld d 0xA0 8 + 0x2C) 1 = .ok n →
    ∃ t r, exec (.attentionUnitClaim k) s = .next t ∧ vget none t.atns k = some r ∧ r.follow = n ∧ r.desc = d ∧ r.tile = fld e 8 4 ∧ r.early = none ∧
      r.rungErr = none ∧ r.waiting = none ∧ (∀ j : Fin 32, j ≠ k → vget none t.atns j = vget none s.atns j)) ∧
  (∀ (s : State) (k : Fin 32), vget none s.atns k ≠ none → exec (.attentionUnitClaim k) s = .next s)

/-- R110, R117, R120 to R127, R160 to R172: a pass of a tile whose operands can be read and whose result can be written
writes it, counts the tile and frees its core; one that knew its status (a refused descriptor, a lost page) is counted with
it; one that meets a poisoned granule of an object waits for its refetch and restarts once that has ended. The attention
units do the same. A list whose last work item is done leaves its queue and completes. -/
def Obligations.EndsOfTilesAndUnits : Prop :=
  (∀ (s u : State) (k : Fin 128) (r : TileRun) (d : TileDesc) (o : TileOut) (b : Bool) (rows : List Nat) (f : Fmt) (g : XNum) (w : TileWrite)
    (ws : List (Nat × List Byte)) (ti tj : Nat), s.halted = false →
    vget none s.cores k = some r → r.lost = false → r.waiting = none → r.early = none → r.rungErr = none → readTileDesc r.descAddr r.desc = some d →
    s.tileOutcome r d = .ok (some o, b, rows) → f = (if r.mode = 2 then cFmtAt d.c.fmt r.rung else d.c.fmt) →
    s.cGain r.cove d r.desc f r.tile o = .ok (some g) → ti = r.tile / ((d.n + 127) / 128) → tj = r.tile % ((d.n + 127) / 128) →
    w = convertTile d r.desc (s.reg (mxcOff r.cove 0x10)).toNat f g r.tile ti tj o →
    ws = w.writes ++ (if f.isNB ∧ d.c.gainMode = 2 then [(fld r.desc 0x60 8 + 4 * r.tile, leBytes 4 (to32 g))] else []) →
    s.firstBad r.cove ws = none → u = (s.touchTile r.cove d r.desc (r.fmtA d) ti tj).pokeAll r.cove unitMxc ws →
    ∃ t v, exec (.tilePassEnd k) s = .next t ∧ vget none t.cores k = none ∧ (∀ j : Fin 128, j ≠ k → vget none t.cores j = vget none s.cores j) ∧
      v = (u.tileShares r ((List.range o.vals.length).map (256 * ti + ·)) (w.rows ++ rows.map (256 * ti + ·))).tileCounts r o b (!rows.isEmpty) w.trips ∧
      t = (v.modList r.cove r.hdr fun l => l.meet r.descAddr o.faults).endTile k r
        (if !o.faults.isEmpty then .range else if b = true ∨ 0 < r.pass then .replayed else .done)) ∧
  (∀ (s : State) (k : Fin 128) (r : TileRun) (st : Status), s.halted = false → vget none s.cores k = some r →
    ((r.lost = true ∧ st = .objectLost) ∨ (r.lost = false ∧ r.waiting = none ∧ r.early.or r.rungErr = some st)) →
    ∃ t, exec (.tilePassEnd k) s = .next t ∧ vget none t.cores k = none ∧ (∀ j : Fin 128, j ≠ k → vget none t.cores j = vget none s.cores j) ∧
      t = s.endTile k r st) ∧
  (∀ (s : State) (k : Fin 128) (r : TileRun) (d : TileDesc) (va a : Nat), s.halted = false → vget none s.cores k = some r → r.lost = false →
    r.waiting = none → r.early = none → r.rungErr = none → readTileDesc r.descAddr r.desc = some d → s.tileOutcome r d = .error (va, .poisoned a) →
    (s.accErr r.cove unitMxc 0 va (.poisoned a)).refetchable r.cove va = true →
    ∃ t, exec (.tilePassEnd k) s = .next t ∧ vget none t.cores k = some { r with waiting := some (va / 65536 * 65536) } ∧
      (∀ j : Fin 128, j ≠ k → vget none t.cores j = vget none s.cores j)) ∧
  (∀ (s : State) (k : Fin 128) (r : TileRun), s.halted = false → vget none s.cores k = some r → r.lost = false → r.waiting ≠ none →
    exec (.tilePassEnd k) s = .next s) ∧
  (∀ (s : State) (k : Fin 128) (r : TileRun), s.halted = false → vget none s.cores k = some r → r.released = true → r.desc ≠ [] →
    ∃ t, exec (.tileRestart k) s = .next t ∧ vget none t.cores k = some { r with waiting := none, released := false, restarted := true } ∧
      (∀ j : Fin 128, j ≠ k → vget none t.cores j = vget none s.cores j) ∧
      t.ctr (mxcOff r.cove 0x50) = s.ctr (mxcOff r.cove 0x50) + 1 ∧ t = { s with cores := t.cores, ctrs := t.ctrs }) ∧
  (∀ (s : State) (k : Fin 128) (r : TileRun), vget none s.cores k = some r → r.released = false → exec (.tileRestart k) s = .next s) ∧
  (∀ (s : State) (k : Fin 32) (r : TileRun), s.halted = false → vget none s.atns k = some r → r.released = true → r.desc ≠ [] →
    ∃ t, exec (.attentionUnitRestart k) s = .next t ∧ vget none t.atns k = some { r with waiting := none, released := false, restarted := true } ∧
      (∀ j : Fin 32, j ≠ k → vget none t.atns j = vget none s.atns j) ∧
      t.ctr (atnOff r.cove 0x50) = s.ctr (atnOff r.cove 0x50) + 1 ∧ t = { s with atns := t.atns, ctrs := t.ctrs }) ∧
  (∀ (s : State) (k : Fin 32) (r : TileRun), vget none s.atns k = some r → r.released = false → exec (.attentionUnitRestart k) s = .next s) ∧
  (∀ (s : State) (k : Fin 32) (r : TileRun) (st : Status), s.halted = false → vget none s.atns k = some r → r.early = some st →
    ∃ t, exec (.attentionUnitEnd k) s = .next t ∧ vget none t.atns k = none ∧ (∀ j : Fin 32, j ≠ k → vget none t.atns j = vget none s.atns j) ∧
      t = s.countUnit k r st) ∧
  (∀ (s u : State) (k : Fin 32) (r : TileRun) (a : AttnDesc) (o : UnitOut) (w : List (List (Nat × List Byte) × QEvents)) (kvh rb sp : Nat),
    s.halted = false → vget none s.atns k = some r → r.early = none → readAttnDesc r.descAddr r.desc = some a → a.bwd = false →
    r.lost = false → r.waiting = none → r.rungErr = none → kvh = r.tile / (a.rb * a.splits) → rb = r.tile / a.splits % a.rb → sp = r.tile % a.splits →
    s.runForward r.cove r.desc a (r.qFmt a) (r.newFmt a) kvh rb sp = .ok (some o) →
    w = (if a.splits = 1 then o.rows.map fun y => rowWrites r.desc a kvh y.1 y.2
         else o.rows.zipIdx.map fun y => ([(a.partAddr r.desc r.tile + y.2 * (4 * a.d + 8), partialBytes y.1.2)], ({} : QEvents))) →
    s.firstBad r.cove (w.flatMap Prod.fst) = none →
    u = ((s.touchUnit r.cove (a.readRanges r.desc (r.qFmt a) (r.newFmt a) kvh [rb] (a.positions rb (a.splitChunks rb sp)))).chargeUnit r a).pokeAll
      r.cove unitAtn (w.flatMap Prod.fst) →
    ∃ t v, exec (.attentionUnitEnd k) s = .next t ∧ vget none t.atns k = none ∧ (∀ j : Fin 32, j ≠ k → vget none t.atns j = vget none s.atns j) ∧
      v = (u.countCache r.cove (w.foldl (fun t y => t.add y.2) ({} : QEvents))).bump (atnOff r.cove 0x38) o.special ∧
      t = (v.meetFaults r o.faults).closeForward k r a (if o.faults.isEmpty then .done else .range)) ∧
  (∀ (s u : State) (k : Fin 32) (r : TileRun) (a : AttnDesc) (o : BackOut) (kvh : Nat) (rbs ps : List Nat),
    s.halted = false → vget none s.atns k = some r → r.early = none → readAttnDesc r.descAddr r.desc = some a → a.bwd = true →
    r.lost = false → r.waiting = none → r.rungErr = none → a.backReads r.tile = (kvh, rbs, ps) →
    s.runBackward r.cove r.desc a (r.qFmt a) (r.newFmt a) r.tile = .ok (some o) → s.firstBad r.cove o.writes = none →
    u = ((s.touchUnit r.cove (a.readRanges r.desc (r.qFmt a) (r.newFmt a) kvh rbs ps)).chargeUnit r a).pokeAll r.cove unitAtn o.writes →
    ∃ t v, exec (.attentionUnitEnd k) s = .next t ∧ vget none t.atns k = none ∧ (∀ j : Fin 32, j ≠ k → vget none t.atns j = vget none s.atns j) ∧
      v = ((u.bump (bwdOff r.cove 0x08) o.sat).bump (bwdOff r.cove 0x10) o.nans).bump (atnOff r.cove 0x38) o.special ∧
      t = (v.meetFaults r o.faults).countUnit k r (if o.faults.isEmpty then .done else .range)) ∧
  (∀ (s : State) (c : Cove) (l : WorkList) (h : List Byte), s.halted = false → (vget [] s.ponds c).find? (fun l => l.ended) = some l →
    s.peek c l.hdr 64 = .ok h →
    ∃ t u, exec (.pondListComplete c) s = .next t ∧ t = u.completeList c l h ∧ u = { s with ponds := t.ponds } ∧
      vget [] t.ponds c = (vget [] s.ponds c).erase l ∧ (∀ e : Cove, e ≠ c → vget [] t.ponds e = vget [] s.ponds e)) ∧
  (∀ (s : State) (c : Cove), (∀ l ∈ vget [] s.ponds c, l.ended = false) → exec (.pondListComplete c) s = .next s) ∧
  (∀ (s : State) (c : Cove) (l : WorkList), s.halted = false → (vget [] s.atnLists c).find? (fun l => l.ended) = some l →
    ∃ t u, exec (.attnListComplete c) s = .next t ∧ t = u.completeUnits c l ∧ u = { s with atnLists := t.atnLists } ∧
      vget [] t.atnLists c = (vget [] s.atnLists c).erase l ∧ (∀ e : Cove, e ≠ c → vget [] t.atnLists e = vget [] s.atnLists e)) ∧
  (∀ (s : State) (c : Cove), (∀ l ∈ vget [] s.atnLists c, l.ended = false) → exec (.attnListComplete c) s = .next s)

/-- R182, R210, R667: posting a Shoal descriptor queues it last; a full queue sets DROPPED and changes no queue. An idle
router that starts a RECEIVE takes the oldest descriptor of its coves and runs it; one that starts a ROUTE whose gates can be
read and whose tables and records can be written runs it, with the pairs that the gates give: the runs of its first round
are due, or have no records, at every destination. -/
def Obligations.ShoalDescriptors : Prop :=
  (∀ (s : State) (c : Cove) (lo hi : Word), s.answers = true → s.fuses.variant ≠ .s → (vget [] s.shoalQ c).length < 64 →
    ∃ t, exec (.shoalPost c (some lo) hi) s = .next t ∧ vget [] t.shoalQ c = vget [] s.shoalQ c ++ [lo.toNat + 0x100000000 * hi.toNat] ∧
      (∀ e : Cove, e ≠ c → vget [] t.shoalQ e = vget [] s.shoalQ e) ∧ t = { s with shoalQ := t.shoalQ }) ∧
  (∀ (s : State) (c : Cove) (lo hi : Word), s.answers = true → s.fuses.variant ≠ .s → 64 ≤ (vget [] s.shoalQ c).length →
    ∃ t, exec (.shoalPost c (some lo) hi) s = .next t ∧ t.flagBit (shoalOff c 8) 16 = true ∧
      t = { s with flags := t.flags, hif := t.hif, ctrs := t.ctrs, out := t.out }) ∧
  (∀ (s u : State) (rt : Fin 2) (c addr : Nat) (d : List Byte) (p : Placement), s.halted = false → s.mayWork (0xD0 + rt) = true →
    s.shoalHead rt = some (c, addr, .ok d) → fld d 0 1 = 0x22 →
    u = (((s.touch c unitShoal 0 addr 128).shoalPop c).touch c unitShoal 0 (fld d 0x10 8) (64 * p.nlocal)) →
    ((s.touch c unitShoal 0 addr 128).shoalPop c).placement (fld d 8 1) = some p → u.recvOk c addr d p = .ok true →
    ∃ t r, exec (.receiveStart rt) s = .next t ∧ t.router rt = .recv r ∧ r.cove = c ∧ r.addr = addr ∧ r.desc = d ∧ r.round = 0 ∧
      r.since = u.now ∧ r.gathered = false ∧ r.status = .done ∧ r.id = u.bsn.nextId ∧
      t = { u with routers := t.routers, bsn := { u.bsn with nextId := u.bsn.nextId + 1 } }) ∧
  (∀ (s u u1 u2 u3 u4 : State) (rt : Fin 2) (c addr : Nat) (d : List Byte) (p : Placement) (gates : List (List (Nat × Nat) × Bool)) (streams : List Nat)
    (a : Assigned) (ps qs : List Pair) (st : Status), s.halted = false →
    s.mayWork (0xD0 + rt) = true → s.shoalHead rt = some (c, addr, .ok d) → fld d 0 1 = 0x21 →
    u = ((s.touch c unitShoal 0 addr 128).shoalPop c) → u.placement (fld d 8 1) = some p → routeOk addr c d p = true → u.routeWaits c d p = [] →
    (∀ x ∈ p.dests, (u.node x.1).lost = false) → 0 < fld d 4 4 →
    u1 = (List.range (fld d 4 4)).foldl (fun s i => s.touch c unitShoal 0 (fld d 0x10 8 + i * fld d 0x18 4) ((plainFmt (fld d 0x1C 4)).rowBytes p.e)) u →
    u1.routeGates c d p = .ok gates → u1.readWords c (fld d 0x38 8) (fld d 4 4) = .ok streams → a = assignRounds p (gates.map fun g => g.1.map Prod.fst) →
    ps = a.pairs p gates streams → u1.poke c unitShoal 0 (fld d 0x40 8) (a.choices gates) = (u2, none) →
    u2.poke c unitShoal 0 (fld d 0x48 8) ((runTable (a.round + 1) p.dests.length ps).flatMap runEntry) = (u3, none) →
    u3.packAll c d p (recordBase d (runTable (a.round + 1) p.dests.length ps).length) ps.zipIdx = (u4, qs, st) → st ≠ .permission →
    ∃ t r, exec (.routeStart rt) s = .next t ∧ vget [] t.shoalQ c = (vget [] s.shoalQ c).tail ∧ t.mem = u4.mem ∧
      t.router rt = .route r ∧ r.cove = c ∧ r.addr = addr ∧ r.desc = d ∧ r.place = fld d 8 1 ∧ r.pairs = qs ∧ r.rounds = a.round + 1 ∧ r.status = st ∧
      r.dests.length = p.dests.length ∧ (∀ i, i < p.dests.length → (nth ({} : DestRun) r.dests i).phase = (if runOf qs 0 i = [] then 2 else 1))) ∧
  (∀ (s : State) (rt : Fin 2), s.router rt ≠ .idle → exec (.routeStart rt) s = .next s ∧ exec (.receiveStart rt) s = .next s)

/-- R188 to R196: when a run's copy has completed its header is sent and its return awaited; a run whose returns have
arrived has returned; when every run has returned or been given up, the router combines, completes and is idle again; a
return that does not arrive in time ends the descriptor. -/
def Obligations.RouteRuns : Prop :=
  (∀ (s : State) (rt : Fin 2) (i : Fin 256) (r : RouteRun) (p : Placement), s.halted = false → s.router rt = .route r → s.placement r.place = some p →
    (nth ({} : DestRun) r.dests i).phase = 2 → i < p.dests.length → i < r.dests.length →
    ∃ t q, exec (.runCopyDone rt i) s = .next t ∧ t.router rt = .route q ∧ (nth ({} : DestRun) q.dests i).phase = 3 ∧
      (nth ({} : DestRun) q.dests i).since = s.now ∧ (nth ({} : DestRun) q.dests i).owed = (nth ({} : DestRun) r.dests i).owed +
        returnOwed p.retStride (runOf r.pairs (nth ({} : DestRun) r.dests i).round i).length ∧
      (∀ j, j ≠ i.val → nth ({} : DestRun) q.dests j = nth ({} : DestRun) r.dests j) ∧
      (∃ x, t = { s with routers := t.routers, bsn := { s.bsn with txWait := s.bsn.txWait ++ [x] } })) ∧
  (∀ (s : State) (rt : Fin 2) (i : Fin 256) (r : RouteRun) (p : Placement), s.halted = false → s.router rt = .route r → s.placement r.place = some p →
    (nth ({} : DestRun) r.dests i).phase = 3 → i < r.dests.length →
    (nth ({} : DestRun) r.dests i).owed ≤ (s.arr (fld r.desc 0x70 2 + i) - (nth ({} : DestRun) r.dests i).base).toNat →
    (nth ({} : DestRun) r.dests i).last ≤ (nth ({} : DestRun) r.dests i).round → (∀ x ∈ r.dests, x.phase ≠ 0) → p.dests.length ≤ r.dests.length →
    ∃ t q, exec (.runReturnDone rt i) s = .next t ∧ t.router rt = .route q ∧ (nth ({} : DestRun) q.dests i).phase = 4 ∧
      q.pairs = (r.pairs.map fun (y : Pair) => if y.dest = i ∧ y.round = (nth ({} : DestRun) r.dests i).round then { y with returned := true } else y) ∧
      t = { s with routers := t.routers }) ∧
  (∀ (s u : State) (rt : Fin 2) (r : RouteRun) (p : Placement) (st : Status), s.halted = false → s.router rt = .route r → s.placement r.place = some p →
    (∀ x ∈ r.dests, x.phase = 4 ∨ x.phase = 5) →
    (List.range (fld r.desc 4 4)).foldl (fun (a : State × Status) t => let x := a.1.combineToken r p t; (x.1, mergeShoal a.2 x.2)) (s, r.status) = (u, st) →
    ∃ t, exec (.routeCombine rt) s = .next t ∧ t.router rt = .idle ∧ (∀ j : Fin 2, j ≠ rt → t.router j = s.router j) ∧
      t = u.routeEnd rt { r with status := st }) ∧
  (∀ (s : State) (rt : Fin 2) (r : RouteRun) (p : Placement), s.halted = false → s.router rt = .route r → s.placement r.place = some p →
    ¬(∀ x ∈ r.dests, x.phase = 4 ∨ x.phase = 5) → exec (.routeCombine rt) s = .next s) ∧
  (∀ (s : State) (rt : Fin 2) (r q : RouteRun) (p : Placement), s.halted = false → s.router rt = .route r → s.placement r.place = some p →
    (∃ x ∈ r.dests, (x.phase = 3 ∨ x.phase = 6) ∧ x.since + 100 * (s.reg (blkSHOAL + 0x10)).toNat < s.now) →
    q = { r with status := mergeShoal r.status .timeout, dests := r.dests.map fun x => if x.phase = 4 then x else { x with phase := 5 } } →
    ∃ t, exec (.shoalTimeout rt) s = .next t ∧ t.router rt = .idle ∧ (∀ j : Fin 2, j ≠ rt → t.router j = s.router j) ∧
      exec (.routeCombine rt) (s.setRouter rt (.route q)) = .next t) ∧
  (∀ (s : State) (rt : Fin 2) (r : RouteRun), s.router rt = .route r →
    (∀ x ∈ r.dests, (x.phase = 3 ∨ x.phase = 6) → s.now ≤ x.since + 100 * (s.reg (blkSHOAL + 0x10)).toNat) → exec (.shoalTimeout rt) s = .next s)

/-- R198 to R205: a RECEIVE gathers a round when every header it awaits has come, and after the last list of the round
has been computed reduces the records and sends the returns; after the last round it completes and the router is idle; a
round whose headers do not come in time ends it with TIMEOUT. -/
def Obligations.ReceiveRounds : Prop :=
  (∀ (s : State) (rt : Fin 2) (r : RecvRun) (p : Placement) (hs : List (Nat × List Byte)), s.halted = false → s.router rt = .recv r →
    s.placement r.place = some p → r.gathered = false → s.roundHeaders r p = some hs → s.recvWaits r p hs = [] →
    ∃ t q, exec (.receiveRoundGather rt) s = .next t ∧ t.router rt = .recv q ∧ q.gathered = true ∧ q.list = 0 ∧ q.round = r.round ∧
      q.cove = r.cove ∧ q.desc = r.desc ∧ q.records = r.records + q.got.length ∧ (∀ j : Fin 2, j ≠ rt → t.router j = s.router j)) ∧
  (∀ (s u : State) (rt : Fin 2) (r q : RecvRun) (p : Placement) (base : DWord), s.halted = false → s.router rt = .recv r →
    s.placement r.place = some p → r.gathered = true → r.list + 1 < fld r.desc 1 1 → r.returning = 0 → s.listDone r = true →
    q = { r with status := mergeShoal r.status (s.listStatus r), list := r.list + 1 } → s.postRound q p (r.list + 1) = (u, base) →
    ∃ t, exec (.receiveRoundGather rt) s = .next t ∧ t.router rt = .recv { q with listBase := base, listReplays := s.replaysOf q (r.list + 1) } ∧
      t = { u with routers := t.routers }) ∧
  (∀ (s : State) (rt : Fin 2) (r : RecvRun) (p : Placement), s.halted = false → s.router rt = .recv r → s.placement r.place = some p →
    r.gathered = false → s.roundHeaders r p = none → exec (.receiveRoundGather rt) s = .next s) ∧
  (∀ (s : State) (rt : Fin 2) (r : RecvRun) (p : Placement), s.halted = false → s.router rt = .recv r → s.placement r.place = some p →
    r.gathered = true → r.list = 4 → r.returning = 0 → (∀ x ∈ r.srcs, x.last = true ∨ x.gone = true) →
    ∃ t, exec (.receiveRoundReturn rt) s = .next t ∧ t.router rt = .idle ∧ (∀ j : Fin 2, j ≠ rt → t.router j = s.router j) ∧
      t = s.recvEnd rt r (r.round + 1)) ∧
  (∀ (s : State) (rt : Fin 2) (r : RecvRun) (p : Placement), s.halted = false → s.router rt = .recv r → s.placement r.place = some p →
    r.gathered = true → r.list + 1 = fld r.desc 1 1 → r.list ≠ 4 → s.listDone r = true →
    ∃ t q, exec (.receiveRoundReturn rt) s = .next t ∧ t.router rt = .recv q ∧ q.list = 4 ∧ q.round = r.round ∧ q.got = r.got ∧
      q.returning = (r.srcs.filter fun x => !x.hdr.isEmpty).length ∧ t.bsn.direct.length = s.bsn.direct.length + q.returning ∧
      (∀ j : Fin 2, j ≠ rt → t.router j = s.router j)) ∧
  (∀ (s : State) (rt : Fin 2) (r : RecvRun) (p : Placement), s.halted = false → s.router rt = .recv r → s.placement r.place = some p →
    r.gathered = true → r.list = 4 → r.returning = 0 → (∃ x ∈ r.srcs, x.last = false ∧ x.gone = false) →
    ∃ t, exec (.receiveRoundReturn rt) s = .next t ∧ t.router rt = .recv { r with round := r.round + 1, gathered := false, got := [], list := 0, since := s.now } ∧
      t = { s with routers := t.routers }) ∧
  (∀ (s : State) (rt : Fin 2) (r : RecvRun) (p : Placement), s.halted = false → s.router rt = .recv r → s.placement r.place = some p →
    r.gathered = false → s.roundHeaders r p = none → r.since + 100 * (s.reg (blkSHOAL + 0x10)).toNat < s.now →
    ∃ t, ∃ u : State, exec (.shoalTimeout rt) s = .next t ∧ t.router rt = .idle ∧ (∀ j : Fin 2, j ≠ rt → t.router j = s.router j) ∧
      u = { s with bsn := { s.bsn with direct := u.bsn.direct } } ∧ t = u.recvEnd rt { r with status := mergeShoal r.status .timeout } r.round)

/-- R265, R266, R268, R271: the scrubber passes over a clean offset and moves on by 64; at the end of a pass the counts of the
pass become those of the pass before; a quarantined page is written with zeros and, where every granule reads back
clean, its test stands. -/
def Obligations.ScrubAndQuarantine : Prop :=
  (∀ (s : State), s.answers = true → s.hbm.scrubOn = true → s.hbm.selfRefresh = false → s.mem.poison = [] → s.mem.failed = [] →
    s.hbm.scrubOff + 64 < 0x40000000 →
    ∃ t, exec (.patrolScrubRead []) s = .next t ∧ t = { s with hbm := { s.hbm with scrubOff := s.hbm.scrubOff + 64 }, arbs := t.arbs }) ∧
  (∀ (s : State), s.answers = true → s.hbm.scrubOn = true → s.hbm.selfRefresh = false → s.mem.poison = [] → s.mem.failed = [] →
    0x40000000 ≤ s.hbm.scrubOff + 64 →
    ∃ t, exec (.patrolScrubRead []) s = .next t ∧ t = { s with arbs := t.arbs, hbm := { s.hbm with
      scrubOff := 0, scrubPass := s.hbm.scrubPass + 1, cePrev := s.hbm.ceNow, uePrev := s.hbm.ueNow, ceNow := [], ueNow := [] } }) ∧
  (∀ (s : State) (found : List CellFault), (s.hbm.scrubOn = false ∨ s.hbm.selfRefresh = true) → exec (.patrolScrubRead found) s = .next s) ∧
  (∀ (s : State) (c : Cove) (d : CoveDecl) (page : Nat), s.answers = true → s.cove c = some d → s.quarDue c page = true → d.hbmBase % 65536 = 0 →
    (∀ i, i < 1024 → s.region (d.pageDpa page + 64 * i) = .hbm) →
    ∃ t, exec (.quarantineTest c page []) s = .next t ∧ t = { s with mem := t.mem, seq := t.seq, arbs := t.arbs } ∧
      (t.seqc c).quarOk = (s.seqc c).quarOk ++ [(page, s.hbm.scrubPass + 2)] ∧ (t.seqc c).quar = (s.seqc c).quar ∧
      (∀ i, i < 65536 → t.byteAt c (d.pageDpa page + i) = 0) ∧
      (∀ a, (a < d.pageDpa page ∨ d.pageDpa page + 65536 ≤ a) → SMap.get 0 t.mem.bytes a = SMap.get 0 s.mem.bytes a)) ∧
  (∀ (s : State) (c : Cove) (page : Nat) (found : List CellFault), s.quarDue c page = false → exec (.quarantineTest c page found) s = .next s)

/-- R271, R273 to R275, R278, R283, R284: the roster of HBM channels and the stack temperatures. A move that starts drops
what the band of its map-out held, and no other byte. -/
def Obligations.RosterAndTemperatures : Prop :=
  (∀ (s : State) (w : Word), s.answers = true → w.getLsbD 31 = true → s.chan (w.toNat % 512) = .live →
    ∃ t, exec (.mapReq w) s = .next t ∧ t.chan (w.toNat % 512) = .watch ∧ t.flagBit (blkMEM + 0xC) 0 = true ∧
      (∀ ch, ch ≠ w.toNat % 512 → t.chan ch = s.chan ch) ∧ t = { s with hbm := { s.hbm with roster := t.hbm.roster }, flags := t.flags, hif := t.hif, ctrs := t.ctrs, out := t.out }) ∧
  (∀ (s : State) (w : Word), s.answers = true → w.getLsbD 31 = true → s.chan (w.toNat % 512) ≠ .live → s.chan (w.toNat % 512) ≠ .watch →
    ∃ t, exec (.mapReq w) s = .next t ∧ t.flagBit (blkMEM + 0xC) 2 = true ∧ t = { s with flags := t.flags, hif := t.hif, ctrs := t.ctrs, out := t.out }) ∧
  (∀ (s : State) (ch : Nat), s.answers = true → s.hbm.move = none → s.stopped = false → s.hbm.selfRefresh = false → s.wideReset = false →
    s.nextWatch = some ch →
    s.spareLeft ≠ 0 →
    ∃ t, exec .mapoutMoveStart s = .next t ∧ t.chan ch = .moving ∧ (∃ m, t.hbm.move = some m ∧ m.ch = ch) ∧
      t.hbm.flashRoster = s.hbm.flashRoster ++ [(ch, s.hbm.outs.length)] ∧ (∀ k, k ≠ ch → t.chan k = s.chan k) ∧
      (∀ a, (a < capAfter s.fuses.variant (s.hbm.outs.length + 1) ∨ capAfter s.fuses.variant s.hbm.outs.length ≤ a) →
        SMap.get 0 t.mem.bytes a = SMap.get 0 s.mem.bytes a) ∧ t = { s with hbm := t.hbm, mem := t.mem }) ∧
  (∀ (s : State) (ch : Nat), s.answers = true → s.hbm.move = none → s.stopped = false → s.hbm.selfRefresh = false → s.wideReset = false →
    s.nextWatch = some ch →
    s.spareLeft = 0 →
    ∃ t, exec .mapoutMoveStart s = .next t ∧ t.flagBit (blkMEM + 0xC) 3 = true ∧
    t = { s with flags := t.flags, hif := t.hif, ctrs := t.ctrs, out := t.out }) ∧
  (∀ (s : State) (m : MapMove), s.answers = true → s.hbm.move = some m → s.stopped = false → s.hbm.selfRefresh = false → s.wideReset = false →
    s.mem.failed = [] →
    m.ch < 384 →
    ∃ t, exec (.mapoutMoveDone []) s = .next t ∧ t.chan m.ch = .out ∧ t.hbm.outs = s.hbm.outs ++ [m.ch] ∧ t.hbm.move = none ∧
      t.flagBit (blkMEM + 0xC) 1 = true ∧ t.mem = s.mem ∧
      t = { s with hbm := t.hbm, flags := t.flags, hif := t.hif, ctrs := t.ctrs, out := t.out, arbs := t.arbs }) ∧
  (∀ (s : State) (rs : List (Option Nat)) (i : Fin 12), s.answers = true → 
    ∃ t, exec (.stackTempRead rs) s = .next t ∧ t = { s with hbm := { s.hbm with temps := t.hbm.temps } } ∧
      (i < s.fuses.variant.stacks → i < rs.length → nth none rs i = none →
        (vget ({} : StackTemp) t.hbm.temps i).row = 4 ∧ (vget ({} : StackTemp) t.hbm.temps i).fail = true) ∧
      (i < s.fuses.variant.stacks → i < rs.length →
        (vget ({} : StackTemp) t.hbm.temps i).refresh = rowRefresh (vget ({} : StackTemp) t.hbm.temps i).row) ∧
      (∀ x, i < s.fuses.variant.stacks → i < rs.length → nth none rs i = some x → 110 ≤ x → (vget ({} : StackTemp) s.hbm.temps i).row ≤ 4 →
      (vget ({} : StackTemp) t.hbm.temps i).row = 4) ∧
      (∀ x, i < s.fuses.variant.stacks → i < rs.length → nth none rs i = some x → x ≤ 82 → (vget ({} : StackTemp) t.hbm.temps i).row = 0) ∧
      (s.fuses.variant.stacks ≤ i → vget ({} : StackTemp) t.hbm.temps i = vget ({} : StackTemp) s.hbm.temps i))

/-- R311, R327, R300, R301, Table 08.10: compare-and-swap of an object word. CAS_OLD gives the old word; a word that is not the
expected one fails with BUSY and changes no object; a change of PINS alone writes the word with SEQ raised by one; an
invalidation of some length is busy until it is done, one of no length never is. -/
def Obligations.ObjectWordsAndShootdown : Prop :=
  (∀ (s : State) (c : Cove) (lo : Option Word) (hi : Word), s.answers = true → s.cove c = none →
    ∃ t, exec (.objectCas c lo hi) s = .next t ∧ (vget {} t.spw c).casStatus = Status.absentUnit.code ∧ (vget {} t.spw c).cmpFail = false ∧
      t.reg (spwOff c 0x14) = hi ∧ t = { s with spw := t.spw, regs := t.regs }) ∧
  (∀ (s : State) (c : Cove) (d : CoveDecl) (lo : Option Word) (hi : Word) (i : Nat), s.answers = true → s.cove c = some d →
    i = (s.reg (spwOff c 0)).toNat % 16384 → (s.obj c i).word.enc ≠ s.reg64 (spwOff c 8) →
    ∃ t, exec (.objectCas c lo hi) s = .next t ∧ (vget {} t.spw c).casOld = BitVec.ofNat 64 (s.obj c i).word.enc ∧
      (vget {} t.spw c).casStatus = Status.busy.code ∧ (vget {} t.spw c).cmpFail = true ∧ t.reg (spwOff c 0x14) = hi ∧
      t.reg (spwOff c 0x10) = lo.getD (s.reg (spwOff c 0x10)) ∧ (∀ o, o ≠ spwOff c 0x10 → o ≠ spwOff c 0x14 → t.reg o = s.reg o) ∧
      t = { s with spw := t.spw, regs := t.regs }) ∧
  (∀ (s : State) (c : Cove) (d : CoveDecl) (lo : Option Word) (hi : Word) (i : Nat) (n : ObjWord), s.answers = true → s.cove c = some d →
    i = (s.reg (spwOff c 0)).toNat % 16384 → (s.obj c i).word.enc = s.reg64 (spwOff c 8) →
    objWordOf ((lo.getD (s.reg (spwOff c 0x10))).toNat + 0x100000000 * hi.toNat) = some n → casRow (s.obj c i).word n = .pins →
    ∃ t, exec (.objectCas c lo hi) s = .next t ∧ (t.obj c i).word = { n with seq := ((s.obj c i).word.seq + 1) % 65536 } ∧
      (vget {} t.spw c).casStatus = Status.done.code ∧ (vget {} t.spw c).cmpFail = false ∧ (∀ e j, 16384 * e + j ≠ 16384 * c + i → t.obj e j = s.obj e j) ∧
      t = { s with spw := t.spw, objs := t.objs, regs := t.regs }) ∧
  (∀ (s : State) (c : Cove) (v : Word), s.answers = true → v.getLsbD 0 = true → (vget {} s.dtu c).busy = false →
    ∃ t, exec (.dtuInval c v) s = .next t ∧ (vget {} t.dtu c).busy = decide (s.reg (coveOff blkDTU c 0x18) ≠ 0) ∧
      (∀ e : Cove, e ≠ c → vget {} t.dtu e = vget {} s.dtu e) ∧ t = { s with dtu := t.dtu }) ∧
  (∀ (s : State) (c : Cove) (v : Word), (v.getLsbD 0 = false ∨ (vget {} s.dtu c).busy = true) → exec (.dtuInval c v) s = .next s) ∧
  (∀ (s : State) (c : Cove), s.answers = true → ∃ t, exec (.dtuInvalDone c) s = .next t ∧ (vget {} t.dtu c).busy = false ∧
    (∀ e : Cove, e ≠ c → vget {} t.dtu e = vget {} s.dtu e) ∧ t = { s with dtu := t.dtu })

/-- R316, R233, R357, R601 to R604: a page move of an object that is promoting and has more pages to move moves one page, and
so does one of a stream that is demoted; a wait for a poisoned page opens its refetch; a refetch whose page has come writes
it, ends, and lets the engines that waited restart; a refetch without a source loses its object; a free load context reruns
the load of an object whose intake record is the source. -/
def Obligations.PageMovesAndRefetches : Prop :=
  (∀ (s : State) (c : Cove) (i : Fin 16384) (d : CoveDecl), s.halted = false → s.cove c = some d → d.unified = false →
    (s.obj c i).word.state = .promoting →
    (s.obj c i).decl.slowDpa (s.obj c i).moved < hostDpa → (s.obj c i).moved + 1 < (s.obj c i).decl.npages →
    ∃ t u, exec (.spillwayPageMove (.object c i) true) s = .next t ∧ (t.obj c i).moved = (s.obj c i).moved + 1 ∧
      (t.obj c i).word = (s.obj c i).word ∧ (t.obj c i).pages = (s.obj c i).pages ∧ (∀ e j, 16384 * e + j ≠ 16384 * c + i.val → t.obj e j = s.obj e j) ∧
      u = s.movePage ((s.obj c i).moveAct.getD (s.obj c i).decl.activity) c ((s.obj c i).decl.slowDpa (s.obj c i).moved)
        (d.pageDpa (nth 0 (s.obj c i).pages (s.obj c i).moved)) ∧ t = { u with objs := t.objs, ctrs := t.ctrs }) ∧
  (∀ (s : State) (e : Fin 262144) (ok deep : Bool) (k : KvPage) (n : Nat) (l : List Nat) (p : Pool), s.halted = false → (s.sx e).move = some (.demote deep) →
    p = (if deep then .deep else .host) → (s.sx e).pages.find? (fun y => y.pool = .hbm ∧ (s.sx e).movePos ≤ y.va) = some k →
    (deep = true ∨ s.pageBad (s.kvDpa k) = false) → s.kvPick k.cove p 1 = n :: l →
    (s.sx e).pages.any (fun y => y.pool = .hbm ∧ k.va < y.va) = true →
    exec (.spillwayPageMove (.stream e) ok) s = .next (s.kvMovePage e k p n)) ∧
  (∀ (s : State) (w : Waiter) (va i : Nat), s.halted = false → s.poisonWaits = [(w, va)] → s.refetchOf w.cove va = none → s.pageOwner w va = some i →
    s.flt.refetch.length < 512 →
    ∃ t r, exec .poisonRefetchStart s = .next t ∧ t.flt.refetch = s.flt.refetch ++ [r] ∧ r.cove = w.cove ∧ r.va = va ∧ r.obj = i ∧ r.waiters = [w] ∧
      t.ctr (blkFLT + 0x40) = s.ctr (blkFLT + 0x40) + 1 ∧ t.mem = s.mem ∧ t.cores = s.cores ∧ t.atns = s.atns) ∧
  (∀ (s : State) (c : Cove) (va a : Nat) (r : Refetch) (b : List Byte), s.halted = false → s.refetchOf c va = some r →
    ((r.source = 1 ∧ r.page = some b) ∨ (r.source = 2 ∧ s.recordPage r = .ok b)) →
    (∀ w ∈ r.waiters, w.unit ≠ unitFerry) → r.writes = [] → r.obj < 16384 → s.restoreDpa r = some a →
    ∃ t, exec (.refetchDone c va) s = .next t ∧ t.refetchOf c va = none ∧ t.mem = (s.writePage c a b).mem ∧
      (∀ k : Fin 128, vget none t.cores k = (vget none s.cores k).map fun x => if x.cove = c.val ∧ x.waiting = some va then { x with released := true } else x) ∧
      (∀ k : Fin 32, vget none t.atns k = (vget none s.atns k).map fun x => if x.cove = c.val ∧ x.waiting = some va then { x with released := true } else x)) ∧
  (∀ (s : State) (c : Cove) (va : Nat) (r : Refetch) (b : Bool), s.halted = false → s.flt.refetch = [r] → r.cove = c.val → r.va = va → r.source = 0 →
    r.obj < 16384 → r.waiters = [] →
    ∃ t, exec (.refetchFail c va b) s = .next t ∧ t.flt.refetch = [] ∧ (t.obj c r.obj).word.state = .lost ∧
      (t.obj c r.obj).word.lastStatus = Status.objectLost.code) ∧
  (∀ (s : State) (x : Fin 4) (r : Refetch) (k : Intake), s.halted = false → s.mayWork (0xD4 + x) = true → s.loadCtx x = none → s.flt.refetch = [r] →
    r.source = 2 → (∀ y : Fin 4, ∀ q, s.loadCtx y = some q → q.refetch = none) → (s.obj r.cove r.obj).intake = some k → s.wantsRerun r = true →
    ∃ t q, exec (.inletRefetchRerun x) s = .next t ∧ t.loadCtx x = some q ∧ q.cove = r.cove ∧ q.obj = r.obj ∧ q.refetch = some [r.va] ∧ q.desc = k.desc ∧
      q.key = (if s.recordKeyOk r.cove k then k.key else none) ∧ (∀ b, s.recordTensors r.cove k = .ok b → q.tensors = b) ∧
      (∀ y : Fin 4, y ≠ x → t.loadCtx y = s.loadCtx y) ∧ t = { s with inl := t.inl, ctrs := t.ctrs, arbs := t.arbs })

/-- R329 to R336, Table 09.3, Table 09.5: loads of the Inlet are taken, complete, abort and are cancelled. -/
def Obligations.LoadsOfTheInlet : Prop :=
  (∀ (s u v : State) (x : Fin 4) (c a n : Nat) (rest : List Nat) (d t0 : List Byte), s.halted = false → s.mayWork (0xD4 + x) = true → s.loadCtx x = none →
    s.rerunDue = false → s.loadCove = some c → vget [] s.inl.queues c = a :: rest → s.loadPoison c a = [] →
    u = (s.modInl fun i => { i with queues := vmod i.queues c fun _ => rest, lastCove := c }).touch c unitInlet 0 a 128 → u.peek c a 128 = .ok d →
    loadFields a d = true → u.peek c (ldTensorAddr d) (64 * ldTensors d) = .ok t0 → u.loadCheck c a d (tensorList t0) = none → ldTensors d ≠ 0 →
    v = u.setWord c (ldObj d) (fun w => { w with state := .loading, use := w.use + 1 }) → n = (v.obj c (ldObj d)).decl.npages →
    (ldHbm d = true → (v.objFreePages c n).length = n) →
    ∃ t k, exec (.loadTake x) s = .next t ∧ t.loadCtx x = some k ∧ k.cove = c ∧ k.addr = a ∧ k.obj = ldObj d ∧ k.desc = d ∧ k.tensors = t0 ∧
      k.key = v.loadKey c d ∧ k.cancelled = false ∧ k.waiting = false ∧ (t.obj c (ldObj d)).word.state = .loading ∧ vget [] t.inl.queues c = rest ∧
      (ldHbm d = true → (t.obj c (ldObj d)).pages = v.objFreePages c n)) ∧
  (∀ (s : State) (x : Fin 4) (k : LoadCtx) (b : List Byte) (outs : List (List Byte × TensorOut)), s.halted = false → s.loadCtx x = some k →
    k.refetch = none → k.waiting = false → k.abortCause none = none → s.loadResult k none = .ok (b, outs) →
    ∃ t, exec (.loadComplete x) s = .next t ∧ t.loadCtx x = none ∧
      (t.obj k.cove k.obj).word.state = (if ldHbm k.desc then .resident else .slow) ∧
      (t.obj k.cove k.obj).intake = some { keep := ldKeep k.desc, desc := k.desc, key := k.key } ∧ t = s.loadFinish x k b outs) ∧
  (∀ (s : State) (x : Fin 4) (k : LoadCtx), s.halted = false → s.loadCtx x = some k → k.refetch = none → k.cancelled = true → k.waiting = true →
    ldEncrypted k.desc = false →
    ∃ t, exec (.loadAbort x none) s = .next t ∧ t.loadCtx x = none ∧ (t.obj k.cove k.obj).word.state = .absent ∧
      (t.obj k.cove k.obj).word.lastStatus = Status.cancelled.code ∧ (t.obj k.cove k.obj).pages = []) ∧
  (∀ (s : State) (c : Cove) (lo hi : Word), s.halted = false → lo.toNat + 0x100000000 * hi.toNat ∈ vget [] s.inl.queues c →
    ∃ t, exec (.loadCancel c (some lo) hi) s = .next t ∧ vget [] t.inl.queues c = (vget [] s.inl.queues c).erase (lo.toNat + 0x100000000 * hi.toNat)) ∧
  (∀ (s : State) (c : Cove) (lo hi : Word) (x : Fin 4) (k : LoadCtx), s.halted = false → lo.toNat + 0x100000000 * hi.toNat ∉ vget [] s.inl.queues c →
    s.loadCtx x = some k → k.cove = c.val → k.addr = lo.toNat + 0x100000000 * hi.toNat → k.refetch = none →
    ∃ t, exec (.loadCancel c (some lo) hi) s = .next t ∧ t.loadCtx x = some { k with cancelled := true } ∧
    t = { s with inl := { s.inl with ctx := t.inl.ctx } })

/-- R385 to R389: Ferry descriptors. A posted descriptor waits behind those ahead of it; a free engine takes it; a chunk
whose stores have ended raises its destination counter; the last one completes, one with FLAG once the source's earlier
stores have ended; an engine whose descriptor has ended is free; a cancelled descriptor leaves its queue, or stops after
its chunk. -/
def Obligations.FerryDescriptors : Prop :=
  (∀ (s : State) (c : Cove) (lo hi : Word), s.answers = true → (vget [] s.bsn.queues c).length < 64 →
    ∃ t w, exec (.ferryPost c (some lo) hi) s = .next t ∧ vget [] t.bsn.queues c = vget [] s.bsn.queues c ++ [w] ∧
      w.addr = lo.toNat + 0x100000000 * hi.toNat ∧ w.id = s.bsn.nextId ∧ (∀ e : Cove, e ≠ c → vget [] t.bsn.queues e = vget [] s.bsn.queues e) ∧
      t = { s with bsn := { s.bsn with queues := t.bsn.queues, nextId := s.bsn.nextId + 1 } }) ∧
  (∀ (s : State) (c : Cove) (lo hi : Word), s.answers = true → 64 ≤ (vget [] s.bsn.queues c).length →
    ∃ t, exec (.ferryPost c (some lo) hi) s = .next t ∧ t.flagBit (bsnOff c 8) 16 = true ∧
      t = { s with flags := t.flags, hif := t.hif, ctrs := t.ctrs, out := t.out }) ∧
  (∀ (s u : State) (e : Fin 48) (c : Nat) (w : FerryWait) (d : List Byte), s.halted = false → s.mayWork (0xA0 + e) = true → s.ferry e = none →
    s.bsn.direct = [] → ((List.range 8).map fun i => (s.bsn.lastCove + 1 + i) % 8).find? (fun c => (s.ferryStartable c).isSome) = some c →
    s.ferryStartable c = some w →
    u = ({ s with bsn := { s.bsn with queues := vmod s.bsn.queues c fun q => q.erase w, lastCove := c } } : State).touch c unitFerry 0 w.addr 128 →
    u.peek c w.addr 128 = .ok d →
    ∃ t r, exec (.ferryStart e) s = .next t ∧ t.ferry e = some r ∧ r.job = { readFerry c w.addr w.id d with named := w.named } ∧ (∀ k : Fin 48, k ≠ e → t.ferry k = s.ferry k)) ∧
  (∀ (s : State) (e : Fin 48) (r : FerryRun), s.halted = false → s.ferry e = some r → r.job.op = 0x41 → r.completed = false → r.loading = false →
    r.issued = true → r.outs = 0 → r.stop = false → r.chunk + 1 = r.job.chunks → bit r.job.dstCtr 16 = true → r.dest = none →
    ∃ t q, exec (.chunkIncrement e) s = .next t ∧ t.ferry e = some q ∧ q.chunk = r.chunk + 1 ∧ q.done = r.done + 1 ∧ q.job = r.job ∧
      t.arr (r.job.dstCtr % 65536) = s.arr (r.job.dstCtr % 65536) + 1 ∧
      (∀ i, i ≠ r.job.dstCtr % 65536 → t.arr i = s.arr i) ∧ (∀ k : Fin 48, k ≠ e → t.ferry k = s.ferry k) ∧ t.mem = s.mem) ∧
  (∀ (s : State) (e : Fin 48) (r : FerryRun), s.halted = false → s.ferry e = some r → r.job.op = 0x41 → r.completed = false →
    r.outs = 0 → r.incs = 0 → r.waiting = none → r.stop = false → r.job.chunks ≤ r.chunk → r.noCompletion = false → bit r.job.dstCtr 16 = true →
    r.dest = none → (r.job.flag = false ∨ s.flagWaits r.job.cove = ([], .done)) →
    ∃ t q, exec (.completionIncrement e) s = .next t ∧ t.ferry e = some q ∧ q = { r with completed := true } ∧
      t.arr (r.job.dstCtr % 65536) = s.arr (r.job.dstCtr % 65536) + 1 ∧
      (∀ i, i ≠ r.job.dstCtr % 65536 → t.arr i = s.arr i) ∧ (∀ k : Fin 48, k ≠ e → t.ferry k = s.ferry k) ∧ t.mem = s.mem) ∧
  (∀ (s : State) (e : Fin 48) (r : FerryRun), s.halted = false → s.ferry e = some r → r.job.op = 0x41 → r.completed = false →
    r.outs = 0 → r.incs = 0 → r.waiting = none → r.stop = false → r.job.chunks ≤ r.chunk → r.noCompletion = false → bit r.job.dstCtr 16 = true →
    r.dest = none → r.job.flag = true → s.flagWaits r.job.cove ≠ ([], .done) →
    ∃ t, exec (.completionIncrement e) s = .next t ∧ t.ferry e = some { r with completed := true, outs := 1 } ∧ t.arrival = s.arrival ∧
      t.bsn.flagHeld.length = s.bsn.flagHeld.length + 1 ∧ t = { s with bsn := t.bsn }) ∧
  (∀ (s u : State) (e : Fin 48) (r : FerryRun), s.halted = false → s.ferry e = some r → r.completed = true → r.outs = 0 → r.incs = 0 →
    u = (if r.job.named = true then { s with bsn := { s.bsn with engines := vmod s.bsn.engines e fun _ => none } }
         else ({ s with bsn := { s.bsn with engines := vmod s.bsn.engines e fun _ => none } } : State).addShare r.job.cove poolFerry r.sharer 1) →
    ∃ t, exec (.ferryEnd e) s = .next t ∧ t.ferry e = none ∧ (∀ k : Fin 48, k ≠ e → t.ferry k = s.ferry k) ∧
      (∀ a, r.job.desc = some a → t = (u.ferryWriteEnd r.job.cove a r.done r.job.doneCtr r.status).ferryEnded r.job.cove r.job.id r.status)) ∧
  (∀ (s : State) (c : Cove) (lo hi : Word) (e : Fin 48) (r : FerryRun), s.halted = false →
    (∀ w ∈ vget [] s.bsn.queues c, w.addr ≠ lo.toNat + 0x100000000 * hi.toNat) → s.ferry e = some r → r.job.cove = c.val →
    r.job.desc = some (lo.toNat + 0x100000000 * hi.toNat) → r.job.op = 0x41 → r.completed = false →
    ∃ t, exec (.ferryCancel c (some lo) hi) s = .next t ∧ t.ferry e = some { r with cancelled := true, status := mergeBasin r.status .cancelled } ∧
      t = { s with bsn := { s.bsn with engines := t.bsn.engines } }) ∧
  (∀ (s u : State) (c : Cove) (lo hi : Word) (w : FerryWait) (d : List Byte), s.halted = false →
    (vget [] s.bsn.queues c).find? (fun w => w.addr = lo.toNat + 0x100000000 * hi.toNat) = some w →
    u = { s with bsn := { s.bsn with queues := vmod s.bsn.queues c fun q => q.erase w } } → u.peek c w.addr 128 = .ok d →
    ∃ t, exec (.ferryCancel c (some lo) hi) s = .next t ∧ (vget [] t.bsn.queues c).length + 1 = (vget [] s.bsn.queues c).length ∧
      t = (u.ferryWriteEnd c w.addr 0 (fld d 0x10 4) .cancelled).ferryEnded c w.id .cancelled)

/-- R376 to R383, R430 to R432, Table 10.2: requests on their way out and in, and their responses. -/
def Obligations.TransactionsOfTheBasin : Prop :=
  (∀ (s : State) (t0 : TxReq) (rest : List TxReq) (tag : Nat), s.answers = true → s.bsn.flagHeld = [] → s.bsn.txWait = t0 :: rest →
    s.acceptHow t0 = .send tag →
    ∃ t o, exec .transactionAccept s = .next t ∧ t.bsn.txWait = rest ∧ SMap.get none t.bsn.credits tag = some o ∧ o.node = t0.req.dstNode ∧
      o.cove = t0.req.srcCove ∧ o.owner = t0.owner ∧ o.timedOut = false ∧ o.start = s.now ∧
      o.ssn = SMap.get 0 s.bsn.ssnOut (pairKey t0.req.srcCove t0.req.dstNode) ∧
      SMap.get 0 t.bsn.ssnOut (pairKey t0.req.srcCove t0.req.dstNode) = (o.ssn + 1) % 0x100000000 ∧
      (t0.req.dstNode = s.ownNode → ∃ q : BasinReq, t.bsn.inReq = s.bsn.inReq ++ [(q, 0)] ∧ q.tag = tag ∧ q.ssn = o.ssn ∧ q.data = t0.req.data)) ∧
  (∀ (s : State) (t0 : TxReq) (rest : List TxReq), s.answers = true → s.bsn.flagHeld = [] → s.bsn.txWait = t0 :: rest → t0.owner = .none →
    (s.node t0.req.dstNode).lost = true → s.nodeListed t0.req.dstNode = true → poisonOk t0.req = true →
    exec .transactionAccept s = .next { s with bsn := { s.bsn with txWait := rest } }) ∧
  (∀ (s : State) (r : BasinReq) (die : Nat) (rest : List (BasinReq × Nat)) (p : SeqIn), s.answers = true → s.bsn.inReq = (r, die) :: rest →
    s.pairIn (pairKey r.srcCove r.srcNode) = p → (s.node r.srcNode).lost = false → p.known = true → p.restored = false → p.inc = r.inc →
    r.ssn ≠ p.next → aheadOf r.ssn p.next = true →
    ∃ t, exec .basinRequestArrive s = .next t ∧ t.bsn.inReq = rest ∧
      t.pairIn (pairKey r.srcCove r.srcNode) =
        (if p.held.any fun h => h.1.ssn = r.ssn then p else { p with held := p.held ++ [(r, s.now, die)] }) ∧
      t = { s with bsn := { s.bsn with inReq := rest, seqIn := t.bsn.seqIn } }) ∧
  (∀ (s : State) (r : BasinReq) (die : Nat) (rest : List (BasinReq × Nat)) (p : SeqIn), s.answers = true → s.bsn.inReq = (r, die) :: rest →
    s.pairIn (pairKey r.srcCove r.srcNode) = p → (s.node r.srcNode).lost = false → p.known = true → p.restored = false → p.inc = r.inc →
    r.ssn = p.next → p.held = [] →
    ∃ t, exec .basinRequestArrive s = .next t ∧
      t.pairIn (pairKey r.srcCove r.srcNode) = { p with next := (p.next + r.gcnt) % 0x100000000 } ∧
      (∀ k, k ≠ pairKey r.srcCove r.srcNode → t.pairIn k = s.pairIn k)) ∧
  (∀ (s : State) (n : Node) (c : Cove) (g : DieGroup), s.answers = true → s.bsn.applyQ = [g] → (∃ x ∈ g.reqs, x.2.srcNode = n.toNat ∧
    x.2.srcCove = c.val) →
    s.earlierWaits g = false →
    (∀ x, g.reqs.head? = some x → x.2.opc = 1 → g.win.kind = 1 → s.poisonPage g.win.cove (g.win.baseVa + x.2.offset) x.2.len = none) →
    ∃ t, exec (.basinRequestApply n c) s = .next t ∧ t.bsn.applyQ = []) ∧
  (∀ (s : State) (n : Node) (c : Cove) (g : DieGroup) (m : Nat) (r : BasinReq), s.answers = true → s.memoryGone = false → s.bsn.applyQ = [g] →
    g.reqs = [(m, r)] → r.srcNode = n.toNat → r.srcCove = c.val → r.opc = 4 → s.earlierWaits g = false →
    ∃ t, exec (.basinRequestApply n c) s = .next t ∧ t.bsn.applyQ = [] ∧ t.arr r.ctr = s.arr r.ctr + 1 ∧ (∀ i, i ≠ r.ctr → t.arr i = s.arr i) ∧
      t.mem = s.mem) ∧
  (∀ (s : State) (r : BasinResp) (rest : List BasinResp) (o : Outst), s.answers = true → s.bsn.inResp = r :: rest → (s.node r.srcNode).lost = false →
    SMap.get [] s.bsn.groups r.tag = [] → SMap.get none s.bsn.credits r.tag = some o → o.node = r.srcNode → o.timedOut = false → o.ssn = r.ssn →
    o.owner = .none →
    ∃ t, exec .responseArrive s = .next t ∧ t.bsn.inResp = rest ∧ SMap.get none t.bsn.credits r.tag = none ∧
      (∀ k, k ≠ r.tag → SMap.get none t.bsn.credits k = SMap.get none s.bsn.credits k) ∧ t = { s with bsn := t.bsn }) ∧
  (∀ (s : State) (tag : Fin 16384) (o : Outst), s.answers = true → SMap.get none s.bsn.credits tag = some o → o.timedOut = false → o.owner = .none →
    o.start + 100 * bits (s.reg (blkBSN + 4)).toNat 0 16 ≤ s.now → (s.node o.node).lost = false →
    ∃ t q, exec (.transactionTimeout tag) s = .next t ∧ SMap.get none t.bsn.credits tag = some q ∧ q.timedOut = true ∧ q.node = o.node ∧
      q.ssn0 = o.ssn ∧ q.start = s.now ∧ q.ssn = SMap.get 0 s.bsn.ssnOut (pairKey o.cove o.node) ∧ t.mem = s.mem) ∧
  (∀ (s : State) (tag : Fin 16384), SMap.get none s.bsn.credits tag = none → exec (.transactionTimeout tag) s = .next s) ∧
  (∀ (s : State) (d : Fin 2) (eg : Fin 38) (g : DieGroup) (rest : List DieGroup), s.answers = true → eg.val = 36 + d.val →
    vget [] s.bsn.dieQ d = g :: rest →
    ∃ t, exec (.sluiceGroupSend eg) s = .next t ∧ vget [] t.bsn.dieQ d = rest ∧ t.bsn.applyQ = s.bsn.applyQ ++ [g] ∧
      t = { s with bsn := { s.bsn with dieQ := t.bsn.dieQ, applyQ := t.bsn.applyQ } }) ∧
  (∀ (s : State) (n : Node) (c : Cove) (h : BasinReq × Nat × Nat), s.answers = true → (s.pairIn (pairKey c n.toNat)).held = [h] →
    h.2.1 + 100 * bits (s.reg (blkLNK + 0x10)).toNat 16 16 ≤ s.now →
    ∃ t, exec (.gapSkip n c) s = .next t ∧ (t.pairIn (pairKey c n.toNat)).held = [] ∧
      (t.pairIn (pairKey c n.toNat)).next = (h.1.ssn + h.1.gcnt) % 0x100000000) ∧
  (∀ (s : State) (n : Node) (c : Cove), (s.pairIn (pairKey c n.toNat)).held = [] → exec (.gapSkip n c) s = .next s)

/-- R417 to R422: frames that arrive on a connection. The frame expected, whole and with a good tag, is accepted and raises
the LSN expected by one; a frame that cannot be corrected is answered with a NAK and changes no connection; a duplicate
is acknowledged again. A RESYNC_REQ closes the receive side it names; a RESYNC_ACK resolves the failed connection. -/
def Obligations.FramesOfAConnection : Prop :=
  (∀ (s : State) (p : Port) (n : Node) (f : LinkFrame) (r : BasinReq) (x : Nat) (k : Nat), s.answers = true → k = s.connKey p n.toNat →
    (s.port p).state = .up →
    (s.conn k).rxOpen = true → f.packet = .request r → r.dstNode = s.ownNode → f.lsn = (s.conn k).expect % 0x1000000 →
    s.holdFull (s.linkDie p) r = false → (s.node r.srcNode).seen = true → newerInc r.inc (s.node r.srcNode).inc = false →
    ∃ t, exec (.dataFrameReceive p n f .good x) s = .next t ∧ (t.conn k).expect = (s.conn k).expect + 1 ∧
      t.bsn = { s.bsn with inReq := s.bsn.inReq ++ [(r, s.linkDie p)] } ∧ (t.port p).state = .up ∧ t.mem = s.mem) ∧
  (∀ (s : State) (p : Port) (n : Node) (f : LinkFrame) (r : BasinReq) (x : Nat) (k : Nat), s.answers = true → k = s.connKey p n.toNat →
    (s.port p).state = .up → f.packet = .request r → ∀ h o, (h, o) ∈ [(FrameHealth.uncorrectable, 0x28), (FrameHealth.badTag, 0x38)] →
    ∃ t, exec (.dataFrameReceive p n f h x) s = .next t ∧ t.out = s.out ++ [.frame p 3 [(s.conn k).expect % 0x1000000]] ∧
      t.ctr (portOff p o) = s.ctr (portOff p o) + 1 ∧ t.conn k = { s.conn k with ctlTx := (s.conn k).ctlTx + 1 } ∧
      (∀ j, j ≠ k → t.conn j = s.conn j) ∧
      t.lnk.wire = s.lnk.wire ++ [(p.val, s.onWire p k 0 (Packet.resyncReq s.ownNode (k % 65536) 0).hash
        (s.controlFrame k 3 [(s.conn k).expect % 0x1000000]))] ∧
      t = { s with out := t.out, ctrs := t.ctrs, arbs := t.arbs, lnk := { s.lnk with conns := t.lnk.conns, wire := t.lnk.wire } }) ∧
  (∀ (s : State) (p : Port) (n : Node) (f : LinkFrame) (r : BasinReq) (x : Nat) (k : Nat), s.answers = true → k = s.connKey p n.toNat →
    (s.port p).state = .up →
    (s.conn k).rxOpen = true → f.packet = .request r → f.lsn ≠ (s.conn k).expect % 0x1000000 →
    0x800000 ≤ (f.lsn + 0x1000000 - (s.conn k).expect % 0x1000000) % 0x1000000 →
    ∃ t, exec (.dataFrameReceive p n f .good x) s = .next t ∧ (t.conn k).expect = (s.conn k).expect ∧ (t.conn k).ackDue ≠ none ∧ t.bsn = s.bsn) ∧
  (∀ (s : State) (p : Port) (n : Node) (f : LinkFrame) (src port k k2 : Nat), s.answers = true → k = s.connKey p n.toNat → (s.port p).state = .up →
    (s.conn k).rxOpen = true → f.packet = .resyncReq src s.ownNode port → f.lsn = (s.conn k).expect % 0x1000000 →
    (s.node src).seen = true → newerInc f.inc (s.node src).inc = false → (s.conn k2).peer = src → (s.conn k2).peerPort = port →
    (k2, s.conn k2) ∈ s.lnk.conns → (∀ y ∈ s.lnk.conns, y.2.peer = src → y.2.peerPort = port → y.1 = k2) →
    ((s.conn k).peer = src → (s.conn k).peerPort = port → k = k2) →
    ∃ t, exec (.resyncReq p n f .good) s = .next t ∧ (t.conn k2).rxOpen = false ∧ t.bsn = s.bsn) ∧
  (∀ (s : State) (p : Port) (n : Node) (f : LinkFrame) (src port lsn k : Nat), s.answers = true → k = s.connKey p n.toNat → (s.port p).state = .up →
    (s.conn k).rxOpen = true → f.packet = .resyncAck src s.ownNode port lsn → f.lsn = (s.conn k).expect % 0x1000000 →
    (s.node src).seen = true → newerInc f.inc (s.node src).inc = false → newerInc (s.node src).inc f.inc = false →
    (s.conn (65536 * port + src)).resync ≠ none →
    ∃ t, exec (.resyncAck p n f .good) s = .next t ∧ (t.conn (65536 * port + src)).isOpen = false ∧
      (t.conn (65536 * port + src)).held = [] ∧ (t.conn (65536 * port + src)).resync = none)

/-- R418 to R421, R427, R520: NAK, ACK, CREDIT and KEEPALIVE frames, and the replay of held frames, sent again as they
were first sent. A control frame is taken where its counter is above that of the last one taken, and discarded
otherwise. The bytes a control frame has on the wire are those its key and counter give. -/
def Obligations.ControlFramesOfAConnection : Prop :=
  (∀ (s : State) (p : Port) (n : Node) (l a : BitVec 24) (c : DWord) (k : Nat), s.answers = true → k = s.connKey p n.toNat →
    (s.port p).state = .up → (s.conn k).rxOpen = true → (s.conn k).aboveLast c.toNat = true → (s.conn k).held = [] →
    ∃ t, exec (.nakReceive p n l a ⟨c, true⟩) s = .next t ∧ (t.conn k).replays = (s.conn k).replays + 1 ∧ (t.conn k).lastRx = s.now ∧
      (t.conn k).ctlRx = some c.toNat ∧ t.ctr (portOff p 0x30) = s.ctr (portOff p 0x30) + 1 ∧ (∀ j, j ≠ k → t.conn j = s.conn j) ∧
      t = { s with lnk := { s.lnk with conns := t.lnk.conns }, ctrs := t.ctrs }) ∧
  (∀ (s : State) (p : Port) (n : Node) (l a : BitVec 24) (c : DWord) (k : Nat) (h : HeldFrame), s.answers = true → k = s.connKey p n.toNat →
    (s.port p).state = .up → (s.conn k).rxOpen = true → (s.conn k).aboveLast c.toNat = true → (s.conn k).held = [h] →
    0x800000 ≤ (a.toNat + 0x1000000 - h.lsn % 0x1000000) % 0x1000000 → (h.lsn % 0x1000000 + 0x1000000 - l.toNat) % 0x1000000 < 0x800000 →
    ∃ t, exec (.nakReceive p n l a ⟨c, true⟩) s = .next t ∧ (t.conn k).held = [{ h with sent := s.now }] ∧
      (t.conn k).replays = (s.conn k).replays + 1 ∧ t.lnk.wire = s.lnk.wire ++ [(p.val, h.wire)] ∧
      t.out = s.out ++ [.frame p h.frame.packet.type ([h.lsn % 0x1000000, h.frame.vl, h.frame.sub, h.frame.hops] ++ h.frame.packet.fields)] ∧
      t.ctr (portOff p 0x30) = s.ctr (portOff p 0x30) + 1 ∧
      t = { s with lnk := { s.lnk with conns := t.lnk.conns, wire := t.lnk.wire }, ctrs := t.ctrs, out := t.out, arbs := t.arbs }) ∧
  (∀ (s : State) (p : Port) (n : Node) (l a : BitVec 24) (c : DWord) (freed : List Nat), (s.conn (s.connKey p n.toNat)).aboveLast c.toNat = false →
    exec (.nakReceive p n l a ⟨c, true⟩) s = .next s ∧ exec (.credit p n freed a ⟨c, true⟩) s = .next s ∧
      exec (.drainNotice p n a ⟨c, true⟩) s = .next s) ∧
  (∀ (s : State) (p : Port) (n : Node) (k d : Nat), s.answers = true → k = s.connKey p n.toNat → (s.port p).state = .up → (s.conn k).ackDue = some d →
    ∃ t, exec (.ackSendTimer p n) s = .next t ∧ (t.conn k).ackDue = none ∧ (t.conn k).lastTx = s.now ∧
      t.out = s.out ++ [.frame p 2 [((s.conn k).expect + 0x1000000 - 1) % 0x1000000]] ∧ (∀ j, j ≠ k → t.conn j = s.conn j) ∧
      t = { s with lnk := { s.lnk with conns := t.lnk.conns, wire := t.lnk.wire }, ctrs := t.ctrs, out := t.out, arbs := t.arbs }) ∧
  (∀ (s : State) (p : Port) (n : Node) (k : Nat) (h : HeldFrame), s.answers = true → k = s.connKey p n.toNat → (s.port p).state = .up →
    (s.conn k).isOpen = true →
    (s.conn k).held = [h] → h.sent + s.replayTime p ≤ s.now →
    ∃ t, exec (.replayTimer p n) s = .next t ∧ (t.conn k).replays = (s.conn k).replays + 1 ∧ (t.conn k).held = [{ h with sent := s.now }] ∧
      t.ctr (portOff p 0x30) = s.ctr (portOff p 0x30) + 1 ∧ t.lnk.wire = s.lnk.wire ++ [(p.val, h.wire)] ∧
      (∀ j, j ≠ k → t.conn j = s.conn j) ∧
      t = { s with lnk := { s.lnk with conns := t.lnk.conns, wire := t.lnk.wire }, ctrs := t.ctrs, out := t.out, arbs := t.arbs }) ∧
  (∀ (s : State) (p : Port) (n : Node), (s.conn (s.connKey p n.toNat)).held = [] → exec (.replayTimer p n) s = .next s) ∧
  (∀ (s : State) (p : Port) (n : Node) (freed : List Nat) (a : BitVec 24) (c : DWord) (k : Nat), s.answers = true → k = s.connKey p n.toNat →
    s.portMode p = 1 → (s.port p).state = .up → (s.conn k).rxOpen = true → (s.conn k).aboveLast c.toNat = true →
    ∃ t, exec (.credit p n freed a ⟨c, true⟩) s = .next t ∧ (t.conn k).ctlRx = some c.toNat ∧ (t.conn k).freedIn = freed.map (· % 0x100000000) ∧ (t.conn k).lastRx = s.now ∧
      (∀ j, j ≠ k → t.conn j = s.conn j) ∧ t = { s with lnk := { s.lnk with conns := t.lnk.conns } }) ∧
  (∀ (s : State) (p : Port) (n : Node) (k : Nat), s.answers = true → k = s.connKey p n.toNat → s.portMode p = 1 → (s.port p).state = .up →
    (s.conn k).isOpen = true →
    (s.conn k).freedOut ≠ (s.conn k).reported →
    ∃ t, exec (.creditSendTimer p n) s = .next t ∧ (t.conn k).reported = (s.conn k).freedOut ∧ t.out = s.out ++ [.frame p 4 (s.conn k).freedOut] ∧
      (∀ j, j ≠ k → t.conn j = s.conn j) ∧
      t = { s with lnk := { s.lnk with conns := t.lnk.conns, wire := t.lnk.wire }, ctrs := t.ctrs, out := t.out, arbs := t.arbs }) ∧
  (∀ (s : State) (p : Port) (n : Node) (k : Nat), s.answers = true → k = s.connKey p n.toNat → (s.port p).state = .up → (s.conn k).isOpen = true →
    (s.conn k).lastTx + 10000 ≤ s.now →
    ∃ t, exec (.keepalive p n) s = .next t ∧ (t.conn k).lastTx = s.now ∧ t.out = s.out ++ [.frame p 9 []] ∧
      (t.conn k).ctlTx = (s.conn k).ctlTx + 1 ∧ (∀ j, j ≠ k → t.conn j = s.conn j) ∧
      t.lnk.wire = s.lnk.wire ++ [(p.val, s.onWire p k 0 (Packet.resyncReq s.ownNode (k % 65536) 0).hash (s.controlFrame k 9 []))] ∧
      t = { s with lnk := { s.lnk with conns := t.lnk.conns, wire := t.lnk.wire }, ctrs := t.ctrs, out := t.out, arbs := t.arbs })

/-- R418, R422, R441, R447, R518, R519, R522, R543, R429: connections that fail, open, drain and take fresh keys. A failed
ETH connection closes; a failed NATIVE connection takes its port from UP to RETRAIN (Table 11.8). -/
def Obligations.LivesOfConnections : Prop :=
  (∀ (s : State) (p : Port) (n : Node) (k : Nat), s.answers = true → k = s.connKey p n.toNat → s.connFailed k = true → s.portMode p ≠ 1 →
    (s.port p).state ≠ .retrain →
    (∃ t, exec (.connectionFail p n) s = .next t ∧ (t.conn k).isOpen = false ∧ (t.conn k).rxOpen = false ∧ (t.conn k).failed = true)) ∧
  (∀ (s : State) (p : Port) (n : Node), s.answers = true → s.connFailed (s.connKey p n.toNat) = true → s.portMode p = 1 →
    (s.port p).state = .up → (s.port p).retrains.length + 1 ≤ (s.reg (blkLNK + 0x18)).toNat % 256 →
    ∃ t, exec (.connectionFail p n) s = .next t ∧ (t.port p).state = .retrain ∧ (t.port p).since = s.now ∧
      t.ctr (portOff p 0x40) = s.ctr (portOff p 0x40) + 1) ∧
  (∀ (s : State) (p : Port) (n : Node) (k d : Nat), s.answers = true → k = s.connKey p n.toNat → (s.conn k).resync = some d →
    d + 100 * bits (s.reg (blkLNK + 0x10)).toNat 8 8 ≤ s.now →
    ∃ t, exec (.resyncTimeout p n) s = .next t ∧ (t.conn k).isOpen = false ∧ (t.conn k).resync = none ∧ (t.conn k).held = []) ∧
  (∀ (s : State) (p : Port) (n : Node) (k : Nat), s.answers = true → k = s.connKey p n.toNat → s.portMode p = 2 → (s.conn k).isOpen = true →
    (s.port p).state ≠ .retrain →
    (s.conn k).lastRx + 100000 ≤ s.now →
    ∃ t, exec (.ethConnectionSilence p n) s = .next t ∧ (t.conn k).isOpen = false ∧ (t.conn k).failed = true) ∧
  (∀ (s : State) (p : Port) (n : Node) (k : Nat), s.answers = true → k = s.connKey p n.toNat → (s.conn k).isOpen = true → (s.conn k).failed = false →
    (s.conn k).worn s.now = true →
    ((s.conn k).held ≠ [] → ∃ t, exec (.linkRekey p n) s = .next t ∧ (t.conn k) = { s.conn k with rekeying := true } ∧
      (∀ j, j ≠ k → t.conn j = s.conn j) ∧ t = { s with lnk := { s.lnk with conns := t.lnk.conns } }) ∧
    ((s.conn k).held = [] → ∃ t, exec (.linkRekey p n) s = .next t ∧
      (t.conn k) = { s.conn k with rekeying := true, nOwn := (Config.draw s.draws) % 2 ^ 64 } ∧
      t.out = s.out ++ [.frame p 5 ((Config.draw s.draws) % 2 ^ 64 :: s.identFields p)] ∧ (∀ j, j ≠ k → t.conn j = s.conn j) ∧
      
      t = { s with draws := s.draws + 1, ctrs := t.ctrs, out := t.out, arbs := t.arbs, lnk := t.lnk } ∧
      t.lnk = { s.lnk with conns := t.lnk.conns, wire := t.lnk.wire, identCtr := s.lnk.identCtr + 1 })) ∧
  (∀ (s : State) (p : Port) (n : Node), (s.conn (s.connKey p n.toNat)).worn s.now = false → exec (.linkRekey p n) s = .next s) ∧
  (∀ (s : State) (p : Port) (i : IdentFrame) (b : Bool) (k : Nat), s.answers = true → k = s.connKey p i.node → (s.port p).state = .up →
    i.authentic = true → s.keyReady i.node = true → s.portMode p = 2 → (s.node i.node).seen = true → newerInc i.inc (s.node i.node).inc = false →
    (s.conn k).rekeying = true → (s.conn k).held = [] →
    ∃ t, exec (.ident p i b) s = .next t ∧ (t.conn k).nextLsn = 0 ∧ (t.conn k).expect = 0 ∧ (t.conn k).rekeying = false ∧
      (t.conn k).opened = s.now ∧ ((t.conn k).keyTx, (t.conn k).keyRx) = s.linkKeys i.node p i.port (s.conn k).nOwn i.nonce ∧
      (t.conn k).consumed = (s.conn k).consumed ∧ (∀ j, j ≠ k → t.conn j = s.conn j)) ∧
  (∀ (s : State) (p : Port) (i : IdentFrame), s.answers = true → (s.port p).state = .training → i.authentic = true → s.keyReady i.node = true →
    s.portMode p = 1 →
    i.node = (s.portEntry p).peerNode → i.port = (s.portEntry p).peerPort → (s.node i.node).seen = true → newerInc i.inc (s.node i.node).inc = false →
    (s.conn (s.connKey p i.node)).rekeying = false →
    ∃ t, exec (.ident p i true) s = .next t ∧ (t.port p).state = .up ∧ (t.port p).trainFails = 0 ∧ (t.port p).peerValid = true ∧
      (t.conn (s.connKey p i.node)).isOpen = true ∧ (t.conn (s.connKey p i.node)).expect = 0 ∧ (t.conn (s.connKey p i.node)).init = i.blocks) ∧
  (∀ (s : State) (p : Port) (i : IdentFrame) (b : Bool), (s.port p).state ≠ .training → (s.port p).state ≠ .up → exec (.ident p i b) s = .next s) ∧
  (∀ (s : State) (p : Port) (n : Node) (a : BitVec 24) (c : DWord), s.answers = true → (s.port p).state = .up →
    (s.conn (s.connKey p n.toNat)).rxOpen = true → (s.conn (s.connKey p n.toNat)).aboveLast c.toNat = true →
    ∃ t, exec (.drainNotice p n a ⟨c, true⟩) s = .next t ∧ (t.port p).state = .down ∧ (t.port p).drained = true) ∧
  (∀ (s : State) (p : Port) (vl : Fin 8), s.answers = true → s.portMode p = 2 →
    (∃ t, exec (.pfcReceive p vl true) s = .next t ∧ vl.val ∈ (t.port p).paused ∧ (∀ q : Port, q ≠ p → t.port q = s.port q) ∧
      t = { s with lnk := { s.lnk with ports := t.lnk.ports } }) ∧
    ((s.port p).paused.Nodup → ∃ t, exec (.pfcReceive p vl false) s = .next t ∧ vl.val ∉ (t.port p).paused ∧
      t = { s with lnk := { s.lnk with ports := t.lnk.ports } })) ∧
  (∀ (s : State) (im : Image) (n : Node), s.answers = true → s.image = some im → n.toNat ∈ SMap.keys im.links →
    ∃ t, exec (.linkZComputed n) s = .next t ∧ n.toNat ∈ t.lnk.zReady ∧ t = { s with lnk := { s.lnk with zReady := t.lnk.zReady } })

/-- R440 to R443, Table 11.8: the states of a port. A port that enters TRAINING sends an IDENT; one whose cable's module
draws more than CABLE_POWER fails training at once. -/
def Obligations.StatesOfAPort : Prop :=
  (∀ (s : State) (p : Port), s.answers = true → (s.port p).state = .up →
    ∃ t, exec (.portSignalLoss p) s = .next t ∧ (t.port p).state = .down ∧ (t.port p).signal = false ∧ t.flagBit (blkLNK + 0x24) 0 = true ∧
      (t.port p).since = s.now ∧ (∀ q : Port, q ≠ p → t.port q = s.port q)) ∧
  (∀ (s : State) (p : Port), s.answers = true → (s.port p).state ≠ .up →
    exec (.portSignalLoss p) s = .next (s.modPort p fun x => { x with signal := false })) ∧
  (∀ (s : State) (p : Port), s.answers = true → (s.port p).state = .down → (s.port p).heldDown = false → ¬(s.portMode p = 1 ∧
    (s.portEntry p).cablePower < (s.port p).powerClass) →
    (∃ t, exec (.portSignalDetect p) s = .next t ∧ (t.port p).state = .training ∧ (t.port p).signal = true ∧ (t.port p).since = s.now ∧
      (∃ l, t.out = s.out ++ [.frame p 5 l])) ∧
    ((s.port p).signal = true ∨ (s.port p).since + 100000000 ≤ s.now →
      ∃ t, exec (.portDownRetry p) s = .next t ∧ (t.port p).state = .training ∧ (t.port p).since = s.now ∧
        (∃ l, t.out = s.out ++ [.frame p 5 l]))) ∧
  (∀ (s : State) (p : Port), s.answers = true → (s.port p).state = .down → (s.port p).heldDown = false → s.portMode p = 1 →
    (s.portEntry p).cablePower < (s.port p).powerClass → (s.port p).signal = false → (s.port p).since + 100000000 ≤ s.now →
    ∃ t, exec (.portDownRetry p) s = .next t ∧ (t.port p).state = .down ∧ t.flagBit (blkLNK + 0x24) 4 = true) ∧
  (∀ (s : State) (p : Port), s.answers = true → (s.port p).signal = false → s.now < (s.port p).since + 100000000 →
    exec (.portDownRetry p) s = .next s) ∧
  (∀ (s : State) (p : Port), s.answers = true → (s.port p).state = .up → ((s.port p).retrains.length + 1 ≤ (s.reg (blkLNK + 0x18)).toNat % 256) →
    ∃ t, exec (.portRetrainEntry p) s = .next t ∧ (t.port p).state = .retrain ∧ t.ctr (portOff p 0x40) = s.ctr (portOff p 0x40) + 1 ∧
      (t.port p).since = s.now ∧ (∀ q : Port, q ≠ p → t.port q = s.port q)) ∧
  (∀ (s : State) (p : Port), s.answers = true → (s.port p).state = .training → (s.port p).since + 50000000 ≤ s.now → (s.port p).signal = false →
    ∃ t, exec (.portTrainingTimeout p) s = .next t ∧ (t.port p).state = .down ∧ (∀ q : Port, q ≠ p → t.port q = s.port q)) ∧
  (∀ (s : State) (p : Port), s.answers = true → (s.port p).state = .retrain → (s.port p).since + 3000000 ≤ s.now →
    (∃ t, exec (.portRetrainTimeout p) s = .next t ∧ (t.port p).state = .down ∧ (t.port p).leftRetrain = s.now) ∧
    exec (.portRetrainDone p) s = .next s) ∧
  (∀ (s : State) (p : Port), s.answers = true → (s.port p).state = .retrain → s.now < (s.port p).since + 3000000 →
    (∃ t, exec (.portRetrainDone p) s = .next t ∧ (t.port p).state = .up ∧ (t.port p).leftRetrain = s.now) ∧
    exec (.portRetrainTimeout p) s = .next s) ∧
  (∀ (s : State) (p : Port) (te pc st : Byte), s.answers = true → s.portMode p = 1 →
    exec (.moduleFlagPoll p false false false te pc st) s =
      .next (s.modPort p fun x => { x with temp := te.toNat, powerClass := pc.toNat, moduleState := st.toNat })) ∧
  (∀ (s : State) (p : Port) (te pc st : Byte) (a b : Bool), s.answers = true → s.portMode p = 1 → (s.port p).state = .up →
    ∃ t, exec (.moduleFlagPoll p a b true te pc st) s = .next t ∧ (t.port p).state = .down ∧ (t.port p).temp = te.toNat) ∧
  (∀ (s : State) (w : Word) (p : Port), s.answers = true → w.getLsbD 31 = true → w.toNat % 64 = p.val → (s.port p).state ≠ .off → (s.port p).state ≠ .out →
    ∃ t, exec (.portReq w) s = .next t ∧ (t.port p).state = .out ∧ p.val ∈ t.lnk.portRecord ∧ t.flagBit (blkLNK + 0x24) 2 = true) ∧
  (∀ (s : State) (w : Word), s.answers = true → w.getLsbD 31 = true →
    (36 ≤ w.toNat % 64 ∨ (s.port (w.toNat % 64)).state = .off ∨ (s.port (w.toNat % 64)).state = .out) →
    ∃ t, exec (.portReq w) s = .next t ∧ t.flagBit (blkLNK + 0x24) 5 = true ∧ t = { s with flags := t.flags, hif := t.hif, ctrs := t.ctrs, out := t.out })

/-- R453 to R462, R478: a sample adds the raw energy of its events and of its static energy to the window; every 1 ms the
whole microjoules of slot 8 and of the HOUSE_ONLY pools move to the house account and POWER takes the energy of the
millisecond; a first telemetry word makes the calibration live; a malformed one is rejected; 10 ms without one make it
stale. -/
def Obligations.SamplesAndCalibration : Prop :=
  (∀ (s : State) (ev : List SampleEvent) (st : Nat), s.now % 200 = 0 → s.gau.lastLatch ≠ some s.now → s.answers = true → s.gau.kNext = none →
    ∃ t, exec (.gaugeSampleLatch ev st) s = .next t ∧ t.gau.lastLatch = some s.now ∧
      t.gau.winRaw = s.gau.winRaw + ((s.rawSample ev st).map Prod.snd).sum ∧ t.gau.total = s.gau.total ∧ t.gau.k = s.gau.k ∧
      t.gau.sampleRaw = ((s.rawSample ev st).map Prod.snd).sum ∧ t.mem = s.mem ∧ t.streams = s.streams) ∧
  (∀ (s : State) (ev : List SampleEvent) (st : Nat), (s.now % 200 ≠ 0 ∨ s.gau.lastLatch = some s.now ∨ s.pstate = 4) →
    exec (.gaugeSampleLatch ev st) s = .next s) ∧
  (∀ (s : State), s.answers = true → s.now % 100000 = 0 →
    ∃ t, exec .houseMoveTick s = .next t ∧ t.gau.total + s.gau.housePkg = s.gau.total + t.gau.housePkg ∧
      (∀ x ∈ t.gau.acc, (x.1 / 11 = 8 ∨ x.1 % 11 = poolHouse) → x.2 < guPerUj) ∧
      t = { s with gau := { s.gau with acc := t.gau.acc, total := t.gau.total, housePkg := t.gau.housePkg } }) ∧
  (∀ (s : State), s.answers = true → s.now % 100000 = 0 → s.gau.lastCoarse ≠ some s.now →
    ∃ t, exec .coarsePowerUpdate s = .next t ∧ t.gau.power = s.gau.ms.sum / (1000 * guPerUj) / 8 * 8 ∧ t.gau.power % 8 = 0 ∧
      t.gau.ms = List.replicate 9 0 ∧ t.gau.acc = s.gau.acc ∧ t = { s with gau := t.gau }) ∧
  (∀ (s : State) (e : BitVec 40) (q : BitVec 8), s.answers = true → s.gau.calLive = false →
    ∃ t, exec (.ein (leBytes 8 (e.toNat + 0x10000000000 * q.toNat))) s = .next t ∧ t.gau.einMj = e.toNat ∧ t.gau.einSeq = q.toNat ∧
      t.gau.einTick = s.now ∧ t.gau.calLive = true ∧ t.gau.calStale = false ∧ t.gau.winRaw = 0 ∧ t.gau.winCal = 0 ∧ t.gau.k = s.gau.k ∧
      t.out = s.out ++ [.i3c true] ∧ t = { s with gau := t.gau, ctrs := t.ctrs, out := t.out }) ∧
  (∀ (s : State) (bs : List Byte), s.answers = true → bs.length ≠ 8 →
    ∃ t, exec (.ein bs) s = .next t ∧ t.out = s.out ++ [.i3c false] ∧ t.ctr (blkGAU + 0x88) = s.ctr (blkGAU + 0x88) + 1 ∧
      t = { s with ctrs := t.ctrs, out := t.out }) ∧
  (∀ (s : State), s.answers = true → s.gau.einTick + 1000000 ≤ s.now → s.gau.calStale = false →
    ∃ t, exec .calStaleTimer s = .next t ∧ t.gau.calStale = true ∧ (∀ e ∈ s.liveEntries, (t.sx e).calMark = true) ∧ t.streams = s.streams ∧
      t.gau.k = s.gau.k) ∧
  (∀ (s : State), s.now < s.gau.einTick + 1000000 → exec .calStaleTimer s = .next s)

/-- R464, R469: closing a pool moves its whole microjoules to the accounts that share it, no more and no less: what TOTAL_UJ
gains is what the cove's house account, residue account, streams and remote keys gain together, and less than a
microjoule stays behind. -/
def Obligations.ClosingAPoolConservesEnergy : Prop :=
  ∀ (s : State) (c : Cove) (p : Nat) (shares remote : SMap Nat), p < 11 → s.gau.houseCove.length = 8 → s.gau.residue.length = 8 →
    s.gau.coveUj.length = 8 → SMap.wf 0 remote = true →
    let r := s.closePool c p shares remote
    r.1.gau.total + (s.gau.houseCove.sum + s.gau.residue.sum + s.gau.coveUj.sum + (remote.map Prod.snd).sum) =
        s.gau.total + (r.1.gau.houseCove.sum + r.1.gau.residue.sum + r.1.gau.coveUj.sum + (r.2.map Prod.snd).sum) ∧
      r.1.gau.total = s.gau.total + SMap.get 0 s.gau.acc (11 * c.val + p) / guPerUj ∧
      SMap.get 0 r.1.gau.acc (11 * c.val + p) = SMap.get 0 s.gau.acc (11 * c.val + p) % guPerUj ∧ r.1.gau.housePkg = s.gau.housePkg

/-- R470 to R476, Tables 12.4 and 12.9: batches and releases. -/
def Obligations.BatchesAndReleases : Prop :=
  (∀ (s : State) (b : Batch), s.answers = true → s.gau.batchLive = true → b = SMap.get {} s.gau.batches (s.gau.batchNext % 64) →
    b.tOpen + 100000000 ≤ s.now →
    s.gau.batchNext + 1 < s.gau.released + 64 →
    ∃ t, exec .batchClose s = .next t ∧ t.gau.batchNext = s.gau.batchNext + 1 ∧
      (SMap.get {} t.gau.batches (s.gau.batchNext % 64)).closed = true ∧ (SMap.get {} t.gau.batches (s.gau.batchNext % 64)).tClose = s.now ∧
      (SMap.get {} t.gau.batches (s.gau.batchNext % 64)).count = s.gau.nextSeq - b.firstSeq ∧
      (SMap.get {} t.gau.batches (s.gau.batchNext % 64)).total = s.gau.total ∧
      (SMap.get {} t.gau.batches ((s.gau.batchNext + 1) % 64)).seq = s.gau.batchNext + 1 ∧
      (SMap.get {} t.gau.batches ((s.gau.batchNext + 1) % 64)).tOpen = s.now ∧
      (SMap.get {} t.gau.batches ((s.gau.batchNext + 1) % 64)).firstSeq = s.gau.nextSeq ∧
      (SMap.get {} t.gau.batches ((s.gau.batchNext + 1) % 64)).closed = false ∧ t.gau.ring = s.gau.ring ∧ t = { s with gau := t.gau }) ∧
  (∀ (s : State), s.gau.batchLive = false → exec .batchClose s = .next s) ∧
  (∀ (s : State) (b : Batch), s.answers = true → s.oldestBatch .opened = some b → b.seq = 0 →
    ∃ t, exec .batchRooted s = .next t ∧ (SMap.get {} t.gau.batches 0).state = .rooted ∧
      (SMap.get {} t.gau.batches 0).root = hashRoot ((List.range b.count).map fun i =>
        (SMap.get {} s.gau.ring ((b.firstSeq + i) % s.ringSlots)).bytes) ∧
      (SMap.get {} t.gau.batches 0).prevHash = List.replicate 48 0 ∧ t = { s with gau := { s.gau with batches := t.gau.batches } }) ∧
  (∀ (s : State) (b : Batch), s.answers = true → s.oldestBatch .opened = some b → b.seq ≠ 0 →
    ∃ t, exec .batchRooted s = .next t ∧ (SMap.get {} t.gau.batches (b.seq % 64)).state = .rooted ∧
      (SMap.get {} t.gau.batches (b.seq % 64)).prevHash = sha384 ((SMap.get {} s.gau.batches ((b.seq - 1) % 64)).head 0) ∧
      (∀ k, k ≠ b.seq % 64 → SMap.get {} t.gau.batches k = SMap.get {} s.gau.batches k)) ∧
  (∀ (s : State) (b : Batch), s.answers = true → s.oldestBatch .rooted = some b → s.hif.aliasReady = true → b.able = true →
    ∃ t, exec .batchSigned s = .next t ∧ (SMap.get {} t.gau.batches (b.seq % 64)).state = .signed ∧
      (SMap.get {} t.gau.batches (b.seq % 64)).sigRsa = s.aliasSign 0 (b.head 0) ∧
      (SMap.get {} t.gau.batches (b.seq % 64)).sigSlh = s.aliasSign 1 (b.head 0)) ∧
  (∀ (s : State) (b : Batch), s.answers = true → s.oldestBatch .rooted = some b → s.hif.aliasReady = true → b.able = false →
    ∃ t, exec .batchSigned s = .next t ∧ (SMap.get {} t.gau.batches (b.seq % 64)).state = .unsigned ∧ t.flagBit blkGAU 5 = true) ∧
  (∀ (s : State) (b : Batch), s.oldestBatch .rooted = some b → s.hif.aliasReady = false → exec .batchSigned s = .next s) ∧
  (∀ (s : State) (lo hi : Word), s.answers = true → s.gau.waiting = [] →
    ∃ t, exec (.recRelease (some lo) (some hi)) s = .next t ∧ t.gau.recRelease = Nat.min s.gau.nextSeq (lo.toNat + 0x100000000 * hi.toNat) ∧
      t.gau.ring = s.gau.ring ∧ t.gau.nextSeq = s.gau.nextSeq) ∧
  (∀ (s : State) (lo hi : Word), s.answers = true → lo.toNat + 0x100000000 * hi.toNat < s.gau.batchNext →
    ∃ t, exec (.batchRelease (some lo) (some hi)) s = .next t ∧ t.gau.batchRelease = lo.toNat + 0x100000000 * hi.toNat ∧
      t.gau.released = Nat.max s.gau.released (lo.toNat + 0x100000000 * hi.toNat + 1) ∧
      t = { s with gau := { s.gau with batchRelease := t.gau.batchRelease, released := t.gau.released } }) ∧
  (∀ (s : State) (lo hi : Word), s.gau.batchNext ≤ lo.toNat + 0x100000000 * hi.toNat → exec (.batchRelease (some lo) (some hi)) s = .next s)

/-- R486 to R498: a closure of the power loop leaves n at 2 or more and, above 2, at no more than each of its ceilings; a
junction at TJ_LIMIT or above lowers the thermal ceiling; a millisecond boundary lets the droop ceiling rise. -/
def Obligations.ClosuresOfThePowerLoop : Prop :=
  (∀ (s : State) (tj : List (Option Nat)), s.answers = true → s.now % 1000 = 0 → s.weir.lastClosure ≠ some s.now → s.governed = true → s.stopped = false →
    ∃ t, exec (.loopClosure tj) s = .next t ∧ t.weir.lastClosure = some s.now ∧ 2 ≤ t.weir.n ∧
      t.weir.n ≤ Nat.max 2 (Nat.min t.weir.nMax (Nat.min t.weir.nTh t.weir.nDr)) ∧ t.weir.samples = [] ∧ t.weir.credit ≤ s.creditMax ∧
      t = { s with weir := t.weir, ctrs := t.ctrs, flags := t.flags, hif := t.hif, out := t.out }) ∧
  (∀ (s : State) (tj : List (Option Nat)), s.answers = true → s.now % 1000 = 0 → s.weir.lastClosure ≠ some s.now → s.governed = true → s.stopped = false →
    s.tjLimit ≤ s.hottest tj →
    ∃ t, exec (.loopClosure tj) s = .next t ∧ t.weir.nTh ≤ Nat.max 2 (s.weir.nTh - 1) ∧ t.weir.coolMs = false) ∧
  (∀ (s : State) (tj : List (Option Nat)), (s.now % 1000 ≠ 0 ∨ s.governed = false ∨ s.stopped = true) → exec (.loopClosure tj) s = .next s) ∧
  (∀ (s : State), s.answers = true → s.now % 100000 = 0 → s.weir.lastMs ≠ some s.now → s.governed = true → s.stopped = false →
    ∃ t, exec .weirMsTick s = .next t ∧ t.weir.lastMs = some s.now ∧ t.weir.coolMs = true ∧ t.rip.droops = [] ∧
      t.weir.nDr = (if 2 * (s.weir.trips.filter fun x => s.now ≤ x + 100000).length < s.droopRate then Nat.min 16 (s.weir.nDr + 1) else s.weir.nDr) ∧
      t = { s with weir := t.weir, rip := t.rip, ctrs := t.ctrs, flags := t.flags, hif := t.hif, out := t.out })

/-- R490 to R492, R496, R499, R500, R503: caps, droops, trim and the stop. -/
def Obligations.CapsDroopsTrimAndStop : Prop :=
  (∀ (s : State) (cap : BitVec 13) (seq : BitVec 8), s.answers = true → 1800 ≤ cap.toNat → cap.toNat ≤ 4200 →
    ∃ t, exec (.i3cCap (leBytes 8 (cap.toNat + 0x10000 * seq.toNat))) s = .next t ∧ t.weir.capI3c = cap.toNat ∧
      (cap.toNat < s.weir.lim → t.weir.lInt = Nat.max cap.toNat (Nat.min s.weir.lim s.weir.p10) ∧ t.weir.following = some s.now) ∧
      (s.weir.lim ≤ cap.toNat → t.weir.lInt = s.weir.lInt ∧ t.weir.raise = true) ∧
      t.out = s.out ++ [.i3c true] ∧ t = { s with weir := t.weir, out := t.out }) ∧
  (∀ (s : State) (cap : BitVec 13) (seq : BitVec 8), s.answers = true → (cap.toNat < 1800 ∨ 4200 < cap.toNat) →
    ∃ t, exec (.i3cCap (leBytes 8 (cap.toNat + 0x10000 * seq.toNat))) s = .next t ∧ t.weir = s.weir ∧ t.out.getLast? = some (.i3c false) ∧
      t.flagBit (blkWEIR + 4) 5 = true ∧ t = { s with ctrs := t.ctrs, flags := t.flags, hif := t.hif, out := t.out }) ∧
  (∀ (s : State) (l : Fin 8), s.answers = true → ∃ t, exec (.capLvlAccept l) s = .next t ∧ t.weir.lvl = l ∧
    (s.capPreset l < s.fastCap → s.governed = true → s.stopped = false → t.weir.floor = true ∧ t.weir.n = 2) ∧
    (s.fastCap ≤ s.capPreset l → t = { s with weir := { s.weir with lvl := l } })) ∧
  (∀ (s : State) (d : Fin 2) (x : Nat), s.answers = true → ∃ t, exec (.droopTrip d x) s = .next t ∧ t.weir.trips = s.weir.trips ++ [s.now] ∧
    vget false t.weir.stretch d = true ∧
    t.ctr (blkWEIR + 0x58) = s.ctr (blkWEIR + 0x58) + 1 ∧ t = { s with weir := t.weir, rip := { s.rip with droops := t.rip.droops }, ctrs := t.ctrs }) ∧
  (∀ (s : State) (d : Fin 2) (x : Nat), s.answers = true → ∃ t, exec (.droopRecover d x) s = .next t ∧ vget false t.weir.stretch d = false ∧
    t.weir.trips = s.weir.trips ∧
    t = { s with weir := { s.weir with stretch := t.weir.stretch }, rip := { s.rip with droops := t.rip.droops } }) ∧
  (∀ (s : State), s.answers = true → s.stopped = false →
    (∃ t, exec .thermtrip s = .next t ∧ t.stopped = true ∧ t.weir.thermtrip = true ∧ t.weir.stopTick = s.now ∧ t.flagBit (blkWEIR + 4) 4 = true ∧
      t.mem = s.mem ∧ t.hbm = s.hbm ∧ t.regs = s.regs) ∧
    (∃ t, exec .coolantFail s = .next t ∧ t.stopped = true ∧ t.weir.stopTick = s.now ∧ t.flagBit (blkWEIR + 4) 4 = true ∧
      t.mem = s.mem ∧ t.hbm = s.hbm ∧ t.regs = s.regs)) ∧
  (∀ (s : State), s.pstate ≠ 4 → s.stopped = true → exec .coolantFail s = .next s) ∧
  (∀ (s : State) (x y : Int), s.answers = true → s.trimDue = true → s.hif.trimDone = true → s.fuses.slackLo ≤ x → x ≤ s.fuses.slackHi →
    s.fuses.slackLo ≤ y →
    y ≤ s.fuses.slackHi →
    ∃ t, exec (.trimRun [x] [y]) s = .next t ∧ vget 0 t.weir.trim 0 = vget 0 s.weir.trim 0 ∧ vget 0 t.weir.trim 1 = vget 0 s.weir.trim 1 ∧
      t.weir.nMax = 16 ∧ t.weir.trimTime = 0 ∧ t.ctr (blkWEIR + 0x78) = s.ctr (blkWEIR + 0x78) + 1 ∧ t.hif.trimDone = true ∧
      t = { s with weir := t.weir, ctrs := t.ctrs, hif := t.hif }) ∧
  (∀ (s : State) (x z y : Int), s.answers = true → s.trimDue = true → s.hif.trimDone = true → x < s.fuses.slackLo → vget 0 s.weir.trim 0 < 16 →
    s.fuses.slackLo ≤ z →
    z ≤ s.fuses.slackHi → s.fuses.slackLo ≤ y → y ≤ s.fuses.slackHi →
    ∃ t, exec (.trimRun [x, z] [y]) s = .next t ∧ vget 0 t.weir.trim 0 = vget 0 s.weir.trim 0 + 1 ∧ vget 0 t.weir.trim 1 = vget 0 s.weir.trim 1) ∧
  (∀ (s : State) (e w : List Int), s.trimDue = false → exec (.trimRun e w) s = .next s)

/-- R505: power states. A request that may be taken waits with status DONE; one that may not ends with BUSY, and a TARGET
of 1 or above 4 with RANGE; the state is reached with memory in self-refresh from P2 on; P1 is entered and left by the
package itself. -/
def Obligations.PowerStates : Prop :=
  (∀ (s : State), s.answers = true → s.weir.psWant = none → s.pstate < 3 →
    ∃ t, exec .pstateReqP0 s = .next t ∧ t.weir.psWant = some 0 ∧ t.weir.reqStatus = 0 ∧ t = { s with weir := t.weir }) ∧
  (∀ (s : State), s.answers = true → s.weir.psWant = none → s.pstate ≤ 2 → s.drained = true → s.wh.sec ≠ .scrapped →
    (∃ t, exec .pstateReqP2 s = .next t ∧ t.weir.psWant = some 2 ∧ t.weir.reqStatus = 0 ∧ t = { s with weir := t.weir }) ∧
    (∃ t, exec .pstateReqP3 s = .next t ∧ t.weir.psWant = some 3 ∧ t.weir.reqStatus = 0 ∧ t.lnk.conns = [] ∧ t.lnk.egress = [] ∧
      (∀ k, (s.conn k).isOpen = true → Out.frame (k / 65536) 8 [] ∈ t.out) ∧
      (∀ p : Port, (t.port p).state = .off ∨ (t.port p).state = .out ∨ (t.port p).state = .down) ∧ t.mem = s.mem) ∧
    (∃ t, exec .pstateReqP4 s = .next t ∧ t.weir.psWant = some 4 ∧ t.weir.reqStatus = 0 ∧
      (∀ k, (s.conn k).isOpen = true → Out.frame (k / 65536) 8 [] ∈ t.out) ∧ t.lnk.ports = s.lnk.ports ∧ t.mem = s.mem ∧
      t = { s with weir := t.weir, lnk := { s.lnk with conns := t.lnk.conns, wire := t.lnk.wire }, ctrs := t.ctrs, out := t.out, arbs := t.arbs })) ∧
  (∀ (s : State), s.answers = true → s.pstate = 3 →
    exec .pstateReqP2 s = .next { s with weir := { s.weir with reqStatus := Status.busy.code } } ∧
    exec .pstateReqP3 s = .next { s with weir := { s.weir with reqStatus := Status.busy.code } }) ∧
  (∀ (s : State), s.answers = true → (s.weir.psWant ≠ none ∨ s.drained = false) →
    exec .pstateReqP2 s = .next { s with weir := { s.weir with reqStatus := Status.busy.code } } ∧
    exec .pstateReqP3 s = .next { s with weir := { s.weir with reqStatus := Status.busy.code } } ∧
    exec .pstateReqP4 s = .next { s with weir := { s.weir with reqStatus := Status.busy.code } }) ∧
  (∀ (s : State) (v : Fin 8), s.answers = true → (v.val = 1 ∨ 4 < v.val) →
    exec (.pstateReqRefused v) s = .next { s with weir := { s.weir with reqStatus := Status.range.code } }) ∧
  (∀ (s : State), s.drained = false → (s.weir.psWant = some 2 ∨ s.weir.psWant = some 3) → exec .pstateDone s = .next s) ∧
  (∀ (s : State), s.answers = true → s.weir.psWant = some 3 → s.drained = true →
    ∃ t, exec .pstateDone s = .next t ∧ t.pstate = 3 ∧ t.hbm = { s.hbm with selfRefresh := true } ∧ t.weir.psWant = none ∧ t.arrival = [] ∧
      (∀ a, SMap.get 0 t.mem.bytes a = if s.region a = .mere then 0 else SMap.get 0 s.mem.bytes a) ∧ t.flagBit (blkWEIR + 4) 6 = true) ∧
  (∀ (s : State), s.answers = true → s.weir.psWant = some 2 → s.drained = true →
    ∃ t, exec .pstateDone s = .next t ∧ t.pstate = 2 ∧ t.hbm = { s.hbm with selfRefresh := true } ∧ t.weir.psWant = none ∧ t.mem = s.mem ∧
      t.flagBit (blkWEIR + 4) 6 = true) ∧
  (∀ (s : State), s.answers = true → s.weir.psWant = some 0 →
    ∃ t, exec .pstateDone s = .next t ∧ t.pstate = 0 ∧ t.hbm = { s.hbm with selfRefresh := false } ∧ t.mem = s.mem) ∧
  (∀ (s : State), s.answers = true → s.weir.psWant = some 4 →
    ∃ t, exec .pstateDone s = .next t ∧ t.pstate = 4 ∧ t.weir.p4Ready = true ∧ (∀ k, k < 32 → vget none t.wh.keys k = none)) ∧
  (∀ (s : State), s.weir.psWant = none → exec .pstateDone s = .next s) ∧
  (∀ (s : State), s.answers = true → s.pstate = 0 → s.image.isSome = true → s.idle = true → s.weir.psWant = none →
    ∃ t, exec .p1Entry s = .next t ∧ t.pstate = 1 ∧ t = { s with pstate := 1, weir := t.weir }) ∧
  (∀ (s : State), s.idle = false → exec .p1Entry s = .next s) ∧
  (∀ (s : State), s.answers = true → s.pstate = 1 → s.idle = false →
    ∃ t, exec .p1Exit s = .next t ∧ t.pstate = 0 ∧ t = { s with pstate := 0, weir := t.weir }) ∧
  (∀ (s : State), s.pstate = 1 → s.idle = true → exec .p1Exit s = .next s)

/-- R524, R525, R572: the negotiation of a mailbox, and the requests that it admits; a request out of order is answered with
an SPDM error; a mailbox that is not there answers nothing. -/
def Obligations.NegotiationOfAMailbox : Prop :=
  (∀ (s : State) (box : Fin 10), s.boxThere box = true →
    ∃ t, exec (.getVersion box) s = .next t ∧ t.mbox box = { version := true } ∧ (∀ b : Fin 10, b ≠ box → t.mbox b = s.mbox b) ∧
      t.out = s.out ++ [Out.spdm box 0x04 [0x00, 0x13]] ∧ t = { s with wh := { s.wh with boxes := t.wh.boxes }, out := t.out }) ∧
  (∀ (s : State) (box : Fin 10), s.boxThere box = true →
    ∃ t, exec (.getCapabilities box) s = .next t ∧
      t.mbox box = { s.mbox box with caps := (s.mbox box).caps || (s.mbox box).version, signed := none } ∧
      (∀ b : Fin 10, b ≠ box → t.mbox b = s.mbox b) ∧
      t.out = s.out ++ [if (s.mbox box).version then Out.spdm box 0x61 [] else Out.spdm box 0x7F []] ∧
      t = { s with wh := { s.wh with boxes := t.wh.boxes }, out := t.out }) ∧
  (∀ (s : State) (box : Fin 10) (offered : Bool), s.boxThere box = true →
    ∃ t, exec (.negotiateAlgorithms box offered) s = .next t ∧
      t.mbox box = { s.mbox box with algs := (s.mbox box).algs || ((s.mbox box).caps && offered), signed := none } ∧
      (∀ b : Fin 10, b ≠ box → t.mbox b = s.mbox b) ∧
      t.out = s.out ++ [if (s.mbox box).caps && offered then Out.spdm box 0x63 [] else Out.spdm box 0x7F []] ∧
      t = { s with wh := { s.wh with boxes := t.wh.boxes }, out := t.out }) ∧
  (∀ (s : State) (box : Fin 10), s.boxThere box = true →
    ∃ t, exec (.getDigests box) s = .next t ∧
      t.out = s.out ++ [if (s.mbox box).algs then Out.spdm box 0x01 (sha384 (s.certChain 0) ++ sha384 (s.certChain 1)) else Out.spdm box 0x7F []] ∧
      t = { s with wh := { s.wh with boxes := t.wh.boxes }, out := t.out }) ∧
  (∀ (s : State) (box : Fin 10) (slot : Fin 8) (o n : Half), s.boxThere box = true →
    ∃ t, exec (.getCertificate box slot o n) s = .next t ∧
      t.out = s.out ++ [if (s.mbox box).algs = true ∧ slot.val ≤ 1 then Out.spdm box 0x02 (((s.certChain slot).drop o.toNat).take n.toNat)
        else Out.spdm box 0x7F []] ∧
      t = { s with wh := { s.wh with boxes := t.wh.boxes }, out := t.out }) ∧
  (∀ (s : State), s.hif.split = false → ∀ i ∈ ([.getVersion 9, .getCapabilities 9, .negotiateAlgorithms 9 true, .getDigests 9, .getCertificate 9 0 0 0,
      .challenge 9 [], .getMeasurements 9 255 [], .getPqCert 9, .getPqSig 9, .getNonce 9] : List Instr), exec i s = .next s)

/-- R525 to R527, R543: signed responses carry one ALIAS_RSA signature over the transcript, wait for the alias keys, and are
refused once the fused secrets are destroyed; GET_PQ_SIG signs the transcript of the response just sent on its mailbox, once. -/
def Obligations.SignedResponses : Prop :=
  (∀ (s : State) (box : Fin 10) (tr : List Byte), s.boxThere box = true → (s.mbox box).algs = true → s.wh.sec ≠ .scrapped → s.hif.aliasReady = true →
    ∃ t, exec (.challenge box tr) s = .next t ∧ t.out = s.out ++ [Out.spdm box 0x03 (s.aliasSign 0 tr)] ∧ (t.mbox box).signed = some tr ∧
      t.ctr (blkWH + 0x60) = s.ctr (blkWH + 0x60) + 1 ∧ t = { s with wh := { s.wh with boxes := t.wh.boxes }, ctrs := t.ctrs, out := t.out }) ∧
  (∀ (s : State) (box : Fin 10) (tr : List Byte), s.boxThere box = true → (s.mbox box).algs = true → s.wh.sec ≠ .scrapped → s.hif.aliasReady = false →
    ∃ t, exec (.challenge box tr) s = .next t ∧ t.wh.waiting = s.wh.waiting ++ [⟨box, 0x03, [], tr⟩] ∧
      t = { s with wh := { s.wh with boxes := t.wh.boxes, waiting := t.wh.waiting } }) ∧
  (∀ (s : State) (box : Fin 10) (tr : List Byte), s.boxThere box = true → ((s.mbox box).algs = false ∨ s.wh.sec = .scrapped) →
    ∃ t, exec (.challenge box tr) s = .next t ∧ t.out = s.out ++ [Out.spdm box 0x7F []] ∧
    t = { s with wh := { s.wh with boxes := t.wh.boxes }, out := t.out }) ∧
  (∀ (s : State) (box : Fin 10) (i : Fin 256) (tr : List Byte), s.boxThere box = true → (s.mbox box).algs = true → s.wh.sec ≠ .scrapped →
    s.hif.aliasReady = true →
    ∃ t, exec (.getMeasurements box i tr) s = .next t ∧
      (i = 0 → t.out = s.out ++ [Out.spdm box 0x60 (8 :: s.aliasSign 0 tr)]) ∧
      (1 ≤ i.val ∧ i.val ≤ 8 → t.out = s.out ++ [Out.spdm box 0x60 (s.measurementBlock i ++ s.aliasSign 0 tr)]) ∧
      (i = 255 → t.out = s.out ++ [Out.spdm box 0x60 (s.measurementRecord ++ s.aliasSign 0 tr)]) ∧
      (8 < i.val ∧ i.val < 255 → t.out = s.out ++ [Out.spdm box 0x7F []]) ∧
      t = { s with wh := { s.wh with boxes := t.wh.boxes }, ctrs := t.ctrs, out := t.out }) ∧
  (∀ (s : State) (box : Fin 10), s.boxThere box = true →
    ∃ t, exec (.getPqCert box) s = .next t ∧ t.out = s.out ++ [Out.spdm box 0x7E (0x00 :: s.certChain 2)] ∧
      t = { s with wh := { s.wh with boxes := t.wh.boxes }, out := t.out }) ∧
  (∀ (s : State) (box : Fin 10) (tr : List Byte), s.boxThere box = true → (s.mbox box).signed = some tr → s.wh.sec ≠ .scrapped →
    ∃ t, exec (.getPqSig box) s = .next t ∧ t.out = s.out ++ [Out.spdm box 0x7E (0x00 :: s.aliasSign 1 tr)] ∧ (t.mbox box).signed = none ∧
      t.ctr (blkWH + 0x60) = s.ctr (blkWH + 0x60) + 1 ∧ t = { s with wh := { s.wh with boxes := t.wh.boxes }, ctrs := t.ctrs, out := t.out }) ∧
  (∀ (s : State) (box : Fin 10), s.boxThere box = true → (s.mbox box).signed = none →
    exec (.getPqSig box) s = .next { s with out := s.out ++ [Out.spdm box 0x7E [0x0D]] }) ∧
  (∀ (s : State), s.answers = true → s.hif.aliasReady = false → 150000000 ≤ s.now →
    ∃ t, exec .aliasKeysReady s = .next t ∧ t.hif.aliasReady = true ∧ t.wh.waiting = [] ∧
      t.out = s.out ++ s.wh.waiting.map (fun r => Out.spdm r.box r.code (r.data ++ s.aliasSign 0 r.transcript)) ∧
      t = { s with wh := { s.wh with boxes := t.wh.boxes, waiting := [] }, hif := { s.hif with aliasReady := true }, ctrs := t.ctrs, out := t.out }) ∧
  (∀ (s : State), (s.hif.aliasReady = true ∨ s.now < 150000000) → exec .aliasKeysReady s = .next s)

/-- R524, R527, R528, R530: secure sessions. A key exchange takes the lowest free session of the mailbox (four on PF0, one
on another function) and asks for mutual authentication on PF0 alone; FINISH opens the session or drops it. -/
def Obligations.SecureSessions : Prop :=
  (∀ (s : State) (box : Fin 10) (ma : Bool) (tr : List Byte) (k : Nat), s.boxThere box = true → (s.mbox box).algs = true → s.wh.sec ≠ .scrapped →
    s.hif.aliasReady = true → ((List.range (if box = 0 then 4 else 1)).find? fun k => (s.session box k).isNone) = some k →
    ∃ t, exec (.keyExchange box ma tr) s = .next t ∧ t.session box k = some { fn := box, mutualAuth := ma && decide (box = 0) } ∧
      (∀ j, j ≠ 16 * box.val + k → SMap.get none t.wh.sessions j = SMap.get none s.wh.sessions j) ∧
      t.out = s.out ++ [Out.spdm box 0x64 (BitVec.ofNat 8 k :: s.aliasSign 0 tr)] ∧
      t = { s with wh := { s.wh with boxes := t.wh.boxes, sessions := t.wh.sessions }, ctrs := t.ctrs, out := t.out }) ∧
  (∀ (s : State) (box : Fin 10) (ma : Bool) (tr : List Byte), s.boxThere box = true → (∀ k, k < 4 → (s.session box k).isSome) →
    ∃ t, exec (.keyExchange box ma tr) s = .next t ∧ t.wh.sessions = s.wh.sessions ∧ t.out = s.out ++ [Out.spdm box 0x7F []]) ∧
  (∀ (s : State) (box : Fin 10) (k : Fin 4) (x : Session) (rsa : Option (BitVec 384)), s.boxThere box = true → s.session box k = some x →
    x.opened = false → (x.mutualAuth = false ∨ rsa.isSome) →
    ∃ t, exec (.finish box k true rsa) s = .next t ∧
      t.session box k = some { x with opened := true, rsaMatch := x.mutualAuth && (s.image.any fun im => rsa.any fun d => decide (leBytes 48 d.toNat = im.brokerRsa)) } ∧
      t.out = s.out ++ [Out.spdm box 0x65 []] ∧ t.ctr (blkWH + 0x40) = s.ctr (blkWH + 0x40) + 1 ∧
      t = { s with wh := { s.wh with boxes := t.wh.boxes, sessions := t.wh.sessions }, ctrs := t.ctrs, out := t.out }) ∧
  (∀ (s : State) (box : Fin 10) (k : Fin 4) (x : Session) (rsa : Option (BitVec 384)), s.boxThere box = true → s.session box k = some x →
    x.opened = false →
    ∃ t, exec (.finish box k false rsa) s = .next t ∧ t.session box k = none ∧ t.out = s.out ++ [Out.spdm box 0x7F []] ∧
      t = { s with wh := { s.wh with boxes := t.wh.boxes, sessions := t.wh.sessions }, out := t.out }) ∧
  (∀ (s : State) (box : Fin 10) (k : Fin 4) (x : Session), s.boxThere box = true → s.session box k = some x → x.opened = true →
    (∃ t, exec (.keyUpdate box k) s = .next t ∧ t.session box k = some { x with updates := x.updates + 1 } ∧ t.out = s.out ++ [Out.spdm box 0x69 []] ∧
      t = { s with wh := { s.wh with boxes := t.wh.boxes, sessions := t.wh.sessions }, out := t.out }) ∧
    (∃ t, exec (.heartbeat box k) s = .next t ∧ t.out = s.out ++ [Out.spdm box 0x68 []] ∧
      t = { s with wh := { s.wh with boxes := t.wh.boxes }, out := t.out }) ∧
    (∃ t, exec (.endSession box k) s = .next t ∧ t.session box k = none ∧ t.out = s.out ++ [Out.spdm box 0x6C []] ∧
      t = { s with wh := { s.wh with boxes := t.wh.boxes, sessions := t.wh.sessions }, out := t.out })) ∧
  (∀ (s : State) (box : Fin 10) (k : Fin 4), s.boxThere box = true → (∀ x, s.session box k = some x → x.opened = false) →
    ∀ i ∈ ([.keyUpdate box k, .heartbeat box k, .endSession box k, .keyProg box k 0, .kSetGo box k 0, .kSetStop box k 0] : List Instr),
      ∃ t, exec i s = .next t ∧ t.out = s.out ++ [Out.spdm box 0x7F []] ∧ t = { s with wh := { s.wh with boxes := t.wh.boxes }, out := t.out })

/-- R529 to R532: the key broker. PQ_FINISH answers an SPDM error on any function but PF0; the broker's other commands
answer PERMISSION but in an open session on PF0 whose PQ_FINISH has verified (a command outside a session: log 29); KEY_PUT answers with the first row of its table that fails. -/
def Obligations.KeyBroker : Prop :=
  (∀ (s : State) (k : Fin 4) (x : Session) (key tr sig : List Byte) (im : Image), s.answers = true → s.session 0 k = some x → x.opened = true →
    x.rsaMatch = true →
    s.image = some im → sha384 key = im.brokerSlh → Config.sigVerifies key tr sig = true →
    ∃ t, exec (.pqFinish 0 k key tr sig) s = .next t ∧ t.session 0 k = some { x with broker := true } ∧ t.out = s.out ++ [Out.spdm 0 0x7E [0x00]] ∧
      t = { s with wh := { s.wh with boxes := t.wh.boxes, sessions := t.wh.sessions }, out := t.out }) ∧
  (∀ (s : State) (k : Fin 4) (x : Session) (key tr sig : List Byte), s.answers = true → s.session 0 k = some x → x.opened = true → x.rsaMatch = true →
    (∀ im, s.image = some im → sha384 key = im.brokerSlh → Config.sigVerifies key tr sig = false) →
    ∃ t, exec (.pqFinish 0 k key tr sig) s = .next t ∧ t.wh.sessions = s.wh.sessions ∧ t.flagBit (blkWH + 4) 4 = true ∧
      t.out.getLast? = some (Out.spdm 0 0x7E [0x04])) ∧
  (∀ (s : State) (box : Fin 10) (k : Fin 4) (a b g : List Byte), box ≠ 0 → s.boxThere box = true →
    ∃ t, exec (.pqFinish box k a b g) s = .next t ∧ t.out = s.out ++ [Out.spdm box 0x7F []] ∧
      t = { s with wh := { s.wh with boxes := t.wh.boxes }, out := t.out }) ∧
  (∀ (s : State) (box : Fin 10) (k : Fin 4) (d : BitVec 384) (sl c : Byte) (l : Word) (r : Bool) (key : BitVec 512) (all : Bool) (i : Fin 32),
    s.boxThere box = true → (box ≠ 0 ∨ ∀ x, s.session box k = some x → x.opened = true → x.broker = false) →
    ∀ j ∈ ([.setAttested box k d, .keyPut box k sl c l r key, .keyErase box k all i] : List Instr),
      ∃ t, exec j s = .next t ∧ t.out = s.out ++ [Out.spdm box 0x7E [0x09]] ∧ t = { s with wh := { s.wh with boxes := t.wh.boxes }, out := t.out }) ∧
  (∀ (s : State) (k : Fin 4) (x : Session) (sl c : Byte) (l : Word) (r : Bool) (key : BitVec 512), s.answers = true → s.session 0 k = some x →
    x.opened = true →
    x.broker = true → s.wh.sec = .attested → sl.toNat ≤ 31 → (s.cove c.toNat).isSome → l ≠ 0 → r = false → vget none s.wh.keys sl.toNat = none →
    s.stopped = false →
    ∃ t, exec (.keyPut 0 k sl c l r key) s = .next t ∧
      vget none t.wh.keys sl.toNat = some ⟨leBytes 64 key.toNat, c.toNat,
        if l.toNat = 0xFFFFFFFF then none else some (s.now + 100000000 * l.toNat), keyCheckValue (leBytes 64 key.toNat), s.now, false⟩ ∧
      (∀ j : Fin 32, j.val ≠ sl.toNat → vget none t.wh.keys j = vget none s.wh.keys j) ∧
      t.ctr (blkWH + 0x48) = s.ctr (blkWH + 0x48) + 1 ∧ t.flagBit (blkWH + 4) 0 = true ∧
      t.out.getLast? = some (Out.spdm 0 0x7E (0x00 :: keyCheckValue (leBytes 64 key.toNat))) ∧
      t = { s with wh := { s.wh with boxes := t.wh.boxes, keys := t.wh.keys }, ctrs := t.ctrs, flags := t.flags, hif := t.hif, out := t.out }) ∧
  (∀ (s : State) (k : Fin 4) (x : Session) (sl c : Byte) (l : Word) (r : Bool) (key : BitVec 512) (st : Byte), s.answers = true → s.session 0 k = some x →
    x.opened = true → x.broker = true →
    (st = 0x09 ∧ s.wh.sec ≠ .attested ∨
      st = 0x0D ∧ s.wh.sec = .attested ∧ (31 < sl.toNat ∨ (s.cove c.toNat).isNone ∨ l = 0 ∨ r = true) ∨
      st = 0x01 ∧ s.wh.sec = .attested ∧ sl.toNat ≤ 31 ∧ (s.cove c.toNat).isSome ∧ l ≠ 0 ∧ r = false ∧ (vget none s.wh.keys sl.toNat).isSome ∨
      st = 0x08 ∧ s.wh.sec = .attested ∧ sl.toNat ≤ 31 ∧ (s.cove c.toNat).isSome ∧ l ≠ 0 ∧ r = false ∧ vget none s.wh.keys sl.toNat = none ∧
        s.stopped = true) →
    ∃ t, exec (.keyPut 0 k sl c l r key) s = .next t ∧ t.out = s.out ++ [Out.spdm 0 0x7E [st]] ∧
      t = { s with wh := { s.wh with boxes := t.wh.boxes }, out := t.out })

/-- R532, R533, R341: when a key becomes usable, and what erases it: loads that decrypt under it have it no longer. -/
def Obligations.LivesOfModelKeys : Prop :=
  (∀ (s : State) (i : Fin 32) (k : ModelKey), s.answers = true → vget none s.wh.keys i = some k →
    ∃ t, exec (.keyUsable i) s = .next t ∧
      vget none t.wh.keys i = some { k with usable := k.usable || decide (k.put + 5000 ≤ s.now) } ∧
      (∀ j : Fin 32, j ≠ i → vget none t.wh.keys j = vget none s.wh.keys j) ∧ t = { s with wh := { s.wh with keys := t.wh.keys } }) ∧
  (∀ (s : State) (k : Fin 4) (x : Session) (i : Fin 32), s.answers = true → s.session 0 k = some x → x.opened = true → x.broker = true →
    (∃ t, exec (.keyErase 0 k false i) s = .next t ∧ vget none t.wh.keys i = none ∧
      (∀ j : Fin 32, j ≠ i → vget none t.wh.keys j = vget none s.wh.keys j) ∧ t.out.getLast? = some (Out.spdm 0 0x7E [0x00]) ∧
      (∀ (m : ModelKey) (y : Fin 4) (q : LoadCtx), vget none s.wh.keys i = some m → s.loadCtx y = some q →
        t.loadCtx y = some (if q.cove = m.cove ∧ (nth 0 q.desc 6).toNat = i.val then { q with key := none } else q)) ∧
      t = { s with wh := { s.wh with boxes := t.wh.boxes, keys := t.wh.keys }, inl := { s.inl with ctx := t.inl.ctx }, ctrs := t.ctrs,
                   flags := t.flags, hif := t.hif, out := t.out }) ∧
    (∃ t, exec (.keyErase 0 k true i) s = .next t ∧ (∀ j : Fin 32, vget none t.wh.keys j = none) ∧ t.out.getLast? = some (Out.spdm 0 0x7E [0x00]) ∧
      t = { s with wh := { s.wh with boxes := t.wh.boxes, keys := t.wh.keys }, inl := { s.inl with ctx := t.inl.ctx }, ctrs := t.ctrs,
                   flags := t.flags, hif := t.hif, out := t.out })) ∧
  (∀ (s : State) (v : Word), s.answers = true → v.getLsbD 31 = true →
    ∃ t, exec (.whKeyErase v) s = .next t ∧
      (∀ j : Fin 32, vget none t.wh.keys j = (if v.getLsbD 8 = true ∨ j.val = v.toNat % 32 then none else vget none s.wh.keys j)) ∧
      t = { s with wh := { s.wh with keys := t.wh.keys }, inl := { s.inl with ctx := t.inl.ctx }, ctrs := t.ctrs, flags := t.flags, hif := t.hif, out := t.out }) ∧
  (∀ (s : State) (v : Word), v.getLsbD 31 = false → exec (.whKeyErase v) s = .next s) ∧
  (∀ (s : State) (i : Fin 32) (k : ModelKey), s.answers = true → vget none s.wh.keys i = some k →
    ∃ t, exec (.leaseEnd i) s = .next t ∧
      vget none t.wh.keys i = (if k.lease.any (fun e => decide (e ≤ s.now)) then none else some k) ∧
      (∀ j : Fin 32, j ≠ i → vget none t.wh.keys j = vget none s.wh.keys j) ∧
      (k.lease.any (fun e => decide (e ≤ s.now)) = true → t.ctr (blkWH + 0x50) = s.ctr (blkWH + 0x50) + 1 ∧ t.flagBit (blkWH + 4) 1 = true) ∧
      t = { s with wh := { s.wh with keys := t.wh.keys }, inl := { s.inl with ctx := t.inl.ctx }, ctrs := t.ctrs, flags := t.flags, hif := t.hif, out := t.out })

/-- R534 to R537, R539: owner commands. -/
def Obligations.OwnerCommands : Prop :=
  (∀ (s : State), s.answers = true → ∃ t b, exec (.getNonce 0) s = .next t ∧ t.wh.nonce = some b ∧ b.length = 32 ∧
    t.out = s.out ++ [Out.spdm 0 0x7E (0x00 :: b)] ∧
    t = { s with wh := { s.wh with boxes := t.wh.boxes, nonce := t.wh.nonce }, draws := t.draws, out := t.out }) ∧
  (∀ (s : State) (box : Fin 10) (sig : OwnerSig) (o : BitVec 768) (l : Fin 4), box ≠ 0 → s.boxThere box = true →
    ∀ j ∈ ([.getNonce box, .claim box sig, .transfer box o sig, .debugSet box l sig, .debugEnter box l sig, .scrap box sig] : List Instr),
      ∃ t, exec j s = .next t ∧ t.out = s.out ++ [Out.spdm box 0x7F []] ∧ t = { s with wh := { s.wh with boxes := t.wh.boxes }, out := t.out }) ∧
  (∀ (s : State) (sig : OwnerSig) (o : BitVec 768) (l : Fin 4), s.answers = true → s.wh.sec = .sealed →
    s.ownerSigned s.ownerNow 0x22 (leBytes 96 o.toNat) sig = false → s.ownerSigned s.ownerNow 0x23 [BitVec.ofNat 8 l] sig = false →
    s.ownerSigned s.ownerNow 0x24 [BitVec.ofNat 8 l] sig = false → s.ownerSigned s.ownerNow 0x25 [] sig = false →
    ∀ j ∈ ([.transfer 0 o sig, .debugSet 0 l sig, .debugEnter 0 l sig, .scrap 0 sig] : List Instr),
      ∃ t, exec j s = .next t ∧ t.wh.nonce = none ∧ t.flagBit (blkWH + 4) 4 = true ∧ t.out.getLast? = some (Out.spdm 0 0x7E [0x04]) ∧
        t = { s with wh := { s.wh with boxes := t.wh.boxes, nonce := none }, ctrs := t.ctrs, flags := t.flags, hif := t.hif, out := t.out }) ∧
  (∀ (s : State) (sig : OwnerSig), s.answers = true → s.ownerSigned (some (sha384 sig.rsaKey ++ sha384 sig.slhKey)) 0x21 (sha384 sig.rsaKey ++ sha384 sig.slhKey) sig = true →
    ∃ t, exec (.claim 0 sig) s = .next t ∧ t.wh.nonce = none ∧
      (s.wh.sec = .factory → t.wh.sec = .sealed ∧ t.debug = 0 ∧ t.ownerNow = some (sha384 sig.rsaKey ++ sha384 sig.slhKey) ∧ t.wh.ownerSlot = 0 ∧
        t.out.getLast? = some (Out.spdm 0 0x7E [0x00]) ∧ t.mem = s.mem) ∧
      (s.wh.sec ≠ .factory → t.out = s.out ++ [Out.spdm 0 0x7E [0x09]] ∧
        t = { s with wh := { s.wh with boxes := t.wh.boxes, nonce := none }, out := t.out })) ∧
  (∀ (s : State) (sig : OwnerSig) (o : BitVec 768), s.answers = true → s.ownerSigned s.ownerNow 0x22 (leBytes 96 o.toNat) sig = true →
    (s.wh.sec = .sealed ∨ s.wh.sec = .attested) →
    ∃ t, exec (.transfer 0 o sig) s = .next t ∧ t.wh.nonce = none ∧
      (s.wh.ownerSlot < 3 → t.wh.ownerSlot = s.wh.ownerSlot + 1 ∧ t.ownerNow = some (leBytes 96 o.toNat) ∧ vget none t.wh.owners s.wh.ownerSlot = none ∧
        t.wh.sec = .sealed ∧ t.debug = 0 ∧ (∀ j : Fin 32, vget none t.wh.keys j = none) ∧ t.out.getLast? = some (Out.spdm 0 0x7E [0x00]) ∧ t.mem = s.mem) ∧
      (3 ≤ s.wh.ownerSlot → t.out = s.out ++ [Out.spdm 0 0x7E [0x05]] ∧
        t = { s with wh := { s.wh with boxes := t.wh.boxes, nonce := none }, out := t.out })) ∧
  (∀ (s : State) (sig : OwnerSig) (l : Fin 4), s.answers = true → (s.wh.sec = .factory ∨ s.wh.sec = .scrapped) →
    ∃ t, exec (.debugSet 0 l sig) s = .next t ∧ t.debug = l ∧ t.wh.sec = s.wh.sec ∧ t.wh.nonce = s.wh.nonce ∧
    t.out.getLast? = some (Out.spdm 0 0x7E [0x00]) ∧
      t.mem = s.mem ∧ t.wh.keys = s.wh.keys) ∧
  (∀ (s : State) (sig : OwnerSig) (l : Fin 4), s.answers = true → s.ownerSigned s.ownerNow 0x23 [BitVec.ofNat 8 l] sig = true →
    s.wh.sec = .attested → l.val < 2 →
    s.debug ≠ l.val →
    ∃ t, exec (.debugSet 0 l sig) s = .next t ∧ t.debug = l ∧ t.wh.sec = .sealed ∧ (∀ j : Fin 32, vget none t.wh.keys j = none) ∧
      t.out.getLast? = some (Out.spdm 0 0x7E [0x00])) ∧
  (∀ (s : State) (sig : OwnerSig) (l : Fin 4), s.answers = true → s.ownerSigned s.ownerNow 0x24 [BitVec.ofNat 8 l] sig = true → s.wh.sec = .sealed →
    s.drained = true →
    2 ≤ l.val →
    ∃ t, exec (.debugEnter 0 l sig) s = .next t ∧ t.wh.sec = .ownerDebug ∧ t.debug = l ∧ (∀ j : Fin 32, vget none t.wh.keys j = none) ∧
      t.epochs = s.epochs.map (fun e => (e + 1) % 0x1000000000000) ∧ t.out.getLast? = some (Out.spdm 0 0x7E [0x00])) ∧
  (∀ (s : State) (sig : OwnerSig) (l : Fin 4), s.answers = true → s.ownerSigned s.ownerNow 0x24 [BitVec.ofNat 8 l] sig = true → s.wh.sec = .sealed →
    s.drained = false →
    ∃ t, exec (.debugEnter 0 l sig) s = .next t ∧ t.out = s.out ++ [Out.spdm 0 0x7E [0x01]] ∧
      t = { s with wh := { s.wh with boxes := t.wh.boxes, nonce := none }, out := t.out }) ∧
  (∀ (s : State) (sig : OwnerSig), s.answers = true → s.ownerSigned s.ownerNow 0x25 [] sig = true → s.wh.sec = .sealed → s.drained = true →
    ∃ t, exec (.scrap 0 sig) s = .next t ∧ t.wh.sec = .scrapped ∧ t.wh.destroyed = true ∧ (∀ j : Fin 32, vget none t.wh.keys j = none) ∧
      t.out.getLast? = some (Out.spdm 0 0x7E [0x00]) ∧ t.mem = s.mem)

/-- R523: IDE streams are programmed, started and stopped from an open session. -/
def Obligations.IdeStreams : Prop :=
  (∀ (s : State) (box : Fin 10) (k : Fin 4) (x : Session) (i : Fin 10), s.boxThere box = true → s.session box k = some x → x.opened = true →
    ∃ t, exec (.keyProg box k i) s = .next t ∧ (∀ j, j ∈ t.wh.ideKeys ↔ j ∈ s.wh.ideKeys ∨ j = i.val) ∧ t.out = s.out ++ [Out.spdm box 0x7E [0x00]] ∧
      t = { s with wh := { s.wh with boxes := t.wh.boxes, ideKeys := t.wh.ideKeys }, out := t.out }) ∧
  (∀ (s : State) (box : Fin 10) (k : Fin 4) (x : Session) (i : Fin 10), s.boxThere box = true → s.session box k = some x → x.opened = true →
    i.val ∈ s.wh.ideKeys →
    ∃ t, exec (.kSetGo box k i) s = .next t ∧ t.wh.ideLink = (s.wh.ideLink || decide (i = 9)) ∧
      (∀ j, j ∈ t.wh.ideSel ↔ j ∈ s.wh.ideSel ∨ j = i.val ∧ i ≠ 9) ∧ t.out.getLast? = some (Out.spdm box 0x7E [0x00]) ∧
      t = { s with wh := { s.wh with boxes := t.wh.boxes, ideLink := t.wh.ideLink, ideSel := t.wh.ideSel }, ctrs := t.ctrs, hif := t.hif, out := t.out }) ∧
  (∀ (s : State) (box : Fin 10) (k : Fin 4) (x : Session) (i : Fin 10), s.boxThere box = true → s.session box k = some x → x.opened = true →
    i.val ∉ s.wh.ideKeys →
    ∃ t, exec (.kSetGo box k i) s = .next t ∧ t.out = s.out ++ [Out.spdm box 0x7F []] ∧
    t = { s with wh := { s.wh with boxes := t.wh.boxes }, out := t.out }) ∧
  (∀ (s : State) (box : Fin 10) (k : Fin 4) (x : Session) (i : Fin 10), s.boxThere box = true → s.session box k = some x → x.opened = true →
    ∃ t, exec (.kSetStop box k i) s = .next t ∧ t.wh.ideLink = (s.wh.ideLink && decide (i ≠ 9)) ∧
      (∀ j, j ∈ t.wh.ideSel ↔ j ∈ s.wh.ideSel ∧ (j ≠ i.val ∨ i = 9)) ∧ t.out = s.out ++ [Out.spdm box 0x7E [0x00]] ∧
      t = { s with wh := { s.wh with boxes := t.wh.boxes, ideLink := t.wh.ideLink, ideSel := t.wh.ideSel }, out := t.out })

/-- R557, R567 to R570: staging, the user default and firmware. A command that runs makes the next one end with BUSY; one
that meets DEFAULT_DONE unset ends with BUSY as well; an end writes RESULT and raises the JVK vector. -/
def Obligations.StagingAndDefaults : Prop :=
  (∀ (s : State), s.jvkFree = true →
    exec .stage s = .next { s with jvk := { s.jvk with staged := none, reading := s.jvkRead maxImage, running := some .stage } }) ∧
  (∀ (s : State), s.jvkFree = true →
    ∃ t, exec .discard s = .next t ∧ t.jvk.staged = none ∧ t.jvk.resStatus = 0 ∧ t.jvk.running = none ∧ t.image = s.image ∧
      t = { s with jvk := t.jvk, hif := t.hif, ctrs := t.ctrs, out := t.out }) ∧
  (∀ (s : State), s.jvkFree = true → s.jvk.staged.isSome → exec .saveDefault s = .next { s with jvk := { s.jvk with running := some .saveDefault } }) ∧
  (∀ (s : State), s.jvkFree = true →
    ∃ t, exec .eraseDefault s = .next t ∧ t.jvk.flashDefault = none ∧ t.jvk.resStatus = 0 ∧ t.jvk.running = none ∧ t.image = s.image ∧
      t = { s with jvk := t.jvk, hif := t.hif, ctrs := t.ctrs, out := t.out }) ∧
  (∀ (s : State) (v : Bool) (n : Nat), s.jvkFree = true →
    ∃ t, exec (.fwStage v n) s = .next t ∧ t.jvk.fwStaged = false ∧ t.jvk.running = some .fwStage ∧
      t.jvk.pendStatus = (if v = false then 0x04 else if n < s.fuses.fwFloor then 0x03 else 0x00) ∧ t = { s with jvk := t.jvk }) ∧
  (∀ (s : State), s.jvkFree = true → s.drained = true → s.jvk.fwStaged = true →
    exec .fwInstall s = .next { s with jvk := { s.jvk with flashFwValid := false, running := some .fwInstall } }) ∧
  (∀ (s : State), s.jvkFree = true → s.drained = false →
    ∃ t, exec .fwInstall s = .next t ∧ t.jvk.resStatus = 0x01 ∧ t.jvk.running = none ∧ t.jvk.flashFwValid = s.jvk.flashFwValid ∧
      t = { s with jvk := t.jvk, hif := t.hif, ctrs := t.ctrs, out := t.out }) ∧
  (∀ (s : State) (c : Fin 16), s.jvkFree = true → (c.val = 0 ∨ 8 ≤ c.val) →
    ∃ t, exec (.jvkReservedCode c) s = .next t ∧ t.jvk.resStatus = 0x0D ∧ t.jvk.running = none ∧ t.jvk.staged = s.jvk.staged ∧ t.image = s.image ∧
      t = { s with jvk := t.jvk, hif := t.hif, ctrs := t.ctrs, out := t.out }) ∧
  (∀ (s : State), s.pstate ≠ 4 → s.hif.heldInReset = false → s.jvk.running.isSome →
    ∀ i ∈ ([.stage, .commit, .discard, .saveDefault, .eraseDefault, .fwStage true 0, .fwInstall, .jvkReservedCode 0] : List Instr),
      exec i s = .next { s with jvk := { s.jvk with resStatus := 0x01, resSection := 0 } }) ∧
  (∀ (s : State), s.pstate ≠ 4 → s.hif.heldInReset = false → s.jvk.running = none → s.hif.defaultDone = false → s.hif.waitingResets = [] →
    ∀ i ∈ ([.stage, .commit, .discard, .saveDefault, .eraseDefault, .fwStage true 0, .fwInstall, .jvkReservedCode 0] : List Instr),
      ∃ t, exec i s = .next t ∧ t.jvk.resStatus = 0x01 ∧ t.jvk.staged = s.jvk.staged ∧ t.jvk.flashDefault = s.jvk.flashDefault ∧
        t = { s with jvk := t.jvk, hif := t.hif, ctrs := t.ctrs, out := t.out }) ∧
  (∀ (s : State) (raw : List Byte), s.answers = true → s.jvk.running = some .stage → s.jvk.reading = some raw → s.hif.waitingResets = [] →
    ∃ t, exec .jvkCommandDone s = .next t ∧ t.jvk.running = none ∧ t.image = s.image ∧
      (s.stageRefusal (readImage raw) raw.length = none → t.jvk.staged = some (readImage raw) ∧ t.jvk.resStatus = 0) ∧
      (∀ st i, s.stageRefusal (readImage raw) raw.length = some (st, i) → t.jvk.staged = s.jvk.staged ∧ t.jvk.resStatus = st.code ∧ t.jvk.resSection = i) ∧
      t = { s with jvk := t.jvk, hif := t.hif, ctrs := t.ctrs, out := t.out }) ∧
  (∀ (s : State), s.answers = true → s.jvk.running = some .saveDefault → s.hif.waitingResets = [] →
    ∃ t, exec .jvkCommandDone s = .next t ∧ t.jvk.running = none ∧ t.jvk.flashDefault = s.jvk.staged.map Image.raw ∧ t.jvk.resStatus = 0 ∧
      t = { s with jvk := t.jvk, hif := t.hif, ctrs := t.ctrs, out := t.out }) ∧
  (∀ (s : State), s.answers = true → s.jvk.running = some .fwInstall → s.hif.waitingResets = [] →
    ∃ t, exec .jvkCommandDone s = .next t ∧ t.jvk.running = none ∧ t.jvk.flashFw = s.jvk.fwStagedRaw ∧ t.jvk.flashFwValid = true ∧
      t.jvk.fwRunning = s.jvk.fwRunning ∧ t = { s with jvk := t.jvk, hif := t.hif, ctrs := t.ctrs, out := t.out })

/-- R558, R561, R564, R566: a commit is judged when it is commanded and again at its commit point; at the commit point the
staged image is in force; the flash writes follow; at boot the user default commits in the same way. -/
def Obligations.CommitOfAnImage : Prop :=
  (∀ (s : State) (im : Image), s.jvkFree = true → s.jvk.staged = some im → s.commitRefusal im = none →
    exec .commit s = .next { s with jvk := { s.jvk with commitWait := true, running := some .commit } }) ∧
  (∀ (s : State) (im : Image) (st : Status) (i : Nat), s.jvkFree = true → s.jvk.staged = some im → s.commitRefusal im = some (st, i) →
    ∃ t, exec .commit s = .next t ∧ t.jvk.resStatus = st.code ∧ t.jvk.resSection = i ∧ t.jvk.running = none ∧ t.image = s.image ∧
      t.jvk.staged = some im ∧ t = { s with jvk := t.jvk, hif := t.hif, ctrs := t.ctrs, out := t.out }) ∧
  (∀ (s : State) (im : Image), s.answers = true → s.jvk.commitWait = true → s.jvk.staged = some im → s.commitRefusal im = none →
    ∃ t, exec .commitPoint s = .next t ∧ t.image = some im ∧ t.jvk.commitWait = false ∧ t.jvk.flashWait = true ∧ t.jvk.running = s.jvk.running ∧
      (s.image = none → t.jvk.boundNode = im.ownNode s.lnk.pos)) ∧
  (∀ (s : State) (im : Image) (st : Status) (i : Nat), s.answers = true → s.jvk.commitWait = true → s.jvk.staged = some im →
    s.commitRefusal im = some (st, i) →
    s.hif.waitingResets = [] →
    ∃ t, exec .commitPoint s = .next t ∧ t.image = s.image ∧ t.jvk.commitWait = false ∧ t.jvk.resStatus = st.code ∧ t.jvk.running = none ∧
      t = { s with jvk := t.jvk, hif := t.hif, ctrs := t.ctrs, out := t.out }) ∧
  (∀ (s : State), s.jvk.commitWait = false → exec .commitPoint s = .next s) ∧
  (∀ (s : State) (im : Image), s.answers = true → s.jvk.flashWait = true → s.image = some im → s.floorSlot < 5 → s.hif.waitingResets = [] →
    ∃ t, exec .commitFlashDone s = .next t ∧ vget 0 t.jvk.floors s.floorSlot = im.floor ∧ t.jvk.flashWait = false ∧ t.jvk.resStatus = 0 ∧
      t.hbm.flashRoster = (if im.rosterClear then [] else s.hbm.flashRoster) ∧ t.image = some im ∧
      t = { s with jvk := t.jvk, hbm := { s.hbm with flashRoster := t.hbm.flashRoster }, lnk := { s.lnk with portRecord := t.lnk.portRecord },
                   hif := t.hif, ctrs := t.ctrs, out := t.out }) ∧
  (∀ (s u : State), s.answers = true → s.booting = true → s.hif.trimDone = true → s.hif.defaultDone = false →
    u = { s with hif := { s.hif with defaultDone := true } } →
    (s.jvk.flashDefault = none → exec .defaultImageCommit s = .next u) ∧
    (∀ raw, s.jvk.flashDefault = some raw →
      orElseRefused [u.stageRefusal (readImage raw) raw.length, u.commitRefusal (readImage raw)] = none →
      ∃ t, exec .defaultImageCommit s = .next t ∧ t.hif.defaultDone = true ∧ t.image = some (readImage raw) ∧ t.jvk.defaultInForce = true ∧
        t.jvk.defaultStatus = 0) ∧
    (∀ raw st i, s.jvk.flashDefault = some raw →
      orElseRefused [u.stageRefusal (readImage raw) raw.length, u.commitRefusal (readImage raw)] = some (st, i) →
      exec .defaultImageCommit s = .next { u with jvk := { u.jvk with defaultStatus := st.code, defaultInForce := false } })) ∧
  (∀ (s : State), (s.booting = false ∨ s.hif.trimDone = false ∨ s.hif.defaultDone = true) → exec .defaultImageCommit s = .next s)

/-- R541, R588, R644, R648, R656, R660, R218: cold reset, whatever brings it. Fuses, flash and host memory stay, and of the
stream table every field but STATE, which becomes FREE; the straps are sampled; ATTESTED and OWNER_DEBUG return to SEALED, the debug level to D0; everything else is as at reset. A package held in cold
reset, or in P4, does nothing but what ends that, and keeps the level each port's receiver sees. -/
def Obligations.ColdResets : Prop :=
  (∀ (s : State) (pos : BitVec 12) (split : Bool), ∀ i ∈ ([.coldReset false pos split, .pkgResetN pos split] : List Instr),
    ∃ t, exec i s = .next t ∧ t.wh.sec = (if s.wh.sec = .attested ∨ s.wh.sec = .ownerDebug then .sealed else s.wh.sec) ∧ t.debug = 0 ∧
      t.wh.owners = s.wh.owners ∧ t.wh.ownerSlot = s.wh.ownerSlot ∧ t.wh.destroyed = s.wh.destroyed ∧ (∀ j : Fin 32, vget none t.wh.keys j = none) ∧
      t.wh.bootSec = t.wh.sec ∧ t.wh.bootDestroyed = s.wh.destroyed ∧
      (SMap.wf 0 s.streams = true → ∀ e, SMap.get 0 t.streams e = setEntField (SMap.get 0 s.streams e) 0 1 0) ∧
      t.jvk.floors = s.jvk.floors ∧ t.jvk.flashDefault = s.jvk.flashDefault ∧ t.jvk.flashFw = s.jvk.flashFw ∧ t.jvk.flashFwValid = s.jvk.flashFwValid ∧
      t.jvk.staged = none ∧ t.image = none ∧ t.hbm.flashRoster = s.hbm.flashRoster ∧ t.lnk.portRecord = s.lnk.portRecord ∧ t.lnk.inc = s.lnk.inc ∧
      t.weir.flashTrim = s.weir.flashTrim ∧ t.lnk.pos = pos.toNat ∧ t.hif = { split := split } ∧
      (∀ a, SMap.get 0 t.mem.bytes a = if s.region a = .host then SMap.get 0 s.mem.bytes a else 0) ∧
      t = { State.reset with pending := s.pending, out := s.out, draws := s.draws, fuses := s.fuses, streams := t.streams, mem := t.mem, hbm := t.hbm,
                             jvk := t.jvk, lnk := t.lnk, gau := t.gau, weir := t.weir, wh := t.wh, hif := t.hif }) ∧
  (∀ (s : State) (pos : BitVec 12) (split : Bool), s.pstate ≠ 4 → s.hif.heldInReset = false → s.resetBusy = false →
    ∃ t, exec (.coldReset true pos split) s = .next t ∧ t.image = none ∧ t.hif = { split := split } ∧ t.fuses = s.fuses ∧ t.lnk.pos = pos.toNat ∧
      t.jvk.floors = s.jvk.floors ∧ t.regs = []) ∧
  (∀ (s : State), ∀ i ∈ ([.refclkLoss, .railFault] : List Instr),
    ∃ t, exec i s = .next t ∧ t.hif.heldInReset = true ∧ t.image = none ∧ t.fuses = s.fuses ∧ t.regs = [] ∧ t.jvk.floors = s.jvk.floors) ∧
  (∀ (s : State) (pos : BitVec 12) (split : Bool), s.hif.heldInReset = true →
    ∃ t, exec (.refclkReturn pos split) s = .next t ∧ t.hif = { split := split } ∧ t.lnk.pos = pos.toNat ∧ t.fuses = s.fuses) ∧
  (∀ (s : State) (pos : BitVec 12) (split : Bool), s.hif.heldInReset = false → exec (.refclkReturn pos split) s = .next s) ∧
  (∀ (c : Instr) (s : State), s.answers = false → c.coldResets = false → (∀ p, c ≠ .portSignalLoss p ∧ c ≠ .portSignalDetect p) → exec c s = .next s)

/-- R412, R280, R588, R643, R668: training during boot. A channel that fails training takes the next map-out number, and
the roster in flash records it (the latter the model's choice, log 26). -/
def Obligations.TrainingAtBoot : Prop :=
  (∀ (s : State) (failed : List (Fin 384)), s.booting = true → s.hif.hbmTrained = false →
    ∃ t, exec (.hbmTrained failed) s = .next t ∧ t.hif.hbmTrained = true ∧ t.hif.fwVerified = true ∧ t.hbm.trained = true ∧
      t.lnk.inc = (if s.hif.fwVerified then s.lnk.inc else (s.lnk.inc + 1) % 65536) ∧
      (∀ c : Fin 384, vget .live t.hbm.roster c = if s.fuses.variant.nfit / 2 ≤ c.val then .absent else if c.val ∈ t.hbm.outs then .out else .live) ∧
      t.hbm.outs.length ≤ 16 ∧ (∀ c ∈ t.hbm.outs, c ∈ s.hbm.flashRoster.map Prod.fst ∨ c ∈ failed.map Fin.val) ∧
      t.hbm.flashRoster = t.hbm.outs.zipIdx ∧
      (s.hbm.flashRoster.length + failed.length ≤ 16 →
        (∀ c ∈ s.hbm.flashRoster.map Prod.fst, c ∈ t.hbm.outs) ∧ (∀ c ∈ failed, c.val < s.fuses.variant.nfit / 2 → c.val ∈ t.hbm.outs)) ∧
      t.hif.deepTrained = (s.hif.deepTrained || decide (s.fuses.variant = .m)) ∧
      t = { s with hif := t.hif, hbm := t.hbm, lnk := { s.lnk with inc := t.lnk.inc } }) ∧
  (∀ (s : State) (gib : Option (Fin 257)), s.booting = true → s.hif.hbmTrained = true → s.hif.deepTrained = false →
    exec (.deepTrained gib) s = .next { s with hif := { s.hif with deepTrained := true },
                                               hbm := { s.hbm with deepGiB := 8 * Nat.min 256 ((gib.map Fin.val).getD 0) } }) ∧
  (∀ (s : State) (failed : List (Fin 384)) (gib : Option (Fin 257)), s.booting = false →
    exec (.hbmTrained failed) s = .next s ∧ exec (.deepTrained gib) s = .next s)

/-- R541, R589, R591, R592, Tables 14.7, 16.7 and 16.8: resets short of cold reset. -/
def Obligations.WarmDeviceAndCoveResets : Prop :=
  (∀ (s : State), s.resetsFree = true →
    ∃ t, exec .warmReset s = .next t ∧ t.hif.running = some ⟨.warm, 0, s.now⟩ ∧ t.hif.lastKind = 2 ∧ t.hif.lastStatus = 0 ∧ t.image = s.image ∧
      (∀ j : Fin 32, vget none t.wh.keys j = none) ∧ t.wh.sec = (if s.wh.sec = .attested then .sealed else s.wh.sec) ∧ t.debug = s.debug ∧
      (∀ i : Fin 128, vget none t.cores i = none) ∧ (∀ i : Fin 32, vget none t.atns i = none) ∧ t.jvk.staged = none ∧ t.fuses = s.fuses ∧
      t.epochs = s.epochs) ∧
  (∀ (s : State), s.pstate ≠ 4 → s.hif.heldInReset = false → s.stopped = false → (∀ r, s.hif.running = some r → r.kind ≠ .warm) →
    ∃ t, exec .perst s = .next t ∧ t.hif.running = some ⟨.warm, 0, s.now⟩ ∧ t.image = s.image ∧ (∀ j : Fin 32, vget none t.wh.keys j = none) ∧
      (∀ i : Fin 128, vget none t.cores i = none)) ∧
  (∀ (s : State), s.resetsFree = true → s.jvk.running = none → ∀ i ∈ ([.deviceReset, .flr 0] : List Instr),
    ∃ t, exec i s = .next t ∧ t.hif.running = some ⟨.device, 0, s.now⟩ ∧ t.image = s.image ∧
      t.epochs = s.epochs.map (fun e => (e + 1) % 0x1000000000000) ∧ t.arrival = [] ∧ (∀ j : Fin 32, vget none t.wh.keys j = none) ∧
      (∀ (c : Fin 8) (o : Fin 16384), (t.obj c o).word.state = .free) ∧ (∀ i : Fin 128, vget none t.cores i = none) ∧ t.fuses = s.fuses) ∧
  (∀ (s : State) (c : Fin 8), s.resetsFree = true → s.jvk.running = none → ∀ i ∈ ([.coveReset (BitVec.ofNat 8 c), .flr c.succ] : List Instr),
    ∃ t, exec i s = .next t ∧ t.hif.running = some ⟨.cove, c, s.now⟩ ∧ t.image = s.image ∧
      (∀ d : Fin 8, vget 0 t.epochs d = if d = c then (vget 0 s.epochs d + 1) % 0x1000000000000 else vget 0 s.epochs d) ∧
      (∀ j : Fin 32, vget none t.wh.keys j = if (vget none s.wh.keys j).any (fun k => decide (k.cove = c.val)) then none else vget none s.wh.keys j) ∧
      (∀ o : Fin 16384, (t.obj c o).word.state = .free) ∧ (∀ i : Fin 128, ∀ r, vget none t.cores i = some r → r.cove ≠ c.val) ∧ t.fuses = s.fuses) ∧
  (∀ (s : State), s.pstate ≠ 4 → s.hif.heldInReset = false → s.resetBusy = true →
    exec .warmReset s = .next { s with hif := { s.hif with lastKind := 2, lastStatus := 0x01 } } ∧
    exec .deviceReset s = .next { s with hif := { s.hif with lastKind := 3, lastStatus := 0x01 } } ∧
    (∀ b, exec (.coveReset b) s = .next { s with hif := { s.hif with lastKind := 4, lastStatus := 0x01 } }) ∧
    (∀ b, exec (.engineReset b) s = .next { s with hif := { s.hif with lastKind := 5, lastStatus := 0x01 } }) ∧
    (∀ b, exec (.portReset b) s = .next { s with hif := { s.hif with lastKind := 6, lastStatus := 0x01 } })) ∧
  (∀ (s : State), s.pstate ≠ 4 → s.hif.heldInReset = false → s.resetBusy = false → s.stopped = true →
    exec .warmReset s = .next { s with hif := { s.hif with lastKind := 2, lastStatus := 0x08 } } ∧
    exec .deviceReset s = .next { s with hif := { s.hif with lastKind := 3, lastStatus := 0x08 } } ∧
    exec .perst s = .next s ∧ (∀ f, exec (.flr f) s = .next s)) ∧
  (∀ (s : State) (seven : Bool), s.pstate ≠ 4 → s.hif.heldInReset = false →
    exec (.resetReqRefused seven) s = .next { s with hif := { s.hif with lastKind := if seven then 7 else 0, lastStatus := 0x0D } })

/-- R589, R593, R594: engine and port resets, and the end of a reset. -/
def Obligations.EngineAndPortResets : Prop :=
  (∀ (s : State) (b : Byte), s.resetsFree = true → (b.toNat ≤ 0xD1 ∨ 0xD4 ≤ b.toNat ∧ b.toNat ≤ 0xD7) →
    exec (.engineReset b) s = .next { s with hif := { s.hif with lastKind := 5, lastStatus := 0, running := some ⟨.engine, b.toNat, s.now⟩ } }) ∧
  (∀ (s : State) (b : Byte), s.resetsFree = true → ¬ (b.toNat ≤ 0xD1 ∨ 0xD4 ≤ b.toNat ∧ b.toNat ≤ 0xD7) →
    exec (.engineReset b) s = .next { s with hif := { s.hif with lastKind := 5, lastStatus := 0x0D } }) ∧
  (∀ (s : State) (b : Byte), s.resetsFree = true → b.toNat < s.portCount → b.toNat < 36 → (s.port b.toNat).state ≠ .off → (s.port b.toNat).state ≠ .out →
    ∃ t, exec (.portReset b) s = .next t ∧ (t.port b.toNat).state ≠ .up ∧ t.hif.lastKind = 6 ∧ t.hif.lastStatus = 0 ∧
      t.flagBit (blkHIF + 0x10) 0 = true ∧ t.image = s.image ∧ t.mem = s.mem) ∧
  (∀ (s : State), s.hif.running = none → exec .resetDone s = .next s) ∧
  (∀ (s : State) (r : ResetRun), s.answers = true → s.hif.running = some r → r.kind = .engine → s.hif.waitingResets = [] →
    (s.engineWorks r.target = true → s.now < r.since + 1000000 → exec .resetDone s = .next s) ∧
    (s.engineWorks r.target = false ∨ r.since + 1000000 ≤ s.now →
      ∃ t, exec .resetDone s = .next t ∧ t.hif.running = none ∧ t.hif.lastKind = 5 ∧
        t.hif.lastStatus = (if s.engineWorks r.target = false then 0x00 else 0x01) ∧ t.flagBit (blkHIF + 0x10) 0 = true ∧
        t = { s with hif := t.hif, flags := t.flags, ctrs := t.ctrs, out := t.out })) ∧
  (∀ (s : State) (r : ResetRun), s.answers = true → s.hif.running = some r → r.kind = .cove → s.hif.waitingResets = [] →
    ∃ t, exec .resetDone s = .next t ∧ t.hif.running = none ∧ t.hif.lastKind = 4 ∧ t.hif.lastStatus = 0 ∧ t.flagBit (blkHIF + 0x10) 0 = true ∧
      t = { s with hif := t.hif, flags := t.flags, ctrs := t.ctrs, out := t.out }) ∧
  (∀ (s : State) (r : ResetRun), s.answers = true → s.hif.running = some r → (r.kind = .warm ∨ r.kind = .device) → s.hif.waitingResets = [] →
    ∃ t, exec .resetDone s = .next t ∧ t.hif.running = none ∧ t.hif.lastKind = (if r.kind = .warm then 2 else 3) ∧ t.hif.lastStatus = 0 ∧
      t.flagBit (blkHIF + 0x10) 0 = true ∧ t.image = s.image ∧ t.mem = s.mem)
end

