-- ==== Sys2Proof/Laws/Guard.lean ====
section
/-! SUPPORT. Sys2Proof/Laws/Guard.lean: what no operation but those named in Sys2Proof/Laws/GuardExec.lean touches: the command
queue, the fuses, the debug level, the class of the security state, the owners' digests and the mark of destroyed secrets. One
lemma for each operation on the state. -/
namespace Sys2Proof.Laws
open Sys2Proof Sys2Proof.Machine

/-- The security states as the invariants tell them apart: SEALED and ATTESTED as one. -/
def secClass : SecState → SecState
  | .attested => .sealed
  | x => x

/-- What the lemmas of this file keep. -/
structure Guard where
  pending : List Instr
  fuses : Fuses
  debug : Nat
  sec : SecState
  owners : Vector (Option (List Byte)) 4
  ownerSlot : Nat
  destroyed : Bool

/-- The part of a state that the lemmas of this file keep. -/
def guard (s : State) : Guard := ⟨s.pending, s.fuses, s.debug, secClass s.wh.sec, s.wh.owners, s.wh.ownerSlot, s.wh.destroyed⟩

/-- An update that leaves the queue, the fuses, the debug level and the Wellhead keeps the view. -/
theorem guard_upd (s : State) (a2 a3 a4 a5 a6 a7 a8 a9 a10 a11 a12 a13 a14 a15 a16 a17 a18 a19 a20 a21 a22 a23 a25 a26 a27 a28 a29 a30 a31 a32 a33 a34 a35 a36 a37 a38 a40) : guard (State.mk s.pending s.fuses a2 a3 a4 a5 a6 a7 a8 a9 a10 a11 a12 a13 a14 a15 a16 a17 a18 a19 a20 a21 a22 a23 s.debug a25 a26 a27 a28 a29 a30 a31 a32 a33 a34 a35 a36 a37 a38 s.wh a40) = guard s := rfl

/-- The same with a Wellhead that has the same class of state and the same owners. -/
theorem guard_updWh (s : State) (w : Wh) (a2 a3 a4 a5 a6 a7 a8 a9 a10 a11 a12 a13 a14 a15 a16 a17 a18 a19 a20 a21 a22 a23 a25 a26 a27 a28 a29 a30 a31 a32 a33 a34 a35 a36 a37 a38 a40)
    (h : (secClass w.sec, w.owners, w.ownerSlot, w.destroyed) = (secClass s.wh.sec, s.wh.owners, s.wh.ownerSlot, s.wh.destroyed)) :
    guard (State.mk s.pending s.fuses a2 a3 a4 a5 a6 a7 a8 a9 a10 a11 a12 a13 a14 a15 a16 a17 a18 a19 a20 a21 a22 a23 s.debug a25 a26 a27 a28 a29 a30 a31 a32 a33 a34 a35 a36 a37 a38 w a40) = guard s := by
  simp only [Prod.mk.injEq] at h
  simp [guard, h]

theorem guard_ite (c : Prop) [Decidable c] (s t : State) : guard (if c then s else t) = if c then guard s else guard t := by
  split <;> rfl

theorem guard_foldl {α : Type} (f : State → α → State) (hf : ∀ s x, guard (f s x) = guard s) (l : List α) (s : State) :
    guard (l.foldl f s) = guard s := by
  induction l generalizing s with
  | nil => rfl
  | cons x l ih => exact (ih _).trans (hf s x)

theorem fst_eq {α β : Type} {p : α × β} {a : α} {b : β} (h : p = (a, b)) : a = p.1 := by rw [h]
theorem snd_eq {α β : Type} {p : α × β} {a : α} {b : β} (h : p = (a, b)) : b = p.2 := by rw [h]

theorem guard_foldl_fst {α β : Type} (f : State × β → α → State × β) (hf : ∀ x a, guard (f x a).1 = guard x.1) (l : List α) (x : State × β) :
    guard (l.foldl f x).1 = guard x.1 := by
  induction l generalizing x with
  | nil => rfl
  | cons a l ih => exact (ih _).trans (hf x a)

theorem guard_setReg (s off w) : guard (State.setReg s off w) = guard s := by
  rfl
theorem guard_bump (s off n) : guard (State.bump s off n) = guard s := by
  rfl
theorem guard_setFlags (s off w) : guard (State.setFlags s off w) = guard s := by
  rfl
theorem guard_whileOn (s f) (hf : ∀ y0, guard (f y0) = guard y0) : guard (State.whileOn s f) = guard s := by
  unfold State.whileOn; simp only [↓guard_ite, ite_self, hf]
theorem guard_unlessHalted (s f) (hf : ∀ y0, guard (f y0) = guard y0) : guard (State.unlessHalted s f) = guard s := by
  unfold State.unlessHalted; simp only [↓guard_ite, ite_self, hf]
theorem guard_emit (s o) : guard (State.emit s o) = guard s := by
  rfl
theorem guard_draw (s) : guard (State.draw s).2 = guard s := by
  rfl
theorem guard_raise (s fn vec) : guard (State.raise s fn vec) = guard s := by
  unfold State.raise; simp only [↓guard_updWh, ↓guard_ite, ite_self, ↓guard_emit, ↓guard_bump]
theorem guard_flushVectors (s fn) : guard (State.flushVectors s fn) = guard s := by
  unfold State.flushVectors; simp only [↓guard_foldl, ↓guard_updWh, ↓guard_ite, ite_self, implies_true, ↓guard_emit, ↓guard_bump]
theorem guard_raiseCove (s c k) : guard (State.raiseCove s c k) = guard s := by
  unfold State.raiseCove; simp only [↓guard_raise]
theorem guard_event (s off i vec) : guard (State.event s off i vec) = guard s := by
  unfold State.event; simp only [↓guard_raise, ↓guard_setFlags]
theorem guard_hifEvent (s i) : guard (State.hifEvent s i) = guard s := by
  unfold State.hifEvent; simp only [↓guard_event]
theorem guard_memEvent (s i) : guard (State.memEvent s i) = guard s := by
  unfold State.memEvent; simp only [↓guard_event]
theorem guard_fltEvent (s i) : guard (State.fltEvent s i) = guard s := by
  unfold State.fltEvent; simp only [↓guard_event]
theorem guard_ripEvent (s i) : guard (State.ripEvent s i) = guard s := by
  unfold State.ripEvent; simp only [↓guard_event]
theorem guard_queueFlag (s c off i) : guard (State.queueFlag s c off i) = guard s := by
  unfold State.queueFlag; simp only [↓guard_raiseCove, ↓guard_setFlags]
theorem guard_faultLog (s kind unit st cove addr info) : guard (State.faultLog s kind unit st cove addr info) = guard s := by
  unfold State.faultLog; simp only [↓guard_updWh, ↓guard_ite, ite_self, ↓guard_bump, ↓guard_fltEvent]
theorem guard_noteStatus (s c st) : guard (State.noteStatus s c st) = guard s := by
  unfold State.noteStatus; simp only [↓guard_updWh, ↓guard_ite, ite_self]
theorem guard_ripNotify (s kind) : guard (State.ripNotify s kind) = guard s := by
  unfold State.ripNotify; try simp only [↓guard_ite, ite_self, ↓guard_ripEvent]
  repeat' (split <;> (try dsimp only) <;> (try (rename_i h; obtain rfl := fst_eq h)) <;> (try (rename_i h; obtain rfl := snd_eq h)) <;> (try simp only [↓guard_upd, ↓guard_foldl, ↓guard_updWh, ↓guard_ite, ite_self, implies_true, ↓guard_ripEvent]))
theorem guard_ripClose (s) : guard (State.ripClose s) = guard s := by
  unfold State.ripClose; try simp only [↓guard_updWh]
  repeat' (split <;> (try dsimp only) <;> (try (rename_i h; obtain rfl := fst_eq h)) <;> (try (rename_i h; obtain rfl := snd_eq h)) <;> (try simp only [↓guard_updWh, ↓guard_ripNotify]))
theorem guard_ripEnter (s r) : guard (State.ripEnter s r) = guard s := by
  unfold State.ripEnter; try simp only [↓guard_updWh, ↓guard_ite, ite_self, ↓guard_ripEvent, ↓guard_bump]
  repeat' (split <;> (try dsimp only) <;> (try (rename_i h; obtain rfl := fst_eq h)) <;> (try (rename_i h; obtain rfl := snd_eq h)) <;> (try simp only [↓guard_upd, ↓guard_foldl, ↓guard_updWh, ↓guard_ite, ite_self, implies_true, ↓guard_ripEvent, ↓guard_bump]))
theorem guard_ripple (s kind st cove key value) : guard (State.ripple s kind st cove key value) = guard s := by
  unfold State.ripple; try simp only [↓guard_ite]
  repeat' (split <;> (try dsimp only) <;> (try (rename_i h; obtain rfl := fst_eq h)) <;> (try (rename_i h; obtain rfl := snd_eq h)) <;> (try simp only [↓guard_updWh, ↓guard_ite, ite_self, ↓guard_bump, ↓guard_ripEnter, ↓guard_ripNotify]))
theorem guard_writeGranule (s code dpa bs) : guard (State.writeGranule s code dpa bs).1 = guard s := by
  unfold State.writeGranule; try simp only
  repeat' (split <;> (try dsimp only) <;> (try (rename_i h; obtain rfl := fst_eq h)) <;> (try (rename_i h; obtain rfl := snd_eq h)) <;> (try simp only [↓guard_updWh]))
theorem guard_watchCheck (s ch) : guard (State.watchCheck s ch) = guard s := by
  unfold State.watchCheck; simp only [↓guard_updWh, ↓guard_ite, ite_self, ↓guard_memEvent]
theorem guard_countCe (s ch n) : guard (State.countCe s ch n) = guard s := by
  unfold State.countCe; simp only [↓guard_updWh, ↓guard_bump, ↓guard_watchCheck]
theorem guard_quarSpoil (s dpa) : guard (State.quarSpoil s dpa) = guard s := by
  rfl
theorem guard_uncorrectable (s code act dpa) : guard (State.uncorrectable s code act dpa) = guard s := by
  unfold State.uncorrectable; try simp only [↓guard_updWh, ↓guard_quarSpoil, ↓guard_bump, ↓guard_ripple, ↓guard_faultLog, ↓guard_watchCheck]
  repeat' (split <;> (try dsimp only) <;> (try (rename_i h; obtain rfl := fst_eq h)) <;> (try (rename_i h; obtain rfl := snd_eq h)) <;> (try simp only [↓guard_upd, ↓guard_foldl, ↓guard_updWh, ↓guard_ite, ite_self, implies_true, ↓guard_quarSpoil, ↓guard_bump, ↓guard_ripple, ↓guard_faultLog, ↓guard_watchCheck]))
theorem guard_readGranule (s code act dpa) : guard (State.readGranule s code act dpa) = guard s := by
  unfold State.readGranule; try simp only [↓guard_ite, ↓guard_bump]
  repeat' (split <;> (try dsimp only) <;> (try (rename_i h; obtain rfl := fst_eq h)) <;> (try (rename_i h; obtain rfl := snd_eq h)) <;> (try simp only [↓guard_updWh, ↓guard_bump, ↓guard_countCe, ↓guard_uncorrectable]))
theorem guard_spend (s res sub act n) : guard (State.spend s res sub act n) = guard s := by
  rfl
theorem guard_undeclared (s res act) : guard (State.undeclared s res act) = guard s := by
  unfold State.undeclared; simp only [↓guard_ite, ite_self, ↓guard_bump]
theorem guard_charge (s res sub act n) : guard (State.charge s res sub act n) = guard s := by
  unfold State.charge; try simp only [↓guard_spend, ↓guard_undeclared]
  repeat' (split <;> (try dsimp only) <;> (try (rename_i h; obtain rfl := fst_eq h)) <;> (try (rename_i h; obtain rfl := snd_eq h)) <;> (try simp only [↓guard_upd, ↓guard_foldl, ↓guard_updWh, ↓guard_ite, ite_self, implies_true, ↓guard_spend, ↓guard_undeclared]))
theorem guard_evalWatch (s w) : guard (State.evalWatch s w) = guard s := by
  unfold State.evalWatch; simp only [↓guard_updWh, ↓guard_ite, ite_self, ↓guard_raise]
theorem guard_evalWatches (s i) : guard (State.evalWatches s i) = guard s := by
  unfold State.evalWatches; simp only [↓guard_foldl, implies_true, ↓guard_evalWatch]
theorem guard_incArrival (s i) : guard (State.incArrival s i) = guard s := by
  unfold State.incArrival; simp only [↓guard_updWh, ↓guard_evalWatches]
theorem guard_applyDone (s field) : guard (State.applyDone s field) = guard s := by
  unfold State.applyDone; simp only [↓guard_ite, ite_self, ↓guard_incArrival]
theorem guard_modNode (s n f) : guard (State.modNode s n f) = guard s := by
  rfl
theorem guard_issueRemote (s l) : guard (State.issueRemote s l) = guard s := by
  unfold State.issueRemote; simp only [↓guard_updWh, ↓guard_ite, ite_self]
theorem guard_remoteLoads (s c act va n) : guard (State.remoteLoads s c act va n) = guard s := by
  unfold State.remoteLoads; simp only [↓guard_foldl, implies_true, ↓guard_issueRemote, ↓guard_modNode]
theorem guard_remoteStores (s c act va bs) : guard (State.remoteStores s c act va bs) = guard s := by
  unfold State.remoteStores; simp only [↓guard_issueRemote]
theorem guard_chargeHbm (s c act k ps) : guard (State.chargeHbm s c act k ps) = guard s := by
  unfold State.chargeHbm; simp only [↓guard_ite, ite_self, ↓guard_charge]
theorem guard_dtuFault (s c unit va cause) : guard (State.dtuFault s c unit va cause) = guard s := by
  unfold State.dtuFault; try simp only [↓guard_updWh, ↓guard_ite, ite_self, ↓guard_bump, ↓guard_raiseCove, ↓guard_setFlags]
  repeat' (split <;> (try dsimp only) <;> (try (rename_i h; obtain rfl := fst_eq h)) <;> (try (rename_i h; obtain rfl := snd_eq h)) <;> (try simp only [↓guard_upd, ↓guard_foldl, ↓guard_updWh, ↓guard_ite, ite_self, implies_true, ↓guard_bump, ↓guard_raiseCove, ↓guard_setFlags]))
theorem guard_accErr (s c unit act va x5) : guard (State.accErr s c unit act va x5) = guard s := by
  unfold State.accErr; try simp only
  repeat' (split <;> (try dsimp only) <;> (try (rename_i h; obtain rfl := fst_eq h)) <;> (try (rename_i h; obtain rfl := snd_eq h)) <;> (try simp only [↓guard_dtuFault, ↓guard_hifEvent, ↓guard_bump, ↓guard_readGranule, ↓guard_ripple, ↓guard_faultLog]))
theorem guard_readPieces (s c unit act l) : guard (State.readPieces s c unit act l) = guard s := by
  induction l generalizing s with
  | nil => rfl
  | cons p ps ih =>
    unfold State.readPieces
    split
    · exact guard_accErr ..
    · split
      · rfl
      · exact ih s
    · dsimp only
      split
      · exact guard_readGranule ..
      · exact (ih _).trans (guard_readGranule ..)

theorem guard_touch (s c unit act va n) : guard (State.touch s c unit act va n) = guard s :=
  (guard_remoteLoads ..).trans ((guard_readPieces ..).trans ((guard_chargeHbm ..).trans (guard_bump ..)))

theorem guard_mergeRead (s c act a n) : guard (State.mergeRead s c act a n) = guard s := by
  unfold State.mergeRead
  split
  · exact guard_readGranule ..
  · rfl

theorem guard_holdWrite (s c act va bs) : guard (State.holdWrite s c act va bs) = guard s := by
  rfl
theorem guard_writePiece (s c unit act va n bs) : guard (State.writePiece s c unit act va n bs).1 = guard s := by
  unfold State.writePiece
  split
  · exact guard_accErr ..
  · rfl
  · split
    · exact guard_holdWrite ..
    · split
      rename_i h
      dsimp only
      rw [fst_eq h, guard_writeGranule, guard_mergeRead]

theorem guard_writePieces (s c unit act l bs) : guard (State.writePieces s c unit act l bs).1 = guard s := by
  induction l generalizing s bs with
  | nil => rfl
  | cons p ps ih =>
    unfold State.writePieces
    split
    rename_i h
    have h1 := (congrArg guard (fst_eq h)).trans (guard_writePiece ..)
    split
    · exact h1
    · exact (ih _ _).trans h1

theorem guard_poke (s c unit act va bs) : guard (State.poke s c unit act va bs).1 = guard s := by
  unfold State.poke
  extract_lets n pages
  split
  rename_i h
  dsimp only
  rw [guard_remoteStores, fst_eq h, guard_writePieces, guard_chargeHbm, guard_bump]

theorem guard_atomicAt (s code act dpa aop len operand) : guard (State.atomicAt s code act dpa aop len operand).1 = guard s := by
  unfold State.atomicAt
  extract_lets s1
  have h1 : guard s1 = guard s := by
    show guard (State.readGranule _ _ _ _) = _
    rw [guard_readGranule, guard_ite, guard_charge, ite_self]
  split
  · exact h1
  · split
    rename_i h
    rw [guard_bump, fst_eq h, guard_writeGranule, h1]

theorem guard_sset (s i off n v) : guard (State.sset s i off n v) = guard s := by
  rfl
theorem guard_setSx (s i f) : guard (State.setSx s i f) = guard s := by
  rfl
theorem guard_setSState (s i x) : guard (State.setSState s i x) = guard s := by
  rfl
theorem guard_addShare (s c pool key n) : guard (State.addShare s c pool key n) = guard s := by
  rfl
theorem guard_addShares (s c pool keys) : guard (State.addShares s c pool keys) = guard s := by
  unfold State.addShares; simp only [↓guard_foldl, implies_true, ↓guard_addShare]
theorem guard_put (s c unit va n v) : guard (State.put s c unit va n v) = guard s := by
  unfold State.put; simp only [↓guard_poke]
theorem guard_endAtPost (s c unit hdr h st) : guard (State.endAtPost s c unit hdr h st) = guard s := by
  unfold State.endAtPost; try simp only [↓guard_applyDone, ↓guard_noteStatus, ↓guard_put]
  repeat' (split <;> (try dsimp only) <;> (try (rename_i h; obtain rfl := fst_eq h)) <;> (try (rename_i h; obtain rfl := snd_eq h)) <;> (try simp only [↓guard_upd, ↓guard_foldl, ↓guard_updWh, ↓guard_ite, ite_self, implies_true, ↓guard_applyDone, ↓guard_noteStatus, ↓guard_put]))
theorem guard_postPond (s c hdr) : guard (State.postPond s c hdr) = guard s := by
  unfold State.postPond; try simp only [↓guard_ite, ↓guard_queueFlag]
  repeat' (first | (refine (guard_foldl _ (fun s x => ?_) _ _).trans ?_) | (split <;> (try dsimp only) <;> (try (rename_i h; obtain rfl := fst_eq h)) <;> (try (rename_i h; obtain rfl := snd_eq h)))) <;> (try simp only [↓guard_updWh, ↓guard_queueFlag, ↓guard_touch, ↓guard_endAtPost, ↓guard_put])
theorem guard_claimFrom (s c unit engine l) : guard (State.claimFrom s c unit engine l).1 = guard s := by
  induction l generalizing s with
  | nil => rfl
  | cons w ws ih =>
    unfold State.claimFrom
    split
    · exact ih s
    · split
      · exact ih s
      · dsimp only
        split
        · exact guard_put ..
        · exact (ih _).trans (guard_put ..)

theorem guard_setCore (s core r) : guard (State.setCore s core r) = guard s := by
  rfl
theorem guard_startError (s core r va n e) : guard (State.startError s core r va n e) = guard s := by
  unfold State.startError; try simp only
  repeat' (split <;> (try dsimp only) <;> (try (rename_i h; obtain rfl := fst_eq h)) <;> (try (rename_i h; obtain rfl := snd_eq h)) <;> (try simp only [↓guard_setCore]))
theorem guard_readRung (s unit on hdr r) : guard (State.readRung s unit on hdr r).1 = guard s := by
  unfold State.readRung; try simp only
  repeat' (split <;> (try dsimp only) <;> (try (rename_i h; obtain rfl := fst_eq h)) <;> (try (rename_i h; obtain rfl := snd_eq h)) <;> (try simp only [↓guard_touch]))
theorem guard_tileStart (s core r) : guard (State.tileStart s core r) = guard s := by
  unfold State.tileStart; try simp only
  repeat' (split <;> (try dsimp only) <;> (try (rename_i h; obtain rfl := fst_eq h)) <;> (try (rename_i h; obtain rfl := snd_eq h)) <;> (try simp only [↓guard_touch, ↓guard_startError, ↓guard_setCore, ↓guard_readRung]))
theorem guard_tileClaim (s core) : guard (State.tileClaim s core) = guard s := by
  unfold State.tileClaim; try simp only [↓guard_upd, ↓guard_foldl, ↓guard_updWh, ↓guard_ite, ite_self, implies_true, ↓guard_claimFrom, ↓guard_tileStart]
  repeat' (split <;> (try dsimp only) <;> (try (rename_i h; obtain rfl := fst_eq h)) <;> (try (rename_i h; obtain rfl := snd_eq h)) <;> (try simp only [↓guard_ite, ↓guard_claimFrom, ↓guard_tileStart]))
theorem guard_touchRows (s c unit f addr ld k0 k1 rows) : guard (State.touchRows s c unit f addr ld k0 k1 rows) = guard s := by
  unfold State.touchRows; simp only [↓guard_foldl, implies_true, ↓guard_touch]
theorem guard_modList (s c hdr f) : guard (State.modList s c hdr f) = guard s := by
  rfl
theorem guard_endOfPass (s c hdr pass) : guard (State.endOfPass s c hdr pass) = guard s := by
  unfold State.endOfPass; try simp only
  repeat' (split <;> (try dsimp only) <;> (try (rename_i h; obtain rfl := fst_eq h)) <;> (try (rename_i h; obtain rfl := snd_eq h)) <;> (try simp only [↓guard_ite, ite_self, ↓guard_put, ↓guard_bump, ↓guard_ripple, ↓guard_modList]))
theorem guard_endTile (s core r st) : guard (State.endTile s core r st) = guard s := by
  unfold State.endTile; try simp only
  repeat' (first | (refine (guard_foldl _ (fun s x => ?_) _ _).trans ?_) | (split <;> (try dsimp only) <;> (try (rename_i h; obtain rfl := fst_eq h)) <;> (try (rename_i h; obtain rfl := snd_eq h)))) <;> (try simp only [↓guard_updWh, ↓guard_ite, ite_self, ↓guard_noteStatus, ↓guard_bump, ↓guard_modList, ↓guard_put, ↓guard_endOfPass])
theorem guard_pokeAll (s c unit l) : guard (State.pokeAll s c unit l) = guard s := by
  induction l generalizing s with
  | nil => rfl
  | cons w ws ih => exact (ih _).trans (guard_poke ..)

theorem guard_tileError (s core r va e) : guard (State.tileError s core r va e) = guard s := by
  unfold State.tileError; try simp only
  repeat' (split <;> (try dsimp only) <;> (try (rename_i h; obtain rfl := fst_eq h)) <;> (try (rename_i h; obtain rfl := snd_eq h)) <;> (try simp only [↓guard_updWh, ↓guard_ite, ite_self, ↓guard_accErr, ↓guard_endTile]))
theorem guard_touchTile (s c t d fa ti tj) : guard (State.touchTile s c t d fa ti tj) = guard s := by
  unfold State.touchTile; try simp only [↓guard_foldl, ↓guard_ite, ite_self, implies_true, ↓guard_touch, ↓guard_touchRows]
  repeat' (first | (refine (guard_foldl _ (fun s x => ?_) _ _).trans ?_) | (split <;> (try dsimp only) <;> (try (rename_i h; obtain rfl := fst_eq h)) <;> (try (rename_i h; obtain rfl := snd_eq h)))) <;> (try simp only [↓guard_upd, ↓guard_foldl, ↓guard_updWh, ↓guard_ite, ite_self, implies_true, ↓guard_touch, ↓guard_touchRows])
theorem guard_tileShares (s r rows replayRows) : guard (State.tileShares s r rows replayRows) = guard s := by
  unfold State.tileShares
  simp only [guard_ite, guard_addShares, ite_self]

theorem guard_tileCounts (s r o replayed intSat trips) : guard (State.tileCounts s r o replayed intSat trips) = guard s := by
  unfold State.tileCounts
  simp only [guard_ite, guard_put, guard_bump, ite_self]

theorem guard_tileFinish (s core r t o replayed intRows) : guard (State.tileFinish s core r t o replayed intRows) = guard s := by
  unfold State.tileFinish
  extract_lets c d nt ti tj f
  split
  · exact guard_tileError ..
  · exact guard_endTile ..
  · extract_lets w ws s1 s2 s3 s4
    split
    · exact guard_tileError ..
    · simp only [s4, s3, s2, s1, guard_endTile, guard_modList, guard_tileCounts, guard_tileShares, guard_pokeAll, guard_touchTile]

theorem guard_tilePassEnd (s core) : guard (State.tilePassEnd s core) = guard s := by
  unfold State.tilePassEnd
  split
  · rfl
  · split
    · exact guard_endTile ..
    · split
      · rfl
      · split
        · exact guard_endTile ..
        · split
          · exact guard_endTile ..
          · split
            · exact guard_tileError ..
            · exact guard_endTile ..
            · exact guard_tileFinish ..

theorem guard_tileRestart (s core) : guard (State.tileRestart s core) = guard s := by
  unfold State.tileRestart; try simp only
  repeat' (split <;> (try dsimp only) <;> (try (rename_i h; obtain rfl := fst_eq h)) <;> (try (rename_i h; obtain rfl := snd_eq h)) <;> (try simp only [↓guard_ite, ite_self, ↓guard_bump, ↓guard_tileStart, ↓guard_setCore]))
theorem guard_completeDesc (s c rung l x) : guard (State.completeDesc s c rung l x) = guard s := by
  unfold State.completeDesc; try simp only
  repeat' (first | (refine (guard_foldl _ (fun s x => ?_) _ _).trans ?_) | (split <;> (try dsimp only) <;> (try (rename_i h; obtain rfl := fst_eq h)) <;> (try (rename_i h; obtain rfl := snd_eq h)))) <;> (try simp only [↓guard_ite, ite_self, ↓guard_put, ↓guard_ripple, ↓guard_bump])
theorem guard_completeList (s c l h) : guard (State.completeList s c l h) = guard s := by
  unfold State.completeList
  extract_lets s1 s2
  have h1 : guard s1 = guard s := guard_foldl _ (fun s x => guard_completeDesc ..) _ _
  have h2 : guard s2 = guard s1 := guard_foldl _ (fun s x => by split <;> first | exact guard_applyDone .. | rfl) _ _
  rw [guard_applyDone, guard_noteStatus, guard_put, h2, h1]

theorem guard_pondComplete (s c) : guard (State.pondComplete s c) = guard s := by
  unfold State.pondComplete; try simp only
  repeat' (first | (refine (guard_foldl _ (fun s x => ?_) _ _).trans ?_) | (split <;> (try dsimp only) <;> (try (rename_i h; obtain rfl := fst_eq h)) <;> (try (rename_i h; obtain rfl := snd_eq h)))) <;> (try simp only [↓guard_updWh, ↓guard_completeList])
theorem guard_postAttn (s c hdr) : guard (State.postAttn s c hdr) = guard s := by
  unfold State.postAttn; try simp only [↓guard_ite, ↓guard_queueFlag]
  repeat' (split <;> (try dsimp only) <;> (try (rename_i h; obtain rfl := fst_eq h)) <;> (try (rename_i h; obtain rfl := snd_eq h)) <;> (try simp only [↓guard_updWh, ↓guard_queueFlag, ↓guard_touch, ↓guard_endAtPost]))
theorem guard_setAtn (s e r) : guard (State.setAtn s e r) = guard s := by
  rfl
theorem guard_unitStartError (s e r va n er) : guard (State.unitStartError s e r va n er) = guard s := by
  unfold State.unitStartError; try simp only
  repeat' (split <;> (try dsimp only) <;> (try (rename_i h; obtain rfl := fst_eq h)) <;> (try (rename_i h; obtain rfl := snd_eq h)) <;> (try simp only [↓guard_ite, ite_self, ↓guard_setAtn, ↓guard_bump]))
theorem guard_unitStart (s e r) : guard (State.unitStart s e r) = guard s := by
  unfold State.unitStart; try simp only
  repeat' (split <;> (try dsimp only) <;> (try (rename_i h; obtain rfl := fst_eq h)) <;> (try (rename_i h; obtain rfl := snd_eq h)) <;> (try simp only [↓guard_touch, ↓guard_unitStartError, ↓guard_setAtn, ↓guard_readRung]))
theorem guard_unitClaim (s e) : guard (State.unitClaim s e) = guard s := by
  unfold State.unitClaim; try simp only [↓guard_upd, ↓guard_foldl, ↓guard_updWh, ↓guard_ite, ite_self, implies_true, ↓guard_claimFrom, ↓guard_unitStart]
  repeat' (split <;> (try dsimp only) <;> (try (rename_i h; obtain rfl := fst_eq h)) <;> (try (rename_i h; obtain rfl := snd_eq h)) <;> (try simp only [↓guard_ite, ↓guard_claimFrom, ↓guard_unitStart]))
theorem guard_countCache (s c e) : guard (State.countCache s c e) = guard s := by
  rfl
theorem guard_touchUnit (s c l) : guard (State.touchUnit s c l) = guard s := by
  unfold State.touchUnit; simp only [↓guard_foldl, implies_true, ↓guard_touch]
theorem guard_modAtn (s c hdr f) : guard (State.modAtn s c hdr f) = guard s := by
  rfl
theorem guard_countUnit (s e r st) : guard (State.countUnit s e r st) = guard s := by
  unfold State.countUnit; try simp only
  repeat' (split <;> (try dsimp only) <;> (try (rename_i h; obtain rfl := fst_eq h)) <;> (try (rename_i h; obtain rfl := snd_eq h)) <;> (try simp only [↓guard_updWh, ↓guard_ite, ite_self, ↓guard_bump, ↓guard_noteStatus, ↓guard_modAtn, ↓guard_put]))
theorem guard_addCtr (s c addr v) : guard (State.addCtr s c addr v).1 = guard s := by
  unfold State.addCtr; try simp only [↓guard_upd, ↓guard_foldl, ↓guard_updWh, ↓guard_ite, ite_self, implies_true, ↓guard_accErr, ↓guard_poke]
  repeat' (split <;> (try dsimp only) <;> (try (rename_i h; obtain rfl := fst_eq h)) <;> (try (rename_i h; obtain rfl := snd_eq h)) <;> (try simp only [↓guard_accErr, ↓guard_poke]))
theorem guard_poisonEnd (s c st) : guard (State.poisonEnd s c st) = guard s := by
  unfold State.poisonEnd; simp only [↓guard_ite, ite_self, ↓guard_bump]
theorem guard_unitWrites (s c w) : guard (State.unitWrites s c w).1 = guard s := by
  unfold State.unitWrites; try simp only [↓guard_upd, ↓guard_foldl, ↓guard_updWh, ↓guard_ite, ite_self, implies_true, ↓guard_accErr, ↓guard_countCache, ↓guard_pokeAll]
  repeat' (split <;> (try dsimp only) <;> (try (rename_i h; obtain rfl := fst_eq h)) <;> (try (rename_i h; obtain rfl := snd_eq h)) <;> (try simp only [↓guard_accErr, ↓guard_countCache, ↓guard_pokeAll]))
theorem guard_splitStep (s c x a kvh rb ok) : guard (State.splitStep s c x a kvh rb ok).1 = guard s := by
  unfold State.splitStep; try simp only
  repeat' (split <;> (try dsimp only) <;> (try (rename_i h; obtain rfl := fst_eq h)) <;> (try (rename_i h; obtain rfl := snd_eq h)) <;> (try simp only [↓guard_addCtr, ↓guard_unitWrites]))
theorem guard_appendStep (s c x a new kvh) : guard (State.appendStep s c x a new kvh).1 = guard s := by
  unfold State.appendStep; try simp only
  repeat' (split <;> (try dsimp only) <;> (try (rename_i h; obtain rfl := fst_eq h)) <;> (try (rename_i h; obtain rfl := snd_eq h)) <;> (try simp only [↓guard_ite, ite_self, ↓guard_addCtr, ↓guard_unitWrites, ↓guard_bump]))
theorem guard_closeForward (s e r a st) : guard (State.closeForward s e r a st) = guard s := by
  unfold State.closeForward; try simp only [↓guard_splitStep, ↓guard_appendStep, ↓guard_poisonEnd, ↓guard_countUnit]
  repeat' (split <;> (try dsimp only) <;> (try (rename_i h; obtain rfl := fst_eq h)) <;> (try (rename_i h; obtain rfl := snd_eq h)) <;> (try simp only [↓guard_upd, ↓guard_foldl, ↓guard_updWh, ↓guard_ite, ite_self, implies_true, ↓guard_splitStep, ↓guard_appendStep, ↓guard_poisonEnd, ↓guard_countUnit]))
theorem guard_closeUnit (s e r a st) : guard (State.closeUnit s e r a st) = guard s := by
  unfold State.closeUnit; simp only [↓guard_ite, ite_self, ↓guard_countUnit, ↓guard_closeForward]
theorem guard_chargeUnit (s r a) : guard (State.chargeUnit s r a) = guard s := by
  rfl
theorem guard_unitError (s e r a va er) : guard (State.unitError s e r a va er) = guard s := by
  unfold State.unitError; try simp only
  repeat' (split <;> (try dsimp only) <;> (try (rename_i h; obtain rfl := fst_eq h)) <;> (try (rename_i h; obtain rfl := snd_eq h)) <;> (try simp only [↓guard_ite, ite_self, ↓guard_accErr, ↓guard_setAtn, ↓guard_closeUnit, ↓guard_poisonEnd, ↓guard_chargeUnit]))
theorem guard_meetFaults (s r regions) : guard (State.meetFaults s r regions) = guard s := by
  rfl
theorem guard_unitFinish (s e r a reads w special faults count) (hcount : ∀ y0, guard (count y0) = guard y0) : guard (State.unitFinish s e r a reads w special faults count) = guard s := by
  unfold State.unitFinish; try simp only
  repeat' (split <;> (try dsimp only) <;> (try (rename_i h; obtain rfl := fst_eq h)) <;> (try (rename_i h; obtain rfl := snd_eq h)) <;> (try simp only [↓guard_unitError, ↓guard_pokeAll, ↓guard_chargeUnit, ↓guard_touchUnit, ↓guard_meetFaults, ↓guard_bump, ↓guard_closeUnit, hcount]))
theorem guard_runUnit (s e r a) : guard (State.runUnit s e r a) = guard s := by
  unfold State.runUnit; try simp only [↓guard_ite]
  repeat' (split <;> (try dsimp only) <;> (try (rename_i h; obtain rfl := fst_eq h)) <;> (try (rename_i h; obtain rfl := snd_eq h)) <;> (try simp only [implies_true, ↓guard_unitError, ↓guard_countUnit, ↓guard_chargeUnit, ↓guard_unitFinish, ↓guard_bump, ↓guard_closeForward, ↓guard_countCache]))
theorem guard_unitEnd (s e) : guard (State.unitEnd s e) = guard s := by
  unfold State.unitEnd; try simp only [↓guard_upd, ↓guard_foldl, ↓guard_updWh, ↓guard_ite, ite_self, implies_true, ↓guard_countUnit, ↓guard_closeUnit, ↓guard_poisonEnd, ↓guard_runUnit]
  repeat' (split <;> (try dsimp only) <;> (try (rename_i h; obtain rfl := fst_eq h)) <;> (try (rename_i h; obtain rfl := snd_eq h)) <;> (try simp only [↓guard_ite, ite_self, ↓guard_countUnit, ↓guard_closeUnit, ↓guard_poisonEnd, ↓guard_runUnit]))
theorem guard_unitRestart (s e) : guard (State.unitRestart s e) = guard s := by
  unfold State.unitRestart; try simp only
  repeat' (first | (refine (guard_foldl _ (fun s x => ?_) _ _).trans ?_) | (split <;> (try dsimp only) <;> (try (rename_i h; obtain rfl := fst_eq h)) <;> (try (rename_i h; obtain rfl := snd_eq h)))) <;> (try simp only [↓guard_ite, ite_self, ↓guard_bump, ↓guard_unitStart, ↓guard_setAtn])
theorem guard_completeUnits (s c l) : guard (State.completeUnits s c l) = guard s := by
  unfold State.completeUnits
  extract_lets s1 s2 s3 s4
  have h1 : guard s1 = guard s := guard_foldl _ (fun s x => guard_ripple ..) _ _
  have h2 : guard s2 = guard s1 := guard_foldl _ (fun s x => guard_put ..) _ _
  have h3 : guard s3 = guard s2 := guard_foldl _ (fun s x => by split <;> first | exact guard_applyDone .. | rfl) _ _
  have h4 : guard s4 = guard s3 := (guard_noteStatus ..).trans (guard_put ..)
  split
  · rw [guard_applyDone, h4, h3, h2, h1]
  · rw [h4, h3, h2, h1]

theorem guard_atnComplete (s c) : guard (State.atnComplete s c) = guard s := by
  unfold State.atnComplete; try simp only [↓guard_upd, ↓guard_foldl, ↓guard_updWh, ↓guard_ite, ite_self, implies_true, ↓guard_completeUnits]
  repeat' (first | (refine (guard_foldl _ (fun s x => ?_) _ _).trans ?_) | (split <;> (try dsimp only) <;> (try (rename_i h; obtain rfl := fst_eq h)) <;> (try (rename_i h; obtain rfl := snd_eq h)))) <;> (try simp only [↓guard_updWh, ↓guard_completeUnits])
theorem guard_modPort (s p f) : guard (State.modPort s p f) = guard s := by
  rfl
theorem guard_modConn (s k f) : guard (State.modConn s k f) = guard s := by
  rfl
theorem guard_putWire (s p b) : guard (State.putWire s p b) = guard s := by
  rfl
theorem guard_control (s p k kind fields) : guard (State.control s p k kind fields) = guard s := by
  unfold State.control; try simp only [↓guard_updWh, ↓guard_ite, ite_self, ↓guard_emit, ↓guard_bump, ↓guard_spend, ↓guard_putWire, ↓guard_modConn]
  repeat' (split <;> (try dsimp only) <;> (try (rename_i h; obtain rfl := fst_eq h)) <;> (try (rename_i h; obtain rfl := snd_eq h)) <;> (try simp only [↓guard_upd, ↓guard_foldl, ↓guard_updWh, ↓guard_ite, ite_self, implies_true, ↓guard_emit, ↓guard_bump, ↓guard_spend, ↓guard_putWire, ↓guard_modConn]))
theorem guard_sendIdent (s p k fresh) : guard (State.sendIdent s p k fresh) = guard s := by
  unfold State.sendIdent; simp only [↓guard_ite, ite_self, ↓guard_draw, ↓guard_modConn, ↓guard_control]
theorem guard_lnkEvent (s i) : guard (State.lnkEvent s i) = guard s := by
  unfold State.lnkEvent; simp only [↓guard_event]
theorem guard_freeBlocks (s x1) : guard (State.freeBlocks s x1) = guard s := by
  unfold State.freeBlocks; try simp only
  repeat' (split <;> (try dsimp only) <;> (try (rename_i h; obtain rfl := fst_eq h)) <;> (try (rename_i h; obtain rfl := snd_eq h)) <;> (try simp only [↓guard_ite, ite_self, ↓guard_modPort, ↓guard_modConn]))
theorem guard_noRoute (s node inPort) : guard (State.noRoute s node inPort) = guard s := by
  unfold State.noRoute; simp only [↓guard_updWh, ↓guard_ite, ite_self, ↓guard_bump, ↓guard_freeBlocks, ↓guard_lnkEvent]
theorem guard_enqueue (s p it) : guard (State.enqueue s p it) = guard s := by
  rfl
theorem guard_toEgress (s it front) : guard (State.toEgress s it front) = guard s := by
  unfold State.toEgress; try simp only
  repeat' (split <;> (try dsimp only) <;> (try (rename_i h; obtain rfl := fst_eq h)) <;> (try (rename_i h; obtain rfl := snd_eq h)) <;> (try simp only [↓guard_updWh, ↓guard_ite, ite_self, ↓guard_noRoute, ↓guard_sendIdent, ↓guard_enqueue]))
theorem guard_chargeFrame (s p i) : guard (State.chargeFrame s p i) = guard s := by
  unfold State.chargeFrame; try simp only [↓guard_upd, ↓guard_foldl, ↓guard_updWh, ↓guard_ite, ite_self, implies_true, ↓guard_spend]
  repeat' (split <;> (try dsimp only) <;> (try (rename_i h; obtain rfl := fst_eq h)) <;> (try (rename_i h; obtain rfl := snd_eq h)) <;> (try simp only [↓guard_spend]))
theorem guard_sendOn (s p i) : guard (State.sendOn s p i) = guard s := by
  unfold State.sendOn; try simp only [↓guard_freeBlocks]
  repeat' (split <;> (try dsimp only) <;> (try (rename_i h; obtain rfl := fst_eq h)) <;> (try (rename_i h; obtain rfl := snd_eq h)) <;> (try simp only [↓guard_updWh, ↓guard_modConn, ↓guard_emit, ↓guard_bump, ↓guard_chargeFrame, ↓guard_putWire]))
theorem guard_sendNext (s p) : guard (State.sendNext s p) = guard s := by
  unfold State.sendNext; try simp only
  repeat' (split <;> (try dsimp only) <;> (try (rename_i h; obtain rfl := fst_eq h)) <;> (try (rename_i h; obtain rfl := snd_eq h)) <;> (try simp only [↓guard_updWh, ↓guard_modPort, ↓guard_sendOn]))
theorem guard_ackUpTo (s k ack) : guard (State.ackUpTo s k ack) = guard s := by
  rfl
theorem guard_replayFrom (s p k lsn) : guard (State.replayFrom s p k lsn) = guard s := by
  unfold State.replayFrom; try simp only [↓guard_foldl, implies_true, ↓guard_modConn, ↓guard_bump, ↓guard_chargeFrame, ↓guard_putWire, ↓guard_emit]
  repeat' (first | (refine (guard_foldl _ (fun s x => ?_) _ _).trans ?_) | (split <;> (try dsimp only) <;> (try (rename_i h; obtain rfl := fst_eq h)) <;> (try (rename_i h; obtain rfl := snd_eq h)))) <;> (try simp only [↓guard_upd, ↓guard_foldl, ↓guard_updWh, ↓guard_ite, ite_self, implies_true, ↓guard_modConn, ↓guard_bump, ↓guard_chargeFrame, ↓guard_putWire, ↓guard_emit])
theorem guard_resolve (s k) : guard (State.resolve s k) = guard s := by
  unfold State.resolve; try simp only
  repeat' (first | (refine (guard_foldl _ (fun s x => ?_) _ _).trans ?_) | (split <;> (try dsimp only) <;> (try (rename_i h; obtain rfl := fst_eq h)) <;> (try (rename_i h; obtain rfl := snd_eq h)))) <;> (try simp only [↓guard_ite, ↓guard_modConn, ↓guard_modNode, ↓guard_noRoute, ↓guard_toEgress])
theorem guard_routesChanged (s before) : guard (State.routesChanged s before) = guard s := by
  unfold State.routesChanged
  split
  · rfl
  · refine guard_foldl _ (fun s x => ?_) _ _
    dsimp only
    simp only [guard_ite, guard_modNode, guard_lnkEvent, ↓guard_upd, ite_self]

theorem guard_failConnNow (s p k) : guard (State.failConnNow s p k) = guard s := by
  unfold State.failConnNow; simp only [↓guard_ite, ite_self, ↓guard_modConn, ↓guard_modNode, ↓guard_resolve, ↓guard_toEgress]
theorem guard_failConn (s p k) : guard (State.failConn s p k) = guard s :=
  (guard_routesChanged ..).trans (guard_failConnNow ..)

theorem guard_portTo (s p st) : guard (State.portTo s p st) = guard s := by
  unfold State.portTo
  extract_lets old s1 s2
  have h1 : guard s1 = guard s := guard_modPort ..
  have h2 : guard s2 = guard s := by
    simp only [s2, guard_ite]
    split
    · refine (guard_foldl _ (fun s x => ?_) _ _).trans h1
      simp only [guard_ite, guard_modConn, ite_self]
    · exact h1
  simp only [guard_ite, guard_routesChanged, h2, ite_self]

theorem guard_modFerry (s e f) : guard (State.modFerry s e f) = guard s := by
  rfl
theorem guard_localAct (s e r) : guard (State.localAct s e r) = guard s := by
  unfold State.localAct; try simp only
  repeat' (split <;> (try dsimp only) <;> (try (rename_i h; obtain rfl := fst_eq h)) <;> (try (rename_i h; obtain rfl := snd_eq h)) <;> (try simp only [↓guard_ite, ite_self, ↓guard_modFerry, ↓guard_incArrival, ↓guard_spend, ↓guard_accErr, ↓guard_poke, ↓guard_touch, ↓guard_atomicAt]))
theorem guard_endOwner (s o opc st data) : guard (State.endOwner s o opc st data) = guard s := by
  unfold State.endOwner; try simp only
  repeat' (split <;> (try dsimp only) <;> (try (rename_i h; obtain rfl := fst_eq h)) <;> (try (rename_i h; obtain rfl := snd_eq h)) <;> (try simp only [↓guard_updWh, ↓guard_ite, ite_self, ↓guard_emit, ↓guard_modFerry, ↓guard_localAct, ↓guard_poke]))
theorem guard_noteEnded (s cove tag st) : guard (State.noteEnded s cove tag st) = guard s := by
  rfl
theorem guard_freeCredit (s tag) : guard (State.freeCredit s tag) = guard s := by
  rfl
theorem guard_dispatchPacket (s p vl act) : guard (State.dispatchPacket s p vl act) = guard s := by
  unfold State.dispatchPacket; try simp only [↓guard_ite, ↓guard_toEgress]
  repeat' (split <;> (try dsimp only) <;> (try (rename_i h; obtain rfl := fst_eq h)) <;> (try (rename_i h; obtain rfl := snd_eq h)) <;> (try simp only [↓guard_updWh]))
theorem guard_chargeFerry (s t) : guard (State.chargeFerry s t) = guard s := by
  unfold State.chargeFerry; try simp only [↓guard_upd, ↓guard_foldl, ↓guard_updWh, ↓guard_ite, ite_self, implies_true, ↓guard_spend]
  repeat' (split <;> (try dsimp only) <;> (try (rename_i h; obtain rfl := fst_eq h)) <;> (try (rename_i h; obtain rfl := snd_eq h)) <;> (try simp only [↓guard_spend]))
theorem guard_sendRequest (s t tag) : guard (State.sendRequest s t tag) = guard s := by
  unfold State.sendRequest; try simp only [↓guard_updWh, ↓guard_bump, ↓guard_dispatchPacket, ↓guard_chargeFerry, ↓guard_undeclared]
  repeat' (first | (refine (guard_foldl _ (fun s x => ?_) _ _).trans ?_) | (split <;> (try dsimp only) <;> (try (rename_i h; obtain rfl := fst_eq h)) <;> (try (rename_i h; obtain rfl := snd_eq h)))) <;> (try simp only [↓guard_upd, ↓guard_foldl, ↓guard_updWh, ↓guard_ite, ite_self, implies_true, ↓guard_bump, ↓guard_dispatchPacket, ↓guard_chargeFerry, ↓guard_undeclared])
theorem guard_acceptFirst (s before l) : guard (State.acceptFirst s before l) = guard s := by
  induction l generalizing before with
  | nil => rfl
  | cons t rest ih =>
    unfold State.acceptFirst
    extract_lets blocked
    split
    · exact ih _
    · exact guard_endOwner ..
    · exact guard_bump ..
    · exact (guard_sendRequest ..).trans (guard_bump ..)

theorem guard_transactionAccept (s) : guard (State.transactionAccept s) = guard s := by
  unfold State.transactionAccept; try simp only
  repeat' (split <;> (try dsimp only) <;> (try (rename_i h; obtain rfl := fst_eq h)) <;> (try (rename_i h; obtain rfl := snd_eq h)) <;> (try simp only [↓guard_updWh, ↓guard_ite, ↓guard_endOwner, ↓guard_sendRequest, ↓guard_acceptFirst]))
theorem guard_issue (s t) : guard (State.issue s t) = guard s := by
  rfl
theorem guard_issueAll (s l) : guard (State.issueAll s l) = guard s := by
  rfl
theorem guard_transactionTimeout (s tag) : guard (State.transactionTimeout s tag) = guard s := by
  unfold State.transactionTimeout; try simp only
  repeat' (split <;> (try dsimp only) <;> (try (rename_i h; obtain rfl := fst_eq h)) <;> (try (rename_i h; obtain rfl := snd_eq h)) <;> (try simp only [↓guard_updWh, ↓guard_ite, ite_self, ↓guard_noteEnded, ↓guard_endOwner, ↓guard_bump, ↓guard_freeCredit, ↓guard_dispatchPacket]))
theorem guard_endTag (s r tag ssn data) : guard (State.endTag s r tag ssn data) = guard s := by
  unfold State.endTag; try simp only [↓guard_upd, ↓guard_foldl, ↓guard_updWh, ↓guard_ite, ite_self, implies_true, ↓guard_bump, ↓guard_endOwner, ↓guard_noteEnded, ↓guard_freeCredit]
  repeat' (split <;> (try dsimp only) <;> (try (rename_i h; obtain rfl := fst_eq h)) <;> (try (rename_i h; obtain rfl := snd_eq h)) <;> (try simp only [↓guard_ite, ite_self, ↓guard_bump, ↓guard_endOwner, ↓guard_noteEnded, ↓guard_freeCredit]))
theorem guard_responseArrive (s) : guard (State.responseArrive s) = guard s := by
  unfold State.responseArrive; try simp only
  repeat' (first | (refine (guard_foldl _ (fun s x => ?_) _ _).trans ?_) | (split <;> (try dsimp only) <;> (try (rename_i h; obtain rfl := fst_eq h)) <;> (try (rename_i h; obtain rfl := snd_eq h)))) <;> (try simp only [↓guard_foldl, ↓guard_updWh, ↓guard_ite, ite_self, implies_true, ↓guard_endTag, ↓guard_bump])
theorem guard_endNode (s node) : guard (State.endNode s node).1 = guard s := by
  unfold State.endNode; try simp only
  repeat' (first | (refine (guard_foldl _ (fun s x => ?_) _ _).trans ?_) | (split <;> (try dsimp only) <;> (try (rename_i h; obtain rfl := fst_eq h)) <;> (try (rename_i h; obtain rfl := snd_eq h)))) <;> (try simp only [↓guard_ite, ite_self, ↓guard_noteEnded, ↓guard_bump, ↓guard_freeCredit, ↓guard_endOwner])
theorem guard_respond (s act r st data) : guard (State.respond s act r st data) = guard s := by
  unfold State.respond; try simp only [↓guard_ite, ite_self, ↓guard_dispatchPacket, ↓guard_undeclared]
  repeat' (split <;> (try dsimp only) <;> (try (rename_i h; obtain rfl := fst_eq h)) <;> (try (rename_i h; obtain rfl := snd_eq h)) <;> (try simp only [↓guard_upd, ↓guard_foldl, ↓guard_updWh, ↓guard_ite, ite_self, implies_true, ↓guard_dispatchPacket, ↓guard_undeclared]))
theorem guard_toDie (s r) : guard (State.toDie s r) = guard s := by
  unfold State.toDie; try simp only
  repeat' (split <;> (try dsimp only) <;> (try (rename_i h; obtain rfl := fst_eq h)) <;> (try (rename_i h; obtain rfl := snd_eq h)) <;> (try simp only [↓guard_updWh]))
theorem guard_takeRequest (s r) : guard (State.takeRequest s r) = guard s := by
  unfold State.takeRequest; try simp only
  repeat' (split <;> (try dsimp only) <;> (try (rename_i h; obtain rfl := fst_eq h)) <;> (try (rename_i h; obtain rfl := snd_eq h)) <;> (try simp only [↓guard_updWh, ↓guard_ite, ite_self, ↓guard_accErr, ↓guard_bump, ↓guard_respond, ↓guard_toDie]))
theorem guard_modPair (s k f) : guard (State.modPair s k f) = guard s := by
  unfold State.modPair; try simp only [↓guard_updWh]
  repeat' (first | (refine (guard_foldl _ (fun s x => ?_) _ _).trans ?_) | (split <;> (try dsimp only) <;> (try (rename_i h; obtain rfl := fst_eq h)) <;> (try (rename_i h; obtain rfl := snd_eq h)))) <;> (try simp only [↓guard_upd, ↓guard_foldl, ↓guard_updWh, ↓guard_ite, ite_self, implies_true])
theorem guard_takeHeld (s k n) : guard (State.takeHeld s k n) = guard s := by
  induction n generalizing s with
  | zero => rfl
  | succ n ih =>
    unfold State.takeHeld
    extract_lets p
    split
    · rfl
    · exact (ih _).trans ((guard_takeRequest ..).trans (guard_modPair ..))

theorem guard_requestArrive (s r die) : guard (State.requestArrive s r die) = guard s := by
  unfold State.requestArrive; simp only [↓guard_ite, ite_self, ↓guard_modNode, ↓guard_bump, ↓guard_modPair, ↓guard_takeHeld, ↓guard_takeRequest]
theorem guard_orReady (s byte v) : guard (State.orReady s byte v) = guard s := by
  unfold State.orReady; simp only [↓guard_foldl, ↓guard_updWh, ↓guard_ite, ite_self, implies_true]
theorem guard_bar4Store (s off b) : guard (State.bar4Store s off b) = guard s := by
  unfold State.bar4Store; simp only [↓guard_ite, ite_self, ↓guard_sset, ↓guard_orReady]
theorem guard_poisonDpa (s code dpa) : guard (State.poisonDpa s code dpa) = guard s := by
  unfold State.poisonDpa; simp only [↓guard_updWh, ↓guard_ite, ite_self]
theorem guard_poisonVa (s c act va) : guard (State.poisonVa s c act va) = guard s := by
  unfold State.poisonVa; try simp only [↓guard_upd, ↓guard_foldl, ↓guard_updWh, ↓guard_ite, ite_self, implies_true, ↓guard_poisonDpa, ↓guard_chargeHbm]
  repeat' (first | (refine (guard_foldl _ (fun s x => ?_) _ _).trans ?_) | (split <;> (try dsimp only) <;> (try (rename_i h; obtain rfl := fst_eq h)) <;> (try (rename_i h; obtain rfl := snd_eq h)))) <;> (try simp only [↓guard_poisonDpa, ↓guard_chargeHbm])
theorem guard_applyStore (s c va act r) : guard (State.applyStore s c va act r).1 = guard s := by
  unfold State.applyStore
  extract_lets m bs
  split
  rename_i s1 st h
  refine (guard_foldl _ (fun s x => ?_) _ _).trans ?_
  · simp only [guard_ite, guard_poisonVa, ite_self]
  · rw [fst_eq h]
    refine guard_foldl_fst _ (fun x w => ?_) _ _
    split
    rename_i h
    dsimp only
    rw [fst_eq h, guard_poke]

theorem guard_applyOne (s w r) : guard (State.applyOne s w r).1 = guard s := by
  unfold State.applyOne; try simp only
  repeat' (split <;> (try dsimp only) <;> (try (rename_i h; obtain rfl := fst_eq h)) <;> (try (rename_i h; obtain rfl := snd_eq h)) <;> (try simp only [↓guard_foldl, implies_true, ↓guard_touch, ↓guard_bar4Store, ↓guard_applyStore, ↓guard_atomicAt, ↓guard_accErr, ↓guard_incArrival]))
theorem guard_applyGroup (s g) : guard (State.applyGroup s g) = guard s := by
  unfold State.applyGroup; try simp only
  repeat' (split <;> (try dsimp only) <;> (try (rename_i h; obtain rfl := fst_eq h)) <;> (try (rename_i h; obtain rfl := snd_eq h)) <;> (try simp only [↓guard_foldl, ↓guard_updWh, ↓guard_ite, implies_true, ↓guard_applyOne, ↓guard_bump, ↓guard_respond]))
theorem guard_sluiceSend (s eg) : guard (State.sluiceSend s eg) = guard s := by
  unfold State.sluiceSend; try simp only [↓guard_ite, ↓guard_sendNext]
  repeat' (split <;> (try dsimp only) <;> (try (rename_i h; obtain rfl := fst_eq h)) <;> (try (rename_i h; obtain rfl := snd_eq h)) <;> (try simp only [↓guard_updWh]))
theorem guard_gapSkip (s node cove) : guard (State.gapSkip s node cove) = guard s := by
  unfold State.gapSkip; try simp only
  repeat' (split <;> (try dsimp only) <;> (try (rename_i h; obtain rfl := fst_eq h)) <;> (try (rename_i h; obtain rfl := snd_eq h)) <;> (try simp only [↓guard_ite, ite_self, ↓guard_modPair, ↓guard_ripple, ↓guard_bump, ↓guard_takeHeld]))
theorem guard_ctrWrite (s fn i lo hi) : guard (State.ctrWrite s fn i lo hi) = guard s := by
  unfold State.ctrWrite; simp only [↓guard_updWh, ↓guard_ite, ite_self, ↓guard_evalWatches]
theorem guard_ferryPost (s c addr named) : guard (State.ferryPost s c addr named) = guard s := by
  unfold State.ferryPost; simp only [↓guard_updWh, ↓guard_ite, ite_self, ↓guard_queueFlag]
theorem guard_ferryEnded (s c id st) : guard (State.ferryEnded s c id st) = guard s := by
  rfl
theorem guard_ferryStop (s e st noCompletion) : guard (State.ferryStop s e st noCompletion) = guard s := by
  rfl
theorem guard_ferryWrite (s e r rel data pmask) : guard (State.ferryWrite s e r rel data pmask) = guard s := by
  unfold State.ferryWrite; try simp only
  repeat' (first | (refine (guard_foldl _ (fun s x => ?_) _ _).trans ?_) | (split <;> (try dsimp only) <;> (try (rename_i h; obtain rfl := fst_eq h)) <;> (try (rename_i h; obtain rfl := snd_eq h)))) <;> (try simp only [↓guard_ite, ↓guard_ferryStop, ↓guard_accErr, ↓guard_poke, ↓guard_spend, ↓guard_poisonVa, ↓guard_issue, ↓guard_modFerry])
theorem guard_ferryPieces (s e l) : guard (State.ferryPieces s e l) = guard s := by
  induction l generalizing s with
  | nil => rfl
  | cons w rest ih =>
    unfold State.ferryPieces
    split
    · rfl
    · split
      · rfl
      · split
        · exact (ih _).trans (guard_ferryWrite ..)
        · exact (guard_ferryStop ..).trans (guard_accErr ..)
        · extract_lets s1 host
          split
          · exact (ih _).trans ((guard_ferryWrite ..).trans ((guard_modFerry ..).trans (guard_touch ..)))
          · exact (ih _).trans ((guard_ferryStop ..).trans (guard_touch ..))

theorem guard_ferryStores (s e r) : guard (State.ferryStores s e r) = guard s := by
  unfold State.ferryStores; try simp only
  repeat' (first | (refine (guard_foldl _ (fun s x => ?_) _ _).trans ?_) | (split <;> (try dsimp only) <;> (try (rename_i h; obtain rfl := fst_eq h)) <;> (try (rename_i h; obtain rfl := snd_eq h)))) <;> (try simp only [↓guard_ite, ite_self, ↓guard_modFerry, ↓guard_ferryPieces, ↓guard_ferryWrite, ↓guard_touch])
theorem guard_ferryChunk (s e) : guard (State.ferryChunk s e) = guard s := by
  unfold State.ferryChunk; try simp only
  repeat' (split <;> (try dsimp only) <;> (try (rename_i h; obtain rfl := fst_eq h)) <;> (try (rename_i h; obtain rfl := snd_eq h)) <;> (try simp only [↓guard_ite, ite_self, ↓guard_ferryStores, ↓guard_modFerry, ↓guard_issueAll]))
theorem guard_ferryLocal (s e j flag) : guard (State.ferryLocal s e j flag) = guard s := by
  unfold State.ferryLocal; simp only [↓guard_updWh, ↓guard_ite, ite_self, ↓guard_modFerry, ↓guard_endOwner]
theorem guard_ferrySingle (s e) : guard (State.ferrySingle s e) = guard s := by
  unfold State.ferrySingle; try simp only
  repeat' (split <;> (try dsimp only) <;> (try (rename_i h; obtain rfl := fst_eq h)) <;> (try (rename_i h; obtain rfl := snd_eq h)) <;> (try simp only [↓guard_ite, ite_self, ↓guard_modFerry, ↓guard_ferryLocal, ↓guard_accErr, ↓guard_touch, ↓guard_issue]))
theorem guard_ferryBegin (s e j early) : guard (State.ferryBegin s e j early) = guard s := by
  unfold State.ferryBegin; try simp only
  repeat' (split <;> (try dsimp only) <;> (try (rename_i h; obtain rfl := fst_eq h)) <;> (try (rename_i h; obtain rfl := snd_eq h)) <;> (try simp only [↓guard_updWh, ↓guard_ite, ↓guard_accErr, ↓guard_ferryChunk, ↓guard_ferrySingle]))
theorem guard_ferryStart (s e) : guard (State.ferryStart s e) = guard s := by
  unfold State.ferryStart; try simp only [↓guard_ite]
  repeat' (split <;> (try dsimp only) <;> (try (rename_i h; obtain rfl := fst_eq h)) <;> (try (rename_i h; obtain rfl := snd_eq h)) <;> (try simp only [↓guard_updWh, ↓guard_ferryBegin, ↓guard_touch, ↓guard_queueFlag, ↓guard_ferryEnded, ↓guard_undeclared]))
theorem guard_ferryInc (s e r part flag) : guard (State.ferryInc s e r part flag) = guard s := by
  unfold State.ferryInc; try simp only [↓guard_ite]
  repeat' (split <;> (try dsimp only) <;> (try (rename_i h; obtain rfl := fst_eq h)) <;> (try (rename_i h; obtain rfl := snd_eq h)) <;> (try simp only [↓guard_ite, ite_self, ↓guard_ferryLocal, ↓guard_localAct, ↓guard_issue, ↓guard_modFerry]))
theorem guard_chunkIncrement (s e) : guard (State.chunkIncrement s e) = guard s := by
  unfold State.chunkIncrement; try simp only
  repeat' (split <;> (try dsimp only) <;> (try (rename_i h; obtain rfl := fst_eq h)) <;> (try (rename_i h; obtain rfl := snd_eq h)) <;> (try simp only [↓guard_ite, ite_self, ↓guard_ferryStores, ↓guard_modFerry, ↓guard_ferryChunk, ↓guard_ferryInc]))
theorem guard_completionIncrement (s e) : guard (State.completionIncrement s e) = guard s := by
  unfold State.completionIncrement; try simp only
  repeat' (split <;> (try dsimp only) <;> (try (rename_i h; obtain rfl := fst_eq h)) <;> (try (rename_i h; obtain rfl := snd_eq h)) <;> (try simp only [↓guard_ite, ite_self, ↓guard_modFerry, ↓guard_ferryInc]))
theorem guard_ferryWriteEnd (s c addr chunks doneCtr st) : guard (State.ferryWriteEnd s c addr chunks doneCtr st) = guard s := by
  unfold State.ferryWriteEnd; simp only [↓guard_poke, ↓guard_noteStatus, ↓guard_applyDone, ↓guard_bump]
theorem guard_shoalCopied (s router idx id st) : guard (State.shoalCopied s router idx id st) = guard s := by
  rfl
theorem guard_ferryFinish (s e) : guard (State.ferryFinish s e) = guard s := by
  unfold State.ferryFinish; try simp only
  repeat' (split <;> (try dsimp only) <;> (try (rename_i h; obtain rfl := fst_eq h)) <;> (try (rename_i h; obtain rfl := snd_eq h)) <;> (try simp only [↓guard_updWh, ↓guard_ite, ite_self, ↓guard_addShare, ↓guard_ferryEnded, ↓guard_ferryWriteEnd, ↓guard_shoalCopied]))
theorem guard_ferryCancel (s c addr) : guard (State.ferryCancel s c addr) = guard s := by
  unfold State.ferryCancel; try simp only
  repeat' (split <;> (try dsimp only) <;> (try (rename_i h; obtain rfl := fst_eq h)) <;> (try (rename_i h; obtain rfl := snd_eq h)) <;> (try simp only [↓guard_updWh, ↓guard_ferryEnded, ↓guard_ferryWriteEnd]))
theorem guard_modHbm (s f) : guard (State.modHbm s f) = guard s := by
  rfl
theorem guard_failSymbols (s g f) : guard (State.failSymbols s g f) = guard s := by
  unfold State.failSymbols; try simp only
  repeat' (split <;> (try dsimp only) <;> (try (rename_i h; obtain rfl := fst_eq h)) <;> (try (rename_i h; obtain rfl := snd_eq h)) <;> (try simp only [↓guard_updWh, ↓guard_ite, ite_self]))
theorem guard_inject (s p found) : guard (State.inject s p found) = guard s := by
  unfold State.inject; simp only [↓guard_foldl, ↓guard_ite, ite_self, implies_true, ↓guard_countCe, ↓guard_failSymbols]
theorem guard_scrubGranule (s g) : guard (State.scrubGranule s g) = guard s := by
  unfold State.scrubGranule; simp only [↓guard_ite, ite_self, ↓guard_bump, ↓guard_readGranule, ↓guard_charge]
theorem guard_scrubPassEnd (s) : guard (State.scrubPassEnd s) = guard s := by
  rfl
theorem guard_scrubRead (s found) : guard (State.scrubRead s found) = guard s := by
  unfold State.scrubRead; try simp only [↓guard_foldl, ↓guard_ite, ite_self, implies_true, ↓guard_inject, ↓guard_charge, ↓guard_scrubGranule, ↓guard_scrubPassEnd, ↓guard_modHbm]
  repeat' (split <;> (try dsimp only) <;> (try (rename_i h; obtain rfl := fst_eq h)) <;> (try (rename_i h; obtain rfl := snd_eq h)) <;> (try simp only [↓guard_upd, ↓guard_foldl, ↓guard_updWh, ↓guard_ite, ite_self, implies_true, ↓guard_inject, ↓guard_charge, ↓guard_scrubGranule, ↓guard_scrubPassEnd, ↓guard_modHbm]))
theorem guard_quarantineTest (s c page found) : guard (State.quarantineTest s c page found) = guard s := by
  unfold State.quarantineTest; try simp only
  repeat' (split <;> (try dsimp only) <;> (try (rename_i h; obtain rfl := fst_eq h)) <;> (try (rename_i h; obtain rfl := snd_eq h)) <;> (try simp only [↓guard_foldl, ↓guard_updWh, ↓guard_ite, ite_self, implies_true, ↓guard_charge, ↓guard_writeGranule, ↓guard_inject, ↓guard_readGranule]))
theorem guard_quarRelease (s c) : guard (State.quarRelease s c) = guard s := by
  rfl
theorem guard_mapReq (s w) : guard (State.mapReq s w) = guard s := by
  unfold State.mapReq; try simp only [↓guard_ite]
  repeat' (split <;> (try dsimp only) <;> (try (rename_i h; obtain rfl := fst_eq h)) <;> (try (rename_i h; obtain rfl := snd_eq h)) <;> (try simp only [↓guard_ite, ite_self, ↓guard_memEvent, ↓guard_modHbm]))
theorem guard_dropBand (s k) : guard (State.dropBand s k) = guard s := by
  rfl
theorem guard_moveStart (s) : guard (State.moveStart s) = guard s := by
  unfold State.moveStart; try simp only [↓guard_ite]
  repeat' (split <;> (try dsimp only) <;> (try (rename_i h; obtain rfl := fst_eq h)) <;> (try (rename_i h; obtain rfl := snd_eq h)) <;> (try simp only [↓guard_ite, ite_self, ↓guard_memEvent, ↓guard_modHbm, ↓guard_dropBand]))
theorem guard_moveTo (s m bound n) : guard (State.moveTo s m bound n) = guard s := by
  unfold State.moveTo; simp only [↓guard_foldl, implies_true, ↓guard_charge, ↓guard_modHbm, ↓guard_readGranule]
theorem guard_moveOn (s) : guard (State.moveOn s) = guard s := by
  unfold State.moveOn; try simp only
  repeat' (split <;> (try dsimp only) <;> (try (rename_i h; obtain rfl := fst_eq h)) <;> (try (rename_i h; obtain rfl := snd_eq h)) <;> (try simp only [↓guard_ite, ite_self, ↓guard_moveTo]))
theorem guard_moveDone (s found) : guard (State.moveDone s found) = guard s := by
  unfold State.moveDone; try simp only
  repeat' (split <;> (try dsimp only) <;> (try (rename_i h; obtain rfl := fst_eq h)) <;> (try (rename_i h; obtain rfl := snd_eq h)) <;> (try simp only [↓guard_ite, ite_self, ↓guard_inject, ↓guard_moveTo, ↓guard_memEvent, ↓guard_modHbm]))
theorem guard_modObj (s c i f) : guard (State.modObj s c i f) = guard s := by
  rfl
theorem guard_setWord (s c i f) : guard (State.setWord s c i f) = guard s := by
  rfl
theorem guard_mendGranule (s c g) : guard (State.mendGranule s c g) = guard s := by
  unfold State.mendGranule; simp only [↓guard_writeGranule]
theorem guard_mendTables (s c) : guard (State.mendTables s c) = guard s := by
  unfold State.mendTables; simp only [↓guard_foldl, ↓guard_ite, ite_self, implies_true, ↓guard_mendGranule]
theorem guard_writeLeaf (s c va e) : guard (State.writeLeaf s c va e).1 = guard s := by
  unfold State.writeLeaf; try simp only
  repeat' (split <;> (try dsimp only) <;> (try (rename_i h; obtain rfl := fst_eq h)) <;> (try (rename_i h; obtain rfl := snd_eq h)) <;> (try simp only [↓guard_ite, ite_self, ↓guard_mendGranule, ↓guard_writeGranule]))
theorem guard_kvLeaf (s c va e) : guard (State.kvLeaf s c va e) = guard s := by
  unfold State.kvLeaf; try simp only [↓guard_upd, ↓guard_foldl, ↓guard_updWh, ↓guard_ite, ite_self, implies_true, ↓guard_writeLeaf, ↓guard_bump]
  repeat' (split <;> (try dsimp only) <;> (try (rename_i h; obtain rfl := fst_eq h)) <;> (try (rename_i h; obtain rfl := snd_eq h)) <;> (try simp only [↓guard_writeLeaf, ↓guard_bump]))
theorem guard_objLeaves (s c va es) : guard (State.objLeaves s c va es) = guard s := by
  unfold State.objLeaves; try simp only [↓guard_foldl, implies_true, ↓guard_writeLeaf]
  repeat' (split <;> (try dsimp only) <;> (try (rename_i h; obtain rfl := fst_eq h)) <;> (try (rename_i h; obtain rfl := snd_eq h)) <;> (try simp only [↓guard_upd, ↓guard_foldl, ↓guard_updWh, ↓guard_ite, ite_self, implies_true, ↓guard_writeLeaf]))
theorem guard_promoteBegin (s c i act) : guard (State.promoteBegin s c i act) = guard s := by
  unfold State.promoteBegin; try simp only
  repeat' (split <;> (try dsimp only) <;> (try (rename_i h; obtain rfl := fst_eq h)) <;> (try (rename_i h; obtain rfl := snd_eq h)) <;> (try simp only [↓guard_modObj, ↓guard_setWord]))
theorem guard_promote (s c i act) : guard (State.promote s c i act) = guard s := by
  unfold State.promote; simp only [↓guard_promoteBegin, ↓guard_setWord]
theorem guard_promoteAfter (s c i act) : guard (State.promoteAfter s c i act) = guard s := by
  rfl
theorem guard_evictBegin (s c i) : guard (State.evictBegin s c i) = guard s := by
  unfold State.evictBegin; simp only [↓guard_ite, ite_self, ↓guard_modObj, ↓guard_objLeaves]
theorem guard_evict (s c i kind) : guard (State.evict s c i kind) = guard s := by
  unfold State.evict; simp only [↓guard_evictBegin, ↓guard_modObj, ↓guard_setWord]
theorem guard_chargeMove (s act src dst n) : guard (State.chargeMove s act src dst n) = guard s := by
  unfold State.chargeMove; simp only [↓guard_ite, ite_self, ↓guard_charge]
theorem guard_copyGranule (s act cs src cd dst) : guard (State.copyGranule s act cs src cd dst) = guard s := by
  unfold State.copyGranule; simp only [↓guard_updWh, ↓guard_ite, ite_self, ↓guard_readGranule, ↓guard_chargeMove, ↓guard_writeGranule]
theorem guard_copyPage (s act cs src cd dst) : guard (State.copyPage s act cs src cd dst) = guard s := by
  unfold State.copyPage; simp only [↓guard_foldl, implies_true, ↓guard_copyGranule]
theorem guard_spillShort (s c) : guard (State.spillShort s c) = guard s := by
  rfl
theorem guard_promoteWait (s c) : guard (State.promoteWait s c) = guard s := by
  rfl
theorem guard_noteSlots (s c ready) : guard (State.noteSlots s c ready) = guard s := by
  rfl
theorem guard_noteReady (s c i) : guard (State.noteReady s c i) = guard s := by
  rfl
theorem guard_promoteEnd (s c i) : guard (State.promoteEnd s c i) = guard s := by
  unfold State.promoteEnd; simp only [↓guard_ite, ite_self, ↓guard_objLeaves, ↓guard_noteReady, ↓guard_bump, ↓guard_setWord]
theorem guard_evictEnd (s c i) : guard (State.evictEnd s c i) = guard s := by
  unfold State.evictEnd; simp only [↓guard_ite, ite_self, ↓guard_bump, ↓guard_modObj, ↓guard_setWord, ↓guard_promoteBegin]
theorem guard_loseWord (s c i) : guard (State.loseWord s c i) = guard s := by
  rfl
theorem guard_movePage (s act c src dst) : guard (State.movePage s act c src dst) = guard s := by
  unfold State.movePage; simp only [↓guard_copyPage, ↓guard_charge]
theorem guard_objMove (s c i readOk) : guard (State.objMove s c i readOk) = guard s := by
  unfold State.objMove; try simp only
  repeat' (split <;> (try dsimp only) <;> (try (rename_i h; obtain rfl := fst_eq h)) <;> (try (rename_i h; obtain rfl := snd_eq h)) <;> (try simp only [↓guard_ite, ite_self, ↓guard_loseWord, ↓guard_movePage, ↓guard_writeLeaf, ↓guard_bump, ↓guard_modObj, ↓guard_promoteEnd, ↓guard_evictEnd]))
theorem guard_evictFor (s c sl i) : guard (State.evictFor s c sl i) = guard s := by
  unfold State.evictFor; try simp only [↓guard_evict, ↓guard_ripple, ↓guard_bump]
  repeat' (first | (refine (guard_foldl _ (fun s x => ?_) _ _).trans ?_) | (split <;> (try dsimp only) <;> (try (rename_i h; obtain rfl := fst_eq h)) <;> (try (rename_i h; obtain rfl := snd_eq h)))) <;> (try simp only [↓guard_upd, ↓guard_foldl, ↓guard_updWh, ↓guard_ite, ite_self, implies_true, ↓guard_evict, ↓guard_ripple, ↓guard_bump])
theorem guard_leastUsed (c on need fuel done s) : guard (State.leastUsed c on need fuel done s).1 = guard s := by
  induction fuel generalizing done s with
  | zero => rfl
  | succ n ih =>
    unfold State.leastUsed
    split
    · rfl
    · extract_lets x cands
      split
      · rfl
      · refine (ih _ _).trans (guard_foldl _ (fun s i => guard_evictFor ..) _ _)

theorem guard_wantSlot (s c sl) : guard (State.wantSlot s c sl) = guard s := by
  unfold State.wantSlot; try simp only
  repeat' (split <;> (try dsimp only) <;> (try (rename_i h; obtain rfl := fst_eq h)) <;> (try (rename_i h; obtain rfl := snd_eq h)) <;> (try simp only [↓guard_foldl, ↓guard_updWh, ↓guard_ite, ite_self, implies_true, ↓guard_raiseCove, ↓guard_promoteAfter, ↓guard_promote, ↓guard_leastUsed]))
theorem guard_dropPages (s c i) : guard (State.dropPages s c i) = guard s := by
  unfold State.dropPages; try simp only
  repeat' (split <;> (try dsimp only) <;> (try (rename_i h; obtain rfl := fst_eq h)) <;> (try (rename_i h; obtain rfl := snd_eq h)) <;> (try simp only [↓guard_updWh, ↓guard_modObj]))
theorem guard_clearLeaves (s c i) : guard (State.clearLeaves s c i) = guard s := by
  unfold State.clearLeaves; try simp only [↓guard_ite, ite_self, ↓guard_objLeaves]
  repeat' (split <;> (try dsimp only) <;> (try (rename_i h; obtain rfl := fst_eq h)) <;> (try (rename_i h; obtain rfl := snd_eq h)) <;> (try simp only [↓guard_upd, ↓guard_foldl, ↓guard_updWh, ↓guard_ite, ite_self, implies_true, ↓guard_objLeaves]))
theorem guard_casApply (s c i n x4) : guard (State.casApply s c i n x4).1 = guard s := by
  unfold State.casApply; try simp only
  repeat' (split <;> (try dsimp only) <;> (try (rename_i h; obtain rfl := fst_eq h)) <;> (try (rename_i h; obtain rfl := snd_eq h)) <;> (try simp only [↓guard_clearLeaves, ↓guard_setWord, ↓guard_dropPages, ↓guard_modObj, ↓guard_promoteBegin, ↓guard_evictBegin]))
theorem guard_objectCas (s c hi) : guard (State.objectCas s c hi) = guard s := by
  unfold State.objectCas; try simp only [↓guard_updWh, ↓guard_ite, ↓guard_setReg]
  repeat' (split <;> (try dsimp only) <;> (try (rename_i h; obtain rfl := fst_eq h)) <;> (try (rename_i h; obtain rfl := snd_eq h)) <;> (try simp only [↓guard_casApply]))
theorem guard_dtuInval (s c w) : guard (State.dtuInval s c w) = guard s := by
  unfold State.dtuInval; simp only [↓guard_updWh, ↓guard_ite, ite_self]
theorem guard_seqEvent (s c) : guard (State.seqEvent s c) = guard s := by
  unfold State.seqEvent; simp only [↓guard_raiseCove]
theorem guard_giveRange (s e c k) : guard (State.giveRange s e c k) = guard s := by
  unfold State.giveRange; try simp only [↓guard_upd, ↓guard_foldl, ↓guard_updWh, ↓guard_ite, ite_self, implies_true, ↓guard_setSx, ↓guard_sset]
  repeat' (split <;> (try dsimp only) <;> (try (rename_i h; obtain rfl := fst_eq h)) <;> (try (rename_i h; obtain rfl := snd_eq h)) <;> (try simp only [↓guard_setSx, ↓guard_sset]))
theorem guard_takePages (s e n keep) {t : State} (ht : State.takePages s e n keep = some t) : guard t = guard s := by
  unfold State.takePages at ht
  extract_lets c vas new s1 at ht
  split at ht
  · rw [← Option.some.inj ht]
  · split at ht
    · cases ht
    · rw [← Option.some.inj ht, guard_setSx, guard_sset]
      exact guard_foldl _ (fun s i => guard_kvLeaf ..) _ _

theorem guard_unmapPages (s ps) : guard (State.unmapPages s ps) = guard s := by
  unfold State.unmapPages; simp only [↓guard_foldl, implies_true, ↓guard_writeLeaf]
theorem guard_dropKv (s e) : guard (State.dropKv s e) = guard s := by
  unfold State.dropKv; simp only [↓guard_setSx, ↓guard_sset, ↓guard_unmapPages]
theorem guard_dropOld (s e) : guard (State.dropOld s e) = guard s := by
  unfold State.dropOld; simp only [↓guard_setSx, ↓guard_sset, ↓guard_unmapPages]
theorem guard_packageCancel (s e st) : guard (State.packageCancel s e st) = guard s := by
  rfl
theorem guard_kvMoveEnd (s e) : guard (State.kvMoveEnd s e) = guard s := by
  rfl
theorem guard_kvMovePage (s e k p n) : guard (State.kvMovePage s e k p n) = guard s := by
  unfold State.kvMovePage; try simp only [↓guard_movePage, ↓guard_kvLeaf, ↓guard_setSx, ↓guard_addShare, ↓guard_bump]
  repeat' (split <;> (try dsimp only) <;> (try (rename_i h; obtain rfl := fst_eq h)) <;> (try (rename_i h; obtain rfl := snd_eq h)) <;> (try simp only [↓guard_upd, ↓guard_foldl, ↓guard_updWh, ↓guard_ite, ite_self, implies_true, ↓guard_movePage, ↓guard_kvLeaf, ↓guard_setSx, ↓guard_addShare, ↓guard_bump]))
theorem guard_kvMoveStep (s e readOk) : guard (State.kvMoveStep s e readOk) = guard s := by
  unfold State.kvMoveStep; try simp only
  repeat' (split <;> (try dsimp only) <;> (try (rename_i h; obtain rfl := fst_eq h)) <;> (try (rename_i h; obtain rfl := snd_eq h)) <;> (try simp only [↓guard_ite, ite_self, ↓guard_kvMoveEnd, ↓guard_setSx, ↓guard_spillShort, ↓guard_kvMovePage, ↓guard_noteStatus, ↓guard_promoteWait]))
theorem guard_setRouter (s r x) : guard (State.setRouter s r x) = guard s := by
  rfl
theorem guard_shoalEnd (s c addr rounds doneOff st) : guard (State.shoalEnd s c addr rounds doneOff st) = guard s := by
  unfold State.shoalEnd; try simp only
  repeat' (split <;> (try dsimp only) <;> (try (rename_i h; obtain rfl := fst_eq h)) <;> (try (rename_i h; obtain rfl := snd_eq h)) <;> (try simp only [↓guard_poke, ↓guard_noteStatus, ↓guard_applyDone]))
theorem guard_shoalRefuse (s c addr doneOff st) : guard (State.shoalRefuse s c addr doneOff st) = guard s := by
  unfold State.shoalRefuse; try simp only
  repeat' (split <;> (try dsimp only) <;> (try (rename_i h; obtain rfl := fst_eq h)) <;> (try (rename_i h; obtain rfl := snd_eq h)) <;> (try simp only [↓guard_noteStatus, ↓guard_poke, ↓guard_applyDone]))
theorem guard_shoalPost (s c addr) : guard (State.shoalPost s c addr) = guard s := by
  unfold State.shoalPost; try simp only [↓guard_updWh, ↓guard_ite, ite_self, ↓guard_queueFlag]
  repeat' (split <;> (try dsimp only) <;> (try (rename_i h; obtain rfl := fst_eq h)) <;> (try (rename_i h; obtain rfl := snd_eq h)) <;> (try simp only [↓guard_shoalRefuse, ↓guard_touch]))
theorem guard_shoalPop (s c) : guard (State.shoalPop s c) = guard s := by
  rfl
theorem guard_packRecord (s c d p base i x) : guard (State.packRecord s c d p base i x).1 = guard s := by
  unfold State.packRecord
  extract_lets a s1 at_ pad y s2 gone
  have h1 : guard s1 = guard s := (guard_addShare ..).trans (guard_touch ..)
  have h2 : guard gone.1 = guard s := by
    show guard (if x.zero then s2 else s2.bump (shoalOff c 0x48) 1) = guard s
    rw [guard_ite, guard_bump, ite_self]
    exact (guard_poke ..).trans h1
  split
  · split
    rename_i h
    dsimp only
    rw [fst_eq h, guard_poke, h1]
  · exact h2
  · exact h2
  · exact h1

theorem guard_packAll (s c d p base l) : guard (State.packAll s c d p base l).1 = guard s := by
  induction l generalizing s with
  | nil => rfl
  | cons w rest ih =>
    unfold State.packAll
    split
    rename_i h
    split
    rename_i h2
    dsimp only
    rw [fst_eq h2, ih, fst_eq h, guard_packRecord]

theorem guard_packRun (s r p round dest) : guard (State.packRun s r p round dest).1 = guard s := by
  unfold State.packRun
  refine guard_foldl_fst _ (fun a x => ?_) _ _
  split
  rename_i h
  dsimp only
  rw [fst_eq h, guard_packRecord]

theorem guard_sendRun (s rt r p i) : guard (State.sendRun s rt r p i).1 = guard s := by
  unfold State.sendRun; try simp only
  repeat' (first | (refine (guard_foldl _ (fun s x => ?_) _ _).trans ?_) | (split <;> (try dsimp only) <;> (try (rename_i h; obtain rfl := fst_eq h)) <;> (try (rename_i h; obtain rfl := snd_eq h)))) <;> (try simp only [↓guard_updWh, ↓guard_packRun, ↓guard_bump])
theorem guard_sendDue (s rt r p) : guard (State.sendDue s rt r p).1 = guard s := by
  unfold State.sendDue
  refine guard_foldl_fst _ (fun a i => ?_) _ _
  split
  · exact guard_sendRun ..
  · rfl

theorem guard_routeEnd (s rt r) : guard (State.routeEnd s rt r) = guard s := by
  unfold State.routeEnd; try simp only [↓guard_setRouter, ↓guard_shoalEnd]
  repeat' (split <;> (try dsimp only) <;> (try (rename_i h; obtain rfl := fst_eq h)) <;> (try (rename_i h; obtain rfl := snd_eq h)) <;> (try simp only [↓guard_upd, ↓guard_foldl, ↓guard_updWh, ↓guard_ite, ite_self, implies_true, ↓guard_setRouter, ↓guard_shoalEnd]))
theorem guard_nextWork (s) : guard (State.nextWork s) = guard s := by
  rfl
theorem guard_routeBegin (s rt c addr d p) : guard (State.routeBegin s rt c addr d p) = guard s := by
  unfold State.routeBegin; try simp only [↓guard_ite, ↓guard_shoalEnd]
  repeat' (split <;> (try dsimp only) <;> (try (rename_i h; obtain rfl := fst_eq h)) <;> (try (rename_i h; obtain rfl := snd_eq h)) <;> (try simp only [↓guard_foldl, ↓guard_ite, ite_self, implies_true, ↓guard_shoalEnd, ↓guard_touch, ↓guard_accErr, ↓guard_poke, ↓guard_packAll, ↓guard_bump, ↓guard_sendDue, ↓guard_nextWork, ↓guard_setRouter]))
theorem guard_rehomePair (s p r fresh i x) : guard (State.rehomePair s p r fresh i x).1 = guard s := by
  unfold State.rehomePair; try simp only [↓guard_upd, ↓guard_foldl, ↓guard_updWh, ↓guard_ite, ite_self, implies_true, ↓guard_bump, ↓guard_setSx]
  repeat' (first | (refine (guard_foldl _ (fun s x => ?_) _ _).trans ?_) | (split <;> (try dsimp only) <;> (try (rename_i h; obtain rfl := fst_eq h)) <;> (try (rename_i h; obtain rfl := snd_eq h)))) <;> (try simp only [↓guard_bump, ↓guard_setSx])
theorem guard_destLost (s rt r p dest) : guard (State.destLost s rt r p dest) = guard s := by
  unfold State.destLost
  extract_lets todo
  split
  rename_i s1 r1 fresh h
  extract_lets placed dests rounds s2
  split
  rename_i s3 r3 h3
  have e1 : guard s1 = guard s := by
    rw [fst_eq h]
    exact guard_foldl_fst _ (fun a x => guard_rehomePair ..) _ _
  have e2 : guard s2 = guard s := (guard_bump ..).trans e1
  rw [guard_setRouter, fst_eq h3, guard_sendDue, e2]

theorem guard_shoalNodeLost (s node) : guard (State.shoalNodeLost s node) = guard s := by
  unfold State.shoalNodeLost; try simp only
  repeat' (first | (refine (guard_foldl _ (fun s x => ?_) _ _).trans ?_) | (split <;> (try dsimp only) <;> (try (rename_i h; obtain rfl := fst_eq h)) <;> (try (rename_i h; obtain rfl := snd_eq h)))) <;> (try simp only [↓guard_setRouter, ↓guard_destLost])
theorem guard_routeStart (s rt) : guard (State.routeStart s rt) = guard s := by
  unfold State.routeStart; try simp only
  repeat' (first | (refine (guard_foldl _ (fun s x => ?_) _ _).trans ?_) | (split <;> (try dsimp only) <;> (try (rename_i h; obtain rfl := fst_eq h)) <;> (try (rename_i h; obtain rfl := snd_eq h)))) <;> (try simp only [↓guard_updWh, ↓guard_ite, ↓guard_queueFlag, ↓guard_shoalPop, ↓guard_touch, ↓guard_shoalRefuse, ↓guard_routeBegin, ↓guard_destLost])
theorem guard_runCopyDone (s rt i) : guard (State.runCopyDone s rt i) = guard s := by
  unfold State.runCopyDone; try simp only
  repeat' (split <;> (try dsimp only) <;> (try (rename_i h; obtain rfl := fst_eq h)) <;> (try (rename_i h; obtain rfl := snd_eq h)) <;> (try simp only [↓guard_ite, ite_self, ↓guard_issue, ↓guard_setRouter]))
theorem guard_runReturnDone (s rt i) : guard (State.runReturnDone s rt i) = guard s := by
  unfold State.runReturnDone; try simp only
  repeat' (split <;> (try dsimp only) <;> (try (rename_i h; obtain rfl := fst_eq h)) <;> (try (rename_i h; obtain rfl := snd_eq h)) <;> (try simp only [↓guard_ite, ite_self, ↓guard_sendDue, ↓guard_setRouter]))
theorem guard_combineToken (s r p t) : guard (State.combineToken s r p t).1 = guard s := by
  unfold State.combineToken; try simp only
  repeat' (first | (refine (guard_foldl _ (fun s x => ?_) _ _).trans ?_) | (split <;> (try dsimp only) <;> (try (rename_i h; obtain rfl := fst_eq h)) <;> (try (rename_i h; obtain rfl := snd_eq h)))) <;> (try simp only [↓guard_accErr, ↓guard_poke])
theorem guard_routeCombine (s rt) : guard (State.routeCombine s rt) = guard s := by
  unfold State.routeCombine
  split
  · split
    · rfl
    · split
      · rfl
      · split
        rename_i h
        rw [guard_routeEnd, fst_eq h]
        refine guard_foldl_fst _ (fun a t => ?_) _ _
        split
        rename_i h
        dsimp only
        rw [fst_eq h, guard_combineToken]
  · rfl

theorem guard_recvStart (s rt) : guard (State.recvStart s rt) = guard s := by
  unfold State.recvStart; try simp only
  repeat' (first | (refine (guard_foldl _ (fun s x => ?_) _ _).trans ?_) | (split <;> (try dsimp only) <;> (try (rename_i h; obtain rfl := fst_eq h)) <;> (try (rename_i h; obtain rfl := snd_eq h)))) <;> (try simp only [↓guard_ite, ↓guard_queueFlag, ↓guard_shoalPop, ↓guard_touch, ↓guard_shoalRefuse, ↓guard_setRouter, ↓guard_nextWork])
theorem guard_foldl_parts (s : State) (r : RecvRun) (f : State × Gather × List (Nat × Nat × Nat) → Nat × Nat → State × Gather × List (Nat × Nat × Nat))
    (hf : ∀ x a, guard (f x a).1 = guard x.1) (l : List (Nat × Nat)) (g : Gather × List (Nat × Nat × Nat)) {y : State × Gather × List (Nat × Nat × Nat)}
    (h : l.foldl f (s, g) = y) : guard y.1 = guard s := by
  rw [← h]
  exact guard_foldl_fst f hf l (s, g)

theorem guard_gatherRecord (s r p src addr g) : guard (State.gatherRecord s r p src addr g).1 = guard s := by
  unfold State.gatherRecord
  extract_lets c s1
  have h1 : guard s1 = guard s := guard_touch ..
  split
  · extract_lets st
    dsimp only
    rw [guard_ite, guard_bump, ite_self, h1]
  · extract_lets n parts0 row
    split
    rename_i h
    refine (guard_foldl_parts _ r _ (fun a x => ?_) _ _ h).trans h1
    split
    split
    extract_lets k
    split
    · rfl
    · split
      rename_i e1
      split
      rename_i e2
      dsimp only
      rw [fst_eq e2, guard_poke, fst_eq e1, guard_poke]

theorem guard_postRound (s r p j) : guard (State.postRound s r p j).1 = guard s := by
  unfold State.postRound; try simp only
  repeat' (first | (refine (guard_foldl _ (fun s x => ?_) _ _).trans ?_) | (split <;> (try dsimp only) <;> (try (rename_i h; obtain rfl := fst_eq h)) <;> (try (rename_i h; obtain rfl := snd_eq h)))) <;> (try simp only [↓guard_foldl, implies_true, ↓guard_put, ↓guard_accErr, ↓guard_poke, ↓guard_postPond])
theorem guard_recvGather (s rt) : guard (State.recvGather s rt) = guard s := by
  unfold State.recvGather
  split
  · split
    · rfl
    · split
      · split
        · extract_lets r2
          split
          rename_i h
          rw [guard_setRouter, fst_eq h, guard_postRound]
        · rfl
      · split
        · rfl
        · split
          · rfl
          · split
            rename_i s1 g h
            extract_lets s2 srcs r2
            split
            rename_i h3
            rw [guard_setRouter, fst_eq h3, guard_postRound, guard_addShares, fst_eq h]
            refine guard_foldl_fst _ (fun a x => ?_) _ _
            exact guard_foldl_fst _ (fun a x => guard_gatherRecord ..) _ _
  · rfl

theorem guard_touchRecord (s r p g) : guard (State.touchRecord s r p g) = guard s := by
  unfold State.touchRecord
  refine guard_foldl _ (fun s x => ?_) _ _
  split
  · exact guard_touch ..
  · rfl

theorem guard_recvEnd (s rt r rounds) : guard (State.recvEnd s rt r rounds) = guard s := by
  unfold State.recvEnd; try simp only [↓guard_poke, ↓guard_setRouter, ↓guard_shoalEnd]
  repeat' (first | (refine (guard_foldl _ (fun s x => ?_) _ _).trans ?_) | (split <;> (try dsimp only) <;> (try (rename_i h; obtain rfl := fst_eq h)) <;> (try (rename_i h; obtain rfl := snd_eq h)))) <;> (try simp only [↓guard_upd, ↓guard_foldl, ↓guard_updWh, ↓guard_ite, ite_self, implies_true, ↓guard_poke, ↓guard_setRouter, ↓guard_shoalEnd])
theorem guard_recvReturn (s rt) : guard (State.recvReturn s rt) = guard s := by
  unfold State.recvReturn
  split
  · split
    · rfl
    · split
      · rfl
      · split
        · split
          · rfl
          · split
            · exact guard_recvEnd ..
            · exact guard_setRouter ..
        · split
          · rfl
          · extract_lets st f
            split
            rename_i s1 st2 h
            extract_lets jobs s2
            rw [guard_setRouter]
            have e2 : guard s2 = guard s1 := rfl
            rw [e2, fst_eq h]
            refine guard_foldl_fst _ (fun a x => ?_) _ _
            split
            extract_lets b
            split
            rename_i h5
            dsimp only
            rw [fst_eq h5, guard_poke]
            exact guard_touchRecord ..
  · rfl

theorem guard_shoalTimeout (s rt) : guard (State.shoalTimeout s rt) = guard s := by
  unfold State.shoalTimeout; try simp only
  repeat' (split <;> (try dsimp only) <;> (try (rename_i h; obtain rfl := fst_eq h)) <;> (try (rename_i h; obtain rfl := snd_eq h)) <;> (try simp only [↓guard_updWh, ↓guard_ite, ite_self, ↓guard_routeCombine, ↓guard_setRouter, ↓guard_recvEnd]))
theorem guard_shadowLost (s node) : guard (State.shadowLost s node).1 = guard s := by
  unfold State.shadowLost; try simp only [↓guard_foldl, implies_true, ↓guard_sset, ↓guard_setSx]
  repeat' (split <;> (try dsimp only) <;> (try (rename_i h; obtain rfl := fst_eq h)) <;> (try (rename_i h; obtain rfl := snd_eq h)) <;> (try simp only [↓guard_upd, ↓guard_foldl, ↓guard_updWh, ↓guard_ite, ite_self, implies_true, ↓guard_sset, ↓guard_setSx]))
theorem guard_modLossRec (s node f) : guard (State.modLossRec s node f) = guard s := by
  unfold State.modLossRec; try simp only
  repeat' (split <;> (try dsimp only) <;> (try (rename_i h; obtain rfl := fst_eq h)) <;> (try (rename_i h; obtain rfl := snd_eq h)) <;> (try simp only [↓guard_updWh]))
theorem guard_openLossRec (s r) : guard (State.openLossRec s r) = guard s := by
  unfold State.openLossRec; try simp only [↓guard_updWh, ↓guard_ite]
  repeat' (split <;> (try dsimp only) <;> (try (rename_i h; obtain rfl := fst_eq h)) <;> (try (rename_i h; obtain rfl := snd_eq h)) <;> (try simp only [↓guard_updWh]))
theorem guard_recordLoss (s node cause newInc) : guard (State.recordLoss s node cause newInc) = guard s := by
  unfold State.recordLoss; simp only [↓guard_foldl, ↓guard_updWh, implies_true, ↓guard_endOwner, ↓guard_endNode, ↓guard_modNode, ↓guard_shoalNodeLost, ↓guard_shadowLost, ↓guard_openLossRec, ↓guard_fltEvent, ↓guard_bump, ↓guard_faultLog, ↓guard_ripple]
theorem guard_nodeLive (s node inc) : guard (State.nodeLive s node inc) = guard s := by
  rfl
theorem guard_sawIncarnation (s node inc ident) : guard (State.sawIncarnation s node inc ident) = guard s := by
  unfold State.sawIncarnation; simp only [↓guard_ite, ite_self, ↓guard_modNode, ↓guard_nodeLive, ↓guard_recordLoss]
theorem guard_lossReq (s w) : guard (State.lossReq s w) = guard s := by
  unfold State.lossReq; simp only [↓guard_ite, ite_self, ↓guard_fltEvent, ↓guard_recordLoss]
theorem guard_lossRestore (s w) : guard (State.lossRestore s w) = guard s := by
  unfold State.lossRestore; simp only [↓guard_foldl, ↓guard_ite, ite_self, implies_true, ↓guard_fltEvent, ↓guard_nodeLive, ↓guard_modPair, ↓guard_faultLog]
theorem guard_nak (s p k) : guard (State.nak s p k) = guard s := by
  rfl
theorem guard_takeResyncReq (s src port) : guard (State.takeResyncReq s src port) = guard s := by
  unfold State.takeResyncReq; try simp only
  repeat' (split <;> (try dsimp only) <;> (try (rename_i h; obtain rfl := fst_eq h)) <;> (try (rename_i h; obtain rfl := snd_eq h)) <;> (try simp only [↓guard_modConn, ↓guard_toEgress]))
theorem guard_takeResyncAck (s src port lsn) : guard (State.takeResyncAck s src port lsn) = guard s := by
  unfold State.takeResyncAck; try simp only [↓guard_ite, ite_self, ↓guard_resolve, ↓guard_ackUpTo]
  repeat' (split <;> (try dsimp only) <;> (try (rename_i h; obtain rfl := fst_eq h)) <;> (try (rename_i h; obtain rfl := snd_eq h)) <;> (try simp only [↓guard_upd, ↓guard_foldl, ↓guard_updWh, ↓guard_ite, ite_self, implies_true, ↓guard_resolve, ↓guard_ackUpTo]))
theorem guard_deliver (s die f) : guard (State.deliver s die f) = guard s := by
  unfold State.deliver; try simp only
  repeat' (split <;> (try dsimp only) <;> (try (rename_i h; obtain rfl := fst_eq h)) <;> (try (rename_i h; obtain rfl := snd_eq h)) <;> (try simp only [↓guard_updWh, ↓guard_ite, ite_self, ↓guard_takeResyncReq, ↓guard_takeResyncAck]))
theorem guard_acceptFrame (s p k f) : guard (State.acceptFrame s p k f) = guard s := by
  unfold State.acceptFrame; simp only [↓guard_ite, ite_self, ↓guard_modConn, ↓guard_modPort, ↓guard_sawIncarnation, ↓guard_deliver, ↓guard_freeBlocks, ↓guard_bump, ↓guard_toEgress]
theorem guard_receiveFrame (s p node f health corrected) : guard (State.receiveFrame s p node f health corrected) = guard s := by
  unfold State.receiveFrame; try simp only [↓guard_ite]
  repeat' (split <;> (try dsimp only) <;> (try (rename_i h; obtain rfl := fst_eq h)) <;> (try (rename_i h; obtain rfl := snd_eq h)) <;> (try simp only [↓guard_ite, ite_self, ↓guard_bump, ↓guard_nak, ↓guard_ackUpTo, ↓guard_modConn, ↓guard_acceptFrame]))
theorem guard_controlIn (s p node ackLsn shown) : guard (State.controlIn s p node ackLsn shown).1 = guard s := by
  unfold State.controlIn; try simp only
  repeat' (split <;> (try dsimp only) <;> (try (rename_i h; obtain rfl := fst_eq h)) <;> (try (rename_i h; obtain rfl := snd_eq h)) <;> (try simp only [↓guard_nak, ↓guard_bump, ↓guard_ackUpTo, ↓guard_modConn]))
theorem guard_nakReceive (s p node lsn ackLsn shown) : guard (State.nakReceive s p node lsn ackLsn shown) = guard s := by
  unfold State.nakReceive; try simp only [↓guard_upd, ↓guard_foldl, ↓guard_updWh, ↓guard_ite, ite_self, implies_true, ↓guard_controlIn, ↓guard_replayFrom]
  repeat' (split <;> (try dsimp only) <;> (try (rename_i h; obtain rfl := fst_eq h)) <;> (try (rename_i h; obtain rfl := snd_eq h)) <;> (try simp only [↓guard_controlIn, ↓guard_replayFrom]))
theorem guard_ackSend (s p node) : guard (State.ackSend s p node) = guard s := by
  unfold State.ackSend; try simp only
  repeat' (split <;> (try dsimp only) <;> (try (rename_i h; obtain rfl := fst_eq h)) <;> (try (rename_i h; obtain rfl := snd_eq h)) <;> (try simp only [↓guard_ite, ite_self, ↓guard_control, ↓guard_modConn]))
theorem guard_replayTimer (s p node) : guard (State.replayTimer s p node) = guard s := by
  unfold State.replayTimer; try simp only
  repeat' (split <;> (try dsimp only) <;> (try (rename_i h; obtain rfl := fst_eq h)) <;> (try (rename_i h; obtain rfl := snd_eq h)) <;> (try simp only [↓guard_ite, ite_self, ↓guard_replayFrom]))
theorem guard_resyncTimeout (s p node) : guard (State.resyncTimeout s p node) = guard s := by
  unfold State.resyncTimeout; try simp only
  repeat' (split <;> (try dsimp only) <;> (try (rename_i h; obtain rfl := fst_eq h)) <;> (try (rename_i h; obtain rfl := snd_eq h)) <;> (try simp only [↓guard_ite, ite_self, ↓guard_resolve]))
theorem guard_creditIn (s p node freed ackLsn shown) : guard (State.creditIn s p node freed ackLsn shown) = guard s := by
  unfold State.creditIn; try simp only [↓guard_upd, ↓guard_foldl, ↓guard_updWh, ↓guard_ite, ite_self, implies_true, ↓guard_controlIn, ↓guard_modConn]
  repeat' (split <;> (try dsimp only) <;> (try (rename_i h; obtain rfl := fst_eq h)) <;> (try (rename_i h; obtain rfl := snd_eq h)) <;> (try simp only [↓guard_ite, ite_self, ↓guard_controlIn, ↓guard_modConn]))
theorem guard_creditSend (s p node) : guard (State.creditSend s p node) = guard s := by
  unfold State.creditSend; simp only [↓guard_ite, ite_self, ↓guard_control, ↓guard_modConn]
theorem guard_keepalive (s p node) : guard (State.keepalive s p node) = guard s := by
  unfold State.keepalive; simp only [↓guard_ite, ite_self, ↓guard_control, ↓guard_modConn]
theorem guard_ethSilence (s p node) : guard (State.ethSilence s p node) = guard s := by
  unfold State.ethSilence; simp only [↓guard_ite, ite_self, ↓guard_failConn]
theorem guard_mapOutPort (s p) : guard (State.mapOutPort s p) = guard s := by
  unfold State.mapOutPort; simp only [↓guard_foldl, ↓guard_updWh, implies_true, ↓guard_portTo, ↓guard_lnkEvent, ↓guard_failConn]
theorem guard_portDown (s p) : guard (State.portDown s p) = guard s := by
  unfold State.portDown; simp only [↓guard_ite, ite_self, ↓guard_lnkEvent, ↓guard_portTo]
theorem guard_portLimit (s p) : guard (State.portLimit s p) = guard s := by
  unfold State.portLimit; simp only [↓guard_ite, ite_self, ↓guard_mapOutPort, ↓guard_lnkEvent, ↓guard_modPort, ↓guard_portTo]
theorem guard_trainFail (s p) : guard (State.trainFail s p) = guard s := by
  unfold State.trainFail; simp only [↓guard_ite, ite_self, ↓guard_modPort, ↓guard_portLimit, ↓guard_portTo]
theorem guard_train (s p) : guard (State.train s p) = guard s := by
  unfold State.train; simp only [↓guard_ite, ite_self, ↓guard_modPort, ↓guard_portTo, ↓guard_lnkEvent, ↓guard_trainFail, ↓guard_sendIdent]
theorem guard_signalLoss (s p) : guard (State.signalLoss s p) = guard s := by
  unfold State.signalLoss; simp only [↓guard_ite, ite_self, ↓guard_modPort, ↓guard_portDown]
theorem guard_signalDetect (s p) : guard (State.signalDetect s p) = guard s := by
  unfold State.signalDetect; simp only [↓guard_ite, ite_self, ↓guard_modPort, ↓guard_train]
theorem guard_retrainEntry (s p) : guard (State.retrainEntry s p) = guard s := by
  unfold State.retrainEntry; simp only [↓guard_foldl, ↓guard_ite, ite_self, implies_true, ↓guard_bump, ↓guard_portTo, ↓guard_modPort, ↓guard_portLimit, ↓guard_failConn]
theorem guard_connectionFail (s p node) : guard (State.connectionFail s p node) = guard s := by
  unfold State.connectionFail; simp only [↓guard_ite, ite_self, ↓guard_retrainEntry, ↓guard_failConn]
theorem guard_trainingTimeout (s p) : guard (State.trainingTimeout s p) = guard s := by
  unfold State.trainingTimeout; simp only [↓guard_ite, ite_self, ↓guard_trainFail]
theorem guard_retrainTimeout (s p) : guard (State.retrainTimeout s p) = guard s := by
  unfold State.retrainTimeout; simp only [↓guard_ite, ite_self, ↓guard_portDown]
theorem guard_downRetry (s p) : guard (State.downRetry s p) = guard s := by
  unfold State.downRetry; try simp only [↓guard_ite, ite_self, ↓guard_train]
  repeat' (first | (refine (guard_foldl _ (fun s x => ?_) _ _).trans ?_) | (split <;> (try dsimp only) <;> (try (rename_i h; obtain rfl := fst_eq h)) <;> (try (rename_i h; obtain rfl := snd_eq h)))) <;> (try simp only [↓guard_upd, ↓guard_foldl, ↓guard_updWh, ↓guard_ite, ite_self, implies_true, ↓guard_train])
theorem guard_retrainDone (s p) : guard (State.retrainDone s p) = guard s := by
  unfold State.retrainDone; try simp only [↓guard_ite, ite_self, ↓guard_sendIdent]
  repeat' (first | (refine (guard_foldl _ (fun s x => ?_) _ _).trans ?_) | (split <;> (try dsimp only) <;> (try (rename_i h; obtain rfl := fst_eq h)) <;> (try (rename_i h; obtain rfl := snd_eq h)))) <;> (try simp only [↓guard_ite, ite_self, ↓guard_portTo, ↓guard_replayFrom])
theorem guard_modulePoll (s p los fault alarm temp powerClass state) : guard (State.modulePoll s p los fault alarm temp powerClass state) = guard s := by
  unfold State.modulePoll; simp only [↓guard_ite, ite_self, ↓guard_modPort, ↓guard_portDown, ↓guard_retrainEntry]
theorem guard_portReq (s w) : guard (State.portReq s w) = guard s := by
  unfold State.portReq; simp only [↓guard_ite, ite_self, ↓guard_lnkEvent, ↓guard_mapOutPort]
theorem guard_creditCheck (s p k blocks cls) : guard (State.creditCheck s p k blocks cls) = guard s := by
  unfold State.creditCheck; try simp only [↓guard_ite, ite_self, ↓guard_ripple, ↓guard_bump]
  repeat' (first | (refine (guard_foldl _ (fun s x => ?_) _ _).trans ?_) | (split <;> (try dsimp only) <;> (try (rename_i h; obtain rfl := fst_eq h)) <;> (try (rename_i h; obtain rfl := snd_eq h)))) <;> (try simp only [↓guard_upd, ↓guard_foldl, ↓guard_updWh, ↓guard_ite, ite_self, implies_true, ↓guard_ripple, ↓guard_bump])
theorem guard_switchKeys (s p k i) : guard (State.switchKeys s p k i) = guard s := by
  rfl
theorem guard_openConn (s p i) : guard (State.openConn s p i) = guard s := by
  unfold State.openConn
  extract_lets k old before s1 s2 s3
  rw [guard_routesChanged]
  have h1 : guard s1 = guard s := by
    simp only [s1, guard_ite]
    split
    · exact guard_foldl _ (fun s c => guard_creditCheck ..) _ _
    · rfl
  exact (guard_foldl _ (fun s h => guard_toEgress ..) _ _).trans ((guard_modConn ..).trans h1)

theorem guard_takeFigure (s p k blocks) : guard (State.takeFigure s p k blocks) = guard s := by
  unfold State.takeFigure; simp only [↓guard_foldl, ↓guard_ite, ite_self, implies_true, ↓guard_creditCheck, ↓guard_modConn]
theorem guard_rekeyed (s p k i) : guard (State.rekeyed s p k i) = guard s := by
  unfold State.rekeyed; simp only [↓guard_foldl, implies_true, ↓guard_takeFigure, ↓guard_modConn, ↓guard_switchKeys, ↓guard_toEgress]
theorem guard_identIn (s p i trained) : guard (State.identIn s p i trained) = guard s := by
  unfold State.identIn; try simp only [↓guard_ite, ite_self, ↓guard_bump, ↓guard_lnkEvent, ↓guard_trainFail, ↓guard_sawIncarnation, ↓guard_modPort, ↓guard_rekeyed, ↓guard_portTo, ↓guard_openConn, ↓guard_sendIdent]
  repeat' (split <;> (try dsimp only) <;> (try (rename_i h; obtain rfl := fst_eq h)) <;> (try (rename_i h; obtain rfl := snd_eq h)) <;> (try simp only [↓guard_upd, ↓guard_foldl, ↓guard_updWh, ↓guard_ite, ite_self, implies_true, ↓guard_bump, ↓guard_lnkEvent, ↓guard_trainFail, ↓guard_sawIncarnation, ↓guard_modPort, ↓guard_rekeyed, ↓guard_portTo, ↓guard_openConn, ↓guard_sendIdent]))
theorem guard_drainNotice (s p node ackLsn shown) : guard (State.drainNotice s p node ackLsn shown) = guard s := by
  unfold State.drainNotice; try simp only
  repeat' (split <;> (try dsimp only) <;> (try (rename_i h; obtain rfl := fst_eq h)) <;> (try (rename_i h; obtain rfl := snd_eq h)) <;> (try simp only [↓guard_controlIn, ↓guard_modPort, ↓guard_portDown, ↓guard_modNode]))
theorem guard_linkRekey (s p node) : guard (State.linkRekey s p node) = guard s := by
  unfold State.linkRekey; simp only [↓guard_ite, ite_self, ↓guard_sendIdent, ↓guard_modConn]
theorem guard_modSeq (s c f) : guard (State.modSeq s c f) = guard s := by
  rfl
theorem guard_judgeDrained (s) : guard (State.judgeDrained s) = guard s := by
  unfold State.judgeDrained; simp only [↓guard_updWh, ↓guard_ite, ite_self, ↓guard_hifEvent]
theorem guard_sendDrainNotices (s) : guard (State.sendDrainNotices s) = guard s := by
  unfold State.sendDrainNotices; try simp only [↓guard_foldl, implies_true, ↓guard_control]
  repeat' (first | (refine (guard_foldl _ (fun s x => ?_) _ _).trans ?_) | (split <;> (try dsimp only) <;> (try (rename_i h; obtain rfl := fst_eq h)) <;> (try (rename_i h; obtain rfl := snd_eq h)))) <;> (try simp only [↓guard_upd, ↓guard_foldl, ↓guard_updWh, ↓guard_ite, ite_self, implies_true, ↓guard_control])
theorem guard_closePorts (s) : guard (State.closePorts s) = guard s := by
  unfold State.closePorts
  extract_lets ports s1
  exact (guard_routesChanged ..).trans rfl

theorem guard_trainPorts (s) : guard (State.trainPorts s) = guard s := by
  unfold State.trainPorts; simp only [↓guard_foldl, ↓guard_ite, ite_self, implies_true, ↓guard_train]
theorem guard_zeroMereIf (s p) : guard (State.zeroMereIf s p) = guard s := by
  rfl
theorem guard_zeroMeres (s) : guard (State.zeroMeres s) = guard s := by
  rfl
theorem guard_zeroMereOf (s c) : guard (State.zeroMereOf s c) = guard s := by
  rfl
theorem guard_rippleHist (s kind aux cove start vs) : guard (State.rippleHist s kind aux cove start vs) = guard s := by
  unfold State.rippleHist; try simp only [↓guard_updWh, ↓guard_ite, ite_self, ↓guard_ripEnter]
  repeat' (split <;> (try dsimp only) <;> (try (rename_i h; obtain rfl := fst_eq h)) <;> (try (rename_i h; obtain rfl := snd_eq h)) <;> (try simp only [↓guard_upd, ↓guard_foldl, ↓guard_updWh, ↓guard_ite, ite_self, implies_true, ↓guard_ripEnter]))
theorem guard_ripCloseKind (s kind) : guard (State.ripCloseKind s kind) = guard s := by
  unfold State.ripCloseKind; try simp only
  repeat' (split <;> (try dsimp only) <;> (try (rename_i h; obtain rfl := fst_eq h)) <;> (try (rename_i h; obtain rfl := snd_eq h)) <;> (try simp only [↓guard_updWh, ↓guard_ite, ite_self, ↓guard_ripClose]))
theorem guard_ripShut (s) : guard (State.ripShut s) = guard s := by
  unfold State.ripShut; try simp only
  repeat' (split <;> (try dsimp only) <;> (try (rename_i h; obtain rfl := fst_eq h)) <;> (try (rename_i h; obtain rfl := snd_eq h)) <;> (try simp only [↓guard_updWh, ↓guard_ripNotify]))
theorem guard_rippleWrite (s) : guard (State.rippleWrite s) = guard s := by
  unfold State.rippleWrite; try simp only
  repeat' (split <;> (try dsimp only) <;> (try (rename_i h; obtain rfl := fst_eq h)) <;> (try (rename_i h; obtain rfl := snd_eq h)) <;> (try simp only [↓guard_updWh, ↓guard_ite, ite_self, ↓guard_ripShut, ↓guard_charge, ↓guard_bump, ↓guard_ripNotify]))
theorem guard_stepTimes (s) : guard (State.stepTimes s) = guard s := by
  unfold State.stepTimes; simp only [↓guard_foldl, ↓guard_updWh, ↓guard_ite, ite_self, implies_true, ↓guard_rippleHist]
theorem guard_modWh (s) (f : Wh → Wh)
    (h : (secClass (f s.wh).sec, (f s.wh).owners, (f s.wh).ownerSlot, (f s.wh).destroyed) = (secClass s.wh.sec, s.wh.owners, s.wh.ownerSlot, s.wh.destroyed)) :
    guard (State.modWh s f) = guard s := by
  simp only [Prod.mk.injEq] at h
  simp only [guard, State.modWh, h]

theorem guard_whEvent (s i) : guard (State.whEvent s i) = guard s := by
  unfold State.whEvent; simp only [↓guard_event]
theorem guard_whCount (s r) : guard (State.whCount s r) = guard s := by
  rfl
theorem guard_loadsLoseKey (s cove slot) : guard (State.loadsLoseKey s cove slot) = guard s := by
  rfl
theorem guard_eraseKey (s i) : guard (State.eraseKey s i) = guard s := by
  unfold State.eraseKey; try simp only [↓guard_upd, ↓guard_foldl, ↓guard_updWh, ↓guard_ite, ite_self, implies_true, ↓guard_raise, ↓guard_whEvent, ↓guard_whCount, ↓guard_modWh, ↓guard_loadsLoseKey]
  repeat' (split <;> (try dsimp only) <;> (try (rename_i h; obtain rfl := fst_eq h)) <;> (try (rename_i h; obtain rfl := snd_eq h)) <;> (try simp only [↓guard_raise, ↓guard_whEvent, ↓guard_whCount, ↓guard_modWh, ↓guard_loadsLoseKey]))
theorem guard_eraseKeys (s p) : guard (State.eraseKeys s p) = guard s := by
  unfold State.eraseKeys; simp only [↓guard_foldl, implies_true, ↓guard_eraseKey]
theorem guard_eraseAllKeys (s) : guard (State.eraseAllKeys s) = guard s := by
  unfold State.eraseAllKeys; simp only [↓guard_eraseKeys]
theorem guard_eraseCoveKeys (s c) : guard (State.eraseCoveKeys s c) = guard s := by
  unfold State.eraseCoveKeys; simp only [↓guard_eraseKeys]
theorem guard_loseAttested (s) : guard (State.loseAttested s) = guard s := by
  unfold State.loseAttested
  split
  · rename_i h
    rw [guard_whEvent, guard_whCount, guard_eraseAllKeys]
    refine guard_modWh _ _ ?_
    simp only [h, secClass]
  · rfl

theorem guard_withDebug (s : State) (d : Nat) : guard (s.withDebug d) = { guard s with debug := d } := rfl

theorem guard_grainTo (s d) : guard (State.grainTo s d) = guard s := by
  simp only [State.grainTo, guard_ite, guard_ripShut, ite_self]

theorem guard_fineBatch (s) : guard (State.fineBatch s) = guard s := by
  simp only [State.fineBatch, guard_ite, ↓guard_upd, ite_self]

theorem guard_setDebug (s : State) (d : Nat) : guard (s.setDebug d) = { guard s with debug := d } := by
  unfold State.setDebug
  split
  · rename_i h
    rw [← h]
    rfl
  · rw [guard_whEvent, guard_fineBatch, guard_withDebug, guard_grainTo]

theorem guard_nextEpoch (s c) : guard (State.nextEpoch s c) = guard s := by
  rfl
theorem guard_nextEpochs (s) : guard (State.nextEpochs s) = guard s := by
  rfl
theorem guard_modWeir (s f) : guard (State.modWeir s f) = guard s := by
  rfl
theorem guard_weirEvent (s i) : guard (State.weirEvent s i) = guard s := by
  unfold State.weirEvent; simp only [↓guard_event]
theorem guard_weirCount (s r n) : guard (State.weirCount s r n) = guard s := by
  rfl
theorem guard_enterFloor (s) : guard (State.enterFloor s) = guard s := by
  unfold State.enterFloor; try simp only [↓guard_ite, ite_self, ↓guard_modWeir, ↓guard_weirEvent, ↓guard_weirCount]
  repeat' (split <;> (try dsimp only) <;> (try (rename_i h; obtain rfl := fst_eq h)) <;> (try (rename_i h; obtain rfl := snd_eq h)) <;> (try simp only [↓guard_upd, ↓guard_foldl, ↓guard_updWh, ↓guard_ite, ite_self, implies_true, ↓guard_modWeir, ↓guard_weirEvent, ↓guard_weirCount]))
theorem guard_capLagSample (s e) : guard (State.capLagSample s e) = guard s := by
  unfold State.capLagSample; try simp only [↓guard_ite, ite_self, ↓guard_weirEvent, ↓guard_weirCount, ↓guard_modWeir, ↓guard_ripple]
  repeat' (split <;> (try dsimp only) <;> (try (rename_i h; obtain rfl := fst_eq h)) <;> (try (rename_i h; obtain rfl := snd_eq h)) <;> (try simp only [↓guard_weirCount, ↓guard_modWeir, ↓guard_ripCloseKind]))
theorem guard_setNTh (s n) : guard (State.setNTh s n) = guard s := by
  unfold State.setNTh; simp only [↓guard_ite, ite_self, ↓guard_weirCount, ↓guard_modWeir, ↓guard_weirEvent]
theorem guard_thermalClosure (s tj) : guard (State.thermalClosure s tj) = guard s := by
  unfold State.thermalClosure; simp only [↓guard_ite, ite_self, ↓guard_modWeir, ↓guard_setNTh]
theorem guard_droopClosure (s) : guard (State.droopClosure s) = guard s := by
  rfl
theorem guard_powerClosure (s) : guard (State.powerClosure s) = guard s := by
  unfold State.powerClosure; try simp only [↓guard_ite, ite_self, ↓guard_weirCount, ↓guard_modWeir]
  repeat' (split <;> (try dsimp only) <;> (try (rename_i h; obtain rfl := fst_eq h)) <;> (try (rename_i h; obtain rfl := snd_eq h)) <;> (try simp only [↓guard_upd, ↓guard_foldl, ↓guard_updWh, ↓guard_ite, ite_self, implies_true, ↓guard_weirCount, ↓guard_modWeir]))
theorem guard_capClosure (s) : guard (State.capClosure s) = guard s := by
  unfold State.capClosure; try simp only
  repeat' (split <;> (try dsimp only) <;> (try (rename_i h; obtain rfl := fst_eq h)) <;> (try (rename_i h; obtain rfl := snd_eq h)) <;> (try simp only [↓guard_ite, ite_self, ↓guard_modWeir, ↓guard_enterFloor]))
theorem guard_setN (s) : guard (State.setN s) = guard s := by
  unfold State.setN; simp only [↓guard_ite, ite_self, ↓guard_modWeir]
theorem guard_loopClosure (s tj) : guard (State.loopClosure s tj) = guard s := by
  unfold State.loopClosure; simp only [↓guard_ite, ite_self, ↓guard_modWeir, ↓guard_setN, ↓guard_capClosure, ↓guard_powerClosure, ↓guard_droopClosure, ↓guard_thermalClosure]
theorem guard_weirMs (s) : guard (State.weirMs s) = guard s := by
  unfold State.weirMs; simp only [↓guard_updWh, ↓guard_ite, ite_self, ↓guard_modWeir, ↓guard_setNTh, ↓guard_rippleHist]
theorem guard_i3cCap (s bs) : guard (State.i3cCap s bs) = guard s := by
  unfold State.i3cCap; simp only [↓guard_ite, ite_self, ↓guard_emit, ↓guard_weirEvent, ↓guard_weirCount, ↓guard_modWeir]
theorem guard_capLvl (s lvl) : guard (State.capLvl s lvl) = guard s := by
  unfold State.capLvl; simp only [↓guard_ite, ite_self, ↓guard_modWeir, ↓guard_enterFloor]
theorem guard_droopTrip (s die depth) : guard (State.droopTrip s die depth) = guard s := by
  rfl
theorem guard_droopRecover (s die duration) : guard (State.droopRecover s die duration) = guard s := by
  rfl
theorem guard_enterStop (s) : guard (State.enterStop s) = guard s := by
  unfold State.enterStop; simp only [↓guard_updWh, ↓guard_ite, ite_self, ↓guard_weirEvent, ↓guard_modWeir]
theorem guard_trimLimitOf (s die r) : guard (State.trimLimitOf s die r) = guard s := by
  unfold State.trimLimitOf; simp only [↓guard_ite, ite_self, ↓guard_ripple, ↓guard_weirEvent, ↓guard_modWeir]
theorem guard_trimRun (s east west) : guard (State.trimRun s east west) = guard s := by
  unfold State.trimRun; simp only [↓guard_updWh, ↓guard_ite, ite_self, ↓guard_weirCount, ↓guard_modWeir, ↓guard_trimLimitOf]
theorem guard_toPstate (s p) : guard (State.toPstate s p) = guard s := by
  rfl
theorem guard_pstateRefuse (s st) : guard (State.pstateRefuse s st) = guard s := by
  rfl
theorem guard_pstateAccept (s p) : guard (State.pstateAccept s p) = guard s := by
  rfl
theorem guard_reqP0 (s) : guard (State.reqP0 s) = guard s := by
  unfold State.reqP0; simp only [↓guard_ite, ite_self, ↓guard_pstateRefuse, ↓guard_trainPorts, ↓guard_pstateAccept]
theorem guard_reqP2 (s) : guard (State.reqP2 s) = guard s := by
  unfold State.reqP2; simp only [↓guard_ite, ite_self, ↓guard_pstateRefuse, ↓guard_pstateAccept]
theorem guard_reqP3 (s) : guard (State.reqP3 s) = guard s := by
  unfold State.reqP3; simp only [↓guard_ite, ite_self, ↓guard_pstateRefuse, ↓guard_pstateAccept, ↓guard_closePorts, ↓guard_sendDrainNotices]
theorem guard_reqP4 (s) : guard (State.reqP4 s) = guard s := by
  unfold State.reqP4; simp only [↓guard_ite, ite_self, ↓guard_pstateRefuse, ↓guard_pstateAccept, ↓guard_sendDrainNotices]
theorem guard_pstateDone (s) : guard (State.pstateDone s) = guard s := by
  unfold State.pstateDone; try simp only
  repeat' (split <;> (try dsimp only) <;> (try (rename_i h; obtain rfl := fst_eq h)) <;> (try (rename_i h; obtain rfl := snd_eq h)) <;> (try simp only [↓guard_updWh, ↓guard_ite, ite_self, ↓guard_modWeir, ↓guard_toPstate, ↓guard_zeroMeres, ↓guard_eraseAllKeys, ↓guard_weirEvent]))
theorem guard_modGau (s f) : guard (State.modGau s f) = guard s := by
  rfl
theorem guard_gauCount (s r n) : guard (State.gauCount s r n) = guard s := by
  rfl
theorem guard_latch (s ev static) : guard (State.latch s ev static) = guard s := by
  unfold State.latch; simp only [↓guard_ite, ite_self, ↓guard_modGau, ↓guard_capLagSample, ↓guard_modWeir]
theorem guard_houseMove (s) : guard (State.houseMove s) = guard s := by
  unfold State.houseMove; simp only [↓guard_ite, ite_self, ↓guard_modGau]
theorem guard_coarsePower (s) : guard (State.coarsePower s) = guard s := by
  unfold State.coarsePower; simp only [↓guard_ite, ite_self, ↓guard_modGau]
theorem guard_modOpenBatch (s f) : guard (State.modOpenBatch s f) = guard s := by
  unfold State.modOpenBatch; simp only [↓guard_ite, ite_self, ↓guard_modGau]
theorem guard_markCal (s stale clamp) : guard (State.markCal s stale clamp) = guard s := by
  unfold State.markCal; try simp only [↓guard_foldl, implies_true, ↓guard_setSx, ↓guard_modOpenBatch]
  repeat' (split <;> (try dsimp only) <;> (try (rename_i h; obtain rfl := fst_eq h)) <;> (try (rename_i h; obtain rfl := snd_eq h)) <;> (try simp only [↓guard_upd, ↓guard_foldl, ↓guard_updWh, ↓guard_ite, ite_self, implies_true, ↓guard_setSx, ↓guard_modOpenBatch]))
theorem guard_closeWindow (s mj) : guard (State.closeWindow s mj) = guard s := by
  unfold State.closeWindow; try simp only [↓guard_ite, ite_self, ↓guard_modOpenBatch, ↓guard_modGau, ↓guard_markCal, ↓guard_gauCount, ↓guard_setFlags]
  repeat' (split <;> (try dsimp only) <;> (try (rename_i h; obtain rfl := fst_eq h)) <;> (try (rename_i h; obtain rfl := snd_eq h)) <;> (try simp only [↓guard_draw]))
theorem guard_ein (s bs) : guard (State.ein s bs) = guard s := by
  unfold State.ein; simp only [↓guard_ite, ite_self, ↓guard_emit, ↓guard_gauCount, ↓guard_closeWindow, ↓guard_modGau]
theorem guard_judgeRing (s) : guard (State.judgeRing s) = guard s := by
  unfold State.judgeRing; try simp only [↓guard_ite, ite_self, ↓guard_modGau, ↓guard_raise]
  repeat' (split <;> (try dsimp only) <;> (try (rename_i h; obtain rfl := fst_eq h)) <;> (try (rename_i h; obtain rfl := snd_eq h)) <;> (try simp only [↓guard_upd, ↓guard_foldl, ↓guard_updWh, ↓guard_ite, ite_self, implies_true, ↓guard_modGau, ↓guard_raise]))
theorem guard_putRecord (s r) : guard (State.putRecord s r) = guard s := by
  unfold State.putRecord; try simp only
  repeat' (first | (refine (guard_foldl _ (fun s x => ?_) _ _).trans ?_) | (split <;> (try dsimp only) <;> (try (rename_i h; obtain rfl := fst_eq h)) <;> (try (rename_i h; obtain rfl := snd_eq h)))) <;> (try simp only [↓guard_charge, ↓guard_modGau, ↓guard_gauCount])
theorem guard_flushRecords (n s) : guard (State.flushRecords n s) = guard s := by
  induction n generalizing s with
  | zero => rfl
  | succ n ih =>
    unfold State.flushRecords
    split
    · rfl
    · split
      · exact (ih _).trans ((guard_putRecord ..).trans (guard_modGau ..))
      · rfl

theorem guard_flush (s) : guard (State.flush s) = guard s := by
  unfold State.flush; simp only [↓guard_judgeRing, ↓guard_flushRecords]
theorem guard_emitRecord (s r) : guard (State.emitRecord s r) = guard s := by
  unfold State.emitRecord; simp only [↓guard_ite, ite_self, ↓guard_judgeRing, ↓guard_putRecord, ↓guard_gauCount, ↓guard_modGau]
theorem guard_lossCredit (s key a) : guard (State.lossCredit s key a) = guard s := by
  unfold State.lossCredit; simp only [↓guard_ite, ite_self, ↓guard_modLossRec]
theorem guard_creditTo (s c key a remote) : guard (State.creditTo s c key a remote).1 = guard s := by
  unfold State.creditTo; try simp only [↓guard_upd, ↓guard_foldl, ↓guard_updWh, ↓guard_ite, ite_self, implies_true, ↓guard_modGau, ↓guard_sset, ↓guard_lossCredit]
  repeat' (first | (refine (guard_foldl _ (fun s x => ?_) _ _).trans ?_) | (split <;> (try dsimp only) <;> (try (rename_i h; obtain rfl := fst_eq h)) <;> (try (rename_i h; obtain rfl := snd_eq h)))) <;> (try simp only [↓guard_modGau, ↓guard_sset, ↓guard_lossCredit])
theorem guard_closePool (s c p shares remote) : guard (State.closePool s c p shares remote).1 = guard s := by
  unfold State.closePool
  extract_lets k acc e s1 sum
  have h1 : guard s1 = guard s := guard_modGau ..
  split
  · exact (guard_modGau ..).trans h1
  · split
    rename_i h
    dsimp only
    rw [guard_modGau, fst_eq h]
    refine (guard_foldl_fst _ (fun x q => ?_) _ _).trans h1
    extract_lets a
    split
    rename_i h2
    dsimp only
    rw [fst_eq h2, guard_creditTo]

theorem guard_closeRemote (s c gstep opened remote) : guard (State.closeRemote s c gstep opened remote) = guard s := by
  unfold State.closeRemote; try simp only [↓guard_foldl, ↓guard_ite, ite_self, implies_true, ↓guard_lossCredit, ↓guard_modGau, ↓guard_emitRecord]
  repeat' (first | (refine (guard_foldl _ (fun s x => ?_) _ _).trans ?_) | (split <;> (try dsimp only) <;> (try (rename_i h; obtain rfl := fst_eq h)) <;> (try (rename_i h; obtain rfl := snd_eq h)))) <;> (try simp only [↓guard_upd, ↓guard_foldl, ↓guard_updWh, ↓guard_ite, ite_self, implies_true, ↓guard_lossCredit, ↓guard_modGau, ↓guard_emitRecord])
theorem guard_closeStep (s c gstep opened rows ferry) : guard (State.closeStep s c gstep opened rows ferry) = guard s := by
  unfold State.closeStep
  extract_lets share
  split
  rename_i h
  extract_lets s2
  rw [guard_closeRemote, guard_modGau, fst_eq h]
  exact guard_foldl_fst _ (fun x p => guard_closePool ..) _ _

theorem guard_closeIdle (s c) : guard (State.closeIdle s c) = guard s := by
  unfold State.closeIdle
  extract_lets lost e s1
  have e1 : guard s1 = guard s := guard_foldl _ (fun s x => guard_lossCredit ..) _ _
  split
  rename_i h
  rw [guard_closeRemote, guard_modGau, fst_eq h]
  exact (guard_foldl_fst _ (fun x p => guard_closePool ..) _ _).trans e1

theorem guard_closeToHouse (s c) : guard (State.closeToHouse s c) = guard s := by
  unfold State.closeToHouse
  split
  rename_i h
  rw [guard_modGau, fst_eq h]
  exact guard_foldl_fst _ (fun x p => guard_closePool ..) _ _

theorem guard_openBatch (s b) : guard (State.openBatch s b) = guard s := by
  rfl
theorem guard_batchClose (s) : guard (State.batchClose s) = guard s := by
  unfold State.batchClose; simp only [↓guard_ite, ite_self, ↓guard_modOpenBatch, ↓guard_modGau, ↓guard_raise, ↓guard_openBatch]
theorem guard_modBatch (s b f) : guard (State.modBatch s b f) = guard s := by
  rfl
theorem guard_batchRooted (s) : guard (State.batchRooted s) = guard s := by
  unfold State.batchRooted; try simp only
  repeat' (split <;> (try dsimp only) <;> (try (rename_i h; obtain rfl := fst_eq h)) <;> (try (rename_i h; obtain rfl := snd_eq h)) <;> (try simp only [↓guard_modBatch]))
theorem guard_batchSigned (s) : guard (State.batchSigned s) = guard s := by
  unfold State.batchSigned; try simp only
  repeat' (split <;> (try dsimp only) <;> (try (rename_i h; obtain rfl := fst_eq h)) <;> (try (rename_i h; obtain rfl := snd_eq h)) <;> (try simp only [↓guard_ite, ite_self, ↓guard_modBatch, ↓guard_flush, ↓guard_bump, ↓guard_gauCount, ↓guard_raise, ↓guard_setFlags]))
theorem guard_modRun (s c f) : guard (State.modRun s c f) = guard s := by
  rfl
theorem guard_seqWrite (s c va b) : guard (State.seqWrite s c va b).1 = guard s := by
  unfold State.seqWrite; try simp only [↓guard_upd, ↓guard_foldl, ↓guard_updWh, ↓guard_ite, ite_self, implies_true, ↓guard_poke]
  repeat' (first | (refine (guard_foldl _ (fun s x => ?_) _ _).trans ?_) | (split <;> (try dsimp only) <;> (try (rename_i h; obtain rfl := fst_eq h)) <;> (try (rename_i h; obtain rfl := snd_eq h)))) <;> (try simp only [↓guard_poke])
theorem guard_seqWrites (s c l) : guard (State.seqWrites s c l).1 = guard s := by
  induction l generalizing s with
  | nil => rfl
  | cons w r ih =>
    unfold State.seqWrites
    split
    · rename_i h
      rw [ih, fst_eq h, guard_seqWrite]
    · rename_i h
      dsimp only
      rw [fst_eq h, guard_seqWrite]

theorem guard_seqFail (s c va e) : guard (State.seqFail s c va e).1 = guard s := by
  unfold State.seqFail; try simp only [↓guard_accErr]
  repeat' (split <;> (try dsimp only) <;> (try (rename_i h; obtain rfl := fst_eq h)) <;> (try (rename_i h; obtain rfl := snd_eq h)) <;> (try simp only [↓guard_upd, ↓guard_foldl, ↓guard_updWh, ↓guard_ite, ite_self, implies_true, ↓guard_accErr]))
theorem guard_instMatrix (s c d e rows) : guard (State.instMatrix s c d e rows).1 = guard s := by
  unfold State.instMatrix; try simp only
  repeat' (split <;> (try dsimp only) <;> (try (rename_i h; obtain rfl := fst_eq h)) <;> (try (rename_i h; obtain rfl := snd_eq h)) <;> (try simp only [↓guard_seqFail, ↓guard_seqWrites]))
theorem guard_instAttn (s c d sl e r) : guard (State.instAttn s c d sl e r).1 = guard s := by
  unfold State.instAttn; try simp only
  repeat' (split <;> (try dsimp only) <;> (try (rename_i h; obtain rfl := fst_eq h)) <;> (try (rename_i h; obtain rfl := snd_eq h)) <;> (try simp only [↓guard_seqFail, ↓guard_seqWrites]))
theorem guard_instCopy (s c e f) : guard (State.instCopy s c e f).1 = guard s := by
  unfold State.instCopy; try simp only [↓guard_upd, ↓guard_foldl, ↓guard_updWh, ↓guard_ite, ite_self, implies_true, ↓guard_seqFail, ↓guard_seqWrite]
  repeat' (split <;> (try dsimp only) <;> (try (rename_i h; obtain rfl := fst_eq h)) <;> (try (rename_i h; obtain rfl := snd_eq h)) <;> (try simp only [↓guard_seqFail, ↓guard_seqWrite]))
theorem guard_degrade (s c) : guard (State.degrade s c) = guard s := by
  unfold State.degrade; simp only [↓guard_ite, ite_self, ↓guard_faultLog, ↓guard_seqEvent, ↓guard_fltEvent, ↓guard_modSeq]
theorem guard_entryStatus (s c kind st) : guard (State.entryStatus s c kind st) = guard s := by
  unfold State.entryStatus; try simp only [↓guard_ite, ite_self, ↓guard_degrade, ↓guard_modRun]
  repeat' (first | (refine (guard_foldl _ (fun s x => ?_) _ _).trans ?_) | (split <;> (try dsimp only) <;> (try (rename_i h; obtain rfl := fst_eq h)) <;> (try (rename_i h; obtain rfl := snd_eq h)))) <;> (try simp only [↓guard_upd, ↓guard_foldl, ↓guard_updWh, ↓guard_ite, ite_self, implies_true, ↓guard_degrade, ↓guard_modRun])
theorem guard_attnStatuses (s c inst r) : guard (State.attnStatuses s c inst r) = guard s := by
  unfold State.attnStatuses; try simp only
  repeat' (first | (refine (guard_foldl _ (fun s x => ?_) _ _).trans ?_) | (split <;> (try dsimp only) <;> (try (rename_i h; obtain rfl := fst_eq h)) <;> (try (rename_i h; obtain rfl := snd_eq h)))) <;> (try simp only [↓guard_modRun, ↓guard_entryStatus])
theorem guard_entryEnds (s c sl r p) : guard (State.entryEnds s c sl r p) = guard s := by
  unfold State.entryEnds; try simp only [↓guard_ite]
  repeat' (split <;> (try dsimp only) <;> (try (rename_i h; obtain rfl := fst_eq h)) <;> (try (rename_i h; obtain rfl := snd_eq h)) <;> (try simp only [↓guard_entryStatus, ↓guard_attnStatuses]))
theorem guard_releaseHeld (s c sl layer) : guard (State.releaseHeld s c sl layer) = guard s := by
  unfold State.releaseHeld; try simp only
  repeat' (first | (refine (guard_foldl _ (fun s x => ?_) _ _).trans ?_) | (split <;> (try dsimp only) <;> (try (rename_i h; obtain rfl := fst_eq h)) <;> (try (rename_i h; obtain rfl := snd_eq h)))) <;> (try simp only [↓guard_ite, ite_self, ↓guard_modRun, ↓guard_setWord, ↓guard_evict])
theorem guard_layersEnd (s c sl) : guard (State.layersEnd s c sl) = guard s := by
  unfold State.layersEnd; try simp only
  repeat' (split <;> (try dsimp only) <;> (try (rename_i h; obtain rfl := fst_eq h)) <;> (try (rename_i h; obtain rfl := snd_eq h)) <;> (try simp only [↓guard_foldl, implies_true, ↓guard_releaseHeld, ↓guard_modRun]))
/-- The state a posting leaves. -/
theorem guard_postingOf (k addr : Nat) (r : State × Option Status) (post : State → State) (hp : ∀ t, guard (post t) = guard t) :
    (∀ s p, postingOf k addr r post = .posted s p → guard s = guard r.1) ∧ (∀ s p st, postingOf k addr r post = .ended s p st → guard s = guard r.1) := by
  unfold postingOf
  constructor
  · intro s p h
    split at h
    · cases h
      exact hp _
    · cases h
  · intro s p st h
    split at h
    · cases h
    · cases h
      rfl

theorem guard_postEntry (s : State) (c : Nat) (d : CoveDecl) (sl : SlotDecl) (r : StepRun) (k : Nat) :
    (∀ t p, s.postEntry c d sl r k = .posted t p → guard t = guard s) ∧ (∀ t p st, s.postEntry c d sl r k = .ended t p st → guard t = guard s) := by
  have key : ∀ (a : Nat) (x : State × Option Status) (post : State → State), guard x.1 = guard s → (∀ t, guard (post t) = guard t) →
      ∀ q, postingOf k a x post = q → (∀ t p, q = .posted t p → guard t = guard s) ∧ (∀ t p st, q = .ended t p st → guard t = guard s) := by
    intro a x post hx hp q hq
    subst hq
    exact ⟨fun t p h => ((guard_postingOf k a x post hp).1 t p h).trans hx, fun t p st h => ((guard_postingOf k a x post hp).2 t p st h).trans hx⟩
  have full : (∀ t p, Posting.full = .posted t p → guard t = guard s) ∧ (∀ t p st, Posting.full = .ended t p st → guard t = guard s) :=
    ⟨fun t p h => (nomatch h), fun t p st h => (nomatch h)⟩
  unfold State.postEntry
  split
  · refine ⟨fun t p h => (nomatch h), fun t p st h => ?_⟩
    cases h
    exact guard_seqFail ..
  · extract_lets a
    split
    · split
      · exact full
      · exact key _ _ _ (guard_instMatrix ..) (fun t => guard_postPond ..) _ rfl
    · split
      · exact full
      · exact key _ _ _ (guard_instAttn ..) (fun t => guard_postAttn ..) _ rfl
    · split
      · exact full
      · exact key _ _ _ (guard_instCopy ..) (fun t => guard_shoalPost ..) _ rfl
    · split
      · exact full
      · exact key _ _ _ (guard_instCopy ..) (fun t => guard_shoalPost ..) _ rfl
    · split
      · exact full
      · exact key _ _ _ (guard_instCopy ..) (fun t => guard_ferryPost ..) _ rfl
    · refine ⟨fun t p h => ?_, fun t p st h => (nomatch h)⟩
      cases h
      rfl
    · refine ⟨fun t p h => ?_, fun t p st h => (nomatch h)⟩
      cases h
      rfl
    · refine ⟨fun t p h => (nomatch h), fun t p st h => ?_⟩
      cases h
      rfl

theorem guard_postGroup (c d sl n s) : guard (State.postGroup c d sl n s) = guard s := by
  induction n generalizing s with
  | zero => rfl
  | succ n ih =>
    unfold State.postGroup
    split
    · rfl
    · extract_lets first layer begun
      split
      · rfl
      · split
        · exact guard_modRun ..
        · split
          · rfl
          · split
            · rfl
            · split
              · exact guard_modRun ..
              · rename_i h
                extract_lets isCopy
                exact (ih _).trans ((guard_modRun ..).trans ((guard_postEntry ..).1 _ _ h))
              · rename_i h
                extract_lets s2
                exact (ih _).trans ((guard_entryStatus ..).trans ((guard_modRun ..).trans ((guard_postEntry ..).2 _ _ _ h)))

theorem guard_turnEnds (s e) : guard (State.turnEnds s e) = guard s := by
  unfold State.turnEnds; simp only [↓guard_ite, ite_self, ↓guard_setSx, ↓guard_sset, ↓guard_setSState]
theorem guard_countMiss (s e) : guard (State.countMiss s e) = guard s := by
  unfold State.countMiss; try simp only [↓guard_upd, ↓guard_foldl, ↓guard_updWh, ↓guard_ite, ite_self, implies_true, ↓guard_bump]
  repeat' (split <;> (try dsimp only) <;> (try (rename_i h; obtain rfl := fst_eq h)) <;> (try (rename_i h; obtain rfl := snd_eq h)) <;> (try simp only [↓guard_ite, ite_self, ↓guard_bump]))
theorem guard_emitFields (s e rows) : guard (State.emitFields s e rows) = guard s := by
  unfold State.emitFields; try simp only [↓guard_ite, ite_self, ↓guard_sset, ↓guard_setSState]
  repeat' (split <;> (try dsimp only) <;> (try (rename_i h; obtain rfl := fst_eq h)) <;> (try (rename_i h; obtain rfl := snd_eq h)) <;> (try simp only [↓guard_upd, ↓guard_foldl, ↓guard_updWh, ↓guard_ite, ite_self, implies_true, ↓guard_sset, ↓guard_setSState]))
theorem guard_emitToken (s e tok rows) : guard (State.emitToken s e tok rows) = guard s := by
  unfold State.emitToken; try simp only
  repeat' (split <;> (try dsimp only) <;> (try (rename_i h; obtain rfl := fst_eq h)) <;> (try (rename_i h; obtain rfl := snd_eq h)) <;> (try simp only [↓guard_ite, ite_self, ↓guard_seqWrite, ↓guard_noteStatus, ↓guard_packageCancel, ↓guard_emitFields, ↓guard_countMiss, ↓guard_turnEnds]))
theorem guard_rebuildStream (s e) : guard (State.rebuildStream s e) = guard s := by
  unfold State.rebuildStream; try simp only [↓guard_foldl, ↓guard_ite, ite_self, implies_true, ↓guard_unmapPages, ↓guard_setSx, ↓guard_modSeq, ↓guard_sset, ↓guard_setSState, ↓guard_bump]
  repeat' (split <;> (try dsimp only) <;> (try (rename_i h; obtain rfl := fst_eq h)) <;> (try (rename_i h; obtain rfl := snd_eq h)) <;> (try simp only [↓guard_upd, ↓guard_foldl, ↓guard_updWh, ↓guard_ite, ite_self, implies_true, ↓guard_unmapPages, ↓guard_setSx, ↓guard_modSeq, ↓guard_sset, ↓guard_setSState, ↓guard_bump]))
theorem guard_suppressStream (s e) : guard (State.suppressStream s e) = guard s := by
  unfold State.suppressStream; simp only [↓guard_ite, ite_self, ↓guard_sset, ↓guard_packageCancel]
theorem guard_houseEnds (s e) : guard (State.houseEnds s e) = guard s := by
  unfold State.houseEnds; simp only [↓guard_ite, ite_self, ↓guard_setSx]
theorem guard_partEnds (s c b) : guard (State.partEnds s c b) = guard s := by
  unfold State.partEnds; try simp only [↓guard_ite]
  repeat' (first | (refine (guard_foldl _ (fun s x => ?_) _ _).trans ?_) | (split <;> (try dsimp only) <;> (try (rename_i h; obtain rfl := fst_eq h)) <;> (try (rename_i h; obtain rfl := snd_eq h)))) <;> (try simp only [↓guard_ite, ite_self, ↓guard_packageCancel, ↓guard_suppressStream, ↓guard_rebuildStream, ↓guard_setSx, ↓guard_houseEnds, ↓guard_emitToken, ↓guard_sset, ↓guard_turnEnds])
theorem guard_fbRates (s c sl pf t) : guard (State.fbRates s c sl pf t) = guard s := by
  unfold State.fbRates; try simp only [↓guard_ite]
  repeat' (first | (refine (guard_foldl _ (fun s x => ?_) _ _).trans ?_) | (split <;> (try dsimp only) <;> (try (rename_i h; obtain rfl := fst_eq h)) <;> (try (rename_i h; obtain rfl := snd_eq h)))) <;> (try simp only [↓guard_ite, ite_self, ↓guard_modSeq])
theorem guard_stepEnds (s c) : guard (State.stepEnds s c) = guard s := by
  unfold State.stepEnds; try simp only
  repeat' (split <;> (try dsimp only) <;> (try (rename_i h; obtain rfl := fst_eq h)) <;> (try (rename_i h; obtain rfl := snd_eq h)) <;> (try simp only [↓guard_foldl, ↓guard_ite, ite_self, implies_true, ↓guard_modRun, ↓guard_setSx, ↓guard_partEnds, ↓guard_bump, ↓guard_modSeq, ↓guard_fbRates]))
theorem guard_stepAdvance (s c) : guard (State.stepAdvance s c) = guard s := by
  unfold State.stepAdvance; try simp only
  repeat' (split <;> (try dsimp only) <;> (try (rename_i h; obtain rfl := fst_eq h)) <;> (try (rename_i h; obtain rfl := snd_eq h)) <;> (try simp only [↓guard_foldl, ↓guard_ite, ite_self, implies_true, ↓guard_entryEnds, ↓guard_layersEnd, ↓guard_modRun, ↓guard_stepEnds, ↓guard_postGroup]))
theorem guard_stepWaitMet (s c) : guard (State.stepWaitMet s c) = guard s := by
  unfold State.stepWaitMet; try simp only [↓guard_upd, ↓guard_foldl, ↓guard_updWh, ↓guard_ite, ite_self, implies_true, ↓guard_stepAdvance, ↓guard_modRun]
  repeat' (first | (refine (guard_foldl _ (fun s x => ?_) _ _).trans ?_) | (split <;> (try dsimp only) <;> (try (rename_i h; obtain rfl := fst_eq h)) <;> (try (rename_i h; obtain rfl := snd_eq h)))) <;> (try simp only [↓guard_stepAdvance, ↓guard_modRun])
theorem guard_emitStep (s c) : guard (State.emitStep s c) = guard s := by
  unfold State.emitStep; try simp only
  repeat' (first | (refine (guard_foldl _ (fun s x => ?_) _ _).trans ?_) | (split <;> (try dsimp only) <;> (try (rename_i h; obtain rfl := fst_eq h)) <;> (try (rename_i h; obtain rfl := snd_eq h)))) <;> (try simp only [↓guard_ite, ↓guard_entryStatus, ↓guard_accErr, ↓guard_modRun, ↓guard_stepAdvance])
theorem guard_xferEnds (s c j sl d hold) : guard (State.xferEnds s c j sl d hold) = guard s := by
  unfold State.xferEnds; try simp only [↓guard_modRun, ↓guard_postGroup]
  repeat' (split <;> (try dsimp only) <;> (try (rename_i h; obtain rfl := fst_eq h)) <;> (try (rename_i h; obtain rfl := snd_eq h)) <;> (try simp only [↓guard_modRun, ↓guard_setWord]))
theorem guard_xferStart (s c) : guard (State.xferStart s c) = guard s := by
  unfold State.xferStart; try simp only
  repeat' (first | (refine (guard_foldl _ (fun s x => ?_) _ _).trans ?_) | (split <;> (try dsimp only) <;> (try (rename_i h; obtain rfl := fst_eq h)) <;> (try (rename_i h; obtain rfl := snd_eq h)))) <;> (try simp only [↓guard_ite, ↓guard_modRun, ↓guard_xferEnds, ↓guard_promote, ↓guard_promoteAfter])
theorem guard_xferCopy (s act c src dst n i) : guard (State.xferCopy s act c src dst n i).1 = guard s := by
  induction n generalizing s i with
  | zero => rfl
  | succ n ih =>
    unfold State.xferCopy
    extract_lets from_ to_
    split
    · exact guard_accErr ..
    · exact guard_accErr ..
    · split
      · exact guard_accErr ..
      · exact (ih _ _).trans (guard_copyGranule ..)
    · split
      · exact guard_accErr ..
      · split
        · rename_i h
          dsimp only
          rw [fst_eq h, guard_poke, guard_touch]
        · rename_i h
          rw [ih, fst_eq h, guard_poke, guard_touch]

theorem guard_xferLost (s c j sl) : guard (State.xferLost s c j sl) = guard s := by
  unfold State.xferLost; try simp only
  repeat' (split <;> (try dsimp only) <;> (try (rename_i h; obtain rfl := fst_eq h)) <;> (try (rename_i h; obtain rfl := snd_eq h)) <;> (try simp only [↓guard_ite, ite_self, ↓guard_modRun, ↓guard_entryStatus, ↓guard_stepEnds]))
theorem guard_xferDone (s c readOk) : guard (State.xferDone s c readOk) = guard s := by
  unfold State.xferDone
  split
  · split
    · split
      · rfl
      · split
        · extract_lets fromHost
          split
          · exact guard_xferLost ..
          · split
            · rfl
            · split
              · rename_i h
                rw [guard_xferLost, fst_eq h, guard_xferCopy, guard_charge]
              · rename_i h
                rw [guard_xferEnds, guard_bump, fst_eq h, guard_xferCopy, guard_charge]
        · extract_lets w
          split
          · rfl
          · rw [guard_xferEnds, guard_ite, guard_bump, ite_self]
    · rfl
  · rfl

theorem guard_closeBoundary (s c) : guard (State.closeBoundary s c) = guard s := by
  unfold State.closeBoundary; try simp only
  repeat' (split <;> (try dsimp only) <;> (try (rename_i h; obtain rfl := fst_eq h)) <;> (try (rename_i h; obtain rfl := snd_eq h)) <;> (try simp only [↓guard_updWh, ↓guard_closeIdle, ↓guard_closeStep, ↓guard_modSeq]))
theorem guard_lossRetire (s e st) : guard (State.lossRetire s e st) = guard s := by
  rfl
theorem guard_retireOne (s c e st) : guard (State.retireOne s c e st) = guard s := by
  unfold State.retireOne; simp only [↓guard_ite, ite_self, ↓guard_sset, ↓guard_setSState, ↓guard_emitRecord, ↓guard_faultLog, ↓guard_lossRetire]
theorem guard_retireList (s c es) : guard (State.retireList s c es).1 = guard s := by
  unfold State.retireList
  refine guard_foldl_fst _ (fun x e => ?_) _ _
  split
  · rfl
  · split
    · rfl
    · split
      · exact guard_retireOne ..
      · split
        · rfl
        · exact (guard_gauCount ..).trans (guard_setSx ..)

theorem guard_retireAll (s c) : guard (State.retireAll s c).1 = guard s := by
  unfold State.retireAll; simp only [↓guard_retireList]
theorem guard_freeItems (s c gone) : guard (State.freeItems s c gone) = guard s := by
  unfold State.freeItems; simp only [↓guard_foldl, ↓guard_updWh, implies_true, ↓guard_setSx, ↓guard_dropKv, ↓guard_quarRelease, ↓guard_dropOld]
theorem guard_startStream (s c e) : guard (State.startStream s c e) = guard s := by
  unfold State.startStream; simp only [↓guard_foldl, implies_true, ↓guard_setSx, ↓guard_giveRange, ↓guard_sset, ↓guard_setSState]
theorem guard_resumeStream (s c e) : guard (State.resumeStream s c e) = guard s := by
  unfold State.resumeStream; simp only [↓guard_ite, ite_self, ↓guard_sset, ↓guard_setSState, ↓guard_setSx, ↓guard_giveRange]
theorem guard_pauseStream (s e) : guard (State.pauseStream s e) = guard s := by
  rfl
theorem guard_request (s c e) : guard (State.request s c e).1 = guard s := by
  unfold State.request; try simp only
  repeat' (split <;> (try dsimp only) <;> (try (rename_i h; obtain rfl := fst_eq h)) <;> (try (rename_i h; obtain rfl := snd_eq h)) <;> (try simp only [↓guard_startStream, ↓guard_setSState, ↓guard_pauseStream, ↓guard_resumeStream]))
theorem guard_takeEntry (s c e) : guard (State.takeEntry s c e) = guard s := by
  unfold State.takeEntry; simp only [↓guard_updWh, ↓guard_request, ↓guard_sset]
theorem guard_strayBits (s) : guard (State.strayBits s) = guard s := by
  unfold State.strayBits; simp only [↓guard_foldl, ↓guard_updWh, implies_true, ↓guard_bump]
theorem guard_scanReady (s c) : guard (State.scanReady s c) = guard s := by
  unfold State.scanReady; try simp only [↓guard_foldl, implies_true, ↓guard_strayBits, ↓guard_takeEntry]
  repeat' (first | (refine (guard_foldl _ (fun s x => ?_) _ _).trans ?_) | (split <;> (try dsimp only) <;> (try (rename_i h; obtain rfl := fst_eq h)) <;> (try (rename_i h; obtain rfl := snd_eq h)))) <;> (try simp only [↓guard_upd, ↓guard_foldl, ↓guard_updWh, ↓guard_ite, ite_self, implies_true, ↓guard_strayBits, ↓guard_takeEntry])
theorem guard_adoptPages (s c e) : guard (State.adoptPages s c e) = guard s := by
  unfold State.adoptPages
  extract_lets base ps
  split
  · rfl
  · refine (guard_setSx ..).trans (guard_foldl _ (fun s k => ?_) _ _)
    split
    · exact guard_copyPage ..
    · rfl

theorem guard_adoptInto (s c node x e range) : guard (State.adoptInto s c node x e range) = guard s := by
  unfold State.adoptInto; try simp only [↓guard_foldl, ↓guard_updWh, implies_true, ↓guard_setSx, ↓guard_sset, ↓guard_setSState, ↓guard_giveRange, ↓guard_faultLog, ↓guard_seqEvent, ↓guard_bump, ↓guard_modLossRec]
  repeat' (split <;> (try dsimp only) <;> (try (rename_i h; obtain rfl := fst_eq h)) <;> (try (rename_i h; obtain rfl := snd_eq h)) <;> (try simp only [↓guard_upd, ↓guard_foldl, ↓guard_updWh, ↓guard_ite, ite_self, implies_true, ↓guard_setSx, ↓guard_sset, ↓guard_setSState, ↓guard_giveRange, ↓guard_faultLog, ↓guard_seqEvent, ↓guard_bump, ↓guard_modLossRec]))
theorem guard_adoptOne (s c a x) : guard (State.adoptOne s c a x) = guard s := by
  unfold State.adoptOne; try simp only
  repeat' (split <;> (try dsimp only) <;> (try (rename_i h; obtain rfl := fst_eq h)) <;> (try (rename_i h; obtain rfl := snd_eq h)) <;> (try simp only [↓guard_ite, ↓guard_modLossRec, ↓guard_faultLog, ↓guard_adoptInto]))
theorem guard_adoptAll (s c as) : guard (State.adoptAll s c as) = guard s := by
  unfold State.adoptAll; simp only [↓guard_foldl, ↓guard_ite, ite_self, implies_true, ↓guard_adoptOne, ↓guard_modSeq]
theorem guard_startDemotions (s c) : guard (State.startDemotions s c) = guard s := by
  rfl
theorem guard_shadowTake (s c e offs) {t : State} (ht : State.shadowTake s c e offs = some t) : guard t = guard s := by
  unfold State.shadowTake at ht
  extract_lets need got at ht
  split at ht
  · cases ht
  · rw [← Option.some.inj ht, guard_setSx, guard_sset]

theorem guard_shadowCopy (s c d e) : guard (State.shadowCopy s c d e) = guard s := by
  unfold State.shadowCopy
  extract_lets note
  have hn : ∀ t, guard (note t) = guard t := fun t => (guard_setSx ..).trans (guard_emit ..)
  split
  · exact guard_setSx ..
  · split
    · rfl
    · split
      · exact hn s
      · split
        · rfl
        · rename_i h
          extract_lets span
          have h1 := guard_shadowTake _ _ _ _ h
          split
          · exact h1
          · rw [hn, guard_setSx, guard_issueAll, h1]

theorem guard_shadowCopies (s c) : guard (State.shadowCopies s c) = guard s := by
  unfold State.shadowCopies; try simp only [↓guard_upd, ↓guard_foldl, ↓guard_updWh, ↓guard_ite, ite_self, implies_true, ↓guard_shadowCopy]
  repeat' (split <;> (try dsimp only) <;> (try (rename_i h; obtain rfl := fst_eq h)) <;> (try (rename_i h; obtain rfl := snd_eq h)) <;> (try simp only [↓guard_foldl, ↓guard_ite, ite_self, implies_true, ↓guard_shadowCopy]))
theorem guard_judge (s c e) : guard (State.judge s c e) = guard s := by
  unfold State.judge; try simp only [↓guard_ite]
  repeat' (split <;> (try dsimp only) <;> (try (rename_i h; obtain rfl := fst_eq h)) <;> (try (rename_i h; obtain rfl := snd_eq h)) <;> (try simp only [↓guard_ite, ite_self, ↓guard_bump, ↓guard_sset]))
theorem guard_monitor (s c) : guard (State.monitor s c) = guard s := by
  unfold State.monitor; try simp only [↓guard_foldl, implies_true, ↓guard_judge]
  repeat' (first | (refine (guard_foldl _ (fun s x => ?_) _ _).trans ?_) | (split <;> (try dsimp only) <;> (try (rename_i h; obtain rfl := fst_eq h)) <;> (try (rename_i h; obtain rfl := snd_eq h)))) <;> (try simp only [↓guard_upd, ↓guard_foldl, ↓guard_updWh, ↓guard_ite, ite_self, implies_true, ↓guard_judge])
theorem guard_switch (s c e d) : guard (State.switch s c e d) = guard s := by
  unfold State.switch
  extract_lets k pos s1 s2 s3 s4 s5
  have h2 : guard s2 = guard s := by
    simp only [s2, s1, guard_bump, guard_sset, guard_setSState]
  have h4 : guard s4 = guard s := by
    simp only [s4, s3, guard_ite, guard_setSx, guard_sset, guard_unmapPages, h2, ite_self]
  have h5 : guard s5 = guard s := by
    simp only [s5, guard_sset, guard_setSx, guard_giveRange, h4]
  split
  · split
    · rename_i h
      exact (guard_setSx ..).trans ((guard_takePages _ _ _ _ h).trans h5)
    · exact h5
  · exact h5

theorem guard_switches (s c) : guard (State.switches s c) = guard s := by
  unfold State.switches; try simp only
  repeat' (first | (refine (guard_foldl _ (fun s x => ?_) _ _).trans ?_) | (split <;> (try dsimp only) <;> (try (rename_i h; obtain rfl := fst_eq h)) <;> (try (rename_i h; obtain rfl := snd_eq h)))) <;> (try simp only [↓guard_ite, ite_self, ↓guard_switch, ↓guard_bump])
theorem guard_importLayer (s e from_ n kh kp) : guard (State.importLayer s e from_ n kh kp) = guard s := by
  unfold State.importLayer; try simp only
  repeat' (first | (refine (guard_foldl _ (fun s x => ?_) _ _).trans ?_) | (split <;> (try dsimp only) <;> (try (rename_i h; obtain rfl := fst_eq h)) <;> (try (rename_i h; obtain rfl := snd_eq h)))) <;> (try simp only [↓guard_poke])
theorem guard_importDone (s e) : guard (State.importDone s e) = guard s := by
  unfold State.importDone; try simp only
  repeat' (first | (refine (guard_foldl _ (fun s x => ?_) _ _).trans ?_) | (split <;> (try dsimp only) <;> (try (rename_i h; obtain rfl := fst_eq h)) <;> (try (rename_i h; obtain rfl := snd_eq h)))) <;> (try simp only [↓guard_importLayer, ↓guard_setSx, ↓guard_sset])
theorem guard_askSlots (s c) : guard (State.askSlots s c) = guard s := by
  unfold State.askSlots
  split
  · rw [guard_ite, guard_wantSlot, ite_self]
  · rfl

theorem guard_pagesFor (s c e n) {t : State} (ht : State.pagesFor s c e n = some t) : guard t = guard s := by
  unfold State.pagesFor at ht
  obtain ⟨u, hu, rfl⟩ := Option.map_eq_some_iff.mp ht
  refine (guard_adoptPages ..).trans ?_
  split at hu <;> exact guard_takePages _ _ _ _ hu

theorem guard_batchAdd (b : Batching) (s : State) (c e n : Nat) : guard (b.add s c e n).s = guard s := by
  unfold Batching.add
  extract_lets pos va got s1 s2
  have h1 : guard s1 = guard s := by
    show guard (match s.seqRead c va (4 * n) with
      | .error er => (s.accErr c unitSeq 0 va er).noteStatus c er.status
      | .ok _ => s) = guard s
    split
    · rw [guard_noteStatus, guard_accErr]
    · rfl
  show guard s2 = guard s
  show guard (if _ then _ else _) = guard s
  rw [guard_ite, guard_setSState, ite_self, h1]

theorem guard_batchPass (c : Nat) (kind : PassKind) (l : List Nat) (b : Batching) : guard (Batching.pass c kind l b).s = guard b.s := by
  induction l generalizing b with
  | nil => rfl
  | cons e es ih =>
    unfold Batching.pass
    extract_lets need n
    split
    · rfl
    · split
      · exact (ih _).trans (guard_modSeq ..)
      · split
        · exact (ih _).trans ((guard_seqEvent ..).trans (guard_bump ..))
        · rename_i h
          exact (ih _).trans ((guard_batchAdd ..).trans (guard_pagesFor _ _ _ _ h))

theorem guard_compose (s : State) (c sl : Nat) : guard (s.compose c sl).s = guard s := by
  unfold State.compose
  have h : ∀ (l : List (Nat × PassKind)) (b : Batching),
      guard (l.foldl (fun (b : Batching) (x : Nat × PassKind) => b.pass c x.2 (b.candidates c sl x.1 x.2)) b).s = guard b.s := by
    intro l
    induction l with
    | nil => intro b; rfl
    | cons x l ih => intro b; exact (ih _).trans (guard_batchPass ..)
  exact h _ _

theorem guard_ages (b : Batching) (c sl : Nat) : guard (b.ages c sl) = guard b.s := by
  unfold Batching.ages
  refine guard_foldl _ (fun s e => ?_) _ _
  simp only [guard_ite, guard_setSx, ite_self]

theorem guard_batchStart (b : Batching) (c k : Nat) (d : CoveDecl) (sl : SlotDecl) : guard (b.start c k d sl) = guard b.s := by
  unfold Batching.start
  extract_lets s1 pad g s2
  have h2 : guard s2 = guard b.s := by
    simp only [s2, s1, guard_ite, guard_setReg, guard_ages, ite_self]
  split
  rename_i s3 bad h
  extract_lets r s4 s5
  have h4 : guard s4 = guard b.s := by
    rw [guard_modSeq, fst_eq h, guard_seqWrites, h2]
  have h5 : guard s5 = guard b.s := by
    simp only [s5]
    split
    · exact (guard_entryStatus ..).trans h4
    · exact h4
  rw [guard_postGroup, h5]

theorem guard_item5 (s c d) : guard (State.item5 s c d) = guard s := by
  unfold State.item5
  extract_lets s1 s2
  have h2 : guard s2 = guard s := by
    simp only [s2, s1, guard_askSlots, guard_switches, guard_monitor, guard_shadowCopies, guard_startDemotions]
  split
  · exact h2
  · split
    · exact h2
    · extract_lets b
      have hb : guard b.s = guard s := (guard_compose ..).trans h2
      split
      · exact hb
      · exact (guard_batchStart ..).trans hb

theorem guard_stepBoundary (s c as) : guard (State.stepBoundary s c as) = guard s := by
  unfold State.stepBoundary; try simp only
  repeat' (first | (refine (guard_foldl _ (fun s x => ?_) _ _).trans ?_) | (split <;> (try dsimp only) <;> (try (rename_i h; obtain rfl := fst_eq h)) <;> (try (rename_i h; obtain rfl := snd_eq h)))) <;> (try simp only [↓guard_ite, ite_self, ↓guard_modSeq, ↓guard_closeBoundary, ↓guard_mendTables, ↓guard_retireAll, ↓guard_freeItems, ↓guard_item5, ↓guard_scanReady, ↓guard_adoptAll])
theorem guard_bar4Write (s fn off data ide) : guard (State.bar4Write s fn off data ide) = guard s := by
  unfold State.bar4Write; try simp only [↓guard_upd, ↓guard_foldl, ↓guard_updWh, ↓guard_ite, ite_self, implies_true, ↓guard_emit, ↓guard_bar4Store]
  repeat' (first | (refine (guard_foldl _ (fun s x => ?_) _ _).trans ?_) | (split <;> (try dsimp only) <;> (try (rename_i h; obtain rfl := fst_eq h)) <;> (try (rename_i h; obtain rfl := snd_eq h)))) <;> (try simp only [↓guard_ite, ite_self, ↓guard_emit, ↓guard_bar4Store])
theorem guard_arbitrate (s ds resource) : guard (State.arbitrate s ds resource) = guard s := by
  unfold State.arbitrate; simp only [↓guard_foldl, ↓guard_updWh, implies_true, ↓guard_ripple]
theorem guard_arbitrateAll (s ds) : guard (State.arbitrateAll s ds) = guard s := by
  unfold State.arbitrateAll; simp only [↓guard_foldl, implies_true, ↓guard_arbitrate]
theorem guard_budgetBoundary (s ds) : guard (State.budgetBoundary s ds) = guard s := by
  unfold State.budgetBoundary; simp only [↓guard_foldl, ↓guard_ite, ite_self, implies_true, ↓guard_judgeDrained, ↓guard_arbitrateAll, ↓guard_moveOn, ↓guard_closeIdle]
theorem guard_setCvu (s i f) : guard (State.setCvu s i f) = guard s := by
  rfl
theorem guard_cvuFeed (s fn i bs) : guard (State.cvuFeed s fn i bs) = guard s := by
  unfold State.cvuFeed; simp only [↓guard_ite, ite_self, ↓guard_setFlags, ↓guard_setCvu]
theorem guard_cvuCtrl (s fn i w) : guard (State.cvuCtrl s fn i w) = guard s := by
  unfold State.cvuCtrl; simp only [↓guard_ite, ite_self, ↓guard_setCvu]
theorem guard_cvuValue (s fn i lo hi) : guard (State.cvuValue s fn i lo hi) = guard s := by
  unfold State.cvuValue; simp only [↓guard_ite, ite_self, ↓guard_setCvu]
theorem guard_modInl (s f) : guard (State.modInl s f) = guard s := by
  rfl
theorem guard_setCtx (s x k) : guard (State.setCtx s x k) = guard s := by
  rfl
theorem guard_loadPost (s c addr) : guard (State.loadPost s c addr) = guard s := by
  unfold State.loadPost; simp only [↓guard_ite, ite_self, ↓guard_queueFlag, ↓guard_modInl]
theorem guard_loadAnswer (s c addr d st) : guard (State.loadAnswer s c addr d st) = guard s := by
  unfold State.loadAnswer; simp only [↓guard_applyDone, ↓guard_noteStatus, ↓guard_poke]
theorem guard_loadPages (s x k) : guard (State.loadPages s x k).1 = guard s := by
  unfold State.loadPages
  extract_lets n ps
  split
  · exact (guard_modObj ..).trans (guard_setCtx ..)
  · exact guard_setCtx ..

theorem guard_loadAbort (s x st) : guard (State.loadAbort s x st) = guard s := by
  unfold State.loadAbort; try simp only
  repeat' (first | (refine (guard_foldl _ (fun s x => ?_) _ _).trans ?_) | (split <;> (try dsimp only) <;> (try (rename_i h; obtain rfl := fst_eq h)) <;> (try (rename_i h; obtain rfl := snd_eq h)))) <;> (try simp only [↓guard_modObj, ↓guard_setCtx, ↓guard_setWord, ↓guard_loadAnswer, ↓guard_bump])
theorem guard_loadWait (s x k) : guard (State.loadWait s x k) = guard s := by
  unfold State.loadWait
  split
  · rename_i h
    rw [fst_eq h, guard_loadPages]
  · rename_i h
    split
    · rename_i h2
      rw [fst_eq h2, guard_leastUsed, fst_eq h, guard_loadPages]
    · rename_i h2
      rw [guard_loadAbort, fst_eq h2, guard_leastUsed, fst_eq h, guard_loadPages]

theorem guard_loadAccept (s x c addr d t) : guard (State.loadAccept s x c addr d t) = guard s := by
  unfold State.loadAccept
  extract_lets i s1 k
  rw [guard_ite, guard_loadWait, guard_setCtx, ite_self]
  exact guard_setWord ..

theorem guard_loadTake (s x) : guard (State.loadTake s x) = guard s := by
  unfold State.loadTake; try simp only [↓guard_ite]
  repeat' (split <;> (try dsimp only) <;> (try (rename_i h; obtain rfl := fst_eq h)) <;> (try (rename_i h; obtain rfl := snd_eq h)) <;> (try simp only [↓guard_ite, ite_self, ↓guard_modInl, ↓guard_touch, ↓guard_queueFlag, ↓guard_loadAnswer, ↓guard_accErr, ↓guard_bump, ↓guard_loadAccept]))
theorem guard_writePage (s c dpa b) : guard (State.writePage s c dpa b) = guard s := by
  unfold State.writePage; simp only [↓guard_foldl, implies_true, ↓guard_writeGranule]
theorem guard_writePages (s c b dpas) : guard (State.writePages s c b dpas) = guard s := by
  unfold State.writePages; simp only [↓guard_foldl, implies_true, ↓guard_writePage]
theorem guard_loadedObject (s c i d key st) : guard (State.loadedObject s c i d key st) = guard s := by
  unfold State.loadedObject; simp only [↓guard_ite, ite_self, ↓guard_modObj, ↓guard_objLeaves, ↓guard_setWord, ↓guard_noteReady]
theorem guard_loadFinish (s x k b outs) : guard (State.loadFinish s x k b outs) = guard s := by
  unfold State.loadFinish; simp only [↓guard_foldl, ↓guard_ite, ite_self, implies_true, ↓guard_charge, ↓guard_bump, ↓guard_writePages, ↓guard_loadedObject, ↓guard_poke, ↓guard_loadAnswer, ↓guard_setCtx]
theorem guard_sourceFault (s k) : guard (State.sourceFault s k) = guard s := by
  unfold State.sourceFault; try simp only [↓guard_upd, ↓guard_foldl, ↓guard_updWh, ↓guard_ite, ite_self, implies_true, ↓guard_accErr]
  repeat' (split <;> (try dsimp only) <;> (try (rename_i h; obtain rfl := fst_eq h)) <;> (try (rename_i h; obtain rfl := snd_eq h)) <;> (try simp only [↓guard_accErr]))
theorem guard_loadRun (s x k) : guard (State.loadRun s x k) = guard s := by
  unfold State.loadRun; try simp only [↓guard_upd, ↓guard_foldl, ↓guard_updWh, ↓guard_ite, ite_self, implies_true, ↓guard_loadAbort, ↓guard_sourceFault, ↓guard_loadFinish]
  repeat' (split <;> (try dsimp only) <;> (try (rename_i h; obtain rfl := fst_eq h)) <;> (try (rename_i h; obtain rfl := snd_eq h)) <;> (try simp only [↓guard_loadAbort, ↓guard_sourceFault, ↓guard_loadFinish]))
theorem guard_loadComplete (s x) : guard (State.loadComplete s x) = guard s := by
  unfold State.loadComplete; try simp only
  repeat' (split <;> (try dsimp only) <;> (try (rename_i h; obtain rfl := fst_eq h)) <;> (try (rename_i h; obtain rfl := snd_eq h)) <;> (try simp only [↓guard_ite, ite_self, ↓guard_loadRun, ↓guard_loadAbort, ↓guard_loadWait]))
theorem guard_loadStop (s x readFail) : guard (State.loadStop s x readFail) = guard s := by
  unfold State.loadStop; try simp only [↓guard_upd, ↓guard_foldl, ↓guard_updWh, ↓guard_ite, ite_self, implies_true, ↓guard_loadAbort, ↓guard_loadWait]
  repeat' (split <;> (try dsimp only) <;> (try (rename_i h; obtain rfl := fst_eq h)) <;> (try (rename_i h; obtain rfl := snd_eq h)) <;> (try simp only [↓guard_ite, ite_self, ↓guard_loadAbort, ↓guard_loadWait]))
theorem guard_loadCancel (s c addr) : guard (State.loadCancel s c addr) = guard s := by
  unfold State.loadCancel; try simp only [↓guard_ite, ↓guard_modInl]
  repeat' (split <;> (try dsimp only) <;> (try (rename_i h; obtain rfl := fst_eq h)) <;> (try (rename_i h; obtain rfl := snd_eq h)) <;> (try simp only [↓guard_modInl, ↓guard_loadAnswer, ↓guard_noteStatus, ↓guard_poke]))
theorem guard_modRefetch (s f) : guard (State.modRefetch s f) = guard s := by
  rfl
theorem guard_openRefetch (s c i va w) : guard (State.openRefetch s c i va w) = guard s := by
  unfold State.openRefetch; try simp only
  repeat' (split <;> (try dsimp only) <;> (try (rename_i h; obtain rfl := fst_eq h)) <;> (try (rename_i h; obtain rfl := snd_eq h)) <;> (try simp only [↓guard_ite, ite_self, ↓guard_setWord, ↓guard_issueAll, ↓guard_modRefetch]))
theorem guard_joinRefetch (s w va) : guard (State.joinRefetch s w va) = guard s := by
  unfold State.joinRefetch; try simp only
  repeat' (split <;> (try dsimp only) <;> (try (rename_i h; obtain rfl := fst_eq h)) <;> (try (rename_i h; obtain rfl := snd_eq h)) <;> (try simp only [↓guard_ite, ite_self, ↓guard_faultLog, ↓guard_bump, ↓guard_modRefetch, ↓guard_openRefetch]))
theorem guard_moveToIntake (s) : guard (State.moveToIntake s) = guard s := by
  rfl
theorem guard_rerun (s x) : guard (State.rerun s x) = guard s := by
  unfold State.rerun; try simp only [↓guard_ite, ↓guard_moveToIntake]
  repeat' (split <;> (try dsimp only) <;> (try (rename_i h; obtain rfl := fst_eq h)) <;> (try (rename_i h; obtain rfl := snd_eq h)) <;> (try simp only [↓guard_moveToIntake, ↓guard_charge, ↓guard_bump, ↓guard_setCtx]))
theorem guard_dropRefetch (s r) : guard (State.dropRefetch s r) = guard s := by
  unfold State.dropRefetch; try simp only [↓guard_ite, ite_self, ↓guard_modRefetch, ↓guard_setWord, ↓guard_modInl]
  repeat' (split <;> (try dsimp only) <;> (try (rename_i h; obtain rfl := fst_eq h)) <;> (try (rename_i h; obtain rfl := snd_eq h)) <;> (try simp only [↓guard_upd, ↓guard_foldl, ↓guard_updWh, ↓guard_ite, ite_self, implies_true, ↓guard_modRefetch, ↓guard_setWord, ↓guard_modInl]))
theorem guard_restorePage (s r b) : guard (State.restorePage s r b) = guard s := by
  unfold State.restorePage; try simp only [↓guard_upd, ↓guard_foldl, ↓guard_updWh, ↓guard_ite, ite_self, implies_true, ↓guard_writePage, ↓guard_writeGranule]
  repeat' (split <;> (try dsimp only) <;> (try (rename_i h; obtain rfl := fst_eq h)) <;> (try (rename_i h; obtain rfl := snd_eq h)) <;> (try simp only [↓guard_foldl, ↓guard_ite, ite_self, implies_true, ↓guard_writePage, ↓guard_writeGranule]))
theorem guard_ferryResume (s ws) : guard (State.ferryResume s ws) = guard s := by
  unfold State.ferryResume; try simp only [↓guard_foldl, ↓guard_ite, ite_self, implies_true, ↓guard_modFerry, ↓guard_ferryChunk, ↓guard_ferrySingle]
  repeat' (split <;> (try dsimp only) <;> (try (rename_i h; obtain rfl := fst_eq h)) <;> (try (rename_i h; obtain rfl := snd_eq h)) <;> (try simp only [↓guard_upd, ↓guard_foldl, ↓guard_updWh, ↓guard_ite, ite_self, implies_true, ↓guard_modFerry, ↓guard_ferryChunk, ↓guard_ferrySingle]))
theorem guard_releaseEngines (s c va) : guard (State.releaseEngines s c va) = guard s := by
  rfl
theorem guard_refetchDone (s c va) : guard (State.refetchDone s c va) = guard s := by
  unfold State.refetchDone; try simp only
  repeat' (split <;> (try dsimp only) <;> (try (rename_i h; obtain rfl := fst_eq h)) <;> (try (rename_i h; obtain rfl := snd_eq h)) <;> (try simp only [↓guard_foldl, implies_true, ↓guard_restorePage, ↓guard_bump, ↓guard_dropRefetch, ↓guard_faultLog, ↓guard_writePiece, ↓guard_ferryResume, ↓guard_releaseEngines]))
theorem guard_loseWaiters (s r) : guard (State.loseWaiters s r) = guard s := by
  unfold State.loseWaiters; simp only [↓guard_foldl, ↓guard_updWh, ↓guard_ite, ite_self, implies_true, ↓guard_ferryStop, ↓guard_modFerry]
theorem guard_loseObject (s c i va) : guard (State.loseObject s c i va) = guard s := by
  unfold State.loseObject; simp only [↓guard_foldl, implies_true, ↓guard_faultLog, ↓guard_bump, ↓guard_loseWaiters, ↓guard_dropRefetch, ↓guard_fltEvent, ↓guard_degrade, ↓guard_loseWord, ↓guard_ripple]
theorem guard_loseShadow (s r) : guard (State.loseShadow s r) = guard s := by
  unfold State.loseShadow; try simp only [↓guard_setSx, ↓guard_sset, ↓guard_faultLog, ↓guard_bump, ↓guard_dropRefetch]
  repeat' (split <;> (try dsimp only) <;> (try (rename_i h; obtain rfl := fst_eq h)) <;> (try (rename_i h; obtain rfl := snd_eq h)) <;> (try simp only [↓guard_upd, ↓guard_foldl, ↓guard_updWh, ↓guard_ite, ite_self, implies_true, ↓guard_setSx, ↓guard_sset, ↓guard_faultLog, ↓guard_bump, ↓guard_dropRefetch]))
theorem guard_refetchFail (s c va hostFailed) : guard (State.refetchFail s c va hostFailed) = guard s := by
  unfold State.refetchFail; try simp only
  repeat' (split <;> (try dsimp only) <;> (try (rename_i h; obtain rfl := fst_eq h)) <;> (try (rename_i h; obtain rfl := snd_eq h)) <;> (try simp only [↓guard_ite, ite_self, ↓guard_moveToIntake, ↓guard_loseObject, ↓guard_loseShadow]))
theorem guard_modHif (s f) : guard (State.modHif s f) = guard s := by
  rfl
theorem guard_resetStat (s kind st) : guard (State.resetStat s kind st) = guard s := by
  rfl
theorem guard_haltWork (s scope) : guard (State.haltWork s scope) = guard s := by
  rfl
theorem guard_dropBasin (s) : guard (State.dropBasin s) = guard s := by
  rfl
theorem guard_orphanBasin (s c) : guard (State.orphanBasin s c) = guard s := by
  rfl
theorem guard_pruneLoss (s) : guard (State.pruneLoss s) = guard s := by
  rfl
theorem guard_dropStep (s suppress c) : guard (State.dropStep s suppress c) = guard s := by
  unfold State.dropStep; try simp only [↓guard_updWh, ↓guard_closeToHouse, ↓guard_modSeq, ↓guard_setReg]
  repeat' (split <;> (try dsimp only) <;> (try (rename_i h; obtain rfl := fst_eq h)) <;> (try (rename_i h; obtain rfl := snd_eq h)) <;> (try simp only [↓guard_foldl, ↓guard_ite, ite_self, implies_true, ↓guard_partEnds]))
theorem guard_warmObject (s k) : guard (State.warmObject s k) = guard s := by
  unfold State.warmObject; try simp only
  repeat' (split <;> (try dsimp only) <;> (try (rename_i h; obtain rfl := fst_eq h)) <;> (try (rename_i h; obtain rfl := snd_eq h)) <;> (try simp only [↓guard_ite, ite_self, ↓guard_setWord, ↓guard_clearLeaves, ↓guard_modObj, ↓guard_objLeaves, ↓guard_noteReady]))
theorem guard_freeObjects (s c) : guard (State.freeObjects s c) = guard s := by
  rfl
theorem guard_clearRoot (s c) : guard (State.clearRoot s c) = guard s := by
  unfold State.clearRoot; try simp only
  repeat' (split <;> (try dsimp only) <;> (try (rename_i h; obtain rfl := fst_eq h)) <;> (try (rename_i h; obtain rfl := snd_eq h)) <;> (try simp only [↓guard_updWh]))
theorem guard_endStreams (s scope es) : guard (State.endStreams s scope es) = guard s := by
  unfold State.endStreams; simp only [↓guard_foldl, ↓guard_updWh, ↓guard_ite, ite_self, implies_true, ↓guard_packageCancel, ↓guard_retireList, ↓guard_freeItems]
theorem guard_clearArrival (s c) : guard (State.clearArrival s c) = guard s := by
  unfold State.clearArrival; try simp only [↓guard_upd, ↓guard_foldl, ↓guard_updWh, ↓guard_ite, ite_self, implies_true]
  repeat' (split <;> (try dsimp only) <;> (try (rename_i h; obtain rfl := fst_eq h)) <;> (try (rename_i h; obtain rfl := snd_eq h)) <;> (try simp only [↓guard_updWh]))
theorem guard_wideBegin (s) : guard (State.wideBegin s) = guard s := by
  unfold State.wideBegin; simp only [↓guard_updWh, ↓guard_ite, ite_self, ↓guard_ripClose, ↓guard_closePorts, ↓guard_sendDrainNotices, ↓guard_loseAttested]
theorem guard_warmNow (s) : guard (State.warmNow s) = guard s := by
  unfold State.warmNow; simp only [↓guard_foldl, ↓guard_updWh, ↓guard_ite, ite_self, implies_true, ↓guard_wideBegin, ↓guard_dropBasin, ↓guard_haltWork, ↓guard_dropStep, ↓guard_warmObject, ↓guard_pruneLoss, ↓guard_eraseAllKeys, ↓guard_loseAttested, ↓guard_modWeir, ↓guard_toPstate]
theorem guard_deviceNow (s) : guard (State.deviceNow s) = guard s := by
  unfold State.deviceNow; simp only [↓guard_foldl, ↓guard_updWh, implies_true, ↓guard_wideBegin, ↓guard_dropBasin, ↓guard_haltWork, ↓guard_dropStep, ↓guard_endStreams, ↓guard_clearRoot, ↓guard_freeObjects, ↓guard_pruneLoss, ↓guard_zeroMeres, ↓guard_eraseAllKeys, ↓guard_nextEpochs, ↓guard_modHif]
theorem guard_coveNow (s c) : guard (State.coveNow s c) = guard s := by
  unfold State.coveNow; simp only [↓guard_orphanBasin, ↓guard_haltWork, ↓guard_dropStep, ↓guard_endStreams, ↓guard_clearRoot, ↓guard_freeObjects, ↓guard_clearArrival, ↓guard_zeroMereOf, ↓guard_eraseCoveKeys, ↓guard_nextEpoch, ↓guard_modHif, ↓guard_pruneLoss]
theorem guard_startReset (s r) : guard (State.startReset s r) = guard s := by
  unfold State.startReset; try simp only [↓guard_upd, ↓guard_foldl, ↓guard_updWh, ↓guard_ite, ite_self, implies_true, ↓guard_warmNow, ↓guard_deviceNow, ↓guard_coveNow, ↓guard_modHif]
  repeat' (split <;> (try dsimp only) <;> (try (rename_i h; obtain rfl := fst_eq h)) <;> (try (rename_i h; obtain rfl := snd_eq h)) <;> (try simp only [↓guard_warmNow, ↓guard_deviceNow, ↓guard_coveNow, ↓guard_modHif]))
theorem guard_beginReset (s k target) : guard (State.beginReset s k target) = guard s := by
  unfold State.beginReset; simp only [↓guard_ite, ite_self, ↓guard_modHif, ↓guard_startReset]
theorem guard_nextReset (s) : guard (State.nextReset s) = guard s := by
  unfold State.nextReset; try simp only [↓guard_upd, ↓guard_foldl, ↓guard_updWh, ↓guard_ite, ite_self, implies_true, ↓guard_startReset, ↓guard_modHif]
  repeat' (split <;> (try dsimp only) <;> (try (rename_i h; obtain rfl := fst_eq h)) <;> (try (rename_i h; obtain rfl := snd_eq h)) <;> (try simp only [↓guard_ite, ite_self, ↓guard_startReset, ↓guard_modHif]))
theorem guard_requestReset (s k accepted) (haccepted : ∀ y0, guard (accepted y0) = guard y0) : guard (State.requestReset s k accepted) = guard s := by
  unfold State.requestReset; try simp only [↓guard_ite]
  repeat' (split <;> (try dsimp only) <;> (try (rename_i h; obtain rfl := fst_eq h)) <;> (try (rename_i h; obtain rfl := snd_eq h)) <;> (try simp only [↓guard_resetStat, haccepted]))
theorem guard_portAgain (s p) : guard (State.portAgain s p) = guard s := by
  unfold State.portAgain; simp only [↓guard_foldl, implies_true, ↓guard_train, ↓guard_failConn, ↓guard_portTo]
theorem guard_portReset (s p) : guard (State.portReset s p) = guard s := by
  unfold State.portReset; simp only [↓guard_ite, ite_self, ↓guard_resetStat, ↓guard_hifEvent, ↓guard_portAgain]
theorem guard_perst (s) : guard (State.perst s) = guard s := by
  unfold State.perst; simp only [↓guard_ite, ite_self, ↓guard_warmNow]
theorem guard_flr (s fn) : guard (State.flr s fn) = guard s := by
  unfold State.flr; simp only [↓guard_ite, ite_self, ↓guard_beginReset]
theorem guard_resetEnds (s r st) : guard (State.resetEnds s r st) = guard s := by
  unfold State.resetEnds; simp only [↓guard_hifEvent, ↓guard_resetStat, ↓guard_modHif, ↓guard_nextReset]
theorem guard_resetDone (s) : guard (State.resetDone s) = guard s := by
  unfold State.resetDone; try simp only [↓guard_upd, ↓guard_foldl, ↓guard_updWh, ↓guard_ite, ite_self, implies_true, ↓guard_resetEnds, ↓guard_raise, ↓guard_trainPorts]
  repeat' (first | (refine (guard_foldl _ (fun s x => ?_) _ _).trans ?_) | (split <;> (try dsimp only) <;> (try (rename_i h; obtain rfl := fst_eq h)) <;> (try (rename_i h; obtain rfl := snd_eq h)))) <;> (try simp only [↓guard_ite, ite_self, ↓guard_resetEnds, ↓guard_raise, ↓guard_trainPorts])
theorem guard_bootFirmware (s) : guard (State.bootFirmware s) = guard s := by
  unfold State.bootFirmware; simp only [↓guard_updWh, ↓guard_ite, ite_self, ↓guard_modHif]
theorem guard_hbmTrain (s failed) : guard (State.hbmTrain s failed) = guard s := by
  unfold State.hbmTrain; simp only [↓guard_updWh, ↓guard_ite, ite_self, ↓guard_bootFirmware, ↓guard_modHif]
theorem guard_deepTrain (s perController) : guard (State.deepTrain s perController) = guard s := by
  unfold State.deepTrain; simp only [↓guard_updWh, ↓guard_ite, ite_self, ↓guard_modHif]
theorem guard_asIf (s im) : guard (State.asIf s im) = guard s := by
  rfl
theorem guard_barError (s) : guard (State.barError s) = guard s := by
  unfold State.barError; simp only [↓guard_hifEvent, ↓guard_bump]
theorem guard_objStore (s c off b) : guard (State.objStore s c off b) = guard s := by
  unfold State.objStore; try simp only [↓guard_ite, ite_self, ↓guard_modObj]
  repeat' (split <;> (try dsimp only) <;> (try (rename_i h; obtain rfl := fst_eq h)) <;> (try (rename_i h; obtain rfl := snd_eq h)) <;> (try simp only [↓guard_upd, ↓guard_foldl, ↓guard_updWh, ↓guard_ite, ite_self, implies_true, ↓guard_modObj]))
theorem guard_windowRead (s w off n) : guard (State.windowRead s w off n) = guard s := by
  unfold State.windowRead; try simp only [↓guard_ite, ↓guard_emit]
  repeat' (split <;> (try dsimp only) <;> (try (rename_i h; obtain rfl := fst_eq h)) <;> (try (rename_i h; obtain rfl := snd_eq h)) <;> (try simp only [↓guard_emit, ↓guard_joinRefetch, ↓guard_accErr, ↓guard_touch]))
theorem guard_bar2Read (s fn off n ide) : guard (State.bar2Read s fn off n ide) = guard s := by
  unfold State.bar2Read; try simp only [↓guard_ite, ↓guard_emit]
  repeat' (split <;> (try dsimp only) <;> (try (rename_i h; obtain rfl := fst_eq h)) <;> (try (rename_i h; obtain rfl := snd_eq h)) <;> (try simp only [↓guard_emit, ↓guard_barError, ↓guard_windowRead]))
theorem guard_coveWrite (s w va rs) : guard (State.coveWrite s w va rs) = guard s := by
  unfold State.coveWrite; try simp only [↓guard_upd, ↓guard_foldl, ↓guard_updWh, ↓guard_ite, ite_self, implies_true, ↓guard_accErr, ↓guard_poke]
  repeat' (first | (refine (guard_foldl _ (fun s x => ?_) _ _).trans ?_) | (split <;> (try dsimp only) <;> (try (rename_i h; obtain rfl := fst_eq h)) <;> (try (rename_i h; obtain rfl := snd_eq h)))) <;> (try simp only [↓guard_foldl, implies_true, ↓guard_accErr, ↓guard_poke])
theorem guard_windowWrite (s w off data) : guard (State.windowWrite s w off data) = guard s := by
  unfold State.windowWrite; try simp only [↓guard_upd, ↓guard_foldl, ↓guard_updWh, ↓guard_ite, ite_self, implies_true, ↓guard_coveWrite, ↓guard_barError, ↓guard_objStore]
  repeat' (first | (refine (guard_foldl _ (fun s x => ?_) _ _).trans ?_) | (split <;> (try dsimp only) <;> (try (rename_i h; obtain rfl := fst_eq h)) <;> (try (rename_i h; obtain rfl := snd_eq h)))) <;> (try simp only [↓guard_ite, ite_self, ↓guard_coveWrite, ↓guard_barError, ↓guard_objStore])
theorem guard_bar2Write (s fn off data ide) : guard (State.bar2Write s fn off data ide) = guard s := by
  unfold State.bar2Write; try simp only [↓guard_ite, ↓guard_emit]
  repeat' (split <;> (try dsimp only) <;> (try (rename_i h; obtain rfl := fst_eq h)) <;> (try (rename_i h; obtain rfl := snd_eq h)) <;> (try simp only [↓guard_barError, ↓guard_windowWrite]))
theorem guard_watchCtrl (s w value) : guard (State.watchCtrl s w value) = guard s := by
  unfold State.watchCtrl; simp only [↓guard_ite, ite_self, ↓guard_modHif, ↓guard_evalWatch]
theorem guard_lossWrite (s l) : guard (State.lossWrite s l) = guard s := by
  induction l generalizing s with
  | nil => rfl
  | cons r rest ih =>
    unfold State.lossWrite
    split
    · exact (ih _).trans rfl
    · rfl

theorem guard_lossClose (s) : guard (State.lossClose s) = guard s := by
  unfold State.lossClose; try simp only
  repeat' (split <;> (try dsimp only) <;> (try (rename_i h; obtain rfl := fst_eq h)) <;> (try (rename_i h; obtain rfl := snd_eq h)) <;> (try simp only [↓guard_updWh, ↓guard_emitRecord, ↓guard_lossWrite]))
theorem guard_modJvk (s f) : guard (State.modJvk s f) = guard s := by
  rfl
theorem guard_jvkEnd (s st sec) : guard (State.jvkEnd s st sec) = guard s := by
  unfold State.jvkEnd; simp only [↓guard_nextReset, ↓guard_raise, ↓guard_modJvk]
theorem guard_jvkCmd (s f) (hf : ∀ y0, guard (f y0) = guard y0) : guard (State.jvkCmd s f) = guard s := by
  unfold State.jvkCmd; simp only [↓guard_ite, ite_self, ↓guard_modJvk, ↓guard_jvkEnd, hf]
theorem guard_jvkStart (s c) : guard (State.jvkStart s c) = guard s := by
  rfl
theorem guard_jvkDone (s) : guard (State.jvkDone s) = guard s := by
  unfold State.jvkDone; try simp only
  repeat' (split <;> (try dsimp only) <;> (try (rename_i h; obtain rfl := fst_eq h)) <;> (try (rename_i h; obtain rfl := snd_eq h)) <;> (try simp only [↓guard_ite, ite_self, ↓guard_jvkEnd, ↓guard_modJvk]))
theorem guard_commitCove (s im c) : guard (State.commitCove s im c) = guard s := by
  unfold State.commitCove; simp only [↓guard_ite, ite_self, ↓guard_modSeq, ↓guard_zeroMereOf, ↓guard_freeObjects, ↓guard_eraseCoveKeys, ↓guard_nextEpoch]
theorem guard_commitClose (s im) : guard (State.commitClose s im) = guard s := by
  unfold State.commitClose; try simp only [↓guard_foldl, implies_true, ↓guard_failConn, ↓guard_portTo]
  repeat' (first | (refine (guard_foldl _ (fun s x => ?_) _ _).trans ?_) | (split <;> (try dsimp only) <;> (try (rename_i h; obtain rfl := fst_eq h)) <;> (try (rename_i h; obtain rfl := snd_eq h)))) <;> (try simp only [↓guard_upd, ↓guard_foldl, ↓guard_updWh, ↓guard_ite, ite_self, implies_true, ↓guard_failConn, ↓guard_portTo])
theorem guard_commitPorts (s old im clear) : guard (State.commitPorts s old im clear) = guard s := by
  unfold State.commitPorts; try simp only
  repeat' (first | (refine (guard_foldl _ (fun s x => ?_) _ _).trans ?_) | (split <;> (try dsimp only) <;> (try (rename_i h; obtain rfl := fst_eq h)) <;> (try (rename_i h; obtain rfl := snd_eq h)))) <;> (try simp only [↓guard_ite, ite_self, ↓guard_portTo, ↓guard_train])
theorem guard_commitNodes (s im) : guard (State.commitNodes s im) = guard s := by
  unfold State.commitNodes; simp only [↓guard_foldl, implies_true, ↓guard_resolve]
theorem guard_commitSlots (s old im) : guard (State.commitSlots s old im) = guard s := by
  unfold State.commitSlots; simp only [↓guard_foldl, implies_true, ↓guard_modSeq]
theorem guard_firstCommit (s im) : guard (State.firstCommit s im) = guard s := by
  rfl
theorem guard_commitReady (s before) : guard (State.commitReady s before) = guard s :=
  guard_foldl _ (fun _ _ => guard_noteSlots ..) _ _

theorem guard_applyImage (s im) : guard (State.applyImage s im) = guard s := by
  unfold State.applyImage
  extract_lets before first old clear s1 s2 s3 s4 s5 kept hb ln s6 p0 hb2 s7
  have h1 : guard s1 = guard s := by
    simp only [s1, guard_ite, guard_loseAttested, ite_self]
  have h2 : guard s2 = guard s := (guard_foldl _ (fun s c => guard_commitCove ..) _ _).trans h1
  have h3 : guard s3 = guard s := (guard_asIf ..).trans ((guard_commitClose ..).trans h2)
  have h4 : guard s4 = guard s := by
    simp only [s4, guard_ite, guard_firstCommit, h3, ite_self]
  have h5 : guard s5 = guard s := by
    simp only [s5, guard_commitSlots, guard_commitPorts, guard_commitNodes, h4]
  have h6 : guard s6 = guard s := h5
  have h7 : guard s7 = guard s := by
    simp only [s7, p0, guard_ite, ↓guard_upd, guard_toPstate, h6, ite_self]
  exact (guard_foldl _ (fun s fn => guard_flushVectors ..) _ _).trans ((guard_commitReady ..).trans ((guard_routesChanged ..).trans h7))

theorem guard_commitPoint (s) : guard (State.commitPoint s) = guard s := by
  unfold State.commitPoint; try simp only [↓guard_ite]
  repeat' (split <;> (try dsimp only) <;> (try (rename_i h; obtain rfl := fst_eq h)) <;> (try (rename_i h; obtain rfl := snd_eq h)) <;> (try simp only [↓guard_jvkEnd, ↓guard_modJvk, ↓guard_applyImage]))
theorem guard_commitFlash (s im) : guard (State.commitFlash s im) = guard s := by
  unfold State.commitFlash; try simp only [↓guard_updWh, ↓guard_ite, ite_self, ↓guard_modJvk, ↓guard_bump]
  repeat' (split <;> (try dsimp only) <;> (try (rename_i h; obtain rfl := fst_eq h)) <;> (try (rename_i h; obtain rfl := snd_eq h)) <;> (try simp only [↓guard_upd, ↓guard_foldl, ↓guard_updWh, ↓guard_ite, ite_self, implies_true, ↓guard_modJvk, ↓guard_bump]))
theorem guard_defaultCommit (s) : guard (State.defaultCommit s) = guard s := by
  unfold State.defaultCommit; try simp only [↓guard_ite]
  repeat' (split <;> (try dsimp only) <;> (try (rename_i h; obtain rfl := fst_eq h)) <;> (try (rename_i h; obtain rfl := snd_eq h)) <;> (try simp only [↓guard_modHif, ↓guard_modJvk, ↓guard_commitFlash, ↓guard_applyImage]))
theorem guard_rwlIgnored (s off value) : guard (State.rwlIgnored s off value) = guard s := by
  unfold State.rwlIgnored; simp only [↓guard_bump, ↓guard_faultLog]
theorem guard_logTail (s value) : guard (State.logTail s value) = guard s := by
  unfold State.logTail; simp only [↓guard_updWh, ↓guard_ite, ite_self, ↓guard_setReg]
theorem guard_plainWrite (s off r value) : guard (State.plainWrite s off r value) = guard s := by
  unfold State.plainWrite; try simp only [↓guard_ite, ite_self, ↓guard_rwlIgnored, ↓guard_logTail, ↓guard_setReg]
  repeat' (split <;> (try dsimp only) <;> (try (rename_i h; obtain rfl := fst_eq h)) <;> (try (rename_i h; obtain rfl := snd_eq h)) <;> (try simp only [↓guard_upd, ↓guard_foldl, ↓guard_updWh, ↓guard_ite, ite_self, implies_true, ↓guard_rwlIgnored, ↓guard_logTail, ↓guard_setReg]))
theorem guard_writeReg (s fn off value) : guard (State.writeReg s fn off value) = guard s := by
  unfold State.writeReg; try simp only [↓guard_ite]
  repeat' (split <;> (try dsimp only) <;> (try (rename_i h; obtain rfl := fst_eq h)) <;> (try (rename_i h; obtain rfl := snd_eq h)) <;> (try simp only [↓guard_ite, ite_self, ↓guard_plainWrite, ↓guard_setFlags]))
theorem guard_badAccess (s) : guard (State.badAccess s) = guard s := by
  unfold State.badAccess; simp only [↓guard_ite, ite_self, ↓guard_emit, ↓guard_barError]
theorem guard_modBox (s box f) : guard (State.modBox s box f) = guard s := by
  rfl
theorem guard_spdm (s box code data) : guard (State.spdm s box code data) = guard s := by
  rfl
theorem guard_spdmError (s box) : guard (State.spdmError s box) = guard s := by
  rfl
theorem guard_vendorReply (s box st data) : guard (State.vendorReply s box st data) = guard s := by
  rfl
theorem guard_atBox (s box f) (hf : ∀ y0, guard (f y0) = guard y0) : guard (State.atBox s box f) = guard s := by
  unfold State.atBox; simp only [↓guard_ite, ite_self, ↓guard_modBox, hf]
theorem guard_negotiated (s box f) (hf : ∀ y0, guard (f y0) = guard y0) : guard (State.negotiated s box f) = guard s := by
  unfold State.negotiated; simp only [↓guard_ite, ite_self, implies_true, ↓guard_atBox, ↓guard_spdmError, hf]
theorem guard_sendSigned (s r) : guard (State.sendSigned s r) = guard s := by
  rfl
theorem guard_signedReply (s r) : guard (State.signedReply s r) = guard s := by
  unfold State.signedReply; simp only [↓guard_ite, ite_self, ↓guard_spdmError, ↓guard_sendSigned, ↓guard_modWh]
theorem guard_setSession (s box k x) : guard (State.setSession s box k x) = guard s := by
  rfl
theorem guard_inSession (s box k) (f : State → Session → State) (hf : ∀ t x, guard (f t x) = guard t) : guard (State.inSession s box k f) = guard s := by
  unfold State.inSession
  refine guard_atBox _ _ _ (fun s => ?_)
  split
  · split
    · exact hf ..
    · exact guard_spdmError ..
  · exact guard_spdmError ..

theorem guard_broker (s box k f) (hf : ∀ y0, guard (f y0) = guard y0) : guard (State.broker s box k f) = guard s := by
  unfold State.broker; simp only [↓guard_ite, ite_self, implies_true, ↓guard_atBox, ↓guard_vendorReply, hf]
theorem guard_putKey (s slot cove lease key) : guard (State.putKey s slot cove lease key) = guard s := by
  unfold State.putKey; simp only [↓guard_raise, ↓guard_whEvent, ↓guard_whCount, ↓guard_modWh]
theorem guard_onPf0 (s box f) (hf : ∀ y0, guard (f y0) = guard y0) : guard (State.onPf0 s box f) = guard s := by
  unfold State.onPf0; simp only [↓guard_ite, ite_self, implies_true, ↓guard_atBox, ↓guard_spdmError, hf]
theorem guard_signedCommand (s box owner code args sig f) (hf : ∀ y0, guard (f y0) = guard y0) : guard (State.signedCommand s box owner code args sig f) = guard s := by
  unfold State.signedCommand; simp only [↓guard_ite, ite_self, ↓guard_modWh, ↓guard_vendorReply, ↓guard_whEvent, hf]
theorem guard_jtagFree (s n) : guard (State.jtagFree s n) = guard s := by
  unfold State.jtagFree; try simp only [↓guard_draw, ↓guard_emit]
  repeat' (split <;> (try dsimp only) <;> (try (rename_i h; obtain rfl := fst_eq h)) <;> (try (rename_i h; obtain rfl := snd_eq h)) <;> (try simp only [↓guard_upd, ↓guard_foldl, ↓guard_updWh, ↓guard_ite, ite_self, implies_true, ↓guard_draw, ↓guard_emit]))
theorem guard_jtagDo (s x1) : guard (State.jtagDo s x1) = guard s := by
  unfold State.jtagDo; try simp only
  repeat' (split <;> (try dsimp only) <;> (try (rename_i h; obtain rfl := fst_eq h)) <;> (try (rename_i h; obtain rfl := snd_eq h)) <;> (try simp only [↓guard_updWh, ↓guard_emit, ↓guard_draw, ↓guard_jtagFree]))
end Sys2Proof.Laws
end

