-- ==== Sys2Proof/Laws/GuardExec.lean ====
section
/-! SUPPORT. Sys2Proof/Laws/GuardExec.lean: the commands that keep the view of Sys2Proof/Laws/Guard.lean: all but COLD_RESET,
PKG_RESET_N, REFCLK_LOSS, RAIL_FAULT, REFCLK_RETURN, CLAIM, TRANSFER, DEBUG_SET, DEBUG_ENTER and SCRAP. -/
namespace Sys2Proof.Laws
open Sys2Proof Sys2Proof.Machine

theorem next_inj {a b : State} (h : (Host.Outcome.next a : Host.Outcome State Fault Refusal) = .next b) : a = b := by
  injection h

theorem guard_execPondPost (c lo hi s) {t : State} (h : execPondPost c lo hi s = .next t) : guard t = guard s := by
  obtain rfl := next_inj h
  simp only [implies_true, ↓guard_whileOn, ↓guard_postPond]

theorem guard_execTileClaim (core s) {t : State} (h : execTileClaim core s = .next t) : guard t = guard s := by
  obtain rfl := next_inj h
  simp only [implies_true, ↓guard_unlessHalted, ↓guard_tileClaim]

theorem guard_execTilePassEnd (core s) {t : State} (h : execTilePassEnd core s = .next t) : guard t = guard s := by
  obtain rfl := next_inj h
  simp only [implies_true, ↓guard_unlessHalted, ↓guard_tilePassEnd]

theorem guard_execTileRestart (core s) {t : State} (h : execTileRestart core s = .next t) : guard t = guard s := by
  obtain rfl := next_inj h
  simp only [implies_true, ↓guard_unlessHalted, ↓guard_tileRestart]

theorem guard_execPondListComplete (c s) {t : State} (h : execPondListComplete c s = .next t) : guard t = guard s := by
  obtain rfl := next_inj h
  simp only [implies_true, ↓guard_unlessHalted, ↓guard_pondComplete]

theorem guard_execListPost (c lo hi s) {t : State} (h : execListPost c lo hi s = .next t) : guard t = guard s := by
  obtain rfl := next_inj h
  simp only [implies_true, ↓guard_whileOn, ↓guard_postAttn]

theorem guard_execAttentionUnitClaim (e s) {t : State} (h : execAttentionUnitClaim e s = .next t) : guard t = guard s := by
  obtain rfl := next_inj h
  simp only [implies_true, ↓guard_unlessHalted, ↓guard_unitClaim]

theorem guard_execAttentionUnitEnd (e s) {t : State} (h : execAttentionUnitEnd e s = .next t) : guard t = guard s := by
  obtain rfl := next_inj h
  simp only [implies_true, ↓guard_unlessHalted, ↓guard_unitEnd]

theorem guard_execAttentionUnitRestart (e s) {t : State} (h : execAttentionUnitRestart e s = .next t) : guard t = guard s := by
  obtain rfl := next_inj h
  simp only [implies_true, ↓guard_unlessHalted, ↓guard_unitRestart]

theorem guard_execAttnListComplete (c s) {t : State} (h : execAttnListComplete c s = .next t) : guard t = guard s := by
  obtain rfl := next_inj h
  simp only [implies_true, ↓guard_unlessHalted, ↓guard_atnComplete]

theorem guard_execTransactionAccept (s) {t : State} (h : execTransactionAccept s = .next t) : guard t = guard s := by
  obtain rfl := next_inj h
  simp only [implies_true, ↓guard_whileOn, ↓guard_transactionAccept]

theorem guard_execTransactionTimeout (tag s) {t : State} (h : execTransactionTimeout tag s = .next t) : guard t = guard s := by
  obtain rfl := next_inj h
  simp only [implies_true, ↓guard_whileOn, ↓guard_transactionTimeout]

theorem guard_execResponseArrive (s) {t : State} (h : execResponseArrive s = .next t) : guard t = guard s := by
  obtain rfl := next_inj h
  simp only [implies_true, ↓guard_whileOn, ↓guard_responseArrive]

theorem guard_execBasinRequestArrive (s) {t : State} (h : execBasinRequestArrive s = .next t) : guard t = guard s := by
  obtain rfl := next_inj h
  refine guard_whileOn _ _ (fun s => ?_)
  try simp only
  repeat' (first | (refine (guard_foldl _ (fun s x => ?_) _ _).trans ?_) | (split <;> (try dsimp only) <;> (try (rename_i h; obtain rfl := fst_eq h)) <;> (try (rename_i h; obtain rfl := snd_eq h)))) <;> (try simp only [↓guard_updWh, ↓guard_requestArrive])

theorem guard_execBasinRequestApply (node cove s) {t : State} (h : execBasinRequestApply node cove s = .next t) : guard t = guard s := by
  obtain rfl := next_inj h
  refine guard_whileOn _ _ (fun s => ?_)
  try simp only [↓guard_upd, ↓guard_foldl, ↓guard_updWh, ↓guard_ite, ite_self, implies_true, ↓guard_whileOn, ↓guard_applyGroup]
  repeat' (first | (refine (guard_foldl _ (fun s x => ?_) _ _).trans ?_) | (split <;> (try dsimp only) <;> (try (rename_i h; obtain rfl := fst_eq h)) <;> (try (rename_i h; obtain rfl := snd_eq h)))) <;> (try simp only [↓guard_ite, ite_self, ↓guard_applyGroup])

theorem guard_execSluiceGroupSend (eg s) {t : State} (h : execSluiceGroupSend eg s = .next t) : guard t = guard s := by
  obtain rfl := next_inj h
  simp only [implies_true, ↓guard_whileOn, ↓guard_sluiceSend]

theorem guard_execGapSkip (node cove s) {t : State} (h : execGapSkip node cove s = .next t) : guard t = guard s := by
  obtain rfl := next_inj h
  simp only [implies_true, ↓guard_whileOn, ↓guard_gapSkip]

theorem guard_execArrivalCounterWrite (fn ctr lo hi s) {t : State} (h : execArrivalCounterWrite fn ctr lo hi s = .next t) : guard t = guard s := by
  obtain rfl := next_inj h
  simp only [implies_true, ↓guard_whileOn, ↓guard_ctrWrite]

theorem guard_execFerryPost (c lo hi s) {t : State} (h : execFerryPost c lo hi s = .next t) : guard t = guard s := by
  obtain rfl := next_inj h
  simp only [implies_true, ↓guard_whileOn, ↓guard_ferryPost]

theorem guard_execFerryStart (e s) {t : State} (h : execFerryStart e s = .next t) : guard t = guard s := by
  obtain rfl := next_inj h
  simp only [↓guard_ite, ite_self, implies_true, ↓guard_unlessHalted, ↓guard_ferryStart]

theorem guard_execChunkIncrement (e s) {t : State} (h : execChunkIncrement e s = .next t) : guard t = guard s := by
  obtain rfl := next_inj h
  simp only [implies_true, ↓guard_unlessHalted, ↓guard_chunkIncrement]

theorem guard_execCompletionIncrement (e s) {t : State} (h : execCompletionIncrement e s = .next t) : guard t = guard s := by
  obtain rfl := next_inj h
  simp only [implies_true, ↓guard_unlessHalted, ↓guard_completionIncrement]

theorem guard_execFerryEnd (e s) {t : State} (h : execFerryEnd e s = .next t) : guard t = guard s := by
  obtain rfl := next_inj h
  simp only [implies_true, ↓guard_unlessHalted, ↓guard_ferryFinish]

theorem guard_execFerryCancel (c lo hi s) {t : State} (h : execFerryCancel c lo hi s = .next t) : guard t = guard s := by
  obtain rfl := next_inj h
  simp only [implies_true, ↓guard_unlessHalted, ↓guard_ferryCancel]

theorem guard_execPatrolScrubRead (found s) {t : State} (h : execPatrolScrubRead found s = .next t) : guard t = guard s := by
  obtain rfl := next_inj h
  simp only [implies_true, ↓guard_whileOn, ↓guard_scrubRead]

theorem guard_execQuarantineTest (c page found s) {t : State} (h : execQuarantineTest c page found s = .next t) : guard t = guard s := by
  obtain rfl := next_inj h
  simp only [implies_true, ↓guard_whileOn, ↓guard_quarantineTest]

theorem guard_execMapReq (value s) {t : State} (h : execMapReq value s = .next t) : guard t = guard s := by
  obtain rfl := next_inj h
  simp only [implies_true, ↓guard_whileOn, ↓guard_mapReq]

theorem guard_execMapoutMoveStart (s) {t : State} (h : execMapoutMoveStart s = .next t) : guard t = guard s := by
  obtain rfl := next_inj h
  simp only [implies_true, ↓guard_whileOn, ↓guard_moveStart]

theorem guard_execMapoutMoveDone (found s) {t : State} (h : execMapoutMoveDone found s = .next t) : guard t = guard s := by
  obtain rfl := next_inj h
  simp only [implies_true, ↓guard_whileOn, ↓guard_moveDone]

theorem guard_execStackTempRead (readings s) {t : State} (h : execStackTempRead readings s = .next t) : guard t = guard s := by
  obtain rfl := next_inj h
  simp only [implies_true, ↓guard_whileOn, ↓guard_modHbm]

theorem guard_execObjectCas (c lo hi s) {t : State} (h : execObjectCas c lo hi s = .next t) : guard t = guard s := by
  obtain rfl := next_inj h
  try simp only [↓guard_upd, ↓guard_foldl, ↓guard_updWh, ↓guard_ite, ite_self, implies_true, ↓guard_whileOn, ↓guard_objectCas, ↓guard_setReg]
  repeat' (first | (refine (guard_foldl _ (fun s x => ?_) _ _).trans ?_) | (split <;> (try dsimp only) <;> (try (rename_i h; obtain rfl := fst_eq h)) <;> (try (rename_i h; obtain rfl := snd_eq h)))) <;> (try simp only [implies_true, ↓guard_whileOn, ↓guard_objectCas, ↓guard_setReg])

theorem guard_execDtuInval (c value s) {t : State} (h : execDtuInval c value s = .next t) : guard t = guard s := by
  obtain rfl := next_inj h
  simp only [implies_true, ↓guard_whileOn, ↓guard_dtuInval]

theorem guard_execDtuInvalDone (c s) {t : State} (h : execDtuInvalDone c s = .next t) : guard t = guard s := by
  obtain rfl := next_inj h
  simp only [↓guard_updWh, implies_true, ↓guard_whileOn]

theorem guard_execShoalPost (c lo hi s) {t : State} (h : execShoalPost c lo hi s = .next t) : guard t = guard s := by
  obtain rfl := next_inj h
  simp only [implies_true, ↓guard_whileOn, ↓guard_shoalPost]

theorem guard_execRouteStart (rt s) {t : State} (h : execRouteStart rt s = .next t) : guard t = guard s := by
  obtain rfl := next_inj h
  simp only [↓guard_ite, ite_self, implies_true, ↓guard_unlessHalted, ↓guard_routeStart]

theorem guard_execRunCopyDone (rt dest s) {t : State} (h : execRunCopyDone rt dest s = .next t) : guard t = guard s := by
  obtain rfl := next_inj h
  simp only [implies_true, ↓guard_unlessHalted, ↓guard_runCopyDone]

theorem guard_execRunReturnDone (rt dest s) {t : State} (h : execRunReturnDone rt dest s = .next t) : guard t = guard s := by
  obtain rfl := next_inj h
  simp only [implies_true, ↓guard_unlessHalted, ↓guard_runReturnDone]

theorem guard_execRouteCombine (rt s) {t : State} (h : execRouteCombine rt s = .next t) : guard t = guard s := by
  obtain rfl := next_inj h
  simp only [implies_true, ↓guard_unlessHalted, ↓guard_routeCombine]

theorem guard_execReceiveStart (rt s) {t : State} (h : execReceiveStart rt s = .next t) : guard t = guard s := by
  obtain rfl := next_inj h
  simp only [↓guard_ite, ite_self, implies_true, ↓guard_unlessHalted, ↓guard_recvStart]

theorem guard_execReceiveRoundGather (rt s) {t : State} (h : execReceiveRoundGather rt s = .next t) : guard t = guard s := by
  obtain rfl := next_inj h
  simp only [implies_true, ↓guard_unlessHalted, ↓guard_recvGather]

theorem guard_execReceiveRoundReturn (rt s) {t : State} (h : execReceiveRoundReturn rt s = .next t) : guard t = guard s := by
  obtain rfl := next_inj h
  simp only [implies_true, ↓guard_unlessHalted, ↓guard_recvReturn]

theorem guard_execShoalTimeout (rt s) {t : State} (h : execShoalTimeout rt s = .next t) : guard t = guard s := by
  obtain rfl := next_inj h
  simp only [implies_true, ↓guard_unlessHalted, ↓guard_shoalTimeout]

theorem guard_execNodeLossTimer (node s) {t : State} (h : execNodeLossTimer node s = .next t) : guard t = guard s := by
  obtain rfl := next_inj h
  simp only [↓guard_ite, ite_self, implies_true, ↓guard_whileOn, ↓guard_recordLoss]

theorem guard_execNodeLossRecord (node s) {t : State} (h : execNodeLossRecord node s = .next t) : guard t = guard s := by
  obtain rfl := next_inj h
  simp only [↓guard_ite, ite_self, implies_true, ↓guard_whileOn, ↓guard_recordLoss]

theorem guard_execLossReq (value s) {t : State} (h : execLossReq value s = .next t) : guard t = guard s := by
  obtain rfl := next_inj h
  simp only [implies_true, ↓guard_whileOn, ↓guard_lossReq]

theorem guard_execLossRestore (value s) {t : State} (h : execLossRestore value s = .next t) : guard t = guard s := by
  obtain rfl := next_inj h
  simp only [implies_true, ↓guard_whileOn, ↓guard_lossRestore]

theorem guard_execDataFrameReceive (p node f health corrected s) {t : State} (h : execDataFrameReceive p node f health corrected s = .next t) : guard t = guard s := by
  obtain rfl := next_inj h
  try simp only [↓guard_upd, ↓guard_foldl, ↓guard_updWh, ↓guard_ite, ite_self, implies_true, ↓guard_whileOn, ↓guard_receiveFrame]
  repeat' (first | (refine (guard_foldl _ (fun s x => ?_) _ _).trans ?_) | (split <;> (try dsimp only) <;> (try (rename_i h; obtain rfl := fst_eq h)) <;> (try (rename_i h; obtain rfl := snd_eq h)))) <;> (try simp only [implies_true, ↓guard_whileOn, ↓guard_receiveFrame])

theorem guard_execResyncReq (p node f health s) {t : State} (h : execResyncReq p node f health s = .next t) : guard t = guard s := by
  obtain rfl := next_inj h
  try simp only [↓guard_upd, ↓guard_foldl, ↓guard_updWh, ↓guard_ite, ite_self, implies_true, ↓guard_whileOn, ↓guard_receiveFrame]
  repeat' (first | (refine (guard_foldl _ (fun s x => ?_) _ _).trans ?_) | (split <;> (try dsimp only) <;> (try (rename_i h; obtain rfl := fst_eq h)) <;> (try (rename_i h; obtain rfl := snd_eq h)))) <;> (try simp only [implies_true, ↓guard_whileOn, ↓guard_receiveFrame])

theorem guard_execResyncAck (p node f health s) {t : State} (h : execResyncAck p node f health s = .next t) : guard t = guard s := by
  obtain rfl := next_inj h
  try simp only [↓guard_upd, ↓guard_foldl, ↓guard_updWh, ↓guard_ite, ite_self, implies_true, ↓guard_whileOn, ↓guard_receiveFrame]
  repeat' (first | (refine (guard_foldl _ (fun s x => ?_) _ _).trans ?_) | (split <;> (try dsimp only) <;> (try (rename_i h; obtain rfl := fst_eq h)) <;> (try (rename_i h; obtain rfl := snd_eq h)))) <;> (try simp only [implies_true, ↓guard_whileOn, ↓guard_receiveFrame])

theorem guard_execNakReceive (p node lsn ackLsn shown s) {t : State} (h : execNakReceive p node lsn ackLsn shown s = .next t) : guard t = guard s := by
  obtain rfl := next_inj h
  simp only [implies_true, ↓guard_whileOn, ↓guard_nakReceive]

theorem guard_execAckSendTimer (p node s) {t : State} (h : execAckSendTimer p node s = .next t) : guard t = guard s := by
  obtain rfl := next_inj h
  simp only [implies_true, ↓guard_whileOn, ↓guard_ackSend]

theorem guard_execReplayTimer (p node s) {t : State} (h : execReplayTimer p node s = .next t) : guard t = guard s := by
  obtain rfl := next_inj h
  simp only [implies_true, ↓guard_whileOn, ↓guard_replayTimer]

theorem guard_execResyncTimeout (p node s) {t : State} (h : execResyncTimeout p node s = .next t) : guard t = guard s := by
  obtain rfl := next_inj h
  simp only [implies_true, ↓guard_whileOn, ↓guard_resyncTimeout]

theorem guard_execCredit (p node freed ackLsn shown s) {t : State} (h : execCredit p node freed ackLsn shown s = .next t) : guard t = guard s := by
  obtain rfl := next_inj h
  simp only [implies_true, ↓guard_whileOn, ↓guard_creditIn]

theorem guard_execCreditSendTimer (p node s) {t : State} (h : execCreditSendTimer p node s = .next t) : guard t = guard s := by
  obtain rfl := next_inj h
  simp only [implies_true, ↓guard_whileOn, ↓guard_creditSend]

theorem guard_execKeepalive (p node s) {t : State} (h : execKeepalive p node s = .next t) : guard t = guard s := by
  obtain rfl := next_inj h
  simp only [implies_true, ↓guard_whileOn, ↓guard_keepalive]

theorem guard_execEthConnectionSilence (p node s) {t : State} (h : execEthConnectionSilence p node s = .next t) : guard t = guard s := by
  obtain rfl := next_inj h
  simp only [implies_true, ↓guard_whileOn, ↓guard_ethSilence]

theorem guard_execPortSignalLoss (p s) {t : State} (h : execPortSignalLoss p s = .next t) : guard t = guard s := by
  obtain rfl := next_inj h
  simp only [↓guard_ite, ite_self, ↓guard_signalLoss, ↓guard_modPort]

theorem guard_execPortSignalDetect (p s) {t : State} (h : execPortSignalDetect p s = .next t) : guard t = guard s := by
  obtain rfl := next_inj h
  simp only [↓guard_ite, ite_self, ↓guard_signalDetect, ↓guard_modPort]

theorem guard_execConnectionFail (p node s) {t : State} (h : execConnectionFail p node s = .next t) : guard t = guard s := by
  obtain rfl := next_inj h
  simp only [implies_true, ↓guard_whileOn, ↓guard_connectionFail]

theorem guard_execPortRetrainEntry (p s) {t : State} (h : execPortRetrainEntry p s = .next t) : guard t = guard s := by
  obtain rfl := next_inj h
  simp only [implies_true, ↓guard_whileOn, ↓guard_retrainEntry]

theorem guard_execPortTrainingTimeout (p s) {t : State} (h : execPortTrainingTimeout p s = .next t) : guard t = guard s := by
  obtain rfl := next_inj h
  simp only [implies_true, ↓guard_whileOn, ↓guard_trainingTimeout]

theorem guard_execPortRetrainTimeout (p s) {t : State} (h : execPortRetrainTimeout p s = .next t) : guard t = guard s := by
  obtain rfl := next_inj h
  simp only [implies_true, ↓guard_whileOn, ↓guard_retrainTimeout]

theorem guard_execPortDownRetry (p s) {t : State} (h : execPortDownRetry p s = .next t) : guard t = guard s := by
  obtain rfl := next_inj h
  simp only [implies_true, ↓guard_whileOn, ↓guard_downRetry]

theorem guard_execPortRetrainDone (p s) {t : State} (h : execPortRetrainDone p s = .next t) : guard t = guard s := by
  obtain rfl := next_inj h
  simp only [implies_true, ↓guard_whileOn, ↓guard_retrainDone]

theorem guard_execModuleFlagPoll (p los fault alarm temp powerClass state s) {t : State} (h : execModuleFlagPoll p los fault alarm temp powerClass state s = .next t) : guard t = guard s := by
  obtain rfl := next_inj h
  simp only [implies_true, ↓guard_whileOn, ↓guard_modulePoll]

theorem guard_execPortReq (value s) {t : State} (h : execPortReq value s = .next t) : guard t = guard s := by
  obtain rfl := next_inj h
  simp only [implies_true, ↓guard_whileOn, ↓guard_portReq]

theorem guard_execIdent (p frame trained s) {t : State} (h : execIdent p frame trained s = .next t) : guard t = guard s := by
  obtain rfl := next_inj h
  simp only [implies_true, ↓guard_whileOn, ↓guard_identIn]

theorem guard_execDrainNotice (p node ackLsn shown s) {t : State} (h : execDrainNotice p node ackLsn shown s = .next t) : guard t = guard s := by
  obtain rfl := next_inj h
  simp only [implies_true, ↓guard_whileOn, ↓guard_drainNotice]

theorem guard_execLinkRekey (p node s) {t : State} (h : execLinkRekey p node s = .next t) : guard t = guard s := by
  obtain rfl := next_inj h
  simp only [implies_true, ↓guard_whileOn, ↓guard_linkRekey]

theorem guard_execPfcReceive (p vl pause s) {t : State} (h : execPfcReceive p vl pause s = .next t) : guard t = guard s := by
  obtain rfl := next_inj h
  simp only [↓guard_ite, ite_self, implies_true, ↓guard_whileOn, ↓guard_modPort]

theorem guard_execLinkZComputed (node s) {t : State} (h : execLinkZComputed node s = .next t) : guard t = guard s := by
  obtain rfl := next_inj h
  refine guard_whileOn _ _ (fun s => ?_)
  try simp only
  repeat' (first | (refine (guard_foldl _ (fun s x => ?_) _ _).trans ?_) | (split <;> (try dsimp only) <;> (try (rename_i h; obtain rfl := fst_eq h)) <;> (try (rename_i h; obtain rfl := snd_eq h)))) <;> (try simp only [↓guard_updWh, ↓guard_ite, ite_self])

theorem guard_execRippleRecordWrite (s) {t : State} (h : execRippleRecordWrite s = .next t) : guard t = guard s := by
  obtain rfl := next_inj h
  simp only [implies_true, ↓guard_whileOn, ↓guard_rippleWrite]

theorem guard_execRippleCloseTimer (s) {t : State} (h : execRippleCloseTimer s = .next t) : guard t = guard s := by
  obtain rfl := next_inj h
  simp only [↓guard_ite, ite_self, implies_true, ↓guard_whileOn, ↓guard_ripShut]

theorem guard_execStepTimeHistogram (s) {t : State} (h : execStepTimeHistogram s = .next t) : guard t = guard s := by
  obtain rfl := next_inj h
  simp only [implies_true, ↓guard_whileOn, ↓guard_stepTimes]

theorem guard_execLoopClosure (junctions s) {t : State} (h : execLoopClosure junctions s = .next t) : guard t = guard s := by
  obtain rfl := next_inj h
  simp only [implies_true, ↓guard_whileOn, ↓guard_loopClosure]

theorem guard_execWeirMsTick (s) {t : State} (h : execWeirMsTick s = .next t) : guard t = guard s := by
  obtain rfl := next_inj h
  simp only [implies_true, ↓guard_whileOn, ↓guard_weirMs]

theorem guard_execI3cCap (bytes s) {t : State} (h : execI3cCap bytes s = .next t) : guard t = guard s := by
  obtain rfl := next_inj h
  simp only [implies_true, ↓guard_whileOn, ↓guard_i3cCap]

theorem guard_execCapLvlAccept (lvl s) {t : State} (h : execCapLvlAccept lvl s = .next t) : guard t = guard s := by
  obtain rfl := next_inj h
  simp only [implies_true, ↓guard_whileOn, ↓guard_capLvl]

theorem guard_execDroopTrip (die depth s) {t : State} (h : execDroopTrip die depth s = .next t) : guard t = guard s := by
  obtain rfl := next_inj h
  simp only [implies_true, ↓guard_whileOn, ↓guard_droopTrip]

theorem guard_execDroopRecover (die duration s) {t : State} (h : execDroopRecover die duration s = .next t) : guard t = guard s := by
  obtain rfl := next_inj h
  simp only [implies_true, ↓guard_whileOn, ↓guard_droopRecover]

theorem guard_execThermtrip (s) {t : State} (h : execThermtrip s = .next t) : guard t = guard s := by
  obtain rfl := next_inj h
  simp only [↓guard_ite, ite_self, implies_true, ↓guard_whileOn, ↓guard_enterStop, ↓guard_modWeir]

theorem guard_execCoolantFail (s) {t : State} (h : execCoolantFail s = .next t) : guard t = guard s := by
  obtain rfl := next_inj h
  simp only [implies_true, ↓guard_whileOn, ↓guard_enterStop]

theorem guard_execTrimRun (east west s) {t : State} (h : execTrimRun east west s = .next t) : guard t = guard s := by
  obtain rfl := next_inj h
  simp only [implies_true, ↓guard_whileOn, ↓guard_trimRun]

theorem guard_execPstateReqP0 (s) {t : State} (h : execPstateReqP0 s = .next t) : guard t = guard s := by
  obtain rfl := next_inj h
  simp only [implies_true, ↓guard_whileOn, ↓guard_reqP0]

theorem guard_execPstateReqP2 (s) {t : State} (h : execPstateReqP2 s = .next t) : guard t = guard s := by
  obtain rfl := next_inj h
  simp only [implies_true, ↓guard_whileOn, ↓guard_reqP2]

theorem guard_execPstateReqP3 (s) {t : State} (h : execPstateReqP3 s = .next t) : guard t = guard s := by
  obtain rfl := next_inj h
  simp only [implies_true, ↓guard_whileOn, ↓guard_reqP3]

theorem guard_execPstateReqP4 (s) {t : State} (h : execPstateReqP4 s = .next t) : guard t = guard s := by
  obtain rfl := next_inj h
  simp only [implies_true, ↓guard_whileOn, ↓guard_reqP4]

theorem guard_execPstateReqRefused (target s) {t : State} (h : execPstateReqRefused target s = .next t) : guard t = guard s := by
  obtain rfl := next_inj h
  simp only [↓guard_ite, ite_self, implies_true, ↓guard_whileOn, ↓guard_pstateRefuse]

theorem guard_execP1Entry (s) {t : State} (h : execP1Entry s = .next t) : guard t = guard s := by
  obtain rfl := next_inj h
  simp only [↓guard_ite, ite_self, implies_true, ↓guard_whileOn, ↓guard_toPstate]

theorem guard_execP1Exit (s) {t : State} (h : execP1Exit s = .next t) : guard t = guard s := by
  obtain rfl := next_inj h
  simp only [↓guard_ite, ite_self, implies_true, ↓guard_whileOn, ↓guard_toPstate]

theorem guard_execPstateDone (s) {t : State} (h : execPstateDone s = .next t) : guard t = guard s := by
  obtain rfl := next_inj h
  simp only [implies_true, ↓guard_whileOn, ↓guard_pstateDone]

theorem guard_execGaugeSampleLatch (events static s) {t : State} (h : execGaugeSampleLatch events static s = .next t) : guard t = guard s := by
  obtain rfl := next_inj h
  simp only [implies_true, ↓guard_whileOn, ↓guard_latch]

theorem guard_execHouseMoveTick (s) {t : State} (h : execHouseMoveTick s = .next t) : guard t = guard s := by
  obtain rfl := next_inj h
  simp only [implies_true, ↓guard_whileOn, ↓guard_houseMove]

theorem guard_execCoarsePowerUpdate (s) {t : State} (h : execCoarsePowerUpdate s = .next t) : guard t = guard s := by
  obtain rfl := next_inj h
  simp only [implies_true, ↓guard_whileOn, ↓guard_coarsePower]

theorem guard_execEin (bytes s) {t : State} (h : execEin bytes s = .next t) : guard t = guard s := by
  obtain rfl := next_inj h
  simp only [implies_true, ↓guard_whileOn, ↓guard_ein]

theorem guard_execCalStaleTimer (s) {t : State} (h : execCalStaleTimer s = .next t) : guard t = guard s := by
  obtain rfl := next_inj h
  simp only [↓guard_ite, ite_self, implies_true, ↓guard_whileOn, ↓guard_markCal, ↓guard_modGau]

theorem guard_execBatchClose (s) {t : State} (h : execBatchClose s = .next t) : guard t = guard s := by
  obtain rfl := next_inj h
  simp only [implies_true, ↓guard_whileOn, ↓guard_batchClose]

theorem guard_execBatchRooted (s) {t : State} (h : execBatchRooted s = .next t) : guard t = guard s := by
  obtain rfl := next_inj h
  simp only [implies_true, ↓guard_whileOn, ↓guard_batchRooted]

theorem guard_execBatchSigned (s) {t : State} (h : execBatchSigned s = .next t) : guard t = guard s := by
  obtain rfl := next_inj h
  simp only [implies_true, ↓guard_whileOn, ↓guard_batchSigned]

theorem guard_execRecRelease (lo hi s) {t : State} (h : execRecRelease lo hi s = .next t) : guard t = guard s := by
  obtain rfl := next_inj h
  simp only [implies_true, ↓guard_whileOn, ↓guard_flush, ↓guard_modGau]

theorem guard_execBatchRelease (lo hi s) {t : State} (h : execBatchRelease lo hi s = .next t) : guard t = guard s := by
  obtain rfl := next_inj h
  simp only [implies_true, ↓guard_whileOn, ↓guard_modGau]

theorem guard_execStepEntryComplete (c s) {t : State} (h : execStepEntryComplete c s = .next t) : guard t = guard s := by
  obtain rfl := next_inj h
  simp only [implies_true, ↓guard_unlessHalted, ↓guard_stepAdvance]

theorem guard_execStepWaitMet (c s) {t : State} (h : execStepWaitMet c s = .next t) : guard t = guard s := by
  obtain rfl := next_inj h
  simp only [implies_true, ↓guard_unlessHalted, ↓guard_stepWaitMet]

theorem guard_execEmit (c s) {t : State} (h : execEmit c s = .next t) : guard t = guard s := by
  obtain rfl := next_inj h
  simp only [implies_true, ↓guard_unlessHalted, ↓guard_emitStep]

theorem guard_execStepPostRetry (c s) {t : State} (h : execStepPostRetry c s = .next t) : guard t = guard s := by
  obtain rfl := next_inj h
  refine guard_unlessHalted _ _ (fun s => ?_)
  try simp only [↓guard_upd, ↓guard_foldl, ↓guard_updWh, ↓guard_ite, ite_self, implies_true, ↓guard_unlessHalted, ↓guard_postGroup]
  repeat' (first | (refine (guard_foldl _ (fun s x => ?_) _ _).trans ?_) | (split <;> (try dsimp only) <;> (try (rename_i h; obtain rfl := fst_eq h)) <;> (try (rename_i h; obtain rfl := snd_eq h)))) <;> (try simp only [↓guard_ite, ↓guard_postGroup])

theorem guard_execLayerTransferStart (c s) {t : State} (h : execLayerTransferStart c s = .next t) : guard t = guard s := by
  obtain rfl := next_inj h
  simp only [implies_true, ↓guard_unlessHalted, ↓guard_xferStart]

theorem guard_execLayerTransferDone (c readOk s) {t : State} (h : execLayerTransferDone c readOk s = .next t) : guard t = guard s := by
  obtain rfl := next_inj h
  simp only [implies_true, ↓guard_unlessHalted, ↓guard_xferDone]

theorem guard_execShadowCopyDone (e s) {t : State} (h : execShadowCopyDone e s = .next t) : guard t = guard s := by
  obtain rfl := next_inj h
  refine guard_unlessHalted _ _ (fun s => ?_)
  try simp only [↓guard_upd, ↓guard_foldl, ↓guard_updWh, ↓guard_ite, ite_self, implies_true, ↓guard_unlessHalted, ↓guard_setSx, ↓guard_sset]
  repeat' (first | (refine (guard_foldl _ (fun s x => ?_) _ _).trans ?_) | (split <;> (try dsimp only) <;> (try (rename_i h; obtain rfl := fst_eq h)) <;> (try (rename_i h; obtain rfl := snd_eq h)))) <;> (try simp only [↓guard_setSx, ↓guard_sset])

theorem guard_execFallbackImportDone (e s) {t : State} (h : execFallbackImportDone e s = .next t) : guard t = guard s := by
  obtain rfl := next_inj h
  simp only [implies_true, ↓guard_unlessHalted, ↓guard_importDone]

theorem guard_execStepBoundary (c adopt s) {t : State} (h : execStepBoundary c adopt s = .next t) : guard t = guard s := by
  obtain rfl := next_inj h
  simp only [implies_true, ↓guard_unlessHalted, ↓guard_stepBoundary]

theorem guard_execBar4EntryWrite (fn offset data ide s) {t : State} (h : execBar4EntryWrite fn offset data ide s = .next t) : guard t = guard s := by
  obtain rfl := next_inj h
  simp only [implies_true, ↓guard_whileOn, ↓guard_bar4Write]

theorem guard_execReadyBitmapOr (fn offset data ide s) {t : State} (h : execReadyBitmapOr fn offset data ide s = .next t) : guard t = guard s := by
  obtain rfl := next_inj h
  simp only [implies_true, ↓guard_whileOn, ↓guard_bar4Write]

theorem guard_execSeqCtrlWrite (c value s) {t : State} (h : execSeqCtrlWrite c value s = .next t) : guard t = guard s := by
  obtain rfl := next_inj h
  simp only [↓guard_ite, ite_self, implies_true, ↓guard_whileOn, ↓guard_modSeq, ↓guard_closeToHouse]

theorem guard_execBudgetPeriodBoundary (demand s) {t : State} (h : execBudgetPeriodBoundary demand s = .next t) : guard t = guard s := by
  obtain rfl := next_inj h
  simp only [implies_true, ↓guard_whileOn, ↓guard_budgetBoundary]

theorem guard_execCvuCtrlWrite (fn unit value s) {t : State} (h : execCvuCtrlWrite fn unit value s = .next t) : guard t = guard s := by
  obtain rfl := next_inj h
  simp only [implies_true, ↓guard_whileOn, ↓guard_cvuCtrl]

theorem guard_execCvuData8 (fn unit value s) {t : State} (h : execCvuData8 fn unit value s = .next t) : guard t = guard s := by
  obtain rfl := next_inj h
  simp only [implies_true, ↓guard_whileOn, ↓guard_cvuFeed]

theorem guard_execCvuData16 (fn unit value s) {t : State} (h : execCvuData16 fn unit value s = .next t) : guard t = guard s := by
  obtain rfl := next_inj h
  simp only [implies_true, ↓guard_whileOn, ↓guard_cvuFeed]

theorem guard_execCvuData32 (fn unit value s) {t : State} (h : execCvuData32 fn unit value s = .next t) : guard t = guard s := by
  obtain rfl := next_inj h
  simp only [implies_true, ↓guard_whileOn, ↓guard_cvuFeed]

theorem guard_execCvuValueWrite (fn unit lo hi s) {t : State} (h : execCvuValueWrite fn unit lo hi s = .next t) : guard t = guard s := by
  obtain rfl := next_inj h
  simp only [implies_true, ↓guard_whileOn, ↓guard_cvuValue]

theorem guard_execLoadPost (c lo hi s) {t : State} (h : execLoadPost c lo hi s = .next t) : guard t = guard s := by
  obtain rfl := next_inj h
  simp only [implies_true, ↓guard_whileOn, ↓guard_loadPost]

theorem guard_execLoadTake (ctx s) {t : State} (h : execLoadTake ctx s = .next t) : guard t = guard s := by
  obtain rfl := next_inj h
  simp only [↓guard_ite, ite_self, implies_true, ↓guard_unlessHalted, ↓guard_loadTake]

theorem guard_execLoadComplete (ctx s) {t : State} (h : execLoadComplete ctx s = .next t) : guard t = guard s := by
  obtain rfl := next_inj h
  simp only [implies_true, ↓guard_unlessHalted, ↓guard_loadComplete]

theorem guard_execLoadAbort (ctx readFail s) {t : State} (h : execLoadAbort ctx readFail s = .next t) : guard t = guard s := by
  obtain rfl := next_inj h
  simp only [implies_true, ↓guard_unlessHalted, ↓guard_loadStop]

theorem guard_execLoadCancel (c lo hi s) {t : State} (h : execLoadCancel c lo hi s = .next t) : guard t = guard s := by
  obtain rfl := next_inj h
  simp only [implies_true, ↓guard_unlessHalted, ↓guard_loadCancel]

theorem guard_execPoisonRefetchStart (s) {t : State} (h : execPoisonRefetchStart s = .next t) : guard t = guard s := by
  obtain rfl := next_inj h
  simp only [↓guard_foldl, implies_true, ↓guard_unlessHalted, ↓guard_joinRefetch]

theorem guard_execInletRefetchRerun (ctx s) {t : State} (h : execInletRefetchRerun ctx s = .next t) : guard t = guard s := by
  obtain rfl := next_inj h
  simp only [↓guard_ite, ite_self, implies_true, ↓guard_unlessHalted, ↓guard_rerun]

theorem guard_execRefetchDone (c va s) {t : State} (h : execRefetchDone c va s = .next t) : guard t = guard s := by
  obtain rfl := next_inj h
  simp only [implies_true, ↓guard_unlessHalted, ↓guard_refetchDone]

theorem guard_execRefetchFail (c va hostFailed s) {t : State} (h : execRefetchFail c va hostFailed s = .next t) : guard t = guard s := by
  obtain rfl := next_inj h
  simp only [implies_true, ↓guard_unlessHalted, ↓guard_refetchFail]

theorem guard_execWarmReset (s) {t : State} (h : execWarmReset s = .next t) : guard t = guard s := by
  obtain rfl := next_inj h
  simp only [implies_true, ↓guard_requestReset, ↓guard_beginReset]

theorem guard_execDeviceReset (s) {t : State} (h : execDeviceReset s = .next t) : guard t = guard s := by
  obtain rfl := next_inj h
  simp only [implies_true, ↓guard_requestReset, ↓guard_beginReset]

theorem guard_execCoveReset (target s) {t : State} (h : execCoveReset target s = .next t) : guard t = guard s := by
  obtain rfl := next_inj h
  simp only [↓guard_ite, ite_self, implies_true, ↓guard_requestReset, ↓guard_resetStat, ↓guard_beginReset]

theorem guard_execResetReqRefused (seven s) {t : State} (h : execResetReqRefused seven s = .next t) : guard t = guard s := by
  obtain rfl := next_inj h
  simp only [↓guard_ite, ite_self, ↓guard_resetStat]

theorem guard_execEngineReset (target s) {t : State} (h : execEngineReset target s = .next t) : guard t = guard s := by
  obtain rfl := next_inj h
  simp only [↓guard_ite, ite_self, implies_true, ↓guard_requestReset, ↓guard_beginReset, ↓guard_resetStat]

theorem guard_execPortReset (target s) {t : State} (h : execPortReset target s = .next t) : guard t = guard s := by
  obtain rfl := next_inj h
  simp only [implies_true, ↓guard_requestReset, ↓guard_portReset]

theorem guard_execPerst (s) {t : State} (h : execPerst s = .next t) : guard t = guard s := by
  obtain rfl := next_inj h
  simp only [↓guard_perst]

theorem guard_execFlr (fn s) {t : State} (h : execFlr fn s = .next t) : guard t = guard s := by
  obtain rfl := next_inj h
  simp only [↓guard_flr]

theorem guard_execResetDone (s) {t : State} (h : execResetDone s = .next t) : guard t = guard s := by
  obtain rfl := next_inj h
  simp only [implies_true, ↓guard_whileOn, ↓guard_resetDone]

theorem guard_execHbmTrained (failed s) {t : State} (h : execHbmTrained failed s = .next t) : guard t = guard s := by
  obtain rfl := next_inj h
  simp only [↓guard_hbmTrain]

theorem guard_execDeepTrained (perController s) {t : State} (h : execDeepTrained perController s = .next t) : guard t = guard s := by
  obtain rfl := next_inj h
  simp only [↓guard_deepTrain]

theorem guard_execBar2Read (fn offset length ide s) {t : State} (h : execBar2Read fn offset length ide s = .next t) : guard t = guard s := by
  obtain rfl := next_inj h
  simp only [↓guard_bar2Read]

theorem guard_execBar2Write (fn offset data ide s) {t : State} (h : execBar2Write fn offset data ide s = .next t) : guard t = guard s := by
  obtain rfl := next_inj h
  simp only [↓guard_bar2Write]

theorem guard_execWatchCtrlWrite (fn w value s) {t : State} (h : execWatchCtrlWrite fn w value s = .next t) : guard t = guard s := by
  obtain rfl := next_inj h
  simp only [↓guard_ite, ite_self, ↓guard_watchCtrl]

theorem guard_execEpochMarkWrite (lo hi s) {t : State} (h : execEpochMarkWrite lo hi s = .next t) : guard t = guard s := by
  obtain rfl := next_inj h
  simp only [↓guard_ite, ite_self, ↓guard_modHif, ↓guard_setReg]

theorem guard_execMsixUnmask (fn enabled funcMask vec s) {t : State} (h : execMsixUnmask fn enabled funcMask vec s = .next t) : guard t = guard s := by
  obtain rfl := next_inj h
  simp only [implies_true, ↓guard_whileOn, ↓guard_flushVectors, ↓guard_modHif]

theorem guard_execLossRecordClose (s) {t : State} (h : execLossRecordClose s = .next t) : guard t = guard s := by
  obtain rfl := next_inj h
  simp only [implies_true, ↓guard_whileOn, ↓guard_lossClose]

theorem guard_execLossTailWrite (value s) {t : State} (h : execLossTailWrite value s = .next t) : guard t = guard s := by
  obtain rfl := next_inj h
  simp only [↓guard_ite, ite_self, ↓guard_setReg, ↓guard_lossWrite]

theorem guard_execStage (s) {t : State} (h : execStage s = .next t) : guard t = guard s := by
  obtain rfl := next_inj h
  simp only [implies_true, ↓guard_jvkCmd, ↓guard_jvkStart, ↓guard_modJvk]

theorem guard_execDiscard (s) {t : State} (h : execDiscard s = .next t) : guard t = guard s := by
  obtain rfl := next_inj h
  simp only [implies_true, ↓guard_jvkCmd, ↓guard_jvkEnd, ↓guard_modJvk]

theorem guard_execSaveDefault (s) {t : State} (h : execSaveDefault s = .next t) : guard t = guard s := by
  obtain rfl := next_inj h
  simp only [↓guard_ite, ite_self, implies_true, ↓guard_jvkCmd, ↓guard_jvkEnd, ↓guard_jvkStart]

theorem guard_execEraseDefault (s) {t : State} (h : execEraseDefault s = .next t) : guard t = guard s := by
  obtain rfl := next_inj h
  simp only [implies_true, ↓guard_jvkCmd, ↓guard_jvkEnd, ↓guard_modJvk]

theorem guard_execFwStage (verified version s) {t : State} (h : execFwStage verified version s = .next t) : guard t = guard s := by
  obtain rfl := next_inj h
  simp only [implies_true, ↓guard_jvkCmd, ↓guard_jvkStart, ↓guard_modJvk]

theorem guard_execFwInstall (s) {t : State} (h : execFwInstall s = .next t) : guard t = guard s := by
  obtain rfl := next_inj h
  simp only [↓guard_ite, ite_self, implies_true, ↓guard_jvkCmd, ↓guard_jvkEnd, ↓guard_jvkStart, ↓guard_modJvk]

theorem guard_execJvkReservedCode (code s) {t : State} (h : execJvkReservedCode code s = .next t) : guard t = guard s := by
  obtain rfl := next_inj h
  simp only [↓guard_ite, ite_self, implies_true, ↓guard_jvkCmd, ↓guard_jvkEnd]

theorem guard_execJvkCommandDone (s) {t : State} (h : execJvkCommandDone s = .next t) : guard t = guard s := by
  obtain rfl := next_inj h
  simp only [implies_true, ↓guard_whileOn, ↓guard_jvkDone]

theorem guard_execCommitPoint (s) {t : State} (h : execCommitPoint s = .next t) : guard t = guard s := by
  obtain rfl := next_inj h
  simp only [implies_true, ↓guard_whileOn, ↓guard_commitPoint]

theorem guard_execCommitFlashDone (s) {t : State} (h : execCommitFlashDone s = .next t) : guard t = guard s := by
  obtain rfl := next_inj h
  refine guard_whileOn _ _ (fun s => ?_)
  try simp only [↓guard_ite]
  repeat' (first | (refine (guard_foldl _ (fun s x => ?_) _ _).trans ?_) | (split <;> (try dsimp only) <;> (try (rename_i h; obtain rfl := fst_eq h)) <;> (try (rename_i h; obtain rfl := snd_eq h)))) <;> (try simp only [↓guard_jvkEnd, ↓guard_commitFlash])

theorem guard_execDefaultImageCommit (s) {t : State} (h : execDefaultImageCommit s = .next t) : guard t = guard s := by
  obtain rfl := next_inj h
  simp only [implies_true, ↓guard_whileOn, ↓guard_defaultCommit]

theorem guard_execRegisterWrite (fn offset value high s) {t : State} (h : execRegisterWrite fn offset value high s = .next t) : guard t = guard s := by
  obtain rfl := next_inj h
  try simp only [↓guard_ite, ↓guard_badAccess]
  repeat' (first | (refine (guard_foldl _ (fun s x => ?_) _ _).trans ?_) | (split <;> (try dsimp only) <;> (try (rename_i h; obtain rfl := fst_eq h)) <;> (try (rename_i h; obtain rfl := snd_eq h)))) <;> (try simp only [↓guard_ite, ite_self, ↓guard_badAccess, ↓guard_writeReg])

theorem guard_execBar0BadAccess (s) {t : State} (h : execBar0BadAccess s = .next t) : guard t = guard s := by
  obtain rfl := next_inj h
  simp only [↓guard_badAccess]

theorem guard_execGetVersion (box s) {t : State} (h : execGetVersion box s = .next t) : guard t = guard s := by
  obtain rfl := next_inj h
  simp only [implies_true, ↓guard_atBox, ↓guard_spdm, ↓guard_modBox]

theorem guard_execGetCapabilities (box s) {t : State} (h : execGetCapabilities box s = .next t) : guard t = guard s := by
  obtain rfl := next_inj h
  simp only [↓guard_ite, ite_self, implies_true, ↓guard_atBox, ↓guard_spdm, ↓guard_modBox, ↓guard_spdmError]

theorem guard_execNegotiateAlgorithms (box offered s) {t : State} (h : execNegotiateAlgorithms box offered s = .next t) : guard t = guard s := by
  obtain rfl := next_inj h
  simp only [↓guard_ite, ite_self, implies_true, ↓guard_atBox, ↓guard_spdm, ↓guard_modBox, ↓guard_spdmError]

theorem guard_execGetDigests (box s) {t : State} (h : execGetDigests box s = .next t) : guard t = guard s := by
  obtain rfl := next_inj h
  simp only [implies_true, ↓guard_negotiated, ↓guard_spdm]

theorem guard_execGetCertificate (box slot offset length s) {t : State} (h : execGetCertificate box slot offset length s = .next t) : guard t = guard s := by
  obtain rfl := next_inj h
  simp only [↓guard_ite, ite_self, implies_true, ↓guard_negotiated, ↓guard_spdmError, ↓guard_spdm]

theorem guard_execChallenge (box transcript s) {t : State} (h : execChallenge box transcript s = .next t) : guard t = guard s := by
  obtain rfl := next_inj h
  simp only [implies_true, ↓guard_negotiated, ↓guard_signedReply]

theorem guard_execGetMeasurements (box index transcript s) {t : State} (h : execGetMeasurements box index transcript s = .next t) : guard t = guard s := by
  obtain rfl := next_inj h
  simp only [↓guard_ite, ite_self, implies_true, ↓guard_negotiated, ↓guard_signedReply, ↓guard_spdmError]

theorem guard_execKeyUpdate (box k s) {t : State} (h : execKeyUpdate box k s = .next t) : guard t = guard s := by
  obtain rfl := next_inj h
  simp only [implies_true, ↓guard_inSession, ↓guard_spdm, ↓guard_setSession]

theorem guard_execHeartbeat (box k s) {t : State} (h : execHeartbeat box k s = .next t) : guard t = guard s := by
  obtain rfl := next_inj h
  simp only [implies_true, ↓guard_inSession, ↓guard_spdm]

theorem guard_execEndSession (box k s) {t : State} (h : execEndSession box k s = .next t) : guard t = guard s := by
  obtain rfl := next_inj h
  simp only [implies_true, ↓guard_inSession, ↓guard_spdm, ↓guard_setSession]

theorem guard_execGetPqCert (box s) {t : State} (h : execGetPqCert box s = .next t) : guard t = guard s := by
  obtain rfl := next_inj h
  simp only [implies_true, ↓guard_atBox, ↓guard_vendorReply]

theorem guard_execGetPqSig (box s) {t : State} (h : execGetPqSig box s = .next t) : guard t = guard s := by
  obtain rfl := next_inj h
  try simp only [↓guard_ite]
  repeat' (first | (refine (guard_foldl _ (fun s x => ?_) _ _).trans ?_) | (split <;> (try dsimp only) <;> (try (rename_i h; obtain rfl := fst_eq h)) <;> (try (rename_i h; obtain rfl := snd_eq h)))) <;> (try simp only [↓guard_ite, ite_self, ↓guard_vendorReply, ↓guard_modBox, ↓guard_spdmError, ↓guard_whCount])

theorem guard_execPqFinish (box k slhKey transcript signature s) {t : State} (h : execPqFinish box k slhKey transcript signature s = .next t) : guard t = guard s := by
  obtain rfl := next_inj h
  simp only [↓guard_ite, ite_self, implies_true, ↓guard_atBox, ↓guard_spdmError, ↓guard_inSession, ↓guard_vendorReply, ↓guard_setSession, ↓guard_whEvent]

theorem guard_execKeyPut (box k slot cove lease reserved key s) {t : State} (h : execKeyPut box k slot cove lease reserved key s = .next t) : guard t = guard s := by
  obtain rfl := next_inj h
  simp only [↓guard_ite, ite_self, implies_true, ↓guard_broker, ↓guard_vendorReply, ↓guard_putKey]

theorem guard_execKeyUsable (slot s) {t : State} (h : execKeyUsable slot s = .next t) : guard t = guard s := by
  obtain rfl := next_inj h
  refine guard_whileOn _ _ (fun s => ?_)
  try simp only [↓guard_upd, ↓guard_foldl, ↓guard_updWh, ↓guard_ite, ite_self, implies_true, ↓guard_whileOn, ↓guard_modWh]
  repeat' (first | (refine (guard_foldl _ (fun s x => ?_) _ _).trans ?_) | (split <;> (try dsimp only) <;> (try (rename_i h; obtain rfl := fst_eq h)) <;> (try (rename_i h; obtain rfl := snd_eq h)))) <;> (try simp only [↓guard_ite, ite_self, ↓guard_modWh])

theorem guard_execKeyErase (box k all slot s) {t : State} (h : execKeyErase box k all slot s = .next t) : guard t = guard s := by
  obtain rfl := next_inj h
  simp only [↓guard_ite, ite_self, implies_true, ↓guard_broker, ↓guard_vendorReply, ↓guard_eraseAllKeys, ↓guard_eraseKey]

theorem guard_execWhKeyErase (value s) {t : State} (h : execWhKeyErase value s = .next t) : guard t = guard s := by
  obtain rfl := next_inj h
  simp only [↓guard_ite, ite_self, implies_true, ↓guard_whileOn, ↓guard_eraseAllKeys, ↓guard_eraseKey]

theorem guard_execLeaseEnd (slot s) {t : State} (h : execLeaseEnd slot s = .next t) : guard t = guard s := by
  obtain rfl := next_inj h
  refine guard_whileOn _ _ (fun s => ?_)
  try simp only [↓guard_upd, ↓guard_foldl, ↓guard_updWh, ↓guard_ite, ite_self, implies_true, ↓guard_whileOn, ↓guard_eraseKey]
  repeat' (first | (refine (guard_foldl _ (fun s x => ?_) _ _).trans ?_) | (split <;> (try dsimp only) <;> (try (rename_i h; obtain rfl := fst_eq h)) <;> (try (rename_i h; obtain rfl := snd_eq h)))) <;> (try simp only [↓guard_ite, ite_self, ↓guard_eraseKey])

theorem guard_execGetNonce (box s) {t : State} (h : execGetNonce box s = .next t) : guard t = guard s := by
  obtain rfl := next_inj h
  simp only [implies_true, ↓guard_onPf0, ↓guard_draw, ↓guard_vendorReply, ↓guard_modWh]

theorem guard_execKeyProg (box k stream s) {t : State} (h : execKeyProg box k stream s = .next t) : guard t = guard s := by
  obtain rfl := next_inj h
  simp only [implies_true, ↓guard_inSession, ↓guard_vendorReply, ↓guard_modWh]

theorem guard_execKSetGo (box k stream s) {t : State} (h : execKSetGo box k stream s = .next t) : guard t = guard s := by
  obtain rfl := next_inj h
  try simp only
  repeat' (first | (refine (guard_foldl _ (fun s x => ?_) _ _).trans ?_) | (split <;> (try dsimp only) <;> (try (rename_i h; obtain rfl := fst_eq h)) <;> (try (rename_i h; obtain rfl := snd_eq h)))) <;> (try simp only [↓guard_foldl, ↓guard_ite, ite_self, implies_true, ↓guard_inSession, ↓guard_spdmError, ↓guard_modWh, ↓guard_vendorReply, ↓guard_flushVectors])

theorem guard_execKSetStop (box k stream s) {t : State} (h : execKSetStop box k stream s = .next t) : guard t = guard s := by
  obtain rfl := next_inj h
  try simp only [↓guard_upd, ↓guard_foldl, ↓guard_updWh, ↓guard_ite, ite_self, implies_true, ↓guard_inSession, ↓guard_vendorReply, ↓guard_modWh]
  repeat' (first | (refine (guard_foldl _ (fun s x => ?_) _ _).trans ?_) | (split <;> (try dsimp only) <;> (try (rename_i h; obtain rfl := fst_eq h)) <;> (try (rename_i h; obtain rfl := snd_eq h)))) <;> (try simp only [implies_true, ↓guard_inSession, ↓guard_vendorReply, ↓guard_modWh])

theorem guard_execAliasKeysReady (s) {t : State} (h : execAliasKeysReady s = .next t) : guard t = guard s := by
  obtain rfl := next_inj h
  simp only [↓guard_foldl, ↓guard_updWh, ↓guard_ite, ite_self, implies_true, ↓guard_whileOn, ↓guard_modWh, ↓guard_sendSigned]

theorem guard_execSetdasa (static dyn s) {t : State} (h : execSetdasa static dyn s = .next t) : guard t = guard s := by
  obtain rfl := next_inj h
  try simp only [↓guard_ite]
  repeat' (first | (refine (guard_foldl _ (fun s x => ?_) _ _).trans ?_) | (split <;> (try dsimp only) <;> (try (rename_i h; obtain rfl := fst_eq h)) <;> (try (rename_i h; obtain rfl := snd_eq h)))) <;> (try simp only [↓guard_updWh])

theorem guard_execJtagInstruction (op s) {t : State} (h : execJtagInstruction op s = .next t) : guard t = guard s := by
  obtain rfl := next_inj h
  simp only [↓guard_ite, ite_self, implies_true, ↓guard_whileOn, ↓guard_jtagDo]

theorem guard_execSpillwayPageMove (t' readOk s) {t : State} (h : execSpillwayPageMove t' readOk s = .next t) : guard t = guard s := by
  obtain rfl := next_inj h
  refine guard_unlessHalted _ _ (fun s => ?_)
  split
  · exact guard_objMove ..
  · exact guard_kvMoveStep ..

theorem guard_execCommit (s) {t : State} (h : execCommit s = .next t) : guard t = guard s := by
  obtain rfl := next_inj h
  refine guard_jvkCmd _ _ (fun s => ?_)
  split
  · exact guard_jvkEnd ..
  · split
    · exact guard_jvkEnd ..
    · rw [guard_jvkStart, guard_modJvk]

theorem guard_execKeyExchange (box mutualAuth transcript s) {t : State} (h : execKeyExchange box mutualAuth transcript s = .next t) : guard t = guard s := by
  obtain rfl := next_inj h
  refine guard_negotiated _ _ _ (fun s => ?_)
  split
  · exact guard_spdmError ..
  · split
    · exact guard_spdmError ..
    · rw [guard_signedReply, guard_setSession]

theorem guard_execFinish (box k good rsa s) {t : State} (h : execFinish box k good rsa s = .next t) : guard t = guard s := by
  obtain rfl := next_inj h
  refine guard_atBox _ _ _ (fun s => ?_)
  split
  · split
    · exact guard_spdmError ..
    · split
      · rw [guard_spdmError, guard_setSession]
      · rw [guard_spdm, guard_whCount, guard_setSession]
  · exact guard_spdmError ..

theorem guard_execSetAttested (box k digest s) {t : State} (h : execSetAttested box k digest s = .next t) : guard t = guard s := by
  obtain rfl := next_inj h
  refine guard_broker _ _ _ _ (fun s => ?_)
  split
  · exact guard_vendorReply ..
  · rename_i hs
    split
    · rw [guard_vendorReply]
      refine guard_modWh _ _ ?_
      simp only [ne_eq, Decidable.not_not] at hs
      simp only [hs, secClass]
    · exact guard_vendorReply ..

end Sys2Proof.Laws
end

