-- ==== Sys2Proof/Laws/State.lean ====
section
/-! SUPPORT. Sys2Proof/Laws/State.lean: for each plain update of the state, what it leaves in every field, so that no proof
unfolds a record update. -/
namespace Sys2Proof.Laws
open Sys2Proof Sys2Proof.Machine

/-! ### emit -/

@[simp] theorem emit_pending (s : State) (o : Out) : (s.emit o).pending = s.pending := rfl
@[simp] theorem emit_fuses (s : State) (o : Out) : (s.emit o).fuses = s.fuses := rfl
@[simp] theorem emit_tick (s : State) (o : Out) : (s.emit o).tick = s.tick := rfl
@[simp] theorem emit_regs (s : State) (o : Out) : (s.emit o).regs = s.regs := rfl
@[simp] theorem emit_ctrs (s : State) (o : Out) : (s.emit o).ctrs = s.ctrs := rfl
@[simp] theorem emit_flags (s : State) (o : Out) : (s.emit o).flags = s.flags := rfl
@[simp] theorem emit_draws (s : State) (o : Out) : (s.emit o).draws = s.draws := rfl
@[simp] theorem emit_out (s : State) (o : Out) : (s.emit o).out = s.out ++ [o] := rfl
@[simp] theorem emit_arbs (s : State) (o : Out) : (s.emit o).arbs = s.arbs := rfl
@[simp] theorem emit_mem (s : State) (o : Out) : (s.emit o).mem = s.mem := rfl
@[simp] theorem emit_hbm (s : State) (o : Out) : (s.emit o).hbm = s.hbm := rfl
@[simp] theorem emit_dtu (s : State) (o : Out) : (s.emit o).dtu = s.dtu := rfl
@[simp] theorem emit_spw (s : State) (o : Out) : (s.emit o).spw = s.spw := rfl
@[simp] theorem emit_objs (s : State) (o : Out) : (s.emit o).objs = s.objs := rfl
@[simp] theorem emit_flt (s : State) (o : Out) : (s.emit o).flt = s.flt := rfl
@[simp] theorem emit_rip (s : State) (o : Out) : (s.emit o).rip = s.rip := rfl
@[simp] theorem emit_cvu (s : State) (o : Out) : (s.emit o).cvu = s.cvu := rfl
@[simp] theorem emit_jvk (s : State) (o : Out) : (s.emit o).jvk = s.jvk := rfl
@[simp] theorem emit_hif (s : State) (o : Out) : (s.emit o).hif = s.hif := rfl
@[simp] theorem emit_ponds (s : State) (o : Out) : (s.emit o).ponds = s.ponds := rfl
@[simp] theorem emit_atnLists (s : State) (o : Out) : (s.emit o).atnLists = s.atnLists := rfl
@[simp] theorem emit_cores (s : State) (o : Out) : (s.emit o).cores = s.cores := rfl
@[simp] theorem emit_atns (s : State) (o : Out) : (s.emit o).atns = s.atns := rfl
@[simp] theorem emit_epochs (s : State) (o : Out) : (s.emit o).epochs = s.epochs := rfl
@[simp] theorem emit_debug (s : State) (o : Out) : (s.emit o).debug = s.debug := rfl
@[simp] theorem emit_stopped (s : State) (o : Out) : (s.emit o).stopped = s.stopped := rfl
@[simp] theorem emit_pstate (s : State) (o : Out) : (s.emit o).pstate = s.pstate := rfl
@[simp] theorem emit_arrival (s : State) (o : Out) : (s.emit o).arrival = s.arrival := rfl
@[simp] theorem emit_streams (s : State) (o : Out) : (s.emit o).streams = s.streams := rfl
@[simp] theorem emit_ready (s : State) (o : Out) : (s.emit o).ready = s.ready := rfl
@[simp] theorem emit_strm (s : State) (o : Out) : (s.emit o).strm = s.strm := rfl
@[simp] theorem emit_seq (s : State) (o : Out) : (s.emit o).seq = s.seq := rfl
@[simp] theorem emit_shoalQ (s : State) (o : Out) : (s.emit o).shoalQ = s.shoalQ := rfl
@[simp] theorem emit_routers (s : State) (o : Out) : (s.emit o).routers = s.routers := rfl
@[simp] theorem emit_bsn (s : State) (o : Out) : (s.emit o).bsn = s.bsn := rfl
@[simp] theorem emit_lnk (s : State) (o : Out) : (s.emit o).lnk = s.lnk := rfl
@[simp] theorem emit_inl (s : State) (o : Out) : (s.emit o).inl = s.inl := rfl
@[simp] theorem emit_gau (s : State) (o : Out) : (s.emit o).gau = s.gau := rfl
@[simp] theorem emit_weir (s : State) (o : Out) : (s.emit o).weir = s.weir := rfl
@[simp] theorem emit_wh (s : State) (o : Out) : (s.emit o).wh = s.wh := rfl
@[simp] theorem emit_i3cDyn (s : State) (o : Out) : (s.emit o).i3cDyn = s.i3cDyn := rfl

/-! ### bump -/

@[simp] theorem bump_pending (s : State) (off n : Nat) : (s.bump off n).pending = s.pending := rfl
@[simp] theorem bump_fuses (s : State) (off n : Nat) : (s.bump off n).fuses = s.fuses := rfl
@[simp] theorem bump_tick (s : State) (off n : Nat) : (s.bump off n).tick = s.tick := rfl
@[simp] theorem bump_regs (s : State) (off n : Nat) : (s.bump off n).regs = s.regs := rfl
@[simp] theorem bump_ctrs (s : State) (off n : Nat) : (s.bump off n).ctrs = SMap.put 0 s.ctrs off (s.ctr off + BitVec.ofNat 64 n) := rfl
@[simp] theorem bump_flags (s : State) (off n : Nat) : (s.bump off n).flags = s.flags := rfl
@[simp] theorem bump_draws (s : State) (off n : Nat) : (s.bump off n).draws = s.draws := rfl
@[simp] theorem bump_out (s : State) (off n : Nat) : (s.bump off n).out = s.out := rfl
@[simp] theorem bump_arbs (s : State) (off n : Nat) : (s.bump off n).arbs = s.arbs := rfl
@[simp] theorem bump_mem (s : State) (off n : Nat) : (s.bump off n).mem = s.mem := rfl
@[simp] theorem bump_hbm (s : State) (off n : Nat) : (s.bump off n).hbm = s.hbm := rfl
@[simp] theorem bump_dtu (s : State) (off n : Nat) : (s.bump off n).dtu = s.dtu := rfl
@[simp] theorem bump_spw (s : State) (off n : Nat) : (s.bump off n).spw = s.spw := rfl
@[simp] theorem bump_objs (s : State) (off n : Nat) : (s.bump off n).objs = s.objs := rfl
@[simp] theorem bump_flt (s : State) (off n : Nat) : (s.bump off n).flt = s.flt := rfl
@[simp] theorem bump_rip (s : State) (off n : Nat) : (s.bump off n).rip = s.rip := rfl
@[simp] theorem bump_cvu (s : State) (off n : Nat) : (s.bump off n).cvu = s.cvu := rfl
@[simp] theorem bump_jvk (s : State) (off n : Nat) : (s.bump off n).jvk = s.jvk := rfl
@[simp] theorem bump_hif (s : State) (off n : Nat) : (s.bump off n).hif = s.hif := rfl
@[simp] theorem bump_ponds (s : State) (off n : Nat) : (s.bump off n).ponds = s.ponds := rfl
@[simp] theorem bump_atnLists (s : State) (off n : Nat) : (s.bump off n).atnLists = s.atnLists := rfl
@[simp] theorem bump_cores (s : State) (off n : Nat) : (s.bump off n).cores = s.cores := rfl
@[simp] theorem bump_atns (s : State) (off n : Nat) : (s.bump off n).atns = s.atns := rfl
@[simp] theorem bump_epochs (s : State) (off n : Nat) : (s.bump off n).epochs = s.epochs := rfl
@[simp] theorem bump_debug (s : State) (off n : Nat) : (s.bump off n).debug = s.debug := rfl
@[simp] theorem bump_stopped (s : State) (off n : Nat) : (s.bump off n).stopped = s.stopped := rfl
@[simp] theorem bump_pstate (s : State) (off n : Nat) : (s.bump off n).pstate = s.pstate := rfl
@[simp] theorem bump_arrival (s : State) (off n : Nat) : (s.bump off n).arrival = s.arrival := rfl
@[simp] theorem bump_streams (s : State) (off n : Nat) : (s.bump off n).streams = s.streams := rfl
@[simp] theorem bump_ready (s : State) (off n : Nat) : (s.bump off n).ready = s.ready := rfl
@[simp] theorem bump_strm (s : State) (off n : Nat) : (s.bump off n).strm = s.strm := rfl
@[simp] theorem bump_seq (s : State) (off n : Nat) : (s.bump off n).seq = s.seq := rfl
@[simp] theorem bump_shoalQ (s : State) (off n : Nat) : (s.bump off n).shoalQ = s.shoalQ := rfl
@[simp] theorem bump_routers (s : State) (off n : Nat) : (s.bump off n).routers = s.routers := rfl
@[simp] theorem bump_bsn (s : State) (off n : Nat) : (s.bump off n).bsn = s.bsn := rfl
@[simp] theorem bump_lnk (s : State) (off n : Nat) : (s.bump off n).lnk = s.lnk := rfl
@[simp] theorem bump_inl (s : State) (off n : Nat) : (s.bump off n).inl = s.inl := rfl
@[simp] theorem bump_gau (s : State) (off n : Nat) : (s.bump off n).gau = s.gau := rfl
@[simp] theorem bump_weir (s : State) (off n : Nat) : (s.bump off n).weir = s.weir := rfl
@[simp] theorem bump_wh (s : State) (off n : Nat) : (s.bump off n).wh = s.wh := rfl
@[simp] theorem bump_i3cDyn (s : State) (off n : Nat) : (s.bump off n).i3cDyn = s.i3cDyn := rfl

/-! ### setReg -/

@[simp] theorem setReg_pending (s : State) (off : Nat) (w : Word) : (s.setReg off w).pending = s.pending := rfl
@[simp] theorem setReg_fuses (s : State) (off : Nat) (w : Word) : (s.setReg off w).fuses = s.fuses := rfl
@[simp] theorem setReg_tick (s : State) (off : Nat) (w : Word) : (s.setReg off w).tick = s.tick := rfl
@[simp] theorem setReg_regs (s : State) (off : Nat) (w : Word) : (s.setReg off w).regs = SMap.put (regReset off) s.regs off w := rfl
@[simp] theorem setReg_ctrs (s : State) (off : Nat) (w : Word) : (s.setReg off w).ctrs = s.ctrs := rfl
@[simp] theorem setReg_flags (s : State) (off : Nat) (w : Word) : (s.setReg off w).flags = s.flags := rfl
@[simp] theorem setReg_draws (s : State) (off : Nat) (w : Word) : (s.setReg off w).draws = s.draws := rfl
@[simp] theorem setReg_out (s : State) (off : Nat) (w : Word) : (s.setReg off w).out = s.out := rfl
@[simp] theorem setReg_arbs (s : State) (off : Nat) (w : Word) : (s.setReg off w).arbs = s.arbs := rfl
@[simp] theorem setReg_mem (s : State) (off : Nat) (w : Word) : (s.setReg off w).mem = s.mem := rfl
@[simp] theorem setReg_hbm (s : State) (off : Nat) (w : Word) : (s.setReg off w).hbm = s.hbm := rfl
@[simp] theorem setReg_dtu (s : State) (off : Nat) (w : Word) : (s.setReg off w).dtu = s.dtu := rfl
@[simp] theorem setReg_spw (s : State) (off : Nat) (w : Word) : (s.setReg off w).spw = s.spw := rfl
@[simp] theorem setReg_objs (s : State) (off : Nat) (w : Word) : (s.setReg off w).objs = s.objs := rfl
@[simp] theorem setReg_flt (s : State) (off : Nat) (w : Word) : (s.setReg off w).flt = s.flt := rfl
@[simp] theorem setReg_rip (s : State) (off : Nat) (w : Word) : (s.setReg off w).rip = s.rip := rfl
@[simp] theorem setReg_cvu (s : State) (off : Nat) (w : Word) : (s.setReg off w).cvu = s.cvu := rfl
@[simp] theorem setReg_jvk (s : State) (off : Nat) (w : Word) : (s.setReg off w).jvk = s.jvk := rfl
@[simp] theorem setReg_hif (s : State) (off : Nat) (w : Word) : (s.setReg off w).hif = s.hif := rfl
@[simp] theorem setReg_ponds (s : State) (off : Nat) (w : Word) : (s.setReg off w).ponds = s.ponds := rfl
@[simp] theorem setReg_atnLists (s : State) (off : Nat) (w : Word) : (s.setReg off w).atnLists = s.atnLists := rfl
@[simp] theorem setReg_cores (s : State) (off : Nat) (w : Word) : (s.setReg off w).cores = s.cores := rfl
@[simp] theorem setReg_atns (s : State) (off : Nat) (w : Word) : (s.setReg off w).atns = s.atns := rfl
@[simp] theorem setReg_epochs (s : State) (off : Nat) (w : Word) : (s.setReg off w).epochs = s.epochs := rfl
@[simp] theorem setReg_debug (s : State) (off : Nat) (w : Word) : (s.setReg off w).debug = s.debug := rfl
@[simp] theorem setReg_stopped (s : State) (off : Nat) (w : Word) : (s.setReg off w).stopped = s.stopped := rfl
@[simp] theorem setReg_pstate (s : State) (off : Nat) (w : Word) : (s.setReg off w).pstate = s.pstate := rfl
@[simp] theorem setReg_arrival (s : State) (off : Nat) (w : Word) : (s.setReg off w).arrival = s.arrival := rfl
@[simp] theorem setReg_streams (s : State) (off : Nat) (w : Word) : (s.setReg off w).streams = s.streams := rfl
@[simp] theorem setReg_ready (s : State) (off : Nat) (w : Word) : (s.setReg off w).ready = s.ready := rfl
@[simp] theorem setReg_strm (s : State) (off : Nat) (w : Word) : (s.setReg off w).strm = s.strm := rfl
@[simp] theorem setReg_seq (s : State) (off : Nat) (w : Word) : (s.setReg off w).seq = s.seq := rfl
@[simp] theorem setReg_shoalQ (s : State) (off : Nat) (w : Word) : (s.setReg off w).shoalQ = s.shoalQ := rfl
@[simp] theorem setReg_routers (s : State) (off : Nat) (w : Word) : (s.setReg off w).routers = s.routers := rfl
@[simp] theorem setReg_bsn (s : State) (off : Nat) (w : Word) : (s.setReg off w).bsn = s.bsn := rfl
@[simp] theorem setReg_lnk (s : State) (off : Nat) (w : Word) : (s.setReg off w).lnk = s.lnk := rfl
@[simp] theorem setReg_inl (s : State) (off : Nat) (w : Word) : (s.setReg off w).inl = s.inl := rfl
@[simp] theorem setReg_gau (s : State) (off : Nat) (w : Word) : (s.setReg off w).gau = s.gau := rfl
@[simp] theorem setReg_weir (s : State) (off : Nat) (w : Word) : (s.setReg off w).weir = s.weir := rfl
@[simp] theorem setReg_wh (s : State) (off : Nat) (w : Word) : (s.setReg off w).wh = s.wh := rfl
@[simp] theorem setReg_i3cDyn (s : State) (off : Nat) (w : Word) : (s.setReg off w).i3cDyn = s.i3cDyn := rfl

/-! ### setFlags -/

@[simp] theorem setFlags_pending (s : State) (off : Nat) (w : Word) : (s.setFlags off w).pending = s.pending := rfl
@[simp] theorem setFlags_fuses (s : State) (off : Nat) (w : Word) : (s.setFlags off w).fuses = s.fuses := rfl
@[simp] theorem setFlags_tick (s : State) (off : Nat) (w : Word) : (s.setFlags off w).tick = s.tick := rfl
@[simp] theorem setFlags_regs (s : State) (off : Nat) (w : Word) : (s.setFlags off w).regs = s.regs := rfl
@[simp] theorem setFlags_ctrs (s : State) (off : Nat) (w : Word) : (s.setFlags off w).ctrs = s.ctrs := rfl
@[simp] theorem setFlags_flags (s : State) (off : Nat) (w : Word) : (s.setFlags off w).flags = SMap.put 0 s.flags off w := rfl
@[simp] theorem setFlags_draws (s : State) (off : Nat) (w : Word) : (s.setFlags off w).draws = s.draws := rfl
@[simp] theorem setFlags_out (s : State) (off : Nat) (w : Word) : (s.setFlags off w).out = s.out := rfl
@[simp] theorem setFlags_arbs (s : State) (off : Nat) (w : Word) : (s.setFlags off w).arbs = s.arbs := rfl
@[simp] theorem setFlags_mem (s : State) (off : Nat) (w : Word) : (s.setFlags off w).mem = s.mem := rfl
@[simp] theorem setFlags_hbm (s : State) (off : Nat) (w : Word) : (s.setFlags off w).hbm = s.hbm := rfl
@[simp] theorem setFlags_dtu (s : State) (off : Nat) (w : Word) : (s.setFlags off w).dtu = s.dtu := rfl
@[simp] theorem setFlags_spw (s : State) (off : Nat) (w : Word) : (s.setFlags off w).spw = s.spw := rfl
@[simp] theorem setFlags_objs (s : State) (off : Nat) (w : Word) : (s.setFlags off w).objs = s.objs := rfl
@[simp] theorem setFlags_flt (s : State) (off : Nat) (w : Word) : (s.setFlags off w).flt = s.flt := rfl
@[simp] theorem setFlags_rip (s : State) (off : Nat) (w : Word) : (s.setFlags off w).rip = s.rip := rfl
@[simp] theorem setFlags_cvu (s : State) (off : Nat) (w : Word) : (s.setFlags off w).cvu = s.cvu := rfl
@[simp] theorem setFlags_jvk (s : State) (off : Nat) (w : Word) : (s.setFlags off w).jvk = s.jvk := rfl
@[simp] theorem setFlags_hif (s : State) (off : Nat) (w : Word) : (s.setFlags off w).hif = s.hif := rfl
@[simp] theorem setFlags_ponds (s : State) (off : Nat) (w : Word) : (s.setFlags off w).ponds = s.ponds := rfl
@[simp] theorem setFlags_atnLists (s : State) (off : Nat) (w : Word) : (s.setFlags off w).atnLists = s.atnLists := rfl
@[simp] theorem setFlags_cores (s : State) (off : Nat) (w : Word) : (s.setFlags off w).cores = s.cores := rfl
@[simp] theorem setFlags_atns (s : State) (off : Nat) (w : Word) : (s.setFlags off w).atns = s.atns := rfl
@[simp] theorem setFlags_epochs (s : State) (off : Nat) (w : Word) : (s.setFlags off w).epochs = s.epochs := rfl
@[simp] theorem setFlags_debug (s : State) (off : Nat) (w : Word) : (s.setFlags off w).debug = s.debug := rfl
@[simp] theorem setFlags_stopped (s : State) (off : Nat) (w : Word) : (s.setFlags off w).stopped = s.stopped := rfl
@[simp] theorem setFlags_pstate (s : State) (off : Nat) (w : Word) : (s.setFlags off w).pstate = s.pstate := rfl
@[simp] theorem setFlags_arrival (s : State) (off : Nat) (w : Word) : (s.setFlags off w).arrival = s.arrival := rfl
@[simp] theorem setFlags_streams (s : State) (off : Nat) (w : Word) : (s.setFlags off w).streams = s.streams := rfl
@[simp] theorem setFlags_ready (s : State) (off : Nat) (w : Word) : (s.setFlags off w).ready = s.ready := rfl
@[simp] theorem setFlags_strm (s : State) (off : Nat) (w : Word) : (s.setFlags off w).strm = s.strm := rfl
@[simp] theorem setFlags_seq (s : State) (off : Nat) (w : Word) : (s.setFlags off w).seq = s.seq := rfl
@[simp] theorem setFlags_shoalQ (s : State) (off : Nat) (w : Word) : (s.setFlags off w).shoalQ = s.shoalQ := rfl
@[simp] theorem setFlags_routers (s : State) (off : Nat) (w : Word) : (s.setFlags off w).routers = s.routers := rfl
@[simp] theorem setFlags_bsn (s : State) (off : Nat) (w : Word) : (s.setFlags off w).bsn = s.bsn := rfl
@[simp] theorem setFlags_lnk (s : State) (off : Nat) (w : Word) : (s.setFlags off w).lnk = s.lnk := rfl
@[simp] theorem setFlags_inl (s : State) (off : Nat) (w : Word) : (s.setFlags off w).inl = s.inl := rfl
@[simp] theorem setFlags_gau (s : State) (off : Nat) (w : Word) : (s.setFlags off w).gau = s.gau := rfl
@[simp] theorem setFlags_weir (s : State) (off : Nat) (w : Word) : (s.setFlags off w).weir = s.weir := rfl
@[simp] theorem setFlags_wh (s : State) (off : Nat) (w : Word) : (s.setFlags off w).wh = s.wh := rfl
@[simp] theorem setFlags_i3cDyn (s : State) (off : Nat) (w : Word) : (s.setFlags off w).i3cDyn = s.i3cDyn := rfl

/-! ### modHif -/

@[simp] theorem modHif_pending (s : State) (f : Hif → Hif) : (s.modHif f).pending = s.pending := rfl
@[simp] theorem modHif_fuses (s : State) (f : Hif → Hif) : (s.modHif f).fuses = s.fuses := rfl
@[simp] theorem modHif_tick (s : State) (f : Hif → Hif) : (s.modHif f).tick = s.tick := rfl
@[simp] theorem modHif_regs (s : State) (f : Hif → Hif) : (s.modHif f).regs = s.regs := rfl
@[simp] theorem modHif_ctrs (s : State) (f : Hif → Hif) : (s.modHif f).ctrs = s.ctrs := rfl
@[simp] theorem modHif_flags (s : State) (f : Hif → Hif) : (s.modHif f).flags = s.flags := rfl
@[simp] theorem modHif_draws (s : State) (f : Hif → Hif) : (s.modHif f).draws = s.draws := rfl
@[simp] theorem modHif_out (s : State) (f : Hif → Hif) : (s.modHif f).out = s.out := rfl
@[simp] theorem modHif_arbs (s : State) (f : Hif → Hif) : (s.modHif f).arbs = s.arbs := rfl
@[simp] theorem modHif_mem (s : State) (f : Hif → Hif) : (s.modHif f).mem = s.mem := rfl
@[simp] theorem modHif_hbm (s : State) (f : Hif → Hif) : (s.modHif f).hbm = s.hbm := rfl
@[simp] theorem modHif_dtu (s : State) (f : Hif → Hif) : (s.modHif f).dtu = s.dtu := rfl
@[simp] theorem modHif_spw (s : State) (f : Hif → Hif) : (s.modHif f).spw = s.spw := rfl
@[simp] theorem modHif_objs (s : State) (f : Hif → Hif) : (s.modHif f).objs = s.objs := rfl
@[simp] theorem modHif_flt (s : State) (f : Hif → Hif) : (s.modHif f).flt = s.flt := rfl
@[simp] theorem modHif_rip (s : State) (f : Hif → Hif) : (s.modHif f).rip = s.rip := rfl
@[simp] theorem modHif_cvu (s : State) (f : Hif → Hif) : (s.modHif f).cvu = s.cvu := rfl
@[simp] theorem modHif_jvk (s : State) (f : Hif → Hif) : (s.modHif f).jvk = s.jvk := rfl
@[simp] theorem modHif_hif (s : State) (f : Hif → Hif) : (s.modHif f).hif = f s.hif := rfl
@[simp] theorem modHif_ponds (s : State) (f : Hif → Hif) : (s.modHif f).ponds = s.ponds := rfl
@[simp] theorem modHif_atnLists (s : State) (f : Hif → Hif) : (s.modHif f).atnLists = s.atnLists := rfl
@[simp] theorem modHif_cores (s : State) (f : Hif → Hif) : (s.modHif f).cores = s.cores := rfl
@[simp] theorem modHif_atns (s : State) (f : Hif → Hif) : (s.modHif f).atns = s.atns := rfl
@[simp] theorem modHif_epochs (s : State) (f : Hif → Hif) : (s.modHif f).epochs = s.epochs := rfl
@[simp] theorem modHif_debug (s : State) (f : Hif → Hif) : (s.modHif f).debug = s.debug := rfl
@[simp] theorem modHif_stopped (s : State) (f : Hif → Hif) : (s.modHif f).stopped = s.stopped := rfl
@[simp] theorem modHif_pstate (s : State) (f : Hif → Hif) : (s.modHif f).pstate = s.pstate := rfl
@[simp] theorem modHif_arrival (s : State) (f : Hif → Hif) : (s.modHif f).arrival = s.arrival := rfl
@[simp] theorem modHif_streams (s : State) (f : Hif → Hif) : (s.modHif f).streams = s.streams := rfl
@[simp] theorem modHif_ready (s : State) (f : Hif → Hif) : (s.modHif f).ready = s.ready := rfl
@[simp] theorem modHif_strm (s : State) (f : Hif → Hif) : (s.modHif f).strm = s.strm := rfl
@[simp] theorem modHif_seq (s : State) (f : Hif → Hif) : (s.modHif f).seq = s.seq := rfl
@[simp] theorem modHif_shoalQ (s : State) (f : Hif → Hif) : (s.modHif f).shoalQ = s.shoalQ := rfl
@[simp] theorem modHif_routers (s : State) (f : Hif → Hif) : (s.modHif f).routers = s.routers := rfl
@[simp] theorem modHif_bsn (s : State) (f : Hif → Hif) : (s.modHif f).bsn = s.bsn := rfl
@[simp] theorem modHif_lnk (s : State) (f : Hif → Hif) : (s.modHif f).lnk = s.lnk := rfl
@[simp] theorem modHif_inl (s : State) (f : Hif → Hif) : (s.modHif f).inl = s.inl := rfl
@[simp] theorem modHif_gau (s : State) (f : Hif → Hif) : (s.modHif f).gau = s.gau := rfl
@[simp] theorem modHif_weir (s : State) (f : Hif → Hif) : (s.modHif f).weir = s.weir := rfl
@[simp] theorem modHif_wh (s : State) (f : Hif → Hif) : (s.modHif f).wh = s.wh := rfl
@[simp] theorem modHif_i3cDyn (s : State) (f : Hif → Hif) : (s.modHif f).i3cDyn = s.i3cDyn := rfl

/-! ### modJvk -/

@[simp] theorem modJvk_pending (s : State) (f : Jvk → Jvk) : (s.modJvk f).pending = s.pending := rfl
@[simp] theorem modJvk_fuses (s : State) (f : Jvk → Jvk) : (s.modJvk f).fuses = s.fuses := rfl
@[simp] theorem modJvk_tick (s : State) (f : Jvk → Jvk) : (s.modJvk f).tick = s.tick := rfl
@[simp] theorem modJvk_regs (s : State) (f : Jvk → Jvk) : (s.modJvk f).regs = s.regs := rfl
@[simp] theorem modJvk_ctrs (s : State) (f : Jvk → Jvk) : (s.modJvk f).ctrs = s.ctrs := rfl
@[simp] theorem modJvk_flags (s : State) (f : Jvk → Jvk) : (s.modJvk f).flags = s.flags := rfl
@[simp] theorem modJvk_draws (s : State) (f : Jvk → Jvk) : (s.modJvk f).draws = s.draws := rfl
@[simp] theorem modJvk_out (s : State) (f : Jvk → Jvk) : (s.modJvk f).out = s.out := rfl
@[simp] theorem modJvk_arbs (s : State) (f : Jvk → Jvk) : (s.modJvk f).arbs = s.arbs := rfl
@[simp] theorem modJvk_mem (s : State) (f : Jvk → Jvk) : (s.modJvk f).mem = s.mem := rfl
@[simp] theorem modJvk_hbm (s : State) (f : Jvk → Jvk) : (s.modJvk f).hbm = s.hbm := rfl
@[simp] theorem modJvk_dtu (s : State) (f : Jvk → Jvk) : (s.modJvk f).dtu = s.dtu := rfl
@[simp] theorem modJvk_spw (s : State) (f : Jvk → Jvk) : (s.modJvk f).spw = s.spw := rfl
@[simp] theorem modJvk_objs (s : State) (f : Jvk → Jvk) : (s.modJvk f).objs = s.objs := rfl
@[simp] theorem modJvk_flt (s : State) (f : Jvk → Jvk) : (s.modJvk f).flt = s.flt := rfl
@[simp] theorem modJvk_rip (s : State) (f : Jvk → Jvk) : (s.modJvk f).rip = s.rip := rfl
@[simp] theorem modJvk_cvu (s : State) (f : Jvk → Jvk) : (s.modJvk f).cvu = s.cvu := rfl
@[simp] theorem modJvk_jvk (s : State) (f : Jvk → Jvk) : (s.modJvk f).jvk = f s.jvk := rfl
@[simp] theorem modJvk_hif (s : State) (f : Jvk → Jvk) : (s.modJvk f).hif = s.hif := rfl
@[simp] theorem modJvk_ponds (s : State) (f : Jvk → Jvk) : (s.modJvk f).ponds = s.ponds := rfl
@[simp] theorem modJvk_atnLists (s : State) (f : Jvk → Jvk) : (s.modJvk f).atnLists = s.atnLists := rfl
@[simp] theorem modJvk_cores (s : State) (f : Jvk → Jvk) : (s.modJvk f).cores = s.cores := rfl
@[simp] theorem modJvk_atns (s : State) (f : Jvk → Jvk) : (s.modJvk f).atns = s.atns := rfl
@[simp] theorem modJvk_epochs (s : State) (f : Jvk → Jvk) : (s.modJvk f).epochs = s.epochs := rfl
@[simp] theorem modJvk_debug (s : State) (f : Jvk → Jvk) : (s.modJvk f).debug = s.debug := rfl
@[simp] theorem modJvk_stopped (s : State) (f : Jvk → Jvk) : (s.modJvk f).stopped = s.stopped := rfl
@[simp] theorem modJvk_pstate (s : State) (f : Jvk → Jvk) : (s.modJvk f).pstate = s.pstate := rfl
@[simp] theorem modJvk_arrival (s : State) (f : Jvk → Jvk) : (s.modJvk f).arrival = s.arrival := rfl
@[simp] theorem modJvk_streams (s : State) (f : Jvk → Jvk) : (s.modJvk f).streams = s.streams := rfl
@[simp] theorem modJvk_ready (s : State) (f : Jvk → Jvk) : (s.modJvk f).ready = s.ready := rfl
@[simp] theorem modJvk_strm (s : State) (f : Jvk → Jvk) : (s.modJvk f).strm = s.strm := rfl
@[simp] theorem modJvk_seq (s : State) (f : Jvk → Jvk) : (s.modJvk f).seq = s.seq := rfl
@[simp] theorem modJvk_shoalQ (s : State) (f : Jvk → Jvk) : (s.modJvk f).shoalQ = s.shoalQ := rfl
@[simp] theorem modJvk_routers (s : State) (f : Jvk → Jvk) : (s.modJvk f).routers = s.routers := rfl
@[simp] theorem modJvk_bsn (s : State) (f : Jvk → Jvk) : (s.modJvk f).bsn = s.bsn := rfl
@[simp] theorem modJvk_lnk (s : State) (f : Jvk → Jvk) : (s.modJvk f).lnk = s.lnk := rfl
@[simp] theorem modJvk_inl (s : State) (f : Jvk → Jvk) : (s.modJvk f).inl = s.inl := rfl
@[simp] theorem modJvk_gau (s : State) (f : Jvk → Jvk) : (s.modJvk f).gau = s.gau := rfl
@[simp] theorem modJvk_weir (s : State) (f : Jvk → Jvk) : (s.modJvk f).weir = s.weir := rfl
@[simp] theorem modJvk_wh (s : State) (f : Jvk → Jvk) : (s.modJvk f).wh = s.wh := rfl
@[simp] theorem modJvk_i3cDyn (s : State) (f : Jvk → Jvk) : (s.modJvk f).i3cDyn = s.i3cDyn := rfl

/-! ### modWh -/

@[simp] theorem modWh_pending (s : State) (f : Wh → Wh) : (s.modWh f).pending = s.pending := rfl
@[simp] theorem modWh_fuses (s : State) (f : Wh → Wh) : (s.modWh f).fuses = s.fuses := rfl
@[simp] theorem modWh_tick (s : State) (f : Wh → Wh) : (s.modWh f).tick = s.tick := rfl
@[simp] theorem modWh_regs (s : State) (f : Wh → Wh) : (s.modWh f).regs = s.regs := rfl
@[simp] theorem modWh_ctrs (s : State) (f : Wh → Wh) : (s.modWh f).ctrs = s.ctrs := rfl
@[simp] theorem modWh_flags (s : State) (f : Wh → Wh) : (s.modWh f).flags = s.flags := rfl
@[simp] theorem modWh_draws (s : State) (f : Wh → Wh) : (s.modWh f).draws = s.draws := rfl
@[simp] theorem modWh_out (s : State) (f : Wh → Wh) : (s.modWh f).out = s.out := rfl
@[simp] theorem modWh_arbs (s : State) (f : Wh → Wh) : (s.modWh f).arbs = s.arbs := rfl
@[simp] theorem modWh_mem (s : State) (f : Wh → Wh) : (s.modWh f).mem = s.mem := rfl
@[simp] theorem modWh_hbm (s : State) (f : Wh → Wh) : (s.modWh f).hbm = s.hbm := rfl
@[simp] theorem modWh_dtu (s : State) (f : Wh → Wh) : (s.modWh f).dtu = s.dtu := rfl
@[simp] theorem modWh_spw (s : State) (f : Wh → Wh) : (s.modWh f).spw = s.spw := rfl
@[simp] theorem modWh_objs (s : State) (f : Wh → Wh) : (s.modWh f).objs = s.objs := rfl
@[simp] theorem modWh_flt (s : State) (f : Wh → Wh) : (s.modWh f).flt = s.flt := rfl
@[simp] theorem modWh_rip (s : State) (f : Wh → Wh) : (s.modWh f).rip = s.rip := rfl
@[simp] theorem modWh_cvu (s : State) (f : Wh → Wh) : (s.modWh f).cvu = s.cvu := rfl
@[simp] theorem modWh_jvk (s : State) (f : Wh → Wh) : (s.modWh f).jvk = s.jvk := rfl
@[simp] theorem modWh_hif (s : State) (f : Wh → Wh) : (s.modWh f).hif = s.hif := rfl
@[simp] theorem modWh_ponds (s : State) (f : Wh → Wh) : (s.modWh f).ponds = s.ponds := rfl
@[simp] theorem modWh_atnLists (s : State) (f : Wh → Wh) : (s.modWh f).atnLists = s.atnLists := rfl
@[simp] theorem modWh_cores (s : State) (f : Wh → Wh) : (s.modWh f).cores = s.cores := rfl
@[simp] theorem modWh_atns (s : State) (f : Wh → Wh) : (s.modWh f).atns = s.atns := rfl
@[simp] theorem modWh_epochs (s : State) (f : Wh → Wh) : (s.modWh f).epochs = s.epochs := rfl
@[simp] theorem modWh_debug (s : State) (f : Wh → Wh) : (s.modWh f).debug = s.debug := rfl
@[simp] theorem modWh_stopped (s : State) (f : Wh → Wh) : (s.modWh f).stopped = s.stopped := rfl
@[simp] theorem modWh_pstate (s : State) (f : Wh → Wh) : (s.modWh f).pstate = s.pstate := rfl
@[simp] theorem modWh_arrival (s : State) (f : Wh → Wh) : (s.modWh f).arrival = s.arrival := rfl
@[simp] theorem modWh_streams (s : State) (f : Wh → Wh) : (s.modWh f).streams = s.streams := rfl
@[simp] theorem modWh_ready (s : State) (f : Wh → Wh) : (s.modWh f).ready = s.ready := rfl
@[simp] theorem modWh_strm (s : State) (f : Wh → Wh) : (s.modWh f).strm = s.strm := rfl
@[simp] theorem modWh_seq (s : State) (f : Wh → Wh) : (s.modWh f).seq = s.seq := rfl
@[simp] theorem modWh_shoalQ (s : State) (f : Wh → Wh) : (s.modWh f).shoalQ = s.shoalQ := rfl
@[simp] theorem modWh_routers (s : State) (f : Wh → Wh) : (s.modWh f).routers = s.routers := rfl
@[simp] theorem modWh_bsn (s : State) (f : Wh → Wh) : (s.modWh f).bsn = s.bsn := rfl
@[simp] theorem modWh_lnk (s : State) (f : Wh → Wh) : (s.modWh f).lnk = s.lnk := rfl
@[simp] theorem modWh_inl (s : State) (f : Wh → Wh) : (s.modWh f).inl = s.inl := rfl
@[simp] theorem modWh_gau (s : State) (f : Wh → Wh) : (s.modWh f).gau = s.gau := rfl
@[simp] theorem modWh_weir (s : State) (f : Wh → Wh) : (s.modWh f).weir = s.weir := rfl
@[simp] theorem modWh_wh (s : State) (f : Wh → Wh) : (s.modWh f).wh = f s.wh := rfl
@[simp] theorem modWh_i3cDyn (s : State) (f : Wh → Wh) : (s.modWh f).i3cDyn = s.i3cDyn := rfl

/-! ### modGau -/

@[simp] theorem modGau_pending (s : State) (f : Gau → Gau) : (s.modGau f).pending = s.pending := rfl
@[simp] theorem modGau_fuses (s : State) (f : Gau → Gau) : (s.modGau f).fuses = s.fuses := rfl
@[simp] theorem modGau_tick (s : State) (f : Gau → Gau) : (s.modGau f).tick = s.tick := rfl
@[simp] theorem modGau_regs (s : State) (f : Gau → Gau) : (s.modGau f).regs = s.regs := rfl
@[simp] theorem modGau_ctrs (s : State) (f : Gau → Gau) : (s.modGau f).ctrs = s.ctrs := rfl
@[simp] theorem modGau_flags (s : State) (f : Gau → Gau) : (s.modGau f).flags = s.flags := rfl
@[simp] theorem modGau_draws (s : State) (f : Gau → Gau) : (s.modGau f).draws = s.draws := rfl
@[simp] theorem modGau_out (s : State) (f : Gau → Gau) : (s.modGau f).out = s.out := rfl
@[simp] theorem modGau_arbs (s : State) (f : Gau → Gau) : (s.modGau f).arbs = s.arbs := rfl
@[simp] theorem modGau_mem (s : State) (f : Gau → Gau) : (s.modGau f).mem = s.mem := rfl
@[simp] theorem modGau_hbm (s : State) (f : Gau → Gau) : (s.modGau f).hbm = s.hbm := rfl
@[simp] theorem modGau_dtu (s : State) (f : Gau → Gau) : (s.modGau f).dtu = s.dtu := rfl
@[simp] theorem modGau_spw (s : State) (f : Gau → Gau) : (s.modGau f).spw = s.spw := rfl
@[simp] theorem modGau_objs (s : State) (f : Gau → Gau) : (s.modGau f).objs = s.objs := rfl
@[simp] theorem modGau_flt (s : State) (f : Gau → Gau) : (s.modGau f).flt = s.flt := rfl
@[simp] theorem modGau_rip (s : State) (f : Gau → Gau) : (s.modGau f).rip = s.rip := rfl
@[simp] theorem modGau_cvu (s : State) (f : Gau → Gau) : (s.modGau f).cvu = s.cvu := rfl
@[simp] theorem modGau_jvk (s : State) (f : Gau → Gau) : (s.modGau f).jvk = s.jvk := rfl
@[simp] theorem modGau_hif (s : State) (f : Gau → Gau) : (s.modGau f).hif = s.hif := rfl
@[simp] theorem modGau_ponds (s : State) (f : Gau → Gau) : (s.modGau f).ponds = s.ponds := rfl
@[simp] theorem modGau_atnLists (s : State) (f : Gau → Gau) : (s.modGau f).atnLists = s.atnLists := rfl
@[simp] theorem modGau_cores (s : State) (f : Gau → Gau) : (s.modGau f).cores = s.cores := rfl
@[simp] theorem modGau_atns (s : State) (f : Gau → Gau) : (s.modGau f).atns = s.atns := rfl
@[simp] theorem modGau_epochs (s : State) (f : Gau → Gau) : (s.modGau f).epochs = s.epochs := rfl
@[simp] theorem modGau_debug (s : State) (f : Gau → Gau) : (s.modGau f).debug = s.debug := rfl
@[simp] theorem modGau_stopped (s : State) (f : Gau → Gau) : (s.modGau f).stopped = s.stopped := rfl
@[simp] theorem modGau_pstate (s : State) (f : Gau → Gau) : (s.modGau f).pstate = s.pstate := rfl
@[simp] theorem modGau_arrival (s : State) (f : Gau → Gau) : (s.modGau f).arrival = s.arrival := rfl
@[simp] theorem modGau_streams (s : State) (f : Gau → Gau) : (s.modGau f).streams = s.streams := rfl
@[simp] theorem modGau_ready (s : State) (f : Gau → Gau) : (s.modGau f).ready = s.ready := rfl
@[simp] theorem modGau_strm (s : State) (f : Gau → Gau) : (s.modGau f).strm = s.strm := rfl
@[simp] theorem modGau_seq (s : State) (f : Gau → Gau) : (s.modGau f).seq = s.seq := rfl
@[simp] theorem modGau_shoalQ (s : State) (f : Gau → Gau) : (s.modGau f).shoalQ = s.shoalQ := rfl
@[simp] theorem modGau_routers (s : State) (f : Gau → Gau) : (s.modGau f).routers = s.routers := rfl
@[simp] theorem modGau_bsn (s : State) (f : Gau → Gau) : (s.modGau f).bsn = s.bsn := rfl
@[simp] theorem modGau_lnk (s : State) (f : Gau → Gau) : (s.modGau f).lnk = s.lnk := rfl
@[simp] theorem modGau_inl (s : State) (f : Gau → Gau) : (s.modGau f).inl = s.inl := rfl
@[simp] theorem modGau_gau (s : State) (f : Gau → Gau) : (s.modGau f).gau = f s.gau := rfl
@[simp] theorem modGau_weir (s : State) (f : Gau → Gau) : (s.modGau f).weir = s.weir := rfl
@[simp] theorem modGau_wh (s : State) (f : Gau → Gau) : (s.modGau f).wh = s.wh := rfl
@[simp] theorem modGau_i3cDyn (s : State) (f : Gau → Gau) : (s.modGau f).i3cDyn = s.i3cDyn := rfl

/-! ### modWeir -/

@[simp] theorem modWeir_pending (s : State) (f : Weir → Weir) : (s.modWeir f).pending = s.pending := rfl
@[simp] theorem modWeir_fuses (s : State) (f : Weir → Weir) : (s.modWeir f).fuses = s.fuses := rfl
@[simp] theorem modWeir_tick (s : State) (f : Weir → Weir) : (s.modWeir f).tick = s.tick := rfl
@[simp] theorem modWeir_regs (s : State) (f : Weir → Weir) : (s.modWeir f).regs = s.regs := rfl
@[simp] theorem modWeir_ctrs (s : State) (f : Weir → Weir) : (s.modWeir f).ctrs = s.ctrs := rfl
@[simp] theorem modWeir_flags (s : State) (f : Weir → Weir) : (s.modWeir f).flags = s.flags := rfl
@[simp] theorem modWeir_draws (s : State) (f : Weir → Weir) : (s.modWeir f).draws = s.draws := rfl
@[simp] theorem modWeir_out (s : State) (f : Weir → Weir) : (s.modWeir f).out = s.out := rfl
@[simp] theorem modWeir_arbs (s : State) (f : Weir → Weir) : (s.modWeir f).arbs = s.arbs := rfl
@[simp] theorem modWeir_mem (s : State) (f : Weir → Weir) : (s.modWeir f).mem = s.mem := rfl
@[simp] theorem modWeir_hbm (s : State) (f : Weir → Weir) : (s.modWeir f).hbm = s.hbm := rfl
@[simp] theorem modWeir_dtu (s : State) (f : Weir → Weir) : (s.modWeir f).dtu = s.dtu := rfl
@[simp] theorem modWeir_spw (s : State) (f : Weir → Weir) : (s.modWeir f).spw = s.spw := rfl
@[simp] theorem modWeir_objs (s : State) (f : Weir → Weir) : (s.modWeir f).objs = s.objs := rfl
@[simp] theorem modWeir_flt (s : State) (f : Weir → Weir) : (s.modWeir f).flt = s.flt := rfl
@[simp] theorem modWeir_rip (s : State) (f : Weir → Weir) : (s.modWeir f).rip = s.rip := rfl
@[simp] theorem modWeir_cvu (s : State) (f : Weir → Weir) : (s.modWeir f).cvu = s.cvu := rfl
@[simp] theorem modWeir_jvk (s : State) (f : Weir → Weir) : (s.modWeir f).jvk = s.jvk := rfl
@[simp] theorem modWeir_hif (s : State) (f : Weir → Weir) : (s.modWeir f).hif = s.hif := rfl
@[simp] theorem modWeir_ponds (s : State) (f : Weir → Weir) : (s.modWeir f).ponds = s.ponds := rfl
@[simp] theorem modWeir_atnLists (s : State) (f : Weir → Weir) : (s.modWeir f).atnLists = s.atnLists := rfl
@[simp] theorem modWeir_cores (s : State) (f : Weir → Weir) : (s.modWeir f).cores = s.cores := rfl
@[simp] theorem modWeir_atns (s : State) (f : Weir → Weir) : (s.modWeir f).atns = s.atns := rfl
@[simp] theorem modWeir_epochs (s : State) (f : Weir → Weir) : (s.modWeir f).epochs = s.epochs := rfl
@[simp] theorem modWeir_debug (s : State) (f : Weir → Weir) : (s.modWeir f).debug = s.debug := rfl
@[simp] theorem modWeir_stopped (s : State) (f : Weir → Weir) : (s.modWeir f).stopped = s.stopped := rfl
@[simp] theorem modWeir_pstate (s : State) (f : Weir → Weir) : (s.modWeir f).pstate = s.pstate := rfl
@[simp] theorem modWeir_arrival (s : State) (f : Weir → Weir) : (s.modWeir f).arrival = s.arrival := rfl
@[simp] theorem modWeir_streams (s : State) (f : Weir → Weir) : (s.modWeir f).streams = s.streams := rfl
@[simp] theorem modWeir_ready (s : State) (f : Weir → Weir) : (s.modWeir f).ready = s.ready := rfl
@[simp] theorem modWeir_strm (s : State) (f : Weir → Weir) : (s.modWeir f).strm = s.strm := rfl
@[simp] theorem modWeir_seq (s : State) (f : Weir → Weir) : (s.modWeir f).seq = s.seq := rfl
@[simp] theorem modWeir_shoalQ (s : State) (f : Weir → Weir) : (s.modWeir f).shoalQ = s.shoalQ := rfl
@[simp] theorem modWeir_routers (s : State) (f : Weir → Weir) : (s.modWeir f).routers = s.routers := rfl
@[simp] theorem modWeir_bsn (s : State) (f : Weir → Weir) : (s.modWeir f).bsn = s.bsn := rfl
@[simp] theorem modWeir_lnk (s : State) (f : Weir → Weir) : (s.modWeir f).lnk = s.lnk := rfl
@[simp] theorem modWeir_inl (s : State) (f : Weir → Weir) : (s.modWeir f).inl = s.inl := rfl
@[simp] theorem modWeir_gau (s : State) (f : Weir → Weir) : (s.modWeir f).gau = s.gau := rfl
@[simp] theorem modWeir_weir (s : State) (f : Weir → Weir) : (s.modWeir f).weir = f s.weir := rfl
@[simp] theorem modWeir_wh (s : State) (f : Weir → Weir) : (s.modWeir f).wh = s.wh := rfl
@[simp] theorem modWeir_i3cDyn (s : State) (f : Weir → Weir) : (s.modWeir f).i3cDyn = s.i3cDyn := rfl

/-! ### modHbm -/

@[simp] theorem modHbm_pending (s : State) (f : Hbm → Hbm) : (s.modHbm f).pending = s.pending := rfl
@[simp] theorem modHbm_fuses (s : State) (f : Hbm → Hbm) : (s.modHbm f).fuses = s.fuses := rfl
@[simp] theorem modHbm_tick (s : State) (f : Hbm → Hbm) : (s.modHbm f).tick = s.tick := rfl
@[simp] theorem modHbm_regs (s : State) (f : Hbm → Hbm) : (s.modHbm f).regs = s.regs := rfl
@[simp] theorem modHbm_ctrs (s : State) (f : Hbm → Hbm) : (s.modHbm f).ctrs = s.ctrs := rfl
@[simp] theorem modHbm_flags (s : State) (f : Hbm → Hbm) : (s.modHbm f).flags = s.flags := rfl
@[simp] theorem modHbm_draws (s : State) (f : Hbm → Hbm) : (s.modHbm f).draws = s.draws := rfl
@[simp] theorem modHbm_out (s : State) (f : Hbm → Hbm) : (s.modHbm f).out = s.out := rfl
@[simp] theorem modHbm_arbs (s : State) (f : Hbm → Hbm) : (s.modHbm f).arbs = s.arbs := rfl
@[simp] theorem modHbm_mem (s : State) (f : Hbm → Hbm) : (s.modHbm f).mem = s.mem := rfl
@[simp] theorem modHbm_hbm (s : State) (f : Hbm → Hbm) : (s.modHbm f).hbm = f s.hbm := rfl
@[simp] theorem modHbm_dtu (s : State) (f : Hbm → Hbm) : (s.modHbm f).dtu = s.dtu := rfl
@[simp] theorem modHbm_spw (s : State) (f : Hbm → Hbm) : (s.modHbm f).spw = s.spw := rfl
@[simp] theorem modHbm_objs (s : State) (f : Hbm → Hbm) : (s.modHbm f).objs = s.objs := rfl
@[simp] theorem modHbm_flt (s : State) (f : Hbm → Hbm) : (s.modHbm f).flt = s.flt := rfl
@[simp] theorem modHbm_rip (s : State) (f : Hbm → Hbm) : (s.modHbm f).rip = s.rip := rfl
@[simp] theorem modHbm_cvu (s : State) (f : Hbm → Hbm) : (s.modHbm f).cvu = s.cvu := rfl
@[simp] theorem modHbm_jvk (s : State) (f : Hbm → Hbm) : (s.modHbm f).jvk = s.jvk := rfl
@[simp] theorem modHbm_hif (s : State) (f : Hbm → Hbm) : (s.modHbm f).hif = s.hif := rfl
@[simp] theorem modHbm_ponds (s : State) (f : Hbm → Hbm) : (s.modHbm f).ponds = s.ponds := rfl
@[simp] theorem modHbm_atnLists (s : State) (f : Hbm → Hbm) : (s.modHbm f).atnLists = s.atnLists := rfl
@[simp] theorem modHbm_cores (s : State) (f : Hbm → Hbm) : (s.modHbm f).cores = s.cores := rfl
@[simp] theorem modHbm_atns (s : State) (f : Hbm → Hbm) : (s.modHbm f).atns = s.atns := rfl
@[simp] theorem modHbm_epochs (s : State) (f : Hbm → Hbm) : (s.modHbm f).epochs = s.epochs := rfl
@[simp] theorem modHbm_debug (s : State) (f : Hbm → Hbm) : (s.modHbm f).debug = s.debug := rfl
@[simp] theorem modHbm_stopped (s : State) (f : Hbm → Hbm) : (s.modHbm f).stopped = s.stopped := rfl
@[simp] theorem modHbm_pstate (s : State) (f : Hbm → Hbm) : (s.modHbm f).pstate = s.pstate := rfl
@[simp] theorem modHbm_arrival (s : State) (f : Hbm → Hbm) : (s.modHbm f).arrival = s.arrival := rfl
@[simp] theorem modHbm_streams (s : State) (f : Hbm → Hbm) : (s.modHbm f).streams = s.streams := rfl
@[simp] theorem modHbm_ready (s : State) (f : Hbm → Hbm) : (s.modHbm f).ready = s.ready := rfl
@[simp] theorem modHbm_strm (s : State) (f : Hbm → Hbm) : (s.modHbm f).strm = s.strm := rfl
@[simp] theorem modHbm_seq (s : State) (f : Hbm → Hbm) : (s.modHbm f).seq = s.seq := rfl
@[simp] theorem modHbm_shoalQ (s : State) (f : Hbm → Hbm) : (s.modHbm f).shoalQ = s.shoalQ := rfl
@[simp] theorem modHbm_routers (s : State) (f : Hbm → Hbm) : (s.modHbm f).routers = s.routers := rfl
@[simp] theorem modHbm_bsn (s : State) (f : Hbm → Hbm) : (s.modHbm f).bsn = s.bsn := rfl
@[simp] theorem modHbm_lnk (s : State) (f : Hbm → Hbm) : (s.modHbm f).lnk = s.lnk := rfl
@[simp] theorem modHbm_inl (s : State) (f : Hbm → Hbm) : (s.modHbm f).inl = s.inl := rfl
@[simp] theorem modHbm_gau (s : State) (f : Hbm → Hbm) : (s.modHbm f).gau = s.gau := rfl
@[simp] theorem modHbm_weir (s : State) (f : Hbm → Hbm) : (s.modHbm f).weir = s.weir := rfl
@[simp] theorem modHbm_wh (s : State) (f : Hbm → Hbm) : (s.modHbm f).wh = s.wh := rfl
@[simp] theorem modHbm_i3cDyn (s : State) (f : Hbm → Hbm) : (s.modHbm f).i3cDyn = s.i3cDyn := rfl

/-! ### modInl -/

@[simp] theorem modInl_pending (s : State) (f : Inl → Inl) : (s.modInl f).pending = s.pending := rfl
@[simp] theorem modInl_fuses (s : State) (f : Inl → Inl) : (s.modInl f).fuses = s.fuses := rfl
@[simp] theorem modInl_tick (s : State) (f : Inl → Inl) : (s.modInl f).tick = s.tick := rfl
@[simp] theorem modInl_regs (s : State) (f : Inl → Inl) : (s.modInl f).regs = s.regs := rfl
@[simp] theorem modInl_ctrs (s : State) (f : Inl → Inl) : (s.modInl f).ctrs = s.ctrs := rfl
@[simp] theorem modInl_flags (s : State) (f : Inl → Inl) : (s.modInl f).flags = s.flags := rfl
@[simp] theorem modInl_draws (s : State) (f : Inl → Inl) : (s.modInl f).draws = s.draws := rfl
@[simp] theorem modInl_out (s : State) (f : Inl → Inl) : (s.modInl f).out = s.out := rfl
@[simp] theorem modInl_arbs (s : State) (f : Inl → Inl) : (s.modInl f).arbs = s.arbs := rfl
@[simp] theorem modInl_mem (s : State) (f : Inl → Inl) : (s.modInl f).mem = s.mem := rfl
@[simp] theorem modInl_hbm (s : State) (f : Inl → Inl) : (s.modInl f).hbm = s.hbm := rfl
@[simp] theorem modInl_dtu (s : State) (f : Inl → Inl) : (s.modInl f).dtu = s.dtu := rfl
@[simp] theorem modInl_spw (s : State) (f : Inl → Inl) : (s.modInl f).spw = s.spw := rfl
@[simp] theorem modInl_objs (s : State) (f : Inl → Inl) : (s.modInl f).objs = s.objs := rfl
@[simp] theorem modInl_flt (s : State) (f : Inl → Inl) : (s.modInl f).flt = s.flt := rfl
@[simp] theorem modInl_rip (s : State) (f : Inl → Inl) : (s.modInl f).rip = s.rip := rfl
@[simp] theorem modInl_cvu (s : State) (f : Inl → Inl) : (s.modInl f).cvu = s.cvu := rfl
@[simp] theorem modInl_jvk (s : State) (f : Inl → Inl) : (s.modInl f).jvk = s.jvk := rfl
@[simp] theorem modInl_hif (s : State) (f : Inl → Inl) : (s.modInl f).hif = s.hif := rfl
@[simp] theorem modInl_ponds (s : State) (f : Inl → Inl) : (s.modInl f).ponds = s.ponds := rfl
@[simp] theorem modInl_atnLists (s : State) (f : Inl → Inl) : (s.modInl f).atnLists = s.atnLists := rfl
@[simp] theorem modInl_cores (s : State) (f : Inl → Inl) : (s.modInl f).cores = s.cores := rfl
@[simp] theorem modInl_atns (s : State) (f : Inl → Inl) : (s.modInl f).atns = s.atns := rfl
@[simp] theorem modInl_epochs (s : State) (f : Inl → Inl) : (s.modInl f).epochs = s.epochs := rfl
@[simp] theorem modInl_debug (s : State) (f : Inl → Inl) : (s.modInl f).debug = s.debug := rfl
@[simp] theorem modInl_stopped (s : State) (f : Inl → Inl) : (s.modInl f).stopped = s.stopped := rfl
@[simp] theorem modInl_pstate (s : State) (f : Inl → Inl) : (s.modInl f).pstate = s.pstate := rfl
@[simp] theorem modInl_arrival (s : State) (f : Inl → Inl) : (s.modInl f).arrival = s.arrival := rfl
@[simp] theorem modInl_streams (s : State) (f : Inl → Inl) : (s.modInl f).streams = s.streams := rfl
@[simp] theorem modInl_ready (s : State) (f : Inl → Inl) : (s.modInl f).ready = s.ready := rfl
@[simp] theorem modInl_strm (s : State) (f : Inl → Inl) : (s.modInl f).strm = s.strm := rfl
@[simp] theorem modInl_seq (s : State) (f : Inl → Inl) : (s.modInl f).seq = s.seq := rfl
@[simp] theorem modInl_shoalQ (s : State) (f : Inl → Inl) : (s.modInl f).shoalQ = s.shoalQ := rfl
@[simp] theorem modInl_routers (s : State) (f : Inl → Inl) : (s.modInl f).routers = s.routers := rfl
@[simp] theorem modInl_bsn (s : State) (f : Inl → Inl) : (s.modInl f).bsn = s.bsn := rfl
@[simp] theorem modInl_lnk (s : State) (f : Inl → Inl) : (s.modInl f).lnk = s.lnk := rfl
@[simp] theorem modInl_inl (s : State) (f : Inl → Inl) : (s.modInl f).inl = f s.inl := rfl
@[simp] theorem modInl_gau (s : State) (f : Inl → Inl) : (s.modInl f).gau = s.gau := rfl
@[simp] theorem modInl_weir (s : State) (f : Inl → Inl) : (s.modInl f).weir = s.weir := rfl
@[simp] theorem modInl_wh (s : State) (f : Inl → Inl) : (s.modInl f).wh = s.wh := rfl
@[simp] theorem modInl_i3cDyn (s : State) (f : Inl → Inl) : (s.modInl f).i3cDyn = s.i3cDyn := rfl

/-! ### modSeq -/

@[simp] theorem modSeq_pending (s : State) (c : Nat) (f : SeqCove → SeqCove) : (s.modSeq c f).pending = s.pending := rfl
@[simp] theorem modSeq_fuses (s : State) (c : Nat) (f : SeqCove → SeqCove) : (s.modSeq c f).fuses = s.fuses := rfl
@[simp] theorem modSeq_tick (s : State) (c : Nat) (f : SeqCove → SeqCove) : (s.modSeq c f).tick = s.tick := rfl
@[simp] theorem modSeq_regs (s : State) (c : Nat) (f : SeqCove → SeqCove) : (s.modSeq c f).regs = s.regs := rfl
@[simp] theorem modSeq_ctrs (s : State) (c : Nat) (f : SeqCove → SeqCove) : (s.modSeq c f).ctrs = s.ctrs := rfl
@[simp] theorem modSeq_flags (s : State) (c : Nat) (f : SeqCove → SeqCove) : (s.modSeq c f).flags = s.flags := rfl
@[simp] theorem modSeq_draws (s : State) (c : Nat) (f : SeqCove → SeqCove) : (s.modSeq c f).draws = s.draws := rfl
@[simp] theorem modSeq_out (s : State) (c : Nat) (f : SeqCove → SeqCove) : (s.modSeq c f).out = s.out := rfl
@[simp] theorem modSeq_arbs (s : State) (c : Nat) (f : SeqCove → SeqCove) : (s.modSeq c f).arbs = s.arbs := rfl
@[simp] theorem modSeq_mem (s : State) (c : Nat) (f : SeqCove → SeqCove) : (s.modSeq c f).mem = s.mem := rfl
@[simp] theorem modSeq_hbm (s : State) (c : Nat) (f : SeqCove → SeqCove) : (s.modSeq c f).hbm = s.hbm := rfl
@[simp] theorem modSeq_dtu (s : State) (c : Nat) (f : SeqCove → SeqCove) : (s.modSeq c f).dtu = s.dtu := rfl
@[simp] theorem modSeq_spw (s : State) (c : Nat) (f : SeqCove → SeqCove) : (s.modSeq c f).spw = s.spw := rfl
@[simp] theorem modSeq_objs (s : State) (c : Nat) (f : SeqCove → SeqCove) : (s.modSeq c f).objs = s.objs := rfl
@[simp] theorem modSeq_flt (s : State) (c : Nat) (f : SeqCove → SeqCove) : (s.modSeq c f).flt = s.flt := rfl
@[simp] theorem modSeq_rip (s : State) (c : Nat) (f : SeqCove → SeqCove) : (s.modSeq c f).rip = s.rip := rfl
@[simp] theorem modSeq_cvu (s : State) (c : Nat) (f : SeqCove → SeqCove) : (s.modSeq c f).cvu = s.cvu := rfl
@[simp] theorem modSeq_jvk (s : State) (c : Nat) (f : SeqCove → SeqCove) : (s.modSeq c f).jvk = s.jvk := rfl
@[simp] theorem modSeq_hif (s : State) (c : Nat) (f : SeqCove → SeqCove) : (s.modSeq c f).hif = s.hif := rfl
@[simp] theorem modSeq_ponds (s : State) (c : Nat) (f : SeqCove → SeqCove) : (s.modSeq c f).ponds = s.ponds := rfl
@[simp] theorem modSeq_atnLists (s : State) (c : Nat) (f : SeqCove → SeqCove) : (s.modSeq c f).atnLists = s.atnLists := rfl
@[simp] theorem modSeq_cores (s : State) (c : Nat) (f : SeqCove → SeqCove) : (s.modSeq c f).cores = s.cores := rfl
@[simp] theorem modSeq_atns (s : State) (c : Nat) (f : SeqCove → SeqCove) : (s.modSeq c f).atns = s.atns := rfl
@[simp] theorem modSeq_epochs (s : State) (c : Nat) (f : SeqCove → SeqCove) : (s.modSeq c f).epochs = s.epochs := rfl
@[simp] theorem modSeq_debug (s : State) (c : Nat) (f : SeqCove → SeqCove) : (s.modSeq c f).debug = s.debug := rfl
@[simp] theorem modSeq_stopped (s : State) (c : Nat) (f : SeqCove → SeqCove) : (s.modSeq c f).stopped = s.stopped := rfl
@[simp] theorem modSeq_pstate (s : State) (c : Nat) (f : SeqCove → SeqCove) : (s.modSeq c f).pstate = s.pstate := rfl
@[simp] theorem modSeq_arrival (s : State) (c : Nat) (f : SeqCove → SeqCove) : (s.modSeq c f).arrival = s.arrival := rfl
@[simp] theorem modSeq_streams (s : State) (c : Nat) (f : SeqCove → SeqCove) : (s.modSeq c f).streams = s.streams := rfl
@[simp] theorem modSeq_ready (s : State) (c : Nat) (f : SeqCove → SeqCove) : (s.modSeq c f).ready = s.ready := rfl
@[simp] theorem modSeq_strm (s : State) (c : Nat) (f : SeqCove → SeqCove) : (s.modSeq c f).strm = s.strm := rfl
@[simp] theorem modSeq_seq (s : State) (c : Nat) (f : SeqCove → SeqCove) : (s.modSeq c f).seq = vmod s.seq c f := rfl
@[simp] theorem modSeq_shoalQ (s : State) (c : Nat) (f : SeqCove → SeqCove) : (s.modSeq c f).shoalQ = s.shoalQ := rfl
@[simp] theorem modSeq_routers (s : State) (c : Nat) (f : SeqCove → SeqCove) : (s.modSeq c f).routers = s.routers := rfl
@[simp] theorem modSeq_bsn (s : State) (c : Nat) (f : SeqCove → SeqCove) : (s.modSeq c f).bsn = s.bsn := rfl
@[simp] theorem modSeq_lnk (s : State) (c : Nat) (f : SeqCove → SeqCove) : (s.modSeq c f).lnk = s.lnk := rfl
@[simp] theorem modSeq_inl (s : State) (c : Nat) (f : SeqCove → SeqCove) : (s.modSeq c f).inl = s.inl := rfl
@[simp] theorem modSeq_gau (s : State) (c : Nat) (f : SeqCove → SeqCove) : (s.modSeq c f).gau = s.gau := rfl
@[simp] theorem modSeq_weir (s : State) (c : Nat) (f : SeqCove → SeqCove) : (s.modSeq c f).weir = s.weir := rfl
@[simp] theorem modSeq_wh (s : State) (c : Nat) (f : SeqCove → SeqCove) : (s.modSeq c f).wh = s.wh := rfl
@[simp] theorem modSeq_i3cDyn (s : State) (c : Nat) (f : SeqCove → SeqCove) : (s.modSeq c f).i3cDyn = s.i3cDyn := rfl

/-! ### modPort -/

@[simp] theorem modPort_pending (s : State) (p : Nat) (f : PortX → PortX) : (s.modPort p f).pending = s.pending := rfl
@[simp] theorem modPort_fuses (s : State) (p : Nat) (f : PortX → PortX) : (s.modPort p f).fuses = s.fuses := rfl
@[simp] theorem modPort_tick (s : State) (p : Nat) (f : PortX → PortX) : (s.modPort p f).tick = s.tick := rfl
@[simp] theorem modPort_regs (s : State) (p : Nat) (f : PortX → PortX) : (s.modPort p f).regs = s.regs := rfl
@[simp] theorem modPort_ctrs (s : State) (p : Nat) (f : PortX → PortX) : (s.modPort p f).ctrs = s.ctrs := rfl
@[simp] theorem modPort_flags (s : State) (p : Nat) (f : PortX → PortX) : (s.modPort p f).flags = s.flags := rfl
@[simp] theorem modPort_draws (s : State) (p : Nat) (f : PortX → PortX) : (s.modPort p f).draws = s.draws := rfl
@[simp] theorem modPort_out (s : State) (p : Nat) (f : PortX → PortX) : (s.modPort p f).out = s.out := rfl
@[simp] theorem modPort_arbs (s : State) (p : Nat) (f : PortX → PortX) : (s.modPort p f).arbs = s.arbs := rfl
@[simp] theorem modPort_mem (s : State) (p : Nat) (f : PortX → PortX) : (s.modPort p f).mem = s.mem := rfl
@[simp] theorem modPort_hbm (s : State) (p : Nat) (f : PortX → PortX) : (s.modPort p f).hbm = s.hbm := rfl
@[simp] theorem modPort_dtu (s : State) (p : Nat) (f : PortX → PortX) : (s.modPort p f).dtu = s.dtu := rfl
@[simp] theorem modPort_spw (s : State) (p : Nat) (f : PortX → PortX) : (s.modPort p f).spw = s.spw := rfl
@[simp] theorem modPort_objs (s : State) (p : Nat) (f : PortX → PortX) : (s.modPort p f).objs = s.objs := rfl
@[simp] theorem modPort_flt (s : State) (p : Nat) (f : PortX → PortX) : (s.modPort p f).flt = s.flt := rfl
@[simp] theorem modPort_rip (s : State) (p : Nat) (f : PortX → PortX) : (s.modPort p f).rip = s.rip := rfl
@[simp] theorem modPort_cvu (s : State) (p : Nat) (f : PortX → PortX) : (s.modPort p f).cvu = s.cvu := rfl
@[simp] theorem modPort_jvk (s : State) (p : Nat) (f : PortX → PortX) : (s.modPort p f).jvk = s.jvk := rfl
@[simp] theorem modPort_hif (s : State) (p : Nat) (f : PortX → PortX) : (s.modPort p f).hif = s.hif := rfl
@[simp] theorem modPort_ponds (s : State) (p : Nat) (f : PortX → PortX) : (s.modPort p f).ponds = s.ponds := rfl
@[simp] theorem modPort_atnLists (s : State) (p : Nat) (f : PortX → PortX) : (s.modPort p f).atnLists = s.atnLists := rfl
@[simp] theorem modPort_cores (s : State) (p : Nat) (f : PortX → PortX) : (s.modPort p f).cores = s.cores := rfl
@[simp] theorem modPort_atns (s : State) (p : Nat) (f : PortX → PortX) : (s.modPort p f).atns = s.atns := rfl
@[simp] theorem modPort_epochs (s : State) (p : Nat) (f : PortX → PortX) : (s.modPort p f).epochs = s.epochs := rfl
@[simp] theorem modPort_debug (s : State) (p : Nat) (f : PortX → PortX) : (s.modPort p f).debug = s.debug := rfl
@[simp] theorem modPort_stopped (s : State) (p : Nat) (f : PortX → PortX) : (s.modPort p f).stopped = s.stopped := rfl
@[simp] theorem modPort_pstate (s : State) (p : Nat) (f : PortX → PortX) : (s.modPort p f).pstate = s.pstate := rfl
@[simp] theorem modPort_arrival (s : State) (p : Nat) (f : PortX → PortX) : (s.modPort p f).arrival = s.arrival := rfl
@[simp] theorem modPort_streams (s : State) (p : Nat) (f : PortX → PortX) : (s.modPort p f).streams = s.streams := rfl
@[simp] theorem modPort_ready (s : State) (p : Nat) (f : PortX → PortX) : (s.modPort p f).ready = s.ready := rfl
@[simp] theorem modPort_strm (s : State) (p : Nat) (f : PortX → PortX) : (s.modPort p f).strm = s.strm := rfl
@[simp] theorem modPort_seq (s : State) (p : Nat) (f : PortX → PortX) : (s.modPort p f).seq = s.seq := rfl
@[simp] theorem modPort_shoalQ (s : State) (p : Nat) (f : PortX → PortX) : (s.modPort p f).shoalQ = s.shoalQ := rfl
@[simp] theorem modPort_routers (s : State) (p : Nat) (f : PortX → PortX) : (s.modPort p f).routers = s.routers := rfl
@[simp] theorem modPort_bsn (s : State) (p : Nat) (f : PortX → PortX) : (s.modPort p f).bsn = s.bsn := rfl
@[simp] theorem modPort_inl (s : State) (p : Nat) (f : PortX → PortX) : (s.modPort p f).inl = s.inl := rfl
@[simp] theorem modPort_gau (s : State) (p : Nat) (f : PortX → PortX) : (s.modPort p f).gau = s.gau := rfl
@[simp] theorem modPort_weir (s : State) (p : Nat) (f : PortX → PortX) : (s.modPort p f).weir = s.weir := rfl
@[simp] theorem modPort_wh (s : State) (p : Nat) (f : PortX → PortX) : (s.modPort p f).wh = s.wh := rfl
@[simp] theorem modPort_i3cDyn (s : State) (p : Nat) (f : PortX → PortX) : (s.modPort p f).i3cDyn = s.i3cDyn := rfl

/-! ### modConn -/

@[simp] theorem modConn_pending (s : State) (k : Nat) (f : Conn → Conn) : (s.modConn k f).pending = s.pending := rfl
@[simp] theorem modConn_fuses (s : State) (k : Nat) (f : Conn → Conn) : (s.modConn k f).fuses = s.fuses := rfl
@[simp] theorem modConn_tick (s : State) (k : Nat) (f : Conn → Conn) : (s.modConn k f).tick = s.tick := rfl
@[simp] theorem modConn_regs (s : State) (k : Nat) (f : Conn → Conn) : (s.modConn k f).regs = s.regs := rfl
@[simp] theorem modConn_ctrs (s : State) (k : Nat) (f : Conn → Conn) : (s.modConn k f).ctrs = s.ctrs := rfl
@[simp] theorem modConn_flags (s : State) (k : Nat) (f : Conn → Conn) : (s.modConn k f).flags = s.flags := rfl
@[simp] theorem modConn_draws (s : State) (k : Nat) (f : Conn → Conn) : (s.modConn k f).draws = s.draws := rfl
@[simp] theorem modConn_out (s : State) (k : Nat) (f : Conn → Conn) : (s.modConn k f).out = s.out := rfl
@[simp] theorem modConn_arbs (s : State) (k : Nat) (f : Conn → Conn) : (s.modConn k f).arbs = s.arbs := rfl
@[simp] theorem modConn_mem (s : State) (k : Nat) (f : Conn → Conn) : (s.modConn k f).mem = s.mem := rfl
@[simp] theorem modConn_hbm (s : State) (k : Nat) (f : Conn → Conn) : (s.modConn k f).hbm = s.hbm := rfl
@[simp] theorem modConn_dtu (s : State) (k : Nat) (f : Conn → Conn) : (s.modConn k f).dtu = s.dtu := rfl
@[simp] theorem modConn_spw (s : State) (k : Nat) (f : Conn → Conn) : (s.modConn k f).spw = s.spw := rfl
@[simp] theorem modConn_objs (s : State) (k : Nat) (f : Conn → Conn) : (s.modConn k f).objs = s.objs := rfl
@[simp] theorem modConn_flt (s : State) (k : Nat) (f : Conn → Conn) : (s.modConn k f).flt = s.flt := rfl
@[simp] theorem modConn_rip (s : State) (k : Nat) (f : Conn → Conn) : (s.modConn k f).rip = s.rip := rfl
@[simp] theorem modConn_cvu (s : State) (k : Nat) (f : Conn → Conn) : (s.modConn k f).cvu = s.cvu := rfl
@[simp] theorem modConn_jvk (s : State) (k : Nat) (f : Conn → Conn) : (s.modConn k f).jvk = s.jvk := rfl
@[simp] theorem modConn_hif (s : State) (k : Nat) (f : Conn → Conn) : (s.modConn k f).hif = s.hif := rfl
@[simp] theorem modConn_ponds (s : State) (k : Nat) (f : Conn → Conn) : (s.modConn k f).ponds = s.ponds := rfl
@[simp] theorem modConn_atnLists (s : State) (k : Nat) (f : Conn → Conn) : (s.modConn k f).atnLists = s.atnLists := rfl
@[simp] theorem modConn_cores (s : State) (k : Nat) (f : Conn → Conn) : (s.modConn k f).cores = s.cores := rfl
@[simp] theorem modConn_atns (s : State) (k : Nat) (f : Conn → Conn) : (s.modConn k f).atns = s.atns := rfl
@[simp] theorem modConn_epochs (s : State) (k : Nat) (f : Conn → Conn) : (s.modConn k f).epochs = s.epochs := rfl
@[simp] theorem modConn_debug (s : State) (k : Nat) (f : Conn → Conn) : (s.modConn k f).debug = s.debug := rfl
@[simp] theorem modConn_stopped (s : State) (k : Nat) (f : Conn → Conn) : (s.modConn k f).stopped = s.stopped := rfl
@[simp] theorem modConn_pstate (s : State) (k : Nat) (f : Conn → Conn) : (s.modConn k f).pstate = s.pstate := rfl
@[simp] theorem modConn_arrival (s : State) (k : Nat) (f : Conn → Conn) : (s.modConn k f).arrival = s.arrival := rfl
@[simp] theorem modConn_streams (s : State) (k : Nat) (f : Conn → Conn) : (s.modConn k f).streams = s.streams := rfl
@[simp] theorem modConn_ready (s : State) (k : Nat) (f : Conn → Conn) : (s.modConn k f).ready = s.ready := rfl
@[simp] theorem modConn_strm (s : State) (k : Nat) (f : Conn → Conn) : (s.modConn k f).strm = s.strm := rfl
@[simp] theorem modConn_seq (s : State) (k : Nat) (f : Conn → Conn) : (s.modConn k f).seq = s.seq := rfl
@[simp] theorem modConn_shoalQ (s : State) (k : Nat) (f : Conn → Conn) : (s.modConn k f).shoalQ = s.shoalQ := rfl
@[simp] theorem modConn_routers (s : State) (k : Nat) (f : Conn → Conn) : (s.modConn k f).routers = s.routers := rfl
@[simp] theorem modConn_bsn (s : State) (k : Nat) (f : Conn → Conn) : (s.modConn k f).bsn = s.bsn := rfl
@[simp] theorem modConn_inl (s : State) (k : Nat) (f : Conn → Conn) : (s.modConn k f).inl = s.inl := rfl
@[simp] theorem modConn_gau (s : State) (k : Nat) (f : Conn → Conn) : (s.modConn k f).gau = s.gau := rfl
@[simp] theorem modConn_weir (s : State) (k : Nat) (f : Conn → Conn) : (s.modConn k f).weir = s.weir := rfl
@[simp] theorem modConn_wh (s : State) (k : Nat) (f : Conn → Conn) : (s.modConn k f).wh = s.wh := rfl
@[simp] theorem modConn_i3cDyn (s : State) (k : Nat) (f : Conn → Conn) : (s.modConn k f).i3cDyn = s.i3cDyn := rfl

/-! ### modNode -/

@[simp] theorem modNode_pending (s : State) (n : Nat) (f : NodeLoss → NodeLoss) : (s.modNode n f).pending = s.pending := rfl
@[simp] theorem modNode_fuses (s : State) (n : Nat) (f : NodeLoss → NodeLoss) : (s.modNode n f).fuses = s.fuses := rfl
@[simp] theorem modNode_tick (s : State) (n : Nat) (f : NodeLoss → NodeLoss) : (s.modNode n f).tick = s.tick := rfl
@[simp] theorem modNode_regs (s : State) (n : Nat) (f : NodeLoss → NodeLoss) : (s.modNode n f).regs = s.regs := rfl
@[simp] theorem modNode_ctrs (s : State) (n : Nat) (f : NodeLoss → NodeLoss) : (s.modNode n f).ctrs = s.ctrs := rfl
@[simp] theorem modNode_flags (s : State) (n : Nat) (f : NodeLoss → NodeLoss) : (s.modNode n f).flags = s.flags := rfl
@[simp] theorem modNode_draws (s : State) (n : Nat) (f : NodeLoss → NodeLoss) : (s.modNode n f).draws = s.draws := rfl
@[simp] theorem modNode_out (s : State) (n : Nat) (f : NodeLoss → NodeLoss) : (s.modNode n f).out = s.out := rfl
@[simp] theorem modNode_arbs (s : State) (n : Nat) (f : NodeLoss → NodeLoss) : (s.modNode n f).arbs = s.arbs := rfl
@[simp] theorem modNode_mem (s : State) (n : Nat) (f : NodeLoss → NodeLoss) : (s.modNode n f).mem = s.mem := rfl
@[simp] theorem modNode_hbm (s : State) (n : Nat) (f : NodeLoss → NodeLoss) : (s.modNode n f).hbm = s.hbm := rfl
@[simp] theorem modNode_dtu (s : State) (n : Nat) (f : NodeLoss → NodeLoss) : (s.modNode n f).dtu = s.dtu := rfl
@[simp] theorem modNode_spw (s : State) (n : Nat) (f : NodeLoss → NodeLoss) : (s.modNode n f).spw = s.spw := rfl
@[simp] theorem modNode_objs (s : State) (n : Nat) (f : NodeLoss → NodeLoss) : (s.modNode n f).objs = s.objs := rfl
@[simp] theorem modNode_rip (s : State) (n : Nat) (f : NodeLoss → NodeLoss) : (s.modNode n f).rip = s.rip := rfl
@[simp] theorem modNode_cvu (s : State) (n : Nat) (f : NodeLoss → NodeLoss) : (s.modNode n f).cvu = s.cvu := rfl
@[simp] theorem modNode_jvk (s : State) (n : Nat) (f : NodeLoss → NodeLoss) : (s.modNode n f).jvk = s.jvk := rfl
@[simp] theorem modNode_hif (s : State) (n : Nat) (f : NodeLoss → NodeLoss) : (s.modNode n f).hif = s.hif := rfl
@[simp] theorem modNode_ponds (s : State) (n : Nat) (f : NodeLoss → NodeLoss) : (s.modNode n f).ponds = s.ponds := rfl
@[simp] theorem modNode_atnLists (s : State) (n : Nat) (f : NodeLoss → NodeLoss) : (s.modNode n f).atnLists = s.atnLists := rfl
@[simp] theorem modNode_cores (s : State) (n : Nat) (f : NodeLoss → NodeLoss) : (s.modNode n f).cores = s.cores := rfl
@[simp] theorem modNode_atns (s : State) (n : Nat) (f : NodeLoss → NodeLoss) : (s.modNode n f).atns = s.atns := rfl
@[simp] theorem modNode_epochs (s : State) (n : Nat) (f : NodeLoss → NodeLoss) : (s.modNode n f).epochs = s.epochs := rfl
@[simp] theorem modNode_debug (s : State) (n : Nat) (f : NodeLoss → NodeLoss) : (s.modNode n f).debug = s.debug := rfl
@[simp] theorem modNode_stopped (s : State) (n : Nat) (f : NodeLoss → NodeLoss) : (s.modNode n f).stopped = s.stopped := rfl
@[simp] theorem modNode_pstate (s : State) (n : Nat) (f : NodeLoss → NodeLoss) : (s.modNode n f).pstate = s.pstate := rfl
@[simp] theorem modNode_arrival (s : State) (n : Nat) (f : NodeLoss → NodeLoss) : (s.modNode n f).arrival = s.arrival := rfl
@[simp] theorem modNode_streams (s : State) (n : Nat) (f : NodeLoss → NodeLoss) : (s.modNode n f).streams = s.streams := rfl
@[simp] theorem modNode_ready (s : State) (n : Nat) (f : NodeLoss → NodeLoss) : (s.modNode n f).ready = s.ready := rfl
@[simp] theorem modNode_strm (s : State) (n : Nat) (f : NodeLoss → NodeLoss) : (s.modNode n f).strm = s.strm := rfl
@[simp] theorem modNode_seq (s : State) (n : Nat) (f : NodeLoss → NodeLoss) : (s.modNode n f).seq = s.seq := rfl
@[simp] theorem modNode_shoalQ (s : State) (n : Nat) (f : NodeLoss → NodeLoss) : (s.modNode n f).shoalQ = s.shoalQ := rfl
@[simp] theorem modNode_routers (s : State) (n : Nat) (f : NodeLoss → NodeLoss) : (s.modNode n f).routers = s.routers := rfl
@[simp] theorem modNode_bsn (s : State) (n : Nat) (f : NodeLoss → NodeLoss) : (s.modNode n f).bsn = s.bsn := rfl
@[simp] theorem modNode_lnk (s : State) (n : Nat) (f : NodeLoss → NodeLoss) : (s.modNode n f).lnk = s.lnk := rfl
@[simp] theorem modNode_inl (s : State) (n : Nat) (f : NodeLoss → NodeLoss) : (s.modNode n f).inl = s.inl := rfl
@[simp] theorem modNode_gau (s : State) (n : Nat) (f : NodeLoss → NodeLoss) : (s.modNode n f).gau = s.gau := rfl
@[simp] theorem modNode_weir (s : State) (n : Nat) (f : NodeLoss → NodeLoss) : (s.modNode n f).weir = s.weir := rfl
@[simp] theorem modNode_wh (s : State) (n : Nat) (f : NodeLoss → NodeLoss) : (s.modNode n f).wh = s.wh := rfl
@[simp] theorem modNode_i3cDyn (s : State) (n : Nat) (f : NodeLoss → NodeLoss) : (s.modNode n f).i3cDyn = s.i3cDyn := rfl

/-! ### modFerry -/

@[simp] theorem modFerry_pending (s : State) (e : Nat) (f : FerryRun → FerryRun) : (s.modFerry e f).pending = s.pending := rfl
@[simp] theorem modFerry_fuses (s : State) (e : Nat) (f : FerryRun → FerryRun) : (s.modFerry e f).fuses = s.fuses := rfl
@[simp] theorem modFerry_tick (s : State) (e : Nat) (f : FerryRun → FerryRun) : (s.modFerry e f).tick = s.tick := rfl
@[simp] theorem modFerry_regs (s : State) (e : Nat) (f : FerryRun → FerryRun) : (s.modFerry e f).regs = s.regs := rfl
@[simp] theorem modFerry_ctrs (s : State) (e : Nat) (f : FerryRun → FerryRun) : (s.modFerry e f).ctrs = s.ctrs := rfl
@[simp] theorem modFerry_flags (s : State) (e : Nat) (f : FerryRun → FerryRun) : (s.modFerry e f).flags = s.flags := rfl
@[simp] theorem modFerry_draws (s : State) (e : Nat) (f : FerryRun → FerryRun) : (s.modFerry e f).draws = s.draws := rfl
@[simp] theorem modFerry_out (s : State) (e : Nat) (f : FerryRun → FerryRun) : (s.modFerry e f).out = s.out := rfl
@[simp] theorem modFerry_arbs (s : State) (e : Nat) (f : FerryRun → FerryRun) : (s.modFerry e f).arbs = s.arbs := rfl
@[simp] theorem modFerry_mem (s : State) (e : Nat) (f : FerryRun → FerryRun) : (s.modFerry e f).mem = s.mem := rfl
@[simp] theorem modFerry_hbm (s : State) (e : Nat) (f : FerryRun → FerryRun) : (s.modFerry e f).hbm = s.hbm := rfl
@[simp] theorem modFerry_dtu (s : State) (e : Nat) (f : FerryRun → FerryRun) : (s.modFerry e f).dtu = s.dtu := rfl
@[simp] theorem modFerry_spw (s : State) (e : Nat) (f : FerryRun → FerryRun) : (s.modFerry e f).spw = s.spw := rfl
@[simp] theorem modFerry_objs (s : State) (e : Nat) (f : FerryRun → FerryRun) : (s.modFerry e f).objs = s.objs := rfl
@[simp] theorem modFerry_flt (s : State) (e : Nat) (f : FerryRun → FerryRun) : (s.modFerry e f).flt = s.flt := rfl
@[simp] theorem modFerry_rip (s : State) (e : Nat) (f : FerryRun → FerryRun) : (s.modFerry e f).rip = s.rip := rfl
@[simp] theorem modFerry_cvu (s : State) (e : Nat) (f : FerryRun → FerryRun) : (s.modFerry e f).cvu = s.cvu := rfl
@[simp] theorem modFerry_jvk (s : State) (e : Nat) (f : FerryRun → FerryRun) : (s.modFerry e f).jvk = s.jvk := rfl
@[simp] theorem modFerry_hif (s : State) (e : Nat) (f : FerryRun → FerryRun) : (s.modFerry e f).hif = s.hif := rfl
@[simp] theorem modFerry_ponds (s : State) (e : Nat) (f : FerryRun → FerryRun) : (s.modFerry e f).ponds = s.ponds := rfl
@[simp] theorem modFerry_atnLists (s : State) (e : Nat) (f : FerryRun → FerryRun) : (s.modFerry e f).atnLists = s.atnLists := rfl
@[simp] theorem modFerry_cores (s : State) (e : Nat) (f : FerryRun → FerryRun) : (s.modFerry e f).cores = s.cores := rfl
@[simp] theorem modFerry_atns (s : State) (e : Nat) (f : FerryRun → FerryRun) : (s.modFerry e f).atns = s.atns := rfl
@[simp] theorem modFerry_epochs (s : State) (e : Nat) (f : FerryRun → FerryRun) : (s.modFerry e f).epochs = s.epochs := rfl
@[simp] theorem modFerry_debug (s : State) (e : Nat) (f : FerryRun → FerryRun) : (s.modFerry e f).debug = s.debug := rfl
@[simp] theorem modFerry_stopped (s : State) (e : Nat) (f : FerryRun → FerryRun) : (s.modFerry e f).stopped = s.stopped := rfl
@[simp] theorem modFerry_pstate (s : State) (e : Nat) (f : FerryRun → FerryRun) : (s.modFerry e f).pstate = s.pstate := rfl
@[simp] theorem modFerry_arrival (s : State) (e : Nat) (f : FerryRun → FerryRun) : (s.modFerry e f).arrival = s.arrival := rfl
@[simp] theorem modFerry_streams (s : State) (e : Nat) (f : FerryRun → FerryRun) : (s.modFerry e f).streams = s.streams := rfl
@[simp] theorem modFerry_ready (s : State) (e : Nat) (f : FerryRun → FerryRun) : (s.modFerry e f).ready = s.ready := rfl
@[simp] theorem modFerry_strm (s : State) (e : Nat) (f : FerryRun → FerryRun) : (s.modFerry e f).strm = s.strm := rfl
@[simp] theorem modFerry_seq (s : State) (e : Nat) (f : FerryRun → FerryRun) : (s.modFerry e f).seq = s.seq := rfl
@[simp] theorem modFerry_shoalQ (s : State) (e : Nat) (f : FerryRun → FerryRun) : (s.modFerry e f).shoalQ = s.shoalQ := rfl
@[simp] theorem modFerry_routers (s : State) (e : Nat) (f : FerryRun → FerryRun) : (s.modFerry e f).routers = s.routers := rfl
@[simp] theorem modFerry_lnk (s : State) (e : Nat) (f : FerryRun → FerryRun) : (s.modFerry e f).lnk = s.lnk := rfl
@[simp] theorem modFerry_inl (s : State) (e : Nat) (f : FerryRun → FerryRun) : (s.modFerry e f).inl = s.inl := rfl
@[simp] theorem modFerry_gau (s : State) (e : Nat) (f : FerryRun → FerryRun) : (s.modFerry e f).gau = s.gau := rfl
@[simp] theorem modFerry_weir (s : State) (e : Nat) (f : FerryRun → FerryRun) : (s.modFerry e f).weir = s.weir := rfl
@[simp] theorem modFerry_wh (s : State) (e : Nat) (f : FerryRun → FerryRun) : (s.modFerry e f).wh = s.wh := rfl
@[simp] theorem modFerry_i3cDyn (s : State) (e : Nat) (f : FerryRun → FerryRun) : (s.modFerry e f).i3cDyn = s.i3cDyn := rfl

/-! ### modObj -/

@[simp] theorem modObj_pending (s : State) (c i : Nat) (f : Obj → Obj) : (s.modObj c i f).pending = s.pending := rfl
@[simp] theorem modObj_fuses (s : State) (c i : Nat) (f : Obj → Obj) : (s.modObj c i f).fuses = s.fuses := rfl
@[simp] theorem modObj_tick (s : State) (c i : Nat) (f : Obj → Obj) : (s.modObj c i f).tick = s.tick := rfl
@[simp] theorem modObj_regs (s : State) (c i : Nat) (f : Obj → Obj) : (s.modObj c i f).regs = s.regs := rfl
@[simp] theorem modObj_ctrs (s : State) (c i : Nat) (f : Obj → Obj) : (s.modObj c i f).ctrs = s.ctrs := rfl
@[simp] theorem modObj_flags (s : State) (c i : Nat) (f : Obj → Obj) : (s.modObj c i f).flags = s.flags := rfl
@[simp] theorem modObj_draws (s : State) (c i : Nat) (f : Obj → Obj) : (s.modObj c i f).draws = s.draws := rfl
@[simp] theorem modObj_out (s : State) (c i : Nat) (f : Obj → Obj) : (s.modObj c i f).out = s.out := rfl
@[simp] theorem modObj_arbs (s : State) (c i : Nat) (f : Obj → Obj) : (s.modObj c i f).arbs = s.arbs := rfl
@[simp] theorem modObj_mem (s : State) (c i : Nat) (f : Obj → Obj) : (s.modObj c i f).mem = s.mem := rfl
@[simp] theorem modObj_hbm (s : State) (c i : Nat) (f : Obj → Obj) : (s.modObj c i f).hbm = s.hbm := rfl
@[simp] theorem modObj_dtu (s : State) (c i : Nat) (f : Obj → Obj) : (s.modObj c i f).dtu = s.dtu := rfl
@[simp] theorem modObj_spw (s : State) (c i : Nat) (f : Obj → Obj) : (s.modObj c i f).spw = s.spw := rfl
@[simp] theorem modObj_flt (s : State) (c i : Nat) (f : Obj → Obj) : (s.modObj c i f).flt = s.flt := rfl
@[simp] theorem modObj_rip (s : State) (c i : Nat) (f : Obj → Obj) : (s.modObj c i f).rip = s.rip := rfl
@[simp] theorem modObj_cvu (s : State) (c i : Nat) (f : Obj → Obj) : (s.modObj c i f).cvu = s.cvu := rfl
@[simp] theorem modObj_jvk (s : State) (c i : Nat) (f : Obj → Obj) : (s.modObj c i f).jvk = s.jvk := rfl
@[simp] theorem modObj_hif (s : State) (c i : Nat) (f : Obj → Obj) : (s.modObj c i f).hif = s.hif := rfl
@[simp] theorem modObj_ponds (s : State) (c i : Nat) (f : Obj → Obj) : (s.modObj c i f).ponds = s.ponds := rfl
@[simp] theorem modObj_atnLists (s : State) (c i : Nat) (f : Obj → Obj) : (s.modObj c i f).atnLists = s.atnLists := rfl
@[simp] theorem modObj_cores (s : State) (c i : Nat) (f : Obj → Obj) : (s.modObj c i f).cores = s.cores := rfl
@[simp] theorem modObj_atns (s : State) (c i : Nat) (f : Obj → Obj) : (s.modObj c i f).atns = s.atns := rfl
@[simp] theorem modObj_epochs (s : State) (c i : Nat) (f : Obj → Obj) : (s.modObj c i f).epochs = s.epochs := rfl
@[simp] theorem modObj_debug (s : State) (c i : Nat) (f : Obj → Obj) : (s.modObj c i f).debug = s.debug := rfl
@[simp] theorem modObj_stopped (s : State) (c i : Nat) (f : Obj → Obj) : (s.modObj c i f).stopped = s.stopped := rfl
@[simp] theorem modObj_pstate (s : State) (c i : Nat) (f : Obj → Obj) : (s.modObj c i f).pstate = s.pstate := rfl
@[simp] theorem modObj_arrival (s : State) (c i : Nat) (f : Obj → Obj) : (s.modObj c i f).arrival = s.arrival := rfl
@[simp] theorem modObj_streams (s : State) (c i : Nat) (f : Obj → Obj) : (s.modObj c i f).streams = s.streams := rfl
@[simp] theorem modObj_ready (s : State) (c i : Nat) (f : Obj → Obj) : (s.modObj c i f).ready = s.ready := rfl
@[simp] theorem modObj_strm (s : State) (c i : Nat) (f : Obj → Obj) : (s.modObj c i f).strm = s.strm := rfl
@[simp] theorem modObj_seq (s : State) (c i : Nat) (f : Obj → Obj) : (s.modObj c i f).seq = s.seq := rfl
@[simp] theorem modObj_shoalQ (s : State) (c i : Nat) (f : Obj → Obj) : (s.modObj c i f).shoalQ = s.shoalQ := rfl
@[simp] theorem modObj_routers (s : State) (c i : Nat) (f : Obj → Obj) : (s.modObj c i f).routers = s.routers := rfl
@[simp] theorem modObj_bsn (s : State) (c i : Nat) (f : Obj → Obj) : (s.modObj c i f).bsn = s.bsn := rfl
@[simp] theorem modObj_lnk (s : State) (c i : Nat) (f : Obj → Obj) : (s.modObj c i f).lnk = s.lnk := rfl
@[simp] theorem modObj_inl (s : State) (c i : Nat) (f : Obj → Obj) : (s.modObj c i f).inl = s.inl := rfl
@[simp] theorem modObj_gau (s : State) (c i : Nat) (f : Obj → Obj) : (s.modObj c i f).gau = s.gau := rfl
@[simp] theorem modObj_weir (s : State) (c i : Nat) (f : Obj → Obj) : (s.modObj c i f).weir = s.weir := rfl
@[simp] theorem modObj_wh (s : State) (c i : Nat) (f : Obj → Obj) : (s.modObj c i f).wh = s.wh := rfl
@[simp] theorem modObj_i3cDyn (s : State) (c i : Nat) (f : Obj → Obj) : (s.modObj c i f).i3cDyn = s.i3cDyn := rfl

/-! ### setRouter -/

@[simp] theorem setRouter_pending (s : State) (r : Nat) (x : Router) : (s.setRouter r x).pending = s.pending := rfl
@[simp] theorem setRouter_fuses (s : State) (r : Nat) (x : Router) : (s.setRouter r x).fuses = s.fuses := rfl
@[simp] theorem setRouter_tick (s : State) (r : Nat) (x : Router) : (s.setRouter r x).tick = s.tick := rfl
@[simp] theorem setRouter_regs (s : State) (r : Nat) (x : Router) : (s.setRouter r x).regs = s.regs := rfl
@[simp] theorem setRouter_ctrs (s : State) (r : Nat) (x : Router) : (s.setRouter r x).ctrs = s.ctrs := rfl
@[simp] theorem setRouter_flags (s : State) (r : Nat) (x : Router) : (s.setRouter r x).flags = s.flags := rfl
@[simp] theorem setRouter_draws (s : State) (r : Nat) (x : Router) : (s.setRouter r x).draws = s.draws := rfl
@[simp] theorem setRouter_out (s : State) (r : Nat) (x : Router) : (s.setRouter r x).out = s.out := rfl
@[simp] theorem setRouter_arbs (s : State) (r : Nat) (x : Router) : (s.setRouter r x).arbs = s.arbs := rfl
@[simp] theorem setRouter_mem (s : State) (r : Nat) (x : Router) : (s.setRouter r x).mem = s.mem := rfl
@[simp] theorem setRouter_hbm (s : State) (r : Nat) (x : Router) : (s.setRouter r x).hbm = s.hbm := rfl
@[simp] theorem setRouter_dtu (s : State) (r : Nat) (x : Router) : (s.setRouter r x).dtu = s.dtu := rfl
@[simp] theorem setRouter_spw (s : State) (r : Nat) (x : Router) : (s.setRouter r x).spw = s.spw := rfl
@[simp] theorem setRouter_objs (s : State) (r : Nat) (x : Router) : (s.setRouter r x).objs = s.objs := rfl
@[simp] theorem setRouter_flt (s : State) (r : Nat) (x : Router) : (s.setRouter r x).flt = s.flt := rfl
@[simp] theorem setRouter_rip (s : State) (r : Nat) (x : Router) : (s.setRouter r x).rip = s.rip := rfl
@[simp] theorem setRouter_cvu (s : State) (r : Nat) (x : Router) : (s.setRouter r x).cvu = s.cvu := rfl
@[simp] theorem setRouter_jvk (s : State) (r : Nat) (x : Router) : (s.setRouter r x).jvk = s.jvk := rfl
@[simp] theorem setRouter_hif (s : State) (r : Nat) (x : Router) : (s.setRouter r x).hif = s.hif := rfl
@[simp] theorem setRouter_ponds (s : State) (r : Nat) (x : Router) : (s.setRouter r x).ponds = s.ponds := rfl
@[simp] theorem setRouter_atnLists (s : State) (r : Nat) (x : Router) : (s.setRouter r x).atnLists = s.atnLists := rfl
@[simp] theorem setRouter_cores (s : State) (r : Nat) (x : Router) : (s.setRouter r x).cores = s.cores := rfl
@[simp] theorem setRouter_atns (s : State) (r : Nat) (x : Router) : (s.setRouter r x).atns = s.atns := rfl
@[simp] theorem setRouter_epochs (s : State) (r : Nat) (x : Router) : (s.setRouter r x).epochs = s.epochs := rfl
@[simp] theorem setRouter_debug (s : State) (r : Nat) (x : Router) : (s.setRouter r x).debug = s.debug := rfl
@[simp] theorem setRouter_stopped (s : State) (r : Nat) (x : Router) : (s.setRouter r x).stopped = s.stopped := rfl
@[simp] theorem setRouter_pstate (s : State) (r : Nat) (x : Router) : (s.setRouter r x).pstate = s.pstate := rfl
@[simp] theorem setRouter_arrival (s : State) (r : Nat) (x : Router) : (s.setRouter r x).arrival = s.arrival := rfl
@[simp] theorem setRouter_streams (s : State) (r : Nat) (x : Router) : (s.setRouter r x).streams = s.streams := rfl
@[simp] theorem setRouter_ready (s : State) (r : Nat) (x : Router) : (s.setRouter r x).ready = s.ready := rfl
@[simp] theorem setRouter_strm (s : State) (r : Nat) (x : Router) : (s.setRouter r x).strm = s.strm := rfl
@[simp] theorem setRouter_seq (s : State) (r : Nat) (x : Router) : (s.setRouter r x).seq = s.seq := rfl
@[simp] theorem setRouter_shoalQ (s : State) (r : Nat) (x : Router) : (s.setRouter r x).shoalQ = s.shoalQ := rfl
@[simp] theorem setRouter_routers (s : State) (r : Nat) (x : Router) : (s.setRouter r x).routers = vmod s.routers r fun _ => x := rfl
@[simp] theorem setRouter_bsn (s : State) (r : Nat) (x : Router) : (s.setRouter r x).bsn = s.bsn := rfl
@[simp] theorem setRouter_lnk (s : State) (r : Nat) (x : Router) : (s.setRouter r x).lnk = s.lnk := rfl
@[simp] theorem setRouter_inl (s : State) (r : Nat) (x : Router) : (s.setRouter r x).inl = s.inl := rfl
@[simp] theorem setRouter_gau (s : State) (r : Nat) (x : Router) : (s.setRouter r x).gau = s.gau := rfl
@[simp] theorem setRouter_weir (s : State) (r : Nat) (x : Router) : (s.setRouter r x).weir = s.weir := rfl
@[simp] theorem setRouter_wh (s : State) (r : Nat) (x : Router) : (s.setRouter r x).wh = s.wh := rfl
@[simp] theorem setRouter_i3cDyn (s : State) (r : Nat) (x : Router) : (s.setRouter r x).i3cDyn = s.i3cDyn := rfl

/-! ### setCvu -/

@[simp] theorem setCvu_pending (s : State) (i : Nat) (f : CvuInst → CvuInst) : (s.setCvu i f).pending = s.pending := rfl
@[simp] theorem setCvu_fuses (s : State) (i : Nat) (f : CvuInst → CvuInst) : (s.setCvu i f).fuses = s.fuses := rfl
@[simp] theorem setCvu_tick (s : State) (i : Nat) (f : CvuInst → CvuInst) : (s.setCvu i f).tick = s.tick := rfl
@[simp] theorem setCvu_regs (s : State) (i : Nat) (f : CvuInst → CvuInst) : (s.setCvu i f).regs = s.regs := rfl
@[simp] theorem setCvu_ctrs (s : State) (i : Nat) (f : CvuInst → CvuInst) : (s.setCvu i f).ctrs = s.ctrs := rfl
@[simp] theorem setCvu_flags (s : State) (i : Nat) (f : CvuInst → CvuInst) : (s.setCvu i f).flags = s.flags := rfl
@[simp] theorem setCvu_draws (s : State) (i : Nat) (f : CvuInst → CvuInst) : (s.setCvu i f).draws = s.draws := rfl
@[simp] theorem setCvu_out (s : State) (i : Nat) (f : CvuInst → CvuInst) : (s.setCvu i f).out = s.out := rfl
@[simp] theorem setCvu_arbs (s : State) (i : Nat) (f : CvuInst → CvuInst) : (s.setCvu i f).arbs = s.arbs := rfl
@[simp] theorem setCvu_mem (s : State) (i : Nat) (f : CvuInst → CvuInst) : (s.setCvu i f).mem = s.mem := rfl
@[simp] theorem setCvu_hbm (s : State) (i : Nat) (f : CvuInst → CvuInst) : (s.setCvu i f).hbm = s.hbm := rfl
@[simp] theorem setCvu_dtu (s : State) (i : Nat) (f : CvuInst → CvuInst) : (s.setCvu i f).dtu = s.dtu := rfl
@[simp] theorem setCvu_spw (s : State) (i : Nat) (f : CvuInst → CvuInst) : (s.setCvu i f).spw = s.spw := rfl
@[simp] theorem setCvu_objs (s : State) (i : Nat) (f : CvuInst → CvuInst) : (s.setCvu i f).objs = s.objs := rfl
@[simp] theorem setCvu_flt (s : State) (i : Nat) (f : CvuInst → CvuInst) : (s.setCvu i f).flt = s.flt := rfl
@[simp] theorem setCvu_rip (s : State) (i : Nat) (f : CvuInst → CvuInst) : (s.setCvu i f).rip = s.rip := rfl
@[simp] theorem setCvu_cvu (s : State) (i : Nat) (f : CvuInst → CvuInst) : (s.setCvu i f).cvu = vmod s.cvu i f := rfl
@[simp] theorem setCvu_jvk (s : State) (i : Nat) (f : CvuInst → CvuInst) : (s.setCvu i f).jvk = s.jvk := rfl
@[simp] theorem setCvu_hif (s : State) (i : Nat) (f : CvuInst → CvuInst) : (s.setCvu i f).hif = s.hif := rfl
@[simp] theorem setCvu_ponds (s : State) (i : Nat) (f : CvuInst → CvuInst) : (s.setCvu i f).ponds = s.ponds := rfl
@[simp] theorem setCvu_atnLists (s : State) (i : Nat) (f : CvuInst → CvuInst) : (s.setCvu i f).atnLists = s.atnLists := rfl
@[simp] theorem setCvu_cores (s : State) (i : Nat) (f : CvuInst → CvuInst) : (s.setCvu i f).cores = s.cores := rfl
@[simp] theorem setCvu_atns (s : State) (i : Nat) (f : CvuInst → CvuInst) : (s.setCvu i f).atns = s.atns := rfl
@[simp] theorem setCvu_epochs (s : State) (i : Nat) (f : CvuInst → CvuInst) : (s.setCvu i f).epochs = s.epochs := rfl
@[simp] theorem setCvu_debug (s : State) (i : Nat) (f : CvuInst → CvuInst) : (s.setCvu i f).debug = s.debug := rfl
@[simp] theorem setCvu_stopped (s : State) (i : Nat) (f : CvuInst → CvuInst) : (s.setCvu i f).stopped = s.stopped := rfl
@[simp] theorem setCvu_pstate (s : State) (i : Nat) (f : CvuInst → CvuInst) : (s.setCvu i f).pstate = s.pstate := rfl
@[simp] theorem setCvu_arrival (s : State) (i : Nat) (f : CvuInst → CvuInst) : (s.setCvu i f).arrival = s.arrival := rfl
@[simp] theorem setCvu_streams (s : State) (i : Nat) (f : CvuInst → CvuInst) : (s.setCvu i f).streams = s.streams := rfl
@[simp] theorem setCvu_ready (s : State) (i : Nat) (f : CvuInst → CvuInst) : (s.setCvu i f).ready = s.ready := rfl
@[simp] theorem setCvu_strm (s : State) (i : Nat) (f : CvuInst → CvuInst) : (s.setCvu i f).strm = s.strm := rfl
@[simp] theorem setCvu_seq (s : State) (i : Nat) (f : CvuInst → CvuInst) : (s.setCvu i f).seq = s.seq := rfl
@[simp] theorem setCvu_shoalQ (s : State) (i : Nat) (f : CvuInst → CvuInst) : (s.setCvu i f).shoalQ = s.shoalQ := rfl
@[simp] theorem setCvu_routers (s : State) (i : Nat) (f : CvuInst → CvuInst) : (s.setCvu i f).routers = s.routers := rfl
@[simp] theorem setCvu_bsn (s : State) (i : Nat) (f : CvuInst → CvuInst) : (s.setCvu i f).bsn = s.bsn := rfl
@[simp] theorem setCvu_lnk (s : State) (i : Nat) (f : CvuInst → CvuInst) : (s.setCvu i f).lnk = s.lnk := rfl
@[simp] theorem setCvu_inl (s : State) (i : Nat) (f : CvuInst → CvuInst) : (s.setCvu i f).inl = s.inl := rfl
@[simp] theorem setCvu_gau (s : State) (i : Nat) (f : CvuInst → CvuInst) : (s.setCvu i f).gau = s.gau := rfl
@[simp] theorem setCvu_weir (s : State) (i : Nat) (f : CvuInst → CvuInst) : (s.setCvu i f).weir = s.weir := rfl
@[simp] theorem setCvu_wh (s : State) (i : Nat) (f : CvuInst → CvuInst) : (s.setCvu i f).wh = s.wh := rfl
@[simp] theorem setCvu_i3cDyn (s : State) (i : Nat) (f : CvuInst → CvuInst) : (s.setCvu i f).i3cDyn = s.i3cDyn := rfl

/-! ### sset -/

@[simp] theorem sset_pending (s : State) (i off n v : Nat) : (s.sset i off n v).pending = s.pending := rfl
@[simp] theorem sset_fuses (s : State) (i off n v : Nat) : (s.sset i off n v).fuses = s.fuses := rfl
@[simp] theorem sset_tick (s : State) (i off n v : Nat) : (s.sset i off n v).tick = s.tick := rfl
@[simp] theorem sset_regs (s : State) (i off n v : Nat) : (s.sset i off n v).regs = s.regs := rfl
@[simp] theorem sset_ctrs (s : State) (i off n v : Nat) : (s.sset i off n v).ctrs = s.ctrs := rfl
@[simp] theorem sset_flags (s : State) (i off n v : Nat) : (s.sset i off n v).flags = s.flags := rfl
@[simp] theorem sset_draws (s : State) (i off n v : Nat) : (s.sset i off n v).draws = s.draws := rfl
@[simp] theorem sset_out (s : State) (i off n v : Nat) : (s.sset i off n v).out = s.out := rfl
@[simp] theorem sset_arbs (s : State) (i off n v : Nat) : (s.sset i off n v).arbs = s.arbs := rfl
@[simp] theorem sset_mem (s : State) (i off n v : Nat) : (s.sset i off n v).mem = s.mem := rfl
@[simp] theorem sset_hbm (s : State) (i off n v : Nat) : (s.sset i off n v).hbm = s.hbm := rfl
@[simp] theorem sset_dtu (s : State) (i off n v : Nat) : (s.sset i off n v).dtu = s.dtu := rfl
@[simp] theorem sset_spw (s : State) (i off n v : Nat) : (s.sset i off n v).spw = s.spw := rfl
@[simp] theorem sset_objs (s : State) (i off n v : Nat) : (s.sset i off n v).objs = s.objs := rfl
@[simp] theorem sset_flt (s : State) (i off n v : Nat) : (s.sset i off n v).flt = s.flt := rfl
@[simp] theorem sset_rip (s : State) (i off n v : Nat) : (s.sset i off n v).rip = s.rip := rfl
@[simp] theorem sset_cvu (s : State) (i off n v : Nat) : (s.sset i off n v).cvu = s.cvu := rfl
@[simp] theorem sset_jvk (s : State) (i off n v : Nat) : (s.sset i off n v).jvk = s.jvk := rfl
@[simp] theorem sset_hif (s : State) (i off n v : Nat) : (s.sset i off n v).hif = s.hif := rfl
@[simp] theorem sset_ponds (s : State) (i off n v : Nat) : (s.sset i off n v).ponds = s.ponds := rfl
@[simp] theorem sset_atnLists (s : State) (i off n v : Nat) : (s.sset i off n v).atnLists = s.atnLists := rfl
@[simp] theorem sset_cores (s : State) (i off n v : Nat) : (s.sset i off n v).cores = s.cores := rfl
@[simp] theorem sset_atns (s : State) (i off n v : Nat) : (s.sset i off n v).atns = s.atns := rfl
@[simp] theorem sset_epochs (s : State) (i off n v : Nat) : (s.sset i off n v).epochs = s.epochs := rfl
@[simp] theorem sset_debug (s : State) (i off n v : Nat) : (s.sset i off n v).debug = s.debug := rfl
@[simp] theorem sset_stopped (s : State) (i off n v : Nat) : (s.sset i off n v).stopped = s.stopped := rfl
@[simp] theorem sset_pstate (s : State) (i off n v : Nat) : (s.sset i off n v).pstate = s.pstate := rfl
@[simp] theorem sset_arrival (s : State) (i off n v : Nat) : (s.sset i off n v).arrival = s.arrival := rfl
@[simp] theorem sset_ready (s : State) (i off n v : Nat) : (s.sset i off n v).ready = s.ready := rfl
@[simp] theorem sset_strm (s : State) (i off n v : Nat) : (s.sset i off n v).strm = s.strm := rfl
@[simp] theorem sset_seq (s : State) (i off n v : Nat) : (s.sset i off n v).seq = s.seq := rfl
@[simp] theorem sset_shoalQ (s : State) (i off n v : Nat) : (s.sset i off n v).shoalQ = s.shoalQ := rfl
@[simp] theorem sset_routers (s : State) (i off n v : Nat) : (s.sset i off n v).routers = s.routers := rfl
@[simp] theorem sset_bsn (s : State) (i off n v : Nat) : (s.sset i off n v).bsn = s.bsn := rfl
@[simp] theorem sset_lnk (s : State) (i off n v : Nat) : (s.sset i off n v).lnk = s.lnk := rfl
@[simp] theorem sset_inl (s : State) (i off n v : Nat) : (s.sset i off n v).inl = s.inl := rfl
@[simp] theorem sset_gau (s : State) (i off n v : Nat) : (s.sset i off n v).gau = s.gau := rfl
@[simp] theorem sset_weir (s : State) (i off n v : Nat) : (s.sset i off n v).weir = s.weir := rfl
@[simp] theorem sset_wh (s : State) (i off n v : Nat) : (s.sset i off n v).wh = s.wh := rfl
@[simp] theorem sset_i3cDyn (s : State) (i off n v : Nat) : (s.sset i off n v).i3cDyn = s.i3cDyn := rfl

/-! ### setSx -/

@[simp] theorem setSx_pending (s : State) (i : Nat) (f : StreamX → StreamX) : (s.setSx i f).pending = s.pending := rfl
@[simp] theorem setSx_fuses (s : State) (i : Nat) (f : StreamX → StreamX) : (s.setSx i f).fuses = s.fuses := rfl
@[simp] theorem setSx_tick (s : State) (i : Nat) (f : StreamX → StreamX) : (s.setSx i f).tick = s.tick := rfl
@[simp] theorem setSx_regs (s : State) (i : Nat) (f : StreamX → StreamX) : (s.setSx i f).regs = s.regs := rfl
@[simp] theorem setSx_ctrs (s : State) (i : Nat) (f : StreamX → StreamX) : (s.setSx i f).ctrs = s.ctrs := rfl
@[simp] theorem setSx_flags (s : State) (i : Nat) (f : StreamX → StreamX) : (s.setSx i f).flags = s.flags := rfl
@[simp] theorem setSx_draws (s : State) (i : Nat) (f : StreamX → StreamX) : (s.setSx i f).draws = s.draws := rfl
@[simp] theorem setSx_out (s : State) (i : Nat) (f : StreamX → StreamX) : (s.setSx i f).out = s.out := rfl
@[simp] theorem setSx_arbs (s : State) (i : Nat) (f : StreamX → StreamX) : (s.setSx i f).arbs = s.arbs := rfl
@[simp] theorem setSx_mem (s : State) (i : Nat) (f : StreamX → StreamX) : (s.setSx i f).mem = s.mem := rfl
@[simp] theorem setSx_hbm (s : State) (i : Nat) (f : StreamX → StreamX) : (s.setSx i f).hbm = s.hbm := rfl
@[simp] theorem setSx_dtu (s : State) (i : Nat) (f : StreamX → StreamX) : (s.setSx i f).dtu = s.dtu := rfl
@[simp] theorem setSx_spw (s : State) (i : Nat) (f : StreamX → StreamX) : (s.setSx i f).spw = s.spw := rfl
@[simp] theorem setSx_objs (s : State) (i : Nat) (f : StreamX → StreamX) : (s.setSx i f).objs = s.objs := rfl
@[simp] theorem setSx_flt (s : State) (i : Nat) (f : StreamX → StreamX) : (s.setSx i f).flt = s.flt := rfl
@[simp] theorem setSx_rip (s : State) (i : Nat) (f : StreamX → StreamX) : (s.setSx i f).rip = s.rip := rfl
@[simp] theorem setSx_cvu (s : State) (i : Nat) (f : StreamX → StreamX) : (s.setSx i f).cvu = s.cvu := rfl
@[simp] theorem setSx_jvk (s : State) (i : Nat) (f : StreamX → StreamX) : (s.setSx i f).jvk = s.jvk := rfl
@[simp] theorem setSx_hif (s : State) (i : Nat) (f : StreamX → StreamX) : (s.setSx i f).hif = s.hif := rfl
@[simp] theorem setSx_ponds (s : State) (i : Nat) (f : StreamX → StreamX) : (s.setSx i f).ponds = s.ponds := rfl
@[simp] theorem setSx_atnLists (s : State) (i : Nat) (f : StreamX → StreamX) : (s.setSx i f).atnLists = s.atnLists := rfl
@[simp] theorem setSx_cores (s : State) (i : Nat) (f : StreamX → StreamX) : (s.setSx i f).cores = s.cores := rfl
@[simp] theorem setSx_atns (s : State) (i : Nat) (f : StreamX → StreamX) : (s.setSx i f).atns = s.atns := rfl
@[simp] theorem setSx_epochs (s : State) (i : Nat) (f : StreamX → StreamX) : (s.setSx i f).epochs = s.epochs := rfl
@[simp] theorem setSx_debug (s : State) (i : Nat) (f : StreamX → StreamX) : (s.setSx i f).debug = s.debug := rfl
@[simp] theorem setSx_stopped (s : State) (i : Nat) (f : StreamX → StreamX) : (s.setSx i f).stopped = s.stopped := rfl
@[simp] theorem setSx_pstate (s : State) (i : Nat) (f : StreamX → StreamX) : (s.setSx i f).pstate = s.pstate := rfl
@[simp] theorem setSx_arrival (s : State) (i : Nat) (f : StreamX → StreamX) : (s.setSx i f).arrival = s.arrival := rfl
@[simp] theorem setSx_streams (s : State) (i : Nat) (f : StreamX → StreamX) : (s.setSx i f).streams = s.streams := rfl
@[simp] theorem setSx_ready (s : State) (i : Nat) (f : StreamX → StreamX) : (s.setSx i f).ready = s.ready := rfl
@[simp] theorem setSx_seq (s : State) (i : Nat) (f : StreamX → StreamX) : (s.setSx i f).seq = s.seq := rfl
@[simp] theorem setSx_shoalQ (s : State) (i : Nat) (f : StreamX → StreamX) : (s.setSx i f).shoalQ = s.shoalQ := rfl
@[simp] theorem setSx_routers (s : State) (i : Nat) (f : StreamX → StreamX) : (s.setSx i f).routers = s.routers := rfl
@[simp] theorem setSx_bsn (s : State) (i : Nat) (f : StreamX → StreamX) : (s.setSx i f).bsn = s.bsn := rfl
@[simp] theorem setSx_lnk (s : State) (i : Nat) (f : StreamX → StreamX) : (s.setSx i f).lnk = s.lnk := rfl
@[simp] theorem setSx_inl (s : State) (i : Nat) (f : StreamX → StreamX) : (s.setSx i f).inl = s.inl := rfl
@[simp] theorem setSx_gau (s : State) (i : Nat) (f : StreamX → StreamX) : (s.setSx i f).gau = s.gau := rfl
@[simp] theorem setSx_weir (s : State) (i : Nat) (f : StreamX → StreamX) : (s.setSx i f).weir = s.weir := rfl
@[simp] theorem setSx_wh (s : State) (i : Nat) (f : StreamX → StreamX) : (s.setSx i f).wh = s.wh := rfl
@[simp] theorem setSx_i3cDyn (s : State) (i : Nat) (f : StreamX → StreamX) : (s.setSx i f).i3cDyn = s.i3cDyn := rfl

/-! ### withDebug -/

@[simp] theorem withDebug_pending (s : State) (d : Nat) : (s.withDebug d).pending = s.pending := rfl
@[simp] theorem withDebug_fuses (s : State) (d : Nat) : (s.withDebug d).fuses = s.fuses := rfl
@[simp] theorem withDebug_tick (s : State) (d : Nat) : (s.withDebug d).tick = s.tick := rfl
@[simp] theorem withDebug_regs (s : State) (d : Nat) : (s.withDebug d).regs = s.regs := rfl
@[simp] theorem withDebug_ctrs (s : State) (d : Nat) : (s.withDebug d).ctrs = s.ctrs := rfl
@[simp] theorem withDebug_flags (s : State) (d : Nat) : (s.withDebug d).flags = s.flags := rfl
@[simp] theorem withDebug_draws (s : State) (d : Nat) : (s.withDebug d).draws = s.draws := rfl
@[simp] theorem withDebug_out (s : State) (d : Nat) : (s.withDebug d).out = s.out := rfl
@[simp] theorem withDebug_arbs (s : State) (d : Nat) : (s.withDebug d).arbs = s.arbs := rfl
@[simp] theorem withDebug_mem (s : State) (d : Nat) : (s.withDebug d).mem = s.mem := rfl
@[simp] theorem withDebug_hbm (s : State) (d : Nat) : (s.withDebug d).hbm = s.hbm := rfl
@[simp] theorem withDebug_dtu (s : State) (d : Nat) : (s.withDebug d).dtu = s.dtu := rfl
@[simp] theorem withDebug_spw (s : State) (d : Nat) : (s.withDebug d).spw = s.spw := rfl
@[simp] theorem withDebug_objs (s : State) (d : Nat) : (s.withDebug d).objs = s.objs := rfl
@[simp] theorem withDebug_flt (s : State) (d : Nat) : (s.withDebug d).flt = s.flt := rfl
@[simp] theorem withDebug_rip (s : State) (d : Nat) : (s.withDebug d).rip = s.rip := rfl
@[simp] theorem withDebug_cvu (s : State) (d : Nat) : (s.withDebug d).cvu = s.cvu := rfl
@[simp] theorem withDebug_jvk (s : State) (d : Nat) : (s.withDebug d).jvk = s.jvk := rfl
@[simp] theorem withDebug_hif (s : State) (d : Nat) : (s.withDebug d).hif = s.hif := rfl
@[simp] theorem withDebug_ponds (s : State) (d : Nat) : (s.withDebug d).ponds = s.ponds := rfl
@[simp] theorem withDebug_atnLists (s : State) (d : Nat) : (s.withDebug d).atnLists = s.atnLists := rfl
@[simp] theorem withDebug_cores (s : State) (d : Nat) : (s.withDebug d).cores = s.cores := rfl
@[simp] theorem withDebug_atns (s : State) (d : Nat) : (s.withDebug d).atns = s.atns := rfl
@[simp] theorem withDebug_epochs (s : State) (d : Nat) : (s.withDebug d).epochs = s.epochs := rfl
@[simp] theorem withDebug_debug (s : State) (d : Nat) : (s.withDebug d).debug = d := rfl
@[simp] theorem withDebug_stopped (s : State) (d : Nat) : (s.withDebug d).stopped = s.stopped := rfl
@[simp] theorem withDebug_pstate (s : State) (d : Nat) : (s.withDebug d).pstate = s.pstate := rfl
@[simp] theorem withDebug_arrival (s : State) (d : Nat) : (s.withDebug d).arrival = s.arrival := rfl
@[simp] theorem withDebug_streams (s : State) (d : Nat) : (s.withDebug d).streams = s.streams := rfl
@[simp] theorem withDebug_ready (s : State) (d : Nat) : (s.withDebug d).ready = s.ready := rfl
@[simp] theorem withDebug_strm (s : State) (d : Nat) : (s.withDebug d).strm = s.strm := rfl
@[simp] theorem withDebug_seq (s : State) (d : Nat) : (s.withDebug d).seq = s.seq := rfl
@[simp] theorem withDebug_shoalQ (s : State) (d : Nat) : (s.withDebug d).shoalQ = s.shoalQ := rfl
@[simp] theorem withDebug_routers (s : State) (d : Nat) : (s.withDebug d).routers = s.routers := rfl
@[simp] theorem withDebug_bsn (s : State) (d : Nat) : (s.withDebug d).bsn = s.bsn := rfl
@[simp] theorem withDebug_lnk (s : State) (d : Nat) : (s.withDebug d).lnk = s.lnk := rfl
@[simp] theorem withDebug_inl (s : State) (d : Nat) : (s.withDebug d).inl = s.inl := rfl
@[simp] theorem withDebug_gau (s : State) (d : Nat) : (s.withDebug d).gau = s.gau := rfl
@[simp] theorem withDebug_weir (s : State) (d : Nat) : (s.withDebug d).weir = s.weir := rfl
@[simp] theorem withDebug_wh (s : State) (d : Nat) : (s.withDebug d).wh = s.wh := rfl
@[simp] theorem withDebug_i3cDyn (s : State) (d : Nat) : (s.withDebug d).i3cDyn = s.i3cDyn := rfl

/-! ### nextEpoch -/

@[simp] theorem nextEpoch_pending (s : State) (c : Nat) : (s.nextEpoch c).pending = s.pending := rfl
@[simp] theorem nextEpoch_fuses (s : State) (c : Nat) : (s.nextEpoch c).fuses = s.fuses := rfl
@[simp] theorem nextEpoch_tick (s : State) (c : Nat) : (s.nextEpoch c).tick = s.tick := rfl
@[simp] theorem nextEpoch_regs (s : State) (c : Nat) : (s.nextEpoch c).regs = s.regs := rfl
@[simp] theorem nextEpoch_ctrs (s : State) (c : Nat) : (s.nextEpoch c).ctrs = s.ctrs := rfl
@[simp] theorem nextEpoch_flags (s : State) (c : Nat) : (s.nextEpoch c).flags = s.flags := rfl
@[simp] theorem nextEpoch_draws (s : State) (c : Nat) : (s.nextEpoch c).draws = s.draws := rfl
@[simp] theorem nextEpoch_out (s : State) (c : Nat) : (s.nextEpoch c).out = s.out := rfl
@[simp] theorem nextEpoch_arbs (s : State) (c : Nat) : (s.nextEpoch c).arbs = s.arbs := rfl
@[simp] theorem nextEpoch_mem (s : State) (c : Nat) : (s.nextEpoch c).mem = s.mem := rfl
@[simp] theorem nextEpoch_hbm (s : State) (c : Nat) : (s.nextEpoch c).hbm = s.hbm := rfl
@[simp] theorem nextEpoch_dtu (s : State) (c : Nat) : (s.nextEpoch c).dtu = s.dtu := rfl
@[simp] theorem nextEpoch_spw (s : State) (c : Nat) : (s.nextEpoch c).spw = s.spw := rfl
@[simp] theorem nextEpoch_objs (s : State) (c : Nat) : (s.nextEpoch c).objs = s.objs := rfl
@[simp] theorem nextEpoch_flt (s : State) (c : Nat) : (s.nextEpoch c).flt = s.flt := rfl
@[simp] theorem nextEpoch_rip (s : State) (c : Nat) : (s.nextEpoch c).rip = s.rip := rfl
@[simp] theorem nextEpoch_cvu (s : State) (c : Nat) : (s.nextEpoch c).cvu = s.cvu := rfl
@[simp] theorem nextEpoch_jvk (s : State) (c : Nat) : (s.nextEpoch c).jvk = s.jvk := rfl
@[simp] theorem nextEpoch_hif (s : State) (c : Nat) : (s.nextEpoch c).hif = s.hif := rfl
@[simp] theorem nextEpoch_ponds (s : State) (c : Nat) : (s.nextEpoch c).ponds = s.ponds := rfl
@[simp] theorem nextEpoch_atnLists (s : State) (c : Nat) : (s.nextEpoch c).atnLists = s.atnLists := rfl
@[simp] theorem nextEpoch_cores (s : State) (c : Nat) : (s.nextEpoch c).cores = s.cores := rfl
@[simp] theorem nextEpoch_atns (s : State) (c : Nat) : (s.nextEpoch c).atns = s.atns := rfl
@[simp] theorem nextEpoch_debug (s : State) (c : Nat) : (s.nextEpoch c).debug = s.debug := rfl
@[simp] theorem nextEpoch_stopped (s : State) (c : Nat) : (s.nextEpoch c).stopped = s.stopped := rfl
@[simp] theorem nextEpoch_pstate (s : State) (c : Nat) : (s.nextEpoch c).pstate = s.pstate := rfl
@[simp] theorem nextEpoch_arrival (s : State) (c : Nat) : (s.nextEpoch c).arrival = s.arrival := rfl
@[simp] theorem nextEpoch_streams (s : State) (c : Nat) : (s.nextEpoch c).streams = s.streams := rfl
@[simp] theorem nextEpoch_ready (s : State) (c : Nat) : (s.nextEpoch c).ready = s.ready := rfl
@[simp] theorem nextEpoch_strm (s : State) (c : Nat) : (s.nextEpoch c).strm = s.strm := rfl
@[simp] theorem nextEpoch_seq (s : State) (c : Nat) : (s.nextEpoch c).seq = s.seq := rfl
@[simp] theorem nextEpoch_shoalQ (s : State) (c : Nat) : (s.nextEpoch c).shoalQ = s.shoalQ := rfl
@[simp] theorem nextEpoch_routers (s : State) (c : Nat) : (s.nextEpoch c).routers = s.routers := rfl
@[simp] theorem nextEpoch_bsn (s : State) (c : Nat) : (s.nextEpoch c).bsn = s.bsn := rfl
@[simp] theorem nextEpoch_lnk (s : State) (c : Nat) : (s.nextEpoch c).lnk = s.lnk := rfl
@[simp] theorem nextEpoch_inl (s : State) (c : Nat) : (s.nextEpoch c).inl = s.inl := rfl
@[simp] theorem nextEpoch_gau (s : State) (c : Nat) : (s.nextEpoch c).gau = s.gau := rfl
@[simp] theorem nextEpoch_weir (s : State) (c : Nat) : (s.nextEpoch c).weir = s.weir := rfl
@[simp] theorem nextEpoch_wh (s : State) (c : Nat) : (s.nextEpoch c).wh = s.wh := rfl
@[simp] theorem nextEpoch_i3cDyn (s : State) (c : Nat) : (s.nextEpoch c).i3cDyn = s.i3cDyn := rfl

/-! ### issue -/

@[simp] theorem issue_pending (s : State) (r : TxReq) : (s.issue r).pending = s.pending := rfl
@[simp] theorem issue_fuses (s : State) (r : TxReq) : (s.issue r).fuses = s.fuses := rfl
@[simp] theorem issue_tick (s : State) (r : TxReq) : (s.issue r).tick = s.tick := rfl
@[simp] theorem issue_regs (s : State) (r : TxReq) : (s.issue r).regs = s.regs := rfl
@[simp] theorem issue_ctrs (s : State) (r : TxReq) : (s.issue r).ctrs = s.ctrs := rfl
@[simp] theorem issue_flags (s : State) (r : TxReq) : (s.issue r).flags = s.flags := rfl
@[simp] theorem issue_draws (s : State) (r : TxReq) : (s.issue r).draws = s.draws := rfl
@[simp] theorem issue_out (s : State) (r : TxReq) : (s.issue r).out = s.out := rfl
@[simp] theorem issue_arbs (s : State) (r : TxReq) : (s.issue r).arbs = s.arbs := rfl
@[simp] theorem issue_mem (s : State) (r : TxReq) : (s.issue r).mem = s.mem := rfl
@[simp] theorem issue_hbm (s : State) (r : TxReq) : (s.issue r).hbm = s.hbm := rfl
@[simp] theorem issue_dtu (s : State) (r : TxReq) : (s.issue r).dtu = s.dtu := rfl
@[simp] theorem issue_spw (s : State) (r : TxReq) : (s.issue r).spw = s.spw := rfl
@[simp] theorem issue_objs (s : State) (r : TxReq) : (s.issue r).objs = s.objs := rfl
@[simp] theorem issue_flt (s : State) (r : TxReq) : (s.issue r).flt = s.flt := rfl
@[simp] theorem issue_rip (s : State) (r : TxReq) : (s.issue r).rip = s.rip := rfl
@[simp] theorem issue_cvu (s : State) (r : TxReq) : (s.issue r).cvu = s.cvu := rfl
@[simp] theorem issue_jvk (s : State) (r : TxReq) : (s.issue r).jvk = s.jvk := rfl
@[simp] theorem issue_hif (s : State) (r : TxReq) : (s.issue r).hif = s.hif := rfl
@[simp] theorem issue_ponds (s : State) (r : TxReq) : (s.issue r).ponds = s.ponds := rfl
@[simp] theorem issue_atnLists (s : State) (r : TxReq) : (s.issue r).atnLists = s.atnLists := rfl
@[simp] theorem issue_cores (s : State) (r : TxReq) : (s.issue r).cores = s.cores := rfl
@[simp] theorem issue_atns (s : State) (r : TxReq) : (s.issue r).atns = s.atns := rfl
@[simp] theorem issue_epochs (s : State) (r : TxReq) : (s.issue r).epochs = s.epochs := rfl
@[simp] theorem issue_debug (s : State) (r : TxReq) : (s.issue r).debug = s.debug := rfl
@[simp] theorem issue_stopped (s : State) (r : TxReq) : (s.issue r).stopped = s.stopped := rfl
@[simp] theorem issue_pstate (s : State) (r : TxReq) : (s.issue r).pstate = s.pstate := rfl
@[simp] theorem issue_arrival (s : State) (r : TxReq) : (s.issue r).arrival = s.arrival := rfl
@[simp] theorem issue_streams (s : State) (r : TxReq) : (s.issue r).streams = s.streams := rfl
@[simp] theorem issue_ready (s : State) (r : TxReq) : (s.issue r).ready = s.ready := rfl
@[simp] theorem issue_strm (s : State) (r : TxReq) : (s.issue r).strm = s.strm := rfl
@[simp] theorem issue_seq (s : State) (r : TxReq) : (s.issue r).seq = s.seq := rfl
@[simp] theorem issue_shoalQ (s : State) (r : TxReq) : (s.issue r).shoalQ = s.shoalQ := rfl
@[simp] theorem issue_routers (s : State) (r : TxReq) : (s.issue r).routers = s.routers := rfl
@[simp] theorem issue_lnk (s : State) (r : TxReq) : (s.issue r).lnk = s.lnk := rfl
@[simp] theorem issue_inl (s : State) (r : TxReq) : (s.issue r).inl = s.inl := rfl
@[simp] theorem issue_gau (s : State) (r : TxReq) : (s.issue r).gau = s.gau := rfl
@[simp] theorem issue_weir (s : State) (r : TxReq) : (s.issue r).weir = s.weir := rfl
@[simp] theorem issue_wh (s : State) (r : TxReq) : (s.issue r).wh = s.wh := rfl
@[simp] theorem issue_i3cDyn (s : State) (r : TxReq) : (s.issue r).i3cDyn = s.i3cDyn := rfl

/-! ### spend -/

@[simp] theorem spend_pending (s : State) (res sub act n : Nat) : (s.spend res sub act n).pending = s.pending := rfl
@[simp] theorem spend_fuses (s : State) (res sub act n : Nat) : (s.spend res sub act n).fuses = s.fuses := rfl
@[simp] theorem spend_tick (s : State) (res sub act n : Nat) : (s.spend res sub act n).tick = s.tick := rfl
@[simp] theorem spend_regs (s : State) (res sub act n : Nat) : (s.spend res sub act n).regs = s.regs := rfl
@[simp] theorem spend_ctrs (s : State) (res sub act n : Nat) : (s.spend res sub act n).ctrs = s.ctrs := rfl
@[simp] theorem spend_flags (s : State) (res sub act n : Nat) : (s.spend res sub act n).flags = s.flags := rfl
@[simp] theorem spend_draws (s : State) (res sub act n : Nat) : (s.spend res sub act n).draws = s.draws := rfl
@[simp] theorem spend_out (s : State) (res sub act n : Nat) : (s.spend res sub act n).out = s.out := rfl
@[simp] theorem spend_mem (s : State) (res sub act n : Nat) : (s.spend res sub act n).mem = s.mem := rfl
@[simp] theorem spend_hbm (s : State) (res sub act n : Nat) : (s.spend res sub act n).hbm = s.hbm := rfl
@[simp] theorem spend_dtu (s : State) (res sub act n : Nat) : (s.spend res sub act n).dtu = s.dtu := rfl
@[simp] theorem spend_spw (s : State) (res sub act n : Nat) : (s.spend res sub act n).spw = s.spw := rfl
@[simp] theorem spend_objs (s : State) (res sub act n : Nat) : (s.spend res sub act n).objs = s.objs := rfl
@[simp] theorem spend_flt (s : State) (res sub act n : Nat) : (s.spend res sub act n).flt = s.flt := rfl
@[simp] theorem spend_rip (s : State) (res sub act n : Nat) : (s.spend res sub act n).rip = s.rip := rfl
@[simp] theorem spend_cvu (s : State) (res sub act n : Nat) : (s.spend res sub act n).cvu = s.cvu := rfl
@[simp] theorem spend_jvk (s : State) (res sub act n : Nat) : (s.spend res sub act n).jvk = s.jvk := rfl
@[simp] theorem spend_hif (s : State) (res sub act n : Nat) : (s.spend res sub act n).hif = s.hif := rfl
@[simp] theorem spend_ponds (s : State) (res sub act n : Nat) : (s.spend res sub act n).ponds = s.ponds := rfl
@[simp] theorem spend_atnLists (s : State) (res sub act n : Nat) : (s.spend res sub act n).atnLists = s.atnLists := rfl
@[simp] theorem spend_cores (s : State) (res sub act n : Nat) : (s.spend res sub act n).cores = s.cores := rfl
@[simp] theorem spend_atns (s : State) (res sub act n : Nat) : (s.spend res sub act n).atns = s.atns := rfl
@[simp] theorem spend_epochs (s : State) (res sub act n : Nat) : (s.spend res sub act n).epochs = s.epochs := rfl
@[simp] theorem spend_debug (s : State) (res sub act n : Nat) : (s.spend res sub act n).debug = s.debug := rfl
@[simp] theorem spend_stopped (s : State) (res sub act n : Nat) : (s.spend res sub act n).stopped = s.stopped := rfl
@[simp] theorem spend_pstate (s : State) (res sub act n : Nat) : (s.spend res sub act n).pstate = s.pstate := rfl
@[simp] theorem spend_arrival (s : State) (res sub act n : Nat) : (s.spend res sub act n).arrival = s.arrival := rfl
@[simp] theorem spend_streams (s : State) (res sub act n : Nat) : (s.spend res sub act n).streams = s.streams := rfl
@[simp] theorem spend_ready (s : State) (res sub act n : Nat) : (s.spend res sub act n).ready = s.ready := rfl
@[simp] theorem spend_strm (s : State) (res sub act n : Nat) : (s.spend res sub act n).strm = s.strm := rfl
@[simp] theorem spend_seq (s : State) (res sub act n : Nat) : (s.spend res sub act n).seq = s.seq := rfl
@[simp] theorem spend_shoalQ (s : State) (res sub act n : Nat) : (s.spend res sub act n).shoalQ = s.shoalQ := rfl
@[simp] theorem spend_routers (s : State) (res sub act n : Nat) : (s.spend res sub act n).routers = s.routers := rfl
@[simp] theorem spend_bsn (s : State) (res sub act n : Nat) : (s.spend res sub act n).bsn = s.bsn := rfl
@[simp] theorem spend_lnk (s : State) (res sub act n : Nat) : (s.spend res sub act n).lnk = s.lnk := rfl
@[simp] theorem spend_inl (s : State) (res sub act n : Nat) : (s.spend res sub act n).inl = s.inl := rfl
@[simp] theorem spend_gau (s : State) (res sub act n : Nat) : (s.spend res sub act n).gau = s.gau := rfl
@[simp] theorem spend_weir (s : State) (res sub act n : Nat) : (s.spend res sub act n).weir = s.weir := rfl
@[simp] theorem spend_wh (s : State) (res sub act n : Nat) : (s.spend res sub act n).wh = s.wh := rfl
@[simp] theorem spend_i3cDyn (s : State) (res sub act n : Nat) : (s.spend res sub act n).i3cDyn = s.i3cDyn := rfl

/-! ### loadsLoseKey -/

@[simp] theorem loadsLoseKey_pending (s : State) (cove slot : Nat) : (s.loadsLoseKey cove slot).pending = s.pending := rfl
@[simp] theorem loadsLoseKey_fuses (s : State) (cove slot : Nat) : (s.loadsLoseKey cove slot).fuses = s.fuses := rfl
@[simp] theorem loadsLoseKey_tick (s : State) (cove slot : Nat) : (s.loadsLoseKey cove slot).tick = s.tick := rfl
@[simp] theorem loadsLoseKey_regs (s : State) (cove slot : Nat) : (s.loadsLoseKey cove slot).regs = s.regs := rfl
@[simp] theorem loadsLoseKey_ctrs (s : State) (cove slot : Nat) : (s.loadsLoseKey cove slot).ctrs = s.ctrs := rfl
@[simp] theorem loadsLoseKey_flags (s : State) (cove slot : Nat) : (s.loadsLoseKey cove slot).flags = s.flags := rfl
@[simp] theorem loadsLoseKey_draws (s : State) (cove slot : Nat) : (s.loadsLoseKey cove slot).draws = s.draws := rfl
@[simp] theorem loadsLoseKey_out (s : State) (cove slot : Nat) : (s.loadsLoseKey cove slot).out = s.out := rfl
@[simp] theorem loadsLoseKey_arbs (s : State) (cove slot : Nat) : (s.loadsLoseKey cove slot).arbs = s.arbs := rfl
@[simp] theorem loadsLoseKey_mem (s : State) (cove slot : Nat) : (s.loadsLoseKey cove slot).mem = s.mem := rfl
@[simp] theorem loadsLoseKey_hbm (s : State) (cove slot : Nat) : (s.loadsLoseKey cove slot).hbm = s.hbm := rfl
@[simp] theorem loadsLoseKey_dtu (s : State) (cove slot : Nat) : (s.loadsLoseKey cove slot).dtu = s.dtu := rfl
@[simp] theorem loadsLoseKey_spw (s : State) (cove slot : Nat) : (s.loadsLoseKey cove slot).spw = s.spw := rfl
@[simp] theorem loadsLoseKey_objs (s : State) (cove slot : Nat) : (s.loadsLoseKey cove slot).objs = s.objs := rfl
@[simp] theorem loadsLoseKey_flt (s : State) (cove slot : Nat) : (s.loadsLoseKey cove slot).flt = s.flt := rfl
@[simp] theorem loadsLoseKey_rip (s : State) (cove slot : Nat) : (s.loadsLoseKey cove slot).rip = s.rip := rfl
@[simp] theorem loadsLoseKey_cvu (s : State) (cove slot : Nat) : (s.loadsLoseKey cove slot).cvu = s.cvu := rfl
@[simp] theorem loadsLoseKey_jvk (s : State) (cove slot : Nat) : (s.loadsLoseKey cove slot).jvk = s.jvk := rfl
@[simp] theorem loadsLoseKey_hif (s : State) (cove slot : Nat) : (s.loadsLoseKey cove slot).hif = s.hif := rfl
@[simp] theorem loadsLoseKey_ponds (s : State) (cove slot : Nat) : (s.loadsLoseKey cove slot).ponds = s.ponds := rfl
@[simp] theorem loadsLoseKey_atnLists (s : State) (cove slot : Nat) : (s.loadsLoseKey cove slot).atnLists = s.atnLists := rfl
@[simp] theorem loadsLoseKey_cores (s : State) (cove slot : Nat) : (s.loadsLoseKey cove slot).cores = s.cores := rfl
@[simp] theorem loadsLoseKey_atns (s : State) (cove slot : Nat) : (s.loadsLoseKey cove slot).atns = s.atns := rfl
@[simp] theorem loadsLoseKey_epochs (s : State) (cove slot : Nat) : (s.loadsLoseKey cove slot).epochs = s.epochs := rfl
@[simp] theorem loadsLoseKey_debug (s : State) (cove slot : Nat) : (s.loadsLoseKey cove slot).debug = s.debug := rfl
@[simp] theorem loadsLoseKey_stopped (s : State) (cove slot : Nat) : (s.loadsLoseKey cove slot).stopped = s.stopped := rfl
@[simp] theorem loadsLoseKey_pstate (s : State) (cove slot : Nat) : (s.loadsLoseKey cove slot).pstate = s.pstate := rfl
@[simp] theorem loadsLoseKey_arrival (s : State) (cove slot : Nat) : (s.loadsLoseKey cove slot).arrival = s.arrival := rfl
@[simp] theorem loadsLoseKey_streams (s : State) (cove slot : Nat) : (s.loadsLoseKey cove slot).streams = s.streams := rfl
@[simp] theorem loadsLoseKey_ready (s : State) (cove slot : Nat) : (s.loadsLoseKey cove slot).ready = s.ready := rfl
@[simp] theorem loadsLoseKey_strm (s : State) (cove slot : Nat) : (s.loadsLoseKey cove slot).strm = s.strm := rfl
@[simp] theorem loadsLoseKey_seq (s : State) (cove slot : Nat) : (s.loadsLoseKey cove slot).seq = s.seq := rfl
@[simp] theorem loadsLoseKey_shoalQ (s : State) (cove slot : Nat) : (s.loadsLoseKey cove slot).shoalQ = s.shoalQ := rfl
@[simp] theorem loadsLoseKey_routers (s : State) (cove slot : Nat) : (s.loadsLoseKey cove slot).routers = s.routers := rfl
@[simp] theorem loadsLoseKey_bsn (s : State) (cove slot : Nat) : (s.loadsLoseKey cove slot).bsn = s.bsn := rfl
@[simp] theorem loadsLoseKey_lnk (s : State) (cove slot : Nat) : (s.loadsLoseKey cove slot).lnk = s.lnk := rfl
@[simp] theorem loadsLoseKey_gau (s : State) (cove slot : Nat) : (s.loadsLoseKey cove slot).gau = s.gau := rfl
@[simp] theorem loadsLoseKey_weir (s : State) (cove slot : Nat) : (s.loadsLoseKey cove slot).weir = s.weir := rfl
@[simp] theorem loadsLoseKey_wh (s : State) (cove slot : Nat) : (s.loadsLoseKey cove slot).wh = s.wh := rfl
@[simp] theorem loadsLoseKey_i3cDyn (s : State) (cove slot : Nat) : (s.loadsLoseKey cove slot).i3cDyn = s.i3cDyn := rfl

/-! ### holdWrite -/

@[simp] theorem holdWrite_pending (s : State) (c act va : Nat) (bs : List Byte) : (s.holdWrite c act va bs).pending = s.pending := rfl
@[simp] theorem holdWrite_fuses (s : State) (c act va : Nat) (bs : List Byte) : (s.holdWrite c act va bs).fuses = s.fuses := rfl
@[simp] theorem holdWrite_tick (s : State) (c act va : Nat) (bs : List Byte) : (s.holdWrite c act va bs).tick = s.tick := rfl
@[simp] theorem holdWrite_regs (s : State) (c act va : Nat) (bs : List Byte) : (s.holdWrite c act va bs).regs = s.regs := rfl
@[simp] theorem holdWrite_ctrs (s : State) (c act va : Nat) (bs : List Byte) : (s.holdWrite c act va bs).ctrs = s.ctrs := rfl
@[simp] theorem holdWrite_flags (s : State) (c act va : Nat) (bs : List Byte) : (s.holdWrite c act va bs).flags = s.flags := rfl
@[simp] theorem holdWrite_draws (s : State) (c act va : Nat) (bs : List Byte) : (s.holdWrite c act va bs).draws = s.draws := rfl
@[simp] theorem holdWrite_out (s : State) (c act va : Nat) (bs : List Byte) : (s.holdWrite c act va bs).out = s.out := rfl
@[simp] theorem holdWrite_arbs (s : State) (c act va : Nat) (bs : List Byte) : (s.holdWrite c act va bs).arbs = s.arbs := rfl
@[simp] theorem holdWrite_mem (s : State) (c act va : Nat) (bs : List Byte) : (s.holdWrite c act va bs).mem = s.mem := rfl
@[simp] theorem holdWrite_hbm (s : State) (c act va : Nat) (bs : List Byte) : (s.holdWrite c act va bs).hbm = s.hbm := rfl
@[simp] theorem holdWrite_dtu (s : State) (c act va : Nat) (bs : List Byte) : (s.holdWrite c act va bs).dtu = s.dtu := rfl
@[simp] theorem holdWrite_spw (s : State) (c act va : Nat) (bs : List Byte) : (s.holdWrite c act va bs).spw = s.spw := rfl
@[simp] theorem holdWrite_objs (s : State) (c act va : Nat) (bs : List Byte) : (s.holdWrite c act va bs).objs = s.objs := rfl
@[simp] theorem holdWrite_rip (s : State) (c act va : Nat) (bs : List Byte) : (s.holdWrite c act va bs).rip = s.rip := rfl
@[simp] theorem holdWrite_cvu (s : State) (c act va : Nat) (bs : List Byte) : (s.holdWrite c act va bs).cvu = s.cvu := rfl
@[simp] theorem holdWrite_jvk (s : State) (c act va : Nat) (bs : List Byte) : (s.holdWrite c act va bs).jvk = s.jvk := rfl
@[simp] theorem holdWrite_hif (s : State) (c act va : Nat) (bs : List Byte) : (s.holdWrite c act va bs).hif = s.hif := rfl
@[simp] theorem holdWrite_ponds (s : State) (c act va : Nat) (bs : List Byte) : (s.holdWrite c act va bs).ponds = s.ponds := rfl
@[simp] theorem holdWrite_atnLists (s : State) (c act va : Nat) (bs : List Byte) : (s.holdWrite c act va bs).atnLists = s.atnLists := rfl
@[simp] theorem holdWrite_cores (s : State) (c act va : Nat) (bs : List Byte) : (s.holdWrite c act va bs).cores = s.cores := rfl
@[simp] theorem holdWrite_atns (s : State) (c act va : Nat) (bs : List Byte) : (s.holdWrite c act va bs).atns = s.atns := rfl
@[simp] theorem holdWrite_epochs (s : State) (c act va : Nat) (bs : List Byte) : (s.holdWrite c act va bs).epochs = s.epochs := rfl
@[simp] theorem holdWrite_debug (s : State) (c act va : Nat) (bs : List Byte) : (s.holdWrite c act va bs).debug = s.debug := rfl
@[simp] theorem holdWrite_stopped (s : State) (c act va : Nat) (bs : List Byte) : (s.holdWrite c act va bs).stopped = s.stopped := rfl
@[simp] theorem holdWrite_pstate (s : State) (c act va : Nat) (bs : List Byte) : (s.holdWrite c act va bs).pstate = s.pstate := rfl
@[simp] theorem holdWrite_arrival (s : State) (c act va : Nat) (bs : List Byte) : (s.holdWrite c act va bs).arrival = s.arrival := rfl
@[simp] theorem holdWrite_streams (s : State) (c act va : Nat) (bs : List Byte) : (s.holdWrite c act va bs).streams = s.streams := rfl
@[simp] theorem holdWrite_ready (s : State) (c act va : Nat) (bs : List Byte) : (s.holdWrite c act va bs).ready = s.ready := rfl
@[simp] theorem holdWrite_strm (s : State) (c act va : Nat) (bs : List Byte) : (s.holdWrite c act va bs).strm = s.strm := rfl
@[simp] theorem holdWrite_seq (s : State) (c act va : Nat) (bs : List Byte) : (s.holdWrite c act va bs).seq = s.seq := rfl
@[simp] theorem holdWrite_shoalQ (s : State) (c act va : Nat) (bs : List Byte) : (s.holdWrite c act va bs).shoalQ = s.shoalQ := rfl
@[simp] theorem holdWrite_routers (s : State) (c act va : Nat) (bs : List Byte) : (s.holdWrite c act va bs).routers = s.routers := rfl
@[simp] theorem holdWrite_bsn (s : State) (c act va : Nat) (bs : List Byte) : (s.holdWrite c act va bs).bsn = s.bsn := rfl
@[simp] theorem holdWrite_lnk (s : State) (c act va : Nat) (bs : List Byte) : (s.holdWrite c act va bs).lnk = s.lnk := rfl
@[simp] theorem holdWrite_inl (s : State) (c act va : Nat) (bs : List Byte) : (s.holdWrite c act va bs).inl = s.inl := rfl
@[simp] theorem holdWrite_gau (s : State) (c act va : Nat) (bs : List Byte) : (s.holdWrite c act va bs).gau = s.gau := rfl
@[simp] theorem holdWrite_weir (s : State) (c act va : Nat) (bs : List Byte) : (s.holdWrite c act va bs).weir = s.weir := rfl
@[simp] theorem holdWrite_wh (s : State) (c act va : Nat) (bs : List Byte) : (s.holdWrite c act va bs).wh = s.wh := rfl
@[simp] theorem holdWrite_i3cDyn (s : State) (c act va : Nat) (bs : List Byte) : (s.holdWrite c act va bs).i3cDyn = s.i3cDyn := rfl

/-! ### putWire -/

@[simp] theorem putWire_pending (s : State) (p : Nat) (b : List Byte) : (s.putWire p b).pending = s.pending := rfl
@[simp] theorem putWire_fuses (s : State) (p : Nat) (b : List Byte) : (s.putWire p b).fuses = s.fuses := rfl
@[simp] theorem putWire_tick (s : State) (p : Nat) (b : List Byte) : (s.putWire p b).tick = s.tick := rfl
@[simp] theorem putWire_regs (s : State) (p : Nat) (b : List Byte) : (s.putWire p b).regs = s.regs := rfl
@[simp] theorem putWire_ctrs (s : State) (p : Nat) (b : List Byte) : (s.putWire p b).ctrs = s.ctrs := rfl
@[simp] theorem putWire_flags (s : State) (p : Nat) (b : List Byte) : (s.putWire p b).flags = s.flags := rfl
@[simp] theorem putWire_draws (s : State) (p : Nat) (b : List Byte) : (s.putWire p b).draws = s.draws := rfl
@[simp] theorem putWire_out (s : State) (p : Nat) (b : List Byte) : (s.putWire p b).out = s.out := rfl
@[simp] theorem putWire_arbs (s : State) (p : Nat) (b : List Byte) : (s.putWire p b).arbs = s.arbs := rfl
@[simp] theorem putWire_mem (s : State) (p : Nat) (b : List Byte) : (s.putWire p b).mem = s.mem := rfl
@[simp] theorem putWire_hbm (s : State) (p : Nat) (b : List Byte) : (s.putWire p b).hbm = s.hbm := rfl
@[simp] theorem putWire_dtu (s : State) (p : Nat) (b : List Byte) : (s.putWire p b).dtu = s.dtu := rfl
@[simp] theorem putWire_spw (s : State) (p : Nat) (b : List Byte) : (s.putWire p b).spw = s.spw := rfl
@[simp] theorem putWire_objs (s : State) (p : Nat) (b : List Byte) : (s.putWire p b).objs = s.objs := rfl
@[simp] theorem putWire_flt (s : State) (p : Nat) (b : List Byte) : (s.putWire p b).flt = s.flt := rfl
@[simp] theorem putWire_rip (s : State) (p : Nat) (b : List Byte) : (s.putWire p b).rip = s.rip := rfl
@[simp] theorem putWire_cvu (s : State) (p : Nat) (b : List Byte) : (s.putWire p b).cvu = s.cvu := rfl
@[simp] theorem putWire_jvk (s : State) (p : Nat) (b : List Byte) : (s.putWire p b).jvk = s.jvk := rfl
@[simp] theorem putWire_hif (s : State) (p : Nat) (b : List Byte) : (s.putWire p b).hif = s.hif := rfl
@[simp] theorem putWire_ponds (s : State) (p : Nat) (b : List Byte) : (s.putWire p b).ponds = s.ponds := rfl
@[simp] theorem putWire_atnLists (s : State) (p : Nat) (b : List Byte) : (s.putWire p b).atnLists = s.atnLists := rfl
@[simp] theorem putWire_cores (s : State) (p : Nat) (b : List Byte) : (s.putWire p b).cores = s.cores := rfl
@[simp] theorem putWire_atns (s : State) (p : Nat) (b : List Byte) : (s.putWire p b).atns = s.atns := rfl
@[simp] theorem putWire_epochs (s : State) (p : Nat) (b : List Byte) : (s.putWire p b).epochs = s.epochs := rfl
@[simp] theorem putWire_debug (s : State) (p : Nat) (b : List Byte) : (s.putWire p b).debug = s.debug := rfl
@[simp] theorem putWire_stopped (s : State) (p : Nat) (b : List Byte) : (s.putWire p b).stopped = s.stopped := rfl
@[simp] theorem putWire_pstate (s : State) (p : Nat) (b : List Byte) : (s.putWire p b).pstate = s.pstate := rfl
@[simp] theorem putWire_arrival (s : State) (p : Nat) (b : List Byte) : (s.putWire p b).arrival = s.arrival := rfl
@[simp] theorem putWire_streams (s : State) (p : Nat) (b : List Byte) : (s.putWire p b).streams = s.streams := rfl
@[simp] theorem putWire_ready (s : State) (p : Nat) (b : List Byte) : (s.putWire p b).ready = s.ready := rfl
@[simp] theorem putWire_strm (s : State) (p : Nat) (b : List Byte) : (s.putWire p b).strm = s.strm := rfl
@[simp] theorem putWire_seq (s : State) (p : Nat) (b : List Byte) : (s.putWire p b).seq = s.seq := rfl
@[simp] theorem putWire_shoalQ (s : State) (p : Nat) (b : List Byte) : (s.putWire p b).shoalQ = s.shoalQ := rfl
@[simp] theorem putWire_routers (s : State) (p : Nat) (b : List Byte) : (s.putWire p b).routers = s.routers := rfl
@[simp] theorem putWire_bsn (s : State) (p : Nat) (b : List Byte) : (s.putWire p b).bsn = s.bsn := rfl
@[simp] theorem putWire_lnk (s : State) (p : Nat) (b : List Byte) : (s.putWire p b).lnk = { s.lnk with wire := s.lnk.wire ++ [(p, b)] } := rfl
@[simp] theorem putWire_inl (s : State) (p : Nat) (b : List Byte) : (s.putWire p b).inl = s.inl := rfl
@[simp] theorem putWire_gau (s : State) (p : Nat) (b : List Byte) : (s.putWire p b).gau = s.gau := rfl
@[simp] theorem putWire_weir (s : State) (p : Nat) (b : List Byte) : (s.putWire p b).weir = s.weir := rfl
@[simp] theorem putWire_wh (s : State) (p : Nat) (b : List Byte) : (s.putWire p b).wh = s.wh := rfl
@[simp] theorem putWire_i3cDyn (s : State) (p : Nat) (b : List Byte) : (s.putWire p b).i3cDyn = s.i3cDyn := rfl

/-! ### issueAll -/

@[simp] theorem issueAll_pending (s : State) (l : List TxReq) : (s.issueAll l).pending = s.pending := rfl
@[simp] theorem issueAll_fuses (s : State) (l : List TxReq) : (s.issueAll l).fuses = s.fuses := rfl
@[simp] theorem issueAll_tick (s : State) (l : List TxReq) : (s.issueAll l).tick = s.tick := rfl
@[simp] theorem issueAll_regs (s : State) (l : List TxReq) : (s.issueAll l).regs = s.regs := rfl
@[simp] theorem issueAll_ctrs (s : State) (l : List TxReq) : (s.issueAll l).ctrs = s.ctrs := rfl
@[simp] theorem issueAll_flags (s : State) (l : List TxReq) : (s.issueAll l).flags = s.flags := rfl
@[simp] theorem issueAll_draws (s : State) (l : List TxReq) : (s.issueAll l).draws = s.draws := rfl
@[simp] theorem issueAll_out (s : State) (l : List TxReq) : (s.issueAll l).out = s.out := rfl
@[simp] theorem issueAll_arbs (s : State) (l : List TxReq) : (s.issueAll l).arbs = s.arbs := rfl
@[simp] theorem issueAll_mem (s : State) (l : List TxReq) : (s.issueAll l).mem = s.mem := rfl
@[simp] theorem issueAll_hbm (s : State) (l : List TxReq) : (s.issueAll l).hbm = s.hbm := rfl
@[simp] theorem issueAll_dtu (s : State) (l : List TxReq) : (s.issueAll l).dtu = s.dtu := rfl
@[simp] theorem issueAll_spw (s : State) (l : List TxReq) : (s.issueAll l).spw = s.spw := rfl
@[simp] theorem issueAll_objs (s : State) (l : List TxReq) : (s.issueAll l).objs = s.objs := rfl
@[simp] theorem issueAll_flt (s : State) (l : List TxReq) : (s.issueAll l).flt = s.flt := rfl
@[simp] theorem issueAll_rip (s : State) (l : List TxReq) : (s.issueAll l).rip = s.rip := rfl
@[simp] theorem issueAll_cvu (s : State) (l : List TxReq) : (s.issueAll l).cvu = s.cvu := rfl
@[simp] theorem issueAll_jvk (s : State) (l : List TxReq) : (s.issueAll l).jvk = s.jvk := rfl
@[simp] theorem issueAll_hif (s : State) (l : List TxReq) : (s.issueAll l).hif = s.hif := rfl
@[simp] theorem issueAll_ponds (s : State) (l : List TxReq) : (s.issueAll l).ponds = s.ponds := rfl
@[simp] theorem issueAll_atnLists (s : State) (l : List TxReq) : (s.issueAll l).atnLists = s.atnLists := rfl
@[simp] theorem issueAll_cores (s : State) (l : List TxReq) : (s.issueAll l).cores = s.cores := rfl
@[simp] theorem issueAll_atns (s : State) (l : List TxReq) : (s.issueAll l).atns = s.atns := rfl
@[simp] theorem issueAll_epochs (s : State) (l : List TxReq) : (s.issueAll l).epochs = s.epochs := rfl
@[simp] theorem issueAll_debug (s : State) (l : List TxReq) : (s.issueAll l).debug = s.debug := rfl
@[simp] theorem issueAll_stopped (s : State) (l : List TxReq) : (s.issueAll l).stopped = s.stopped := rfl
@[simp] theorem issueAll_pstate (s : State) (l : List TxReq) : (s.issueAll l).pstate = s.pstate := rfl
@[simp] theorem issueAll_arrival (s : State) (l : List TxReq) : (s.issueAll l).arrival = s.arrival := rfl
@[simp] theorem issueAll_streams (s : State) (l : List TxReq) : (s.issueAll l).streams = s.streams := rfl
@[simp] theorem issueAll_ready (s : State) (l : List TxReq) : (s.issueAll l).ready = s.ready := rfl
@[simp] theorem issueAll_strm (s : State) (l : List TxReq) : (s.issueAll l).strm = s.strm := rfl
@[simp] theorem issueAll_seq (s : State) (l : List TxReq) : (s.issueAll l).seq = s.seq := rfl
@[simp] theorem issueAll_shoalQ (s : State) (l : List TxReq) : (s.issueAll l).shoalQ = s.shoalQ := rfl
@[simp] theorem issueAll_routers (s : State) (l : List TxReq) : (s.issueAll l).routers = s.routers := rfl
@[simp] theorem issueAll_bsn (s : State) (l : List TxReq) : (s.issueAll l).bsn = { s.bsn with txWait := s.bsn.txWait ++ l } := rfl
@[simp] theorem issueAll_lnk (s : State) (l : List TxReq) : (s.issueAll l).lnk = s.lnk := rfl
@[simp] theorem issueAll_inl (s : State) (l : List TxReq) : (s.issueAll l).inl = s.inl := rfl
@[simp] theorem issueAll_gau (s : State) (l : List TxReq) : (s.issueAll l).gau = s.gau := rfl
@[simp] theorem issueAll_weir (s : State) (l : List TxReq) : (s.issueAll l).weir = s.weir := rfl
@[simp] theorem issueAll_wh (s : State) (l : List TxReq) : (s.issueAll l).wh = s.wh := rfl
@[simp] theorem issueAll_i3cDyn (s : State) (l : List TxReq) : (s.issueAll l).i3cDyn = s.i3cDyn := rfl

/-! ### freeCredit -/

@[simp] theorem freeCredit_pending (s : State) (tag : Nat) : (s.freeCredit tag).pending = s.pending := rfl
@[simp] theorem freeCredit_fuses (s : State) (tag : Nat) : (s.freeCredit tag).fuses = s.fuses := rfl
@[simp] theorem freeCredit_tick (s : State) (tag : Nat) : (s.freeCredit tag).tick = s.tick := rfl
@[simp] theorem freeCredit_regs (s : State) (tag : Nat) : (s.freeCredit tag).regs = s.regs := rfl
@[simp] theorem freeCredit_ctrs (s : State) (tag : Nat) : (s.freeCredit tag).ctrs = s.ctrs := rfl
@[simp] theorem freeCredit_flags (s : State) (tag : Nat) : (s.freeCredit tag).flags = s.flags := rfl
@[simp] theorem freeCredit_draws (s : State) (tag : Nat) : (s.freeCredit tag).draws = s.draws := rfl
@[simp] theorem freeCredit_out (s : State) (tag : Nat) : (s.freeCredit tag).out = s.out := rfl
@[simp] theorem freeCredit_arbs (s : State) (tag : Nat) : (s.freeCredit tag).arbs = s.arbs := rfl
@[simp] theorem freeCredit_mem (s : State) (tag : Nat) : (s.freeCredit tag).mem = s.mem := rfl
@[simp] theorem freeCredit_hbm (s : State) (tag : Nat) : (s.freeCredit tag).hbm = s.hbm := rfl
@[simp] theorem freeCredit_dtu (s : State) (tag : Nat) : (s.freeCredit tag).dtu = s.dtu := rfl
@[simp] theorem freeCredit_spw (s : State) (tag : Nat) : (s.freeCredit tag).spw = s.spw := rfl
@[simp] theorem freeCredit_objs (s : State) (tag : Nat) : (s.freeCredit tag).objs = s.objs := rfl
@[simp] theorem freeCredit_flt (s : State) (tag : Nat) : (s.freeCredit tag).flt = s.flt := rfl
@[simp] theorem freeCredit_rip (s : State) (tag : Nat) : (s.freeCredit tag).rip = s.rip := rfl
@[simp] theorem freeCredit_cvu (s : State) (tag : Nat) : (s.freeCredit tag).cvu = s.cvu := rfl
@[simp] theorem freeCredit_jvk (s : State) (tag : Nat) : (s.freeCredit tag).jvk = s.jvk := rfl
@[simp] theorem freeCredit_hif (s : State) (tag : Nat) : (s.freeCredit tag).hif = s.hif := rfl
@[simp] theorem freeCredit_ponds (s : State) (tag : Nat) : (s.freeCredit tag).ponds = s.ponds := rfl
@[simp] theorem freeCredit_atnLists (s : State) (tag : Nat) : (s.freeCredit tag).atnLists = s.atnLists := rfl
@[simp] theorem freeCredit_cores (s : State) (tag : Nat) : (s.freeCredit tag).cores = s.cores := rfl
@[simp] theorem freeCredit_atns (s : State) (tag : Nat) : (s.freeCredit tag).atns = s.atns := rfl
@[simp] theorem freeCredit_epochs (s : State) (tag : Nat) : (s.freeCredit tag).epochs = s.epochs := rfl
@[simp] theorem freeCredit_debug (s : State) (tag : Nat) : (s.freeCredit tag).debug = s.debug := rfl
@[simp] theorem freeCredit_stopped (s : State) (tag : Nat) : (s.freeCredit tag).stopped = s.stopped := rfl
@[simp] theorem freeCredit_pstate (s : State) (tag : Nat) : (s.freeCredit tag).pstate = s.pstate := rfl
@[simp] theorem freeCredit_arrival (s : State) (tag : Nat) : (s.freeCredit tag).arrival = s.arrival := rfl
@[simp] theorem freeCredit_streams (s : State) (tag : Nat) : (s.freeCredit tag).streams = s.streams := rfl
@[simp] theorem freeCredit_ready (s : State) (tag : Nat) : (s.freeCredit tag).ready = s.ready := rfl
@[simp] theorem freeCredit_strm (s : State) (tag : Nat) : (s.freeCredit tag).strm = s.strm := rfl
@[simp] theorem freeCredit_seq (s : State) (tag : Nat) : (s.freeCredit tag).seq = s.seq := rfl
@[simp] theorem freeCredit_shoalQ (s : State) (tag : Nat) : (s.freeCredit tag).shoalQ = s.shoalQ := rfl
@[simp] theorem freeCredit_routers (s : State) (tag : Nat) : (s.freeCredit tag).routers = s.routers := rfl
@[simp] theorem freeCredit_bsn (s : State) (tag : Nat) : (s.freeCredit tag).bsn = { s.bsn with credits := SMap.put none s.bsn.credits tag none } := rfl
@[simp] theorem freeCredit_lnk (s : State) (tag : Nat) : (s.freeCredit tag).lnk = s.lnk := rfl
@[simp] theorem freeCredit_inl (s : State) (tag : Nat) : (s.freeCredit tag).inl = s.inl := rfl
@[simp] theorem freeCredit_gau (s : State) (tag : Nat) : (s.freeCredit tag).gau = s.gau := rfl
@[simp] theorem freeCredit_weir (s : State) (tag : Nat) : (s.freeCredit tag).weir = s.weir := rfl
@[simp] theorem freeCredit_wh (s : State) (tag : Nat) : (s.freeCredit tag).wh = s.wh := rfl
@[simp] theorem freeCredit_i3cDyn (s : State) (tag : Nat) : (s.freeCredit tag).i3cDyn = s.i3cDyn := rfl

/-! ### modPair -/

@[simp] theorem modPair_pending (s : State) (k : Nat) (f : SeqIn → SeqIn) : (s.modPair k f).pending = s.pending := rfl
@[simp] theorem modPair_fuses (s : State) (k : Nat) (f : SeqIn → SeqIn) : (s.modPair k f).fuses = s.fuses := rfl
@[simp] theorem modPair_tick (s : State) (k : Nat) (f : SeqIn → SeqIn) : (s.modPair k f).tick = s.tick := rfl
@[simp] theorem modPair_regs (s : State) (k : Nat) (f : SeqIn → SeqIn) : (s.modPair k f).regs = s.regs := rfl
@[simp] theorem modPair_ctrs (s : State) (k : Nat) (f : SeqIn → SeqIn) : (s.modPair k f).ctrs = s.ctrs := rfl
@[simp] theorem modPair_flags (s : State) (k : Nat) (f : SeqIn → SeqIn) : (s.modPair k f).flags = s.flags := rfl
@[simp] theorem modPair_draws (s : State) (k : Nat) (f : SeqIn → SeqIn) : (s.modPair k f).draws = s.draws := rfl
@[simp] theorem modPair_out (s : State) (k : Nat) (f : SeqIn → SeqIn) : (s.modPair k f).out = s.out := rfl
@[simp] theorem modPair_arbs (s : State) (k : Nat) (f : SeqIn → SeqIn) : (s.modPair k f).arbs = s.arbs := rfl
@[simp] theorem modPair_mem (s : State) (k : Nat) (f : SeqIn → SeqIn) : (s.modPair k f).mem = s.mem := rfl
@[simp] theorem modPair_hbm (s : State) (k : Nat) (f : SeqIn → SeqIn) : (s.modPair k f).hbm = s.hbm := rfl
@[simp] theorem modPair_dtu (s : State) (k : Nat) (f : SeqIn → SeqIn) : (s.modPair k f).dtu = s.dtu := rfl
@[simp] theorem modPair_spw (s : State) (k : Nat) (f : SeqIn → SeqIn) : (s.modPair k f).spw = s.spw := rfl
@[simp] theorem modPair_objs (s : State) (k : Nat) (f : SeqIn → SeqIn) : (s.modPair k f).objs = s.objs := rfl
@[simp] theorem modPair_flt (s : State) (k : Nat) (f : SeqIn → SeqIn) : (s.modPair k f).flt = s.flt := rfl
@[simp] theorem modPair_rip (s : State) (k : Nat) (f : SeqIn → SeqIn) : (s.modPair k f).rip = s.rip := rfl
@[simp] theorem modPair_cvu (s : State) (k : Nat) (f : SeqIn → SeqIn) : (s.modPair k f).cvu = s.cvu := rfl
@[simp] theorem modPair_jvk (s : State) (k : Nat) (f : SeqIn → SeqIn) : (s.modPair k f).jvk = s.jvk := rfl
@[simp] theorem modPair_hif (s : State) (k : Nat) (f : SeqIn → SeqIn) : (s.modPair k f).hif = s.hif := rfl
@[simp] theorem modPair_ponds (s : State) (k : Nat) (f : SeqIn → SeqIn) : (s.modPair k f).ponds = s.ponds := rfl
@[simp] theorem modPair_atnLists (s : State) (k : Nat) (f : SeqIn → SeqIn) : (s.modPair k f).atnLists = s.atnLists := rfl
@[simp] theorem modPair_cores (s : State) (k : Nat) (f : SeqIn → SeqIn) : (s.modPair k f).cores = s.cores := rfl
@[simp] theorem modPair_atns (s : State) (k : Nat) (f : SeqIn → SeqIn) : (s.modPair k f).atns = s.atns := rfl
@[simp] theorem modPair_epochs (s : State) (k : Nat) (f : SeqIn → SeqIn) : (s.modPair k f).epochs = s.epochs := rfl
@[simp] theorem modPair_debug (s : State) (k : Nat) (f : SeqIn → SeqIn) : (s.modPair k f).debug = s.debug := rfl
@[simp] theorem modPair_stopped (s : State) (k : Nat) (f : SeqIn → SeqIn) : (s.modPair k f).stopped = s.stopped := rfl
@[simp] theorem modPair_pstate (s : State) (k : Nat) (f : SeqIn → SeqIn) : (s.modPair k f).pstate = s.pstate := rfl
@[simp] theorem modPair_arrival (s : State) (k : Nat) (f : SeqIn → SeqIn) : (s.modPair k f).arrival = s.arrival := rfl
@[simp] theorem modPair_streams (s : State) (k : Nat) (f : SeqIn → SeqIn) : (s.modPair k f).streams = s.streams := rfl
@[simp] theorem modPair_ready (s : State) (k : Nat) (f : SeqIn → SeqIn) : (s.modPair k f).ready = s.ready := rfl
@[simp] theorem modPair_strm (s : State) (k : Nat) (f : SeqIn → SeqIn) : (s.modPair k f).strm = s.strm := rfl
@[simp] theorem modPair_seq (s : State) (k : Nat) (f : SeqIn → SeqIn) : (s.modPair k f).seq = s.seq := rfl
@[simp] theorem modPair_shoalQ (s : State) (k : Nat) (f : SeqIn → SeqIn) : (s.modPair k f).shoalQ = s.shoalQ := rfl
@[simp] theorem modPair_routers (s : State) (k : Nat) (f : SeqIn → SeqIn) : (s.modPair k f).routers = s.routers := rfl
@[simp] theorem modPair_bsn (s : State) (k : Nat) (f : SeqIn → SeqIn) : (s.modPair k f).bsn = { s.bsn with seqIn := SMap.upd {} s.bsn.seqIn k f } := rfl
@[simp] theorem modPair_lnk (s : State) (k : Nat) (f : SeqIn → SeqIn) : (s.modPair k f).lnk = s.lnk := rfl
@[simp] theorem modPair_inl (s : State) (k : Nat) (f : SeqIn → SeqIn) : (s.modPair k f).inl = s.inl := rfl
@[simp] theorem modPair_gau (s : State) (k : Nat) (f : SeqIn → SeqIn) : (s.modPair k f).gau = s.gau := rfl
@[simp] theorem modPair_weir (s : State) (k : Nat) (f : SeqIn → SeqIn) : (s.modPair k f).weir = s.weir := rfl
@[simp] theorem modPair_wh (s : State) (k : Nat) (f : SeqIn → SeqIn) : (s.modPair k f).wh = s.wh := rfl
@[simp] theorem modPair_i3cDyn (s : State) (k : Nat) (f : SeqIn → SeqIn) : (s.modPair k f).i3cDyn = s.i3cDyn := rfl

/-! ### setCore -/

@[simp] theorem setCore_pending (s : State) (core : Nat) (r : Option TileRun) : (s.setCore core r).pending = s.pending := rfl
@[simp] theorem setCore_fuses (s : State) (core : Nat) (r : Option TileRun) : (s.setCore core r).fuses = s.fuses := rfl
@[simp] theorem setCore_tick (s : State) (core : Nat) (r : Option TileRun) : (s.setCore core r).tick = s.tick := rfl
@[simp] theorem setCore_regs (s : State) (core : Nat) (r : Option TileRun) : (s.setCore core r).regs = s.regs := rfl
@[simp] theorem setCore_ctrs (s : State) (core : Nat) (r : Option TileRun) : (s.setCore core r).ctrs = s.ctrs := rfl
@[simp] theorem setCore_flags (s : State) (core : Nat) (r : Option TileRun) : (s.setCore core r).flags = s.flags := rfl
@[simp] theorem setCore_draws (s : State) (core : Nat) (r : Option TileRun) : (s.setCore core r).draws = s.draws := rfl
@[simp] theorem setCore_out (s : State) (core : Nat) (r : Option TileRun) : (s.setCore core r).out = s.out := rfl
@[simp] theorem setCore_arbs (s : State) (core : Nat) (r : Option TileRun) : (s.setCore core r).arbs = s.arbs := rfl
@[simp] theorem setCore_mem (s : State) (core : Nat) (r : Option TileRun) : (s.setCore core r).mem = s.mem := rfl
@[simp] theorem setCore_hbm (s : State) (core : Nat) (r : Option TileRun) : (s.setCore core r).hbm = s.hbm := rfl
@[simp] theorem setCore_dtu (s : State) (core : Nat) (r : Option TileRun) : (s.setCore core r).dtu = s.dtu := rfl
@[simp] theorem setCore_spw (s : State) (core : Nat) (r : Option TileRun) : (s.setCore core r).spw = s.spw := rfl
@[simp] theorem setCore_objs (s : State) (core : Nat) (r : Option TileRun) : (s.setCore core r).objs = s.objs := rfl
@[simp] theorem setCore_flt (s : State) (core : Nat) (r : Option TileRun) : (s.setCore core r).flt = s.flt := rfl
@[simp] theorem setCore_rip (s : State) (core : Nat) (r : Option TileRun) : (s.setCore core r).rip = s.rip := rfl
@[simp] theorem setCore_cvu (s : State) (core : Nat) (r : Option TileRun) : (s.setCore core r).cvu = s.cvu := rfl
@[simp] theorem setCore_jvk (s : State) (core : Nat) (r : Option TileRun) : (s.setCore core r).jvk = s.jvk := rfl
@[simp] theorem setCore_hif (s : State) (core : Nat) (r : Option TileRun) : (s.setCore core r).hif = s.hif := rfl
@[simp] theorem setCore_ponds (s : State) (core : Nat) (r : Option TileRun) : (s.setCore core r).ponds = s.ponds := rfl
@[simp] theorem setCore_atnLists (s : State) (core : Nat) (r : Option TileRun) : (s.setCore core r).atnLists = s.atnLists := rfl
@[simp] theorem setCore_cores (s : State) (core : Nat) (r : Option TileRun) : (s.setCore core r).cores = vmod s.cores core fun _ => r := rfl
@[simp] theorem setCore_atns (s : State) (core : Nat) (r : Option TileRun) : (s.setCore core r).atns = s.atns := rfl
@[simp] theorem setCore_epochs (s : State) (core : Nat) (r : Option TileRun) : (s.setCore core r).epochs = s.epochs := rfl
@[simp] theorem setCore_debug (s : State) (core : Nat) (r : Option TileRun) : (s.setCore core r).debug = s.debug := rfl
@[simp] theorem setCore_stopped (s : State) (core : Nat) (r : Option TileRun) : (s.setCore core r).stopped = s.stopped := rfl
@[simp] theorem setCore_pstate (s : State) (core : Nat) (r : Option TileRun) : (s.setCore core r).pstate = s.pstate := rfl
@[simp] theorem setCore_arrival (s : State) (core : Nat) (r : Option TileRun) : (s.setCore core r).arrival = s.arrival := rfl
@[simp] theorem setCore_streams (s : State) (core : Nat) (r : Option TileRun) : (s.setCore core r).streams = s.streams := rfl
@[simp] theorem setCore_ready (s : State) (core : Nat) (r : Option TileRun) : (s.setCore core r).ready = s.ready := rfl
@[simp] theorem setCore_strm (s : State) (core : Nat) (r : Option TileRun) : (s.setCore core r).strm = s.strm := rfl
@[simp] theorem setCore_seq (s : State) (core : Nat) (r : Option TileRun) : (s.setCore core r).seq = s.seq := rfl
@[simp] theorem setCore_shoalQ (s : State) (core : Nat) (r : Option TileRun) : (s.setCore core r).shoalQ = s.shoalQ := rfl
@[simp] theorem setCore_routers (s : State) (core : Nat) (r : Option TileRun) : (s.setCore core r).routers = s.routers := rfl
@[simp] theorem setCore_bsn (s : State) (core : Nat) (r : Option TileRun) : (s.setCore core r).bsn = s.bsn := rfl
@[simp] theorem setCore_lnk (s : State) (core : Nat) (r : Option TileRun) : (s.setCore core r).lnk = s.lnk := rfl
@[simp] theorem setCore_inl (s : State) (core : Nat) (r : Option TileRun) : (s.setCore core r).inl = s.inl := rfl
@[simp] theorem setCore_gau (s : State) (core : Nat) (r : Option TileRun) : (s.setCore core r).gau = s.gau := rfl
@[simp] theorem setCore_weir (s : State) (core : Nat) (r : Option TileRun) : (s.setCore core r).weir = s.weir := rfl
@[simp] theorem setCore_wh (s : State) (core : Nat) (r : Option TileRun) : (s.setCore core r).wh = s.wh := rfl
@[simp] theorem setCore_i3cDyn (s : State) (core : Nat) (r : Option TileRun) : (s.setCore core r).i3cDyn = s.i3cDyn := rfl

/-! ### setAtn -/

@[simp] theorem setAtn_pending (s : State) (e : Nat) (r : Option TileRun) : (s.setAtn e r).pending = s.pending := rfl
@[simp] theorem setAtn_fuses (s : State) (e : Nat) (r : Option TileRun) : (s.setAtn e r).fuses = s.fuses := rfl
@[simp] theorem setAtn_tick (s : State) (e : Nat) (r : Option TileRun) : (s.setAtn e r).tick = s.tick := rfl
@[simp] theorem setAtn_regs (s : State) (e : Nat) (r : Option TileRun) : (s.setAtn e r).regs = s.regs := rfl
@[simp] theorem setAtn_ctrs (s : State) (e : Nat) (r : Option TileRun) : (s.setAtn e r).ctrs = s.ctrs := rfl
@[simp] theorem setAtn_flags (s : State) (e : Nat) (r : Option TileRun) : (s.setAtn e r).flags = s.flags := rfl
@[simp] theorem setAtn_draws (s : State) (e : Nat) (r : Option TileRun) : (s.setAtn e r).draws = s.draws := rfl
@[simp] theorem setAtn_out (s : State) (e : Nat) (r : Option TileRun) : (s.setAtn e r).out = s.out := rfl
@[simp] theorem setAtn_arbs (s : State) (e : Nat) (r : Option TileRun) : (s.setAtn e r).arbs = s.arbs := rfl
@[simp] theorem setAtn_mem (s : State) (e : Nat) (r : Option TileRun) : (s.setAtn e r).mem = s.mem := rfl
@[simp] theorem setAtn_hbm (s : State) (e : Nat) (r : Option TileRun) : (s.setAtn e r).hbm = s.hbm := rfl
@[simp] theorem setAtn_dtu (s : State) (e : Nat) (r : Option TileRun) : (s.setAtn e r).dtu = s.dtu := rfl
@[simp] theorem setAtn_spw (s : State) (e : Nat) (r : Option TileRun) : (s.setAtn e r).spw = s.spw := rfl
@[simp] theorem setAtn_objs (s : State) (e : Nat) (r : Option TileRun) : (s.setAtn e r).objs = s.objs := rfl
@[simp] theorem setAtn_flt (s : State) (e : Nat) (r : Option TileRun) : (s.setAtn e r).flt = s.flt := rfl
@[simp] theorem setAtn_rip (s : State) (e : Nat) (r : Option TileRun) : (s.setAtn e r).rip = s.rip := rfl
@[simp] theorem setAtn_cvu (s : State) (e : Nat) (r : Option TileRun) : (s.setAtn e r).cvu = s.cvu := rfl
@[simp] theorem setAtn_jvk (s : State) (e : Nat) (r : Option TileRun) : (s.setAtn e r).jvk = s.jvk := rfl
@[simp] theorem setAtn_hif (s : State) (e : Nat) (r : Option TileRun) : (s.setAtn e r).hif = s.hif := rfl
@[simp] theorem setAtn_ponds (s : State) (e : Nat) (r : Option TileRun) : (s.setAtn e r).ponds = s.ponds := rfl
@[simp] theorem setAtn_atnLists (s : State) (e : Nat) (r : Option TileRun) : (s.setAtn e r).atnLists = s.atnLists := rfl
@[simp] theorem setAtn_cores (s : State) (e : Nat) (r : Option TileRun) : (s.setAtn e r).cores = s.cores := rfl
@[simp] theorem setAtn_atns (s : State) (e : Nat) (r : Option TileRun) : (s.setAtn e r).atns = vmod s.atns e fun _ => r := rfl
@[simp] theorem setAtn_epochs (s : State) (e : Nat) (r : Option TileRun) : (s.setAtn e r).epochs = s.epochs := rfl
@[simp] theorem setAtn_debug (s : State) (e : Nat) (r : Option TileRun) : (s.setAtn e r).debug = s.debug := rfl
@[simp] theorem setAtn_stopped (s : State) (e : Nat) (r : Option TileRun) : (s.setAtn e r).stopped = s.stopped := rfl
@[simp] theorem setAtn_pstate (s : State) (e : Nat) (r : Option TileRun) : (s.setAtn e r).pstate = s.pstate := rfl
@[simp] theorem setAtn_arrival (s : State) (e : Nat) (r : Option TileRun) : (s.setAtn e r).arrival = s.arrival := rfl
@[simp] theorem setAtn_streams (s : State) (e : Nat) (r : Option TileRun) : (s.setAtn e r).streams = s.streams := rfl
@[simp] theorem setAtn_ready (s : State) (e : Nat) (r : Option TileRun) : (s.setAtn e r).ready = s.ready := rfl
@[simp] theorem setAtn_strm (s : State) (e : Nat) (r : Option TileRun) : (s.setAtn e r).strm = s.strm := rfl
@[simp] theorem setAtn_seq (s : State) (e : Nat) (r : Option TileRun) : (s.setAtn e r).seq = s.seq := rfl
@[simp] theorem setAtn_shoalQ (s : State) (e : Nat) (r : Option TileRun) : (s.setAtn e r).shoalQ = s.shoalQ := rfl
@[simp] theorem setAtn_routers (s : State) (e : Nat) (r : Option TileRun) : (s.setAtn e r).routers = s.routers := rfl
@[simp] theorem setAtn_bsn (s : State) (e : Nat) (r : Option TileRun) : (s.setAtn e r).bsn = s.bsn := rfl
@[simp] theorem setAtn_lnk (s : State) (e : Nat) (r : Option TileRun) : (s.setAtn e r).lnk = s.lnk := rfl
@[simp] theorem setAtn_inl (s : State) (e : Nat) (r : Option TileRun) : (s.setAtn e r).inl = s.inl := rfl
@[simp] theorem setAtn_gau (s : State) (e : Nat) (r : Option TileRun) : (s.setAtn e r).gau = s.gau := rfl
@[simp] theorem setAtn_weir (s : State) (e : Nat) (r : Option TileRun) : (s.setAtn e r).weir = s.weir := rfl
@[simp] theorem setAtn_wh (s : State) (e : Nat) (r : Option TileRun) : (s.setAtn e r).wh = s.wh := rfl
@[simp] theorem setAtn_i3cDyn (s : State) (e : Nat) (r : Option TileRun) : (s.setAtn e r).i3cDyn = s.i3cDyn := rfl

/-! ### modList -/

@[simp] theorem modList_pending (s : State) (c hdr : Nat) (f : WorkList → WorkList) : (s.modList c hdr f).pending = s.pending := rfl
@[simp] theorem modList_fuses (s : State) (c hdr : Nat) (f : WorkList → WorkList) : (s.modList c hdr f).fuses = s.fuses := rfl
@[simp] theorem modList_tick (s : State) (c hdr : Nat) (f : WorkList → WorkList) : (s.modList c hdr f).tick = s.tick := rfl
@[simp] theorem modList_regs (s : State) (c hdr : Nat) (f : WorkList → WorkList) : (s.modList c hdr f).regs = s.regs := rfl
@[simp] theorem modList_ctrs (s : State) (c hdr : Nat) (f : WorkList → WorkList) : (s.modList c hdr f).ctrs = s.ctrs := rfl
@[simp] theorem modList_flags (s : State) (c hdr : Nat) (f : WorkList → WorkList) : (s.modList c hdr f).flags = s.flags := rfl
@[simp] theorem modList_draws (s : State) (c hdr : Nat) (f : WorkList → WorkList) : (s.modList c hdr f).draws = s.draws := rfl
@[simp] theorem modList_out (s : State) (c hdr : Nat) (f : WorkList → WorkList) : (s.modList c hdr f).out = s.out := rfl
@[simp] theorem modList_arbs (s : State) (c hdr : Nat) (f : WorkList → WorkList) : (s.modList c hdr f).arbs = s.arbs := rfl
@[simp] theorem modList_mem (s : State) (c hdr : Nat) (f : WorkList → WorkList) : (s.modList c hdr f).mem = s.mem := rfl
@[simp] theorem modList_hbm (s : State) (c hdr : Nat) (f : WorkList → WorkList) : (s.modList c hdr f).hbm = s.hbm := rfl
@[simp] theorem modList_dtu (s : State) (c hdr : Nat) (f : WorkList → WorkList) : (s.modList c hdr f).dtu = s.dtu := rfl
@[simp] theorem modList_spw (s : State) (c hdr : Nat) (f : WorkList → WorkList) : (s.modList c hdr f).spw = s.spw := rfl
@[simp] theorem modList_objs (s : State) (c hdr : Nat) (f : WorkList → WorkList) : (s.modList c hdr f).objs = s.objs := rfl
@[simp] theorem modList_flt (s : State) (c hdr : Nat) (f : WorkList → WorkList) : (s.modList c hdr f).flt = s.flt := rfl
@[simp] theorem modList_rip (s : State) (c hdr : Nat) (f : WorkList → WorkList) : (s.modList c hdr f).rip = s.rip := rfl
@[simp] theorem modList_cvu (s : State) (c hdr : Nat) (f : WorkList → WorkList) : (s.modList c hdr f).cvu = s.cvu := rfl
@[simp] theorem modList_jvk (s : State) (c hdr : Nat) (f : WorkList → WorkList) : (s.modList c hdr f).jvk = s.jvk := rfl
@[simp] theorem modList_hif (s : State) (c hdr : Nat) (f : WorkList → WorkList) : (s.modList c hdr f).hif = s.hif := rfl
@[simp] theorem modList_atnLists (s : State) (c hdr : Nat) (f : WorkList → WorkList) : (s.modList c hdr f).atnLists = s.atnLists := rfl
@[simp] theorem modList_cores (s : State) (c hdr : Nat) (f : WorkList → WorkList) : (s.modList c hdr f).cores = s.cores := rfl
@[simp] theorem modList_atns (s : State) (c hdr : Nat) (f : WorkList → WorkList) : (s.modList c hdr f).atns = s.atns := rfl
@[simp] theorem modList_epochs (s : State) (c hdr : Nat) (f : WorkList → WorkList) : (s.modList c hdr f).epochs = s.epochs := rfl
@[simp] theorem modList_debug (s : State) (c hdr : Nat) (f : WorkList → WorkList) : (s.modList c hdr f).debug = s.debug := rfl
@[simp] theorem modList_stopped (s : State) (c hdr : Nat) (f : WorkList → WorkList) : (s.modList c hdr f).stopped = s.stopped := rfl
@[simp] theorem modList_pstate (s : State) (c hdr : Nat) (f : WorkList → WorkList) : (s.modList c hdr f).pstate = s.pstate := rfl
@[simp] theorem modList_arrival (s : State) (c hdr : Nat) (f : WorkList → WorkList) : (s.modList c hdr f).arrival = s.arrival := rfl
@[simp] theorem modList_streams (s : State) (c hdr : Nat) (f : WorkList → WorkList) : (s.modList c hdr f).streams = s.streams := rfl
@[simp] theorem modList_ready (s : State) (c hdr : Nat) (f : WorkList → WorkList) : (s.modList c hdr f).ready = s.ready := rfl
@[simp] theorem modList_strm (s : State) (c hdr : Nat) (f : WorkList → WorkList) : (s.modList c hdr f).strm = s.strm := rfl
@[simp] theorem modList_seq (s : State) (c hdr : Nat) (f : WorkList → WorkList) : (s.modList c hdr f).seq = s.seq := rfl
@[simp] theorem modList_shoalQ (s : State) (c hdr : Nat) (f : WorkList → WorkList) : (s.modList c hdr f).shoalQ = s.shoalQ := rfl
@[simp] theorem modList_routers (s : State) (c hdr : Nat) (f : WorkList → WorkList) : (s.modList c hdr f).routers = s.routers := rfl
@[simp] theorem modList_bsn (s : State) (c hdr : Nat) (f : WorkList → WorkList) : (s.modList c hdr f).bsn = s.bsn := rfl
@[simp] theorem modList_lnk (s : State) (c hdr : Nat) (f : WorkList → WorkList) : (s.modList c hdr f).lnk = s.lnk := rfl
@[simp] theorem modList_inl (s : State) (c hdr : Nat) (f : WorkList → WorkList) : (s.modList c hdr f).inl = s.inl := rfl
@[simp] theorem modList_gau (s : State) (c hdr : Nat) (f : WorkList → WorkList) : (s.modList c hdr f).gau = s.gau := rfl
@[simp] theorem modList_weir (s : State) (c hdr : Nat) (f : WorkList → WorkList) : (s.modList c hdr f).weir = s.weir := rfl
@[simp] theorem modList_wh (s : State) (c hdr : Nat) (f : WorkList → WorkList) : (s.modList c hdr f).wh = s.wh := rfl
@[simp] theorem modList_i3cDyn (s : State) (c hdr : Nat) (f : WorkList → WorkList) : (s.modList c hdr f).i3cDyn = s.i3cDyn := rfl

/-! ### modAtn -/

@[simp] theorem modAtn_pending (s : State) (c hdr : Nat) (f : WorkList → WorkList) : (s.modAtn c hdr f).pending = s.pending := rfl
@[simp] theorem modAtn_fuses (s : State) (c hdr : Nat) (f : WorkList → WorkList) : (s.modAtn c hdr f).fuses = s.fuses := rfl
@[simp] theorem modAtn_tick (s : State) (c hdr : Nat) (f : WorkList → WorkList) : (s.modAtn c hdr f).tick = s.tick := rfl
@[simp] theorem modAtn_regs (s : State) (c hdr : Nat) (f : WorkList → WorkList) : (s.modAtn c hdr f).regs = s.regs := rfl
@[simp] theorem modAtn_ctrs (s : State) (c hdr : Nat) (f : WorkList → WorkList) : (s.modAtn c hdr f).ctrs = s.ctrs := rfl
@[simp] theorem modAtn_flags (s : State) (c hdr : Nat) (f : WorkList → WorkList) : (s.modAtn c hdr f).flags = s.flags := rfl
@[simp] theorem modAtn_draws (s : State) (c hdr : Nat) (f : WorkList → WorkList) : (s.modAtn c hdr f).draws = s.draws := rfl
@[simp] theorem modAtn_out (s : State) (c hdr : Nat) (f : WorkList → WorkList) : (s.modAtn c hdr f).out = s.out := rfl
@[simp] theorem modAtn_arbs (s : State) (c hdr : Nat) (f : WorkList → WorkList) : (s.modAtn c hdr f).arbs = s.arbs := rfl
@[simp] theorem modAtn_mem (s : State) (c hdr : Nat) (f : WorkList → WorkList) : (s.modAtn c hdr f).mem = s.mem := rfl
@[simp] theorem modAtn_hbm (s : State) (c hdr : Nat) (f : WorkList → WorkList) : (s.modAtn c hdr f).hbm = s.hbm := rfl
@[simp] theorem modAtn_dtu (s : State) (c hdr : Nat) (f : WorkList → WorkList) : (s.modAtn c hdr f).dtu = s.dtu := rfl
@[simp] theorem modAtn_spw (s : State) (c hdr : Nat) (f : WorkList → WorkList) : (s.modAtn c hdr f).spw = s.spw := rfl
@[simp] theorem modAtn_objs (s : State) (c hdr : Nat) (f : WorkList → WorkList) : (s.modAtn c hdr f).objs = s.objs := rfl
@[simp] theorem modAtn_flt (s : State) (c hdr : Nat) (f : WorkList → WorkList) : (s.modAtn c hdr f).flt = s.flt := rfl
@[simp] theorem modAtn_rip (s : State) (c hdr : Nat) (f : WorkList → WorkList) : (s.modAtn c hdr f).rip = s.rip := rfl
@[simp] theorem modAtn_cvu (s : State) (c hdr : Nat) (f : WorkList → WorkList) : (s.modAtn c hdr f).cvu = s.cvu := rfl
@[simp] theorem modAtn_jvk (s : State) (c hdr : Nat) (f : WorkList → WorkList) : (s.modAtn c hdr f).jvk = s.jvk := rfl
@[simp] theorem modAtn_hif (s : State) (c hdr : Nat) (f : WorkList → WorkList) : (s.modAtn c hdr f).hif = s.hif := rfl
@[simp] theorem modAtn_ponds (s : State) (c hdr : Nat) (f : WorkList → WorkList) : (s.modAtn c hdr f).ponds = s.ponds := rfl
@[simp] theorem modAtn_cores (s : State) (c hdr : Nat) (f : WorkList → WorkList) : (s.modAtn c hdr f).cores = s.cores := rfl
@[simp] theorem modAtn_atns (s : State) (c hdr : Nat) (f : WorkList → WorkList) : (s.modAtn c hdr f).atns = s.atns := rfl
@[simp] theorem modAtn_epochs (s : State) (c hdr : Nat) (f : WorkList → WorkList) : (s.modAtn c hdr f).epochs = s.epochs := rfl
@[simp] theorem modAtn_debug (s : State) (c hdr : Nat) (f : WorkList → WorkList) : (s.modAtn c hdr f).debug = s.debug := rfl
@[simp] theorem modAtn_stopped (s : State) (c hdr : Nat) (f : WorkList → WorkList) : (s.modAtn c hdr f).stopped = s.stopped := rfl
@[simp] theorem modAtn_pstate (s : State) (c hdr : Nat) (f : WorkList → WorkList) : (s.modAtn c hdr f).pstate = s.pstate := rfl
@[simp] theorem modAtn_arrival (s : State) (c hdr : Nat) (f : WorkList → WorkList) : (s.modAtn c hdr f).arrival = s.arrival := rfl
@[simp] theorem modAtn_streams (s : State) (c hdr : Nat) (f : WorkList → WorkList) : (s.modAtn c hdr f).streams = s.streams := rfl
@[simp] theorem modAtn_ready (s : State) (c hdr : Nat) (f : WorkList → WorkList) : (s.modAtn c hdr f).ready = s.ready := rfl
@[simp] theorem modAtn_strm (s : State) (c hdr : Nat) (f : WorkList → WorkList) : (s.modAtn c hdr f).strm = s.strm := rfl
@[simp] theorem modAtn_seq (s : State) (c hdr : Nat) (f : WorkList → WorkList) : (s.modAtn c hdr f).seq = s.seq := rfl
@[simp] theorem modAtn_shoalQ (s : State) (c hdr : Nat) (f : WorkList → WorkList) : (s.modAtn c hdr f).shoalQ = s.shoalQ := rfl
@[simp] theorem modAtn_routers (s : State) (c hdr : Nat) (f : WorkList → WorkList) : (s.modAtn c hdr f).routers = s.routers := rfl
@[simp] theorem modAtn_bsn (s : State) (c hdr : Nat) (f : WorkList → WorkList) : (s.modAtn c hdr f).bsn = s.bsn := rfl
@[simp] theorem modAtn_lnk (s : State) (c hdr : Nat) (f : WorkList → WorkList) : (s.modAtn c hdr f).lnk = s.lnk := rfl
@[simp] theorem modAtn_inl (s : State) (c hdr : Nat) (f : WorkList → WorkList) : (s.modAtn c hdr f).inl = s.inl := rfl
@[simp] theorem modAtn_gau (s : State) (c hdr : Nat) (f : WorkList → WorkList) : (s.modAtn c hdr f).gau = s.gau := rfl
@[simp] theorem modAtn_weir (s : State) (c hdr : Nat) (f : WorkList → WorkList) : (s.modAtn c hdr f).weir = s.weir := rfl
@[simp] theorem modAtn_wh (s : State) (c hdr : Nat) (f : WorkList → WorkList) : (s.modAtn c hdr f).wh = s.wh := rfl
@[simp] theorem modAtn_i3cDyn (s : State) (c hdr : Nat) (f : WorkList → WorkList) : (s.modAtn c hdr f).i3cDyn = s.i3cDyn := rfl

/-! ### modRefetch -/

@[simp] theorem modRefetch_pending (s : State) (f : List Refetch → List Refetch) : (s.modRefetch f).pending = s.pending := rfl
@[simp] theorem modRefetch_fuses (s : State) (f : List Refetch → List Refetch) : (s.modRefetch f).fuses = s.fuses := rfl
@[simp] theorem modRefetch_tick (s : State) (f : List Refetch → List Refetch) : (s.modRefetch f).tick = s.tick := rfl
@[simp] theorem modRefetch_regs (s : State) (f : List Refetch → List Refetch) : (s.modRefetch f).regs = s.regs := rfl
@[simp] theorem modRefetch_ctrs (s : State) (f : List Refetch → List Refetch) : (s.modRefetch f).ctrs = s.ctrs := rfl
@[simp] theorem modRefetch_flags (s : State) (f : List Refetch → List Refetch) : (s.modRefetch f).flags = s.flags := rfl
@[simp] theorem modRefetch_draws (s : State) (f : List Refetch → List Refetch) : (s.modRefetch f).draws = s.draws := rfl
@[simp] theorem modRefetch_out (s : State) (f : List Refetch → List Refetch) : (s.modRefetch f).out = s.out := rfl
@[simp] theorem modRefetch_arbs (s : State) (f : List Refetch → List Refetch) : (s.modRefetch f).arbs = s.arbs := rfl
@[simp] theorem modRefetch_mem (s : State) (f : List Refetch → List Refetch) : (s.modRefetch f).mem = s.mem := rfl
@[simp] theorem modRefetch_hbm (s : State) (f : List Refetch → List Refetch) : (s.modRefetch f).hbm = s.hbm := rfl
@[simp] theorem modRefetch_dtu (s : State) (f : List Refetch → List Refetch) : (s.modRefetch f).dtu = s.dtu := rfl
@[simp] theorem modRefetch_spw (s : State) (f : List Refetch → List Refetch) : (s.modRefetch f).spw = s.spw := rfl
@[simp] theorem modRefetch_objs (s : State) (f : List Refetch → List Refetch) : (s.modRefetch f).objs = s.objs := rfl
@[simp] theorem modRefetch_flt (s : State) (f : List Refetch → List Refetch) : (s.modRefetch f).flt = { s.flt with refetch := f s.flt.refetch } := rfl
@[simp] theorem modRefetch_rip (s : State) (f : List Refetch → List Refetch) : (s.modRefetch f).rip = s.rip := rfl
@[simp] theorem modRefetch_cvu (s : State) (f : List Refetch → List Refetch) : (s.modRefetch f).cvu = s.cvu := rfl
@[simp] theorem modRefetch_jvk (s : State) (f : List Refetch → List Refetch) : (s.modRefetch f).jvk = s.jvk := rfl
@[simp] theorem modRefetch_hif (s : State) (f : List Refetch → List Refetch) : (s.modRefetch f).hif = s.hif := rfl
@[simp] theorem modRefetch_ponds (s : State) (f : List Refetch → List Refetch) : (s.modRefetch f).ponds = s.ponds := rfl
@[simp] theorem modRefetch_atnLists (s : State) (f : List Refetch → List Refetch) : (s.modRefetch f).atnLists = s.atnLists := rfl
@[simp] theorem modRefetch_cores (s : State) (f : List Refetch → List Refetch) : (s.modRefetch f).cores = s.cores := rfl
@[simp] theorem modRefetch_atns (s : State) (f : List Refetch → List Refetch) : (s.modRefetch f).atns = s.atns := rfl
@[simp] theorem modRefetch_epochs (s : State) (f : List Refetch → List Refetch) : (s.modRefetch f).epochs = s.epochs := rfl
@[simp] theorem modRefetch_debug (s : State) (f : List Refetch → List Refetch) : (s.modRefetch f).debug = s.debug := rfl
@[simp] theorem modRefetch_stopped (s : State) (f : List Refetch → List Refetch) : (s.modRefetch f).stopped = s.stopped := rfl
@[simp] theorem modRefetch_pstate (s : State) (f : List Refetch → List Refetch) : (s.modRefetch f).pstate = s.pstate := rfl
@[simp] theorem modRefetch_arrival (s : State) (f : List Refetch → List Refetch) : (s.modRefetch f).arrival = s.arrival := rfl
@[simp] theorem modRefetch_streams (s : State) (f : List Refetch → List Refetch) : (s.modRefetch f).streams = s.streams := rfl
@[simp] theorem modRefetch_ready (s : State) (f : List Refetch → List Refetch) : (s.modRefetch f).ready = s.ready := rfl
@[simp] theorem modRefetch_strm (s : State) (f : List Refetch → List Refetch) : (s.modRefetch f).strm = s.strm := rfl
@[simp] theorem modRefetch_seq (s : State) (f : List Refetch → List Refetch) : (s.modRefetch f).seq = s.seq := rfl
@[simp] theorem modRefetch_shoalQ (s : State) (f : List Refetch → List Refetch) : (s.modRefetch f).shoalQ = s.shoalQ := rfl
@[simp] theorem modRefetch_routers (s : State) (f : List Refetch → List Refetch) : (s.modRefetch f).routers = s.routers := rfl
@[simp] theorem modRefetch_bsn (s : State) (f : List Refetch → List Refetch) : (s.modRefetch f).bsn = s.bsn := rfl
@[simp] theorem modRefetch_lnk (s : State) (f : List Refetch → List Refetch) : (s.modRefetch f).lnk = s.lnk := rfl
@[simp] theorem modRefetch_inl (s : State) (f : List Refetch → List Refetch) : (s.modRefetch f).inl = s.inl := rfl
@[simp] theorem modRefetch_gau (s : State) (f : List Refetch → List Refetch) : (s.modRefetch f).gau = s.gau := rfl
@[simp] theorem modRefetch_weir (s : State) (f : List Refetch → List Refetch) : (s.modRefetch f).weir = s.weir := rfl
@[simp] theorem modRefetch_wh (s : State) (f : List Refetch → List Refetch) : (s.modRefetch f).wh = s.wh := rfl
@[simp] theorem modRefetch_i3cDyn (s : State) (f : List Refetch → List Refetch) : (s.modRefetch f).i3cDyn = s.i3cDyn := rfl

end Sys2Proof.Laws
end

