-- ==== Sys2Proof/Laws/Tables.lean ====
section
/-! SUPPORT. Sys2Proof/Laws/Tables.lean: what the operations on sparse tables and on vectors do: a key read after a write
of it gives the value written, every other key is left alone, and the canonical form is kept. -/
namespace Sys2Proof.Laws
open Sys2Proof Sys2Proof.Machine

section
variable {α : Type} (d : α)

theorem get_erase_self (m : SMap α) (a : Nat) : SMap.get d (SMap.erase m a) a = d := by
  induction m with
  | nil => rfl
  | cons p m ih =>
    obtain ⟨k, w⟩ := p
    unfold SMap.erase at ih ⊢
    by_cases h : k = a <;> simp_all [SMap.get]

theorem get_erase_ne (m : SMap α) (a b : Nat) (h : b ≠ a) : SMap.get d (SMap.erase m a) b = SMap.get d m b := by
  induction m with
  | nil => rfl
  | cons p m ih =>
    obtain ⟨k, w⟩ := p
    unfold SMap.erase at ih ⊢
    by_cases hk : k = a
    · simp_all [SMap.get]
      omega
    · simp_all [SMap.get]

theorem get_insert_self (m : SMap α) (a : Nat) (v : α) : SMap.get d (SMap.insert m a v) a = v := by
  induction m with
  | nil => simp [SMap.insert, SMap.get]
  | cons p m ih =>
    obtain ⟨k, w⟩ := p
    unfold SMap.insert
    split
    · simp [SMap.get]
    · split
      · simp [SMap.get]
      · have : k ≠ a := by omega
        simp [SMap.get, this, ih]

theorem get_insert_ne (m : SMap α) (a b : Nat) (v : α) (h : b ≠ a) : SMap.get d (SMap.insert m a v) b = SMap.get d m b := by
  have h' : a ≠ b := Ne.symm h
  induction m with
  | nil => simp [SMap.insert, SMap.get, h']
  | cons p m ih =>
    obtain ⟨k, w⟩ := p
    unfold SMap.insert
    split
    · simp [SMap.get, h']
    · split
      · rename_i hk
        subst hk
        simp [SMap.get, h']
      · simp [SMap.get, ih]

variable [DecidableEq α]

/-- A key that was written reads as what was written. -/
@[simp] theorem get_put_self (m : SMap α) (a : Nat) (v : α) : SMap.get d (SMap.put d m a v) a = v := by
  unfold SMap.put
  split
  · rename_i h
    rw [get_erase_self, h]
  · exact get_insert_self d m a v

/-- Every other key reads as before. -/
theorem get_put_ne (e : α) (m : SMap α) (a b : Nat) (v : α) (h : b ≠ a) : SMap.get e (SMap.put d m a v) b = SMap.get e m b := by
  unfold SMap.put
  split
  · exact get_erase_ne e m a b h
  · exact get_insert_ne e m a b v h

@[simp] theorem get_upd_self (m : SMap α) (a : Nat) (f : α → α) : SMap.get d (SMap.upd d m a f) a = f (SMap.get d m a) :=
  get_put_self d m a _

theorem get_upd_ne (m : SMap α) (a b : Nat) (f : α → α) (h : b ≠ a) : SMap.get d (SMap.upd d m a f) b = SMap.get d m b :=
  get_put_ne d d m a b _ h

/-! ### The canonical form -/

theorem wfFrom_mono (m : SMap α) (lo hi : Nat) (h : lo ≤ hi) (hm : SMap.wfFrom d hi m = true) : SMap.wfFrom d lo m = true := by
  cases m with
  | nil => rfl
  | cons p m =>
    obtain ⟨k, w⟩ := p
    simp only [SMap.wfFrom, Bool.and_eq_true, decide_eq_true_eq] at hm ⊢
    exact ⟨⟨by omega, hm.1.2⟩, hm.2⟩

theorem wfFrom_filter (p : Nat × α → Bool) (m : SMap α) (lo : Nat) (hm : SMap.wfFrom d lo m = true) :
    SMap.wfFrom d lo (m.filter p) = true := by
  induction m generalizing lo with
  | nil => rfl
  | cons q m ih =>
    obtain ⟨k, w⟩ := q
    simp only [SMap.wfFrom, Bool.and_eq_true, decide_eq_true_eq] at hm
    by_cases hp : p (k, w) = true
    · rw [List.filter_cons_of_pos hp]
      simp only [SMap.wfFrom, Bool.and_eq_true, decide_eq_true_eq]
      exact ⟨hm.1, ih _ hm.2⟩
    · rw [List.filter_cons_of_neg hp]
      exact wfFrom_mono d _ _ _ (by omega) (ih _ hm.2)

theorem wfFrom_insert (m : SMap α) (lo a : Nat) (v : α) (ha : lo ≤ a) (hv : v ≠ d) (hm : SMap.wfFrom d lo m = true) :
    SMap.wfFrom d lo (SMap.insert m a v) = true := by
  induction m generalizing lo with
  | nil => simp [SMap.insert, SMap.wfFrom, ha, hv]
  | cons q m ih =>
    obtain ⟨k, w⟩ := q
    simp only [SMap.wfFrom, Bool.and_eq_true, decide_eq_true_eq] at hm
    unfold SMap.insert
    split
    · simp only [SMap.wfFrom, Bool.and_eq_true, decide_eq_true_eq]
      exact ⟨⟨ha, hv⟩, ⟨by omega, hm.1.2⟩, hm.2⟩
    · split
      · rename_i _ hk
        subst hk
        simp only [SMap.wfFrom, Bool.and_eq_true, decide_eq_true_eq]
        exact ⟨⟨ha, hv⟩, hm.2⟩
      · simp only [SMap.wfFrom, Bool.and_eq_true, decide_eq_true_eq]
        exact ⟨hm.1, ih (k + 1) (by omega) hm.2⟩

/-- A write keeps the canonical form. -/
theorem wf_put (m : SMap α) (a : Nat) (v : α) (hm : SMap.wf d m = true) : SMap.wf d (SMap.put d m a v) = true := by
  unfold SMap.wf SMap.put at *
  split
  · exact wfFrom_filter d _ m 0 hm
  · rename_i hv
    exact wfFrom_insert d m 0 a v (Nat.zero_le _) hv hm

theorem wf_upd (m : SMap α) (a : Nat) (f : α → α) (hm : SMap.wf d m = true) : SMap.wf d (SMap.upd d m a f) = true :=
  wf_put d m a _ hm

theorem wf_filter (p : Nat → α → Bool) (m : SMap α) (hm : SMap.wf d m = true) : SMap.wf d (SMap.filter p m) = true :=
  wfFrom_filter d _ m 0 hm

theorem wf_mapAll (f : Nat → α → α) (m : SMap α) (lo : Nat) (hm : SMap.wfFrom d lo m = true) :
    SMap.wfFrom d lo (SMap.mapAll d f m) = true := by
  induction m generalizing lo with
  | nil => rfl
  | cons q m ih =>
    obtain ⟨k, w⟩ := q
    simp only [SMap.wfFrom, Bool.and_eq_true, decide_eq_true_eq] at hm
    unfold SMap.mapAll
    split
    · exact wfFrom_mono d _ _ _ (by omega) (ih _ hm.2)
    · rename_i h
      simp only [SMap.wfFrom, Bool.and_eq_true, decide_eq_true_eq]
      exact ⟨⟨hm.1.1, h⟩, ih _ hm.2⟩

end

/-! ### Vectors -/

section
variable {α : Type} {n : Nat}

@[simp] theorem vget_vmod_self (e : α) (v : Vector α n) (i : Nat) (f : α → α) (h : i < n) : vget e (vmod v i f) i = f (vget e v i) := by
  simp [vget, vmod, h]

@[simp] theorem vget_vmod_ne (e : α) (v : Vector α n) (i j : Nat) (f : α → α) (h : j ≠ i) : vget e (vmod v i f) j = vget e v j := by
  unfold vget vmod
  split
  · split
    · exact Vector.getElem_set_ne _ _ (Ne.symm h)
    · rfl
  · rfl

end

end Sys2Proof.Laws
end

