-- ==== Sys2Proof/Laws/Ops.lean ====
section
/-! SUPPORT. Sys2Proof/Laws/Ops.lean: what the shared operations of Sys2Proof/Machine/Ops.lean can do, said once: an event, a
vector, a fault log entry, a Ripple occurrence, an arrival counter change the fields named here and no other. -/
namespace Sys2Proof.Laws
open Sys2Proof Sys2Proof.Machine

/-- Nothing but counters, write-one-to-clear bits, the host interface and what leaves the package differs. -/
def Signals (s t : State) : Prop := t = { s with ctrs := t.ctrs, flags := t.flags, hif := t.hif, out := t.out }

theorem Signals.refl (s : State) : Signals s s := rfl

theorem Signals.trans {s t u : State} (h : Signals s t) (k : Signals t u) : Signals s u := Eq.trans k (by rw [h])

theorem Signals.foldl {α : Type} (f : State → α → State) (hf : ∀ s x, Signals s (f s x)) (l : List α) (s : State) : Signals s (l.foldl f s) := by
  induction l generalizing s with
  | nil => exact .refl s
  | cons x l ih => exact (hf s x).trans (ih _)

theorem signals_bump (s : State) (o n : Nat) : Signals s (s.bump o n) := rfl
theorem signals_emit (s : State) (o : Out) : Signals s (s.emit o) := rfl
theorem signals_setFlags (s : State) (o : Nat) (w : Word) : Signals s (s.setFlags o w) := rfl

theorem signals_raise (s : State) (fn vec : Nat) : Signals s (s.raise fn vec) := by
  unfold State.raise
  dsimp only
  split; · rfl
  split; · rfl
  split <;> rfl

theorem signals_raiseCove (s : State) (c k : Nat) : Signals s (s.raiseCove c k) := (signals_raise _ _ _).trans (signals_raise _ _ _)

theorem signals_flushVectors (s : State) (fn : Nat) : Signals s (s.flushVectors fn) := by
  unfold State.flushVectors
  dsimp only
  split
  · rfl
  · exact .foldl _ (fun _ _ => by exact rfl) _ _

theorem signals_event (s : State) (o i vec : Nat) : Signals s (s.event o i vec) := (signals_setFlags _ _ _).trans (signals_raise _ _ _)
theorem signals_hifEvent (s : State) (i : Nat) : Signals s (s.hifEvent i) := signals_event ..
theorem signals_memEvent (s : State) (i : Nat) : Signals s (s.memEvent i) := signals_event ..
theorem signals_fltEvent (s : State) (i : Nat) : Signals s (s.fltEvent i) := signals_event ..
theorem signals_ripEvent (s : State) (i : Nat) : Signals s (s.ripEvent i) := signals_event ..
theorem signals_whEvent (s : State) (i : Nat) : Signals s (s.whEvent i) := signals_event ..
theorem signals_queueFlag (s : State) (c o i : Nat) : Signals s (s.queueFlag c o i) := (signals_setFlags _ _ _).trans (signals_raiseCove _ _ _)
theorem signals_barError (s : State) : Signals s s.barError := (signals_bump _ _ _).trans (signals_hifEvent _ _)

theorem signals_undeclared (s : State) (res act : Nat) : Signals s (s.undeclared res act) := by
  unfold State.undeclared
  split <;> rfl

/-- A charge changes what its part of the resource has used, and counts an undeclared activity. -/
theorem charge_frame (s : State) (res sub act n : Nat) :
    s.charge res sub act n = { s with arbs := (s.charge res sub act n).arbs, ctrs := (s.charge res sub act n).ctrs } := by
  unfold State.charge State.undeclared
  split <;> rfl

theorem signals_evalWatch (s : State) (w : Nat) : Signals s (s.evalWatch w) := by
  unfold State.evalWatch
  dsimp only
  split
  · exact Signals.trans (by exact rfl) (signals_raise _ _ _)
  · rfl

theorem signals_evalWatches (s : State) (i : Nat) : Signals s (s.evalWatches i) := .foldl _ (fun _ _ => signals_evalWatch _ _) _ _

/-- An arrival counter that rises: the counter, and what its watches signal. -/
theorem incArrival_frame (s : State) (i : Nat) :
    s.incArrival i = { s with arrival := SMap.put 0 s.arrival i (s.arr i + 1), ctrs := (s.incArrival i).ctrs, flags := (s.incArrival i).flags,
                              hif := (s.incArrival i).hif, out := (s.incArrival i).out } := signals_evalWatches _ _

theorem raise_ctr (s : State) (fn vec o : Nat) (h : o ≠ ctrMsixSent) : (s.raise fn vec).ctr o = s.ctr o := by
  unfold State.raise
  dsimp only
  split; · rfl
  split; · rfl
  split; · rfl
  simp [State.ctr, State.bump, State.emit, get_put_ne _ _ _ _ _ _ h]

theorem raise_flags (s : State) (fn vec : Nat) : (s.raise fn vec).flags = s.flags := by
  unfold State.raise
  dsimp only
  split; · rfl
  split; · rfl
  split <;> rfl

theorem bump_ctr_self (s : State) (o n : Nat) : (s.bump o n).ctr o = s.ctr o + BitVec.ofNat 64 n := by simp [State.bump, State.ctr]
theorem bump_ctr_ne (s : State) (o p n : Nat) (h : p ≠ o) : (s.bump o n).ctr p = s.ctr p := get_put_ne _ _ _ _ _ _ h

theorem event_ctr (s : State) (o i vec p : Nat) (h : p ≠ ctrMsixSent) : (s.event o i vec).ctr p = s.ctr p := raise_ctr _ _ _ _ h

/-- An event bit is set once the event has happened. -/
theorem event_bit (s : State) (o i vec : Nat) (h : i < 32) : (s.event o i vec).flagBit o i = true := by
  unfold State.event State.flagBit State.flag
  rw [raise_flags]
  have k : (BitVec.ofNat 32 (2 ^ i)).getLsbD i = true := by
    rw [BitVec.getLsbD_ofNat]; simp [h, Nat.testBit_two_pow_self]
  simp only [State.setFlags, get_put_self, setBit32]
  rw [BitVec.getLsbD_or, k, Bool.or_true]

/-- An event sets one bit and leaves every other register's bits. -/
theorem event_flag_ne (s : State) (o i vec p : Nat) (h : p ≠ o) : (s.event o i vec).flag p = s.flag p := by
  unfold State.event State.flag
  rw [raise_flags]
  exact get_put_ne _ _ _ _ _ _ h

/-- Nothing but signals and the fault log differs. -/
theorem faultLog_frame (s : State) (kind unit : Nat) (st : Status) (cove addr info : Nat) :
    s.faultLog kind unit st cove addr info =
      { s with flt := (s.faultLog kind unit st cove addr info).flt, ctrs := (s.faultLog kind unit st cove addr info).ctrs,
               flags := (s.faultLog kind unit st cove addr info).flags, hif := (s.faultLog kind unit st cove addr info).hif,
               out := (s.faultLog kind unit st cove addr info).out } := by
  unfold State.faultLog
  dsimp only
  split
  · rfl
  · rw [signals_fltEvent]

theorem noteStatus_frame (s : State) (c : Nat) (st : Status) : s.noteStatus c st = { s with flt := (s.noteStatus c st).flt } := by
  unfold State.noteStatus
  split <;> rfl

/-- Nothing but signals and the recorder differs. -/
def Records (s t : State) : Prop := t = { s with rip := t.rip, ctrs := t.ctrs, flags := t.flags, hif := t.hif, out := t.out }

theorem Records.refl (s : State) : Records s s := rfl
theorem Records.trans {s t u : State} (h : Records s t) (k : Records t u) : Records s u := Eq.trans k (by rw [h])
theorem Signals.records {s t : State} (h : Signals s t) : Records s t := Eq.trans h (by rw [h])

theorem records_ripNotify (s : State) (kind : Nat) : Records s (s.ripNotify kind) := by
  unfold State.ripNotify
  split
  · exact (signals_ripEvent _ _).records
  · rfl

theorem records_ripClose (s : State) : Records s s.ripClose := by
  unfold State.ripClose
  dsimp only
  split
  · generalize hu : State.ripNotify _ _ = u
    have h : Records s u := by
      rw [← hu, records_ripNotify]
      rfl
    exact h.trans rfl
  · rfl

theorem records_ripEnter (s : State) (r : RipRec) : Records s (s.ripEnter r) := by
  unfold State.ripEnter
  dsimp only
  repeat' split
  all_goals first
    | rfl
    | exact Records.trans (by exact rfl) (signals_ripEvent _ _).records

theorem records_ripple (s : State) (kind st cove key value : Nat) : Records s (s.ripple kind st cove key value) := by
  unfold State.ripple
  dsimp only
  repeat' split
  all_goals first
    | rfl
    | exact records_ripEnter _ _
    | exact Records.trans (by exact rfl) (records_ripNotify _ _)

/-- A write within a granule changes memory alone. -/
theorem writeGranule_frame (s : State) (code dpa : Nat) (bs : List Byte) :
    (s.writeGranule code dpa bs).1 = { s with mem := (s.writeGranule code dpa bs).1.mem } := by
  unfold State.writeGranule
  dsimp only
  repeat' split
  all_goals rfl

/-- What one key's erasure changes. -/
theorem eraseKey_frame (s : State) (i : Nat) :
    s.eraseKey i = { s with wh := { s.wh with keys := (s.eraseKey i).wh.keys }, inl := (s.eraseKey i).inl, ctrs := (s.eraseKey i).ctrs, flags := (s.eraseKey i).flags,
                            hif := (s.eraseKey i).hif, out := (s.eraseKey i).out } := by
  unfold State.eraseKey
  split
  · rfl
  · rw [signals_raise, signals_whEvent]; rfl

end Sys2Proof.Laws
end

