-- ==== Sys2Proof/Laws/Memory.lean ====
section
/-! SUPPORT. Sys2Proof/Laws/Memory.lean: every operation on memory keeps its canonical form, which memory has at reset; a byte
stored reads back, and a store leaves every other byte. -/
namespace Sys2Proof.Laws
open Sys2Proof Sys2Proof.Machine

theorem memory_wf_iff (m : Memory) :
    m.wf = true ↔ SMap.wf 0 m.bytes = true ∧ SMap.wf false m.poison = true ∧ SMap.wf 0 m.tag = true ∧ SMap.wf [] m.failed = true := by
  simp [Memory.wf, and_assoc]

theorem reset_memory_wf : State.reset.mem.wf = true := rfl

theorem store_keeps (m : Memory) (dpa : Nat) (bs : List Byte) : m.store dpa bs = { m with bytes := (m.store dpa bs).bytes } := by
  induction bs generalizing m dpa with
  | nil => rfl
  | cons b bs ih => exact Eq.trans (ih _ _) rfl

theorem store_wf (m : Memory) (dpa : Nat) (bs : List Byte) (h : m.wf = true) : (m.store dpa bs).wf = true := by
  induction bs generalizing m dpa with
  | nil => exact h
  | cons b bs ih =>
    refine ih _ _ ?_
    rw [memory_wf_iff] at *
    exact ⟨wf_put _ _ _ _ h.1, h.2⟩

/-- A store changes no byte outside the bytes it stores. -/
theorem store_outside (m : Memory) (dpa a : Nat) (bs : List Byte) (h : a < dpa ∨ dpa + bs.length ≤ a) :
    SMap.get 0 (m.store dpa bs).bytes a = SMap.get 0 m.bytes a := by
  induction bs generalizing m dpa with
  | nil => rfl
  | cons b bs ih =>
    simp only [List.length_cons] at h
    exact (ih _ _ (by omega)).trans (get_put_ne _ _ _ _ _ _ (by omega))

/-- A stored byte reads back. -/
theorem store_inside (m : Memory) (dpa i : Nat) (bs : List Byte) (h : i < bs.length) :
    SMap.get 0 (m.store dpa bs).bytes (dpa + i) = bs[i] := by
  induction bs generalizing m dpa i with
  | nil => exact absurd h (Nat.not_lt_zero _)
  | cons b bs ih =>
    cases i with
    | zero => exact (store_outside { m with bytes := SMap.put 0 m.bytes dpa b } (dpa + 1) _ bs (by omega)).trans (get_put_self _ _ _ _)
    | succ i =>
      have := ih { m with bytes := SMap.put 0 m.bytes dpa b } (dpa + 1) i (by simpa using h)
      rw [show dpa + (i + 1) = dpa + 1 + i by omega]
      simpa [Memory.store] using this

theorem writeGranule_wf (s : State) (code dpa : Nat) (bs : List Byte) (h : s.mem.wf = true) : (s.writeGranule code dpa bs).1.mem.wf = true := by
  unfold State.writeGranule
  have k (a : Nat) (x : List Byte) := (memory_wf_iff _).1 (store_wf s.mem a x h)
  dsimp only
  split
  · exact (memory_wf_iff _).2 ⟨(k _ _).1, (k _ _).2.1, wf_put _ _ _ _ (k _ _).2.2.1, (k _ _).2.2.2⟩
  split
  · exact store_wf _ _ _ h
  split
  · exact (memory_wf_iff _).2 ⟨(k _ _).1, wf_put false (s.mem.store dpa bs).poison (dpa / 64) false (k _ _).2.1, wf_put _ _ _ _ (k _ _).2.2.1, wf_put [] (s.mem.store dpa bs).failed (dpa / 64) [] (k _ _).2.2.2⟩
  split
  · exact h
  · have j := (memory_wf_iff _).1 (store_wf _ dpa bs (store_wf s.mem (64 * (dpa / 64)) (s.bytesAt code (64 * (dpa / 64)) 64) h))
    exact (memory_wf_iff _).2 ⟨j.1, j.2.1, wf_put _ _ _ _ j.2.2.1, wf_put [] _ (dpa / 64) [] j.2.2.2⟩

end Sys2Proof.Laws
end

