-- ==== Sys2Proof/WellFormed.lean ====
section
/-! DEFINITION. Sys2Proof/WellFormed.lean: what a command that comes from outside can carry: fields within the widths of the
spec's tables, accesses within their BAR, readings of the parts that exist. The meanings are total and do not rest on it. -/
namespace Sys2Proof

/-- A write carries a byte or more, up to the largest Max Payload Size (1,024; spec/16_host_interface_and_reset.md). -/
def okWrite (data : List (Option Byte)) : Bool := decide (1 ≤ data.length) && decide (data.length ≤ 1024)

/-- An access is reported for failed symbols, each once and with a bit that flipped, or for errors corrected on-die
(R259). -/
def okCells (found : List CellFault) : Bool := found.all fun x =>
  decide (0 < x.flips.length + x.onDie) && decide (x.flips.map Prod.fst).Nodup && x.flips.all fun f => decide (f.2 ≠ 0)

/-- An adoption range lies within the 262,144 entries of the stream table (R211, R250), and so does every shadowed stream. -/
def okAdoption (a : Adoption) : Bool :=
  decide (a.first + a.count ≤ 262144) && a.streams.all fun x => decide (x.source < 262144)

/-- The link header holds a 24-bit LSN and ACK_LSN, and one of eight virtual lanes (Table 11.5, R396). -/
def okFrame (f : LinkFrame) : Bool := decide (f.lsn < 16777216) && decide (f.ackLsn < 16777216) && decide (f.vl < 8)

/-- A channel fails its training once (R280). -/
def noRepeat (l : List (Fin 384)) : Bool := decide l.Nodup

/-- A command carries what its rule lets it carry. -/
def Instr.wf : Instr → Bool
  | .registerWrite _ _ _ _ => true
  | .bar0BadAccess => true
  | .budgetPeriodBoundary _ => true
  | .stepBoundary _ adopt => adopt.all okAdoption
  | .bar4EntryWrite _ offset data _ => okWrite data && decide (offset.val + data.length ≤ 0x2000000)
  | .readyBitmapOr _ offset data _ => okWrite data && decide (offset.val + data.length ≤ 0x8000)
  | .seqCtrlWrite _ _ => true
  | .stepEntryComplete _ => true
  | .stepPostRetry _ => true
  | .stepWaitMet _ => true
  | .emit _ => true
  | .shadowCopyDone _ => true
  | .fallbackImportDone _ => true
  | .pondPost _ _ _ => true
  | .tileClaim _ => true
  | .tilePassEnd _ => true
  | .pondListComplete _ => true
  | .tileRestart _ => true
  | .listPost _ _ _ => true
  | .attentionUnitClaim _ => true
  | .attentionUnitEnd _ => true
  | .attnListComplete _ => true
  | .attentionUnitRestart _ => true
  | .shoalPost _ _ _ => true
  | .routeStart _ => true
  | .runCopyDone _ _ => true
  | .runReturnDone _ _ => true
  | .routeCombine _ => true
  | .receiveStart _ => true
  | .receiveRoundGather _ => true
  | .receiveRoundReturn _ => true
  | .shoalTimeout _ => true
  | .patrolScrubRead found => okCells found
  | .quarantineTest _ _ found => okCells found
  | .mapReq _ => true
  | .mapoutMoveStart => true
  | .mapoutMoveDone found => okCells found
  | .stackTempRead readings => decide (readings.length ≤ 12)
  | .dtuInval _ _ => true
  | .dtuInvalDone _ => true
  | .objectCas _ _ _ => true
  | .spillwayPageMove _ _ => true
  | .layerTransferStart _ => true
  | .layerTransferDone _ _ => true
  | .poisonRefetchStart => true
  | .refetchDone _ _ => true
  | .refetchFail _ _ _ => true
  | .loadPost _ _ _ => true
  | .loadTake _ => true
  | .loadComplete _ => true
  | .loadAbort _ _ => true
  | .loadCancel _ _ _ => true
  | .inletRefetchRerun _ => true
  | .ferryPost _ _ _ => true
  | .ferryStart _ => true
  | .chunkIncrement _ => true
  | .completionIncrement _ => true
  | .ferryEnd _ => true
  | .ferryCancel _ _ _ => true
  | .transactionAccept => true
  | .basinRequestArrive => true
  | .basinRequestApply _ _ => true
  | .responseArrive => true
  | .transactionTimeout _ => true
  | .arrivalCounterWrite _ _ _ _ => true
  | .sluiceGroupSend _ => true
  | .dataFrameReceive _ _ f _ _ => okFrame f
  | .nakReceive _ _ _ _ _ => true
  | .ackSendTimer _ _ => true
  | .replayTimer _ _ => true
  | .connectionFail _ _ => true
  | .resyncReq _ _ f _ => okFrame f
  | .resyncAck _ _ f _ => okFrame f
  | .resyncTimeout _ _ => true
  | .credit _ _ freed _ _ => decide (freed.length = 16)
  | .creditSendTimer _ _ => true
  | .keepalive _ _ => true
  | .ethConnectionSilence _ _ => true
  | .ident _ i _ => decide (i.blocks.length = 16) && decide (i.port < 36) && decide (i.inc < 65536)
  | .drainNotice _ _ _ _ => true
  | .portSignalLoss _ => true
  | .portSignalDetect _ => true
  | .portRetrainEntry _ => true
  | .portTrainingTimeout _ => true
  | .portRetrainTimeout _ => true
  | .portDownRetry _ => true
  | .moduleFlagPoll _ _ _ _ _ _ _ => true
  | .portReq _ => true
  | .gapSkip _ _ => true
  | .linkRekey _ _ => true
  | .gaugeSampleLatch _ _ => true
  | .ein bytes => decide (1 ≤ bytes.length)
  | .calStaleTimer => true
  | .houseMoveTick => true
  | .coarsePowerUpdate => true
  | .batchClose => true
  | .batchRooted => true
  | .batchSigned => true
  | .recRelease _ _ => true
  | .batchRelease _ _ => true
  | .loopClosure _ => true
  | .weirMsTick => true
  | .i3cCap bytes => decide (1 ≤ bytes.length)
  | .capLvlAccept _ => true
  | .droopTrip _ _ => true
  | .droopRecover _ _ => true
  | .thermtrip => true
  | .coolantFail => true
  | .trimRun _ _ => true
  | .pstateReqP0 => true
  | .pstateReqP2 => true
  | .pstateReqP3 => true
  | .pstateReqP4 => true
  | .pstateReqRefused _ => true
  | .p1Entry => true
  | .p1Exit => true
  | .getVersion _ => true
  | .getCapabilities _ => true
  | .negotiateAlgorithms _ _ => true
  | .getDigests _ => true
  | .getCertificate _ _ _ _ => true
  | .challenge _ _ => true
  | .getMeasurements _ _ _ => true
  | .keyExchange _ _ _ => true
  | .finish _ _ _ _ => true
  | .keyUpdate _ _ => true
  | .heartbeat _ _ => true
  | .endSession _ _ => true
  | .getPqCert _ => true
  | .getPqSig _ => true
  | .pqFinish _ _ _ _ _ => true
  | .setAttested _ _ _ => true
  | .keyPut _ _ _ _ _ _ _ => true
  | .keyUsable _ => true
  | .keyErase _ _ _ _ => true
  | .whKeyErase _ => true
  | .leaseEnd _ => true
  | .getNonce _ => true
  | .claim _ _ => true
  | .transfer _ _ _ => true
  | .debugSet _ _ _ => true
  | .debugEnter _ _ _ => true
  | .scrap _ _ => true
  | .keyProg _ _ _ => true
  | .kSetGo _ _ _ => true
  | .kSetStop _ _ _ => true
  | .aliasKeysReady => true
  | .stage => true
  | .commit => true
  | .commitPoint => true
  | .commitFlashDone => true
  | .discard => true
  | .saveDefault => true
  | .eraseDefault => true
  | .fwStage _ _ => true
  | .fwInstall => true
  | .jvkReservedCode _ => true
  | .bar2Read _ offset length _ => decide (1 ≤ length.val) && decide (offset.val + length.val ≤ 0x10000000000)
  | .bar2Write _ offset data _ => okWrite data && decide (offset.val + data.length ≤ 0x10000000000)
  | .watchCtrlWrite _ _ _ => true
  | .epochMarkWrite _ _ => true
  | .coldReset _ _ _ => true
  | .hbmTrained failed => noRepeat failed
  | .deepTrained _ => true
  | .defaultImageCommit => true
  | .warmReset => true
  | .deviceReset => true
  | .coveReset _ => true
  | .engineReset _ => true
  | .portReset _ => true
  | .resetReqRefused _ => true
  | .nodeLossTimer _ => true
  | .nodeLossRecord _ => true
  | .lossReq _ => true
  | .lossRestore _ => true
  | .lossRecordClose => true
  | .rippleRecordWrite => true
  | .rippleCloseTimer => true
  | .stepTimeHistogram => true
  | .cvuCtrlWrite _ _ _ => true
  | .cvuData8 _ _ _ => true
  | .cvuData16 _ _ _ => true
  | .cvuData32 _ _ _ => true
  | .cvuValueWrite _ _ _ _ => true
  | .pkgResetN _ _ => true
  | .refclkLoss => true
  | .railFault => true
  | .perst => true
  | .flr _ => true
  | .portRetrainDone _ => true
  | .resetDone => true
  | .pstateDone => true
  | .jvkCommandDone => true
  | .refclkReturn _ _ => true
  | .pfcReceive _ _ _ => true
  | .setdasa _ _ => true
  | .jtagInstruction _ => true
  | .msixUnmask _ _ _ _ => true
  | .lossTailWrite _ => true
  | .linkZComputed _ => true

end Sys2Proof
end

