-- ==== Sys2Proof/Tests/Slice0.lean ====
section
/-! SUPPORT. Sys2Proof/Tests/Slice0.lean: ill-formed commands that WellFormed.lean refuses, the spec's worked
examples, and for each statement with hypotheses a state and operands that meet them, clause by clause. -/
namespace Sys2Proof.Tests
open Sys2Proof Sys2Proof.Machine

-- One theorem after another: each is evaluated by the kernel, and many at once take many stacks.
set_option Elab.async false

/-! ### Each check of WellFormed.lean refuses an ill-formed command -/

theorem test_wf_write_empty : (Instr.bar2Write 0 0 [] false).wf = false := rfl
theorem test_wf_write_past_bar4 : (Instr.bar4EntryWrite 0 0x1FFFFFF [some 0, some 0] false).wf = false := by decide
theorem test_wf_or_past_alias : (Instr.readyBitmapOr 0 0x7FFF [some 0, some 0] false).wf = false := by decide
theorem test_wf_read_empty : (Instr.bar2Read 0 0 0 false).wf = false := by decide
theorem test_wf_cells : (Instr.patrolScrubRead [{ granule := 0 }]).wf = false := by decide
theorem test_wf_adoption : (Instr.stepBoundary 0 [⟨1, 262144, 1, []⟩]).wf = false := by decide
theorem test_wf_readings : (Instr.stackTempRead (List.replicate 13 none)).wf = false := by decide
theorem test_wf_frame : (Instr.resyncReq 0 0 ⟨16777216, 0, 0, 0, 0, 0, .control, 0, 0⟩ .good).wf = false := by decide
theorem test_wf_credit : (Instr.credit 0 0 [] 0 ⟨0, true⟩).wf = false := by decide
theorem test_wf_ident : (Instr.ident 0 ⟨0, 0, 0, 36, true, List.replicate 16 0, true, 0⟩ true).wf = false := by decide
theorem test_wf_training : (Instr.hbmTrained [0, 0]).wf = false := by decide
theorem test_wf_ein : (Instr.ein []).wf = false := by decide
theorem test_wf_cap : (Instr.i3cCap []).wf = false := by decide

/-! ### The spec's worked examples -/

/-- Chapter 02, the example of NB4-F: scale 0x30 and the eight codes (the block's other elements are smaller). -/
theorem test_nb4f_block :
    let q := quantBlock .nb4f (.fin false 1) (fun _ => .rne)
      [.fin false (285 / 100), .fin true (13 / 10), .fin false (6 / 10), .fin false (37 / 100), .fin false (175 / 100), .fin true (1 / 10),
        .fin false (125 / 1000), .fin true (22 / 10)]
    q.scale = 0x30 ∧ q.codes = [0x7, 0xD, 0x2, 0x1, 0x6, 0x0, 0x0, 0xE] := by decide +kernel

/-- Chapter 02: a largest magnitude of 3.9 under MXFP4 and under NB4-F. -/
theorem test_mxfp4_scale : (quantMX (fun _ => .rne) [.fin false (39 / 10)]).scale = 0x7E := by decide +kernel
theorem test_nb4f_scale : (quantNB .nb4f (.fin false 1) (fun _ => .rne) [.fin false (39 / 10)]).scale = 0x33 := by
  decide +kernel

/-- Chapter 02, R90: the automatic gain of a tile whose largest magnitude is 0.0012. -/
theorem test_auto_gain : autoGain .nb3 [.fin true (12 / 10000)] = .fin false (1 / 1048576) := by decide +kernel

/-- Chapter 07, the home of DPA 0x12_3456_7800: pseudo-channel 541, offset 0x611_7200. -/
theorem test_home : homeOf .f [] (0x1234567800 / 256) = (541, 0x6117200) := by decide +kernel

/-- Chapter 12: closing the MXC pool of the example: one µJ of residue, the fraction stays. -/
theorem test_close_pool :
    let s : State := { State.reset with gau := { State.reset.gau with acc := [(11, 61337 * guPerUj + 12)] } }
    let t := (s.closePool 1 0 [(40, 16000), (41, 16), (77, 16)] []).1
    t.gau.total = 61337 ∧ t.gau.residue = [0, 1, 0, 0, 0, 0, 0, 0] ∧ t.gau.acc = [(11, 12)] ∧
      t.sget 40 0x48 8 = 61214 := by decide +kernel

/-- FIPS 197, appendix C.3: AES-256 on the bytes 00, 11, … FF under the key 00, 01, … 1F, and back. -/
theorem test_aes256 :
    aesEnc (aesKeys ((List.range 32).map fun i => BitVec.ofNat 8 i)) ((List.range 16).map (17 * ·)) =
      [0x8E, 0xA2, 0xB7, 0xCA, 0x51, 0x67, 0x45, 0xBF, 0xEA, 0xFC, 0x49, 0x90, 0x4B, 0x49, 0x60, 0x89] := by decide +kernel
theorem test_aes256_back :
    aesDec (aesKeys ((List.range 32).map fun i => BitVec.ofNat 8 i))
      [0x8E, 0xA2, 0xB7, 0xCA, 0x51, 0x67, 0x45, 0xBF, 0xEA, 0xFC, 0x49, 0x90, 0x4B, 0x49, 0x60, 0x89] = (List.range 16).map (17 * ·) := by
  decide +kernel

/-- Chapter 18, Table 18.6: the check values of CRC-32 (also the FCS of Table 11.6) and of CRC-16 (also the h of chapter 11) over
the digits 1 to 9. -/
theorem test_crc32 : crc32 ((List.range 9).map fun i => BitVec.ofNat 8 (0x31 + i)) = 0xCBF43926 := by decide +kernel
theorem test_crc16 : crc16 ((List.range 9).map fun i => BitVec.ofNat 8 (0x31 + i)) = 0x29B1 := by decide +kernel

/-- R258, R259: an access divides by the generator; one failed symbol is corrected, two are not; poison is beyond correction. -/
theorem test_ecc_division :
    eccSyndromes (flipsOf ((accessSymbols ((List.range 64).map fun i => BitVec.ofNat 8 (7 * i + 3))).zipIdx.map fun x => (x.2, x.1))) = [0, 0, 0, 0] := by
  decide +kernel
theorem test_ecc_one : eccDecode (flipsOf [(41, 0x5A)]) = .one 41 0x5A := by decide +kernel
theorem test_ecc_two : eccDecode (flipsOf [(3, 1), (67, 0x80)]) = .bad := by decide +kernel
theorem test_ecc_poison : eccDecode poisonFlips = .bad := by decide +kernel

/-! ### Helper states of the witnesses -/

/-- The state after reset. -/
abbrev Z : State := State.reset

/-- Reset with an image in force. -/
def withImage (im : Image) : State := { Z with jvk := { Z.jvk with inForce := some im, boundNode := some 1 } }

/-- Cove 0 of the image of these witnesses: its page table lies at 0x10000 of HBM. -/
def wCove : CoveDecl :=
  { root := 0x10000, coreMask := 1, atnMask := 1, shoal := 3, ctrFirst := 0, ctrCount := 16, streamFirst := 0, streamCount := 16,
    hbmBytes := 0x400000, objCount := 16, objHbmPages := 16 }

/-- Its slot 0: a step program of two entries at 0x20000, and the layer schedule given. -/
def wSlot (sched : Schedule := {}) : SlotDecl := { stepProg := 0x20000, stepCount := 2, sched }

/-- A placement with one destination and one source, node 2, and one expert, which lies there. -/
def wPlacement : Placement :=
  { cove := 0, e := 1, capE := 1, rxSlots := 1, nlocal := 0, h := 1, xFmtw := 0, retFmtw := 0, regionBytes := 0, dests := [(2, 0, 0)],
    srcs := [(2, 0)], experts := [[some (0, 0)]] }

/-- An image with cove 0 and its slot 0, in which node 1 is this node and node 2 another; ports 0 and 2 are native ports to
node 2, port 4 an Ethernet port. -/
def imageOf (sched : Schedule := {}) : Image :=
  { coves := (Vector.replicate 8 none).set 0 (some wCove), slots := (Vector.replicate 64 none).set 0 (some (wSlot sched)),
    nodes := [⟨1, false, 0⟩, ⟨2, false, 0⟩], links := [(2, [])], placements := [(0, some wPlacement)], plainOk := 1,
    ports := [{ mode := 1, peerNode := 2 }, {}, { mode := 1, peerNode := 2 }, {}, { mode := 2 }] ++ List.replicate 31 {} }
def wImage : Image := imageOf

/-- Reset with that image in force. -/
def on : State := withImage wImage

/-- Consecutive bytes at an address, as entries of memory. -/
def placed (a : Nat) (bs : List Byte) : SMap Byte := (bs.zipIdx.map fun x => (a + x.2, x.1)).filter fun x => x.2 != 0

/-- With the first GiB of cove 0 mapped onto the first GiB of HBM and the second onto the East Mere, and bytes placed above
the table. -/
def mapped (s : State) (bs : SMap Byte) : State :=
  { s with mem := { s.mem with bytes := [(0x10000, 0x1B), (0x10001, 0x01), (0x10008, 0x1B), (0x10009, 0x01), (0x1000D, 0x01)] ++ bs } }

/-- A descriptor of 160 bytes with the fields given: offset, length and value. -/
def fields (l : List (Nat × Nat × Nat)) : List Byte := l.foldl (fun b x => patch b x.1 x.2.1 x.2.2) (List.replicate 160 0)

/-- The value of an access that succeeds, and the error of one that does not. -/
def okOf (x : Except AccErr (List Byte)) : List Byte := match x with | .ok b => b | .error _ => []
def errOf (x : Except AccErr (List Byte)) : AccErr := match x with | .ok _ => .objLost | .error e => e

/-- A Bar2 window register group: offset 0 to 0x1000, of the kind and the function given. -/
def windowed (s : State) (kind fn : Nat) : State :=
  { s with regs := [(blkHIF + 0x408, 0x1000), (blkHIF + 0x418, BitVec.ofNat 32 (kind + 256 * fn))] }

/-- A session of mailbox 0, opened, whose owner is the broker. -/
def brokerSession : Session := { fn := 0, opened := true, rsaMatch := true, broker := true }
def sessioned (s : State) (sec : SecState) (x : Session) : State :=
  { s with wh := { s.wh with sec := sec, sessions := [(0, some x)] } }

/-- A step of slot 0 that runs in cove 0, with the step program's bytes in memory. -/
def stepping (sched : Schedule) (bs : SMap Byte) (r : StepRun) : State :=
  { mapped (withImage (imageOf sched)) bs with seq := (Vector.replicate 8 {}).set 0 { run := some r } }
def wStep : StepRun := { slot := 0, start := 0, rows := 1 }

/-- The state in which an entry has been posted. -/
def postedOf (x : Posting) (s : State) : State := match x with
  | .posted u _ => u
  | _ => s

/-- Matrix core 0 and attention unit 0 with a run of theirs. -/
def wRun : TileRun :=
  { cove := 0, hdr := 0x40000000, pass := 0, descAddr := 0, desc := fields [], tile := 0, rung := 0xFF, early := none, waiting := none, lost := false }
def tiling (r : TileRun) : State :=
  { mapped on [] with cores := (Vector.replicate 128 none).set 0 (some r), atns := (Vector.replicate 32 none).set 0 (some r) }

/-- A list posted to cove 0 whose header is in the East Mere, with one entry at 0x30000. -/
def wList : WorkList := { hdr := 0x40000000, escalates := false, esc := 0, st := .done, descs := [(0, .done)], ended := false }
def listed : State :=
  { mapped on (placed 0x30010 [] ++ [(0x10000000008, 1), (0x10000000012, 3), (0x10000000018, 1)]) with
    ponds := (Vector.replicate 8 []).set 0 [wList], atnLists := (Vector.replicate 8 []).set 0 [wList] }

/-- The same list with its entry naming a descriptor at 0x31000. -/
def listedWith (d : List Byte) : State :=
  { mapped on (placed 0x30000 (leBytes 8 0x31000) ++ placed 0x31000 d ++ [(0x10000000008, 1), (0x10000000012, 3), (0x10000000018, 1)]) with
    ponds := (Vector.replicate 8 []).set 0 [wList], atnLists := (Vector.replicate 8 []).set 0 [wList] }

/-- A VECTOR descriptor of one element, and attention descriptors of one query, forward and backward: FLAGS as given. -/
def wVec (flags : Nat) : List Byte := fields [(0, 1, 2), (1, 1, flags), (3, 1, 1), (4, 4, 1), (8, 4, 1), (0x28, 4, 4), (0x2C, 4, 4), (0x30, 4, 4)]
def wAttn (flags splits : Nat) : List Byte :=
  fields [(0, 1, 0x11), (1, 1, flags), (3, 1, 1), (4, 2, 1), (6, 2, 1), (8, 2, 64), (0xA, 1, splits), (0xC, 4, 1), (0x18, 4, 1), (0x28, 4, 256),
    (0x2C, 4, 1), (0x50, 4, 256), (0x54, 4, 1), (0x60, 8, 0x100), (0x68, 4, 1), (0x6C, 4, 1), (0x88, 4, 256)]

/-- What a list of cove 0 hands to an engine: the state, the header's bytes, the entry's, the descriptor's, and the state
in which it has been read. -/
def claimed (s : State) (unit : Nat) (ls : List WorkList) : State := (s.claimFrom 0 unit 0 ls).1
def claimHdr (s : State) : List Byte := okOf (s.peek 0 0x40000000 64)
def claimEntry (u : State) : List Byte := okOf (u.peek 0 0x30000 16)
def claimDesc (u : State) (unit n : Nat) : List Byte := okOf ((u.touch 0 unit 0 0x30000 16).peek 0 (fld (claimEntry u) 0 8) n)
def claimRead (u : State) (unit n : Nat) : State := (u.touch 0 unit 0 0x30000 16).touch 0 unit 0 (fld (claimEntry u) 0 8) n

/-- What a computation that answers gives. -/
def outOf {α ε : Type} (x : Except ε (Option α)) (y : α) : α := match x with | .ok (some z) => z | _ => y
theorem outOf_eq {α ε : Type} {x : Except ε (Option α)} (y : α) (h : (match x with | .ok (some _) => true | _ => false) = true) :
    x = .ok (some (outOf x y)) := by
  match x, h with
  | .ok (some _), _ => rfl

/-- Attention unit 0 at work on a forward and on a backward unit, and what it computes: that no value of `exp2` is a number
(log 4) leaves the shape of its output to see. -/
def wFwd : State := tiling { wRun with desc := wAttn 0 1 }
def wFwdDesc : AttnDesc := (readAttnDesc 0 (wAttn 0 1)).get (by decide +kernel)
def wFwdRun : TileRun := { wRun with desc := wAttn 0 1 }
def wFwdOut : UnitOut := outOf (wFwd.runForward 0 (wAttn 0 1) wFwdDesc (wFwdRun.qFmt wFwdDesc) (wFwdRun.newFmt wFwdDesc) 0 0 0) ⟨[], 0, []⟩
def wFwdWrites : List (List (Nat × List Byte) × QEvents) := wFwdOut.rows.map fun y => rowWrites (wAttn 0 1) wFwdDesc 0 y.1 y.2
def wBack : List Byte := patch (patch (wAttn 0 1 ++ List.replicate 96 0) 0 1 0x12) 0xB0 4 256
def wBwd : State := tiling { wRun with desc := wBack }
def wBwdDesc : AttnDesc := (readAttnDesc 0 wBack).get (by decide +kernel)
def wBwdRun : TileRun := { wRun with desc := wBack }
def wBwdOut : BackOut := outOf (wBwd.runBackward 0 wBack wBwdDesc (wBwdRun.qFmt wBwdDesc) (wBwdRun.newFmt wBwdDesc) 0) ⟨[], 0, 0, 0, []⟩

/-- A list of cove 0 that has ended. -/
def ended : State :=
  { listed with ponds := (Vector.replicate 8 []).set 0 [{ wList with ended := true }], atnLists := (Vector.replicate 8 []).set 0 [{ wList with ended := true }] }

/-- A router of cove 0 with its descriptor at 0x28000, and at work. -/
def shoaled (d : List Byte) : State :=
  { mapped on (placed 0x28000 d ++ [(0x30032, 1)]) with shoalQ := (Vector.replicate 8 []).set 0 [0x28000] }
def wRoute (x : DestRun) : RouteRun := { cove := 0, addr := 0x28000, desc := fields [], place := 0, pairs := [], rounds := 1, dests := [x] }
def wRecv : RecvRun := { cove := 0, addr := 0x28000, desc := fields [], place := 0, srcs := [{}] }
def routed (r : Router) : State := { mapped on [] with routers := (Vector.replicate 2 .idle).set 1 r }

/-- What router 0 makes of a ROUTE of one token, whose scores are zero, step by step. -/
def wRt : List Byte :=
  fields [(0, 1, 0x21), (2, 1, 2), (3, 1, 1), (4, 4, 1), (0x18, 4, 4), (0x30, 4, 64), (0x40, 8, 0x2000), (0x48, 8, 0x3000), (0x50, 8, 0x1000), (0x68, 4, 64)]
def wRtD : List Byte := okOf ((shoaled wRt).peek 0 0x28000 128)
def wRtU : State := ((shoaled wRt).touch 0 unitShoal 0 0x28000 128).shoalPop 0
def wRtU1 : State := wRtU.touch 0 unitShoal 0 (fld wRtD 0x10 8 + 0 * fld wRtD 0x18 4) ((plainFmt (fld wRtD 0x1C 4)).rowBytes 1)
def valueOf {α ε : Type} (x : Except ε α) (y : α) : α := match x with | .ok z => z | .error _ => y
theorem valueOf_eq {α ε : Type} {x : Except ε α} (y : α) (h : (match x with | .ok _ => true | .error _ => false) = true) : x = .ok (valueOf x y) := by
  match x, h with
  | .ok _, _ => rfl
def wGates : List (List (Nat × Nat) × Bool) := valueOf (wRtU1.routeGates 0 wRtD wPlacement) []
def wChoice : Assigned := assignRounds wPlacement (wGates.map fun g => g.1.map Prod.fst)
def wPairs : List Pair := wChoice.pairs wPlacement wGates [0]
def wRtU2 : State := (wRtU1.poke 0 unitShoal 0 (fld wRtD 0x40 8) (wChoice.choices wGates)).1
def wRtU3 : State := (wRtU2.poke 0 unitShoal 0 (fld wRtD 0x48 8) ((runTable (wChoice.round + 1) 1 wPairs).flatMap runEntry)).1
def wPacked : State × List Pair × Status := wRtU3.packAll 0 wRtD wPlacement (recordBase wRtD (runTable (wChoice.round + 1) 1 wPairs).length) wPairs.zipIdx

/-- A RECEIVE of two lists whose first has completed, and the same as its second list is posted. -/
def wFirst : RecvRun := { wRecv with gathered := true, desc := fields [(1, 1, 2)], listBase := 1 }
def wSecond : RecvRun := { wFirst with list := 1 }
def receiving : State := routed (.recv wFirst)
theorem pair_eq {α β : Type} (x : α × β) : x = (x.1, x.2) := rfl

/-- A load descriptor at 0x28000 of cove 0 with one tensor at 0x30000, its source in host memory and its object in the deep
tier. -/
def wLoad : List Byte := (fields [(0, 1, 0x31), (2, 1, 2), (4, 2, 3), (8, 8, 0x80000000), (0x10, 8, 16), (0x20, 8, 0x30000), (0x28, 2, 1)]).take 128
def wTensor : List Byte := (fields [(8, 4, 16), (0x0C, 1, 2), (0x10, 4, 8), (0x14, 4, 1), (0x18, 4, 2)]).take 64
def loading : State :=
  { mapped on ([(0x10010, 0x9B), (0x10015, 0x80)] ++ placed 0x28000 wLoad ++ placed 0x30000 wTensor) with
    regs := [(blkHIF + 0x808, 1), (blkHIF + 0x80C, 0x101)], hbm := { on.hbm with deepGiB := 1 },
    objs := [(3, { decl := { bytes := 0x10000, slowBase := 0x20000000000 }, word := { state := .absent } })],
    inl := { on.inl with queues := (Vector.replicate 8 []).set 0 [0x28000] } }
def wCtx : LoadCtx := { cove := 0, addr := 0x28000, desc := fields [], tensors := [], obj := 3 }
def inContext (k : LoadCtx) : State := { mapped on [] with inl := { on.inl with ctx := (Vector.replicate 4 none).set 3 (some k) } }

/-- A copy of one chunk of 64 bytes, posted at 0x28000, on engine 47. -/
def wJob : FerryJob :=
  { cove := 0, op := 0x41, flag := false, chunkLog2 := 12, act := 0, aop := 0, length := 64, dstCtr := 0x10000, doneCtr := 0, src := 0, dst := 0x1000,
    result := 0, operand := [], compare := [], desc := some 0x28000, id := 0 }
def ferrying (r : FerryRun) : State := { on with bsn := { on.bsn with engines := (Vector.replicate 48 none).set 47 (some r) } }

/-- A request of cove 0 of node 2 to this node, and one of this node to node 2. -/
def wReq : BasinReq := { opc := 2, srcNode := 2, dstNode := 1, srcCove := 0, window := 0 }
def wTx : TxReq := { req := { opc := 2, srcNode := 1, dstNode := 2, srcCove := 0, window := 0 }, owner := .none }
def basin (b : Bsn) (nodes : SMap NodeLoss := []) : State := { on with bsn := b, flt := { on.flt with nodes } }

/-- Port 0 up with a connection to node 2 (key 2), whose incarnation 0 has been seen. -/
def linked (c : Conn) (st : PortState := .up) : State :=
  { on with lnk := { on.lnk with ports := on.lnk.ports.set 0 { state := st }, conns := [(2, c)], zReady := [2] },
            flt := { on.flt with nodes := [(2, { seen := true })] } }
def wFrame (p : Packet) : LinkFrame := { lsn := 0, ackLsn := 0, hops := 0, vl := 0, sub := 0, dim := 0, packet := p }
def wConn : Conn := { peer := 2, isOpen := true, rxOpen := true }
def ported (p : PortX) (t : DWord := 0) : State := { on with tick := t, lnk := { on.lnk with ports := on.lnk.ports.set 0 p } }

/-- A page read from a mirror, and the entry of the refetch table that holds it. -/
@[irreducible] def wPage : List Byte := List.replicate 65536 0
theorem wPage_length : wPage.length = 65536 := by unfold wPage; exact List.length_replicate
def wMirror : Refetch := { cove := 0, obj := 3, va := 0, source := 1, parts := [(0, wPage)] }
theorem wMirror_ready : ¬(wMirror.failed = true ∨ wMirror.outs ≠ 0 ∨ (wMirror.parts.map fun x => x.2.length).sum < 65536) := by
  simp only [wMirror, List.map_cons, List.map_nil, List.sum_cons, List.sum_nil, Nat.add_zero, wPage_length]
  decide
def wRefetched : List Byte := wMirror.page.getD []
theorem wMirror_page : wMirror.page = some wRefetched := by
  have h : wMirror.page = some (wMirror.parts.foldl (fun l x => overlay l x.1 x.2) (List.replicate 65536 0)) := if_neg wMirror_ready
  rw [wRefetched, h, Option.getD_some]
def refetching (r : Refetch) : State := { mapped on [] with flt := { on.flt with refetch := [r] } }

/-- The intake record of a load whose tensor table cannot be read. -/
def wIntake : Intake := { desc := fields [(0x20, 8, 0x8000000000), (0x28, 2, 1)] }

/-- Object 3 waits for a rerun of its load. -/
def rerunning : State := { refetching { cove := 0, obj := 3, va := 0, source := 2 } with objs := [(3, { intake := some wIntake })] }
theorem rerunning_idle : ∀ y : Fin 4, rerunning.loadCtx y = none := by decide +kernel

/-- A governed package with a batch, and with power work due. -/
def batched (b : Batch) (next : Nat := 1) (ready : Bool := true) : State :=
  { Z with gau := { Z.gau with batches := [(b.seq % 64, b)], batchLive := true, batchNext := next }, hif := { Z.hif with aliasReady := ready } }
def trimming : State :=
  { Z with hif := { Z.hif with trimDone := true }, weir := { Z.weir with trimTime := 8640000000000 } }
def powered (want : Option Nat) (p : Nat := 0) : State := { on with pstate := p, weir := { on.weir with psWant := want } }

/-- Mailbox 8 with its algorithms agreed, and a session of it. -/
def boxed (m : Mailbox) (ready : Bool := true) (x : Option Session := none) : State :=
  { Z with wh := { Z.wh with boxes := Z.wh.boxes.set 8 m, sessions := match x with | some x => [(128, some x)] | none => [], ideKeys := [9] },
           hif := { Z.hif with aliasReady := ready } }
def wModelKey : ModelKey := { key := [], cove := 0, lease := some 1, kcv := [], put := 0 }
def keyed : State := { Z with wh := { Z.wh with keys := Z.wh.keys.set 31 (some wModelKey) } }

/-- A package past boot, with a JVK command that runs and with what is staged. -/
def booted (j : Jvk := {}) : State := { Z with jvk := j, hif := { Z.hif with defaultDone := true } }
def stopped (s : State) : State := { s with stopped := true }
def resetting (r : ResetRun) (t : DWord := 0) : State := { Z with tick := t, hif := { Z.hif with running := some r } }

/-- An image of 256 bytes with a PLATFORM section and a NODES section that names this node, without its signatures. -/
def wBytes : List Byte :=
  [(0, 4, 0x314B564A), (4, 2, 1), (6, 2, 2), (8, 4, 256), (0x14, 1, 0xFF), (0x40, 2, 1), (0x44, 4, 0x80), (0x48, 4, 32), (0x4C, 4, 1),
   (0x50, 2, 3), (0x54, 4, 0xC0), (0x58, 4, 8), (0x5C, 4, 1), (0x88, 8, 0x140000000), (0x90, 1, 20), (0xC0, 8, 0x30000001)].foldl
    (fun b (x : Nat × Nat × Nat) => patch b x.1 x.2.1 x.2.2) (List.replicate 256 0)
def wStaged : Image := readImage wBytes

/-- The image with its signatures, which are free values (log 6), and a package that boots with it as its default. -/
def wSigned : List Byte := wBytes ++ Config.signature 0 [] wBytes
def booting : State := { Z with hif := { Z.hif with trimDone := true }, jvk := { Z.jvk with flashDefault := some wSigned } }
def bootDone : State := { booting with hif := { booting.hif with defaultDone := true } }
theorem wSigned_rows : orElseRefused [bootDone.row6 (readImage wSigned), bootDone.row7 (readImage wSigned), bootDone.row8 (readImage wSigned),
    bootDone.row9 (readImage wSigned)] = none := by decide +kernel
theorem wSigned_commit : bootDone.commitRefusal (readImage wSigned) = none := by decide +kernel
theorem wSigned_length (h : (Config.signature 0 [] wBytes).length = 16608) : wSigned.length = 16864 := by
  have w : wBytes.length = 256 := by decide +kernel
  rw [wSigned, List.length_append, h, w]
theorem wSigned_header (h : (Config.signature 0 [] wBytes).length = 16608) : imgHeaderOk (readImage wSigned).raw wSigned.length = true := by
  have e : (readImage wSigned).raw = wSigned := rfl
  unfold imgHeaderOk
  rw [e, wSigned_length h]
  decide +kernel
theorem wSigned_ok (h : (Config.signature 0 [] wBytes).length = 16608) (v : bootDone.signed wSigned = true) :
    orElseRefused [bootDone.stageRefusal (readImage wSigned) wSigned.length, bootDone.commitRefusal (readImage wSigned)] = none := by
  have r : bootDone.rows1to5 (readImage wSigned) wSigned.length = none := by
    have v' : bootDone.signed (readImage wSigned).raw = true := v
    unfold State.rows1to5
    rw [wSigned_header h, v']
    decide +kernel
  unfold State.stageRefusal
  rw [r, wSigned_commit, wSigned_rows]
  rfl

/-- A package with an owner's key and a nonce: what the owner signs is right where both signatures verify. -/
def owned (sec : SecState) (sig : OwnerSig) : State :=
  { Z with wh := { Z.wh with sec, nonce := some [], owners := Z.wh.owners.set 0 (some (sha384 sig.rsaKey ++ sha384 sig.slhKey)) } }
def verifies (code : Nat) (args : List Byte) (sig : OwnerSig) : Bool :=
  Config.sigVerifies sig.rsaKey (Z.signedMessage code args []) sig.rsa && Config.sigVerifies sig.slhKey (Z.signedMessage code args []) sig.slh
theorem owned_signed (sec : SecState) (code : Nat) (args : List Byte) (sig : OwnerSig) (h : verifies code args sig = true) :
    (owned sec sig).ownerSigned (owned sec sig).ownerNow code args sig = true := by
  show (decide (some (sha384 sig.rsaKey ++ sha384 sig.slhKey) = some (sha384 sig.rsaKey ++ sha384 sig.slhKey)) && _ && _) = true
  rw [decide_eq_true rfl, Bool.true_and]
  exact h

/-! ### A digest is what its number spells -/

theorem leBytes_leNat (l : List Byte) : leBytes l.length (leNat l) = l := by
  induction l with
  | nil => rfl
  | cons b bs ih =>
    have hb := b.isLt
    simp only [List.length_cons, leBytes, leNat]
    rw [show (b.toNat + 256 * leNat bs) / 256 = leNat bs by omega, ih]
    congr 1
    apply BitVec.eq_of_toNat_eq
    simp only [BitVec.toNat_ofNat]
    omega

theorem leNat_lt (l : List Byte) : leNat l < 256 ^ l.length := by
  induction l with
  | nil => simp [leNat]
  | cons b bs ih =>
    have hb := b.isLt
    simp only [List.length_cons, leNat, pow_succ]
    omega

theorem shaRound_length (v : List DWord) (k w : DWord) : (shaRound v k w).length = v.length := by
  unfold shaRound; split <;> simp

theorem shaRounds_length (ks v w : List DWord) : (shaRounds ks v w).length = v.length := by
  induction ks generalizing v w with
  | nil => rfl
  | cons k ks ih => rw [shaRounds, ih, shaRound_length]

theorem shaBlocks_length (n : Nat) (h : List DWord) (m : List Byte) : (shaBlocks n h m).length = h.length := by
  induction n generalizing h m with
  | zero => rfl
  | succ n ih => rw [shaBlocks, ih]; simp [shaRounds_length]

theorem flat_length {l : List DWord} : (l.flatMap fun w => (leBytes 8 w.toNat).reverse).length = 8 * l.length := by
  induction l with
  | nil => rfl
  | cons a l ih => simp only [List.flatMap_cons, List.length_append, ih, List.length_reverse, List.length_cons]; simp [leBytes]; omega

theorem sha384_length (m : List Byte) : (sha384 m).length = 48 := by
  simp only [sha384, flat_length, List.length_take, shaBlocks_length]; rfl

/-- Some digest carried by SET_ATTESTED spells the SHA-384 of any record. -/
theorem digest_spelled (m : List Byte) : leBytes 48 (BitVec.ofNat 384 (leNat (sha384 m))).toNat = sha384 m := by
  have h := leNat_lt (sha384 m)
  rw [sha384_length] at h
  rw [BitVec.toNat_ofNat, Nat.mod_eq_of_lt (h.trans_le (by decide))]
  have := leBytes_leNat (sha384 m)
  rwa [sha384_length] at this

/-- And some digest does not spell it. -/
theorem digest_not_spelled (m : List Byte) : leBytes 48 (if leBytes 48 0 = m then (1 : BitVec 384) else 0).toNat ≠ m := by
  split <;> rename_i h
  · rw [← h]; decide
  · exact h

/-! ### Witnesses: the hypotheses of each clause of each statement, met together -/

/-- Meets the hypotheses of `Obligations.StepOfAnEmptyQueue`, clause by clause. -/
theorem witness_StepOfAnEmptyQueue :
    (∃ (s : State), s.pending = [] ∧ s.hif.heldInReset = false ∧ s.pstate ≠ 4) ∧
    (∃ (s : State), s.pending = [] ∧ (s.hif.heldInReset = true ∨ s.pstate = 4)) :=
  ⟨⟨Z, by decide +kernel⟩,
   ⟨{ Z with pstate := 4 }, by decide +kernel⟩⟩

/-- Meets the hypotheses of `Obligations.CommandsWaitInOrder`, clause by clause. -/
theorem witness_CommandsWaitInOrder :
    (∃ (s : State) (t : State), step s = .next t) :=
  ⟨Z, _, rfl⟩

/-- Meets the hypotheses of `Obligations.LegalSecurityStatesStayLegal`, clause by clause. -/
theorem witness_LegalSecurityStatesStayLegal :
    (∃ (s : State) (t : State), s.legal = true ∧ step s = .next t) :=
  ⟨Z, _, rfl, rfl⟩

/-- Meets the hypotheses of `Obligations.FusedStateHolds`, clause by clause. -/
theorem witness_FusedStateHolds :
    (∃ (s : State) (t : State), step s = .next t) ∧
    (∃ (s : State) (t : State), step s = .next t ∧ s.wh.sec = .scrapped) ∧
    (∃ (s : State) (t : State), step s = .next t ∧ t.wh.sec = .factory) ∧
    (∃ (s : State) (t : State), step s = .next t ∧ s.wh.destroyed = true) ∧
    (∃ (s : State) (t : State), step s = .next t ∧ s.wh.sec = .ownerDebug) :=
  ⟨⟨Z, _, rfl⟩,
   ⟨{ Z with wh := { Z.wh with sec := .scrapped } }, _, rfl, rfl⟩,
   ⟨Z, _, rfl, rfl⟩,
   ⟨{ Z with wh := { Z.wh with sec := .scrapped, destroyed := true } }, _, rfl, rfl⟩,
   ⟨{ Z with wh := { Z.wh with sec := .ownerDebug } }, _, rfl, rfl⟩⟩

/-- Meets the hypotheses of `Obligations.FaultLogEntries`, clause by clause. -/
theorem witness_FaultLogEntries :
    (∃ (s : State) (_kind : Nat) (_unit : Nat) (_st : Status) (_cove : Nat) (_addr : Nat) (_info : Nat), s.flt.logHead < (s.reg regLogTail).toNat + 256) ∧
    (∃ (s : State) (_kind : Nat) (_unit : Nat) (_st : Status) (_cove : Nat) (_addr : Nat) (_info : Nat), (s.reg regLogTail).toNat + 256 ≤ s.flt.logHead) :=
  ⟨⟨{ Z with flt := { Z.flt with logHead := 255 } }, 0, 0, .done, 0, 0, 0, by decide +kernel⟩,
   ⟨{ Z with flt := { Z.flt with logHead := 256 } }, 0, 0, .done, 0, 0, 0, by decide +kernel⟩⟩

/-- Meets the hypotheses of `Obligations.SetAttestedComparesTheRecord`, clause by clause. -/
theorem witness_SetAttestedComparesTheRecord :
    (∃ (s : State) (k : Fin 4) (x : Session) (d : BitVec 384), s.answers = true ∧ s.session 0 k = some x ∧ x.opened = true ∧ x.broker = true ∧
        s.wh.sec = .sealed ∧ leBytes 48 d.toNat = sha384 s.measurementRecord) ∧
    (∃ (s : State) (k : Fin 4) (x : Session) (d : BitVec 384), s.answers = true ∧ s.session 0 k = some x ∧ x.opened = true ∧ x.broker = true ∧
        s.wh.sec = .sealed ∧ leBytes 48 d.toNat ≠ sha384 s.measurementRecord) ∧
    (∃ (s : State) (k : Fin 4) (x : Session) (_d : BitVec 384), s.answers = true ∧ s.session 0 k = some x ∧ x.opened = true ∧ x.broker = true ∧
        s.wh.sec ≠ .sealed) :=
  ⟨⟨sessioned Z .sealed brokerSession, 0, brokerSession, BitVec.ofNat 384 (leNat (sha384 (sessioned Z .sealed brokerSession).measurementRecord)), rfl,
      rfl, rfl, rfl, rfl, digest_spelled _⟩,
   ⟨sessioned Z .sealed brokerSession, 0, brokerSession, if leBytes 48 0 = sha384 (sessioned Z .sealed brokerSession).measurementRecord then 1 else 0,
       rfl, rfl, rfl, rfl, rfl, digest_not_spelled _⟩,
   ⟨sessioned Z .attested brokerSession, 0, brokerSession, 0, by decide +kernel⟩⟩

/-- Meets the hypotheses of `Obligations.PortResetOfAPortOutOrOff`, clause by clause. -/
theorem witness_PortResetOfAPortOutOrOff :
    (∃ (s : State) (b : Byte), s.resetsFree = true ∧ b.toNat < s.portCount ∧ b.toNat < 36 ∧
        ((s.port b.toNat).state = .off ∨ (s.port b.toNat).state = .out)) :=
  ⟨Z, 0, by decide +kernel⟩

/-- Meets the hypotheses of `Obligations.LoadsArePosted`, clause by clause. -/
theorem witness_LoadsArePosted :
    (∃ (s : State) (c : Cove) (lo : Option Word) (hi : Word) (a : Nat), s.answers = true ∧
        a = (lo.getD (s.reg (inlOff c 0))).toNat + 0x100000000 * hi.toNat ∧ (vget [] s.inl.queues c).length < 16) ∧
    (∃ (s : State) (c : Cove) (lo : Option Word) (hi : Word) (a : Nat), s.answers = true ∧
        a = (lo.getD (s.reg (inlOff c 0))).toNat + 0x100000000 * hi.toNat ∧ 16 ≤ (vget [] s.inl.queues c).length) :=
  ⟨⟨Z, 0, none, 0, 0, by decide +kernel⟩,
   ⟨{ Z with inl := { Z.inl with queues := Vector.replicate 8 (List.replicate 16 0) } }, 0, some 0xFFFFFFFF, 0xFFFFFFFF, 0xFFFFFFFFFFFFFFFF,
       by decide +kernel⟩⟩

/-- Meets the hypotheses of `Obligations.RegisterWriteByAccessCode`, clause by clause. -/
theorem witness_RegisterWriteByAccessCode :
    (∃ (s : State) (off : Fin 0x4000000) (_v : Word) (r : RegSpec), s.answers = true ∧ off.val % 4 = 0 ∧ s.absentAt off = false ∧
        regSpec off = some r ∧ off.val ≠ regLogTail ∧ (r.acc ≠ .rwl ∨ s.image = none) ∧ (¬(off.val / 0x100000 = 0x03 ∧ off.val % 0x100 = 0x10))) ∧
    (∃ (s : State) (off : Fin 0x4000000) (_v : Word) (r : RegSpec), s.answers = true ∧ off.val % 4 = 0 ∧ s.absentAt off = false ∧
        regSpec off = some r ∧ r.acc = .rwl ∧ s.image ≠ none ∧ s.flt.logHead - (s.reg regLogTail).toNat < 256) ∧
    (∃ (s : State) (off : Fin 0x4000000) (_v : Word), s.answers = true ∧ off.val % 4 = 0 ∧ s.absentAt off = false ∧ regSpec off = none) ∧
    (∃ (s : State) (fn : Fin 10) (off : Fin 0x4000000) (_v : Word), s.answers = true ∧ off.val % 4 = 0 ∧ s.sees fn off = false) ∧
    (∃ (s : State) (_fn : Fin 10) (off : Fin 0x4000000) (_v : Word) (_h : Option Word), s.answers = true ∧ off.val % 4 ≠ 0) ∧
    (∃ (s : State), s.answers = true) :=
  ⟨⟨Z, 0x0100008, 0, (regSpec 0x0100008).getD ⟨.lo, 0, 0⟩, by decide +kernel⟩,
   ⟨on, 0x0600010, 0, (regSpec 0x0600010).getD ⟨.lo, 0, 0⟩, by decide +kernel⟩,
   ⟨Z, 0x0200010, 0xFFFFFFFF, by decide +kernel⟩,
   ⟨Z, 1, 0x0300000, 0, by decide +kernel⟩,
   ⟨Z, 0, 0x3FFFFFF, 0, none, by decide +kernel⟩,
   ⟨Z, by decide +kernel⟩⟩

/-- Meets the hypotheses of `Obligations.CheckValueUnitWrites`, clause by clause. -/
theorem witness_CheckValueUnitWrites :
    (∃ (s : State) (fn : Fin 9) (i : Fin 4) (_w : Word), s.answers = true ∧ s.cvuSees fn i = true) ∧
    (∃ (s : State) (fn : Fin 9) (i : Fin 4) (_w : Word), s.answers = true ∧ s.cvuSees fn i = true ∧ s.stopped = false) ∧
    (∃ (s : State) (fn : Fin 9) (i : Fin 4) (_w : Word), s.answers = true ∧ s.cvuSees fn i = true ∧ s.stopped = true) ∧
    (∃ (s : State) (fn : Fin 9) (i : Fin 4) (_lo : Word) (_hi : Word), s.answers = true ∧ s.cvuSees fn i = true) ∧
    (∃ (s : State) (fn : Fin 9) (i : Fin 4) (_w : Word), s.cvuSees fn i = false) :=
  ⟨⟨Z, 0, 3, 0, by decide +kernel⟩,
   ⟨Z, 0, 3, 0, by decide +kernel⟩,
   ⟨{ Z with stopped := true }, 0, 0, 0, by decide +kernel⟩,
   ⟨Z, 0, 0, 0, 0xFFFFFFFF, by decide +kernel⟩,
   ⟨Z, 8, 3, 0, by decide +kernel⟩⟩

/-- Meets the hypotheses of `Obligations.HostPairsWatchesAndMasks`, clause by clause. -/
theorem witness_HostPairsWatchesAndMasks :
    (∃ (s : State) (_lo : Option Word) (_hi : Word), s.answers = true) ∧
    (∃ (s : State) (fn : Fin 9) (w : Fin 1024) (v : Word), s.answers = true ∧ s.seesWatch fn w = true ∧ v.getLsbD 16 = false) ∧
    (∃ (s : State) (fn : Fin 9) (w : Fin 1024) (v : Word), s.answers = true ∧ s.seesWatch fn w = true ∧ v.getLsbD 16 = true ∧
        s.watchForeign w (v.toNat % 65536) = false ∧ 0x8000000000000000 ≤ (s.arr (v.toNat % 65536) - BitVec.ofNat 64 (s.reg64 (watchOff w))).toNat) ∧
    (∃ (s : State) (fn : Fin 9) (i : Fin 65536) (_lo : Word) (_hi : Word), s.answers = true ∧ s.ctrVisible fn i = true ∧
        (∀ p ∈ s.hif.watches, p.2.arm = false)) ∧
    (∃ (s : State) (fn : Fin 9) (_f : Bool) (_v : Fin 1024) (_b : Bool), s.answers = true ∧ (vget {} s.hif.msix fn).pending = []) ∧
    (∃ (s : State) (fn : Fin 9) (v : Fin 1024), s.answers = true ∧ (vget {} s.hif.msix fn).pending = [(v.val, true)] ∧ s.ideOk fn = true) :=
  ⟨⟨Z, none, 0, by decide +kernel⟩,
   ⟨Z, 0, 1023, 0, by decide +kernel⟩,
   ⟨{ Z with regs := [(watchOff 0, 1)] }, 0, 0, 0x10000, by decide +kernel⟩,
   ⟨Z, 0, 65535, 0, 0, by decide +kernel⟩,
   ⟨Z, 0, false, 1023, true, by decide +kernel⟩,
   ⟨{ Z with hif := { Z.hif with msix := (Vector.replicate 9 {}).set 8 { pending := [(3, true)] } } }, 8, 3, by decide +kernel⟩⟩

/-- Meets the hypotheses of `Obligations.I3cAddressesAndDebugPort`, clause by clause. -/
theorem witness_I3cAddressesAndDebugPort :
    (∃ (s : State) (_dyn : Fin 128), s.answers = true) ∧
    (∃ (s : State) (_dyn : Fin 128), s.answers = true) ∧
    (∃ (s : State) (op : JtagOp), s.debug < jtagLevel op) ∧
    (∃ (s : State) (_off : Fin 0x4000000), s.answers = true ∧ 1 ≤ s.debug) ∧
    (∃ (s : State), s.answers = true ∧ 3 ≤ s.debug) :=
  ⟨⟨Z, 0x7F, by decide +kernel⟩,
   ⟨Z, 0, by decide +kernel⟩,
   ⟨Z, .halt, by decide +kernel⟩,
   ⟨{ Z with debug := 1 }, 0x3FFFFFF, by decide +kernel⟩,
   ⟨{ Z with debug := 3 }, by decide +kernel⟩⟩

/-- Meets the hypotheses of `Obligations.Bar2ReadAnswers`, clause by clause. -/
theorem witness_Bar2ReadAnswers :
    (∃ (s : State) (fn : Fin 9) (off : Fin 0x10000000000) (n : Fin 4097) (ide : Bool) (w : Bar2Win), s.answers = true ∧ s.ideRefuses ide = false ∧
        s.stopped = false ∧ s.vfLive fn = true ∧ s.bar2At fn off n = some w ∧ w.kind ≠ 1) ∧
    (∃ (s : State) (fn : Fin 9) (off : Fin 0x10000000000) (n : Fin 4097) (ide : Bool) (w : Bar2Win) (bs : List Byte), s.answers = true ∧
        s.ideRefuses ide = false ∧ s.stopped = false ∧ s.vfLive fn = true ∧ s.bar2At fn off n = some w ∧ w.kind = 1 ∧
        s.peek w.cove (w.target + (off - w.off)) n = .ok bs) ∧
    (∃ (s : State) (fn : Fin 9) (off : Fin 0x10000000000) (n : Fin 4097) (ide : Bool) (w : Bar2Win) (e : AccErr), s.answers = true ∧
        s.ideRefuses ide = false ∧ s.stopped = false ∧ s.vfLive fn = true ∧ s.bar2At fn off n = some w ∧ w.kind = 1 ∧
        s.peek w.cove (w.target + (off - w.off)) n = .error e) ∧
    (∃ (s : State) (fn : Fin 9) (off : Fin 0x10000000000) (n : Fin 4097) (ide : Bool), s.answers = true ∧ s.ideRefuses ide = false ∧
        s.stopped = false ∧ s.vfLive fn = true ∧ s.bar2At fn off n = none) ∧
    (∃ (s : State) (_fn : Fin 9) (_off : Fin 0x10000000000) (_n : Fin 4097) (ide : Bool), s.answers = true ∧ s.ideRefuses ide = true) ∧
    (∃ (s : State) (_fn : Fin 9) (_off : Fin 0x10000000000) (_n : Fin 4097) (ide : Bool), s.answers = true ∧ s.ideRefuses ide = false ∧
        s.stopped = true) ∧
    (∃ (s : State) (fn : Fin 9) (_off : Fin 0x10000000000) (_n : Fin 4097) (ide : Bool), s.answers = true ∧ s.ideRefuses ide = false ∧
        s.stopped = false ∧ s.vfLive fn = false) :=
  ⟨⟨windowed Z 2 0, 0, 0x0FFF, 1, false, (((windowed Z 2 0).bar2At 0 4095 1).getD ⟨0, 0, 0, 0, 0, 0, false, 0⟩), by decide +kernel⟩,
   ⟨windowed (mapped on []) 1 0, 0, 0x0FFF, 1, false, (((windowed (mapped on []) 1 0).bar2At 0 4095 1).getD ⟨0, 0, 0, 0, 0, 0, false, 0⟩),
       okOf ((windowed (mapped on []) 1 0).peek 0 0xFFF 1), by decide +kernel⟩,
   ⟨windowed Z 1 0, 0, 0, 1, false, (((windowed Z 1 0).bar2At 0 0 1).getD ⟨0, 0, 0, 0, 0, 0, false, 0⟩), errOf ((windowed Z 1 0).peek 0 0 1),
       by decide +kernel⟩,
   ⟨windowed Z 2 0, 0, 0x1000, 1, false, by decide +kernel⟩,
   ⟨withImage { requireIde := true }, 0, 0, 1, false, by decide +kernel⟩,
   ⟨{ Z with stopped := true }, 0, 0, 1, false, by decide +kernel⟩,
   ⟨Z, 8, 0, 4096, false, by decide +kernel⟩⟩

/-- Meets the hypotheses of `Obligations.Bar2WriteEffects`, clause by clause. -/
theorem witness_Bar2WriteEffects :
    (∃ (s : State) (fn : Fin 9) (off : Fin 0x10000000000) (_b : Byte) (ide : Bool) (w : Bar2Win), s.answers = true ∧ s.ideRefuses ide = false ∧
        s.stopped = false ∧ s.vfLive fn = true ∧ s.bar2At fn off 1 = some w ∧ w.kind = 2) ∧
    (∃ (s : State) (fn : Fin 9) (off : Fin 0x10000000000) (d : List (Option Byte)) (ide : Bool) (w : Bar2Win), s.answers = true ∧
        s.ideRefuses ide = false ∧ s.stopped = false ∧ s.vfLive fn = true ∧ s.bar2At fn off d.length = some w ∧
        (w.kind = 3 ∨ w.kind = 4 ∨ w.kind = 5 ∨ (w.kind = 1 ∧ w.write = false))) ∧
    (∃ (s : State) (fn : Fin 9) (_off : Fin 0x10000000000) (_d : List (Option Byte)) (ide : Bool), s.answers = true ∧ s.ideRefuses ide = false ∧
        (s.stopped = true ∨ s.vfLive fn = false)) :=
  ⟨⟨windowed Z 2 0, 0, 0, 1, false, (((windowed Z 2 0).bar2At 0 0 1).getD ⟨0, 0, 0, 0, 0, 0, false, 0⟩), by decide +kernel⟩,
   ⟨windowed Z 1 0, 0, 0, [some 1], false, (((windowed Z 1 0).bar2At 0 0 1).getD ⟨0, 0, 0, 0, 0, 0, false, 0⟩), by decide +kernel⟩,
   ⟨Z, 1, 0, [some 1], false, by decide +kernel⟩⟩

/-- Meets the hypotheses of `Obligations.Bar4WritesTheStreamTable`, clause by clause. -/
theorem witness_Bar4WritesTheStreamTable :
    (∃ (s : State) (im : Image) (_off : Fin 0x2000000) (_b : Byte) (ide : Bool), s.answers = true ∧ s.image = some im ∧
        (im.requireIde = true → ide = true) ∧ s.stopped = false) ∧
    (∃ (s : State) (im : Image) (_off : Fin 0x8000) (_b : Byte) (ide : Bool), s.answers = true ∧ s.image = some im ∧
        (im.requireIde = true → ide = true) ∧ s.stopped = false) :=
  ⟨⟨on, wImage, 0x1FFFFFF, 0, false, by decide +kernel⟩,
   ⟨on, wImage, 0x7FFF, 0xFF, false, by decide +kernel⟩⟩

/-- Meets the hypotheses of `Obligations.LossOfANode`, clause by clause. -/
theorem witness_LossOfANode :
    (∃ (s : State) (v : Word), s.answers = true ∧ v.getLsbD 31 = true ∧ v.getLsbD 30 = false ∧
        (s.otherNode (v.toNat % 65536) = false ∨ (s.node (v.toNat % 65536)).lost = true)) ∧
    (∃ (s : State) (v : Word), s.answers = true ∧ v.getLsbD 31 = true ∧ v.getLsbD 30 = true ∧
        (s.otherNode (v.toNat % 65536) = false ∨ (s.node (v.toNat % 65536)).lost = false)) ∧
    (∃ (s : State) (v : Word), s.answers = true ∧ v.getLsbD 31 = true ∧ v.getLsbD 30 = true ∧ s.otherNode (v.toNat % 65536) = true ∧
        (s.node (v.toNat % 65536)).lost = true) ∧
    (∃ (s : State) (v : Word), s.answers = true ∧ s.otherNode (v.toNat % 65536) = true ∧ (s.node (v.toNat % 65536)).lost = false ∧
        v.getLsbD 31 = true ∧ v.getLsbD 30 = false ∧ s.noWork = true ∧ s.flt.openLoss = []) ∧
    (∃ (s : State) (n : Node), s.answers = true ∧ s.lossDue n.toNat = true ∧ s.noWork = true ∧ s.flt.openLoss = []) ∧
    (∃ (s : State) (n : Node), s.lossDue n.toNat = false) ∧
    (∃ (s : State) (_v : Word), s.answers = true ∧ s.flt.waitingLoss = []) ∧
    (∃ (s : State) (r : LossRec), s.answers = true ∧ s.flt.openLoss = [r] ∧ s.lossSettled r = true ∧ s.flt.waitingLoss = [] ∧ s.lossHeld < 64) :=
  ⟨⟨on, 0x80000001, by decide +kernel⟩,
   ⟨on, 0xC0000002, by decide +kernel⟩,
   ⟨{ on with flt := { on.flt with nodes := [(2, { lost := true })] } }, 0xC0000002, by decide +kernel⟩,
   ⟨on, 0x80000002, by decide +kernel⟩,
   ⟨{ on with tick := 0x100000000, flt := { on.flt with nodes := [(2, { reached := true, noRouteSince := some 0 })] } }, 2, by decide +kernel⟩,
   ⟨Z, 2, by decide +kernel⟩,
   ⟨Z, 0, by decide +kernel⟩,
   ⟨{ Z with flt := { Z.flt with openLoss := [{}], lossHead := 63 } }, {}, by decide +kernel⟩⟩

/-- Meets the hypotheses of `Obligations.StepProgramEntries`, clause by clause. -/
theorem witness_StepProgramEntries :
    (∃ (s : State) (c : Cove) (r : StepRun) (sl : SlotDecl), s.halted = false ∧ (s.seqc c).run = some r ∧ s.slot c r.slot = some sl ∧
        r.next < sl.stepCount ∧ s.withPrev c sl r.next = true ∧ r.held = []) ∧
    (∃ (s : State) (c : Cove) (r : StepRun) (sl : SlotDecl) (p : Posted) (e : List Byte) (b : List Byte) (x : BatchPart), s.halted = false ∧
        (s.seqc c).run = some r ∧ s.slot c r.slot = some sl ∧ r.next < sl.stepCount ∧ s.withPrev c sl r.next = true ∧ r.posted = [p] ∧
        p.ended = false ∧ p.counts = false ∧ s.progEntry c sl p.entry = .ok e ∧ peKind e = 7 ∧ r.parts = [x] ∧ r.held = [] ∧
        s.emitPoison c r p = none ∧ (s.wantsToken x = true → s.peek c (p.addr + 4 * (x.row + x.rows - 1)) 4 = .ok b)) ∧
    (∃ (s : State) (c : Cove) (r : StepRun) (sl : SlotDecl) (d : CoveDecl) (p : Posted), s.halted = false ∧ (s.seqc c).run = some r ∧
        s.cove c = some d ∧ s.slot c r.slot = some sl ∧ r.ended = false ∧ r.parts = [] ∧ r.posted = [p] ∧ p.ended = true ∧ p.counts = false ∧
        r.held = [] ∧ sl.stepCount ≤ r.next) ∧
    (∃ (s : State) (u : State) (c : Cove) (r : StepRun) (sl : SlotDecl) (d : CoveDecl) (p : Posted), s.halted = false ∧ (s.seqc c).run = some r ∧
        s.cove c = some d ∧ s.slot c r.slot = some sl ∧ r.retry = true ∧ s.now % 800 = 0 ∧ sl.stepCount = r.next + 1 ∧
        (r.posted = [] ∨ s.withPrev c sl r.next = true) ∧ State.layerOpen sl r ((s.layerOf c sl r.next).getD 0) = true ∧
        s.postPoison c sl r.next = none ∧ s.postEntry c d sl r r.next = .posted u p ∧ u.seqc c = s.seqc c) :=
  ⟨⟨stepping {} [(0x20021, 1)] { wStep with next := 1 }, 0, { wStep with next := 1 }, wSlot, by decide +kernel⟩,
   ⟨stepping {} [(0x20000, 7), (0x20021, 1)] { wStep with next := 1, posted := [⟨0, 0x20000, false, false⟩], parts := [{ ent := 0, row := 0, rows := 1, pos := 0 }] }, 0, { wStep with next := 1, posted := [⟨0, 0x20000, false, false⟩], parts := [{ ent := 0, row := 0, rows := 1, pos := 0 }] }, wSlot, ⟨0, 0x20000, false, false⟩,
       okOf ((stepping {} [(0x20000, 7), (0x20021, 1)] { wStep with next := 1, posted := [⟨0, 0x20000, false, false⟩], parts := [{ ent := 0, row := 0, rows := 1, pos := 0 }] }).progEntry 0 wSlot 0),
       okOf ((stepping {} [(0x20000, 7), (0x20021, 1)] { wStep with next := 1, posted := [⟨0, 0x20000, false, false⟩], parts := [{ ent := 0, row := 0, rows := 1, pos := 0 }] }).peek 0 0x20000 4), { ent := 0, row := 0, rows := 1, pos := 0 },
       by decide +kernel⟩,
   ⟨stepping {} [] { wStep with next := 2, posted := [⟨0, 0x20000, false, true⟩] }, 0, { wStep with next := 2, posted := [⟨0, 0x20000, false, true⟩] }, wSlot, wCove, ⟨0, 0x20000, false, true⟩,
       by decide +kernel⟩,
   ⟨stepping {} [(0x20020, 6)] { wStep with next := 1, retry := true }, postedOf ((stepping {} [(0x20020, 6)] { wStep with next := 1, retry := true }).postEntry 0 wCove wSlot { wStep with next := 1, retry := true } 1) (stepping {} [(0x20020, 6)] { wStep with next := 1, retry := true }), 0, { wStep with next := 1, retry := true }, wSlot, wCove, { entry := 1, addr := 0, counts := false },
       by decide +kernel, by decide +kernel, by decide +kernel, by decide +kernel, rfl, by decide +kernel, rfl, .inl rfl, by decide +kernel, by rfl,
       rfl, by decide +kernel⟩⟩

/-- Meets the hypotheses of `Obligations.LayerTransfers`, clause by clause. -/
theorem witness_LayerTransfers :
    (∃ (s : State) (c : Cove) (r : StepRun) (d : CoveDecl) (sl : SlotDecl) (j : Nat) (x : SchedEntry), s.halted = false ∧ (s.seqc c).run = some r ∧
        s.cove c = some d ∧ s.slot c r.slot = some sl ∧ r.ended = false ∧ (∀ y ∈ r.xfers, y ≠ .running) ∧
        r.xfers.findIdx? (· = Xfer.waiting) = some j ∧ sl.sched.entries[j]? = some x ∧ xferEligible sl r j = true ∧ sl.sched.mode = 1) ∧
    (∃ (s : State) (u : State) (c : Cove) (r : StepRun) (d : CoveDecl) (sl : SlotDecl) (j : Nat) (x : SchedEntry) (a : Nat) (_ok : Bool), s.halted = false ∧
        (s.seqc c).run = some r ∧ s.cove c = some d ∧ s.slot c r.slot = some sl ∧ r.xfers.findIdx? (· = Xfer.running) = some j ∧
        sl.sched.entries[j]? = some x ∧ sl.sched.mode = 1 ∧ s.translate c x.srcVa 1 .read = .ok (.dpa a) ∧ a < hostDpa ∧ s.xferPoison c = none ∧
        (s.charge 4 0 sl.sched.activity x.bytes).xferCopy sl.sched.activity c x.srcVa x.dstVa (x.bytes / 64) 0 = (u, none) ∧ u.seqc c = s.seqc c ∧
        sl.stepCount ≤ r.next) ∧
    (∃ (s : State) (c : Cove) (r : StepRun) (d : CoveDecl) (sl : SlotDecl) (j : Nat) (x : SchedEntry) (_ok : Bool), s.halted = false ∧
        (s.seqc c).run = some r ∧ s.cove c = some d ∧ s.slot c r.slot = some sl ∧ r.xfers.findIdx? (· = Xfer.running) = some j ∧
        sl.sched.entries[j]? = some x ∧ sl.sched.mode ≠ 1 ∧ (s.obj c x.objId).word.state = .resident ∧ sl.stepCount ≤ r.next) :=
  ⟨⟨stepping { mode := 1, lead := 1, nbuf := 1, entries := [⟨0, false, 0, 0, 0, 64⟩] } [] { wStep with xfers := [.waiting] }, 0, { wStep with xfers := [.waiting] }, wCove, (wSlot { mode := 1, lead := 1, nbuf := 1, entries := [⟨0, false, 0, 0, 0, 64⟩] }), 0, ⟨0, false, 0, 0, 0, 64⟩,
      by decide +kernel⟩,
   ⟨(stepping { mode := 1, lead := 1, nbuf := 1, entries := [⟨0, false, 0, 0, 0, 64⟩] } [] { wStep with next := 2, xfers := [.running] }), (((stepping { mode := 1, lead := 1, nbuf := 1, entries := [⟨0, false, 0, 0, 0, 64⟩] } [] { wStep with next := 2, xfers := [.running] }).charge 4 0 0 64).xferCopy 0 0 0 0 1 0).1, 0, { wStep with next := 2, xfers := [.running] }, wCove, (wSlot { mode := 1, lead := 1, nbuf := 1, entries := [⟨0, false, 0, 0, 0, 64⟩] }), 0, ⟨0, false, 0, 0, 0, 64⟩, 0, true,
       by decide +kernel, by decide +kernel, by decide +kernel, by decide +kernel, by decide +kernel, by decide +kernel, by decide +kernel,
       by decide +kernel, by decide +kernel, by decide +kernel, Prod.ext rfl (by decide +kernel), by decide +kernel, by decide +kernel⟩,
   ⟨{ stepping { mode := 2, lead := 1, nbuf := 1, entries := [⟨0, false, 0, 0, 0, 64⟩] } [] { wStep with next := 2, xfers := [.running] } with objs := [(0, { word := { state := .resident } })] }, 0, { wStep with next := 2, xfers := [.running] }, wCove, (wSlot { mode := 2, lead := 1, nbuf := 1, entries := [⟨0, false, 0, 0, 0, 64⟩] }), 0, ⟨0, false, 0, 0, 0, 64⟩, true,
       by decide +kernel⟩⟩

/-- Meets the hypotheses of `Obligations.BoundaryTakesRequests`, clause by clause. -/
theorem witness_BoundaryTakesRequests :
    (∃ (s : State) (c : Cove) (d : CoveDecl) (e : Nat) (_as : List Adoption), s.halted = false ∧ s.cove c = some d ∧ (s.seqc c).run = none ∧
        s.boundaryDue c = true ∧ s.coveResetting c = false ∧ s.mem.poison = [] ∧ s.mem.failed = [] ∧ s.liveEntries = [] ∧ s.strm = [] ∧
        s.gau.shares = [] ∧ (s.seqc c).adoptFrom = [] ∧ s.ready = [(e, true)] ∧ s.homeCove e = some c.val ∧ s.sget e 1 1 ≠ 1 ∧ s.groupSlot c = none) ∧
    (∃ (s : State) (e : Fin 262144) (p : Nat) (rest : List Nat), s.halted = false ∧ (s.sx e).shadowPending = p :: rest ∧ p < 0x100000000) ∧
    (∃ (s : State) (e : Fin 262144) (n : Nat) (hc : Nat) (hr : Nat) (fb : SlotDecl) (home : SlotDecl) (d : CoveDecl), s.halted = false ∧
        (s.sx e).importing = some n ∧ n < 0x100000000 ∧ (s.sx e).oldRange.getLast? = some (hc, hr) ∧ s.serving e = some fb ∧ s.cove hc = some d ∧
        s.slot hc (s.sget e 5 1 % 8) = some home) ∧
    (∃ (s : State) (fn : Fin 9) (c : Cove) (v : Word), s.answers = true ∧ (fn.val = 0 ∨ (fn.val = c.val + 1 ∧ (s.cove c).isSome = true)) ∧
        ((s.seqc c).toHouse = false ∨ v.getLsbD 0 = false)) ∧
    (∃ (s : State) (fn : Fin 9) (c : Cove) (v : Word), s.answers = true ∧ (fn.val = 0 ∨ (fn.val = c.val + 1 ∧ (s.cove c).isSome = true)) ∧
        ((s.seqc c).toHouse = false ∨ v.getLsbD 0 = false)) ∧
    (∃ (s : State) (fn : Fin 9) (c : Cove) (v : Word), s.answers = true ∧ (fn.val = 0 ∨ (fn.val = c.val + 1 ∧ (s.cove c).isSome = true)) ∧
        (s.seqc c).toHouse = true ∧ v.getLsbD 0 = true) ∧
    (∃ (s : State) (fn : Fin 9) (c : Cove) (_v : Word), fn.val ≠ 0 ∧ (fn.val ≠ c.val + 1 ∨ s.cove c = none)) :=
  ⟨⟨{ on with seq := (Vector.replicate 8 {}).set 0 { stepEn := true }, ready := [(15, true)] }, 0, wCove, 15, [], by decide +kernel⟩,
   ⟨{ Z with strm := [(262143, { shadowPending := [0xFFFFFFFF] })] }, 262143, 0xFFFFFFFF, [], by decide +kernel⟩,
   ⟨{ on with strm := [(15, { importing := some 1, oldRange := [(0, 0)] })] }, 15, 1, 0, 0, wSlot, wSlot, wCove, by decide +kernel⟩,
   ⟨Z, 0, 7, 0xFFFFFFFF, by decide +kernel⟩,
   ⟨on, 1, 0, 0, by decide +kernel⟩,
   ⟨{ on with seq := (Vector.replicate 8 {}).set 0 { toHouse := true } }, 1, 0, 1, by decide +kernel⟩,
   ⟨Z, 2, 0, 0, by decide +kernel⟩⟩

/-- Meets the hypotheses of `Obligations.StreamRequests`, clause by clause. -/
theorem witness_StreamRequests :
    (∃ (s : State) (_c : Nat) (e : Nat), s.sget e 1 1 = 1 ∧ s.sState e ≠ some .free) ∧
    (∃ (s : State) (c : Nat) (e : Nat) (x : Status), s.sget e 1 1 = 1 ∧ s.sState e = some .free ∧ s.startCheck c e = some x) ∧
    (∃ (s : State) (_c : Nat) (e : Nat), s.sget e 1 1 = 2 ∧ s.sState e = some .decode ∧ (s.sx e).nodeLost = false) ∧
    (∃ (s : State) (_c : Nat) (e : Nat), s.sget e 1 1 = 2 ∧ s.sState e = some .free) ∧
    (∃ (s : State) (_c : Nat) (e : Nat), s.sget e 1 1 = 3 ∧ s.sState e = some .decode ∧ (s.sx e).nodeLost = false ∧ s.tierCheck e = none) ∧
    (∃ (s : State) (_c : Nat) (e : Nat), s.sget e 1 1 = 4 ∧ s.sState e ≠ some .paused) ∧
    (∃ (s : State) (_c : Nat) (e : Nat), 5 ≤ s.sget e 1 1) :=
  ⟨⟨{ Z with streams := [(3, 0x0103)] }, 0, 3, by decide +kernel⟩,
   ⟨{ Z with streams := [(3, 0x0100)] }, 0, 3, .range, by decide +kernel⟩,
   ⟨{ Z with streams := [(3, 0x0203)] }, 0, 3, by decide +kernel⟩,
   ⟨{ Z with streams := [(3, 0x0200)] }, 0, 3, by decide +kernel⟩,
   ⟨{ Z with streams := [(3, 0x0200000000000303)] }, 0, 3, by decide +kernel⟩,
   ⟨{ Z with streams := [(3, 0x0403)] }, 0, 3, by decide +kernel⟩,
   ⟨{ Z with streams := [(3, 0x0500)] }, 0, 3, by decide +kernel⟩⟩

/-- Meets the hypotheses of `Obligations.PeriodsAndRecords`, clause by clause. -/
theorem witness_PeriodsAndRecords :
    (∃ (s : State) (_ds : List Demand), s.now % 800 = 0 ∧ s.answers = true ∧ (∀ k, (SMap.get {} s.arbs k).period ≠ some (s.now / 800))) ∧
    (∃ (s : State) (_ds : List Demand), (s.now % 800 ≠ 0 ∨ s.pstate = 4)) ∧
    (∃ (s : State) (r : RipRec) (rest : List RipRec) (shut : Bool), s.answers = true ∧ s.rip.queue = r :: rest ∧ s.rip.live = true ∧
        s.asleep = false ∧ shut = (r.closed && (rest.isEmpty || decide (r.kind = ripDroop) || decide (r.kind = ripStepTime)))) ∧
    (∃ (s : State) (n : Nat), s.answers = true ∧ s.rip.openRec = some n ∧ s.rip.lastUpdate + 100 * ((s.reg (blkRIP + 8)).toNat % 65536) ≤ s.now) ∧
    (∃ (s : State) (n : Nat), s.rip.openRec = some n ∧ s.now < s.rip.lastUpdate + 100 * ((s.reg (blkRIP + 8)).toNat % 65536)) ∧
    (∃ (s : State), s.answers = true ∧ s.now % 100000000 = 0) :=
  ⟨⟨Z, [], rfl, rfl, fun _ h => nomatch h⟩,
   ⟨{ Z with tick := 799 }, [], by decide +kernel⟩,
   ⟨{ Z with rip := { Z.rip with queue := [{}], live := true } }, {}, [], (({} : RipRec).closed && (([] : List RipRec).isEmpty || decide (({} : RipRec).kind = ripDroop) || decide (({} : RipRec).kind = ripStepTime))),
       rfl, rfl, rfl, rfl, rfl⟩,
   ⟨{ Z with rip := { Z.rip with openRec := some 0 }, tick := 0x100000000 }, 0, by decide +kernel⟩,
   ⟨{ Z with rip := { Z.rip with openRec := some 0 } }, 0, by decide +kernel⟩,
   ⟨{ Z with tick := 100000000 }, by decide +kernel⟩⟩

/-- Meets the hypotheses of `Obligations.PostingAList`, clause by clause. -/
theorem witness_PostingAList :
    (∃ (s : State) (c : Cove) (_lo : Word) (_hi : Word), s.answers = true ∧ 64 ≤ (vget [] s.ponds c).length) ∧
    (∃ (s : State) (c : Cove) (_lo : Word) (_hi : Word), s.answers = true ∧ 64 ≤ (vget [] s.atnLists c).length) ∧
    (∃ (s : State) (c : Cove) (lo : Word) (hi : Word) (a : Nat) (er : AccErr), s.answers = true ∧ (vget [] s.ponds c).length < 64 ∧
        a = lo.toNat + 0x100000000 * hi.toNat ∧ (s.touch c unitMxc 0 a 64).peek c a 64 = .error er) ∧
    (∃ (s : State) (c : Cove) (lo : Word) (hi : Word) (a : Nat) (er : AccErr), s.answers = true ∧ (vget [] s.atnLists c).length < 64 ∧
        a = lo.toNat + 0x100000000 * hi.toNat ∧ (s.touch c unitAtn 0 a 64).peek c a 64 = .error er) ∧
    (∃ (s : State) (u : State) (c : Cove) (lo : Word) (hi : Word) (a : Nat) (h : List Byte) (m : Bool) (esc : Nat) (rung : Nat) (ds : List Nat) (d : CoveDecl), s.answers = true ∧
        (vget [] s.ponds c).length < 64 ∧ a = lo.toNat + 0x100000000 * hi.toNat ∧ u = s.touch c unitMxc 0 a 64 ∧ u.cove c = some d ∧
        u.peek c a 64 = .ok h ∧ u.checkList c a d.coreMask 160 true h = .ok m esc rung ds) ∧
    (∃ (s : State) (u : State) (c : Cove) (lo : Word) (hi : Word) (a : Nat) (h : List Byte) (m : Bool) (esc : Nat) (rung : Nat) (ds : List Nat) (d : CoveDecl), s.answers = true ∧
        (vget [] s.atnLists c).length < 64 ∧ a = lo.toNat + 0x100000000 * hi.toNat ∧ u = s.touch c unitAtn 0 a 64 ∧ u.cove c = some d ∧
        u.peek c a 64 = .ok h ∧ u.checkList c a d.atnMask 256 false h = .ok m esc rung ds) :=
  ⟨⟨{ Z with ponds := Vector.replicate 8 (List.replicate 64 wList) }, 7, 0, 0, by decide +kernel⟩,
   ⟨{ Z with atnLists := Vector.replicate 8 (List.replicate 64 wList) }, 7, 0, 0, by decide +kernel⟩,
   ⟨Z, 7, 0xFFFFFFFF, 0xFFFFFFFF, 0xFFFFFFFFFFFFFFFF, errOf ((Z.touch 7 unitMxc 0 0xFFFFFFFFFFFFFFFF 64).peek 7 0xFFFFFFFFFFFFFFFF 64),
       by decide +kernel⟩,
   ⟨Z, 7, 0, 0, 0, errOf ((Z.touch 7 unitAtn 0 0 64).peek 7 0 64), by decide +kernel⟩,
   ⟨listed, (listed.touch 0 unitMxc 0 0x40000000 64), 0, 0x40000000, 0, 0x40000000,
       okOf ((listed.touch 0 unitMxc 0 0x40000000 64).peek 0 0x40000000 64), false, 0, 0xFF, [0], wCove, rfl, by decide +kernel, by decide +kernel,
       rfl, by decide +kernel, by decide +kernel, by decide +kernel⟩,
   ⟨listed, (listed.touch 0 unitAtn 0 0x40000000 64), 0, 0x40000000, 0, 0x40000000,
       okOf ((listed.touch 0 unitAtn 0 0x40000000 64).peek 0 0x40000000 64), false, 0, 0xFF, [0], wCove, rfl, by decide +kernel, by decide +kernel,
       rfl, by decide +kernel, by decide +kernel, by decide +kernel⟩⟩

/-- Meets the hypotheses of `Obligations.ClaimingWork`, of one clause. -/
theorem witness_ClaimingWork_1 :
    ∃ (s : State) (u : State) (v : State) (k : Fin 128) (c : Nat) (a : Nat) (l : WorkList) (p : Nat) (i : Nat) (h : List Byte) (e : List Byte) (d : List Byte), s.halted = false ∧
        vget none s.cores k = none ∧ s.coreCove k = some c ∧ s.mayClaim k = true ∧
        s.claimFrom c unitMxc k (vget [] s.ponds c) = (u, some (l, p, i, h)) ∧ a = fld h 0x10 8 + 16 * i ∧ u.peek c a 16 = .ok e ∧
        (u.touch c unitMxc 0 a 16).peek c (fld e 0 8) 160 = .ok d ∧ v = (u.touch c unitMxc 0 a 16).touch c unitMxc 0 (fld e 0 8) 160 ∧
        (tdFlag d 1 = false ∨ v.tileEarly c (fld e 0 8) d (fld e 8 4) (rsvZero e 12 4) ≠ none) :=
  ⟨listed, (claimed listed unitMxc (vget [] (listed).ponds 0)), (claimRead (claimed listed unitMxc (vget [] (listed).ponds 0)) unitMxc 160), 0, 0, 0x30000, wList, 0, 0, (claimHdr listed), (claimEntry (claimed listed unitMxc (vget [] (listed).ponds 0))), (claimDesc (claimed listed unitMxc (vget [] (listed).ponds 0)) unitMxc 160),
      by decide +kernel, by decide +kernel, by decide +kernel, by decide +kernel, Prod.ext rfl (by decide +kernel), by decide +kernel,
      by decide +kernel, by decide +kernel, rfl, .inl (by decide +kernel)⟩

/-- Meets the hypotheses of `Obligations.ClaimingWork`, of one clause. -/
theorem witness_ClaimingWork_2 :
    ∃ (s : State) (u : State) (v : State) (k : Fin 128) (c : Nat) (a : Nat) (n : Nat) (l : WorkList) (p : Nat) (i : Nat) (h : List Byte) (e : List Byte) (d : List Byte), s.halted = false ∧
        vget none s.cores k = none ∧ s.coreCove k = some c ∧ s.mayClaim k = true ∧
        s.claimFrom c unitMxc k (vget [] s.ponds c) = (u, some (l, p, i, h)) ∧ a = fld h 0x10 8 + 16 * i ∧ u.peek c a 16 = .ok e ∧
        (u.touch c unitMxc 0 a 16).peek c (fld e 0 8) 160 = .ok d ∧ v = (u.touch c unitMxc 0 a 16).touch c unitMxc 0 (fld e 0 8) 160 ∧
        tdFlag d 1 = true ∧ v.tileEarly c (fld e 0 8) d (fld e 8 4) (rsvZero e 12 4) = none ∧ v.peekNat c (fld d 0x78 8 + 0x2C) 1 = .ok n :=
  ⟨(listedWith (wVec 2)), (claimed (listedWith (wVec 2)) unitMxc (vget [] ((listedWith (wVec 2))).ponds 0)), (claimRead (claimed (listedWith (wVec 2)) unitMxc (vget [] ((listedWith (wVec 2))).ponds 0)) unitMxc 160), 0, 0, 0x30000, 0, wList, 0, 0, (claimHdr (listedWith (wVec 2))), (claimEntry (claimed (listedWith (wVec 2)) unitMxc (vget [] ((listedWith (wVec 2))).ponds 0))), (claimDesc (claimed (listedWith (wVec 2)) unitMxc (vget [] ((listedWith (wVec 2))).ponds 0)) unitMxc 160),
      by decide +kernel, by decide +kernel, by decide +kernel, by decide +kernel, Prod.ext rfl (by decide +kernel), by decide +kernel,
      by decide +kernel, by decide +kernel, rfl, by decide +kernel, by decide +kernel, by decide +kernel⟩

/-- Meets the hypotheses of `Obligations.ClaimingWork`, of one clause. -/
theorem witness_ClaimingWork_3 :
    ∃ (s : State) (k : Fin 128), vget none s.cores k ≠ none :=
  ⟨tiling wRun, 0, by decide +kernel⟩

/-- Meets the hypotheses of `Obligations.ClaimingWork`, of one clause. -/
theorem witness_ClaimingWork_4 :
    ∃ (s : State) (u : State) (v : State) (k : Fin 32) (c : Nat) (a : Nat) (l : WorkList) (p : Nat) (i : Nat) (h : List Byte) (e : List Byte) (d : List Byte), s.halted = false ∧
        vget none s.atns k = none ∧ s.atnCove k = some c ∧ s.mayClaim (0x80 + k) = true ∧
        s.claimFrom c unitAtn k (vget [] s.atnLists c) = (u, some (l, p, i, h)) ∧ a = fld h 0x10 8 + 16 * i ∧ u.peek c a 16 = .ok e ∧
        (u.touch c unitAtn 0 a 16).peek c (fld e 0 8) 256 = .ok d ∧ v = (u.touch c unitAtn 0 a 16).touch c unitAtn 0 (fld e 0 8) 256 ∧
        (bit (fld d 1 1) 4 = false ∨ v.unitEarly (fld e 0 8) d (fld e 8 4) (rsvZero e 12 4) ≠ none) :=
  ⟨listed, (claimed listed unitAtn (vget [] (listed).atnLists 0)), (claimRead (claimed listed unitAtn (vget [] (listed).atnLists 0)) unitAtn 256), 0, 0, 0x30000, wList, 0, 0, (claimHdr listed), (claimEntry (claimed listed unitAtn (vget [] (listed).atnLists 0))), (claimDesc (claimed listed unitAtn (vget [] (listed).atnLists 0)) unitAtn 256),
      by decide +kernel, by decide +kernel, by decide +kernel, by decide +kernel, Prod.ext rfl (by decide +kernel), by decide +kernel,
      by decide +kernel, by decide +kernel, rfl, .inl (by decide +kernel)⟩

/-- Meets the hypotheses of `Obligations.ClaimingWork`, of one clause. -/
theorem witness_ClaimingWork_5 :
    ∃ (s : State) (u : State) (v : State) (k : Fin 32) (c : Nat) (a : Nat) (n : Nat) (l : WorkList) (p : Nat) (i : Nat) (h : List Byte) (e : List Byte) (d : List Byte), s.halted = false ∧
        vget none s.atns k = none ∧ s.atnCove k = some c ∧ s.mayClaim (0x80 + k) = true ∧
        s.claimFrom c unitAtn k (vget [] s.atnLists c) = (u, some (l, p, i, h)) ∧ a = fld h 0x10 8 + 16 * i ∧ u.peek c a 16 = .ok e ∧
        (u.touch c unitAtn 0 a 16).peek c (fld e 0 8) 256 = .ok d ∧ v = (u.touch c unitAtn 0 a 16).touch c unitAtn 0 (fld e 0 8) 256 ∧
        bit (fld d 1 1) 4 = true ∧ v.unitEarly (fld e 0 8) d (fld e 8 4) (rsvZero e 12 4) = none ∧ v.peekNat c (fld d 0xA0 8 + 0x2C) 1 = .ok n :=
  ⟨(listedWith (wAttn 16 1)), (claimed (listedWith (wAttn 16 1)) unitAtn (vget [] ((listedWith (wAttn 16 1))).atnLists 0)), (claimRead (claimed (listedWith (wAttn 16 1)) unitAtn (vget [] ((listedWith (wAttn 16 1))).atnLists 0)) unitAtn 256), 0, 0, 0x30000, 0, wList, 0, 0, (claimHdr (listedWith (wAttn 16 1))), (claimEntry (claimed (listedWith (wAttn 16 1)) unitAtn (vget [] ((listedWith (wAttn 16 1))).atnLists 0))), (claimDesc (claimed (listedWith (wAttn 16 1)) unitAtn (vget [] ((listedWith (wAttn 16 1))).atnLists 0)) unitAtn 256),
      by decide +kernel, by decide +kernel, by decide +kernel, by decide +kernel, Prod.ext rfl (by decide +kernel), by decide +kernel,
      by decide +kernel, by decide +kernel, rfl, by decide +kernel, by decide +kernel, by decide +kernel⟩

/-- Meets the hypotheses of `Obligations.ClaimingWork`, of one clause. -/
theorem witness_ClaimingWork_6 :
    ∃ (s : State) (k : Fin 32), vget none s.atns k ≠ none :=
  ⟨tiling wRun, 0, by decide +kernel⟩

/-- Meets the hypotheses of `Obligations.EndsOfTilesAndUnits`, of one clause. -/
theorem witness_EndsOfTilesAndUnits_1 :
    ∃ (s : State) (u : State) (k : Fin 128) (r : TileRun) (d : TileDesc) (o : TileOut) (b : Bool) (rows : List Nat) (f : Fmt) (g : XNum) (w : TileWrite) (ws : List (Nat × List Byte)) (ti : Nat) (tj : Nat), s.halted = false ∧
        vget none s.cores k = some r ∧ r.lost = false ∧ r.waiting = none ∧ r.early = none ∧ r.rungErr = none ∧
        readTileDesc r.descAddr r.desc = some d ∧ s.tileOutcome r d = .ok (some o, b, rows) ∧
        f = (if r.mode = 2 then cFmtAt d.c.fmt r.rung else d.c.fmt) ∧ s.cGain r.cove d r.desc f r.tile o = .ok (some g) ∧
        ti = r.tile / ((d.n + 127) / 128) ∧ tj = r.tile % ((d.n + 127) / 128) ∧
        w = convertTile d r.desc (s.reg (mxcOff r.cove 0x10)).toNat f g r.tile ti tj o ∧ (ws = w.writes ++ (if f.isNB ∧
        d.c.gainMode = 2 then [(fld r.desc 0x60 8 + 4 * r.tile, leBytes 4 (to32 g))] else [])) ∧ s.firstBad r.cove ws = none ∧
        u = (s.touchTile r.cove d r.desc (r.fmtA d) ti tj).pokeAll r.cove unitMxc ws :=
  ⟨tiling { wRun with desc := wVec 0 }, (((tiling { wRun with desc := wVec 0 }).touchTile 0 ((readTileDesc 0 (wVec 0)).get (by decide +kernel)) (wVec 0) (({ wRun with desc := wVec 0 } : TileRun).fmtA ((readTileDesc 0 (wVec 0)).get (by decide +kernel))) 0 0).pokeAll 0 unitMxc (convertTile ((readTileDesc 0 (wVec 0)).get (by decide +kernel)) (wVec 0) ((tiling { wRun with desc := wVec 0 }).reg (mxcOff 0 0x10)).toNat .fp32 (.fin false 1) 0 0 0 (⟨[[.fin false 0]], [], false, [], []⟩ : TileOut)).writes), 0, { wRun with desc := wVec 0 }, ((readTileDesc 0 (wVec 0)).get (by decide +kernel)), (⟨[[.fin false 0]], [], false, [], []⟩ : TileOut), false, [], .fp32, .fin false 1, (convertTile ((readTileDesc 0 (wVec 0)).get (by decide +kernel)) (wVec 0) ((tiling { wRun with desc := wVec 0 }).reg (mxcOff 0 0x10)).toNat .fp32 (.fin false 1) 0 0 0 (⟨[[.fin false 0]], [], false, [], []⟩ : TileOut)), (convertTile ((readTileDesc 0 (wVec 0)).get (by decide +kernel)) (wVec 0) ((tiling { wRun with desc := wVec 0 }).reg (mxcOff 0 0x10)).toNat .fp32 (.fin false 1) 0 0 0 (⟨[[.fin false 0]], [], false, [], []⟩ : TileOut)).writes, 0, 0,
      rfl, by decide +kernel, rfl, rfl, rfl, rfl, (Option.some_get _).symm, by decide +kernel, by decide +kernel, by decide +kernel,
      by decide +kernel, by decide +kernel, by decide +kernel, by decide +kernel, by decide +kernel, by decide +kernel⟩

/-- Meets the hypotheses of `Obligations.EndsOfTilesAndUnits`, of one clause. -/
theorem witness_EndsOfTilesAndUnits_2 :
    ∃ (s : State) (k : Fin 128) (r : TileRun) (st : Status), s.halted = false ∧ vget none s.cores k = some r ∧ ((r.lost = true ∧
        st = .objectLost) ∨ (r.lost = false ∧ r.waiting = none ∧ r.early.or r.rungErr = some st)) :=
  ⟨tiling { wRun with lost := true }, 0, { wRun with lost := true }, .objectLost, by decide +kernel⟩

/-- Meets the hypotheses of `Obligations.EndsOfTilesAndUnits`, of one clause. -/
theorem witness_EndsOfTilesAndUnits_3 :
    ∃ (s : State) (k : Fin 128) (r : TileRun) (st : Status), s.halted = false ∧ vget none s.cores k = some r ∧ ((r.lost = true ∧
        st = .objectLost) ∨ (r.lost = false ∧ r.waiting = none ∧ r.early.or r.rungErr = some st)) :=
  ⟨tiling { wRun with early := some .range }, 0, { wRun with early := some .range }, .range, by decide +kernel⟩

/-- Meets the hypotheses of `Obligations.EndsOfTilesAndUnits`, of one clause. -/
theorem witness_EndsOfTilesAndUnits_4 :
    ∃ (s : State) (k : Fin 128) (r : TileRun) (st : Status), s.halted = false ∧ vget none s.cores k = some r ∧ ((r.lost = true ∧
        st = .objectLost) ∨ (r.lost = false ∧ r.waiting = none ∧ r.early.or r.rungErr = some st)) :=
  ⟨tiling { wRun with rungErr := some .poisoned }, 0, { wRun with rungErr := some .poisoned }, .poisoned, by decide +kernel⟩

/-- Meets the hypotheses of `Obligations.EndsOfTilesAndUnits`, of one clause. -/
theorem witness_EndsOfTilesAndUnits_5 :
    ∃ (s : State) (k : Fin 128) (r : TileRun) (d : TileDesc) (va : Nat) (a : Nat), s.halted = false ∧ vget none s.cores k = some r ∧ r.lost = false ∧
        r.waiting = none ∧ r.early = none ∧ r.rungErr = none ∧ readTileDesc r.descAddr r.desc = some d ∧
        s.tileOutcome r d = .error (va, .poisoned a) ∧ (s.accErr r.cove unitMxc 0 va (.poisoned a)).refetchable r.cove va = true :=
  ⟨{ tiling { wRun with desc := wVec 0 } with mem := { (tiling { wRun with desc := wVec 0 }).mem with poison := [(0, true)] }, objs := [(3, { decl := { bytes := 0x10000 }, word := { state := .resident } })] }, 0, { wRun with desc := wVec 0 }, ((readTileDesc 0 (wVec 0)).get (by decide +kernel)), 0, 0,
      rfl, by decide +kernel, rfl, rfl, rfl, rfl, (Option.some_get _).symm, by decide +kernel, by decide +kernel⟩

/-- Meets the hypotheses of `Obligations.EndsOfTilesAndUnits`, of one clause. -/
theorem witness_EndsOfTilesAndUnits_6 :
    ∃ (s : State) (k : Fin 128) (r : TileRun), s.halted = false ∧ vget none s.cores k = some r ∧ r.lost = false ∧ r.waiting ≠ none :=
  ⟨tiling { wRun with waiting := some 0 }, 0, { wRun with waiting := some 0 }, by decide +kernel⟩

/-- Meets the hypotheses of `Obligations.EndsOfTilesAndUnits`, of one clause. -/
theorem witness_EndsOfTilesAndUnits_7 :
    ∃ (s : State) (k : Fin 128) (r : TileRun), s.halted = false ∧ vget none s.cores k = some r ∧ r.released = true ∧ r.desc ≠ [] :=
  ⟨tiling { wRun with released := true, waiting := some 0 }, 0, { wRun with released := true, waiting := some 0 }, by decide +kernel⟩

/-- Meets the hypotheses of `Obligations.EndsOfTilesAndUnits`, of one clause. -/
theorem witness_EndsOfTilesAndUnits_8 :
    ∃ (s : State) (k : Fin 128) (r : TileRun), vget none s.cores k = some r ∧ r.released = false :=
  ⟨tiling wRun, 0, wRun, by decide +kernel⟩

/-- Meets the hypotheses of `Obligations.EndsOfTilesAndUnits`, of one clause. -/
theorem witness_EndsOfTilesAndUnits_9 :
    ∃ (s : State) (k : Fin 32) (r : TileRun), s.halted = false ∧ vget none s.atns k = some r ∧ r.released = true ∧ r.desc ≠ [] :=
  ⟨tiling { wRun with released := true, waiting := some 0 }, 0, { wRun with released := true, waiting := some 0 }, by decide +kernel⟩

/-- Meets the hypotheses of `Obligations.EndsOfTilesAndUnits`, of one clause. -/
theorem witness_EndsOfTilesAndUnits_10 :
    ∃ (s : State) (k : Fin 32) (r : TileRun), vget none s.atns k = some r ∧ r.released = false :=
  ⟨tiling wRun, 0, wRun, by decide +kernel⟩

/-- Meets the hypotheses of `Obligations.EndsOfTilesAndUnits`, of one clause. -/
theorem witness_EndsOfTilesAndUnits_11 :
    ∃ (s : State) (k : Fin 32) (r : TileRun) (st : Status), s.halted = false ∧ vget none s.atns k = some r ∧ r.early = some st :=
  ⟨tiling { wRun with early := some .range }, 0, { wRun with early := some .range }, .range, by decide +kernel⟩

/-- Meets the hypotheses of `Obligations.EndsOfTilesAndUnits`, of one clause. -/
theorem witness_EndsOfTilesAndUnits_12 :
    ∃ (s : State) (u : State) (k : Fin 32) (r : TileRun) (a : AttnDesc) (o : UnitOut) (w : List (List (Nat × List Byte) × QEvents)) (kvh : Nat) (rb : Nat) (sp : Nat), s.halted = false ∧
        vget none s.atns k = some r ∧ r.early = none ∧ readAttnDesc r.descAddr r.desc = some a ∧ a.bwd = false ∧ r.lost = false ∧ r.waiting = none ∧
        r.rungErr = none ∧ kvh = r.tile / (a.rb * a.splits) ∧ rb = r.tile / a.splits % a.rb ∧ sp = r.tile % a.splits ∧
        s.runForward r.cove r.desc a (r.qFmt a) (r.newFmt a) kvh rb sp = .ok (some o) ∧
        w = (if a.splits = 1 then o.rows.map fun y => rowWrites r.desc a kvh y.1 y.2 else o.rows.zipIdx.map fun y => ([(a.partAddr r.desc r.tile + y.2 * (4 * a.d + 8), partialBytes y.1.2)], ({} : QEvents))) ∧
        s.firstBad r.cove (w.flatMap Prod.fst) = none ∧
        u = ((s.touchUnit r.cove (a.readRanges r.desc (r.qFmt a) (r.newFmt a) kvh [rb] (a.positions rb (a.splitChunks rb sp)))).chargeUnit r a).pokeAll r.cove unitAtn (w.flatMap Prod.fst) :=
  ⟨wFwd, _, 0, wFwdRun, wFwdDesc, wFwdOut, wFwdWrites, 0, 0, 0, rfl, by decide +kernel, rfl, (Option.some_get _).symm, by decide +kernel, rfl, rfl,
      rfl, by decide +kernel, by decide +kernel, by decide +kernel, outOf_eq _ (by decide +kernel), (if_pos (by decide +kernel)).symm,
      by decide +kernel, rfl⟩

/-- Meets the hypotheses of `Obligations.EndsOfTilesAndUnits`, of one clause. -/
theorem witness_EndsOfTilesAndUnits_13 :
    ∃ (s : State) (u : State) (k : Fin 32) (r : TileRun) (a : AttnDesc) (o : BackOut) (kvh : Nat) (rbs : List Nat) (ps : List Nat), s.halted = false ∧
        vget none s.atns k = some r ∧ r.early = none ∧ readAttnDesc r.descAddr r.desc = some a ∧ a.bwd = true ∧ r.lost = false ∧ r.waiting = none ∧
        r.rungErr = none ∧ a.backReads r.tile = (kvh, rbs, ps) ∧ s.runBackward r.cove r.desc a (r.qFmt a) (r.newFmt a) r.tile = .ok (some o) ∧
        s.firstBad r.cove o.writes = none ∧
        u = ((s.touchUnit r.cove (a.readRanges r.desc (r.qFmt a) (r.newFmt a) kvh rbs ps)).chargeUnit r a).pokeAll r.cove unitAtn o.writes :=
  ⟨wBwd, _, 0, wBwdRun, wBwdDesc, wBwdOut, 0, [0], [0], rfl, by decide +kernel, rfl, (Option.some_get _).symm, by decide +kernel, rfl, rfl, rfl,
      by decide +kernel, outOf_eq _ (by decide +kernel), by decide +kernel, rfl⟩

/-- Meets the hypotheses of `Obligations.EndsOfTilesAndUnits`, of one clause. -/
theorem witness_EndsOfTilesAndUnits_14 :
    ∃ (s : State) (c : Cove) (l : WorkList) (h : List Byte), s.halted = false ∧ (vget [] s.ponds c).find? (fun l => l.ended) = some l ∧
        s.peek c l.hdr 64 = .ok h :=
  ⟨ended, 0, { wList with ended := true }, claimHdr ended, by decide +kernel⟩

/-- Meets the hypotheses of `Obligations.EndsOfTilesAndUnits`, of one clause. -/
theorem witness_EndsOfTilesAndUnits_15 :
    ∃ (s : State) (c : Cove), (∀ l ∈ vget [] s.ponds c, l.ended = false) :=
  ⟨Z, 7, by decide +kernel⟩

/-- Meets the hypotheses of `Obligations.EndsOfTilesAndUnits`, of one clause. -/
theorem witness_EndsOfTilesAndUnits_16 :
    ∃ (s : State) (c : Cove) (l : WorkList), s.halted = false ∧ (vget [] s.atnLists c).find? (fun l => l.ended) = some l :=
  ⟨ended, 0, { wList with ended := true }, by decide +kernel⟩

/-- Meets the hypotheses of `Obligations.EndsOfTilesAndUnits`, of one clause. -/
theorem witness_EndsOfTilesAndUnits_17 :
    ∃ (s : State) (c : Cove), (∀ l ∈ vget [] s.atnLists c, l.ended = false) :=
  ⟨Z, 7, by decide +kernel⟩

/-- Meets the hypotheses of `Obligations.ShoalDescriptors`, clause by clause. -/
theorem witness_ShoalDescriptors :
    (∃ (s : State) (c : Cove) (_lo : Word) (_hi : Word), s.answers = true ∧ s.fuses.variant ≠ .s ∧ (vget [] s.shoalQ c).length < 64) ∧
    (∃ (s : State) (c : Cove) (_lo : Word) (_hi : Word), s.answers = true ∧ s.fuses.variant ≠ .s ∧ 64 ≤ (vget [] s.shoalQ c).length) ∧
    (∃ (s : State) (u : State) (rt : Fin 2) (c : Nat) (addr : Nat) (d : List Byte) (p : Placement), s.halted = false ∧ s.mayWork (0xD0 + rt) = true ∧
        s.shoalHead rt = some (c, addr, .ok d) ∧ fld d 0 1 = 0x22 ∧
        u = (((s.touch c unitShoal 0 addr 128).shoalPop c).touch c unitShoal 0 (fld d 0x10 8) (64 * p.nlocal)) ∧
        ((s.touch c unitShoal 0 addr 128).shoalPop c).placement (fld d 8 1) = some p ∧ u.recvOk c addr d p = .ok true) ∧
    (∃ (s : State) (u : State) (u1 : State) (u2 : State) (u3 : State) (u4 : State) (rt : Fin 2) (c : Nat) (addr : Nat) (d : List Byte) (p : Placement) (gates : List (List (Nat × Nat) × Bool)) (streams : List Nat) (a : Assigned) (ps : List Pair) (qs : List Pair) (st : Status), s.halted = false ∧
        s.mayWork (0xD0 + rt) = true ∧ s.shoalHead rt = some (c, addr, .ok d) ∧ fld d 0 1 = 0x21 ∧ u = ((s.touch c unitShoal 0 addr 128).shoalPop c) ∧
        u.placement (fld d 8 1) = some p ∧ routeOk addr c d p = true ∧ u.routeWaits c d p = [] ∧ (∀ x ∈ p.dests, (u.node x.1).lost = false) ∧
        0 < fld d 4 4 ∧
        u1 = (List.range (fld d 4 4)).foldl (fun s i => s.touch c unitShoal 0 (fld d 0x10 8 + i * fld d 0x18 4) ((plainFmt (fld d 0x1C 4)).rowBytes p.e)) u ∧
        u1.routeGates c d p = .ok gates ∧ u1.readWords c (fld d 0x38 8) (fld d 4 4) = .ok streams ∧
        a = assignRounds p (gates.map fun g => g.1.map Prod.fst) ∧ ps = a.pairs p gates streams ∧
        u1.poke c unitShoal 0 (fld d 0x40 8) (a.choices gates) = (u2, none) ∧
        u2.poke c unitShoal 0 (fld d 0x48 8) ((runTable (a.round + 1) p.dests.length ps).flatMap runEntry) = (u3, none) ∧
        u3.packAll c d p (recordBase d (runTable (a.round + 1) p.dests.length ps).length) ps.zipIdx = (u4, qs, st) ∧ st ≠ .permission) ∧
    (∃ (s : State) (rt : Fin 2), s.router rt ≠ .idle) :=
  ⟨⟨Z, 7, 0xFFFFFFFF, 0xFFFFFFFF, by decide +kernel⟩,
   ⟨{ Z with shoalQ := Vector.replicate 8 (List.replicate 64 0) }, 7, 0, 0, by decide +kernel⟩,
   ⟨(shoaled (fields [(0, 1, 0x22), (1, 1, 1), (0x20, 8, 0x30000)])), ((((shoaled (fields [(0, 1, 0x22), (1, 1, 1), (0x20, 8, 0x30000)])).touch 0 unitShoal 0 0x28000 128).shoalPop 0).touch 0 unitShoal 0 (fld (okOf ((shoaled (fields [(0, 1, 0x22), (1, 1, 1), (0x20, 8, 0x30000)])).peek 0 0x28000 128)) 0x10 8) 0), 0, 0, 0x28000,
       okOf ((shoaled (fields [(0, 1, 0x22), (1, 1, 1), (0x20, 8, 0x30000)])).peek 0 0x28000 128), wPlacement, by decide +kernel, by decide +kernel,
       by decide +kernel, by decide +kernel, rfl, by decide +kernel, by decide +kernel⟩,
   ⟨shoaled wRt, wRtU, wRtU1, wRtU2, wRtU3, wPacked.1, 0, 0, 0x28000, wRtD, wPlacement, wGates, [0], wChoice, wPairs, wPacked.2.1, wPacked.2.2,
       by decide +kernel, by decide +kernel, by decide +kernel, by decide +kernel, rfl, by decide +kernel, by decide +kernel, by decide +kernel,
       by decide +kernel, by decide +kernel, rfl, valueOf_eq _ (by decide +kernel), by decide +kernel, rfl,
       rfl, Prod.ext rfl (by decide +kernel), Prod.ext rfl (by decide +kernel), rfl, by decide +kernel⟩,
   ⟨(routed (.route (wRoute {}))), 1, by decide +kernel⟩⟩

/-- Meets the hypotheses of `Obligations.RouteRuns`, clause by clause. -/
theorem witness_RouteRuns :
    (∃ (s : State) (rt : Fin 2) (i : Fin 256) (r : RouteRun) (p : Placement), s.halted = false ∧ s.router rt = .route r ∧
        s.placement r.place = some p ∧ (nth ({} : DestRun) r.dests i).phase = 2 ∧ i < p.dests.length ∧ i < r.dests.length) ∧
    (∃ (s : State) (rt : Fin 2) (i : Fin 256) (r : RouteRun) (p : Placement), s.halted = false ∧ s.router rt = .route r ∧
        s.placement r.place = some p ∧ (nth ({} : DestRun) r.dests i).phase = 3 ∧ i < r.dests.length ∧
        (nth ({} : DestRun) r.dests i).owed ≤ (s.arr (fld r.desc 0x70 2 + i) - (nth ({} : DestRun) r.dests i).base).toNat ∧
        (nth ({} : DestRun) r.dests i).last ≤ (nth ({} : DestRun) r.dests i).round ∧ (∀ x ∈ r.dests, x.phase ≠ 0) ∧ p.dests.length ≤ r.dests.length) ∧
    (∃ (s : State) (u : State) (rt : Fin 2) (r : RouteRun) (p : Placement) (st : Status), s.halted = false ∧ s.router rt = .route r ∧
        s.placement r.place = some p ∧ (∀ x ∈ r.dests, x.phase = 4 ∨ x.phase = 5) ∧
        (List.range (fld r.desc 4 4)).foldl (fun (a : State × Status) t => let x := a.1.combineToken r p t; (x.1, mergeShoal a.2 x.2)) (s, r.status) = (u, st)) ∧
    (∃ (s : State) (rt : Fin 2) (r : RouteRun) (p : Placement), s.halted = false ∧ s.router rt = .route r ∧ s.placement r.place = some p ∧
        (¬(∀ x ∈ r.dests, x.phase = 4 ∨ x.phase = 5))) ∧
    (∃ (s : State) (rt : Fin 2) (r : RouteRun) (q : RouteRun) (p : Placement), s.halted = false ∧ s.router rt = .route r ∧
        s.placement r.place = some p ∧ (∃ x ∈ r.dests, (x.phase = 3 ∨ x.phase = 6) ∧ x.since + 100 * (s.reg (blkSHOAL + 0x10)).toNat < s.now) ∧
        q = { r with status := mergeShoal r.status .timeout, dests := r.dests.map fun x => if x.phase = 4 then x else { x with phase := 5 } }) ∧
    (∃ (s : State) (rt : Fin 2) (r : RouteRun), s.router rt = .route r ∧
        (∀ x ∈ r.dests, (x.phase = 3 ∨ x.phase = 6) → s.now ≤ x.since + 100 * (s.reg (blkSHOAL + 0x10)).toNat)) :=
  ⟨⟨(routed (.route (wRoute { phase := 2 }))), 1, 0, wRoute { phase := 2 }, wPlacement, by decide +kernel⟩,
   ⟨(routed (.route (wRoute { phase := 3 }))), 1, 0, wRoute { phase := 3 }, wPlacement, by decide +kernel⟩,
   ⟨(routed (.route (wRoute { phase := 4 }))), (routed (.route (wRoute { phase := 4 }))), 1, wRoute { phase := 4 }, wPlacement, .done,
       by decide +kernel⟩,
   ⟨(routed (.route (wRoute { phase := 3 }))), 1, wRoute { phase := 3 }, wPlacement, by decide +kernel⟩,
   ⟨{ (routed (.route (wRoute { phase := 3 }))) with tick := 100001 }, 1, wRoute { phase := 3 }, { wRoute { phase := 5 } with status := .timeout }, wPlacement,
       by decide +kernel⟩,
   ⟨{ (routed (.route (wRoute { phase := 3 }))) with tick := 100000 }, 1, wRoute { phase := 3 }, by decide +kernel⟩⟩

/-- Meets the hypotheses of `Obligations.ReceiveRounds`, of one clause. -/
theorem witness_ReceiveRounds_1 :
    ∃ (s : State) (rt : Fin 2) (r : RecvRun) (p : Placement) (hs : List (Nat × List Byte)), s.halted = false ∧ s.router rt = .recv r ∧
        s.placement r.place = some p ∧ r.gathered = false ∧ s.roundHeaders r p = some hs ∧ s.recvWaits r p hs = [] :=
  ⟨(routed (.recv wRecv)), 1, wRecv, wPlacement, [(0, List.replicate 64 0)], by decide +kernel⟩

/-- Meets the hypotheses of `Obligations.ReceiveRounds`, of one clause. -/
theorem witness_ReceiveRounds_2 :
    ∃ (s : State) (u : State) (rt : Fin 2) (r : RecvRun) (q : RecvRun) (p : Placement) (base : DWord), s.halted = false ∧ s.router rt = .recv r ∧
        s.placement r.place = some p ∧ r.gathered = true ∧ r.list + 1 < fld r.desc 1 1 ∧ r.returning = 0 ∧ s.listDone r = true ∧
        q = { r with status := mergeShoal r.status (s.listStatus r), list := r.list + 1 } ∧ s.postRound q p (r.list + 1) = (u, base) :=
  ⟨receiving, (receiving.postRound wSecond wPlacement (wFirst.list + 1)).1, 1, wFirst, wSecond, wPlacement, (receiving.postRound wSecond wPlacement (wFirst.list + 1)).2,
      rfl, by decide +kernel, by decide +kernel, by decide +kernel, by decide +kernel, by decide +kernel, by decide +kernel,
      by decide +kernel, pair_eq _⟩

/-- Meets the hypotheses of `Obligations.ReceiveRounds`, of one clause. -/
theorem witness_ReceiveRounds_3 :
    ∃ (s : State) (rt : Fin 2) (r : RecvRun) (p : Placement), s.halted = false ∧ s.router rt = .recv r ∧ s.placement r.place = some p ∧
        r.gathered = false ∧ s.roundHeaders r p = none :=
  ⟨(routed (.recv { wRecv with round := 1 })), 1, { wRecv with round := 1 }, wPlacement, by decide +kernel⟩

/-- Meets the hypotheses of `Obligations.ReceiveRounds`, of one clause. -/
theorem witness_ReceiveRounds_4 :
    ∃ (s : State) (rt : Fin 2) (r : RecvRun) (p : Placement), s.halted = false ∧ s.router rt = .recv r ∧ s.placement r.place = some p ∧
        r.gathered = true ∧ r.list = 4 ∧ r.returning = 0 ∧ (∀ x ∈ r.srcs, x.last = true ∨ x.gone = true) :=
  ⟨(routed (.recv { wRecv with gathered := true, list := 4, srcs := [{ last := true }] })), 1, { wRecv with gathered := true, list := 4, srcs := [{ last := true }] }, wPlacement,
      by decide +kernel⟩

/-- Meets the hypotheses of `Obligations.ReceiveRounds`, of one clause. -/
theorem witness_ReceiveRounds_5 :
    ∃ (s : State) (rt : Fin 2) (r : RecvRun) (p : Placement), s.halted = false ∧ s.router rt = .recv r ∧ s.placement r.place = some p ∧
        r.gathered = true ∧ r.list + 1 = fld r.desc 1 1 ∧ r.list ≠ 4 ∧ s.listDone r = true :=
  ⟨(routed (.recv { wRecv with gathered := true, desc := fields [(1, 1, 1)], listBase := 1 })), 1, { wRecv with gathered := true, desc := fields [(1, 1, 1)], listBase := 1 }, wPlacement,
      by decide +kernel⟩

/-- Meets the hypotheses of `Obligations.ReceiveRounds`, of one clause. -/
theorem witness_ReceiveRounds_6 :
    ∃ (s : State) (rt : Fin 2) (r : RecvRun) (p : Placement), s.halted = false ∧ s.router rt = .recv r ∧ s.placement r.place = some p ∧
        r.gathered = true ∧ r.list = 4 ∧ r.returning = 0 ∧ (∃ x ∈ r.srcs, x.last = false ∧ x.gone = false) :=
  ⟨(routed (.recv { wRecv with gathered := true, list := 4 })), 1, { wRecv with gathered := true, list := 4 }, wPlacement, by decide +kernel⟩

/-- Meets the hypotheses of `Obligations.ReceiveRounds`, of one clause. -/
theorem witness_ReceiveRounds_7 :
    ∃ (s : State) (rt : Fin 2) (r : RecvRun) (p : Placement), s.halted = false ∧ s.router rt = .recv r ∧ s.placement r.place = some p ∧
        r.gathered = false ∧ s.roundHeaders r p = none ∧ r.since + 100 * (s.reg (blkSHOAL + 0x10)).toNat < s.now :=
  ⟨{ (routed (.recv { wRecv with round := 1 })) with tick := 100001 }, 1, { wRecv with round := 1 }, wPlacement, by decide +kernel⟩

/-- Meets the hypotheses of `Obligations.ScrubAndQuarantine`, clause by clause. -/
theorem witness_ScrubAndQuarantine :
    (∃ (s : State), s.answers = true ∧ s.hbm.scrubOn = true ∧ s.hbm.selfRefresh = false ∧ s.mem.poison = [] ∧ s.mem.failed = [] ∧
        s.hbm.scrubOff + 64 < 0x40000000) ∧
    (∃ (s : State), s.answers = true ∧ s.hbm.scrubOn = true ∧ s.hbm.selfRefresh = false ∧ s.mem.poison = [] ∧ s.mem.failed = [] ∧
        0x40000000 ≤ s.hbm.scrubOff + 64) ∧
    (∃ (s : State) (_found : List CellFault), (s.hbm.scrubOn = false ∨ s.hbm.selfRefresh = true)) ∧
    (∃ (s : State) (c : Cove) (d : CoveDecl) (page : Nat), s.answers = true ∧ s.cove c = some d ∧ s.quarDue c page = true ∧ d.hbmBase % 65536 = 0 ∧
        (∀ i, i < 1024 → s.region (d.pageDpa page + 64 * i) = .hbm)) ∧
    (∃ (s : State) (c : Cove) (page : Nat) (_found : List CellFault), s.quarDue c page = false) :=
  ⟨⟨{ Z with hbm := { Z.hbm with scrubOn := true, scrubOff := 0x3FFFFF80 } }, by decide +kernel⟩,
   ⟨{ Z with hbm := { Z.hbm with scrubOn := true, scrubOff := 0x3FFFFFC0 } }, by decide +kernel⟩,
   ⟨Z, [], by decide +kernel⟩,
   ⟨{ on with seq := (Vector.replicate 8 {}).set 0 { quar := [3] } }, 0, wCove, 3, by decide +kernel⟩,
   ⟨Z, 7, 0, [], by decide +kernel⟩⟩

/-- Meets the hypotheses of `Obligations.RosterAndTemperatures`, clause by clause. -/
theorem witness_RosterAndTemperatures :
    (∃ (s : State) (w : Word), s.answers = true ∧ w.getLsbD 31 = true ∧ s.chan (w.toNat % 512) = .live) ∧
    (∃ (s : State) (w : Word), s.answers = true ∧ w.getLsbD 31 = true ∧ s.chan (w.toNat % 512) ≠ .live ∧ s.chan (w.toNat % 512) ≠ .watch) ∧
    (∃ (s : State) (ch : Nat), s.answers = true ∧ s.hbm.move = none ∧ s.stopped = false ∧ s.hbm.selfRefresh = false ∧ s.wideReset = false ∧
        s.nextWatch = some ch ∧ s.spareLeft ≠ 0) ∧
    (∃ (s : State) (ch : Nat), s.answers = true ∧ s.hbm.move = none ∧ s.stopped = false ∧ s.hbm.selfRefresh = false ∧ s.wideReset = false ∧
        s.nextWatch = some ch ∧ s.spareLeft = 0) ∧
    (∃ (s : State) (m : MapMove), s.answers = true ∧ s.hbm.move = some m ∧ s.stopped = false ∧ s.hbm.selfRefresh = false ∧ s.wideReset = false ∧
        s.mem.failed = [] ∧ m.ch < 384) ∧
    (∃ (s : State) (_rs : List (Option Nat)) (_i : Fin 12), s.answers = true) :=
  ⟨⟨Z, 0x8000017F, by decide +kernel⟩,
   ⟨Z, 0x800001FF, by decide +kernel⟩,
   ⟨{ Z with hbm := { Z.hbm with roster := Z.hbm.roster.set 0 .watch, spareEnd := 1 } }, 0, by decide +kernel⟩,
   ⟨{ Z with hbm := { Z.hbm with roster := Z.hbm.roster.set 0 .watch } }, 0, by decide +kernel⟩,
   ⟨{ Z with hbm := { Z.hbm with move := some ⟨383, 0, 0⟩ } }, ⟨383, 0, 0⟩, by decide +kernel⟩,
   ⟨Z, [], 11, by decide +kernel⟩⟩

/-- Meets the hypotheses of `Obligations.ObjectWordsAndShootdown`, clause by clause. -/
theorem witness_ObjectWordsAndShootdown :
    (∃ (s : State) (c : Cove) (_lo : Option Word) (_hi : Word), s.answers = true ∧ s.cove c = none) ∧
    (∃ (s : State) (c : Cove) (d : CoveDecl) (_lo : Option Word) (_hi : Word) (i : Nat), s.answers = true ∧ s.cove c = some d ∧
        i = (s.reg (spwOff c 0)).toNat % 16384 ∧ (s.obj c i).word.enc ≠ s.reg64 (spwOff c 8)) ∧
    (∃ (s : State) (c : Cove) (d : CoveDecl) (_lo : Option Word) (_hi : Word) (i : Nat), s.answers = true ∧ s.cove c = some d ∧
        i = (s.reg (spwOff c 0)).toNat % 16384 ∧ (s.obj c i).word.enc ≠ s.reg64 (spwOff c 8)) ∧
    (∃ (s : State) (c : Cove) (d : CoveDecl) (lo : Option Word) (hi : Word) (i : Nat) (n : ObjWord), s.answers = true ∧ s.cove c = some d ∧
        i = (s.reg (spwOff c 0)).toNat % 16384 ∧ (s.obj c i).word.enc = s.reg64 (spwOff c 8) ∧
        objWordOf ((lo.getD (s.reg (spwOff c 0x10))).toNat + 0x100000000 * hi.toNat) = some n ∧ casRow (s.obj c i).word n = .pins) ∧
    (∃ (s : State) (c : Cove) (d : CoveDecl) (lo : Option Word) (hi : Word) (i : Nat) (n : ObjWord), s.answers = true ∧ s.cove c = some d ∧
        i = (s.reg (spwOff c 0)).toNat % 16384 ∧ (s.obj c i).word.enc = s.reg64 (spwOff c 8) ∧
        objWordOf ((lo.getD (s.reg (spwOff c 0x10))).toNat + 0x100000000 * hi.toNat) = some n ∧ casRow (s.obj c i).word n = .pins) ∧
    (∃ (s : State) (c : Cove) (v : Word), s.answers = true ∧ v.getLsbD 0 = true ∧ (vget {} s.dtu c).busy = false) ∧
    (∃ (s : State) (c : Cove) (v : Word), (v.getLsbD 0 = false ∨ (vget {} s.dtu c).busy = true)) ∧
    (∃ (s : State) (_c : Cove), s.answers = true) :=
  ⟨⟨Z, 7, none, 0, by decide +kernel⟩,
   ⟨{ on with regs := [(spwOff 0 8, 1)] }, 0, wCove, none, 0, 0, by decide +kernel⟩,
   ⟨{ on with regs := [(spwOff 0 0, 16383), (spwOff 0 8, 1)] }, 0, wCove, some 5, 7, 16383, by decide +kernel⟩,
   ⟨{ on with objs := [(0, { word := { state := .resident } })], regs := [(spwOff 0 8, 5), (spwOff 0 0x10, 0x1000005)] }, 0, wCove, none, 0, 0, { pins := 1, state := .resident },
       by decide +kernel⟩,
   ⟨{ on with objs := [(0, { word := { state := .resident } })], regs := [(spwOff 0 8, 5)] }, 0, wCove, some 0x1000005, 0, 0, { pins := 1, state := .resident },
       by decide +kernel⟩,
   ⟨{ Z with regs := [(coveOff blkDTU 7 0x18, 0xFFFFFFFF)] }, 7, 1, by decide +kernel⟩,
   ⟨Z, 7, 0xFFFFFFFE, by decide +kernel⟩,
   ⟨Z, 7, by decide +kernel⟩⟩

/-- Meets the hypotheses of `Obligations.PageMovesAndRefetches`, clause by clause. -/
theorem witness_PageMovesAndRefetches :
    (∃ (s : State) (c : Cove) (i : Fin 16384) (d : CoveDecl), s.halted = false ∧ s.cove c = some d ∧ d.unified = false ∧
        (s.obj c i).word.state = .promoting ∧ (s.obj c i).decl.slowDpa (s.obj c i).moved < hostDpa ∧
        (s.obj c i).moved + 1 < (s.obj c i).decl.npages) ∧
    (∃ (s : State) (e : Fin 262144) (_ok : Bool) (deep : Bool) (k : KvPage) (n : Nat) (l : List Nat) (p : Pool), s.halted = false ∧
        (s.sx e).move = some (.demote deep) ∧ p = (if deep then .deep else .host) ∧ ((s.sx e).pages.find? (fun y => y.pool = .hbm ∧
        (s.sx e).movePos ≤ y.va) = some k) ∧ (deep = true ∨ s.pageBad (s.kvDpa k) = false) ∧ s.kvPick k.cove p 1 = n :: l ∧
        ((s.sx e).pages.any (fun y => y.pool = .hbm ∧ k.va < y.va) = true)) ∧
    (∃ (s : State) (e : Fin 262144) (_ok : Bool) (deep : Bool) (k : KvPage) (n : Nat) (l : List Nat) (p : Pool), s.halted = false ∧
        (s.sx e).move = some (.demote deep) ∧ p = (if deep then .deep else .host) ∧ ((s.sx e).pages.find? (fun y => y.pool = .hbm ∧
        (s.sx e).movePos ≤ y.va) = some k) ∧ (deep = true ∨ s.pageBad (s.kvDpa k) = false) ∧ s.kvPick k.cove p 1 = n :: l ∧
        ((s.sx e).pages.any (fun y => y.pool = .hbm ∧ k.va < y.va) = true)) ∧
    (∃ (s : State) (w : Waiter) (va : Nat) (i : Nat), s.halted = false ∧ s.poisonWaits = [(w, va)] ∧ s.refetchOf w.cove va = none ∧
        s.pageOwner w va = some i ∧ s.flt.refetch.length < 512) ∧
    (∃ (s : State) (c : Cove) (va : Nat) (a : Nat) (r : Refetch) (b : List Byte), s.halted = false ∧ s.refetchOf c va = some r ∧ ((r.source = 1 ∧
        r.page = some b) ∨ (r.source = 2 ∧ s.recordPage r = .ok b)) ∧ (∀ w ∈ r.waiters, w.unit ≠ unitFerry) ∧ r.writes = [] ∧ r.obj < 16384 ∧
        s.restoreDpa r = some a) ∧
    (∃ (s : State) (c : Cove) (va : Nat) (r : Refetch) (_b : Bool), s.halted = false ∧ s.flt.refetch = [r] ∧ r.cove = c.val ∧ r.va = va ∧
        r.source = 0 ∧ r.obj < 16384 ∧ r.waiters = []) ∧
    (∃ (s : State) (x : Fin 4) (r : Refetch) (k : Intake), s.halted = false ∧ s.mayWork (0xD4 + x) = true ∧ s.loadCtx x = none ∧ s.flt.refetch = [r] ∧
        r.source = 2 ∧ (∀ y : Fin 4, ∀ q, s.loadCtx y = some q → q.refetch = none) ∧ (s.obj r.cove r.obj).intake = some k ∧ s.wantsRerun r = true) :=
  ⟨⟨{ on with objs := [(16383, { decl := { bytes := 0x20000 }, word := { state := .promoting } })] }, 0, 16383, wCove, by decide +kernel⟩,
   ⟨{ withImage { wImage with coves := (Vector.replicate 8 none).set 0 (some { wCove with kvHbmPages := 2, kvHostPages := 2, kvDeepPages := 2 }) } with strm := [(15, { move := some (.demote false), pages := [⟨0, .hbm, 0, 0⟩, ⟨0, .hbm, 1, 0x10000⟩] })] }, 15, true, false, ⟨0, .hbm, 0, 0⟩, 0, [], .host,
       by decide +kernel⟩,
   ⟨{ withImage { wImage with coves := (Vector.replicate 8 none).set 0 (some { wCove with kvHbmPages := 2, kvHostPages := 2, kvDeepPages := 2 }) } with strm := [(15, { move := some (.demote true), pages := [⟨0, .hbm, 0, 0⟩, ⟨0, .hbm, 1, 0x10000⟩] })] }, 15, true, true, ⟨0, .hbm, 0, 0⟩, 0, [], .deep,
       by decide +kernel⟩,
   ⟨{ on with cores := (Vector.replicate 128 none).set 127 (some { wRun with waiting := some 0x10000 }), objs := [(3, { decl := { bytes := 0x20000 }, word := { state := .resident } })] }, ⟨unitMxc, 0, 127⟩, 0x10000, 3,
       by decide +kernel⟩,
   ⟨refetching wMirror, 0, 0, 0, wMirror, wRefetched, by decide +kernel, rfl, .inl ⟨rfl, wMirror_page⟩, (fun _ h => nomatch h), rfl,
       by decide +kernel, by decide +kernel⟩,
   ⟨refetching { cove := 0, obj := 3, va := 0, source := 0 }, 0, 0, { cove := 0, obj := 3, va := 0, source := 0 }, true, by decide +kernel⟩,
   ⟨rerunning, 3, { cove := 0, obj := 3, va := 0, source := 2 }, wIntake, by decide +kernel, by decide +kernel, by decide +kernel, rfl,
       rfl, (fun y _ h => nomatch (rerunning_idle y).symm.trans h), by decide +kernel, by decide +kernel⟩⟩

/-- Meets the hypotheses of `Obligations.LoadsOfTheInlet`, clause by clause. -/
theorem witness_LoadsOfTheInlet :
    (∃ (s : State) (u : State) (v : State) (x : Fin 4) (c : Nat) (a : Nat) (n : Nat) (rest : List Nat) (d : List Byte) (t0 : List Byte), s.halted = false ∧
        s.mayWork (0xD4 + x) = true ∧ s.loadCtx x = none ∧ s.rerunDue = false ∧ s.loadCove = some c ∧ vget [] s.inl.queues c = a :: rest ∧
        s.loadPoison c a = [] ∧ u = (s.modInl fun i => { i with queues := vmod i.queues c fun _ => rest, lastCove := c }).touch c unitInlet 0 a 128 ∧
        u.peek c a 128 = .ok d ∧ loadFields a d = true ∧ u.peek c (ldTensorAddr d) (64 * ldTensors d) = .ok t0 ∧
        u.loadCheck c a d (tensorList t0) = none ∧ ldTensors d ≠ 0 ∧
        v = u.setWord c (ldObj d) (fun w => { w with state := .loading, use := w.use + 1 }) ∧ n = (v.obj c (ldObj d)).decl.npages ∧
        (ldHbm d = true → (v.objFreePages c n).length = n)) ∧
    (∃ (s : State) (x : Fin 4) (k : LoadCtx) (b : List Byte) (outs : List (List Byte × TensorOut)), s.halted = false ∧ s.loadCtx x = some k ∧
        k.refetch = none ∧ k.waiting = false ∧ k.abortCause none = none ∧ s.loadResult k none = .ok (b, outs)) ∧
    (∃ (s : State) (x : Fin 4) (k : LoadCtx), s.halted = false ∧ s.loadCtx x = some k ∧ k.refetch = none ∧ k.cancelled = true ∧ k.waiting = true ∧
        ldEncrypted k.desc = false) ∧
    (∃ (s : State) (c : Cove) (lo : Word) (hi : Word), s.halted = false ∧ lo.toNat + 0x100000000 * hi.toNat ∈ vget [] s.inl.queues c) ∧
    (∃ (s : State) (c : Cove) (lo : Word) (hi : Word) (x : Fin 4) (k : LoadCtx), s.halted = false ∧
        lo.toNat + 0x100000000 * hi.toNat ∉ vget [] s.inl.queues c ∧ s.loadCtx x = some k ∧ k.cove = c.val ∧
        k.addr = lo.toNat + 0x100000000 * hi.toNat ∧ k.refetch = none) :=
  ⟨⟨loading, (((loading.modInl fun i => { i with queues := vmod i.queues 0 fun _ => [], lastCove := 0 }) : State).touch 0 unitInlet 0 0x28000 128), ((((loading.modInl fun i => { i with queues := vmod i.queues 0 fun _ => [], lastCove := 0 }) : State).touch 0 unitInlet 0 0x28000 128).setWord 0 3 fun w => { w with state := .loading, use := w.use + 1 }), 3, 0, 0x28000, 1, [], wLoad, wTensor,
      by decide +kernel, by decide +kernel, by decide +kernel, by decide +kernel, by decide +kernel, by decide +kernel, by decide +kernel, rfl,
      by decide +kernel, by decide +kernel, by decide +kernel, by decide +kernel, by decide +kernel, rfl, by decide +kernel, by decide +kernel⟩,
   ⟨inContext wCtx, 3, wCtx, [], [], by decide +kernel, by decide +kernel, by decide +kernel, by decide +kernel, by decide +kernel, rfl⟩,
   ⟨inContext { wCtx with cancelled := true, waiting := true }, 3, { wCtx with cancelled := true, waiting := true }, by decide +kernel⟩,
   ⟨loading, 0, 0x28000, 0, by decide +kernel⟩,
   ⟨inContext wCtx, 0, 0x28000, 0, 3, wCtx, by decide +kernel⟩⟩

/-- Meets the hypotheses of `Obligations.FerryDescriptors`, clause by clause. -/
theorem witness_FerryDescriptors :
    (∃ (s : State) (c : Cove) (_lo : Word) (_hi : Word), s.answers = true ∧ (vget [] s.bsn.queues c).length < 64) ∧
    (∃ (s : State) (c : Cove) (_lo : Word) (_hi : Word), s.answers = true ∧ 64 ≤ (vget [] s.bsn.queues c).length) ∧
    (∃ (s : State) (u : State) (e : Fin 48) (c : Nat) (w : FerryWait) (d : List Byte), s.halted = false ∧ s.mayWork (0xA0 + e) = true ∧
        s.ferry e = none ∧ s.bsn.direct = [] ∧
        ((List.range 8).map fun i => (s.bsn.lastCove + 1 + i) % 8).find? (fun c => (s.ferryStartable c).isSome) = some c ∧
        s.ferryStartable c = some w ∧
        u = ({ s with bsn := { s.bsn with queues := vmod s.bsn.queues c fun q => q.erase w, lastCove := c } } : State).touch c unitFerry 0 w.addr 128 ∧
        u.peek c w.addr 128 = .ok d) ∧
    (∃ (s : State) (e : Fin 48) (r : FerryRun), s.halted = false ∧ s.ferry e = some r ∧ r.job.op = 0x41 ∧ r.completed = false ∧ r.loading = false ∧
        r.issued = true ∧ r.outs = 0 ∧ r.stop = false ∧ r.chunk + 1 = r.job.chunks ∧ bit r.job.dstCtr 16 = true ∧ r.dest = none) ∧
    (∃ (s : State) (e : Fin 48) (r : FerryRun), s.halted = false ∧ s.ferry e = some r ∧ r.job.op = 0x41 ∧ r.completed = false ∧ r.outs = 0 ∧
        r.incs = 0 ∧ r.waiting = none ∧ r.stop = false ∧ r.job.chunks ≤ r.chunk ∧ r.noCompletion = false ∧ bit r.job.dstCtr 16 = true ∧
        r.dest = none ∧ (r.job.flag = false ∨ s.flagWaits r.job.cove = ([], .done))) ∧
    (∃ (s : State) (e : Fin 48) (r : FerryRun), s.halted = false ∧ s.ferry e = some r ∧ r.job.op = 0x41 ∧ r.completed = false ∧ r.outs = 0 ∧
        r.incs = 0 ∧ r.waiting = none ∧ r.stop = false ∧ r.job.chunks ≤ r.chunk ∧ r.noCompletion = false ∧ bit r.job.dstCtr 16 = true ∧
        r.dest = none ∧ (r.job.flag = false ∨ s.flagWaits r.job.cove = ([], .done))) ∧
    (∃ (s : State) (e : Fin 48) (r : FerryRun), s.halted = false ∧ s.ferry e = some r ∧ r.job.op = 0x41 ∧ r.completed = false ∧ r.outs = 0 ∧
        r.incs = 0 ∧ r.waiting = none ∧ r.stop = false ∧ r.job.chunks ≤ r.chunk ∧ r.noCompletion = false ∧ bit r.job.dstCtr 16 = true ∧
        r.dest = none ∧ r.job.flag = true ∧ s.flagWaits r.job.cove ≠ ([], .done)) ∧
    (∃ (s : State) (u : State) (e : Fin 48) (r : FerryRun), s.halted = false ∧ s.ferry e = some r ∧ r.completed = true ∧ r.outs = 0 ∧ r.incs = 0 ∧
        u = (if r.job.named = true then { s with bsn := { s.bsn with engines := vmod s.bsn.engines e fun _ => none } } else ({ s with bsn := { s.bsn with engines := vmod s.bsn.engines e fun _ => none } } : State).addShare r.job.cove poolFerry r.sharer 1)) ∧
    (∃ (s : State) (u : State) (e : Fin 48) (r : FerryRun), s.halted = false ∧ s.ferry e = some r ∧ r.completed = true ∧ r.outs = 0 ∧ r.incs = 0 ∧
        u = (if r.job.named = true then { s with bsn := { s.bsn with engines := vmod s.bsn.engines e fun _ => none } } else ({ s with bsn := { s.bsn with engines := vmod s.bsn.engines e fun _ => none } } : State).addShare r.job.cove poolFerry r.sharer 1)) ∧
    (∃ (s : State) (c : Cove) (lo : Word) (hi : Word) (e : Fin 48) (r : FerryRun), s.halted = false ∧
        (∀ w ∈ vget [] s.bsn.queues c, w.addr ≠ lo.toNat + 0x100000000 * hi.toNat) ∧ s.ferry e = some r ∧ r.job.cove = c.val ∧
        r.job.desc = some (lo.toNat + 0x100000000 * hi.toNat) ∧ r.job.op = 0x41 ∧ r.completed = false) ∧
    (∃ (s : State) (u : State) (c : Cove) (lo : Word) (hi : Word) (w : FerryWait) (d : List Byte), s.halted = false ∧
        (vget [] s.bsn.queues c).find? (fun w => w.addr = lo.toNat + 0x100000000 * hi.toNat) = some w ∧
        u = { s with bsn := { s.bsn with queues := vmod s.bsn.queues c fun q => q.erase w } } ∧ u.peek c w.addr 128 = .ok d) :=
  ⟨⟨Z, 7, 0xFFFFFFFF, 0xFFFFFFFF, by decide +kernel⟩,
   ⟨{ Z with bsn := { Z.bsn with queues := Vector.replicate 8 (List.replicate 64 ⟨0, 0, [], .done, false⟩) } }, 7, 0, 0, by decide +kernel⟩,
   ⟨({ mapped on [(0x28000, 0x41)] with bsn := { on.bsn with queues := (Vector.replicate 8 []).set 0 [⟨0x28000, 0, [], .done, false⟩] } } : State), (({ ({ mapped on [(0x28000, 0x41)] with bsn := { on.bsn with queues := (Vector.replicate 8 []).set 0 [⟨0x28000, 0, [], .done, false⟩] } } : State) with bsn := { ({ mapped on [(0x28000, 0x41)] with bsn := { on.bsn with queues := (Vector.replicate 8 []).set 0 [⟨0x28000, 0, [], .done, false⟩] } } : State).bsn with queues := vmod ({ mapped on [(0x28000, 0x41)] with bsn := { on.bsn with queues := (Vector.replicate 8 []).set 0 [⟨0x28000, 0, [], .done, false⟩] } } : State).bsn.queues 0 fun q => q.erase ⟨0x28000, 0, [], .done, false⟩, lastCove := 0 } } : State).touch 0 unitFerry 0 0x28000 128), 47, 0, ⟨0x28000, 0, [], .done, false⟩,
       okOf ((({ ({ mapped on [(0x28000, 0x41)] with bsn := { on.bsn with queues := (Vector.replicate 8 []).set 0 [⟨0x28000, 0, [], .done, false⟩] } } : State) with bsn := { ({ mapped on [(0x28000, 0x41)] with bsn := { on.bsn with queues := (Vector.replicate 8 []).set 0 [⟨0x28000, 0, [], .done, false⟩] } } : State).bsn with queues := vmod ({ mapped on [(0x28000, 0x41)] with bsn := { on.bsn with queues := (Vector.replicate 8 []).set 0 [⟨0x28000, 0, [], .done, false⟩] } } : State).bsn.queues 0 fun q => q.erase ⟨0x28000, 0, [], .done, false⟩, lastCove := 0 } } : State).touch 0 unitFerry 0 0x28000 128).peek 0 0x28000 128),
       by decide +kernel, by decide +kernel, by decide +kernel, by decide +kernel, by decide +kernel, by decide +kernel, rfl, by decide +kernel⟩,
   ⟨ferrying { job := wJob, issued := true }, 47, { job := wJob, issued := true }, by decide +kernel⟩,
   ⟨ferrying { job := wJob, chunk := 1 }, 47, { job := wJob, chunk := 1 }, by decide +kernel⟩,
   ⟨ferrying { job := { wJob with flag := true }, chunk := 1 }, 47, { job := { wJob with flag := true }, chunk := 1 }, by decide +kernel⟩,
   ⟨{ ferrying { job := { wJob with flag := true }, chunk := 1 } with bsn := { (ferrying { job := { wJob with flag := true }, chunk := 1 }).bsn with credits := [(16383, some { node := 2, cove := 0, window := 0, opc := 2, ssn := 5, start := 0 })] } }, 47, { job := { wJob with flag := true }, chunk := 1 },
       by decide +kernel⟩,
   ⟨ferrying { job := wJob, completed := true }, (({ ferrying { job := wJob, completed := true } with bsn := { (ferrying { job := wJob, completed := true }).bsn with engines := vmod (ferrying { job := wJob, completed := true }).bsn.engines 47 fun _ => none } } : State).addShare 0 poolFerry ({ job := wJob, completed := true } : FerryRun).sharer 1), 47, { job := wJob, completed := true },
       by decide +kernel, by decide +kernel, by decide +kernel, by decide +kernel, by decide +kernel, rfl⟩,
   ⟨ferrying { job := { wJob with named := true }, completed := true }, { ferrying { job := { wJob with named := true }, completed := true } with bsn := { (ferrying { job := { wJob with named := true }, completed := true }).bsn with engines := vmod (ferrying { job := { wJob with named := true }, completed := true }).bsn.engines 47 fun _ => none } }, 47, { job := { wJob with named := true }, completed := true },
       by decide +kernel, by decide +kernel, by decide +kernel, by decide +kernel, by decide +kernel, rfl⟩,
   ⟨ferrying { job := wJob }, 0, 0x28000, 0, 47, { job := wJob }, by decide +kernel⟩,
   ⟨({ mapped on [(0x28000, 0x41)] with bsn := { on.bsn with queues := (Vector.replicate 8 []).set 0 [⟨0x28000, 0, [], .done, false⟩] } } : State), ({ ({ mapped on [(0x28000, 0x41)] with bsn := { on.bsn with queues := (Vector.replicate 8 []).set 0 [⟨0x28000, 0, [], .done, false⟩] } } : State) with bsn := { ({ mapped on [(0x28000, 0x41)] with bsn := { on.bsn with queues := (Vector.replicate 8 []).set 0 [⟨0x28000, 0, [], .done, false⟩] } } : State).bsn with queues := vmod ({ mapped on [(0x28000, 0x41)] with bsn := { on.bsn with queues := (Vector.replicate 8 []).set 0 [⟨0x28000, 0, [], .done, false⟩] } } : State).bsn.queues 0 fun q => q.erase ⟨0x28000, 0, [], .done, false⟩ } } : State), 0, 0x28000, 0, ⟨0x28000, 0, [], .done, false⟩,
       okOf (({ ({ mapped on [(0x28000, 0x41)] with bsn := { on.bsn with queues := (Vector.replicate 8 []).set 0 [⟨0x28000, 0, [], .done, false⟩] } } : State) with bsn := { ({ mapped on [(0x28000, 0x41)] with bsn := { on.bsn with queues := (Vector.replicate 8 []).set 0 [⟨0x28000, 0, [], .done, false⟩] } } : State).bsn with queues := vmod ({ mapped on [(0x28000, 0x41)] with bsn := { on.bsn with queues := (Vector.replicate 8 []).set 0 [⟨0x28000, 0, [], .done, false⟩] } } : State).bsn.queues 0 fun q => q.erase ⟨0x28000, 0, [], .done, false⟩ } } : State).peek 0 0x28000 128),
       by decide +kernel, by decide +kernel, rfl, by decide +kernel⟩⟩

/-- Meets the hypotheses of `Obligations.TransactionsOfTheBasin`, clause by clause. -/
theorem witness_TransactionsOfTheBasin :
    (∃ (s : State) (t0 : TxReq) (rest : List TxReq) (tag : Nat), s.answers = true ∧ s.bsn.flagHeld = [] ∧ s.bsn.txWait = t0 :: rest ∧
        s.acceptHow t0 = .send tag) ∧
    (∃ (s : State) (t0 : TxReq) (rest : List TxReq), s.answers = true ∧ s.bsn.flagHeld = [] ∧ s.bsn.txWait = t0 :: rest ∧ t0.owner = .none ∧
        (s.node t0.req.dstNode).lost = true ∧ s.nodeListed t0.req.dstNode = true ∧ poisonOk t0.req = true) ∧
    (∃ (s : State) (r : BasinReq) (die : Nat) (rest : List (BasinReq × Nat)) (p : SeqIn), s.answers = true ∧ s.bsn.inReq = (r, die) :: rest ∧
        s.pairIn (pairKey r.srcCove r.srcNode) = p ∧ (s.node r.srcNode).lost = false ∧ p.known = true ∧ p.restored = false ∧ p.inc = r.inc ∧
        r.ssn ≠ p.next ∧ aheadOf r.ssn p.next = true) ∧
    (∃ (s : State) (r : BasinReq) (die : Nat) (rest : List (BasinReq × Nat)) (p : SeqIn), s.answers = true ∧ s.bsn.inReq = (r, die) :: rest ∧
        s.pairIn (pairKey r.srcCove r.srcNode) = p ∧ (s.node r.srcNode).lost = false ∧ p.known = true ∧ p.restored = false ∧ p.inc = r.inc ∧
        r.ssn = p.next ∧ p.held = []) ∧
    (∃ (s : State) (n : Node) (c : Cove) (g : DieGroup), s.answers = true ∧ s.bsn.applyQ = [g] ∧ (∃ x ∈ g.reqs, x.2.srcNode = n.toNat ∧
        x.2.srcCove = c.val) ∧ s.earlierWaits g = false ∧
        (∀ x, g.reqs.head? = some x → x.2.opc = 1 → g.win.kind = 1 → s.poisonPage g.win.cove (g.win.baseVa + x.2.offset) x.2.len = none)) ∧
    (∃ (s : State) (n : Node) (c : Cove) (g : DieGroup), s.answers = true ∧ s.bsn.applyQ = [g] ∧ (∃ x ∈ g.reqs, x.2.srcNode = n.toNat ∧
        x.2.srcCove = c.val) ∧ s.earlierWaits g = false ∧
        (∀ x, g.reqs.head? = some x → x.2.opc = 1 → g.win.kind = 1 → s.poisonPage g.win.cove (g.win.baseVa + x.2.offset) x.2.len = none)) ∧
    (∃ (s : State) (n : Node) (c : Cove) (g : DieGroup) (m : Nat) (r : BasinReq), s.answers = true ∧ s.memoryGone = false ∧ s.bsn.applyQ = [g] ∧
        g.reqs = [(m, r)] ∧ r.srcNode = n.toNat ∧ r.srcCove = c.val ∧ r.opc = 4 ∧ s.earlierWaits g = false) ∧
    (∃ (s : State) (r : BasinResp) (rest : List BasinResp) (o : Outst), s.answers = true ∧ s.bsn.inResp = r :: rest ∧
        (s.node r.srcNode).lost = false ∧ SMap.get [] s.bsn.groups r.tag = [] ∧ SMap.get none s.bsn.credits r.tag = some o ∧ o.node = r.srcNode ∧
        o.timedOut = false ∧ o.ssn = r.ssn ∧ o.owner = .none) ∧
    (∃ (s : State) (tag : Fin 16384) (o : Outst), s.answers = true ∧ SMap.get none s.bsn.credits tag = some o ∧ o.timedOut = false ∧ o.owner = .none ∧
        o.start + 100 * bits (s.reg (blkBSN + 4)).toNat 0 16 ≤ s.now ∧ (s.node o.node).lost = false) ∧
    (∃ (s : State) (tag : Fin 16384), SMap.get none s.bsn.credits tag = none) ∧
    (∃ (s : State) (d : Fin 2) (eg : Fin 38) (g : DieGroup) (rest : List DieGroup), s.answers = true ∧ eg.val = 36 + d.val ∧
        vget [] s.bsn.dieQ d = g :: rest) ∧
    (∃ (s : State) (n : Node) (c : Cove) (h : BasinReq × Nat × Nat), s.answers = true ∧ (s.pairIn (pairKey c n.toNat)).held = [h] ∧
        h.2.1 + 100 * bits (s.reg (blkLNK + 0x10)).toNat 16 16 ≤ s.now) ∧
    (∃ (s : State) (n : Node) (c : Cove), (s.pairIn (pairKey c n.toNat)).held = []) :=
  ⟨⟨basin { txWait := [wTx] }, wTx, [], 0, by decide +kernel⟩,
   ⟨basin { txWait := [wTx] } [(2, { lost := true })], wTx, [], by decide +kernel⟩,
   ⟨basin { inReq := [({ wReq with ssn := 1 }, 0)], seqIn := [(16, { known := true })] }, { wReq with ssn := 1 }, 0, [], { known := true },
       by decide +kernel⟩,
   ⟨basin { inReq := [(wReq, 1)], seqIn := [(16, { known := true })] }, wReq, 1, [], { known := true }, by decide +kernel⟩,
   ⟨basin { applyQ := [{ reqs := [(0, wReq)], at_ := 0 }] }, 2, 0, { reqs := [(0, wReq)], at_ := 0 }, by decide +kernel, by decide +kernel,
       by decide +kernel, by decide +kernel, by rintro x h; cases h; decide +kernel⟩,
   ⟨basin { applyQ := [{ reqs := [(0, { wReq with opc := 1 })], at_ := 0, win := { kind := 1 } }] }, 2, 0, { reqs := [(0, { wReq with opc := 1 })], at_ := 0, win := { kind := 1 } },
       by decide +kernel, by decide +kernel, by decide +kernel, by decide +kernel, by rintro x h; cases h; decide +kernel⟩,
   ⟨basin { applyQ := [{ reqs := [(0, { wReq with opc := 4 })], at_ := 0 }] }, 2, 0, { reqs := [(0, { wReq with opc := 4 })], at_ := 0 }, 0, { wReq with opc := 4 },
       by decide +kernel⟩,
   ⟨basin { inResp := [{ opc := 0, status := 0, srcNode := 2, dstNode := 1, tag := 16383, ssn := 5 }], credits := [(16383, some { node := 2, cove := 0, window := 0, opc := 2, ssn := 5, start := 0 })] }, { opc := 0, status := 0, srcNode := 2, dstNode := 1, tag := 16383, ssn := 5 }, [], { node := 2, cove := 0, window := 0, opc := 2, ssn := 5, start := 0 },
       by decide +kernel⟩,
   ⟨{ basin { credits := [(16383, some { node := 2, cove := 0, window := 0, opc := 2, ssn := 5, start := 0 })] } with tick := 50000 }, 16383, { node := 2, cove := 0, window := 0, opc := 2, ssn := 5, start := 0 },
       by decide +kernel⟩,
   ⟨Z, 16383, by decide +kernel⟩,
   ⟨basin { dieQ := (Vector.replicate 2 []).set 1 [{ reqs := [(0, wReq)], at_ := 0 }] }, 1, 37, { reqs := [(0, wReq)], at_ := 0 }, [],
       by decide +kernel⟩,
   ⟨{ basin { seqIn := [(16, { known := true, held := [(wReq, 0, 0)] })] } with tick := 20000 }, 2, 0, (wReq, 0, 0), by decide +kernel⟩,
   ⟨Z, 2, 0, by decide +kernel⟩⟩

/-- Meets the hypotheses of `Obligations.FramesOfAConnection`, clause by clause. -/
theorem witness_FramesOfAConnection :
    (∃ (s : State) (p : Port) (n : Node) (f : LinkFrame) (r : BasinReq) (_x : Nat) (k : Nat), s.answers = true ∧ k = s.connKey p n.toNat ∧
        (s.port p).state = .up ∧ (s.conn k).rxOpen = true ∧ f.packet = .request r ∧ r.dstNode = s.ownNode ∧ f.lsn = (s.conn k).expect % 0x1000000 ∧
        s.holdFull (s.linkDie p) r = false ∧ (s.node r.srcNode).seen = true ∧ newerInc r.inc (s.node r.srcNode).inc = false) ∧
    (∃ (s : State) (p : Port) (n : Node) (f : LinkFrame) (r : BasinReq) (_x : Nat) (k : Nat) (h : FrameHealth) (o : Nat), s.answers = true ∧
        k = s.connKey p n.toNat ∧ (s.port p).state = .up ∧ f.packet = .request r ∧
        (h, o) ∈ [(FrameHealth.uncorrectable, 0x28), (FrameHealth.badTag, 0x38)]) ∧
    (∃ (s : State) (p : Port) (n : Node) (f : LinkFrame) (r : BasinReq) (_x : Nat) (k : Nat) (h : FrameHealth) (o : Nat), s.answers = true ∧
        k = s.connKey p n.toNat ∧ (s.port p).state = .up ∧ f.packet = .request r ∧
        (h, o) ∈ [(FrameHealth.uncorrectable, 0x28), (FrameHealth.badTag, 0x38)]) ∧
    (∃ (s : State) (p : Port) (n : Node) (f : LinkFrame) (r : BasinReq) (_x : Nat) (k : Nat), s.answers = true ∧ k = s.connKey p n.toNat ∧
        (s.port p).state = .up ∧ (s.conn k).rxOpen = true ∧ f.packet = .request r ∧ f.lsn ≠ (s.conn k).expect % 0x1000000 ∧
        0x800000 ≤ (f.lsn + 0x1000000 - (s.conn k).expect % 0x1000000) % 0x1000000) ∧
    (∃ (s : State) (p : Port) (n : Node) (f : LinkFrame) (src : Nat) (port : Nat) (k : Nat) (k2 : Nat), s.answers = true ∧ k = s.connKey p n.toNat ∧
        (s.port p).state = .up ∧ (s.conn k).rxOpen = true ∧ f.packet = .resyncReq src s.ownNode port ∧ f.lsn = (s.conn k).expect % 0x1000000 ∧
        (s.node src).seen = true ∧ newerInc f.inc (s.node src).inc = false ∧ (s.conn k2).peer = src ∧ (s.conn k2).peerPort = port ∧
        (k2, s.conn k2) ∈ s.lnk.conns ∧ (∀ y ∈ s.lnk.conns, y.2.peer = src → y.2.peerPort = port → y.1 = k2) ∧
        ((s.conn k).peer = src → (s.conn k).peerPort = port → k = k2)) ∧
    (∃ (s : State) (p : Port) (n : Node) (f : LinkFrame) (src : Nat) (port : Nat) (lsn : Nat) (k : Nat), s.answers = true ∧ k = s.connKey p n.toNat ∧
        (s.port p).state = .up ∧ (s.conn k).rxOpen = true ∧ f.packet = .resyncAck src s.ownNode port lsn ∧ f.lsn = (s.conn k).expect % 0x1000000 ∧
        (s.node src).seen = true ∧ newerInc f.inc (s.node src).inc = false ∧ newerInc (s.node src).inc f.inc = false ∧
        (s.conn (65536 * port + src)).resync ≠ none) :=
  ⟨⟨linked wConn, 0, 2, wFrame (.request wReq), wReq, 0, 2, by decide +kernel⟩,
   ⟨linked wConn, 0, 2, wFrame (.request wReq), wReq, 0, 2, _, _, rfl, by decide +kernel, by decide +kernel, rfl, .head _⟩,
   ⟨linked wConn, 0, 2, wFrame (.request wReq), wReq, 0, 2, _, _, rfl, by decide +kernel, by decide +kernel, rfl, .tail _ (.head _)⟩,
   ⟨linked wConn, 0, 2, { wFrame (.request wReq) with lsn := 0xFFFFFF }, wReq, 0, 2, by decide +kernel⟩,
   ⟨linked wConn, 0, 2, wFrame (.resyncReq 2 1 0), 2, 0, 2, 2, by decide +kernel, by decide +kernel, by decide +kernel, by decide +kernel,
       by decide +kernel, by decide +kernel, by decide +kernel, by decide +kernel, by decide +kernel, by decide +kernel, .head _, by decide +kernel,
       by decide +kernel⟩,
   ⟨linked { wConn with resync := some 0 }, 0, 2, wFrame (.resyncAck 2 1 0 0), 2, 0, 0, 2, by decide +kernel⟩⟩

/-- Meets the hypotheses of `Obligations.ControlFramesOfAConnection`, clause by clause. -/
theorem witness_ControlFramesOfAConnection :
    (∃ (s : State) (p : Port) (n : Node) (_l : BitVec 24) (_a : BitVec 24) (c : DWord) (k : Nat), s.answers = true ∧ k = s.connKey p n.toNat ∧
        (s.port p).state = .up ∧ (s.conn k).rxOpen = true ∧ (s.conn k).aboveLast c.toNat = true ∧ (s.conn k).held = []) ∧
    (∃ (s : State) (p : Port) (n : Node) (l : BitVec 24) (a : BitVec 24) (c : DWord) (k : Nat) (h : HeldFrame), s.answers = true ∧
        k = s.connKey p n.toNat ∧ (s.port p).state = .up ∧ (s.conn k).rxOpen = true ∧ (s.conn k).aboveLast c.toNat = true ∧ (s.conn k).held = [h] ∧
        0x800000 ≤ (a.toNat + 0x1000000 - h.lsn % 0x1000000) % 0x1000000 ∧ (h.lsn % 0x1000000 + 0x1000000 - l.toNat) % 0x1000000 < 0x800000) ∧
    (∃ (s : State) (p : Port) (n : Node) (_l : BitVec 24) (_a : BitVec 24) (c : DWord) (_freed : List Nat), (s.conn (s.connKey p n.toNat)).aboveLast c.toNat = false) ∧
    (∃ (s : State) (p : Port) (n : Node) (k : Nat) (d : Nat), s.answers = true ∧ k = s.connKey p n.toNat ∧ (s.port p).state = .up ∧
        (s.conn k).ackDue = some d) ∧
    (∃ (s : State) (p : Port) (n : Node) (k : Nat) (h : HeldFrame), s.answers = true ∧ k = s.connKey p n.toNat ∧ (s.port p).state = .up ∧
        (s.conn k).isOpen = true ∧ (s.conn k).held = [h] ∧ h.sent + s.replayTime p ≤ s.now) ∧
    (∃ (s : State) (p : Port) (n : Node), (s.conn (s.connKey p n.toNat)).held = []) ∧
    (∃ (s : State) (p : Port) (n : Node) (_freed : List Nat) (_a : BitVec 24) (c : DWord) (k : Nat), s.answers = true ∧ k = s.connKey p n.toNat ∧
        s.portMode p = 1 ∧ (s.port p).state = .up ∧ (s.conn k).rxOpen = true ∧ (s.conn k).aboveLast c.toNat = true) ∧
    (∃ (s : State) (p : Port) (n : Node) (k : Nat), s.answers = true ∧ k = s.connKey p n.toNat ∧ s.portMode p = 1 ∧ (s.port p).state = .up ∧
        (s.conn k).isOpen = true ∧ (s.conn k).freedOut ≠ (s.conn k).reported) ∧
    (∃ (s : State) (p : Port) (n : Node) (k : Nat), s.answers = true ∧ k = s.connKey p n.toNat ∧ (s.port p).state = .up ∧ (s.conn k).isOpen = true ∧
        (s.conn k).lastTx + 10000 ≤ s.now) :=
  ⟨⟨linked wConn, 0, 2, 0, 0, 0, 2, by decide +kernel⟩,
   ⟨linked { wConn with held := [{ lsn := 5, frame := { packet := .request wReq, vl := 0, sub := 0, dim := 0, hops := 0, at_ := 0 }, sent := 0 }] }, 0, 2, 5, 4, 0, 2, { lsn := 5, frame := { packet := .request wReq, vl := 0, sub := 0, dim := 0, hops := 0, at_ := 0 }, sent := 0 },
       by decide +kernel⟩,
   ⟨linked { wConn with ctlRx := some 7 }, 0, 2, 0, 0, 7, [], by decide +kernel⟩,
   ⟨linked { wConn with ackDue := some 0 }, 0, 2, 2, 0, by decide +kernel⟩,
   ⟨{ linked { wConn with held := [{ lsn := 0, frame := { packet := .request wReq, vl := 0, sub := 0, dim := 0, hops := 0, at_ := 0 }, sent := 0 }] } with tick := 200 }, 0, 2, 2, { lsn := 0, frame := { packet := .request wReq, vl := 0, sub := 0, dim := 0, hops := 0, at_ := 0 }, sent := 0 },
       by decide +kernel⟩,
   ⟨Z, 35, 0xFFFF, by decide +kernel⟩,
   ⟨linked wConn, 0, 2, [], 0, 0, 2, by decide +kernel⟩,
   ⟨linked { wConn with reported := [] }, 0, 2, 2, by decide +kernel⟩,
   ⟨{ linked wConn with tick := 10000 }, 0, 2, 2, by decide +kernel⟩⟩

/-- Meets the hypotheses of `Obligations.LivesOfConnections`, clause by clause. -/
theorem witness_LivesOfConnections :
    (∃ (s : State) (p : Port) (n : Node) (k : Nat), s.answers = true ∧ k = s.connKey p n.toNat ∧ s.connFailed k = true ∧ s.portMode p ≠ 1 ∧
        (s.port p).state ≠ .retrain) ∧
    (∃ (s : State) (p : Port) (n : Node), s.answers = true ∧ s.connFailed (s.connKey p n.toNat) = true ∧ s.portMode p = 1 ∧ (s.port p).state = .up ∧
        (s.port p).retrains.length + 1 ≤ (s.reg (blkLNK + 0x18)).toNat % 256) ∧
    (∃ (s : State) (p : Port) (n : Node) (k : Nat) (d : Nat), s.answers = true ∧ k = s.connKey p n.toNat ∧ (s.conn k).resync = some d ∧
        d + 100 * bits (s.reg (blkLNK + 0x10)).toNat 8 8 ≤ s.now) ∧
    (∃ (s : State) (p : Port) (n : Node) (k : Nat), s.answers = true ∧ k = s.connKey p n.toNat ∧ s.portMode p = 2 ∧ (s.conn k).isOpen = true ∧
        (s.port p).state ≠ .retrain ∧ (s.conn k).lastRx + 100000 ≤ s.now) ∧
    (∃ (s : State) (p : Port) (n : Node) (k : Nat), s.answers = true ∧ k = s.connKey p n.toNat ∧ (s.conn k).isOpen = true ∧
        (s.conn k).failed = false ∧ (s.conn k).worn s.now = true ∧ (s.conn k).held ≠ []) ∧
    (∃ (s : State) (p : Port) (n : Node) (k : Nat), s.answers = true ∧ k = s.connKey p n.toNat ∧ (s.conn k).isOpen = true ∧
        (s.conn k).failed = false ∧ (s.conn k).worn s.now = true ∧ (s.conn k).held ≠ []) ∧
    (∃ (s : State) (p : Port) (n : Node) (k : Nat), s.answers = true ∧ k = s.connKey p n.toNat ∧ (s.conn k).isOpen = true ∧
        (s.conn k).failed = false ∧ (s.conn k).worn s.now = true ∧ (s.conn k).held = []) ∧
    (∃ (s : State) (p : Port) (n : Node) (k : Nat), s.answers = true ∧ k = s.connKey p n.toNat ∧ (s.conn k).isOpen = true ∧
        (s.conn k).failed = false ∧ (s.conn k).worn s.now = true ∧ (s.conn k).held = []) ∧
    (∃ (s : State) (p : Port) (n : Node), (s.conn (s.connKey p n.toNat)).worn s.now = false) ∧
    (∃ (s : State) (p : Port) (i : IdentFrame) (_b : Bool) (k : Nat), s.answers = true ∧ k = s.connKey p i.node ∧ (s.port p).state = .up ∧
        i.authentic = true ∧ s.keyReady i.node = true ∧ s.portMode p = 2 ∧ (s.node i.node).seen = true ∧ newerInc i.inc (s.node i.node).inc = false ∧
        (s.conn k).rekeying = true ∧ (s.conn k).held = []) ∧
    (∃ (s : State) (p : Port) (i : IdentFrame) (_b : Bool) (k : Nat), s.answers = true ∧ k = s.connKey p i.node ∧ (s.port p).state = .up ∧
        i.authentic = true ∧ s.keyReady i.node = true ∧ s.portMode p = 2 ∧ (s.node i.node).seen = true ∧ newerInc i.inc (s.node i.node).inc = false ∧
        (s.conn k).rekeying = true ∧ (s.conn k).held = []) ∧
    (∃ (s : State) (p : Port) (i : IdentFrame), s.answers = true ∧ (s.port p).state = .training ∧ i.authentic = true ∧ s.keyReady i.node = true ∧
        s.portMode p = 1 ∧ i.node = (s.portEntry p).peerNode ∧ i.port = (s.portEntry p).peerPort ∧ (s.node i.node).seen = true ∧
        newerInc i.inc (s.node i.node).inc = false ∧ (s.conn (s.connKey p i.node)).rekeying = false) ∧
    (∃ (s : State) (p : Port) (_i : IdentFrame) (_b : Bool), (s.port p).state ≠ .training ∧ (s.port p).state ≠ .up) ∧
    (∃ (s : State) (p : Port) (n : Node) (_a : BitVec 24) (c : DWord), s.answers = true ∧ (s.port p).state = .up ∧
        (s.conn (s.connKey p n.toNat)).rxOpen = true ∧ (s.conn (s.connKey p n.toNat)).aboveLast c.toNat = true) ∧
    (∃ (s : State) (p : Port) (_vl : Fin 8), s.answers = true ∧ s.portMode p = 2) ∧
    (∃ (s : State) (p : Port) (_vl : Fin 8), s.answers = true ∧ s.portMode p = 2 ∧ (s.port p).paused.Nodup) ∧
    (∃ (s : State) (im : Image) (n : Node), s.answers = true ∧ s.image = some im ∧ n.toNat ∈ SMap.keys im.links) :=
  ⟨⟨{ on with tick := 0, lnk := { on.lnk with ports := on.lnk.ports.set 4 { state := .up }, conns := [(262146, { wConn with failed := true })], zReady := [2] }, flt := { on.flt with nodes := [(2, { seen := true })] } }, 4, 2, 262146,
      by decide +kernel⟩,
   ⟨linked { wConn with failed := true }, 0, 2, by decide +kernel⟩,
   ⟨{ linked { wConn with resync := some 0 } with tick := 2000 }, 0, 2, 2, 0, by decide +kernel⟩,
   ⟨{ on with tick := 100000, lnk := { on.lnk with ports := on.lnk.ports.set 4 { state := .up }, conns := [(262146, wConn)], zReady := [2] }, flt := { on.flt with nodes := [(2, { seen := true })] } }, 4, 2, 262146,
       by decide +kernel⟩,
   ⟨{ linked { wConn with held := [{ lsn := 0, frame := { packet := .request wReq, vl := 0, sub := 0, dim := 0, hops := 0, at_ := 0 }, sent := 0 }] } with tick := 8640000000000 }, 0, 2, 2,
       by decide +kernel⟩,
   ⟨linked { wConn with nextLsn := 2 ^ 40, held := [{ lsn := 0, frame := { packet := .request wReq, vl := 0, sub := 0, dim := 0, hops := 0, at_ := 0 }, sent := 0 }] }, 0, 2, 2,
       by decide +kernel⟩,
   ⟨{ linked wConn with tick := 8640000000000 }, 0, 2, 2, by decide +kernel⟩,
   ⟨linked { wConn with ctlTx := 2 ^ 40 }, 0, 2, 2, by decide +kernel⟩,
   ⟨linked wConn, 0, 2, by decide +kernel⟩,
   ⟨{ on with tick := 0, lnk := { on.lnk with ports := on.lnk.ports.set 4 { state := .up }, conns := [(262146, { wConn with rekeying := true })], zReady := [2] }, flt := { on.flt with nodes := [(2, { seen := true })] } }, 4, ⟨2, 0, 0, 0, true, List.replicate 16 0, true, 0⟩, true, 262146,
       by decide +kernel⟩,
   ⟨{ on with tick := 0, lnk := { on.lnk with ports := on.lnk.ports.set 4 { state := .up }, conns := [(262146, { wConn with rekeying := true })], zReady := [2] }, flt := { on.flt with nodes := [(2, { seen := true })] } }, 4, ⟨2, 0, 0, 0, true, List.replicate 16 0, true, 0⟩, false, 262146,
       by decide +kernel⟩,
   ⟨linked {} .training, 0, ⟨2, 0, 0, 0, true, List.replicate 16 0, true, 0⟩, by decide +kernel⟩,
   ⟨Z, 35, ⟨2, 0, 0, 0, true, List.replicate 16 0, true, 0⟩, true, by decide +kernel⟩,
   ⟨linked wConn, 0, 2, 0, 0, by decide +kernel⟩,
   ⟨on, 4, 7, by decide +kernel⟩,
   ⟨on, 4, 7, by decide +kernel⟩,
   ⟨on, wImage, 2, by decide +kernel⟩⟩

/-- Meets the hypotheses of `Obligations.StatesOfAPort`, clause by clause. -/
theorem witness_StatesOfAPort :
    (∃ (s : State) (p : Port), s.answers = true ∧ (s.port p).state = .up) ∧
    (∃ (s : State) (p : Port), s.answers = true ∧ (s.port p).state ≠ .up) ∧
    (∃ (s : State) (p : Port), s.answers = true ∧ (s.port p).state = .down ∧ (s.port p).heldDown = false ∧ (¬(s.portMode p = 1 ∧
        (s.portEntry p).cablePower < (s.port p).powerClass))) ∧
    (∃ (s : State) (p : Port), s.answers = true ∧ (s.port p).state = .down ∧ (s.port p).heldDown = false ∧ (¬(s.portMode p = 1 ∧
        (s.portEntry p).cablePower < (s.port p).powerClass)) ∧ ((s.port p).signal = true ∨ (s.port p).since + 100000000 ≤ s.now)) ∧
    (∃ (s : State) (p : Port), s.answers = true ∧ (s.port p).state = .down ∧ (s.port p).heldDown = false ∧ (¬(s.portMode p = 1 ∧
        (s.portEntry p).cablePower < (s.port p).powerClass)) ∧ ((s.port p).signal = true ∨ (s.port p).since + 100000000 ≤ s.now)) ∧
    (∃ (s : State) (p : Port), s.answers = true ∧ (s.port p).state = .down ∧ (s.port p).heldDown = false ∧ s.portMode p = 1 ∧
        (s.portEntry p).cablePower < (s.port p).powerClass ∧ (s.port p).signal = false ∧ (s.port p).since + 100000000 ≤ s.now) ∧
    (∃ (s : State) (p : Port), s.answers = true ∧ (s.port p).signal = false ∧ s.now < (s.port p).since + 100000000) ∧
    (∃ (s : State) (p : Port), s.answers = true ∧ (s.port p).state = .up ∧ ((s.port p).retrains.length + 1 ≤ (s.reg (blkLNK + 0x18)).toNat % 256)) ∧
    (∃ (s : State) (p : Port), s.answers = true ∧ (s.port p).state = .training ∧ (s.port p).since + 50000000 ≤ s.now ∧ (s.port p).signal = false) ∧
    (∃ (s : State) (p : Port), s.answers = true ∧ (s.port p).state = .retrain ∧ (s.port p).since + 3000000 ≤ s.now) ∧
    (∃ (s : State) (p : Port), s.answers = true ∧ (s.port p).state = .retrain ∧ s.now < (s.port p).since + 3000000) ∧
    (∃ (s : State) (p : Port) (_te : Byte) (_pc : Byte) (_st : Byte), s.answers = true ∧ s.portMode p = 1) ∧
    (∃ (s : State) (p : Port) (_te : Byte) (_pc : Byte) (_st : Byte) (_a : Bool) (_b : Bool), s.answers = true ∧ s.portMode p = 1 ∧
        (s.port p).state = .up) ∧
    (∃ (s : State) (w : Word) (p : Port), s.answers = true ∧ w.getLsbD 31 = true ∧ w.toNat % 64 = p.val ∧ (s.port p).state ≠ .off ∧
        (s.port p).state ≠ .out) ∧
    (∃ (s : State) (w : Word), s.answers = true ∧ w.getLsbD 31 = true ∧
        (36 ≤ w.toNat % 64 ∨ (s.port (w.toNat % 64)).state = .off ∨ (s.port (w.toNat % 64)).state = .out)) :=
  ⟨⟨ported { state := .up }, 0, by decide +kernel⟩,
   ⟨Z, 35, by decide +kernel⟩,
   ⟨ported { state := .down }, 0, by decide +kernel⟩,
   ⟨ported { state := .down } 100000000, 0, by decide +kernel⟩,
   ⟨ported { state := .down, signal := true }, 0, by decide +kernel⟩,
   ⟨ported { state := .down, powerClass := 1 } 100000000, 0, by decide +kernel⟩,
   ⟨ported { state := .down } 99999999, 0, by decide +kernel⟩,
   ⟨ported { state := .up, retrains := [0, 0, 0] }, 0, by decide +kernel⟩,
   ⟨ported { state := .training } 50000000, 0, by decide +kernel⟩,
   ⟨ported { state := .retrain } 3000000, 0, by decide +kernel⟩,
   ⟨ported { state := .retrain } 2999999, 0, by decide +kernel⟩,
   ⟨on, 0, 0, 0, 0, by decide +kernel⟩,
   ⟨ported { state := .up }, 0, 0, 0, 0, false, false, by decide +kernel⟩,
   ⟨{ Z with lnk := { Z.lnk with ports := Z.lnk.ports.set 35 { state := .down } } }, 0x80000023, 35, by decide +kernel⟩,
   ⟨Z, 0x80000024, by decide +kernel⟩⟩

/-- Meets the hypotheses of `Obligations.SamplesAndCalibration`, clause by clause. -/
theorem witness_SamplesAndCalibration :
    (∃ (s : State) (_ev : List SampleEvent) (_st : Nat), s.now % 200 = 0 ∧ s.gau.lastLatch ≠ some s.now ∧ s.answers = true ∧ s.gau.kNext = none) ∧
    (∃ (s : State) (_ev : List SampleEvent) (_st : Nat), (s.now % 200 ≠ 0 ∨ s.gau.lastLatch = some s.now ∨ s.pstate = 4)) ∧
    (∃ (s : State), s.answers = true ∧ s.now % 100000 = 0) ∧
    (∃ (s : State), s.answers = true ∧ s.now % 100000 = 0 ∧ s.gau.lastCoarse ≠ some s.now) ∧
    (∃ (s : State) (_e : BitVec 40) (_q : BitVec 8), s.answers = true ∧ s.gau.calLive = false) ∧
    (∃ (s : State) (bs : List Byte), s.answers = true ∧ bs.length ≠ 8) ∧
    (∃ (s : State), s.answers = true ∧ s.gau.einTick + 1000000 ≤ s.now ∧ s.gau.calStale = false) ∧
    (∃ (s : State), s.now < s.gau.einTick + 1000000) :=
  ⟨⟨Z, [], 0, by decide +kernel⟩,
   ⟨{ Z with tick := 199 }, [], 0, by decide +kernel⟩,
   ⟨{ Z with tick := 100000 }, by decide +kernel⟩,
   ⟨{ Z with tick := 100000 }, by decide +kernel⟩,
   ⟨Z, 0xFFFFFFFFFF, 0xFF, by decide +kernel⟩,
   ⟨Z, List.replicate 9 0, by decide +kernel⟩,
   ⟨{ Z with tick := 1000000 }, by decide +kernel⟩,
   ⟨{ Z with tick := 999999 }, by decide +kernel⟩⟩

/-- Meets the hypotheses of `Obligations.ClosingAPoolConservesEnergy`, clause by clause. -/
theorem witness_ClosingAPoolConservesEnergy :
    (∃ (s : State) (_c : Cove) (p : Nat) (_shares : SMap Nat) (remote : SMap Nat), p < 11 ∧ s.gau.houseCove.length = 8 ∧ s.gau.residue.length = 8 ∧
        s.gau.coveUj.length = 8 ∧ SMap.wf 0 remote = true) :=
  ⟨Z, 7, 10, [(0, 1), (3, 2)], [(1, 1)], by decide +kernel⟩

/-- Meets the hypotheses of `Obligations.BatchesAndReleases`, clause by clause. -/
theorem witness_BatchesAndReleases :
    (∃ (s : State) (b : Batch), s.answers = true ∧ s.gau.batchLive = true ∧ b = SMap.get {} s.gau.batches (s.gau.batchNext % 64) ∧
        b.tOpen + 100000000 ≤ s.now ∧ s.gau.batchNext + 1 < s.gau.released + 64) ∧
    (∃ (s : State), s.gau.batchLive = false) ∧
    (∃ (s : State) (b : Batch), s.answers = true ∧ s.oldestBatch .opened = some b ∧ b.seq = 0) ∧
    (∃ (s : State) (b : Batch), s.answers = true ∧ s.oldestBatch .opened = some b ∧ b.seq ≠ 0) ∧
    (∃ (s : State) (b : Batch), s.answers = true ∧ s.oldestBatch .rooted = some b ∧ s.hif.aliasReady = true ∧ b.able = true) ∧
    (∃ (s : State) (b : Batch), s.answers = true ∧ s.oldestBatch .rooted = some b ∧ s.hif.aliasReady = true ∧ b.able = false) ∧
    (∃ (s : State) (b : Batch), s.oldestBatch .rooted = some b ∧ s.hif.aliasReady = false) ∧
    (∃ (s : State) (_lo : Word) (_hi : Word), s.answers = true ∧ s.gau.waiting = []) ∧
    (∃ (s : State) (lo : Word) (hi : Word), s.answers = true ∧ lo.toNat + 0x100000000 * hi.toNat < s.gau.batchNext) ∧
    (∃ (s : State) (lo : Word) (hi : Word), s.gau.batchNext ≤ lo.toNat + 0x100000000 * hi.toNat) :=
  ⟨⟨{ batched {} 0 with tick := 100000000 }, {}, by decide +kernel⟩,
   ⟨Z, by decide +kernel⟩,
   ⟨batched { closed := true }, { closed := true }, by decide +kernel⟩,
   ⟨batched { closed := true, seq := 65 } 66, { closed := true, seq := 65 }, by decide +kernel⟩,
   ⟨batched { closed := true, seq := 65, state := .rooted } 66, { closed := true, seq := 65, state := .rooted }, by decide +kernel⟩,
   ⟨batched { closed := true, seq := 65, state := .rooted, able := false } 66, { closed := true, seq := 65, state := .rooted, able := false },
       by decide +kernel⟩,
   ⟨batched { closed := true, seq := 65, state := .rooted } 66 false, { closed := true, seq := 65, state := .rooted }, by decide +kernel⟩,
   ⟨Z, 0xFFFFFFFF, 0xFFFFFFFF, by decide +kernel⟩,
   ⟨batched {}, 0, 0, by decide +kernel⟩,
   ⟨batched {}, 1, 0, by decide +kernel⟩⟩

/-- Meets the hypotheses of `Obligations.ClosuresOfThePowerLoop`, clause by clause. -/
theorem witness_ClosuresOfThePowerLoop :
    (∃ (s : State) (_tj : List (Option Nat)), s.answers = true ∧ s.now % 1000 = 0 ∧ s.weir.lastClosure ≠ some s.now ∧ s.governed = true ∧
        s.stopped = false) ∧
    (∃ (s : State) (tj : List (Option Nat)), s.answers = true ∧ s.now % 1000 = 0 ∧ s.weir.lastClosure ≠ some s.now ∧ s.governed = true ∧
        s.stopped = false ∧ s.tjLimit ≤ s.hottest tj) ∧
    (∃ (s : State) (_tj : List (Option Nat)), (s.now % 1000 ≠ 0 ∨ s.governed = false ∨ s.stopped = true)) ∧
    (∃ (s : State) (_tj : List (Option Nat)), (s.now % 1000 ≠ 0 ∨ s.governed = false ∨ s.stopped = true)) ∧
    (∃ (s : State), s.answers = true ∧ s.now % 100000 = 0 ∧ s.weir.lastMs ≠ some s.now ∧ s.governed = true ∧ s.stopped = false) :=
  ⟨⟨{ on with tick := 1000 }, [], by decide +kernel⟩,
   ⟨{ on with tick := 1000 }, [none], by decide +kernel⟩,
   ⟨{ on with tick := 999 }, [], by decide +kernel⟩,
   ⟨{ Z with tick := 1000 }, [], by decide +kernel⟩,
   ⟨{ on with tick := 100000 }, by decide +kernel⟩⟩

/-- Meets the hypotheses of `Obligations.CapsDroopsTrimAndStop`, clause by clause. -/
theorem witness_CapsDroopsTrimAndStop :
    (∃ (s : State) (cap : BitVec 13) (_seq : BitVec 8), s.answers = true ∧ 1800 ≤ cap.toNat ∧ cap.toNat ≤ 4200) ∧
    (∃ (s : State) (cap : BitVec 13) (_seq : BitVec 8), s.answers = true ∧ 1800 ≤ cap.toNat ∧ cap.toNat ≤ 4200) ∧
    (∃ (s : State) (cap : BitVec 13) (_seq : BitVec 8), s.answers = true ∧ (cap.toNat < 1800 ∨ 4200 < cap.toNat)) ∧
    (∃ (s : State) (cap : BitVec 13) (_seq : BitVec 8), s.answers = true ∧ (cap.toNat < 1800 ∨ 4200 < cap.toNat)) ∧
    (∃ (s : State) (_l : Fin 8), s.answers = true) ∧
    (∃ (s : State) (_d : Fin 2) (_x : Nat), s.answers = true) ∧
    (∃ (s : State), s.answers = true ∧ s.stopped = false) ∧
    (∃ (s : State), s.pstate ≠ 4 ∧ s.stopped = true) ∧
    (∃ (s : State) (x : Int) (y : Int), s.answers = true ∧ s.trimDue = true ∧ s.hif.trimDone = true ∧ s.fuses.slackLo ≤ x ∧ x ≤ s.fuses.slackHi ∧
        s.fuses.slackLo ≤ y ∧ y ≤ s.fuses.slackHi) ∧
    (∃ (s : State) (x : Int) (z : Int) (y : Int), s.answers = true ∧ s.trimDue = true ∧ s.hif.trimDone = true ∧ x < s.fuses.slackLo ∧
        vget 0 s.weir.trim 0 < 16 ∧ s.fuses.slackLo ≤ z ∧ z ≤ s.fuses.slackHi ∧ s.fuses.slackLo ≤ y ∧ y ≤ s.fuses.slackHi) ∧
    (∃ (s : State) (_e : List Int) (_w : List Int), s.trimDue = false) :=
  ⟨⟨Z, 1800, 0, by decide +kernel⟩,
   ⟨Z, 4200, 0xFF, by decide +kernel⟩,
   ⟨Z, 1799, 0, by decide +kernel⟩,
   ⟨Z, 4201, 0, by decide +kernel⟩,
   ⟨Z, 7, by decide +kernel⟩,
   ⟨Z, 1, 0, by decide +kernel⟩,
   ⟨Z, by decide +kernel⟩,
   ⟨stopped Z, by decide +kernel⟩,
   ⟨trimming, 10, 20, by decide +kernel⟩,
   ⟨trimming, 9, 10, 20, by decide +kernel⟩,
   ⟨Z, [], [], by decide +kernel⟩⟩

/-- Meets the hypotheses of `Obligations.PowerStates`, clause by clause. -/
theorem witness_PowerStates :
    (∃ (s : State), s.answers = true ∧ s.weir.psWant = none ∧ s.pstate < 3) ∧
    (∃ (s : State), s.answers = true ∧ s.weir.psWant = none ∧ s.pstate ≤ 2 ∧ s.drained = true ∧ s.wh.sec ≠ .scrapped) ∧
    (∃ (s : State), s.answers = true ∧ s.pstate = 3) ∧
    (∃ (s : State), s.answers = true ∧ (s.weir.psWant ≠ none ∨ s.drained = false)) ∧
    (∃ (s : State), s.answers = true ∧ (s.weir.psWant ≠ none ∨ s.drained = false)) ∧
    (∃ (s : State) (v : Fin 8), s.answers = true ∧ (v.val = 1 ∨ 4 < v.val)) ∧
    (∃ (s : State) (v : Fin 8), s.answers = true ∧ (v.val = 1 ∨ 4 < v.val)) ∧
    (∃ (s : State), s.drained = false ∧ (s.weir.psWant = some 2 ∨ s.weir.psWant = some 3)) ∧
    (∃ (s : State), s.drained = false ∧ (s.weir.psWant = some 2 ∨ s.weir.psWant = some 3)) ∧
    (∃ (s : State), s.answers = true ∧ s.weir.psWant = some 3 ∧ s.drained = true) ∧
    (∃ (s : State), s.answers = true ∧ s.weir.psWant = some 2 ∧ s.drained = true) ∧
    (∃ (s : State), s.answers = true ∧ s.weir.psWant = some 0) ∧
    (∃ (s : State), s.answers = true ∧ s.weir.psWant = some 4) ∧
    (∃ (s : State), s.weir.psWant = none) ∧
    (∃ (s : State), s.answers = true ∧ s.pstate = 0 ∧ s.image.isSome = true ∧ s.idle = true ∧ s.weir.psWant = none) ∧
    (∃ (s : State), s.idle = false) ∧
    (∃ (s : State), s.answers = true ∧ s.pstate = 1 ∧ s.idle = false) ∧
    (∃ (s : State), s.pstate = 1 ∧ s.idle = true) :=
  ⟨⟨powered none 2, by decide +kernel⟩,
   ⟨powered none 2, by decide +kernel⟩,
   ⟨powered none 3, by decide +kernel⟩,
   ⟨powered (some 0), by decide +kernel⟩,
   ⟨basin { txWait := [wTx] }, by decide +kernel⟩,
   ⟨Z, 1, by decide +kernel⟩,
   ⟨Z, 5, by decide +kernel⟩,
   ⟨{ basin { txWait := [wTx] } with weir := { on.weir with psWant := some 2 } }, by decide +kernel⟩,
   ⟨{ basin { txWait := [wTx] } with weir := { on.weir with psWant := some 3 } }, by decide +kernel⟩,
   ⟨powered (some 3), by decide +kernel⟩,
   ⟨powered (some 2), by decide +kernel⟩,
   ⟨powered (some 0) 3, by decide +kernel⟩,
   ⟨powered (some 4), by decide +kernel⟩,
   ⟨Z, by decide +kernel⟩,
   ⟨on, by decide +kernel⟩,
   ⟨basin { txWait := [wTx] }, by decide +kernel⟩,
   ⟨{ basin { txWait := [wTx] } with pstate := 1 }, by decide +kernel⟩,
   ⟨{ Z with pstate := 1 }, by decide +kernel⟩⟩

/-- Meets the hypotheses of `Obligations.NegotiationOfAMailbox`, clause by clause. -/
theorem witness_NegotiationOfAMailbox :
    (∃ (s : State) (box : Fin 10), s.boxThere box = true) ∧
    (∃ (s : State) (box : Fin 10), s.boxThere box = true) ∧
    (∃ (s : State) (box : Fin 10) (_offered : Bool), s.boxThere box = true) ∧
    (∃ (s : State) (box : Fin 10) (_offered : Bool), s.boxThere box = true) ∧
    (∃ (s : State) (box : Fin 10) (_slot : Fin 8) (_o : Half) (_n : Half), s.boxThere box = true) ∧
    (∃ (s : State) (box : Fin 10) (_slot : Fin 8) (_o : Half) (_n : Half), s.boxThere box = true) ∧
    (∃ (s : State), s.hif.split = false) :=
  ⟨⟨Z, 8, by decide +kernel⟩,
   ⟨{ Z with hif := { Z.hif with split := true } }, 9, by decide +kernel⟩,
   ⟨Z, 8, true, by decide +kernel⟩,
   ⟨{ Z with hif := { Z.hif with split := true } }, 9, false, by decide +kernel⟩,
   ⟨Z, 8, 7, 0, 0, by decide +kernel⟩,
   ⟨{ Z with hif := { Z.hif with split := true } }, 9, 0, 0, 0, by decide +kernel⟩,
   ⟨Z, by decide +kernel⟩⟩

/-- Meets the hypotheses of `Obligations.SignedResponses`, clause by clause. -/
theorem witness_SignedResponses :
    (∃ (s : State) (box : Fin 10) (_tr : List Byte), s.boxThere box = true ∧ (s.mbox box).algs = true ∧ s.wh.sec ≠ .scrapped ∧
        s.hif.aliasReady = true) ∧
    (∃ (s : State) (box : Fin 10) (_tr : List Byte), s.boxThere box = true ∧ (s.mbox box).algs = true ∧ s.wh.sec ≠ .scrapped ∧
        s.hif.aliasReady = false) ∧
    (∃ (s : State) (box : Fin 10) (_tr : List Byte), s.boxThere box = true ∧ ((s.mbox box).algs = false ∨ s.wh.sec = .scrapped)) ∧
    (∃ (s : State) (box : Fin 10) (_tr : List Byte), s.boxThere box = true ∧ ((s.mbox box).algs = false ∨ s.wh.sec = .scrapped)) ∧
    (∃ (s : State) (box : Fin 10) (_i : Fin 256) (_tr : List Byte), s.boxThere box = true ∧ (s.mbox box).algs = true ∧ s.wh.sec ≠ .scrapped ∧
        s.hif.aliasReady = true) ∧
    (∃ (s : State) (box : Fin 10), s.boxThere box = true) ∧
    (∃ (s : State) (box : Fin 10) (tr : List Byte), s.boxThere box = true ∧ (s.mbox box).signed = some tr ∧ s.wh.sec ≠ .scrapped) ∧
    (∃ (s : State) (box : Fin 10), s.boxThere box = true ∧ (s.mbox box).signed = none) ∧
    (∃ (s : State), s.answers = true ∧ s.hif.aliasReady = false ∧ 150000000 ≤ s.now) ∧
    (∃ (s : State), (s.hif.aliasReady = true ∨ s.now < 150000000)) :=
  ⟨⟨boxed { algs := true }, 8, [], by decide +kernel⟩,
   ⟨boxed { algs := true } false, 8, [], by decide +kernel⟩,
   ⟨Z, 8, [], by decide +kernel⟩,
   ⟨sessioned Z .scrapped {fn := 0}, 8, [], by decide +kernel⟩,
   ⟨boxed { algs := true }, 8, 255, [], by decide +kernel⟩,
   ⟨Z, 0, by decide +kernel⟩,
   ⟨boxed { signed := some [1] }, 8, [1], by decide +kernel⟩,
   ⟨Z, 8, by decide +kernel⟩,
   ⟨{ Z with tick := 150000000 }, by decide +kernel⟩,
   ⟨{ Z with tick := 149999999 }, by decide +kernel⟩⟩

/-- Meets the hypotheses of `Obligations.SecureSessions`, clause by clause. -/
theorem witness_SecureSessions :
    (∃ (s : State) (box : Fin 10) (_ma : Bool) (_tr : List Byte) (k : Nat), s.boxThere box = true ∧ (s.mbox box).algs = true ∧ s.wh.sec ≠ .scrapped ∧
        s.hif.aliasReady = true ∧ ((List.range (if box = 0 then 4 else 1)).find? fun k => (s.session box k).isNone) = some k) ∧
    (∃ (s : State) (box : Fin 10) (_ma : Bool) (_tr : List Byte), s.boxThere box = true ∧ (∀ k, k < 4 → (s.session box k).isSome)) ∧
    (∃ (s : State) (box : Fin 10) (k : Fin 4) (x : Session) (rsa : Option (BitVec 384)), s.boxThere box = true ∧ s.session box k = some x ∧
        x.opened = false ∧ (x.mutualAuth = false ∨ rsa.isSome)) ∧
    (∃ (s : State) (box : Fin 10) (k : Fin 4) (x : Session) (rsa : Option (BitVec 384)), s.boxThere box = true ∧ s.session box k = some x ∧
        x.opened = false ∧ (x.mutualAuth = false ∨ rsa.isSome)) ∧
    (∃ (s : State) (box : Fin 10) (k : Fin 4) (x : Session) (_rsa : Option (BitVec 384)), s.boxThere box = true ∧ s.session box k = some x ∧
        x.opened = false) ∧
    (∃ (s : State) (box : Fin 10) (k : Fin 4) (x : Session), s.boxThere box = true ∧ s.session box k = some x ∧ x.opened = true) ∧
    (∃ (s : State) (box : Fin 10) (k : Fin 4), s.boxThere box = true ∧ (∀ x, s.session box k = some x → x.opened = false)) :=
  ⟨⟨boxed { algs := true }, 8, true, [], 0, by decide +kernel⟩,
   ⟨{ Z with wh := { Z.wh with sessions := [(0, some { fn := 0 }), (1, some { fn := 0 }), (2, some { fn := 0 }), (3, some { fn := 0 })] } }, 0, true, [],
       by decide +kernel⟩,
   ⟨boxed {} true (some { fn := 8 }), 8, 0, { fn := 8 }, none, by decide +kernel⟩,
   ⟨boxed {} true (some { fn := 8, mutualAuth := true }), 8, 0, { fn := 8, mutualAuth := true }, some 0, by decide +kernel⟩,
   ⟨boxed {} true (some { fn := 8 }), 8, 0, { fn := 8 }, none, by decide +kernel⟩,
   ⟨boxed {} true (some { fn := 8, opened := true }), 8, 0, { fn := 8, opened := true }, by decide +kernel⟩,
   ⟨Z, 8, 3, by decide +kernel, fun _ h => nomatch h⟩⟩

/-- Meets the hypotheses of `Obligations.KeyBroker`, clause by clause. -/
theorem witness_KeyBroker :
    (∀ key tr sig : List Byte, Config.sigVerifies key tr sig = true → ∃ (s : State) (k : Fin 4) (x : Session) (key : List Byte) (tr : List Byte) (sig : List Byte) (im : Image), s.answers = true ∧
        s.session 0 k = some x ∧ x.opened = true ∧ x.rsaMatch = true ∧ s.image = some im ∧ sha384 key = im.brokerSlh ∧
        Config.sigVerifies key tr sig = true) ∧
    (∃ (s : State) (k : Fin 4) (x : Session) (key : List Byte) (tr : List Byte) (sig : List Byte), s.answers = true ∧ s.session 0 k = some x ∧
        x.opened = true ∧ x.rsaMatch = true ∧ (∀ im, s.image = some im → sha384 key = im.brokerSlh → Config.sigVerifies key tr sig = false)) ∧
    (∃ (s : State) (box : Fin 10) (_k : Fin 4) (_a : List Byte) (_b : List Byte) (_g : List Byte), box ≠ 0 ∧ s.boxThere box = true) ∧
    (∃ (s : State) (box : Fin 10) (k : Fin 4) (_d : BitVec 384) (_sl : Byte) (_c : Byte) (_l : Word) (_r : Bool) (_key : BitVec 512) (_all : Bool) (_i : Fin 32), s.boxThere box = true ∧
        (box ≠ 0 ∨ ∀ x, s.session box k = some x → x.opened = true → x.broker = false)) ∧
    (∃ (s : State) (box : Fin 10) (k : Fin 4) (_d : BitVec 384) (_sl : Byte) (_c : Byte) (_l : Word) (_r : Bool) (_key : BitVec 512) (_all : Bool) (_i : Fin 32), s.boxThere box = true ∧
        (box ≠ 0 ∨ ∀ x, s.session box k = some x → x.opened = true → x.broker = false)) ∧
    (∃ (s : State) (k : Fin 4) (x : Session) (sl : Byte) (c : Byte) (l : Word) (r : Bool) (_key : BitVec 512), s.answers = true ∧
        s.session 0 k = some x ∧ x.opened = true ∧ x.broker = true ∧ s.wh.sec = .attested ∧ sl.toNat ≤ 31 ∧ (s.cove c.toNat).isSome ∧ l ≠ 0 ∧
        r = false ∧ vget none s.wh.keys sl.toNat = none ∧ s.stopped = false) ∧
    (∃ (s : State) (k : Fin 4) (x : Session) (sl : Byte) (c : Byte) (l : Word) (r : Bool) (_key : BitVec 512) (st : Byte), s.answers = true ∧
        s.session 0 k = some x ∧ x.opened = true ∧ x.broker = true ∧ (st = 0x09 ∧ s.wh.sec ≠ .attested ∨ st = 0x0D ∧ s.wh.sec = .attested ∧
        (31 < sl.toNat ∨ (s.cove c.toNat).isNone ∨ l = 0 ∨ r = true) ∨ st = 0x01 ∧ s.wh.sec = .attested ∧ sl.toNat ≤ 31 ∧ (s.cove c.toNat).isSome ∧
        l ≠ 0 ∧ r = false ∧ (vget none s.wh.keys sl.toNat).isSome ∨ st = 0x08 ∧ s.wh.sec = .attested ∧ sl.toNat ≤ 31 ∧ (s.cove c.toNat).isSome ∧
        l ≠ 0 ∧ r = false ∧ vget none s.wh.keys sl.toNat = none ∧ s.stopped = true)) ∧
    (∃ (s : State) (k : Fin 4) (x : Session) (sl : Byte) (c : Byte) (l : Word) (r : Bool) (_key : BitVec 512) (st : Byte), s.answers = true ∧
        s.session 0 k = some x ∧ x.opened = true ∧ x.broker = true ∧ (st = 0x09 ∧ s.wh.sec ≠ .attested ∨ st = 0x0D ∧ s.wh.sec = .attested ∧
        (31 < sl.toNat ∨ (s.cove c.toNat).isNone ∨ l = 0 ∨ r = true) ∨ st = 0x01 ∧ s.wh.sec = .attested ∧ sl.toNat ≤ 31 ∧ (s.cove c.toNat).isSome ∧
        l ≠ 0 ∧ r = false ∧ (vget none s.wh.keys sl.toNat).isSome ∨ st = 0x08 ∧ s.wh.sec = .attested ∧ sl.toNat ≤ 31 ∧ (s.cove c.toNat).isSome ∧
        l ≠ 0 ∧ r = false ∧ vget none s.wh.keys sl.toNat = none ∧ s.stopped = true)) ∧
    (∃ (s : State) (k : Fin 4) (x : Session) (sl : Byte) (c : Byte) (l : Word) (r : Bool) (_key : BitVec 512) (st : Byte), s.answers = true ∧
        s.session 0 k = some x ∧ x.opened = true ∧ x.broker = true ∧ (st = 0x09 ∧ s.wh.sec ≠ .attested ∨ st = 0x0D ∧ s.wh.sec = .attested ∧
        (31 < sl.toNat ∨ (s.cove c.toNat).isNone ∨ l = 0 ∨ r = true) ∨ st = 0x01 ∧ s.wh.sec = .attested ∧ sl.toNat ≤ 31 ∧ (s.cove c.toNat).isSome ∧
        l ≠ 0 ∧ r = false ∧ (vget none s.wh.keys sl.toNat).isSome ∨ st = 0x08 ∧ s.wh.sec = .attested ∧ sl.toNat ≤ 31 ∧ (s.cove c.toNat).isSome ∧
        l ≠ 0 ∧ r = false ∧ vget none s.wh.keys sl.toNat = none ∧ s.stopped = true)) ∧
    (∃ (s : State) (k : Fin 4) (x : Session) (sl : Byte) (c : Byte) (l : Word) (r : Bool) (_key : BitVec 512) (st : Byte), s.answers = true ∧
        s.session 0 k = some x ∧ x.opened = true ∧ x.broker = true ∧ (st = 0x09 ∧ s.wh.sec ≠ .attested ∨ st = 0x0D ∧ s.wh.sec = .attested ∧
        (31 < sl.toNat ∨ (s.cove c.toNat).isNone ∨ l = 0 ∨ r = true) ∨ st = 0x01 ∧ s.wh.sec = .attested ∧ sl.toNat ≤ 31 ∧ (s.cove c.toNat).isSome ∧
        l ≠ 0 ∧ r = false ∧ (vget none s.wh.keys sl.toNat).isSome ∨ st = 0x08 ∧ s.wh.sec = .attested ∧ sl.toNat ≤ 31 ∧ (s.cove c.toNat).isSome ∧
        l ≠ 0 ∧ r = false ∧ vget none s.wh.keys sl.toNat = none ∧ s.stopped = true)) ∧
    (∃ (s : State) (k : Fin 4) (x : Session) (sl : Byte) (c : Byte) (l : Word) (r : Bool) (_key : BitVec 512) (st : Byte), s.answers = true ∧
        s.session 0 k = some x ∧ x.opened = true ∧ x.broker = true ∧ (st = 0x09 ∧ s.wh.sec ≠ .attested ∨ st = 0x0D ∧ s.wh.sec = .attested ∧
        (31 < sl.toNat ∨ (s.cove c.toNat).isNone ∨ l = 0 ∨ r = true) ∨ st = 0x01 ∧ s.wh.sec = .attested ∧ sl.toNat ≤ 31 ∧ (s.cove c.toNat).isSome ∧
        l ≠ 0 ∧ r = false ∧ (vget none s.wh.keys sl.toNat).isSome ∨ st = 0x08 ∧ s.wh.sec = .attested ∧ sl.toNat ≤ 31 ∧ (s.cove c.toNat).isSome ∧
        l ≠ 0 ∧ r = false ∧ vget none s.wh.keys sl.toNat = none ∧ s.stopped = true)) ∧
    (∃ (s : State) (k : Fin 4) (x : Session) (sl : Byte) (c : Byte) (l : Word) (r : Bool) (_key : BitVec 512) (st : Byte), s.answers = true ∧
        s.session 0 k = some x ∧ x.opened = true ∧ x.broker = true ∧ (st = 0x09 ∧ s.wh.sec ≠ .attested ∨ st = 0x0D ∧ s.wh.sec = .attested ∧
        (31 < sl.toNat ∨ (s.cove c.toNat).isNone ∨ l = 0 ∨ r = true) ∨ st = 0x01 ∧ s.wh.sec = .attested ∧ sl.toNat ≤ 31 ∧ (s.cove c.toNat).isSome ∧
        l ≠ 0 ∧ r = false ∧ (vget none s.wh.keys sl.toNat).isSome ∨ st = 0x08 ∧ s.wh.sec = .attested ∧ sl.toNat ≤ 31 ∧ (s.cove c.toNat).isSome ∧
        l ≠ 0 ∧ r = false ∧ vget none s.wh.keys sl.toNat = none ∧ s.stopped = true)) ∧
    (∃ (s : State) (k : Fin 4) (x : Session) (sl : Byte) (c : Byte) (l : Word) (r : Bool) (_key : BitVec 512) (st : Byte), s.answers = true ∧
        s.session 0 k = some x ∧ x.opened = true ∧ x.broker = true ∧ (st = 0x09 ∧ s.wh.sec ≠ .attested ∨ st = 0x0D ∧ s.wh.sec = .attested ∧
        (31 < sl.toNat ∨ (s.cove c.toNat).isNone ∨ l = 0 ∨ r = true) ∨ st = 0x01 ∧ s.wh.sec = .attested ∧ sl.toNat ≤ 31 ∧ (s.cove c.toNat).isSome ∧
        l ≠ 0 ∧ r = false ∧ (vget none s.wh.keys sl.toNat).isSome ∨ st = 0x08 ∧ s.wh.sec = .attested ∧ sl.toNat ≤ 31 ∧ (s.cove c.toNat).isSome ∧
        l ≠ 0 ∧ r = false ∧ vget none s.wh.keys sl.toNat = none ∧ s.stopped = true)) :=
  ⟨fun key tr sig h => ⟨sessioned (withImage { brokerSlh := sha384 key }) .sealed { fn := 0, opened := true, rsaMatch := true }, 0, { fn := 0, opened := true, rsaMatch := true }, key, tr, sig, { brokerSlh := sha384 key },
      rfl, rfl, rfl, rfl, rfl, rfl, h⟩,
   ⟨sessioned Z .sealed { fn := 0, opened := true, rsaMatch := true }, 0, { fn := 0, opened := true, rsaMatch := true }, [], [], [], rfl, rfl, rfl,
       rfl, fun _ h => nomatch h⟩,
   ⟨Z, 8, 0, [], [], [], by decide +kernel⟩,
   ⟨Z, 8, 0, 0, 0, 0, 0, false, 0, false, 0, by decide +kernel⟩,
   ⟨sessioned Z .sealed { fn := 0, opened := true, rsaMatch := true }, 0, 0, 0, 0, 0, 0, false, 0, false, 0,
       by decide +kernel, .inr (by intro x h; cases h; decide +kernel)⟩,
   ⟨sessioned on .attested brokerSession, 0, brokerSession, 31, 0, 1, false, 0, by decide +kernel⟩,
   ⟨sessioned on .sealed brokerSession, 0, brokerSession, 0, 0, 1, false, 0, 9, by decide +kernel⟩,
   ⟨sessioned on .attested brokerSession, 0, brokerSession, 32, 0, 1, false, 0, 0x0D, by decide +kernel⟩,
   ⟨sessioned on .attested brokerSession, 0, brokerSession, 0, 1, 1, false, 0, 0x0D, by decide +kernel⟩,
   ⟨sessioned on .attested brokerSession, 0, brokerSession, 0, 0, 0, false, 0, 0x0D, by decide +kernel⟩,
   ⟨sessioned on .attested brokerSession, 0, brokerSession, 0, 0, 1, true, 0, 0x0D, by decide +kernel⟩,
   ⟨{ sessioned on .attested brokerSession with wh := { (sessioned on .attested brokerSession).wh with keys := Z.wh.keys.set 31 (some wModelKey) } }, 0, brokerSession, 31, 0, 1, false, 0, 1,
       by decide +kernel⟩,
   ⟨stopped (sessioned on .attested brokerSession), 0, brokerSession, 31, 0, 1, false, 0, 8, by decide +kernel⟩⟩

/-- Meets the hypotheses of `Obligations.LivesOfModelKeys`, clause by clause. -/
theorem witness_LivesOfModelKeys :
    (∃ (s : State) (i : Fin 32) (k : ModelKey), s.answers = true ∧ vget none s.wh.keys i = some k) ∧
    (∃ (s : State) (k : Fin 4) (x : Session) (_i : Fin 32), s.answers = true ∧ s.session 0 k = some x ∧ x.opened = true ∧ x.broker = true) ∧
    (∃ (s : State) (v : Word), s.answers = true ∧ v.getLsbD 31 = true) ∧
    (∃ (_s : State) (v : Word), v.getLsbD 31 = false) :=
  ⟨⟨keyed, 31, wModelKey, by decide +kernel⟩,
   ⟨sessioned on .attested brokerSession, 0, brokerSession, 31, by decide +kernel⟩,
   ⟨Z, 0x80000000, by decide +kernel⟩,
   ⟨Z, 0x7FFFFFFF, by decide +kernel⟩⟩

/-- Meets the hypotheses of `Obligations.OwnerCommands`, clause by clause. -/
theorem witness_OwnerCommands :
    (∃ (s : State), s.answers = true) ∧
    (∃ (s : State) (box : Fin 10) (_sig : OwnerSig) (_o : BitVec 768) (_l : Fin 4), box ≠ 0 ∧ s.boxThere box = true) ∧
    (∃ (s : State) (sig : OwnerSig) (o : BitVec 768) (l : Fin 4), s.answers = true ∧ s.wh.sec = .sealed ∧
        s.ownerSigned s.ownerNow 0x22 (leBytes 96 o.toNat) sig = false ∧ s.ownerSigned s.ownerNow 0x23 [BitVec.ofNat 8 l] sig = false ∧
        s.ownerSigned s.ownerNow 0x24 [BitVec.ofNat 8 l] sig = false ∧ s.ownerSigned s.ownerNow 0x25 [] sig = false) ∧
    (∀ sig : OwnerSig, verifies 0x21 (sha384 sig.rsaKey ++ sha384 sig.slhKey) sig = true → ∃ (s : State) (sig : OwnerSig), s.answers = true ∧
        s.ownerSigned (some (sha384 sig.rsaKey ++ sha384 sig.slhKey)) 0x21 (sha384 sig.rsaKey ++ sha384 sig.slhKey) sig = true) ∧
    (∀ (sig : OwnerSig) (o : BitVec 768), verifies 0x22 (leBytes 96 o.toNat) sig = true → ∃ (s : State) (sig : OwnerSig) (o : BitVec 768), s.answers = true ∧
        s.ownerSigned s.ownerNow 0x22 (leBytes 96 o.toNat) sig = true ∧ (s.wh.sec = .sealed ∨ s.wh.sec = .attested)) ∧
    (∃ (s : State) (_sig : OwnerSig) (_l : Fin 4), s.answers = true ∧ (s.wh.sec = .factory ∨ s.wh.sec = .scrapped)) ∧
    (∃ (s : State) (_sig : OwnerSig) (_l : Fin 4), s.answers = true ∧ (s.wh.sec = .factory ∨ s.wh.sec = .scrapped)) ∧
    (∀ sig : OwnerSig, verifies 0x23 [1] sig = true → ∃ (s : State) (sig : OwnerSig) (l : Fin 4), s.answers = true ∧
        s.ownerSigned s.ownerNow 0x23 [BitVec.ofNat 8 l] sig = true ∧ s.wh.sec = .attested ∧ l.val < 2 ∧ s.debug ≠ l.val) ∧
    (∀ sig : OwnerSig, verifies 0x24 [2] sig = true → ∃ (s : State) (sig : OwnerSig) (l : Fin 4), s.answers = true ∧
        s.ownerSigned s.ownerNow 0x24 [BitVec.ofNat 8 l] sig = true ∧ s.wh.sec = .sealed ∧ s.drained = true ∧ 2 ≤ l.val) ∧
    (∀ sig : OwnerSig, verifies 0x24 [3] sig = true → ∃ (s : State) (sig : OwnerSig) (l : Fin 4), s.answers = true ∧
        s.ownerSigned s.ownerNow 0x24 [BitVec.ofNat 8 l] sig = true ∧ s.wh.sec = .sealed ∧ s.drained = false) ∧
    (∀ sig : OwnerSig, verifies 0x25 [] sig = true → ∃ (s : State) (sig : OwnerSig), s.answers = true ∧ s.ownerSigned s.ownerNow 0x25 [] sig = true ∧
        s.wh.sec = .sealed ∧ s.drained = true) :=
  ⟨⟨Z, by decide +kernel⟩,
   ⟨Z, 8, ⟨[], [], [], []⟩, 0, 0, by decide +kernel⟩,
   ⟨sessioned Z .sealed { fn := 0 }, ⟨[], [], [], []⟩, 0, 0, by decide +kernel⟩,
   fun sig h => ⟨owned .factory sig, sig, rfl, owned_signed _ _ _ _ h⟩,
   fun sig o h => ⟨owned .sealed sig, sig, o, rfl, owned_signed _ _ _ _ h, .inl rfl⟩,
   ⟨Z, ⟨[], [], [], []⟩, 3, by decide +kernel⟩,
   ⟨sessioned Z .scrapped { fn := 0 }, ⟨[], [], [], []⟩, 3, by decide +kernel⟩,
   fun sig h => ⟨owned .attested sig, sig, 1, rfl, owned_signed _ _ _ _ h, rfl, by decide, by show (0 : Nat) ≠ 1; decide⟩,
   fun sig h => ⟨owned .sealed sig, sig, 2, rfl, owned_signed _ _ _ _ h, rfl, rfl, by decide⟩,
   fun sig h => ⟨{ owned .sealed sig with bsn := { Z.bsn with txWait := [wTx] } }, sig, 3, rfl, owned_signed _ _ _ _ h, rfl, rfl⟩,
   fun sig h => ⟨owned .sealed sig, sig, rfl, owned_signed _ _ _ _ h, rfl, rfl⟩⟩

/-- Meets the hypotheses of `Obligations.IdeStreams`, clause by clause. -/
theorem witness_IdeStreams :
    (∃ (s : State) (box : Fin 10) (k : Fin 4) (x : Session) (_i : Fin 10), s.boxThere box = true ∧ s.session box k = some x ∧ x.opened = true) ∧
    (∃ (s : State) (box : Fin 10) (k : Fin 4) (x : Session) (i : Fin 10), s.boxThere box = true ∧ s.session box k = some x ∧ x.opened = true ∧
        i.val ∈ s.wh.ideKeys) ∧
    (∃ (s : State) (box : Fin 10) (k : Fin 4) (x : Session) (i : Fin 10), s.boxThere box = true ∧ s.session box k = some x ∧ x.opened = true ∧
        i.val ∉ s.wh.ideKeys) :=
  ⟨⟨boxed {} true (some { fn := 8, opened := true }), 8, 0, { fn := 8, opened := true }, 9, by decide +kernel⟩,
   ⟨boxed {} true (some { fn := 8, opened := true }), 8, 0, { fn := 8, opened := true }, 9, by decide +kernel⟩,
   ⟨boxed {} true (some { fn := 8, opened := true }), 8, 0, { fn := 8, opened := true }, 8, by decide +kernel⟩⟩

/-- Meets the hypotheses of `Obligations.StagingAndDefaults`, clause by clause. -/
theorem witness_StagingAndDefaults :
    (∃ (s : State), s.jvkFree = true) ∧
    (∃ (s : State), s.jvkFree = true ∧ s.jvk.staged.isSome) ∧
    (∃ (s : State) (_v : Bool) (_n : Nat), s.jvkFree = true) ∧
    (∃ (s : State), s.jvkFree = true ∧ s.drained = true ∧ s.jvk.fwStaged = true) ∧
    (∃ (s : State), s.jvkFree = true ∧ s.drained = false) ∧
    (∃ (s : State) (c : Fin 16), s.jvkFree = true ∧ (c.val = 0 ∨ 8 ≤ c.val)) ∧
    (∃ (s : State) (c : Fin 16), s.jvkFree = true ∧ (c.val = 0 ∨ 8 ≤ c.val)) ∧
    (∃ (s : State) (c : Fin 16), s.jvkFree = true ∧ (c.val = 0 ∨ 8 ≤ c.val)) ∧
    (∃ (s : State), s.pstate ≠ 4 ∧ s.hif.heldInReset = false ∧ s.jvk.running.isSome) ∧
    (∃ (s : State), s.pstate ≠ 4 ∧ s.hif.heldInReset = false ∧ s.jvk.running = none ∧ s.hif.defaultDone = false ∧ s.hif.waitingResets = []) ∧
    (∃ (s : State) (raw : List Byte), s.answers = true ∧ s.jvk.running = some .stage ∧ s.jvk.reading = some raw ∧ s.hif.waitingResets = []) ∧
    (∃ (s : State), s.answers = true ∧ s.jvk.running = some .saveDefault ∧ s.hif.waitingResets = []) ∧
    (∃ (s : State), s.answers = true ∧ s.jvk.running = some .fwInstall ∧ s.hif.waitingResets = []) :=
  ⟨⟨booted, by decide +kernel⟩,
   ⟨booted { staged := some {} }, by decide +kernel⟩,
   ⟨booted, true, 0, by decide +kernel⟩,
   ⟨booted { fwStaged := true }, by decide +kernel⟩,
   ⟨{ basin { txWait := [wTx] } with hif := { Z.hif with defaultDone := true } }, by decide +kernel⟩,
   ⟨booted, 0, by decide +kernel⟩,
   ⟨booted, 8, by decide +kernel⟩,
   ⟨booted, 15, by decide +kernel⟩,
   ⟨booted { running := some .stage }, by decide +kernel⟩,
   ⟨Z, by decide +kernel⟩,
   ⟨booted { running := some .stage, reading := some [] }, [], by decide +kernel⟩,
   ⟨booted { running := some .saveDefault }, by decide +kernel⟩,
   ⟨booted { running := some .fwInstall }, by decide +kernel⟩⟩

/-- Meets the hypotheses of `Obligations.CommitOfAnImage`, clause by clause. -/
theorem witness_CommitOfAnImage :
    (∃ (s : State) (im : Image), s.jvkFree = true ∧ s.jvk.staged = some im ∧ s.commitRefusal im = none) ∧
    (∃ (s : State) (im : Image) (st : Status) (i : Nat), s.jvkFree = true ∧ s.jvk.staged = some im ∧ s.commitRefusal im = some (st, i)) ∧
    (∃ (s : State) (im : Image), s.answers = true ∧ s.jvk.commitWait = true ∧ s.jvk.staged = some im ∧ s.commitRefusal im = none) ∧
    (∃ (s : State) (im : Image) (st : Status) (i : Nat), s.answers = true ∧ s.jvk.commitWait = true ∧ s.jvk.staged = some im ∧
        s.commitRefusal im = some (st, i) ∧ s.hif.waitingResets = []) ∧
    (∃ (s : State), s.jvk.commitWait = false) ∧
    (∃ (s : State) (im : Image), s.answers = true ∧ s.jvk.flashWait = true ∧ s.image = some im ∧ s.floorSlot < 5 ∧ s.hif.waitingResets = []) ∧
    (∃ (s : State) (u : State), s.answers = true ∧ s.booting = true ∧ s.hif.trimDone = true ∧ s.hif.defaultDone = false ∧
        u = { s with hif := { s.hif with defaultDone := true } } ∧ s.jvk.flashDefault = none) ∧
    ((Config.signature 0 [] wBytes).length = 16608 → bootDone.signed wSigned = true → ∃ (s : State) (u : State) (raw : List Byte), s.answers = true ∧
        s.booting = true ∧ s.hif.trimDone = true ∧ s.hif.defaultDone = false ∧ u = { s with hif := { s.hif with defaultDone := true } } ∧
        s.jvk.flashDefault = some raw ∧ orElseRefused [u.stageRefusal (readImage raw) raw.length, u.commitRefusal (readImage raw)] = none) ∧
    (∃ (s : State) (u : State) (raw : List Byte) (st : Status) (i : Nat), s.answers = true ∧ s.booting = true ∧ s.hif.trimDone = true ∧
        s.hif.defaultDone = false ∧ u = { s with hif := { s.hif with defaultDone := true } } ∧ s.jvk.flashDefault = some raw ∧
        orElseRefused [u.stageRefusal (readImage raw) raw.length, u.commitRefusal (readImage raw)] = some (st, i)) ∧
    (∃ (s : State), (s.booting = false ∨ s.hif.trimDone = false ∨ s.hif.defaultDone = true)) :=
  ⟨⟨booted { staged := some wStaged }, wStaged, by decide +kernel⟩,
   ⟨booted { staged := some {} }, {}, .badImage, 0x3FF, by decide +kernel⟩,
   ⟨booted { staged := some wStaged, commitWait := true }, wStaged, by decide +kernel⟩,
   ⟨booted { staged := some {}, commitWait := true }, {}, .badImage, 0x3FF, by decide +kernel⟩,
   ⟨Z, by decide +kernel⟩,
   ⟨booted { inForce := some wStaged, flashWait := true }, wStaged, by decide +kernel⟩,
   ⟨{ Z with hif := { Z.hif with trimDone := true } }, { Z with hif := { Z.hif with trimDone := true, defaultDone := true } }, by decide +kernel, rfl,
       rfl, rfl, rfl, rfl⟩,
   fun h v => ⟨booting, bootDone, wSigned, by decide +kernel, rfl, rfl, rfl, rfl, rfl, wSigned_ok h v⟩,
   ⟨{ Z with hif := { Z.hif with trimDone := true }, jvk := { Z.jvk with flashDefault := some [] } }, { Z with hif := { Z.hif with trimDone := true, defaultDone := true }, jvk := { Z.jvk with flashDefault := some [] } }, [], .badImage, 0x3FF,
       by decide +kernel, rfl, rfl, rfl, rfl, rfl, by decide +kernel⟩,
   ⟨Z, by decide +kernel⟩⟩

/-- Meets the hypotheses of `Obligations.ColdResets`, clause by clause. -/
theorem witness_ColdResets :
    (∃ (s : State) (_pos : BitVec 12) (_split : Bool), s.pstate ≠ 4 ∧ s.hif.heldInReset = false ∧ s.resetBusy = false) ∧
    (∃ (s : State) (_pos : BitVec 12) (_split : Bool), s.hif.heldInReset = true) ∧
    (∃ (s : State) (_pos : BitVec 12) (_split : Bool), s.hif.heldInReset = false) ∧
    (∃ (c : Instr) (s : State), s.answers = false ∧ c.coldResets = false ∧ (∀ p, c ≠ .portSignalLoss p ∧ c ≠ .portSignalDetect p)) :=
  ⟨⟨Z, 0xFFF, true, by decide +kernel⟩,
   ⟨{ Z with hif := { Z.hif with heldInReset := true } }, 0, false, by decide +kernel⟩,
   ⟨Z, 0, false, by decide +kernel⟩,
   ⟨.thermtrip, { Z with pstate := 4 }, rfl, rfl, fun _ => ⟨nofun, nofun⟩⟩⟩

/-- Meets the hypotheses of `Obligations.TrainingAtBoot`, clause by clause. -/
theorem witness_TrainingAtBoot :
    (∃ (s : State) (_failed : List (Fin 384)), s.booting = true ∧ s.hif.hbmTrained = false) ∧
    (∃ (s : State) (_gib : Option (Fin 257)), s.booting = true ∧ s.hif.hbmTrained = true ∧ s.hif.deepTrained = false) ∧
    (∃ (s : State) (_failed : List (Fin 384)) (_gib : Option (Fin 257)), s.booting = false) :=
  ⟨⟨Z, [383], by decide +kernel⟩,
   ⟨{ Z with hif := { Z.hif with hbmTrained := true } }, some 256, by decide +kernel⟩,
   ⟨stopped Z, [], none, by decide +kernel⟩⟩

/-- Meets the hypotheses of `Obligations.WarmDeviceAndCoveResets`, clause by clause. -/
theorem witness_WarmDeviceAndCoveResets :
    (∃ (s : State), s.resetsFree = true) ∧
    (∃ (s : State), s.pstate ≠ 4 ∧ s.hif.heldInReset = false ∧ s.stopped = false ∧ (∀ r, s.hif.running = some r → r.kind ≠ .warm)) ∧
    (∃ (s : State), s.resetsFree = true ∧ s.jvk.running = none) ∧
    (∃ (s : State) (_c : Fin 8), s.resetsFree = true ∧ s.jvk.running = none) ∧
    (∃ (s : State), s.pstate ≠ 4 ∧ s.hif.heldInReset = false ∧ s.resetBusy = true) ∧
    (∃ (s : State) (_b : Byte), s.pstate ≠ 4 ∧ s.hif.heldInReset = false ∧ s.resetBusy = true) ∧
    (∃ (s : State), s.pstate ≠ 4 ∧ s.hif.heldInReset = false ∧ s.resetBusy = false ∧ s.stopped = true) ∧
    (∃ (s : State) (_f : Fin 9), s.pstate ≠ 4 ∧ s.hif.heldInReset = false ∧ s.resetBusy = false ∧ s.stopped = true) ∧
    (∃ (s : State) (_seven : Bool), s.pstate ≠ 4 ∧ s.hif.heldInReset = false) :=
  ⟨⟨Z, by decide +kernel⟩,
   ⟨resetting ⟨.device, 0, 0⟩, by decide +kernel, rfl, rfl, fun _ h => by cases h; decide⟩,
   ⟨Z, by decide +kernel⟩,
   ⟨Z, 7, by decide +kernel⟩,
   ⟨resetting ⟨.cove, 7, 0⟩, by decide +kernel⟩,
   ⟨resetting ⟨.cove, 7, 0⟩, 0, by decide +kernel⟩,
   ⟨stopped Z, by decide +kernel⟩,
   ⟨stopped Z, 8, by decide +kernel⟩,
   ⟨Z, true, by decide +kernel⟩⟩

/-- Meets the hypotheses of `Obligations.EngineAndPortResets`, clause by clause. -/
theorem witness_EngineAndPortResets :
    (∃ (s : State) (b : Byte), s.resetsFree = true ∧ (b.toNat ≤ 0xD1 ∨ 0xD4 ≤ b.toNat ∧ b.toNat ≤ 0xD7)) ∧
    (∃ (s : State) (b : Byte), s.resetsFree = true ∧ (b.toNat ≤ 0xD1 ∨ 0xD4 ≤ b.toNat ∧ b.toNat ≤ 0xD7)) ∧
    (∃ (s : State) (b : Byte), s.resetsFree = true ∧ (¬ (b.toNat ≤ 0xD1 ∨ 0xD4 ≤ b.toNat ∧ b.toNat ≤ 0xD7))) ∧
    (∃ (s : State) (b : Byte), s.resetsFree = true ∧ (¬ (b.toNat ≤ 0xD1 ∨ 0xD4 ≤ b.toNat ∧ b.toNat ≤ 0xD7))) ∧
    (∃ (s : State) (b : Byte), s.resetsFree = true ∧ b.toNat < s.portCount ∧ b.toNat < 36 ∧ (s.port b.toNat).state ≠ .off ∧
        (s.port b.toNat).state ≠ .out) ∧
    (∃ (s : State), s.hif.running = none) ∧
    (∃ (s : State) (r : ResetRun), s.answers = true ∧ s.hif.running = some r ∧ r.kind = .engine ∧ s.hif.waitingResets = [] ∧
        s.engineWorks r.target = true ∧ s.now < r.since + 1000000) ∧
    (∃ (s : State) (r : ResetRun), s.answers = true ∧ s.hif.running = some r ∧ r.kind = .engine ∧ s.hif.waitingResets = [] ∧
        (s.engineWorks r.target = false ∨ r.since + 1000000 ≤ s.now)) ∧
    (∃ (s : State) (r : ResetRun), s.answers = true ∧ s.hif.running = some r ∧ r.kind = .engine ∧ s.hif.waitingResets = [] ∧
        (s.engineWorks r.target = false ∨ r.since + 1000000 ≤ s.now)) ∧
    (∃ (s : State) (r : ResetRun), s.answers = true ∧ s.hif.running = some r ∧ r.kind = .cove ∧ s.hif.waitingResets = []) ∧
    (∃ (s : State) (r : ResetRun), s.answers = true ∧ s.hif.running = some r ∧ (r.kind = .warm ∨ r.kind = .device) ∧ s.hif.waitingResets = []) ∧
    (∃ (s : State) (r : ResetRun), s.answers = true ∧ s.hif.running = some r ∧ (r.kind = .warm ∨ r.kind = .device) ∧ s.hif.waitingResets = []) :=
  ⟨⟨Z, 0xD1, by decide +kernel⟩,
   ⟨Z, 0xD7, by decide +kernel⟩,
   ⟨Z, 0xD2, by decide +kernel⟩,
   ⟨Z, 0xD8, by decide +kernel⟩,
   ⟨{ Z with lnk := { Z.lnk with ports := Z.lnk.ports.set 35 { state := .up } } }, 35, by decide +kernel⟩,
   ⟨Z, by decide +kernel⟩,
   ⟨{ tiling wRun with tick := 999999, hif := { on.hif with running := some ⟨.engine, 0, 0⟩ } }, ⟨.engine, 0, 0⟩, by decide +kernel⟩,
   ⟨resetting ⟨.engine, 0, 0⟩, ⟨.engine, 0, 0⟩, by decide +kernel⟩,
   ⟨{ tiling wRun with tick := 1000000, hif := { on.hif with running := some ⟨.engine, 0, 0⟩ } }, ⟨.engine, 0, 0⟩, by decide +kernel⟩,
   ⟨resetting ⟨.cove, 7, 0⟩, ⟨.cove, 7, 0⟩, by decide +kernel⟩,
   ⟨resetting ⟨.warm, 0, 0⟩, ⟨.warm, 0, 0⟩, by decide +kernel⟩,
   ⟨resetting ⟨.device, 0, 0⟩, ⟨.device, 0, 0⟩, by decide +kernel⟩⟩

end Sys2Proof.Tests
end

section
/-! Posting a load of the Inlet (spec/09_weight_intake.md, R328). -/
namespace Sys2Proof.Proofs
open Sys2Proof Sys2Proof.Machine Sys2Proof.Laws

/-! ### Rules of the shared operations -/

/-- A package that runs takes the effect of a command. -/
theorem whileOn_of_answers {s : State} (f : State → State) (h : s.answers = true) : s.whileOn f = f s := if_pos h

theorem getLsbD_setBit32_self (w : Word) {i : Nat} (h : i < 32) : (setBit32 w i).getLsbD i = true := by
  have hbit : (BitVec.ofNat 32 (2 ^ i)).getLsbD i = true := by
    rw [BitVec.getLsbD_ofNat, Nat.testBit_two_pow_self, decide_eq_true h, Bool.and_self]
  rw [setBit32, BitVec.getLsbD_or, hbit, Bool.or_true]

/-- The vectors of a cove leave every write-one-to-clear bit alone. -/
theorem raiseCove_flags (s : State) (c k : Nat) : (s.raiseCove c k).flags = s.flags :=
  (raise_flags _ _ _).trans (raise_flags _ _ _)

/-- DROPPED or POST_FAULT of a queue reads 1 once it has been set (R112, R667). -/
theorem queueFlag_bit (s : State) (c off : Nat) {i : Nat} (h : i < 32) : (s.queueFlag c off i).flagBit off i = true := by
  unfold State.queueFlag State.flagBit State.flag
  rw [raiseCove_flags, setFlags_flags, get_put_self]
  exact getLsbD_setBit32_self _ h

/-! ### Posting a load -/

/-- A full queue takes no load: LOAD_STAT.DROPPED is set. -/
theorem loadPost_of_full {s : State} {c : Nat} (a : Nat) (h : 16 ≤ (vget [] s.inl.queues c).length) :
    s.loadPost c a = s.queueFlag c (inlOff c 8) 16 := if_pos h

/-- A queue with room takes the load at its tail. -/
theorem loadPost_of_room {s : State} {c : Nat} (a : Nat) (h : (vget [] s.inl.queues c).length < 16) :
    s.loadPost c a = s.modInl fun i => { i with queues := vmod i.queues c fun q => q ++ [a] } := if_neg (Nat.not_le.mpr h)

/-- The write of LOAD_POST_HI posts the address that stands in the pair. -/
theorem exec_loadPost {s : State} (c : Cove) (lo : Option Word) (hi : Word) (h : s.answers = true) :
    exec (.loadPost c lo hi) s = .next (s.loadPost c ((lo.getD (s.reg (inlOff c 0))).toNat + 0x100000000 * hi.toNat)) :=
  congrArg Host.Outcome.next (whileOn_of_answers _ h)

/-- Settles O11: the queue's length decides between the tail of the queue and DROPPED, whose event only signals. -/
theorem loadsArePosted : Obligations.LoadsArePosted := by
  rintro s c lo hi a hs rfl
  rw [exec_loadPost c lo hi hs]
  refine ⟨fun hroom => ⟨_, rfl, ?_⟩, fun hfull => ⟨_, rfl, ?_⟩⟩
  · rw [loadPost_of_room _ hroom]
    exact ⟨vget_vmod_self _ _ _ _ c.isLt, fun e he => vget_vmod_ne _ _ _ _ _ (Fin.val_ne_of_ne he), rfl⟩
  · rw [loadPost_of_full _ hfull]
    exact ⟨queueFlag_bit _ _ _ (by decide), signals_queueFlag _ _ _ _⟩

end Sys2Proof.Proofs
end

section
/-! The broker's SET_ATTESTED (spec/14_security.md, R530 and R531). -/
namespace Sys2Proof.Proofs
open Sys2Proof Sys2Proof.Machine Sys2Proof.Laws

/-! ### Mailboxes and the broker's commands -/

/-- The mailbox after a request that is not GET_PQ_SIG: nothing is left for GET_PQ_SIG to sign (R527). -/
def endSigning (m : Mailbox) : Mailbox := { m with signed := none }

/-- A mailbox that is there takes the request and loses what it could sign. -/
theorem atBox_of_boxThere {s : State} {box : Nat} (f : State → State) (h : s.boxThere box = true) :
    s.atBox box f = f (s.modBox box endSigning) := if_pos h

/-- The mailbox of PF0 is there whenever the package answers. -/
theorem boxThere_pf0 {s : State} (h : s.answers = true) : s.boxThere 0 = true := by
  simp [State.boxThere, h]

@[simp] theorem modBox_session (s : State) (box : Nat) (f : Mailbox → Mailbox) (b k : Nat) :
    (s.modBox box f).session b k = s.session b k := rfl

@[simp] theorem modBox_sec (s : State) (box : Nat) (f : Mailbox → Mailbox) : (s.modBox box f).wh.sec = s.wh.sec := rfl

/-- No measurement reads a mailbox (Table 14.5). -/
@[simp] theorem modBox_measurementRecord (s : State) (box : Nat) (f : Mailbox → Mailbox) :
    (s.modBox box f).measurementRecord = s.measurementRecord := rfl

/-- In an open session of PF0 whose PQ_FINISH has verified, a command of the broker is carried out (R530). -/
theorem broker_of_session {s : State} {k : Nat} {x : Session} (f : State → State) (hs : s.answers = true)
    (hx : s.session 0 k = some x) (hopen : x.opened = true) (hbroker : x.broker = true) :
    s.broker 0 k f = f (s.modBox 0 endSigning) := by
  rw [State.broker, atBox_of_boxThere _ (boxThere_pf0 hs)]
  exact if_pos (by simp [hx, hopen, hbroker])

/-! ### SET_ATTESTED -/

/-- SET_ATTESTED of the broker: the security state decides first, then the digest of the measurement record. -/
theorem exec_setAttested_of_session {s : State} {k : Fin 4} {x : Session} (d : BitVec 384) (hs : s.answers = true)
    (hx : s.session 0 k = some x) (hopen : x.opened = true) (hbroker : x.broker = true) :
    exec (.setAttested 0 k d) s = .next (
      if s.wh.sec ≠ .sealed then (s.modBox 0 endSigning).vendorReply 0 .permission []
      else if leBytes 48 d.toNat = sha384 s.measurementRecord then
        ((s.modBox 0 endSigning).modWh fun w => { w with sec := .attested }).vendorReply 0 .done []
      else (s.modBox 0 endSigning).vendorReply 0 .busy []) := by
  change execSetAttested 0 k d s = _
  rw [execSetAttested, Fin.val_zero, broker_of_session _ hs hx hopen hbroker, modBox_sec, modBox_measurementRecord]

/-- Settles O9: in an open session of the broker, each of the three verdicts changes the mailbox and answers, and only
equal digests in SEALED change the security state too. -/
theorem setAttestedComparesTheRecord : Obligations.SetAttestedComparesTheRecord := by
  intro s k x d hs hx hopen hbroker
  rw [exec_setAttested_of_session d hs hx hopen hbroker]
  refine ⟨fun hsealed hequal => ⟨_, rfl, ?_⟩, fun hsealed hdiffers => ⟨_, rfl, ?_⟩, fun hother => ⟨_, rfl, ?_⟩⟩
  · rw [if_neg (not_not_intro hsealed), if_pos hequal]
    exact ⟨rfl, rfl, rfl⟩
  · rw [if_neg (not_not_intro hsealed), if_neg hdiffers]
    exact ⟨rfl, rfl⟩
  · rw [if_pos hother]
    exact ⟨rfl, rfl⟩

end Sys2Proof.Proofs
end

section
/-! A port reset of a port in OUT or OFF (spec/16_host_interface_and_reset.md, R594). -/
namespace Sys2Proof.Proofs
open Sys2Proof Sys2Proof.Machine Sys2Proof.Laws

/-! ### Events of the host interface -/

/-- Of the host interface, a vector touches the pending bits of MSI-X alone (R584). -/
theorem raise_hif (s : State) (fn vec : Nat) : (s.raise fn vec).hif = { s.hif with msix := (s.raise fn vec).hif.msix } := by
  unfold State.raise
  dsimp only
  split; · rfl
  split; · rfl
  split <;> rfl

theorem hifEvent_hif (s : State) (i : Nat) : (s.hifEvent i).hif = { s.hif with msix := (s.hifEvent i).hif.msix } :=
  raise_hif _ _ _

/-- An event of the host interface signals, and of the host interface itself it touches MSI-X alone. -/
theorem hifEvent_frame (s : State) (i : Nat) :
    s.hifEvent i = { s with hif := { s.hif with msix := (s.hifEvent i).hif.msix }, flags := (s.hifEvent i).flags,
                            ctrs := (s.hifEvent i).ctrs, out := (s.hifEvent i).out } := by
  rw [← hifEvent_hif]
  exact signals_hifEvent s i

/-! ### Requests for a reset -/

theorem resetsFree_iff {s : State} : s.resetsFree = true ↔
    s.pstate ≠ 4 ∧ s.hif.heldInReset = false ∧ s.hif.running = none ∧ s.hif.waitingResets = [] ∧ s.stopped = false := by
  simp [State.resetsFree, and_assoc]

/-- Nothing refuses a request of a kind of Table 16.6 while RESET_REQ would be taken. -/
theorem resetRefusal_of_resetsFree {s : State} (k : ResetKind) (h : s.resetsFree = true) : s.resetRefusal k.code = none := by
  obtain ⟨-, -, hrunning, hwaiting, hstopped⟩ := resetsFree_iff.mp h
  have hkind : ¬(k.code = 0 ∨ 6 < k.code) := by cases k <;> decide
  simp [State.resetRefusal, hkind, State.resetBusy, hrunning, hwaiting, hstopped]

/-- A request that is accepted shows its kind in RESET_STAT and goes on (R589). -/
theorem requestReset_of_resetsFree {s : State} (k : ResetKind) (f : State → State) (h : s.resetsFree = true) :
    s.requestReset k f = f (s.resetStat k.code .done) := by
  obtain ⟨hpowered, hheld, -⟩ := resetsFree_iff.mp h
  rw [State.requestReset, if_neg (by simp [hpowered, hheld]), resetRefusal_of_resetsFree k h]

/-! ### The port reset -/

/-- The reset of a port in OUT or OFF shows BUSY and ends. -/
theorem portReset_of_off_or_out {s : State} {p : Nat} (hcount : p < s.portCount) (h36 : p < 36)
    (hport : (s.port p).state = .off ∨ (s.port p).state = .out) : s.portReset p = (s.resetStat 6 .busy).hifEvent 0 := by
  rw [State.portReset, if_neg (Nat.not_le.mpr h36), if_neg (Nat.not_le.mpr hcount), if_pos hport]

/-- RESET_REQ PORT of a port in OUT or OFF: BUSY takes the place of the accepted request in RESET_STAT. -/
theorem exec_portReset_of_off_or_out {s : State} {b : Byte} (hfree : s.resetsFree = true) (hcount : b.toNat < s.portCount)
    (h36 : b.toNat < 36) (hport : (s.port b.toNat).state = .off ∨ (s.port b.toNat).state = .out) :
    exec (.portReset b) s = .next ((s.resetStat 6 .busy).hifEvent 0) := by
  change execPortReset b s = _
  rw [execPortReset, requestReset_of_resetsFree _ _ hfree]
  exact congrArg Host.Outcome.next (portReset_of_off_or_out (s := s.resetStat 6 .done) hcount h36 hport)

/-- Settles O10: RESET_STAT takes BUSY, and the event of the end leaves it and everything but the signals alone. -/
theorem portResetOfAPortOutOrOff : Obligations.PortResetOfAPortOutOrOff := by
  intro s b hfree hcount h36 hport
  obtain ⟨-, -, hrunning, -⟩ := resetsFree_iff.mp hfree
  have hhif := hifEvent_hif (s.resetStat 6 .busy) 0
  exact ⟨_, exec_portReset_of_off_or_out hfree hcount h36 hport, congrArg Hif.lastKind hhif, congrArg Hif.lastStatus hhif,
    (congrArg Hif.running hhif).trans hrunning, event_bit _ _ _ _ (by decide), hifEvent_frame _ _⟩

end Sys2Proof.Proofs
end

section
/-! The command queue, the fuses and the security state over every step (spec/95_what_each_step_holds.md and
spec/14_security.md, R535 to R541). What a command can do to them is said once, as `SecurityMove`; the three invariants are
read off it. -/
namespace Sys2Proof.Proofs
open Sys2Proof Sys2Proof.Machine Sys2Proof.Laws

/-! ### What a command can do to what the invariants speak of -/

/-- The commands that can change the security state beyond SEALED and ATTESTED, the debug level, or the fused owners. -/
def movesSecurity : Instr → Bool
  | .claim _ _ => true
  | .transfer _ _ _ => true
  | .debugSet _ _ _ => true
  | .debugEnter _ _ _ => true
  | .scrap _ _ => true
  | c => c.coldResets

/-- What a command can do to the queue, the fuses and the security state: nothing, a cold reset (R541), a change of owner
(R535), a new debug level that Table 14.8 allows, DEBUG_ENTER (R536) or SCRAP (R537). -/
inductive SecurityMove (c : Instr) (s t : State) : Prop
  | keeps (h : guard t = guard s)
  | cold (hc : c.coldResets = true) (hsec : t.wh.sec = s.wh.sec.cold) (h : guard t = { guard s with debug := 0, sec := s.wh.sec.cold })
  | owner (hc : c.fusesOwner = true) (hsec : secClass s.wh.sec = .factory ∨ secClass s.wh.sec = .sealed)
      (os : Vector (Option (List Byte)) 4) (n : Nat) (h : guard t = { guard s with owners := os, ownerSlot := n, debug := 0, sec := .sealed })
  | level (d : Nat) (hd : d < 4) (hallows : s.wh.sec.allows d = true) (h : guard t = { guard s with debug := d })
  | enter (d : Nat) (hd : d < 4) (h2 : 2 ≤ d) (hsec : secClass s.wh.sec = .sealed)
      (h : guard t = { guard s with debug := d, sec := .ownerDebug })
  | scrap (hsec : s.wh.sec ≠ .ownerDebug) (h : guard t = { guard s with sec := .scrapped, destroyed := true })

theorem allows_secClass (x : SecState) (d : Nat) : (secClass x).allows d = x.allows d := by cases x <;> rfl

theorem secClass_eq_ownerDebug {x : SecState} : secClass x = .ownerDebug ↔ x = .ownerDebug := by cases x <;> simp [secClass]

theorem secClass_eq_factory {x : SecState} : secClass x = .factory ↔ x = .factory := by cases x <;> simp [secClass]

theorem secClass_eq_scrapped {x : SecState} : secClass x = .scrapped ↔ x = .scrapped := by cases x <;> simp [secClass]

theorem secClass_eq_sealed {x : SecState} : secClass x = .sealed ↔ x = .sealed ∨ x = .attested := by cases x <;> simp [secClass]

/-- A move from a state that shows the same is a move. -/
theorem SecurityMove.of_guard_eq {c : Instr} {s u t : State} (hu : guard u = guard s) (hm : SecurityMove c u t)
    (hcold : c.coldResets = false) : SecurityMove c s t := by
  have hclass : secClass u.wh.sec = secClass s.wh.sec := congrArg Guard.sec hu
  cases hm with
  | keeps h => exact .keeps (h.trans hu)
  | cold hc => exact absurd hc (by simp [hcold])
  | owner hc hsec os n h => exact .owner hc (hclass ▸ hsec) os n (hu ▸ h)
  | level d hd hallows h => exact .level d hd (by rwa [← allows_secClass, ← hclass, allows_secClass]) (hu ▸ h)
  | enter d hd h2 hsec h => exact .enter d hd h2 (hclass ▸ hsec) (hu ▸ h)
  | scrap hsec h => exact .scrap (fun hs => hsec (secClass_eq_ownerDebug.mp (hclass.trans (secClass_eq_ownerDebug.mpr hs)))) (hu ▸ h)

/-! ### The commands that keep it all -/

/-- Every command but those of `movesSecurity` leaves the queue, the fuses and the class of the security state alone. -/
theorem guard_exec {c : Instr} {s t : State} (hc : movesSecurity c = false) (h : exec c s = .next t) : guard t = guard s := by
  cases c with
  | registerWrite => exact guard_execRegisterWrite (h := h) ..
  | bar0BadAccess => exact guard_execBar0BadAccess (h := h) ..
  | budgetPeriodBoundary => exact guard_execBudgetPeriodBoundary (h := h) ..
  | stepBoundary => exact guard_execStepBoundary (h := h) ..
  | bar4EntryWrite => exact guard_execBar4EntryWrite (h := h) ..
  | readyBitmapOr => exact guard_execReadyBitmapOr (h := h) ..
  | seqCtrlWrite => exact guard_execSeqCtrlWrite (h := h) ..
  | stepEntryComplete => exact guard_execStepEntryComplete (h := h) ..
  | stepPostRetry => exact guard_execStepPostRetry (h := h) ..
  | stepWaitMet => exact guard_execStepWaitMet (h := h) ..
  | emit => exact guard_execEmit (h := h) ..
  | shadowCopyDone => exact guard_execShadowCopyDone (h := h) ..
  | fallbackImportDone => exact guard_execFallbackImportDone (h := h) ..
  | pondPost => exact guard_execPondPost (h := h) ..
  | tileClaim => exact guard_execTileClaim (h := h) ..
  | tilePassEnd => exact guard_execTilePassEnd (h := h) ..
  | pondListComplete => exact guard_execPondListComplete (h := h) ..
  | tileRestart => exact guard_execTileRestart (h := h) ..
  | listPost => exact guard_execListPost (h := h) ..
  | attentionUnitClaim => exact guard_execAttentionUnitClaim (h := h) ..
  | attentionUnitEnd => exact guard_execAttentionUnitEnd (h := h) ..
  | attnListComplete => exact guard_execAttnListComplete (h := h) ..
  | attentionUnitRestart => exact guard_execAttentionUnitRestart (h := h) ..
  | shoalPost => exact guard_execShoalPost (h := h) ..
  | routeStart => exact guard_execRouteStart (h := h) ..
  | runCopyDone => exact guard_execRunCopyDone (h := h) ..
  | runReturnDone => exact guard_execRunReturnDone (h := h) ..
  | routeCombine => exact guard_execRouteCombine (h := h) ..
  | receiveStart => exact guard_execReceiveStart (h := h) ..
  | receiveRoundGather => exact guard_execReceiveRoundGather (h := h) ..
  | receiveRoundReturn => exact guard_execReceiveRoundReturn (h := h) ..
  | shoalTimeout => exact guard_execShoalTimeout (h := h) ..
  | patrolScrubRead => exact guard_execPatrolScrubRead (h := h) ..
  | quarantineTest => exact guard_execQuarantineTest (h := h) ..
  | mapReq => exact guard_execMapReq (h := h) ..
  | mapoutMoveStart => exact guard_execMapoutMoveStart (h := h) ..
  | mapoutMoveDone => exact guard_execMapoutMoveDone (h := h) ..
  | stackTempRead => exact guard_execStackTempRead (h := h) ..
  | dtuInval => exact guard_execDtuInval (h := h) ..
  | dtuInvalDone => exact guard_execDtuInvalDone (h := h) ..
  | objectCas => exact guard_execObjectCas (h := h) ..
  | spillwayPageMove => exact guard_execSpillwayPageMove (h := h) ..
  | layerTransferStart => exact guard_execLayerTransferStart (h := h) ..
  | layerTransferDone => exact guard_execLayerTransferDone (h := h) ..
  | poisonRefetchStart => exact guard_execPoisonRefetchStart (h := h) ..
  | refetchDone => exact guard_execRefetchDone (h := h) ..
  | refetchFail => exact guard_execRefetchFail (h := h) ..
  | loadPost => exact guard_execLoadPost (h := h) ..
  | loadTake => exact guard_execLoadTake (h := h) ..
  | loadComplete => exact guard_execLoadComplete (h := h) ..
  | loadAbort => exact guard_execLoadAbort (h := h) ..
  | loadCancel => exact guard_execLoadCancel (h := h) ..
  | inletRefetchRerun => exact guard_execInletRefetchRerun (h := h) ..
  | ferryPost => exact guard_execFerryPost (h := h) ..
  | ferryStart => exact guard_execFerryStart (h := h) ..
  | chunkIncrement => exact guard_execChunkIncrement (h := h) ..
  | completionIncrement => exact guard_execCompletionIncrement (h := h) ..
  | ferryEnd => exact guard_execFerryEnd (h := h) ..
  | ferryCancel => exact guard_execFerryCancel (h := h) ..
  | transactionAccept => exact guard_execTransactionAccept (h := h) ..
  | basinRequestArrive => exact guard_execBasinRequestArrive (h := h) ..
  | basinRequestApply => exact guard_execBasinRequestApply (h := h) ..
  | responseArrive => exact guard_execResponseArrive (h := h) ..
  | transactionTimeout => exact guard_execTransactionTimeout (h := h) ..
  | arrivalCounterWrite => exact guard_execArrivalCounterWrite (h := h) ..
  | sluiceGroupSend => exact guard_execSluiceGroupSend (h := h) ..
  | dataFrameReceive => exact guard_execDataFrameReceive (h := h) ..
  | nakReceive => exact guard_execNakReceive (h := h) ..
  | ackSendTimer => exact guard_execAckSendTimer (h := h) ..
  | replayTimer => exact guard_execReplayTimer (h := h) ..
  | connectionFail => exact guard_execConnectionFail (h := h) ..
  | resyncReq => exact guard_execResyncReq (h := h) ..
  | resyncAck => exact guard_execResyncAck (h := h) ..
  | resyncTimeout => exact guard_execResyncTimeout (h := h) ..
  | credit => exact guard_execCredit (h := h) ..
  | creditSendTimer => exact guard_execCreditSendTimer (h := h) ..
  | keepalive => exact guard_execKeepalive (h := h) ..
  | ethConnectionSilence => exact guard_execEthConnectionSilence (h := h) ..
  | ident => exact guard_execIdent (h := h) ..
  | drainNotice => exact guard_execDrainNotice (h := h) ..
  | portSignalLoss => exact guard_execPortSignalLoss (h := h) ..
  | portSignalDetect => exact guard_execPortSignalDetect (h := h) ..
  | portRetrainEntry => exact guard_execPortRetrainEntry (h := h) ..
  | portTrainingTimeout => exact guard_execPortTrainingTimeout (h := h) ..
  | portRetrainTimeout => exact guard_execPortRetrainTimeout (h := h) ..
  | portDownRetry => exact guard_execPortDownRetry (h := h) ..
  | moduleFlagPoll => exact guard_execModuleFlagPoll (h := h) ..
  | portReq => exact guard_execPortReq (h := h) ..
  | gapSkip => exact guard_execGapSkip (h := h) ..
  | linkRekey => exact guard_execLinkRekey (h := h) ..
  | gaugeSampleLatch => exact guard_execGaugeSampleLatch (h := h) ..
  | ein => exact guard_execEin (h := h) ..
  | calStaleTimer => exact guard_execCalStaleTimer (h := h) ..
  | houseMoveTick => exact guard_execHouseMoveTick (h := h) ..
  | coarsePowerUpdate => exact guard_execCoarsePowerUpdate (h := h) ..
  | batchClose => exact guard_execBatchClose (h := h) ..
  | batchRooted => exact guard_execBatchRooted (h := h) ..
  | batchSigned => exact guard_execBatchSigned (h := h) ..
  | recRelease => exact guard_execRecRelease (h := h) ..
  | batchRelease => exact guard_execBatchRelease (h := h) ..
  | loopClosure => exact guard_execLoopClosure (h := h) ..
  | weirMsTick => exact guard_execWeirMsTick (h := h) ..
  | i3cCap => exact guard_execI3cCap (h := h) ..
  | capLvlAccept => exact guard_execCapLvlAccept (h := h) ..
  | droopTrip => exact guard_execDroopTrip (h := h) ..
  | droopRecover => exact guard_execDroopRecover (h := h) ..
  | thermtrip => exact guard_execThermtrip (h := h) ..
  | coolantFail => exact guard_execCoolantFail (h := h) ..
  | trimRun => exact guard_execTrimRun (h := h) ..
  | pstateReqP0 => exact guard_execPstateReqP0 (h := h) ..
  | pstateReqP2 => exact guard_execPstateReqP2 (h := h) ..
  | pstateReqP3 => exact guard_execPstateReqP3 (h := h) ..
  | pstateReqP4 => exact guard_execPstateReqP4 (h := h) ..
  | pstateReqRefused => exact guard_execPstateReqRefused (h := h) ..
  | p1Entry => exact guard_execP1Entry (h := h) ..
  | p1Exit => exact guard_execP1Exit (h := h) ..
  | getVersion => exact guard_execGetVersion (h := h) ..
  | getCapabilities => exact guard_execGetCapabilities (h := h) ..
  | negotiateAlgorithms => exact guard_execNegotiateAlgorithms (h := h) ..
  | getDigests => exact guard_execGetDigests (h := h) ..
  | getCertificate => exact guard_execGetCertificate (h := h) ..
  | challenge => exact guard_execChallenge (h := h) ..
  | getMeasurements => exact guard_execGetMeasurements (h := h) ..
  | keyExchange => exact guard_execKeyExchange (h := h) ..
  | finish => exact guard_execFinish (h := h) ..
  | keyUpdate => exact guard_execKeyUpdate (h := h) ..
  | heartbeat => exact guard_execHeartbeat (h := h) ..
  | endSession => exact guard_execEndSession (h := h) ..
  | getPqCert => exact guard_execGetPqCert (h := h) ..
  | getPqSig => exact guard_execGetPqSig (h := h) ..
  | pqFinish => exact guard_execPqFinish (h := h) ..
  | setAttested => exact guard_execSetAttested (h := h) ..
  | keyPut => exact guard_execKeyPut (h := h) ..
  | keyUsable => exact guard_execKeyUsable (h := h) ..
  | keyErase => exact guard_execKeyErase (h := h) ..
  | whKeyErase => exact guard_execWhKeyErase (h := h) ..
  | leaseEnd => exact guard_execLeaseEnd (h := h) ..
  | getNonce => exact guard_execGetNonce (h := h) ..
  | claim => cases hc
  | transfer => cases hc
  | debugSet => cases hc
  | debugEnter => cases hc
  | scrap => cases hc
  | keyProg => exact guard_execKeyProg (h := h) ..
  | kSetGo => exact guard_execKSetGo (h := h) ..
  | kSetStop => exact guard_execKSetStop (h := h) ..
  | aliasKeysReady => exact guard_execAliasKeysReady (h := h) ..
  | stage => exact guard_execStage (h := h) ..
  | commit => exact guard_execCommit (h := h) ..
  | commitPoint => exact guard_execCommitPoint (h := h) ..
  | commitFlashDone => exact guard_execCommitFlashDone (h := h) ..
  | discard => exact guard_execDiscard (h := h) ..
  | saveDefault => exact guard_execSaveDefault (h := h) ..
  | eraseDefault => exact guard_execEraseDefault (h := h) ..
  | fwStage => exact guard_execFwStage (h := h) ..
  | fwInstall => exact guard_execFwInstall (h := h) ..
  | jvkReservedCode => exact guard_execJvkReservedCode (h := h) ..
  | bar2Read => exact guard_execBar2Read (h := h) ..
  | bar2Write => exact guard_execBar2Write (h := h) ..
  | watchCtrlWrite => exact guard_execWatchCtrlWrite (h := h) ..
  | epochMarkWrite => exact guard_execEpochMarkWrite (h := h) ..
  | coldReset => cases hc
  | hbmTrained => exact guard_execHbmTrained (h := h) ..
  | deepTrained => exact guard_execDeepTrained (h := h) ..
  | defaultImageCommit => exact guard_execDefaultImageCommit (h := h) ..
  | warmReset => exact guard_execWarmReset (h := h) ..
  | deviceReset => exact guard_execDeviceReset (h := h) ..
  | coveReset => exact guard_execCoveReset (h := h) ..
  | engineReset => exact guard_execEngineReset (h := h) ..
  | portReset => exact guard_execPortReset (h := h) ..
  | resetReqRefused => exact guard_execResetReqRefused (h := h) ..
  | nodeLossTimer => exact guard_execNodeLossTimer (h := h) ..
  | nodeLossRecord => exact guard_execNodeLossRecord (h := h) ..
  | lossReq => exact guard_execLossReq (h := h) ..
  | lossRestore => exact guard_execLossRestore (h := h) ..
  | lossRecordClose => exact guard_execLossRecordClose (h := h) ..
  | rippleRecordWrite => exact guard_execRippleRecordWrite (h := h) ..
  | rippleCloseTimer => exact guard_execRippleCloseTimer (h := h) ..
  | stepTimeHistogram => exact guard_execStepTimeHistogram (h := h) ..
  | cvuCtrlWrite => exact guard_execCvuCtrlWrite (h := h) ..
  | cvuData8 => exact guard_execCvuData8 (h := h) ..
  | cvuData16 => exact guard_execCvuData16 (h := h) ..
  | cvuData32 => exact guard_execCvuData32 (h := h) ..
  | cvuValueWrite => exact guard_execCvuValueWrite (h := h) ..
  | pkgResetN => cases hc
  | refclkLoss => cases hc
  | railFault => cases hc
  | perst => exact guard_execPerst (h := h) ..
  | flr => exact guard_execFlr (h := h) ..
  | portRetrainDone => exact guard_execPortRetrainDone (h := h) ..
  | resetDone => exact guard_execResetDone (h := h) ..
  | pstateDone => exact guard_execPstateDone (h := h) ..
  | jvkCommandDone => exact guard_execJvkCommandDone (h := h) ..
  | refclkReturn => cases hc
  | pfcReceive => exact guard_execPfcReceive (h := h) ..
  | setdasa => exact guard_execSetdasa (h := h) ..
  | jtagInstruction => exact guard_execJtagInstruction (h := h) ..
  | msixUnmask => exact guard_execMsixUnmask (h := h) ..
  | lossTailWrite => exact guard_execLossTailWrite (h := h) ..
  | linkZComputed => exact guard_execLinkZComputed (h := h) ..

/-! ### Cold resets -/

theorem guard_coldBoot (s : State) (pos : Nat) (split heat : Bool) :
    guard (s.coldBoot pos split heat) = { guard s with debug := 0, sec := s.wh.sec.cold } := by
  have hclass : secClass s.wh.sec.cold = s.wh.sec.cold := by cases s.wh.sec <;> rfl
  exact congrArg (fun x => { Laws.guard s with debug := 0, sec := x }) hclass

theorem coldBoot_move {c : Instr} (s : State) (pos : Nat) (split heat : Bool) (hc : c.coldResets = true) :
    SecurityMove c s (s.coldBoot pos split heat) := .cold hc rfl (guard_coldBoot ..)

/-- A request for a reset is not taken, is refused, or is carried out (R589). -/
theorem requestReset_cases (s : State) (k : ResetKind) (f : State → State) :
    s.requestReset k f = s ∨ (∃ st, s.requestReset k f = s.resetStat k.code st) ∨ s.requestReset k f = f (s.resetStat k.code .done) := by
  unfold State.requestReset
  split
  · exact .inl rfl
  · split
    · exact .inr (.inl ⟨_, rfl⟩)
    · exact .inr (.inr rfl)

theorem coldReset_move {s t : State} (requested : Bool) (pos : BitVec 12) (split : Bool)
    (h : exec (.coldReset requested pos split) s = .next t) : SecurityMove (.coldReset requested pos split) s t := by
  obtain rfl := next_inj h
  cases requested with
  | false => exact coldBoot_move s _ _ _ rfl
  | true =>
    obtain hs | ⟨st, hs⟩ | hs := requestReset_cases s .cold fun s => s.coldBoot pos.toNat split true
    · exact .keeps (congrArg guard hs)
    · exact .keeps ((congrArg guard hs).trans (guard_resetStat ..))
    · rw [if_pos rfl, hs]
      exact .cold rfl rfl (guard_coldBoot (s.resetStat _ _) ..)

theorem hold_move {c : Instr} (s : State) (hc : c.coldResets = true) : SecurityMove c s s.hold :=
  .cold hc rfl (guard_coldBoot s s.lnk.pos s.hif.split true)

theorem refclkReturn_move {s t : State} (pos : BitVec 12) (split : Bool) (h : exec (.refclkReturn pos split) s = .next t) :
    SecurityMove (.refclkReturn pos split) s t := by
  obtain rfl := next_inj h
  split
  · exact coldBoot_move s _ _ _ rfl
  · exact .keeps rfl

/-! ### Owner commands -/

/-- A command sent on PF0 alone is answered with an error, or acts on a state that shows the same. -/
theorem onPf0_cases (s : State) (box : Nat) (f : State → State) :
    guard (s.onPf0 box f) = guard s ∨ ∃ u, guard u = guard s ∧ s.onPf0 box f = f u := by
  unfold State.onPf0 State.atBox
  split
  · split
    · exact .inr ⟨_, guard_modBox .., rfl⟩
    · exact .inl rfl
  · exact .inl rfl

/-- A signed command fails its signature, or acts on a state that shows the same (R534). -/
theorem signedCommand_cases (s : State) (box : Nat) (owner : Option (List Byte)) (code : Nat) (args : List Byte) (sig : OwnerSig)
    (f : State → State) :
    guard (s.signedCommand box owner code args sig f) = guard s ∨
      ∃ u, guard u = guard s ∧ s.signedCommand box owner code args sig f = f u := by
  unfold State.signedCommand
  dsimp only
  split
  · exact .inr ⟨_, guard_modWh _ _ rfl, rfl⟩
  · exact .inl (by rw [guard_vendorReply, guard_whEvent, guard_modWh _ _ rfl])

/-- What a command sent on PF0 does is a move, where what it does past the mailbox is one. -/
theorem onPf0_move {c : Instr} (s : State) (box : Nat) (f : State → State) (hcold : c.coldResets = false)
    (hf : ∀ u, SecurityMove c u (f u)) : SecurityMove c s (s.onPf0 box f) := by
  obtain h | ⟨u, hu, h⟩ := onPf0_cases s box f
  · exact .keeps h
  · exact h ▸ (hf u).of_guard_eq hu hcold

/-- What a signed command does is a move, where what it does past its signature is one. -/
theorem signedCommand_move {c : Instr} (s : State) (box : Nat) (owner : Option (List Byte)) (code : Nat) (args : List Byte)
    (sig : OwnerSig) (f : State → State) (hcold : c.coldResets = false) (hf : ∀ u, SecurityMove c u (f u)) :
    SecurityMove c s (s.signedCommand box owner code args sig f) := by
  obtain h | ⟨u, hu, h⟩ := signedCommand_cases s box owner code args sig f
  · exact .keeps h
  · exact h ▸ (hf u).of_guard_eq hu hcold

theorem claim_move {s t : State} (box : Fin 10) (sig : OwnerSig) (h : exec (.claim box sig) s = .next t) :
    SecurityMove (.claim box sig) s t := by
  obtain rfl := next_inj h
  refine onPf0_move s _ _ rfl fun u => signedCommand_move u _ _ _ _ _ _ rfl fun v => ?_
  split
  · exact .keeps (guard_vendorReply ..)
  · next hsec =>
    refine .owner rfl (.inl (secClass_eq_factory.mpr (not_not.mp hsec)))
      (vmod v.wh.owners 0 fun _ => some (sha384 sig.rsaKey ++ sha384 sig.slhKey)) 0 ?_
    rw [guard_vendorReply, guard_setDebug]
    rfl

theorem transfer_move {s t : State} (box : Fin 10) (owner : BitVec 768) (sig : OwnerSig)
    (h : exec (.transfer box owner sig) s = .next t) : SecurityMove (.transfer box owner sig) s t := by
  obtain rfl := next_inj h
  refine onPf0_move s _ _ rfl fun u => signedCommand_move u _ _ _ _ _ _ rfl fun v => ?_
  split
  · exact .keeps (guard_vendorReply ..)
  · next hsec =>
    have hsealed : secClass v.wh.sec = .sealed := by
      rw [secClass_eq_sealed]
      by_contra hne
      exact hsec (not_or.mp hne)
    split
    · exact .keeps (guard_vendorReply ..)
    · refine .owner rfl (.inr hsealed) (vmod (vmod v.wh.owners v.wh.ownerSlot fun _ => none) (v.wh.ownerSlot + 1)
        fun _ => some (leBytes 96 owner.toNat)) (v.wh.ownerSlot + 1) ?_
      rw [guard_vendorReply, guard_setDebug, guard_eraseAllKeys, guard_loseAttested, ← hsealed]
      rfl

theorem debugSet_level_move {c : Instr} (s : State) (box : Nat) (d : Fin 4) : SecurityMove c s (s.debugSet box d) := by
  unfold State.debugSet
  split
  · exact .keeps (guard_vendorReply ..)
  · next hallows =>
    rw [Bool.not_eq_true', Bool.not_eq_false] at hallows
    refine .level d d.isLt hallows ?_
    rw [guard_vendorReply]
    split
    · next hsame => rw [← hsame]; rfl
    · rw [guard_loseAttested, guard_setDebug]

theorem debugSet_move {s t : State} (box : Fin 10) (d : Fin 4) (sig : OwnerSig) (h : exec (.debugSet box d sig) s = .next t) :
    SecurityMove (.debugSet box d sig) s t := by
  obtain rfl := next_inj h
  refine onPf0_move s _ _ rfl fun u => ?_
  split
  · exact debugSet_level_move u _ d
  · exact signedCommand_move u _ _ _ _ _ _ rfl fun v => debugSet_level_move v _ d

theorem debugEnter_move {s t : State} (box : Fin 10) (d : Fin 4) (sig : OwnerSig) (h : exec (.debugEnter box d sig) s = .next t) :
    SecurityMove (.debugEnter box d sig) s t := by
  obtain rfl := next_inj h
  refine onPf0_move s _ _ rfl fun u => signedCommand_move u _ _ _ _ _ _ rfl fun v => ?_
  split
  · exact .keeps (guard_vendorReply ..)
  · next hsec =>
    have hsealed : secClass v.wh.sec = .sealed := by
      rw [secClass_eq_sealed]
      by_contra hne
      exact hsec (not_or.mp hne)
    split
    · exact .keeps (guard_vendorReply ..)
    · split
      · exact .keeps (guard_vendorReply ..)
      · next hlow =>
        refine .enter d d.isLt (Nat.not_lt.mp hlow) hsealed ?_
        have hkept : guard (v.eraseAllKeys.nextEpochs.zeroMeres) = guard v := by
          rw [guard_zeroMeres, guard_nextEpochs, guard_eraseAllKeys]
        rw [guard_vendorReply, guard_setDebug, ← hkept]
        rfl

theorem scrap_past_signature_move {c : Instr} (s : State) (box : Nat) : SecurityMove c s (s.scrap box) := by
  unfold State.scrap
  split
  · exact .keeps (guard_vendorReply ..)
  · next hsec =>
    split
    · exact .keeps (guard_vendorReply ..)
    · refine .scrap hsec ?_
      rw [guard_vendorReply, ← guard_eraseAllKeys s]
      rfl

theorem scrap_move {s t : State} (box : Fin 10) (sig : OwnerSig) (h : exec (.scrap box sig) s = .next t) :
    SecurityMove (.scrap box sig) s t := by
  obtain rfl := next_inj h
  refine onPf0_move s _ _ rfl fun u => ?_
  split
  · exact scrap_past_signature_move u _
  · exact signedCommand_move u _ _ _ _ _ _ rfl fun v => scrap_past_signature_move v _

/-! ### Every command and every step -/

/-- What any command does to the queue, the fuses and the security state. -/
theorem exec_move {c : Instr} {s t : State} (h : exec c s = .next t) : SecurityMove c s t := by
  cases hc : movesSecurity c with
  | false => exact .keeps (guard_exec hc h)
  | true =>
    cases c with
    | coldReset requested pos split => exact coldReset_move _ _ _ h
    | pkgResetN pos split => obtain rfl := next_inj h; exact coldBoot_move s _ _ _ rfl
    | refclkLoss => obtain rfl := next_inj h; exact hold_move s rfl
    | railFault => obtain rfl := next_inj h; exact hold_move s rfl
    | refclkReturn pos split => exact refclkReturn_move _ _ h
    | claim box sig => exact claim_move _ _ h
    | transfer box owner sig => exact transfer_move _ _ _ h
    | debugSet box level sig => exact debugSet_move _ _ _ h
    | debugEnter box level sig => exact debugEnter_move _ _ _ h
    | scrap box sig => exact scrap_move _ _ h
    | _ => cases hc

theorem SecurityMove.pending_eq {c : Instr} {s t : State} (hm : SecurityMove c s t) : t.pending = s.pending := by
  cases hm <;> exact congrArg Guard.pending ‹guard t = _›

theorem SecurityMove.fuses_eq {c : Instr} {s t : State} (hm : SecurityMove c s t) : t.fuses = s.fuses := by
  cases hm <;> exact congrArg Guard.fuses ‹guard t = _›

/-- A step runs the command in front with the rest of the queue, or, with none waiting, keeps the whole view. -/
theorem step_cases {s t : State} (h : step s = .next t) :
    (s.pending = [] ∧ guard t = guard s) ∨
      ∃ c rest, s.pending = c :: rest ∧ SecurityMove c { s with pending := rest } t := by
  unfold step at h
  split at h
  · next hp =>
    refine .inl ⟨hp, ?_⟩
    obtain rfl := next_inj h
    split
    · rfl
    · exact guard_judgeDrained _
  · next c rest hp => exact .inr ⟨c, rest, hp, exec_move h⟩

/-- Settles O5: no command touches the queue it is run with, and the step has taken the command in front off it. -/
theorem commandsWaitInOrder : Obligations.CommandsWaitInOrder := by
  intro s t h
  obtain ⟨hp, hg⟩ | ⟨c, rest, hp, hm⟩ := step_cases h
  · rw [hp]
    exact (congrArg Guard.pending hg).trans hp
  · rw [hp]
    exact hm.pending_eq

/-- Whether a combination is legal shows in the view alone. -/
theorem legal_iff (s : State) : s.legal = true ↔ (guard s).debug < 4 ∧ (guard s).sec.allows (guard s).debug = true := by
  unfold State.legal Laws.guard
  cases s.wh.sec <;> simp [secClass, SecState.allows]

/-- Table 14.8 holds after a move from where it holds. -/
theorem SecurityMove.legal {c : Instr} {s t : State} (hm : SecurityMove c s t) (hs : s.legal = true) : t.legal = true := by
  obtain ⟨hlt, hallows⟩ := (legal_iff s).mp hs
  rw [legal_iff]
  cases hm with
  | keeps h => rw [h]; exact ⟨hlt, hallows⟩
  | cold _ _ h => rw [h]; exact ⟨Nat.zero_lt_succ 3, by cases s.wh.sec <;> rfl⟩
  | owner _ _ _ _ h => rw [h]; exact ⟨Nat.zero_lt_succ 3, rfl⟩
  | level d hd hd' h => rw [h]; exact ⟨hd, (allows_secClass _ _).trans hd'⟩
  | enter d hd h2 _ h => rw [h]; exact ⟨hd, decide_eq_true h2⟩
  | scrap _ h => rw [h]; exact ⟨hlt, rfl⟩

/-- Settles O6: every move of a step ends in a combination that Table 14.8 allows. -/
theorem legalSecurityStatesStayLegal : Obligations.LegalSecurityStatesStayLegal := by
  intro s t hs h
  obtain ⟨_, hg⟩ | ⟨c, rest, _, hm⟩ := step_cases h
  · rwa [legal_iff, hg, ← legal_iff]
  · exact hm.legal hs

/-- What a move leaves of what is fused, of SCRAPPED, FACTORY, destroyed secrets and OWNER_DEBUG. -/
theorem SecurityMove.fused {c : Instr} {s t : State} (hm : SecurityMove c s t) :
    (s.wh.sec = .scrapped → t.wh.sec = .scrapped) ∧ (t.wh.sec = .factory → s.wh.sec = .factory) ∧
    (s.wh.destroyed = true → t.wh.destroyed = true) ∧
    (s.wh.sec = .ownerDebug → t.wh.sec = .ownerDebug ∨ t.wh.sec = .sealed ∧ c.coldResets = true) ∧
    (t.wh.owners = s.wh.owners ∨ c.fusesOwner = true) := by
  have hcold : s.wh.sec.cold = .factory → s.wh.sec = .factory := by cases s.wh.sec <;> simp [SecState.cold]
  rw [← secClass_eq_scrapped (x := s.wh.sec), ← secClass_eq_scrapped (x := t.wh.sec), ← secClass_eq_factory (x := s.wh.sec),
    ← secClass_eq_factory (x := t.wh.sec)]
  cases hm with
  | keeps h =>
    have hsec : secClass t.wh.sec = secClass s.wh.sec := congrArg Guard.sec h
    exact ⟨fun hs => hsec.trans hs, fun ht => hsec.symm.trans ht, fun hd => (congrArg Guard.destroyed h).trans hd,
      fun hs => .inl (secClass_eq_ownerDebug.mp (hsec.trans (secClass_eq_ownerDebug.mpr hs))), .inl (congrArg Guard.owners h)⟩
  | cold hc hsec h =>
    refine ⟨fun hs => ?_, fun ht => ?_, fun hd => (congrArg Guard.destroyed h).trans hd, fun hs => .inr ⟨?_, hc⟩,
      .inl (congrArg Guard.owners h)⟩
    · rw [hsec, secClass_eq_scrapped.mp hs]; rfl
    · exact secClass_eq_factory.mpr (hcold (hsec ▸ secClass_eq_factory.mp ht))
    · rw [hsec, hs]; rfl
  | owner hc hsec os n h =>
    have hsealed : secClass t.wh.sec = .sealed := congrArg Guard.sec h
    refine ⟨fun hs => ?_, fun ht => ?_, fun hd => (congrArg Guard.destroyed h).trans hd, fun hs => ?_, .inr hc⟩
    · simp [hs] at hsec
    · simp [ht] at hsealed
    · simp [hs, secClass] at hsec
  | level d hd hallows h =>
    have hsec : secClass t.wh.sec = secClass s.wh.sec := congrArg Guard.sec h
    exact ⟨fun hs => hsec.trans hs, fun ht => hsec.symm.trans ht, fun hd => (congrArg Guard.destroyed h).trans hd,
      fun hs => .inl (secClass_eq_ownerDebug.mp (hsec.trans (secClass_eq_ownerDebug.mpr hs))), .inl (congrArg Guard.owners h)⟩
  | enter d hd h2 hsec h =>
    have hdebug : secClass t.wh.sec = .ownerDebug := congrArg Guard.sec h
    refine ⟨fun hs => ?_, fun ht => ?_, fun hd => (congrArg Guard.destroyed h).trans hd,
      fun _ => .inl (secClass_eq_ownerDebug.mp hdebug), .inl (congrArg Guard.owners h)⟩
    · simp [hs] at hsec
    · simp [ht] at hdebug
  | scrap hsec h =>
    have hscrapped : secClass t.wh.sec = .scrapped := congrArg Guard.sec h
    refine ⟨fun _ => hscrapped, fun ht => ?_, fun _ => congrArg Guard.destroyed h, fun hs => absurd hs hsec,
      .inl (congrArg Guard.owners h)⟩
    simp [ht] at hscrapped

/-- Settles O7: each part is read off the move that the step's command makes. -/
theorem fusedStateHolds : Obligations.FusedStateHolds := by
  intro s t h
  obtain ⟨_, hg⟩ | ⟨c, rest, hp, hm⟩ := step_cases h
  · obtain ⟨hscrapped, hfactory, hdestroyed, hdebug, -⟩ := (SecurityMove.keeps (c := .refclkLoss) hg).fused
    have hsec : secClass t.wh.sec = secClass s.wh.sec := congrArg Guard.sec hg
    exact ⟨congrArg Guard.fuses hg, hscrapped, hfactory, hdestroyed,
      fun hs => .inl (secClass_eq_ownerDebug.mp (hsec.trans (secClass_eq_ownerDebug.mpr hs))), .inl (congrArg Guard.owners hg)⟩
  · obtain ⟨hscrapped, hfactory, hdestroyed, hdebug, howners⟩ := hm.fused
    exact ⟨hm.fuses_eq, hscrapped, hfactory, hdestroyed, fun hs => (hdebug hs).imp_right fun ⟨hsealed, hc⟩ => ⟨hsealed, c, rest, hp, hc⟩,
      howners.imp_right fun hc => ⟨c, rest, hp, hc⟩⟩

end Sys2Proof.Proofs
end

section
/-! Rules of the shared operations that the statements about single commands rest on. -/
namespace Sys2Proof.Proofs
open Sys2Proof Sys2Proof.Machine Sys2Proof.Laws

/-- An engine that is not gated works. -/
theorem unlessHalted_of_not_halted {s : State} (f : State → State) (h : s.halted = false) : s.unlessHalted f = f s := by
  simp [State.unlessHalted, h]

/-- A gated engine does nothing. -/
theorem unlessHalted_of_halted {s : State} (f : State → State) (h : s.halted = true) : s.unlessHalted f = s := by
  simp [State.unlessHalted, h]

/-- What keeps a state keeps it under a gate. -/
theorem unlessHalted_of_fixed {s : State} {f : State → State} (h : f s = s) : s.unlessHalted f = s := by
  unfold State.unlessHalted
  split
  · rfl
  · exact h

/-- What keeps a state keeps it while the package runs or not. -/
theorem whileOn_of_fixed {s : State} {f : State → State} (h : f s = s) : s.whileOn f = s := by
  unfold State.whileOn
  split
  · exact h
  · rfl

theorem whileOn_of_not_answers {s : State} (f : State → State) (h : s.answers = false) : s.whileOn f = s := by
  simp [State.whileOn, h]

theorem setReg_reg_self (s : State) (off : Nat) (w : Word) : (s.setReg off w).reg off = w := get_put_self _ _ _ _

theorem setReg_reg_ne (s : State) {off o : Nat} (w : Word) (h : o ≠ off) : (s.setReg off w).reg o = s.reg o :=
  get_put_ne _ _ _ _ _ _ h

theorem setFlags_flag_self (s : State) (off : Nat) (w : Word) : (s.setFlags off w).flag off = w := get_put_self _ _ _ _

theorem setFlags_flag_ne (s : State) {off o : Nat} (w : Word) (h : o ≠ off) : (s.setFlags off w).flag o = s.flag o :=
  get_put_ne _ _ _ _ _ _ h

theorem setFlags_flagBit_self (s : State) (off : Nat) {i : Nat} (h : i < 32) :
    (s.setFlags off (setBit32 (s.flag off) i)).flagBit off i = true := by
  rw [State.flagBit, setFlags_flag_self]
  exact getLsbD_setBit32_self _ h

theorem bump_one_ctr (s : State) (o : Nat) : (s.bump o 1).ctr o = s.ctr o + 1 := bump_ctr_self s o 1

/-- A 64-bit pair of registers reads as its two words side by side (R23). -/
theorem ofNat_pair_eq_append (lo hi : Word) : BitVec.ofNat 64 (lo.toNat + 0x100000000 * hi.toNat) = hi ++ lo := by
  apply BitVec.eq_of_toNat_eq
  rw [BitVec.toNat_append, ← Nat.shiftLeft_add_eq_or_of_lt lo.isLt, Nat.shiftLeft_eq, BitVec.toNat_ofNat]
  omega

/-- A byte of a word, as `leBytes` cuts it. -/
theorem ofNat_byte_eq_setWidth (w : Word) (k : Nat) : BitVec.ofNat 8 (w.toNat / 2 ^ k) = (w >>> k).setWidth 8 := by
  apply BitVec.eq_of_toNat_eq
  simp [Nat.shiftRight_eq_div_pow]

/-! ### BAR errors -/

/-- The counter of BAR errors (R574). -/
theorem barError_ctr (s : State) : s.barError.ctr (blkHIF + 0x40) = s.ctr (blkHIF + 0x40) + 1 :=
  (event_ctr _ _ _ _ _ (by decide)).trans (bump_one_ctr _ _)

theorem barError_bit (s : State) : s.barError.flagBit (blkHIF + 0x10) 3 = true := event_bit _ _ _ _ (by decide)

/-- A signal leaves the registers alone. -/
theorem regs_of_signals {s t : State} (h : Signals s t) : t.regs = s.regs := (congrArg State.regs h).trans rfl

/-- A signal leaves memory alone. -/
theorem mem_of_signals {s t : State} (h : Signals s t) : t.mem = s.mem := (congrArg State.mem h).trans rfl

end Sys2Proof.Proofs
end

section
/-! Writes of plain registers of BAR0 (spec/00_scope.md, R24, R25; spec/16_host_interface_and_reset.md, R574). -/
namespace Sys2Proof.Proofs
open Sys2Proof Sys2Proof.Machine Sys2Proof.Laws

theorem exec_registerWrite {s : State} (fn : Fin 10) (off : Fin 0x4000000) (v : Word) (h : s.answers = true) (ha : off.val % 4 = 0) :
    exec (.registerWrite fn off v none) s = .next (s.writeReg fn off v) := by
  change execRegisterWrite fn off v none s = _
  simp [execRegisterWrite, h, ha]

/-- PF0 sees every register (R573). -/
theorem sees_pf0 (s : State) (off : Nat) : s.sees 0 off = true := by simp [State.sees]

/-- What PF0's write of a plain register does. -/
theorem writeReg_of_plain {s : State} {off : Nat} {r : RegSpec} (v : Word) (habs : s.absentAt off = false) (hr : regSpec off = some r) :
    s.writeReg 0 off v = s.plainWrite off r v := by
  simp [State.writeReg, habs, sees_pf0, hr]

/-- What PF0's write does where there is no plain register: the write-one-to-clear bits that it has set. -/
theorem writeReg_of_w1c {s : State} {off : Nat} (v : Word) (habs : s.absentAt off = false) (hr : regSpec off = none) :
    s.writeReg 0 off v = if w1cMask off = 0 then s else s.setFlags off (s.flag off &&& ~~~(v &&& BitVec.ofNat 32 (w1cMask off))) := by
  simp [State.writeReg, habs, sees_pf0, hr]

/-- A plain register that is not locked, and neither LOG_TAIL nor GROUP_STEP, takes the bits that a write reaches (R25). -/
theorem plainWrite_of_open {s : State} {off : Nat} {r : RegSpec} (v : Word) (hacc : r.acc ≠ .rwl ∨ s.image = none) (htail : off ≠ regLogTail)
    (hgroup : ¬(off / 0x100000 = 0x03 ∧ off % 0x100 = 0x10)) : s.plainWrite off r v = s.setReg off (v &&& BitVec.ofNat 32 r.mask) := by
  have hlock : ¬((decide (r.acc = .rwl) && s.image.isSome) = true) := by
    rcases hacc with h | h <;> simp [h]
  rw [State.plainWrite, if_neg hlock, if_neg htail, if_neg hgroup]

/-- A locked register ignores a write after commit (R24). -/
theorem plainWrite_of_locked {s : State} {off : Nat} {r : RegSpec} (v : Word) (hacc : r.acc = .rwl) (him : s.image ≠ none) :
    s.plainWrite off r v = s.rwlIgnored off v := by
  have hlock : (decide (r.acc = .rwl) && s.image.isSome) = true := by simp [hacc, Option.isSome_iff_ne_none.mpr him]
  rw [State.plainWrite, if_pos hlock]

/-- The entry that a fault log with room takes (R620). -/
def faultEntry (s : State) (kind unit : Nat) (st : Status) (cove addr info : Nat) : LogEntry :=
  { seq := s.flt.logHead % 0x100000000, kind, unit, status := st.code, cove, tick := s.now, addr, info }

/-- A fault log with room takes an entry at its head (R620). -/
theorem faultLog_flt_of_room {s : State} (kind unit : Nat) (st : Status) (cove addr info : Nat)
    (h : s.flt.logHead - (s.reg regLogTail).toNat < 256) :
    (s.faultLog kind unit st cove addr info).flt =
      { s.flt with log := SMap.put {} s.flt.log (s.flt.logHead % 256) (faultEntry s kind unit st cove addr info), logHead := s.flt.logHead + 1 } := by
  rw [State.faultLog, if_neg (Nat.not_le.mpr h)]
  exact congrArg State.flt (signals_fltEvent _ 0)

theorem faultLog_regs (s : State) (kind unit : Nat) (st : Status) (cove addr info : Nat) : (s.faultLog kind unit st cove addr info).regs = s.regs :=
  (congrArg State.regs (faultLog_frame s kind unit st cove addr info)).trans rfl

theorem faultLog_mem (s : State) (kind unit : Nat) (st : Status) (cove addr info : Nat) : (s.faultLog kind unit st cove addr info).mem = s.mem :=
  (congrArg State.mem (faultLog_frame s kind unit st cove addr info)).trans rfl

theorem badAccess_of_answers {s : State} (h : s.answers = true) : s.badAccess = s.barError.emit .barUR := if_pos h

/-- Settles O12: each clause names the arm of the write that its hypotheses select, and reads the table it writes. -/
theorem registerWriteByAccessCode : Obligations.RegisterWriteByAccessCode := by
  refine ⟨?_, ?_, ?_, ?_, ?_, ?_⟩
  · intro s off v r hs ha habs hr htail hacc hgroup
    refine ⟨_, exec_registerWrite 0 off v hs ha, ?_⟩
    rw [Fin.val_zero, writeReg_of_plain v habs hr, plainWrite_of_open v hacc htail hgroup]
    exact ⟨setReg_reg_self .., fun o ho => setReg_reg_ne s _ ho, rfl⟩
  · intro s off v r hs ha habs hr hacc him hroom
    refine ⟨_, exec_registerWrite 0 off v hs ha, ?_⟩
    rw [Fin.val_zero, writeReg_of_plain v habs hr, plainWrite_of_locked v hacc him, State.rwlIgnored]
    refine ⟨faultLog_regs .., faultLog_mem .., ?_, ?_⟩
    · rw [bump_flt, faultLog_flt_of_room _ _ _ _ _ _ hroom, get_put_self]
      rfl
    · rw [bump_flt, faultLog_flt_of_room _ _ _ _ _ _ hroom]
  · intro s off v hs ha habs hr
    refine ⟨_, exec_registerWrite 0 off v hs ha, ?_⟩
    rw [Fin.val_zero, writeReg_of_w1c v habs hr]
    split
    · next hmask => exact ⟨by rw [hmask]; exact (BitVec.and_allOnes (x := s.flag off)).symm.trans (by simp), fun _ _ => rfl, rfl⟩
    · exact ⟨setFlags_flag_self .., fun o ho => setFlags_flag_ne s _ ho, rfl⟩
  · intro s fn off v hs ha hsees
    rw [exec_registerWrite fn off v hs ha, State.writeReg, if_pos (by simp [hsees])]
  · intro s fn off v high hs ha
    change execRegisterWrite fn off v high s = execBar0BadAccess s
    simp [execRegisterWrite, execBar0BadAccess, hs, ha]
  · intro s hs
    refine ⟨_, congrArg Host.Outcome.next (badAccess_of_answers hs), barError_ctr s, barError_bit s, ?_, (emit_regs ..).trans (regs_of_signals (signals_barError s)),
      (emit_mem ..).trans (mem_of_signals (signals_barError s))⟩
    rw [emit_out, List.getLast?_concat]

end Sys2Proof.Proofs
end

section
/-! The check-value unit (spec/18_ripple_recorder_and_check_values.md, R635 to R639). -/
namespace Sys2Proof.Proofs
open Sys2Proof Sys2Proof.Machine Sys2Proof.Laws

theorem setCvu_inst_self (s : State) (i : Fin 4) (f : CvuInst → CvuInst) : (s.setCvu i f).cvuInst i = f (s.cvuInst i) :=
  vget_vmod_self _ _ _ _ i.isLt

theorem setCvu_inst_ne (s : State) {i j : Nat} (f : CvuInst → CvuInst) (h : j ≠ i) : (s.setCvu i f).cvuInst j = s.cvuInst j :=
  vget_vmod_ne _ _ _ _ _ h

/-- What a function that sees a check-value unit feeds to it outside the stop (R636). -/
theorem cvuFeed_of_sees {s : State} {fn i : Nat} (bs : List Byte) (h : s.cvuSees fn i = true) (hstop : s.stopped = false) :
    s.cvuFeed fn i bs = s.setCvu i fun x => { x with value := BitVec.ofNat 64 (bs.foldl (crcAlg x.alg.toNat).byte x.shown.toNat) } := by
  simp [State.cvuFeed, h, hstop]

theorem cvuFeed_of_stopped {s : State} {fn i : Nat} (bs : List Byte) (h : s.cvuSees fn i = true) (hstop : s.stopped = true) :
    s.cvuFeed fn i bs = s.setFlags (blkCVU + 0x1000 + 0x100 * i + 0x20) (setBit32 (s.flag (blkCVU + 0x1000 + 0x100 * i + 0x20)) 0) := by
  simp [State.cvuFeed, h, hstop]

/-- A function that does not see a check-value unit does not reach it (R639). -/
theorem cvuFeed_of_not_sees {s : State} {fn i : Nat} (bs : List Byte) (h : s.cvuSees fn i = false) : s.cvuFeed fn i bs = s := by
  simp [State.cvuFeed, h]

theorem leBytes_one (w : Word) : leBytes 1 w.toNat = [w.setWidth 8] := by
  simp [leBytes]

theorem leBytes_two (w : Word) : leBytes 2 w.toNat = [w.setWidth 8, (w >>> 8).setWidth 8] := by
  have h0 := ofNat_byte_eq_setWidth w 0
  have h1 := ofNat_byte_eq_setWidth w 8
  simp_all [leBytes]

theorem leBytes_four (w : Word) :
    leBytes 4 w.toNat = [w.setWidth 8, (w >>> 8).setWidth 8, (w >>> 16).setWidth 8, (w >>> 24).setWidth 8] := by
  have h2 := ofNat_byte_eq_setWidth w 16
  have h3 := ofNat_byte_eq_setWidth w 24
  have hlow := leBytes_two w
  simp_all [leBytes, Nat.div_div_eq_div_mul]

/-- A function that sees a check-value unit feeds it the bytes of a data write, and touches nothing else. -/
theorem cvuFeed_spec {s : State} {fn : Nat} {i : Fin 4} (bs : List Byte) (h : s.cvuSees fn i = true) (hstop : s.stopped = false) :
    ((s.cvuFeed fn i bs).cvuInst i).value = BitVec.ofNat 64 (bs.foldl (crcAlg (s.cvuInst i).alg.toNat).byte (s.cvuInst i).shown.toNat) ∧
      ((s.cvuFeed fn i bs).cvuInst i).alg = (s.cvuInst i).alg ∧ (∀ j, j ≠ i.val → (s.cvuFeed fn i bs).cvuInst j = s.cvuInst j) ∧
      s.cvuFeed fn i bs = { s with cvu := (s.cvuFeed fn i bs).cvu } := by
  rw [cvuFeed_of_sees bs h hstop, setCvu_inst_self]
  exact ⟨rfl, rfl, fun j hj => setCvu_inst_ne s _ hj, rfl⟩

theorem exec_cvuData8 {s : State} (fn : Fin 9) (i : Fin 4) (w : Word) (h : s.answers = true) :
    exec (.cvuData8 fn i w) s = .next (s.cvuFeed fn i [w.setWidth 8]) := by
  change execCvuData8 fn i w s = _
  rw [execCvuData8, whileOn_of_answers _ h, leBytes_one]

theorem exec_cvuData16 {s : State} (fn : Fin 9) (i : Fin 4) (w : Word) (h : s.answers = true) :
    exec (.cvuData16 fn i w) s = .next (s.cvuFeed fn i [w.setWidth 8, (w >>> 8).setWidth 8]) := by
  change execCvuData16 fn i w s = _
  rw [execCvuData16, whileOn_of_answers _ h, leBytes_two]

theorem exec_cvuData32 {s : State} (fn : Fin 9) (i : Fin 4) (w : Word) (h : s.answers = true) :
    exec (.cvuData32 fn i w) s =
      .next (s.cvuFeed fn i [w.setWidth 8, (w >>> 8).setWidth 8, (w >>> 16).setWidth 8, (w >>> 24).setWidth 8]) := by
  change execCvuData32 fn i w s = _
  rw [execCvuData32, whileOn_of_answers _ h, leBytes_four]

/-- Settles O13: every write goes to one unit through `setCvu`, or to the bit of STAT. -/
theorem checkValueUnitWrites : Obligations.CheckValueUnitWrites := by
  refine ⟨?_, ?_, ?_, ?_, ?_, by decide +kernel⟩
  · intro s fn i w hs hsees
    refine ⟨_, congrArg Host.Outcome.next (whileOn_of_answers _ hs), ?_⟩
    rw [State.cvuCtrl, if_neg (by simp [hsees]), setCvu_inst_self]
    refine ⟨BitVec.eq_of_toNat_eq (by simp), rfl, fun j hj => setCvu_inst_ne s _ hj, rfl⟩
  · intro s fn i w hs hsees hstop
    refine ⟨⟨_, exec_cvuData8 fn i w hs, cvuFeed_spec _ hsees hstop⟩, ⟨_, exec_cvuData16 fn i w hs, ?_⟩, ⟨_, exec_cvuData32 fn i w hs, ?_⟩⟩
    · obtain ⟨hvalue, -, hframe⟩ := cvuFeed_spec [w.setWidth 8, (w >>> 8).setWidth 8] hsees hstop
      exact ⟨hvalue, hframe⟩
    · obtain ⟨hvalue, -, hframe⟩ :=
        cvuFeed_spec [w.setWidth 8, (w >>> 8).setWidth 8, (w >>> 16).setWidth 8, (w >>> 24).setWidth 8] hsees hstop
      exact ⟨hvalue, hframe⟩
  · intro s fn i w hs hsees hstop
    refine ⟨_, exec_cvuData8 fn i w hs, ?_⟩
    rw [cvuFeed_of_stopped _ hsees hstop]
    exact ⟨setFlags_flagBit_self s _ (by decide), rfl⟩
  · intro s fn i lo hi hs hsees
    refine ⟨_, congrArg Host.Outcome.next (whileOn_of_answers _ hs), ?_⟩
    rw [State.cvuValue, if_neg (by simp [hsees]), setCvu_inst_self]
    exact ⟨congrArg (· &&& _) (ofNat_pair_eq_append lo hi), rfl, fun j hj => setCvu_inst_ne s _ hj, rfl⟩
  · intro s fn i w hsees
    have hctrl : s.cvuCtrl fn i w = s := if_pos (by simp [hsees])
    have hvalue : s.cvuValue fn i (some w) (some w) = s := if_pos (by simp [hsees])
    exact ⟨congrArg Host.Outcome.next (whileOn_of_fixed hctrl), congrArg Host.Outcome.next (whileOn_of_fixed (cvuFeed_of_not_sees _ hsees)),
      congrArg Host.Outcome.next (whileOn_of_fixed (cvuFeed_of_not_sees _ hsees)),
      congrArg Host.Outcome.next (whileOn_of_fixed (cvuFeed_of_not_sees _ hsees)), congrArg Host.Outcome.next (whileOn_of_fixed hvalue)⟩

end Sys2Proof.Proofs
end

section
/-! EPOCH_MARK, watches, arrival counters and MSI-X masks (spec/16_host_interface_and_reset.md, R584, R585, R587;
spec/10_basin_transactions.md, R394, R403). -/
namespace Sys2Proof.Proofs
open Sys2Proof Sys2Proof.Machine Sys2Proof.Laws

/-- W_CTRL as a write sets it: COUNTER, ARM, and FIRED where a 1 clears it. -/
def writtenWatch (x : Watch) (v : Nat) : Watch := { fired := x.fired && !bit v 17, arm := bit v 16, counter := v % 65536 }

/-- The state in which a write of W_CTRL has set its watch. -/
def withWatch (s : State) (w v : Nat) : State :=
  s.modHif fun h => { h with watches := SMap.put {} h.watches w (writtenWatch (SMap.get {} s.hif.watches w) v) }

theorem withWatch_self (s : State) (w v : Nat) :
    SMap.get {} (withWatch s w v).hif.watches w = writtenWatch (SMap.get {} s.hif.watches w) v := get_put_self _ _ _ _

theorem withWatch_ne (s : State) {w x : Nat} (v : Nat) (h : x ≠ w) :
    SMap.get {} (withWatch s w v).hif.watches x = SMap.get {} s.hif.watches x := get_put_ne _ _ _ _ _ _ h

theorem exec_watchCtrlWrite {s : State} {fn : Fin 9} {w : Fin 1024} (v : Word) (hs : s.answers = true) (hsees : s.seesWatch fn w = true) :
    exec (.watchCtrlWrite fn w v) s = .next (s.watchCtrl w v) :=
  congrArg Host.Outcome.next (if_pos (by simp [hs, hsees]))

/-- A write that clears ARM sets the watch. -/
theorem watchCtrl_of_disarm {s : State} {w : Nat} {v : Word} (h : v.getLsbD 16 = false) : s.watchCtrl w v = withWatch s w v.toNat := by
  have hbit : bit v.toNat 16 = false := h
  simp only [State.watchCtrl, hbit, Bool.false_and, Bool.false_eq_true, if_false]
  rw [withWatch, writtenWatch, hbit]

/-- A write that arms a watch of its own cove's counters sets it, and evaluates it (R585). -/
theorem watchCtrl_of_arm {s : State} {w : Nat} {v : Word} (h : v.getLsbD 16 = true) (hown : s.watchForeign w (v.toNat % 65536) = false) :
    s.watchCtrl w v = (withWatch s w v.toNat).evalWatch w := by
  have hbit : bit v.toNat 16 = true := h
  simp only [State.watchCtrl, hbit, hown, Bool.and_false, Bool.false_eq_true, if_false, if_true]
  rw [withWatch, writtenWatch, hbit]

/-- A watch whose target its counter has not reached does not fire. -/
theorem evalWatch_of_below {s : State} {w : Nat}
    (h : 0x8000000000000000 ≤ (s.arr (SMap.get ({} : Watch) s.hif.watches w).counter - BitVec.ofNat 64 (s.reg64 (watchOff w))).toNat) :
    s.evalWatch w = s := by
  rw [State.evalWatch, if_neg (by rw [decide_eq_false (Nat.not_lt.mpr h), Bool.and_false]; exact Bool.false_ne_true)]

/-- Where no watch is armed, no counter that changes is looked at. -/
theorem evalWatches_of_none_armed {s : State} (i : Nat) (h : ∀ p ∈ s.hif.watches, p.2.arm = false) : s.evalWatches i = s := by
  have hnone : SMap.filter (fun _ (x : Watch) => x.arm && x.counter == i) s.hif.watches = [] :=
    List.filter_eq_nil_iff.mpr fun p hp => by simp [h p hp]
  rw [State.evalWatches, hnone]
  rfl

theorem ctrWrite_of_visible {s : State} {fn i : Nat} (lo hi : Word) (h : s.ctrVisible fn i = true) :
    s.ctrWrite fn i (some lo) (some hi) = ({ s with arrival := SMap.put 0 s.arrival i (hi ++ lo) } : State).evalWatches i := by
  rw [State.ctrWrite, if_neg (by simp [h]), ← ofNat_pair_eq_append]
  rfl

/-- The masks of a function as MSIX_UNMASK leaves them, before any message is sent. -/
def unmasked (s : State) (fn : Fin 9) (f : Bool) (v : Fin 1024) (b : Bool) : State :=
  s.modHif fun h => { h with msix := vmod h.msix fn.val fun m => { m with enabled := true, funcMask := f, masked := SMap.put false m.masked v.val b } }

theorem exec_msixUnmask {s : State} (fn : Fin 9) (f : Bool) (v : Fin 1024) (b : Bool) (hs : s.answers = true) :
    exec (.msixUnmask fn true f (some (v, b))) s = .next ((unmasked s fn f v b).flushVectors fn) :=
  congrArg Host.Outcome.next (whileOn_of_answers _ hs)

theorem unmasked_msix (s : State) (fn : Fin 9) (f : Bool) (v : Fin 1024) (b : Bool) :
    vget {} (unmasked s fn f v b).hif.msix fn =
      { vget {} s.hif.msix fn with enabled := true, funcMask := f, masked := SMap.put false (vget {} s.hif.msix fn).masked v.val b } :=
  vget_vmod_self _ _ _ _ fn.isLt

/-- With nothing pending, no message is sent. -/
theorem flushVectors_of_none_pending {s : State} {fn : Nat} (h : (vget {} s.hif.msix fn).pending = []) : s.flushVectors fn = s := by
  unfold State.flushVectors
  dsimp only
  split
  · rfl
  · rw [h]
    rfl

/-- The one pending vector, which nothing masks any more, is sent and is no longer pending (R584). -/
theorem flushVectors_of_one_pending {s : State} {fn v : Nat} {m : Msix} (hm : vget {} s.hif.msix fn = m) (hen : m.enabled = true)
    (hmask : m.funcMask = false) (hide : s.ideOk fn = true) (hp : m.pending = [(v, true)]) (hv : SMap.get false m.masked v = false) :
    s.flushVectors fn =
      (({ s with hif := { s.hif with msix := vmod s.hif.msix fn fun m => { m with pending := SMap.put false m.pending v false } } } : State).bump
        ctrMsixSent 1).emit (.msix fn v) := by
  unfold State.flushVectors
  rw [hm]
  dsimp only
  rw [if_neg (by simp [hen, hmask, hide]), hp]
  simp [SMap.keys, hv]

/-- Settles O14: each write sets its entry, and the evaluation that follows has nothing to do but in the last clause. -/
theorem hostPairsWatchesAndMasks : Obligations.HostPairsWatchesAndMasks := by
  refine ⟨?_, ?_, ?_, ?_, ?_, ?_⟩
  · intro s lo hi hs
    exact ⟨_, congrArg Host.Outcome.next (if_neg (by simp [hs])), rfl, rfl, rfl⟩
  · intro s fn w v hs hsees harm
    refine ⟨_, exec_watchCtrlWrite v hs hsees, ?_⟩
    rw [watchCtrl_of_disarm harm, withWatch_self]
    exact ⟨harm, rfl, fun x hx => withWatch_ne s _ hx, rfl⟩
  · intro s fn w v hs hsees harm hown hbelow
    refine ⟨_, exec_watchCtrlWrite v hs hsees, ?_⟩
    rw [watchCtrl_of_arm harm hown, evalWatch_of_below (by rw [withWatch_self]; exact hbelow), withWatch_self]
    exact ⟨harm, rfl, rfl⟩
  · intro s fn i lo hi hs hvis hquiet
    refine ⟨_, congrArg Host.Outcome.next (whileOn_of_answers _ hs), ?_⟩
    rw [ctrWrite_of_visible lo hi hvis, evalWatches_of_none_armed (s := { s with arrival := SMap.put 0 s.arrival i (hi ++ lo) }) _ hquiet]
    exact ⟨get_put_self _ _ _ _, fun j hj => get_put_ne _ _ _ _ _ _ hj, rfl⟩
  · intro s fn f v b hs hp
    refine ⟨_, exec_msixUnmask fn f v b hs, ?_⟩
    rw [flushVectors_of_none_pending (by rw [unmasked_msix]; exact hp), unmasked_msix]
    exact ⟨rfl, rfl, get_put_self _ _ _ _, rfl⟩
  · intro s fn v hs hp hide
    refine ⟨_, exec_msixUnmask fn false v false hs, ?_⟩
    rw [flushVectors_of_one_pending (unmasked_msix s fn false v false) rfl rfl hide hp (get_put_self false _ v.val false)]
    refine ⟨rfl, ?_, rfl, rfl⟩
    rw [emit_hif, bump_hif, vget_vmod_self _ _ _ _ fn.isLt, unmasked_msix, hp]
    simp [SMap.put, SMap.erase]

end Sys2Proof.Proofs
end

section
/-! Reads of BAR2 (spec/16_host_interface_and_reset.md, R573, R574, R579). -/
namespace Sys2Proof.Proofs
open Sys2Proof Sys2Proof.Machine Sys2Proof.Laws

/-- A read that nothing refuses is answered by the window that covers it (R579). -/
theorem bar2Read_of_window {s : State} {fn off n : Nat} {ide : Bool} {w : Bar2Win} (hs : s.answers = true) (hide : s.ideRefuses ide = false)
    (hstop : s.stopped = false) (hlive : s.vfLive fn = true) (hw : s.bar2At fn off n = some w) :
    s.bar2Read fn off n ide = s.windowRead w off n := by
  simp [State.bar2Read, hs, hide, hstop, hlive, hw]

/-- A read outside every window is a BAR error (R574). -/
theorem bar2Read_of_outside {s : State} {fn off n : Nat} {ide : Bool} (hs : s.answers = true) (hide : s.ideRefuses ide = false)
    (hstop : s.stopped = false) (hlive : s.vfLive fn = true) (hw : s.bar2At fn off n = none) :
    s.bar2Read fn off n ide = s.barError.emit .barUR := by
  simp [State.bar2Read, hs, hide, hstop, hlive, hw]

/-- Settles O16: the verdict on the request decides its answer, and a window of kind 1 its own translation. -/
theorem bar2ReadAnswers : Obligations.Bar2ReadAnswers := by
  refine ⟨?_, ?_, ?_, ?_, ?_⟩
  · intro s fn off n ide w hs hide hstop hlive hw hk
    exact ⟨_, congrArg Host.Outcome.next ((bar2Read_of_window hs hide hstop hlive hw).trans (if_pos hk)), rfl⟩
  · intro s fn off n ide w bs hs hide hstop hlive hw hk hr
    refine ⟨_, congrArg Host.Outcome.next (bar2Read_of_window hs hide hstop hlive hw), ?_⟩
    simp [State.windowRead, hk, hr]
  · intro s fn off n ide w e hs hide hstop hlive hw hk hr
    refine ⟨_, congrArg Host.Outcome.next (bar2Read_of_window hs hide hstop hlive hw), ?_⟩
    simp [State.windowRead, hk, hr]
  · intro s fn off n ide hs hide hstop hlive hw
    refine ⟨s.barError.emit .barUR, congrArg Host.Outcome.next (bar2Read_of_outside hs hide hstop hlive hw), ?_, barError_bit s, barError_ctr s, ?_⟩
    · rw [emit_out, List.getLast?_concat]
    · rw [signals_barError s]
      rfl
  · intro s fn off n ide hs
    refine ⟨fun hide => congrArg Host.Outcome.next ?_, fun hide hstop => congrArg Host.Outcome.next ?_,
      fun hide hstop hlive => congrArg Host.Outcome.next ?_⟩
    · simp [State.bar2Read, hs, hide, State.emit]
    · simp [State.bar2Read, hs, hide, hstop, State.emit]
    · simp [State.bar2Read, hs, hide, hstop, hlive, State.emit]

end Sys2Proof.Proofs
end

section
/-! Fields of stream-table entries (Table 06.2), and their writes through BAR4 (Table 06.1, R213, R575). -/
namespace Sys2Proof.Proofs
open Sys2Proof Sys2Proof.Machine Sys2Proof.Laws

/-! ### Fields of an entry -/

/-- A bit of an entry after a write of a field: the field's own bits are those of the value, the others stay. -/
theorem setEntField_getLsbD (e : BitVec 1024) (off n v i : Nat) (h : i < 1024) :
    (setEntField e off n v).getLsbD i = if 8 * off ≤ i ∧ i < 8 * (off + n) then v.testBit (i - 8 * off) else e.getLsbD i := by
  simp only [setEntField, BitVec.getLsbD_or, BitVec.getLsbD_and, BitVec.getLsbD_not, BitVec.getLsbD_ofNat, h, decide_true, Bool.true_and,
    Nat.testBit_shiftLeft, Nat.testBit_two_pow_sub_one, Nat.testBit_mod_two_pow]
  by_cases hlo : 8 * off ≤ i
  · by_cases hhi : i < 8 * (off + n)
    · have hin : i - 8 * off < 8 * n := by omega
      simp [hlo, hhi, hin]
    · have hout : ¬ i - 8 * off < 8 * n := by omega
      simp [hhi, hout]
  · simp [hlo]

theorem entField_lt (e : BitVec 1024) (off n : Nat) : entField e off n < 2 ^ (8 * n) := BitVec.isLt _

/-- A field that was written reads as what was written. -/
theorem entField_setEntField_self (e : BitVec 1024) {off n : Nat} (v : Nat) (h : off + n ≤ 128) :
    entField (setEntField e off n v) off n = v % 2 ^ (8 * n) := by
  have hbits : (setEntField e off n v).extractLsb' (8 * off) (8 * n) = BitVec.ofNat (8 * n) v := by
    refine BitVec.eq_of_getLsbD_eq fun i hi => ?_
    rw [BitVec.getLsbD_extractLsb', setEntField_getLsbD _ _ _ _ _ (by omega), if_pos (by omega), BitVec.getLsbD_ofNat,
      Nat.add_sub_cancel_left]
  rw [entField, hbits, BitVec.toNat_ofNat]

/-- A field apart from the one written reads as before. -/
theorem entField_setEntField_of_disjoint (e : BitVec 1024) {off n off' n' : Nat} (v : Nat) (hfit : off' + n' ≤ 128)
    (h : off' + n' ≤ off ∨ off + n ≤ off') : entField (setEntField e off n v) off' n' = entField e off' n' := by
  have hbits : (setEntField e off n v).extractLsb' (8 * off') (8 * n') = e.extractLsb' (8 * off') (8 * n') := by
    refine BitVec.eq_of_getLsbD_eq fun i hi => ?_
    rw [BitVec.getLsbD_extractLsb', BitVec.getLsbD_extractLsb', setEntField_getLsbD _ _ _ _ _ (by omega), if_neg (by omega)]
  rw [entField, hbits, entField]

theorem sset_sget_self (s : State) (i : Nat) {off n : Nat} (v : Nat) (h : off + n ≤ 128) : (s.sset i off n v).sget i off n = v % 2 ^ (8 * n) := by
  unfold State.sget State.sset
  rw [get_upd_self, entField_setEntField_self _ _ h]

theorem sset_sget_of_disjoint (s : State) (i : Nat) {off n off' n' : Nat} (v : Nat) (hfit : off' + n' ≤ 128)
    (h : off' + n' ≤ off ∨ off + n ≤ off') : (s.sset i off n v).sget i off' n' = s.sget i off' n' := by
  unfold State.sget State.sset
  rw [get_upd_self, entField_setEntField_of_disjoint _ _ hfit h]

theorem sset_streams_ne (s : State) {i j : Nat} (off n v : Nat) (h : j ≠ i) :
    SMap.get 0 (s.sset i off n v).streams j = SMap.get 0 s.streams j := by
  rw [State.sset, get_upd_ne _ _ _ _ _ h]

theorem sset_sget_ne (s : State) {i j : Nat} (off n v off' n' : Nat) (h : j ≠ i) : (s.sset i off n v).sget j off' n' = s.sget j off' n' :=
  congrArg (entField · off' n') (sset_streams_ne s off n v h)

/-- STATE reads as it was written. -/
theorem setSState_sState (s : State) (i : Nat) (x : StreamState) : (s.setSState i x).sState i = some x := by
  rw [State.sState, State.setSState, sset_sget_self _ _ _ (by decide)]
  cases x <;> rfl

/-! ### Bytes of BAR4 -/

/-- PF0's write of one byte outside the stop, with the IDE stream that the image asks for. -/
theorem bar4Write_of_pf0 {s : State} {im : Image} {off : Nat} {b : Byte} {ide : Bool} (him : s.image = some im)
    (hide : im.requireIde = true → ide = true) (hstop : s.stopped = false) : s.bar4Write 0 off [some b] ide = s.bar4Store off b := by
  have hopen : (im.requireIde && !ide) = false := by
    cases hreq : im.requireIde
    · rfl
    · simp [hide hreq]
  simp [State.bar4Write, him, hopen, hstop, State.bar4Writable]

/-- A byte that PF0 writes to the stream table goes to its entry. -/
theorem bar4Store_of_entry (s : State) (off : Fin 0x2000000) (b : Byte) :
    s.bar4Store off b = s.sset (off / 128) (off % 128) 1 b.toNat := if_pos off.isLt

/-- A byte of the OR window of the ready bitmap goes to the bitmap. -/
theorem bar4Store_of_orWindow (s : State) (off : Fin 0x8000) (b : Byte) : s.bar4Store (0x2010000 + off) b = s.orReady off b.toNat := by
  rw [State.bar4Store, if_neg (by omega), if_pos (by omega), Nat.add_sub_cancel_left]

/-- The ready bits after some bits of a byte have been ORed in. -/
theorem foldl_orReady_ready (byte v e : Nat) (l : List Nat) (s : State) :
    SMap.get false (l.foldl (fun s i => if bit v i then { s with ready := SMap.put false s.ready (8 * byte + i) true } else s) s).ready e =
      (SMap.get false s.ready e || l.any fun i => bit v i && decide (e = 8 * byte + i)) := by
  induction l generalizing s with
  | nil => simp
  | cons i l ih =>
    rw [List.foldl_cons, ih, List.any_cons]
    cases hbit : bit v i with
    | false => simp
    | true =>
      by_cases he : e = 8 * byte + i
      · simp [he]
      · simp [he, get_put_ne]

/-- ORing a byte into the bitmap sets the ready bits that it has set (R213). -/
theorem orReady_ready (s : State) (byte e : Nat) (b : Byte) :
    SMap.get false (s.orReady byte b.toNat).ready e = (SMap.get false s.ready e || (decide (e / 8 = byte) && b.getLsbD (e % 8))) := by
  rw [State.orReady, foldl_orReady_ready]
  congr 1
  by_cases he : e / 8 = byte
  · have hself : e = 8 * byte + e % 8 := by omega
    rw [Bool.eq_iff_iff]
    simp only [List.any_eq_true, List.mem_range, Bool.and_eq_true, decide_eq_true_eq]
    exact ⟨fun ⟨i, _, hbit, hi⟩ => ⟨he, by rw [show e % 8 = i by omega]; exact hbit⟩, fun ⟨_, hbit⟩ => ⟨e % 8, by omega, hbit, hself⟩⟩
  · rw [decide_eq_false he, Bool.false_and, List.any_eq_false]
    intro i hi
    have hlt : i < 8 := List.mem_range.mp hi
    simp [show e ≠ 8 * byte + i by omega]

theorem orReady_frame (s : State) (byte v : Nat) : s.orReady byte v = { s with ready := (s.orReady byte v).ready } := by
  unfold State.orReady
  generalize List.range 8 = l
  induction l generalizing s with
  | nil => rfl
  | cons i l ih =>
    rw [List.foldl_cons, ih]
    split <;> rfl

/-- Settles O18: a byte goes to one field of one entry, or is ORed into the bitmap. -/
theorem bar4WritesTheStreamTable : Obligations.Bar4WritesTheStreamTable := by
  refine ⟨?_, ?_⟩
  · intro s im off b ide hs him hide hstop
    refine ⟨s.sset (off / 128) (off % 128) 1 b.toNat, ?_, ?_, ?_, ?_, rfl⟩
    · refine congrArg Host.Outcome.next ((whileOn_of_answers _ hs).trans ?_)
      exact (bar4Write_of_pf0 him hide hstop).trans (bar4Store_of_entry s off b)
    · rw [sset_sget_self _ _ _ (by omega)]
      exact Nat.mod_eq_of_lt b.isLt
    · intro o ho hne
      have hmod : (off % 128 : Fin 0x2000000).val = off.val % 128 := rfl
      exact sset_sget_of_disjoint _ _ _ (by omega) (by omega)
    · exact fun e o hne => sset_sget_ne _ _ _ _ _ _ fun h => hne (Fin.ext h)
  · intro s im off b ide hs him hide hstop
    refine ⟨s.orReady off b.toNat, ?_, fun e => orReady_ready s off e b, orReady_frame ..⟩
    refine congrArg Host.Outcome.next ((whileOn_of_answers _ hs).trans ?_)
    exact (bar4Write_of_pf0 him hide hstop).trans (bar4Store_of_orWindow s off b)

end Sys2Proof.Proofs
end

section
/-! What signals, log entries and Ripple records keep: bits that are set stay set, and the parts of the fault block. -/
namespace Sys2Proof.Proofs
open Sys2Proof Sys2Proof.Machine Sys2Proof.Laws

/-- What every step of a fold keeps, the fold keeps. -/
theorem foldl_of_fixed {σ α β : Type} (g : σ → β) (f : σ → α → σ) (h : ∀ s x, g (f s x) = g s) (l : List α) (s : σ) :
    g (l.foldl f s) = g s := by
  induction l generalizing s with
  | nil => rfl
  | cons x l ih => exact (ih _).trans (h s x)

/-- Every write-one-to-clear bit that was set is still set. -/
structure KeepsBits (s t : State) : Prop where
  bit : ∀ o i, s.flagBit o i = true → t.flagBit o i = true

theorem KeepsBits.refl (s : State) : KeepsBits s s := ⟨fun _ _ h => h⟩

theorem KeepsBits.trans {s t u : State} (h : KeepsBits s t) (k : KeepsBits t u) : KeepsBits s u :=
  ⟨fun o i hs => k.bit o i (h.bit o i hs)⟩

theorem KeepsBits.of_flags {s t : State} (h : t.flags = s.flags) : KeepsBits s t := ⟨fun o i hs => by
  rwa [State.flagBit, State.flag, h]⟩

theorem getLsbD_setBit32_of_set {w : Word} {i : Nat} (j : Nat) (h : w.getLsbD i = true) : (setBit32 w j).getLsbD i = true := by
  rw [setBit32, BitVec.getLsbD_or, h, Bool.true_or]

theorem keepsBits_setBit (s : State) (off j : Nat) : KeepsBits s (s.setFlags off (setBit32 (s.flag off) j)) := by
  refine ⟨fun o i hs => ?_⟩
  unfold State.flagBit at hs ⊢
  by_cases h : o = off
  · subst h
    rw [setFlags_flag_self]
    exact getLsbD_setBit32_of_set _ hs
  · rwa [setFlags_flag_ne _ _ h]

theorem keepsBits_raise (s : State) (fn vec : Nat) : KeepsBits s (s.raise fn vec) := .of_flags (raise_flags ..)

theorem keepsBits_event (s : State) (off i vec : Nat) : KeepsBits s (s.event off i vec) :=
  (keepsBits_setBit s off i).trans (keepsBits_raise ..)

theorem keepsBits_faultLog (s : State) (kind unit : Nat) (st : Status) (cove addr info : Nat) :
    KeepsBits s (s.faultLog kind unit st cove addr info) := by
  unfold State.faultLog
  dsimp only
  split
  · exact .of_flags rfl
  · exact KeepsBits.trans (.of_flags (by exact rfl)) (keepsBits_event ..)

theorem keepsBits_ripNotify (s : State) (kind : Nat) : KeepsBits s (s.ripNotify kind) := by
  unfold State.ripNotify
  split
  · exact keepsBits_event ..
  · exact .refl s

theorem keepsBits_ripEnter (s : State) (r : RipRec) : KeepsBits s (s.ripEnter r) := by
  unfold State.ripEnter
  extract_lets need
  split
  · exact KeepsBits.trans (.of_flags (by exact rfl)) (keepsBits_event ..)
  · exact .of_flags rfl

theorem keepsBits_ripple (s : State) (kind st cove key value : Nat) : KeepsBits s (s.ripple kind st cove key value) := by
  unfold State.ripple
  split
  · exact .refl s
  · extract_lets v tick fresh
    split
    · split
      · exact .of_flags rfl
      · exact KeepsBits.trans (.of_flags (by exact rfl)) (keepsBits_ripEnter ..)
    · split
      · extract_lets rec
        split
        · split
          · exact KeepsBits.trans (.of_flags (by exact rfl)) (keepsBits_ripNotify ..)
          · exact .of_flags rfl
        · exact keepsBits_ripEnter ..
      · exact keepsBits_ripEnter ..

/-- A Ripple occurrence leaves the fault block alone. -/
theorem ripple_flt (s : State) (kind st cove key value : Nat) : (s.ripple kind st cove key value).flt = s.flt :=
  (congrArg State.flt (records_ripple s kind st cove key value)).trans rfl

theorem ripple_mem (s : State) (kind st cove key value : Nat) : (s.ripple kind st cove key value).mem = s.mem :=
  (congrArg State.mem (records_ripple s kind st cove key value)).trans rfl

theorem ripple_regs (s : State) (kind st cove key value : Nat) : (s.ripple kind st cove key value).regs = s.regs :=
  (congrArg State.regs (records_ripple s kind st cove key value)).trans rfl

/-- A log entry changes the log's own fields of the fault block alone. -/
theorem faultLog_flt (s : State) (kind unit : Nat) (st : Status) (cove addr info : Nat) :
    (s.faultLog kind unit st cove addr info).flt =
      { s.flt with log := (s.faultLog kind unit st cove addr info).flt.log, logHead := (s.faultLog kind unit st cove addr info).flt.logHead,
                   logFull := (s.faultLog kind unit st cove addr info).flt.logFull } := by
  unfold State.faultLog
  dsimp only
  split
  · rfl
  · rw [congrArg State.flt (signals_fltEvent _ 0)]

/-- A log entry leaves what is kept of a node alone. -/
theorem faultLog_node (s : State) (kind unit : Nat) (st : Status) (cove addr info n : Nat) :
    (s.faultLog kind unit st cove addr info).node n = s.node n := by
  rw [State.node, faultLog_flt, State.node]

/-- What is kept of a node stands in the fault block. -/
theorem node_of_flt {s t : State} (n : Nat) (h : t.flt = s.flt) : t.node n = s.node n := by rw [State.node, h, State.node]

theorem modNode_node_self (s : State) (n : Nat) (f : NodeLoss → NodeLoss) : (s.modNode n f).node n = f (s.node n) := get_upd_self _ _ _ _

theorem modNode_node_ne (s : State) {n k : Nat} (f : NodeLoss → NodeLoss) (h : k ≠ n) : (s.modNode n f).node k = s.node k := by
  rw [State.node, State.modNode, get_upd_ne _ _ _ _ _ h, State.node]

end Sys2Proof.Proofs
end

section
/-! Loss and restoration of a node (spec/17_faults_and_recovery.md, R607 to R616). -/
namespace Sys2Proof.Proofs
open Sys2Proof Sys2Proof.Machine Sys2Proof.Laws

theorem exec_lossReq {s : State} (v : Word) (hs : s.answers = true) : exec (.lossReq v) s = .next (s.lossReq v) :=
  congrArg Host.Outcome.next (whileOn_of_answers _ hs)

theorem exec_lossRestore {s : State} (v : Word) (hs : s.answers = true) : exec (.lossRestore v) s = .next (s.lossRestore v) :=
  congrArg Host.Outcome.next (whileOn_of_answers _ hs)

/-! ### Restoration -/

/-- What a restoration by request does (R611). -/
def restored (s : State) (node : Nat) : State :=
  ((List.range 8).foldl (fun s c => s.modPair (pairKey c node) fun _ => { restored := true }) (s.nodeLive node (s.node node).inc)).faultLog
    0x0B unitLink .done 0x80 node 0

theorem restored_node (s : State) (node n : Nat) : (restored s node).node n = (s.nodeLive node (s.node node).inc).node n := by
  rw [restored, faultLog_node]
  exact node_of_flt n (foldl_of_fixed State.flt (fun s c => s.modPair (pairKey c node) fun _ => { restored := true }) (fun _ _ => rfl) _ _)

theorem nodeLive_node_self (s : State) (node inc : Nat) :
    ((s.nodeLive node inc).node node).lost = false ∧ ((s.nodeLive node inc).node node).inc = inc := by
  rw [State.nodeLive, modNode_node_self]
  exact ⟨rfl, rfl⟩

/-! ### Recording a loss -/

/-- What is kept of a node once its loss is recorded. -/
def lostNode (x : NodeLoss) : NodeLoss := { x with lost := true, framesDropped := 0, linkBlocks := 0, fromLost := 0, mirrorReads := 0 }

/-- The state once a loss has its record, where no work goes towards the node: the node, the record and the streams to
adopt. -/
def lossRecorded (s : State) (node : Nat) (r : LossRec) : State :=
  { s.modNode node lostNode with
      flt := { (s.modNode node lostNode).flt with openLoss := [r] }
      seq := s.seq.map fun (x : SeqCove) => ({ x with adoptFrom := x.adoptFrom ++ [node] } : SeqCove) }

/-- What the recording of a loss leaves to be told: its count, its event, its log entry and its Ripple record. -/
def lossTold (s : State) (node cause inc : Nat) : State :=
  (((s.bump (blkFLT + 0x68) 1).fltEvent 1).faultLog 0x08 unitLink .nodeLost 0x80 node 0).ripple ripNodeLoss Status.nodeLost.code 0x80
    (node + 65536 * cause) inc

theorem lossTold_flt (s : State) (node cause inc : Nat) : (lossTold s node cause inc).flt.openLoss = s.flt.openLoss ∧
    (lossTold s node cause inc).flt.nodes = s.flt.nodes := by
  have hevent : ((s.bump (blkFLT + 0x68) 1).fltEvent 1).flt = s.flt := (congrArg State.flt (signals_fltEvent _ 1)).trans rfl
  rw [lossTold, ripple_flt, faultLog_flt, hevent]
  exact ⟨rfl, rfl⟩

theorem lossTold_bit (s : State) (node cause inc : Nat) : (lossTold s node cause inc).flagBit (blkFLT + 4) 1 = true :=
  (keepsBits_ripple ..).bit _ _ ((keepsBits_faultLog ..).bit _ _ (event_bit _ _ _ _ (by decide)))

theorem lossTold_mem (s : State) (node cause inc : Nat) : (lossTold s node cause inc).mem = s.mem := by
  rw [lossTold, ripple_mem, faultLog_mem]
  exact mem_of_signals (signals_fltEvent _ 1)

theorem lossTold_regs (s : State) (node cause inc : Nat) : (lossTold s node cause inc).regs = s.regs := by
  rw [lossTold, ripple_regs, faultLog_regs]
  exact regs_of_signals (signals_fltEvent _ 1)

theorem noWork_iff {s : State} : s.noWork = true ↔
    s.bsn.credits = [] ∧ s.bsn.flagHeld = [] ∧ s.router 0 = .idle ∧ s.router 1 = .idle ∧ s.strm = [] := by
  simp [State.noWork, and_assoc]

/-- With no request outstanding, none ends. -/
theorem endNode_of_no_credits {s : State} (node : Nat) (h : s.bsn.credits = []) : s.endNode node = (s, 0) := by
  simp [State.endNode, h]

/-- Idle routers take no note. -/
theorem shoalNodeLost_of_idle {s : State} (node : Nat) (h0 : s.router 0 = .idle) (h1 : s.router 1 = .idle) : s.shoalNodeLost node = s := by
  simp [State.shoalNodeLost, List.range_succ, h0, h1]

/-- Without streams there is no shadow to lose. -/
theorem shadowLost_of_no_streams {s : State} (node : Nat) (h : s.strm = []) : s.shadowLost node = (s, 0) := by
  simp [State.shadowLost, h]

/-- The record that a loss without work opens: its cause, its node with the incarnation it was seen at, and the tick. -/
def quietLoss (s : State) (node cause newInc : Nat) : LossRec :=
  { cause, node, nodes := [node], incarnation := (s.node node).inc, newInc := if cause = 2 then newInc else 0, tLost := s.now,
    linkBlocks := (s.node node).linkBlocks, framesDropped := (s.node node).framesDropped, waitSteps := s.stepsOn }

/-- Idle routers wait on no node. -/
theorem shoalOn_of_idle {s : State} (node : Nat) (h0 : s.router 0 = .idle) (h1 : s.router 1 = .idle) : s.shoalOn node = [] := by
  simp [State.shoalOn, List.range_succ, h0, h1]

/-- A loss with no work towards the node: the record is opened, and the rest is told (R609). -/
theorem recordLoss_of_noWork {s : State} (node cause newInc : Nat) (h : s.noWork = true) (hopen : s.flt.openLoss = []) :
    s.recordLoss node cause newInc = lossTold (lossRecorded s node (quietLoss s node cause newInc)) node cause (s.node node).inc := by
  obtain ⟨hcredits, hheld, hr0, hr1, hstrm⟩ := noWork_iff.mp h
  have hbsn : ({ s with bsn := { s.bsn with flagHeld := [] } } : State) = s := by rw [← hheld]
  have hend := endNode_of_no_credits (s := s) node hcredits
  have hshoal := shoalNodeLost_of_idle (s := s.modNode node lostNode) node hr0 hr1
  have hshadow := shadowLost_of_no_streams (s := s.modNode node lostNode) node hstrm
  have hempty : (s.modNode node lostNode).flt.openLoss = [] := hopen
  have hpairs : (s.modNode node lostNode).lostPairs = s.lostPairs := rfl
  have hstreams : (s.modNode node lostNode).strm = [] := hstrm
  unfold State.recordLoss
  simp only [hheld, List.filter_nil, List.foldl_nil, hbsn, hend, shoalOn_of_idle node hr0 hr1]
  rw [show (fun x : NodeLoss => ({ x with lost := true, framesDropped := 0, linkBlocks := 0, fromLost := 0, mirrorReads := 0 } : NodeLoss)) =
    lostNode from rfl]
  simp only [hshoal, hshadow, hstreams, hpairs, Nat.sub_self, List.filter_nil, List.map_nil, List.length_nil]
  rw [State.openLossRec, hempty, if_pos (by decide)]
  rfl

/-- What a loss without work leaves. -/
theorem recordLoss_spec {s : State} (node cause newInc : Nat) (h : s.noWork = true) (hopen : s.flt.openLoss = []) :
    ((s.recordLoss node cause newInc).node node).lost = true ∧ (∀ n, n ≠ node → (s.recordLoss node cause newInc).node n = s.node n) ∧
      (s.recordLoss node cause newInc).flt.openLoss = [quietLoss s node cause newInc] ∧
      (s.recordLoss node cause newInc).flagBit (blkFLT + 4) 1 = true ∧ (s.recordLoss node cause newInc).mem = s.mem ∧
      (s.recordLoss node cause newInc).regs = s.regs := by
  have heq := recordLoss_of_noWork node cause newInc h hopen
  have hflt := lossTold_flt (lossRecorded s node (quietLoss s node cause newInc)) node cause (s.node node).inc
  have hnode (n : Nat) : (s.recordLoss node cause newInc).node n = (s.modNode node lostNode).node n := by
    rw [heq, State.node, hflt.2]
    rfl
  refine ⟨?_, fun n hn => ?_, ?_, ?_, ?_, ?_⟩
  · rw [hnode, modNode_node_self]; rfl
  · rw [hnode, modNode_node_ne _ _ hn]
  · rw [heq, hflt.1]; rfl
  · rw [heq]; exact lossTold_bit ..
  · rw [heq, lossTold_mem]; rfl
  · rw [heq, lossTold_regs]; rfl

/-- R608 case 1: a timer that has run out records its node. -/
theorem lossDue_records {s : State} (n : Node) (hs : s.answers = true) (hdue : s.lossDue n.toNat = true) :
    exec (.nodeLossTimer n) s = .next (s.recordLoss n.toNat 1 0) ∧ exec (.nodeLossRecord n) s = .next (s.recordLoss n.toNat 1 0) :=
  have h := congrArg Host.Outcome.next ((whileOn_of_answers _ hs).trans (if_pos hdue))
  ⟨h, h⟩

/-! ### The loss log -/

/-- With a slot free and nothing waiting, a closed record goes to the head of the loss log. -/
theorem lossWrite_of_room {s : State} (r : LossRec) (h : s.lossHeld < 64) : s.lossWrite [r] =
    { s with flt := { s.flt with lossLog := SMap.put {} s.flt.lossLog (s.flt.lossHead % 64) r, lossHead := s.flt.lossHead + 1, waitingLoss := [] } } := by
  rw [State.lossWrite, if_pos h]
  rfl

theorem judgeRing_flt (s : State) : s.judgeRing.flt = s.flt := by
  unfold State.judgeRing
  dsimp only
  split
  · exact (congrArg State.flt (signals_raise _ 0 5)).trans rfl
  · rfl

theorem charge_flt (s : State) (res sub act n : Nat) : (s.charge res sub act n).flt = s.flt :=
  (congrArg State.flt (charge_frame s res sub act n)).trans rfl

theorem putRecord_flt (s : State) (r : EnergyRec) : (s.putRecord r).flt = s.flt := by
  unfold State.putRecord
  dsimp only
  split
  all_goals exact charge_flt _ 0 0 0 64

/-- A record of the Gauge leaves the fault block alone. -/
theorem emitRecord_flt (s : State) (r : EnergyRec) : (s.emitRecord r).flt = s.flt := by
  unfold State.emitRecord
  split
  · rw [judgeRing_flt, putRecord_flt]
  · split
    · rfl
    · exact judgeRing_flt _

/-- What a closed record keeps of the open one: its node, with the tick of the close. -/
theorem lossClosed_node_tClosed (s : State) (r : LossRec) : (s.lossClosed r).node = r.node ∧ (s.lossClosed r).tClosed = s.now :=
  ⟨foldl_of_fixed LossRec.node _ (fun _ _ => by rfl) _ _, foldl_of_fixed LossRec.tClosed _ (fun _ _ => by rfl) _ _⟩

/-- The one open record, which nothing holds open, closes into the loss log (R614). -/
theorem lossClose_flt {s : State} {r : LossRec} (hopen : s.flt.openLoss = [r]) (hsettled : s.lossSettled r = true) (hwait : s.flt.waitingLoss = [])
    (hroom : s.lossHeld < 64) : s.lossClose.flt =
      { s.flt with openLoss := [], lossLog := SMap.put {} s.flt.lossLog (s.flt.lossHead % 64) (s.lossClosed r), lossHead := s.flt.lossHead + 1 } := by
  have hfind : s.flt.openLoss.find? s.lossSettled = some r := by rw [hopen]; exact List.find?_cons_of_pos hsettled
  unfold State.lossClose
  simp only [hfind]
  rw [emitRecord_flt, hwait, List.nil_append, lossWrite_of_room _ (by exact hroom), hopen, List.erase_cons_head]

/-- Settles O19: requests that are refused set one bit; the rest goes through `recordLoss_spec`, `restored_node` and
`lossClose_flt`. -/
theorem lossOfANode : Obligations.LossOfANode := by
  refine ⟨?_, ?_, ?_, ?_, ?_, ?_, ?_, ?_⟩
  · intro s v hs hgo hrestore hnot
    refine ⟨s.fltEvent 4, (exec_lossReq v hs).trans (congrArg Host.Outcome.next ?_), event_bit _ _ _ _ (by decide), signals_fltEvent s 4⟩
    rw [State.lossReq, if_neg (by rw [hgo, hrestore]; decide), if_pos (by simpa using hnot)]
  · intro s v hs hgo hrestore hnot
    refine ⟨s.fltEvent 4, (exec_lossRestore v hs).trans (congrArg Host.Outcome.next ?_), event_bit _ _ _ _ (by decide), signals_fltEvent s 4⟩
    rw [State.lossRestore, if_neg (by rw [hgo, hrestore]; decide), if_pos (by simpa using hnot)]
  · intro s v hs hgo hrestore hother hlost
    refine ⟨restored s (v.toNat % 65536), (exec_lossRestore v hs).trans (congrArg Host.Outcome.next ?_), ?_, ?_, fun n hn => ?_⟩
    · rw [State.lossRestore, if_neg (by rw [hgo, hrestore]; decide), if_neg (by simp [hother, hlost])]
      rfl
    · rw [restored_node]; exact (nodeLive_node_self ..).1
    · rw [restored_node]; exact (nodeLive_node_self ..).2
    · rw [restored_node]; exact modNode_node_ne _ _ hn
  · intro s v hs hother hlost hgo hrestore hwork hopen
    obtain ⟨hself, hne, hr, hbit, hmem, hregs⟩ := recordLoss_spec (v.toNat % 65536) 3 0 hwork hopen
    refine ⟨_, (exec_lossReq v hs).trans (congrArg Host.Outcome.next ?_), hself, hne, ⟨_, hr, rfl, rfl, rfl, rfl⟩, hbit, hmem, hregs⟩
    rw [State.lossReq, if_neg (by rw [hgo, hrestore]; decide), if_neg (by simp [hother, hlost])]
  · intro s n hs hdue hwork hopen
    obtain ⟨htimer, hrecord⟩ := lossDue_records n hs hdue
    obtain ⟨hself, -, hr, -, hmem, -⟩ := recordLoss_spec n.toNat 1 0 hwork hopen
    exact ⟨⟨_, htimer, hself, ⟨_, hr, rfl, rfl⟩, hmem⟩, ⟨_, hrecord, hself, ⟨_, hr, rfl, rfl⟩, hmem⟩⟩
  · intro s n hdue
    have h : (s.whileOn fun s => if s.lossDue n.toNat then s.recordLoss n.toNat 1 0 else s) = s :=
      whileOn_of_fixed (if_neg (by simp [hdue]))
    exact ⟨congrArg Host.Outcome.next h, congrArg Host.Outcome.next h⟩
  · intro s v hs hwait
    refine ⟨s.setReg regLossTail v, congrArg Host.Outcome.next ?_, setReg_reg_self .., fun o ho => setReg_reg_ne s _ ho, rfl⟩
    rw [if_pos hs]
    simp only [setReg_flt, hwait, State.lossWrite]
    rw [← hwait]
    rfl
  · intro s r hs hopen hsettled hwait hroom
    have hflt := lossClose_flt hopen hsettled hwait hroom
    refine ⟨_, congrArg Host.Outcome.next (whileOn_of_answers _ hs), ?_⟩
    rw [hflt, get_put_self]
    exact ⟨rfl, rfl, lossClosed_node_tClosed s r⟩

end Sys2Proof.Proofs
end

section
/-! The step, the reset state, the fault log and the debug port (spec/95_what_each_step_holds.md, spec/16_host_interface_and_reset.md,
spec/17_faults_and_recovery.md R620, spec/19_pins_and_electrical.md R651). -/
namespace Sys2Proof.Proofs
open Sys2Proof Sys2Proof.Machine Sys2Proof.Laws

/-- Settles O1: the second arm of the step. -/
theorem stepRunsTheCommandInFront : Obligations.StepRunsTheCommandInFront := fun _ _ _ => rfl

/-- Settles O3: every arm of `exec` answers `.next`. -/
theorem everyCommandAnswers : Obligations.EveryCommandAnswers := by
  intro i s
  cases i <;> exact ⟨_, rfl⟩

/-! ### The step of an empty queue -/

theorem step_of_empty {s : State} (h : s.pending = []) :
    step s = .next (if s.hif.heldInReset ∨ s.pstate = 4 then s else ({ s with tick := s.tick + 1 } : State).judgeDrained) := by
  rw [step, h]

/-- What judging DRAINED does: it notes the judgement, and the rise sets EVENT.DRAINED_NOW (R596). -/
theorem judgeDrained_spec (s : State) :
    s.judgeDrained.hif.drainedWas = s.drained ∧
      (s.drained = true → s.hif.drainedWas = false → s.judgeDrained.flagBit (blkHIF + 0x10) 1 = true) ∧
      s.judgeDrained = { s with hif := s.judgeDrained.hif, ctrs := s.judgeDrained.ctrs, flags := s.judgeDrained.flags, out := s.judgeDrained.out } := by
  unfold State.judgeDrained
  dsimp only
  split
  · refine ⟨congrArg Hif.drainedWas (hifEvent_hif _ 1), fun _ _ => event_bit _ _ _ _ (by decide), ?_⟩
    exact (hifEvent_frame _ 1).trans (by rw [← hifEvent_hif])
  · next hrise => exact ⟨rfl, fun hd hw => absurd (by simp [hd, hw]) hrise, rfl⟩

/-- Settles O2: the tick rises by one and DRAINED is judged, or nothing happens. -/
theorem stepOfAnEmptyQueue : Obligations.StepOfAnEmptyQueue := by
  refine ⟨fun s hp hheld hpow => ?_, fun s hp hoff => ?_⟩
  · obtain ⟨hdrained, hevent, hframe⟩ := judgeDrained_spec { s with tick := s.tick + 1 }
    rw [step_of_empty hp, if_neg (by simp [hheld, hpow])]
    have htick := (congrArg State.tick hframe).trans rfl
    exact ⟨_, rfl, htick, hdrained, hevent, hframe.trans (by rw [htick])⟩
  · rw [step_of_empty hp, if_pos hoff]

/-! ### The state after reset -/

theorem entField_zero (n k : Nat) : entField 0 n k = 0 := by simp [entField]

/-- A granule that shows no failed symbol reads well (R259). -/
theorem eccDecode_nil : eccDecode [] ≠ .bad := by decide

/-- Settles O4: the tables are empty, so every entry reads its default; the rest is the reset state's own text. -/
theorem stateAfterReset : Obligations.StateAfterReset := by
  refine ⟨by decide, rfl, rfl, rfl, rfl, by decide, by decide, fun e n k => ?_, fun a => ?_, fun w => rfl, fun r => rfl, fun r => rfl,
    fun i => rfl, fun r => rfl, rfl, rfl, rfl, rfl, by decide⟩
  · exact entField_zero n k
  · exact decide_eq_false eccDecode_nil

/-! ### The fault log -/

/-- Settles O8: the room of the ring decides between an entry at its head and the count of the dropped. -/
theorem faultLogEntries : Obligations.FaultLogEntries := by
  refine ⟨fun s kind unit st cove addr info hroom => ?_, fun s kind unit st cove addr info hfull => ?_⟩
  · have hflt := faultLog_flt_of_room kind unit st cove addr info (s := s) (by omega)
    dsimp only
    rw [hflt]
    refine ⟨rfl, get_put_self .., fun i hi => get_put_ne _ _ _ _ _ _ hi, ?_, ?_⟩
    · rw [State.faultLog, if_neg (by omega)]
      exact event_bit _ _ _ _ (by decide)
    · exact (faultLog_frame s kind unit st cove addr info).trans (by rw [hflt])
  · have hlog : s.faultLog kind unit st cove addr info = { s.bump (blkFLT + 0x78) 1 with flt := { s.flt with logFull := true } } :=
      if_pos (by omega)
    dsimp only
    rw [hlog]
    exact ⟨bump_one_ctr s _, rfl, rfl, rfl, rfl⟩

/-! ### I3C addresses and the debug port -/

theorem exec_setdasa {s : State} (static dyn : Fin 128) (hs : s.answers = true) {t : Nat} (ht : s.i3cTarget static.val = some t) :
    exec (.setdasa static dyn) s = .next { s with i3cDyn := vmod s.i3cDyn t fun _ => some dyn.val } := by
  change execSetdasa static dyn s = _
  simp [execSetdasa, hs, ht]

theorem exec_jtagInstruction {s : State} (op : JtagOp) (hs : s.answers = true) (hlevel : jtagLevel op ≤ s.debug) :
    exec (.jtagInstruction op) s = .next (s.jtagDo op) := by
  refine congrArg Host.Outcome.next ((whileOn_of_answers _ hs).trans (if_pos hlevel))

/-- Settles O15: each target has its own static address; the debug level decides what an instruction does. -/
theorem i3cAddressesAndDebugPort : Obligations.I3cAddressesAndDebugPort := by
  refine ⟨fun s dyn hs => ⟨?_, ?_⟩, fun s op hlevel => ?_, fun s off hs hlevel => ?_, fun s hs hlevel => ?_⟩
  · have htarget : s.i3cTarget (Fin.ofNat 128 (0x30 + s.lnk.pos % 4)).val = some 0 := by
      have hval : (Fin.ofNat 128 (0x30 + s.lnk.pos % 4)).val = 0x30 + s.lnk.pos % 4 := Nat.mod_eq_of_lt (by omega)
      rw [State.i3cTarget, if_pos hval]
    exact ⟨_, exec_setdasa _ dyn hs htarget, vget_vmod_self _ _ _ _ (by decide), vget_vmod_ne _ _ _ _ _ (by decide), rfl⟩
  · have htarget : s.i3cTarget (Fin.ofNat 128 (0x38 + s.lnk.pos % 4)).val = some 1 := by
      have hval : (Fin.ofNat 128 (0x38 + s.lnk.pos % 4)).val = 0x38 + s.lnk.pos % 4 := Nat.mod_eq_of_lt (by omega)
      rw [State.i3cTarget, if_neg (by omega), if_pos hval]
    exact ⟨_, exec_setdasa _ dyn hs htarget, vget_vmod_self _ _ _ _ (by decide), vget_vmod_ne _ _ _ _ _ (by decide), rfl⟩
  · exact congrArg Host.Outcome.next (whileOn_of_fixed (if_neg (Nat.not_le.mpr hlevel)))
  · exact ⟨_, exec_jtagInstruction (.snapshot off) hs hlevel, rfl, rfl⟩
  · exact ⟨_, exec_jtagInstruction .halt hs hlevel, rfl, rfl⟩

end Sys2Proof.Proofs
end

section
/-! The step of a cove: its run in the sequencer, and what reads nothing of it. -/
namespace Sys2Proof.Proofs
open Sys2Proof Sys2Proof.Machine Sys2Proof.Laws

theorem modSeq_seqc_self (s : State) {c : Nat} (f : SeqCove → SeqCove) (hc : c < 8) : (s.modSeq c f).seqc c = f (s.seqc c) :=
  vget_vmod_self _ _ _ _ hc

theorem modSeq_seqc_ne (s : State) {c d : Nat} (f : SeqCove → SeqCove) (h : d ≠ c) : (s.modSeq c f).seqc d = s.seqc d :=
  vget_vmod_ne _ _ _ _ _ h

/-- Only counters differ. -/
def Counts (s t : State) : Prop := t = { s with ctrs := t.ctrs }

theorem Counts.trans {s t u : State} (h : Counts s t) (k : Counts t u) : Counts s u := Eq.trans k (by rw [h])

theorem counts_bump (s : State) (o n : Nat) : Counts s (s.bump o n) := rfl

/-- Only the run of one cove differs, and it is now `q`. -/
structure RunTo (s : State) (c : Cove) (t : State) (q : StepRun) : Prop where
  frame : t = { s with seq := t.seq }
  run : (t.seqc c).run = some q
  others : ∀ d : Cove, d ≠ c → t.seqc d = s.seqc d

theorem RunTo.trans {s t u : State} {c : Cove} {q r : StepRun} (h : RunTo s c t q) (k : RunTo t c u r) : RunTo s c u r :=
  ⟨k.frame.trans (by rw [h.frame]), k.run, fun d hd => (k.others d hd).trans (h.others d hd)⟩

theorem modRun_run {s : State} {c : Cove} {r : StepRun} (f : StepRun → StepRun) (h : (s.seqc c).run = some r) :
    ((s.modRun c f).seqc c).run = some (f r) := by
  rw [State.modRun, modSeq_seqc_self _ _ c.isLt, h, Option.map_some]

theorem runTo_modRun {s : State} {c : Cove} {r : StepRun} (f : StepRun → StepRun) (h : (s.seqc c).run = some r) :
    RunTo s c (s.modRun c f) (f r) :=
  ⟨rfl, modRun_run f h, fun _ hd => modSeq_seqc_ne s _ (Fin.val_ne_of_ne hd)⟩

/-- A step that holds no schedule entry releases none (R320). -/
theorem releaseHeld_of_none_held {s : State} {c : Cove} {r : StepRun} (sl : SlotDecl) (layer : Nat) (h : (s.seqc c).run = some r)
    (hheld : r.held = []) : s.releaseHeld c sl layer = s := by
  rw [State.releaseHeld, h]
  split
  · next r' j hr hj =>
    obtain rfl := Option.some.inj hr
    rw [if_neg (by simp [hheld])]
  · rfl

theorem foldl_releaseHeld_of_none_held {s : State} {c : Cove} {r : StepRun} (sl : SlotDecl) (ls : List Nat) (h : (s.seqc c).run = some r)
    (hheld : r.held = []) : ls.foldl (fun s l => s.releaseHeld c sl l) s = s := by
  induction ls with
  | nil => rfl
  | cons l ls ih => rw [List.foldl_cons, releaseHeld_of_none_held sl l h hheld, ih]

/-- Where nothing is held, the layers that have completed are counted as completed, and that is all (R319, R320). -/
theorem layersEnd_of_none_held {s : State} {c : Cove} {r : StepRun} (sl : SlotDecl) (h : (s.seqc c).run = some r) (hheld : r.held = []) :
    ∃ done, RunTo s c (s.layersEnd c sl) { r with completed := done } := by
  refine ⟨r.completed ++ s.layersDone c sl r, ?_⟩
  rw [State.layersEnd, h]
  dsimp only
  rw [foldl_releaseHeld_of_none_held sl _ (modRun_run _ h) hheld]
  exact runTo_modRun _ h

/-- A group that is not posted whole does not end: at most its layers complete. -/
theorem stepAdvance_within_group {s : State} {c : Cove} {r : StepRun} {sl : SlotDecl} (h : (s.seqc c).run = some r)
    (hslot : s.slot c r.slot = some sl) (hnext : r.next < sl.stepCount) (hprev : s.withPrev c sl r.next = true) (hheld : r.held = []) :
    ∃ done, RunTo s c (s.stepAdvance c) { r with completed := done } := by
  have hgroup : s.groupPosted c sl r = false := by simp [State.groupPosted, hprev, hnext]
  have hstay : RunTo s c s { r with completed := r.completed } := ⟨rfl, h, fun _ _ => rfl⟩
  unfold State.stepAdvance
  rw [h]
  split
  · next r' d hr hd =>
    obtain rfl := Option.some.inj hr
    split
    · exact ⟨_, hstay⟩
    · rw [hslot]
      dsimp only
      rw [if_neg (by simp [hgroup])]
      exact layersEnd_of_none_held sl h hheld
  · exact ⟨_, hstay⟩

/-- Posting stops at the end of the step program. -/
theorem postGroup_of_end {s : State} {c : Cove} {r : StepRun} {sl : SlotDecl} (d : CoveDecl) (fuel : Nat) (h : (s.seqc c).run = some r)
    (hnext : sl.stepCount ≤ r.next) : State.postGroup c d sl fuel s = s := by
  cases fuel with
  | zero => rfl
  | succ n =>
    rw [State.postGroup, h]
    exact if_pos hnext

end Sys2Proof.Proofs
end

section
/-! Entries of a step program (spec/06_serving_sequencer.md, R236 to R239). -/
namespace Sys2Proof.Proofs
open Sys2Proof Sys2Proof.Machine Sys2Proof.Laws

/-- A WAIT whose counter has risen completes (R236). -/
theorem stepWaitMet_within_group {s : State} {c : Cove} {r : StepRun} {sl : SlotDecl} (h : (s.seqc c).run = some r)
    (hslot : s.slot c r.slot = some sl) (hnext : r.next < sl.stepCount) (hprev : s.withPrev c sl r.next = true) (hheld : r.held = []) :
    ∃ done, RunTo s c (s.stepWaitMet c)
      { r with posted := r.posted.map fun p => if s.waitMet c sl r p then { p with ended := true } else p, completed := done } := by
  have hmet := runTo_modRun (fun r => { r with posted := r.posted.map fun p => if s.waitMet c sl r p then { p with ended := true } else p }) h
  obtain ⟨done, hadvance⟩ := stepAdvance_within_group hmet.run hslot hnext (hprev) hheld
  refine ⟨done, ?_⟩
  rw [State.stepWaitMet, h]
  dsimp only
  rw [hslot]
  exact hmet.trans hadvance

/-- The one EMIT entry of a group is the one that EMIT runs (R239). -/
theorem emitPending_of_single {s : State} {c : Nat} {sl : SlotDecl} {r : StepRun} {p : Posted} {e : List Byte} (hposted : r.posted = [p])
    (hended : p.ended = false) (hcounts : p.counts = false) (he : s.progEntry c sl p.entry = .ok e) (hkind : peKind e = 7) :
    s.emitPending c sl r = some p := by
  simp [State.emitPending, hposted, hended, hcounts, he, hkind]

/-- What EMIT makes of the run once the tokens are read (R239). -/
def emitted (s : State) (p : Posted) (took : List (BatchPart × Except AccErr (List Byte))) (r : StepRun) : StepRun :=
  { r with
    posted := r.posted.map fun q => if q.entry = p.entry then { q with ended := true } else q
    parts := r.parts.zipIdx.map fun x => match took[x.2]? with
      | some (_, Except.ok b) => if s.wantsToken x.1 then ({ x.1 with token := some (leNat b) } : BatchPart) else x.1
      | _ => x.1 }

theorem emitted_of_single {s : State} {r : StepRun} {p : Posted} {x : BatchPart} (b : List Byte) (hposted : r.posted = [p])
    (hparts : r.parts = [x]) :
    emitted s p [(x, .ok (if s.wantsToken x then b else []))] r =
      { r with posted := [{ p with ended := true }], parts := [if s.wantsToken x then { x with token := some (leNat b) } else x] } := by
  by_cases hw : s.wantsToken x = true <;> simp [emitted, hposted, hparts, hw]

/-- EMIT of a step of one part whose token can be read changes the run and lets the step go on. -/
theorem emitStep_of_single {s : State} {c : Cove} {r : StepRun} {sl : SlotDecl} {p : Posted} {b : List Byte} {x : BatchPart}
    (h : (s.seqc c).run = some r) (hslot : s.slot c r.slot = some sl) (hpending : s.emitPending c sl r = some p) (hparts : r.parts = [x])
    (hpoison : s.emitPoison c r p = none) (htoken : s.wantsToken x = true → s.peek c (p.addr + 4 * (x.row + x.rows - 1)) 4 = .ok b) :
    s.emitStep c = (s.modRun c (emitted s p [(x, .ok (if s.wantsToken x then b else []))])).stepAdvance c := by
  have hread : (if s.wantsToken x then s.seqRead c (p.addr + 4 * (x.row + x.rows - 1)) 4 else .ok []) =
      Except.ok (if s.wantsToken x then b else []) := by
    split
    · next hw => exact htoken hw
    · rfl
  unfold State.emitStep
  rw [h]
  dsimp only
  rw [hslot]
  dsimp only
  rw [hpending]
  dsimp only
  rw [if_neg (by simp [hpoison]), hparts]
  simp only [List.map_cons, List.map_nil, hread, List.foldl_cons, List.foldl_nil]
  rfl

/-- The step ends once its last group has completed (R239). -/
theorem stepAdvance_of_last {s : State} {c : Cove} {r : StepRun} {sl : SlotDecl} {d : CoveDecl} {p : Posted} (h : (s.seqc c).run = some r)
    (hd : s.cove c = some d) (hslot : s.slot c r.slot = some sl) (hended : r.ended = false) (hposted : r.posted = [p])
    (hdone : p.ended = true) (hcounts : p.counts = false) (hheld : r.held = []) (hnext : sl.stepCount ≤ r.next) :
    ∃ u q, s.stepAdvance c = u.stepEnds c ∧ RunTo s c u q ∧ q = { r with posted := [], ctrBase := q.ctrBase, completed := q.completed } := by
  have hgroup : s.groupPosted c sl r = true := by simp [State.groupPosted, hposted, hnext]
  have hall : s.groupDone d r = true := by simp [State.groupDone, hposted, hdone, hcounts]
  have hends : s.entryEnds c sl r p = s := if_pos hdone
  have hto := runTo_modRun (fun r => { r with posted := [], ctrBase := s.arr d.stepCtr }) h
  obtain ⟨done, hlayers⟩ := layersEnd_of_none_held sl hto.run hheld
  refine ⟨_, _, ?_, hto.trans hlayers, rfl⟩
  unfold State.stepAdvance
  rw [h, hd]
  dsimp only
  rw [if_neg (by simp [hended]), hslot]
  dsimp only
  rw [if_pos ⟨hgroup, hall⟩, if_pos hnext, hposted, List.foldl_cons, List.foldl_nil, hends]

/-- What the end of a step notes of it, where it served no row (R239, R244). -/
def stepNoted (s : State) (sl : SlotDecl) (r : StepRun) (x : SeqCove) : SeqCove :=
  { x with kappa := modNth x.kappa r.slot fun k => kappaNext sl k r.rows ((s.now - r.start) * 10), nPrev := modNth x.nPrev r.slot fun _ => r.rows,
           lastNs := (s.now - r.start) * 10, lastRows := r.rows, lastUse := modNth x.lastUse r.slot fun _ => s.now,
           run := x.run.map fun r => { r with ended := true } }

/-- The counters at the end of a step that served no row. -/
def stepCounted (s : State) (c : Nat) (pad : Bool) : State :=
  (((s.bump (seqOff c 0x40) 1).bump (seqOff c 0x48) 0).bump (seqOff c 0x50) 0).bump (seqOff c 0x90) (b2n pad)

theorem counts_stepCounted (s : State) (c : Nat) (pad : Bool) : Counts s (stepCounted s c pad) :=
  (((counts_bump ..).trans (counts_bump ..)).trans (counts_bump ..)).trans (counts_bump ..)

theorem stepCounted_ctr (s : State) (c : Nat) (pad : Bool) : (stepCounted s c pad).ctr (seqOff c 0x40) = s.ctr (seqOff c 0x40) + 1 := by
  have hoff (k : Nat) (hk : 0x40 ≠ k) : seqOff c 0x40 ≠ seqOff c k := by simp only [seqOff, coveOff]; omega
  rw [stepCounted, bump_ctr_ne _ _ _ _ (hoff 0x90 (by decide)), bump_ctr_ne _ _ _ _ (hoff 0x50 (by decide)),
    bump_ctr_ne _ _ _ _ (hoff 0x48 (by decide)), bump_one_ctr]

/-- The end of a step without parts counts the step. -/
theorem stepEnds_of_no_parts {s : State} {c : Cove} {r : StepRun} {sl : SlotDecl} (h : (s.seqc c).run = some r)
    (hslot : s.slot c r.slot = some sl) (hparts : r.parts = []) :
    s.stepEnds c = (stepCounted s c r.pad).modSeq c (stepNoted s sl r) := by
  unfold State.stepEnds
  rw [h]
  dsimp only
  rw [hslot]
  simp only [hparts, List.filter_nil, List.map_nil, List.sum_nil, List.foldl_nil, Nat.sub_self, State.fbRates, true_or, if_true]
  rfl

/-- Posting of the last entry of a step program, its queue having room (R237). -/
theorem postGroup_of_last {s u : State} {c : Cove} {r : StepRun} {sl : SlotDecl} {d : CoveDecl} {p : Posted} (fuel : Nat)
    (h : (s.seqc c).run = some r) (hcount : sl.stepCount = r.next + 1) (hgroup : r.posted = [] ∨ s.withPrev c sl r.next = true)
    (hopen : State.layerOpen sl r ((s.layerOf c sl r.next).getD 0) = true) (hpoison : s.postPoison c sl r.next = none)
    (hpost : s.postEntry c d sl r r.next = .posted u p) (hu : (u.seqc c).run = some r) :
    ∃ t q, State.postGroup c d sl (fuel + 2) s = t ∧ RunTo u c t q ∧ q.next = r.next + 1 ∧ q.retry = false ∧ q.posted = r.posted ++ [p] := by
  have hfirst : ¬((!r.posted.isEmpty) = true ∧ (!s.withPrev c sl r.next) = true) := by
    rcases hgroup with hempty | hprev
    · simp [hempty]
    · simp [hprev]
  have hfinished (f : StepRun → StepRun) (hf : (f r).next = r.next + 1) :
      State.postGroup c d sl (fuel + 1) (u.modRun c f) = u.modRun c f :=
    postGroup_of_end d _ (modRun_run f hu) (by omega)
  rw [State.postGroup, h]
  dsimp only
  rw [if_neg (by omega), hpoison, if_neg (by simp), if_neg hfirst, hopen, if_neg (by simp), hpost]
  dsimp only
  rw [hfinished]
  · exact ⟨_, _, rfl, runTo_modRun _ hu, rfl, rfl, rfl⟩
  · rfl

/-- Settles O20: each clause names the arm that its hypotheses select; the run that it leaves stands in a `RunTo`. -/
theorem stepProgramEntries : Obligations.StepProgramEntries := by
  refine ⟨?_, ?_, ?_, ?_⟩
  · intro s c r sl hrun h hslot hnext hprev hheld
    obtain ⟨done, hto⟩ := stepWaitMet_within_group h hslot hnext hprev hheld
    exact ⟨_, _, congrArg Host.Outcome.next (unlessHalted_of_not_halted _ hrun), hto.frame, hto.run, rfl, hto.others⟩
  · intro s c r sl p e b x hrun h hslot hnext hprev hposted hended hcounts he hkind hparts hheld hpoison htoken
    have hpending := emitPending_of_single hposted hended hcounts he hkind
    have htaken := runTo_modRun (emitted s p [(x, .ok (if s.wantsToken x then b else []))]) h
    rw [emitted_of_single b hposted hparts] at htaken
    obtain ⟨done, hadvance⟩ := stepAdvance_within_group htaken.run hslot hnext hprev hheld
    have hto := htaken.trans hadvance
    rw [← emitStep_of_single h hslot hpending hparts hpoison htoken] at hto
    exact ⟨_, _, congrArg Host.Outcome.next (unlessHalted_of_not_halted _ hrun), hto.frame, hto.run, rfl, hto.others⟩
  · intro s c r sl d p hrun h hd hslot hended hparts hposted hdone hcounts hheld hnext
    obtain ⟨u, q, hadvance, hto, hq⟩ := stepAdvance_of_last h hd hslot hended hposted hdone hcounts hheld hnext
    obtain ⟨v, rfl⟩ : ∃ v, u = { s with seq := v } := ⟨_, hto.frame⟩
    have hends := stepEnds_of_no_parts (sl := sl) hto.run (by rw [hq]; exact hslot) (by rw [hq]; exact hparts)
    have hexec : exec (.stepEntryComplete c) s = .next (s.stepAdvance c) := congrArg Host.Outcome.next (unlessHalted_of_not_halted _ hrun)
    rw [hexec, hadvance, hends]
    have hcounted := counts_stepCounted { s with seq := v } c q.pad
    have hctr := stepCounted_ctr { s with seq := v } c q.pad
    generalize stepCounted { s with seq := v } c q.pad = w at hcounted hctr ⊢
    have hseqc (e : Nat) : w.seqc e = ({ s with seq := v } : State).seqc e := by rw [hcounted]; rfl
    refine ⟨_, rfl, ?_, ?_, ?_, hctr, fun e he => ?_⟩
    · rw [hcounted]
      rfl
    · refine ⟨{ q with ended := true }, ?_, rfl, by rw [hq]⟩
      rw [modSeq_seqc_self _ _ c.isLt, hseqc]
      exact congrArg (Option.map _) hto.run
    · rw [modSeq_seqc_self _ _ c.isLt, hq]
      rfl
    · exact (modSeq_seqc_ne _ _ (Fin.val_ne_of_ne he)).trans ((hseqc e).trans (hto.others e he))
  · intro s u c r sl d p hrun h hd hslot hretry hnow hcount hgroup hopen hpoison hpost hu
    have hretried : exec (.stepPostRetry c) s = .next (State.postGroup c d sl 4096 s) := by
      refine (congrArg Host.Outcome.next (unlessHalted_of_not_halted _ hrun)).trans ?_
      rw [h, hd]
      dsimp only
      rw [if_pos ⟨hretry, hnow⟩, hslot]
    obtain ⟨t, q, ht, hto, hq⟩ := postGroup_of_last 4094 h hcount hgroup hopen hpoison hpost (by rw [hu]; exact h)
    exact ⟨t, hretried.trans (congrArg Host.Outcome.next ht), hto.frame, q, hto.run, hq⟩

end Sys2Proof.Proofs
end

section
/-! Transfers of a layer schedule (spec/08_tiers_and_translation.md, R319, R320). -/
namespace Sys2Proof.Proofs
open Sys2Proof Sys2Proof.Machine Sys2Proof.Laws

theorem modObj_obj_self (s : State) (c i : Nat) (f : Obj → Obj) : (s.modObj c i f).obj c i = f (s.obj c i) := get_upd_self _ _ _ _

/-- A change of a state word sets its fields as asked, and adds 1 to SEQ (R312). -/
theorem setWord_word_self (s : State) (c i : Nat) (f : ObjWord → ObjWord) :
    ((s.setWord c i f).obj c i).word = { f (s.obj c i).word with seq := ((s.obj c i).word.seq + 1) % 65536 } :=
  congrArg Obj.word (modObj_obj_self s c i _)

/-- A COPY transfer that is next and may start runs (R319). -/
theorem xferStart_of_copy {s : State} {c : Cove} {r : StepRun} {d : CoveDecl} {sl : SlotDecl} {j : Nat} {x : SchedEntry}
    (h : (s.seqc c).run = some r) (hd : s.cove c = some d) (hslot : s.slot c r.slot = some sl) (hended : r.ended = false)
    (hidle : ∀ y ∈ r.xfers, y ≠ .running) (hfirst : r.xfers.findIdx? (· = Xfer.waiting) = some j) (hx : sl.sched.entries[j]? = some x)
    (hmay : xferEligible sl r j = true) (hmode : sl.sched.mode = 1) :
    s.xferStart c = s.modRun c fun r => { r with xfers := modNth r.xfers j fun _ => .running } := by
  have hany : (r.xfers.any (· = Xfer.running)) = false := by simpa using hidle
  unfold State.xferStart
  rw [h, hd]
  dsimp only
  rw [hslot]
  dsimp only
  rw [if_neg (by simp [hended, hany]), hfirst]
  dsimp only
  rw [hx]
  dsimp only
  rw [if_neg (by simp [hmay]), if_pos hmode]

/-- The end of a transfer after which nothing is left to post (R320). -/
theorem xferEnds_of_posted {s : State} {c : Cove} {r : StepRun} {sl : SlotDecl} (d : CoveDecl) (j : Nat) (h : (s.seqc c).run = some r)
    (hnext : sl.stepCount ≤ r.next) :
    s.xferEnds c j sl d none = s.modRun c fun r => { r with xfers := modNth r.xfers j fun _ => .ended } :=
  postGroup_of_end d _ (modRun_run _ h) hnext

/-- The end of the transfer of an object that is held in USE (R320). -/
theorem xferEnds_of_held {s : State} {c : Cove} {r : StepRun} {sl : SlotDecl} (d : CoveDecl) (j i : Nat) (h : (s.seqc c).run = some r)
    (hnext : sl.stepCount ≤ r.next) :
    s.xferEnds c j sl d (some i) =
      ((s.setWord c i fun w => { w with use := (w.use + 1) % 256 }).modRun c fun r => { r with held := r.held ++ [j] }).modRun c
        fun r => { r with xfers := modNth r.xfers j fun _ => .ended } :=
  postGroup_of_end d _ (modRun_run _ (modRun_run (s := s.setWord c i fun w => { w with use := (w.use + 1) % 256 }) _ h)) hnext

/-- The end of a COPY transfer from memory of the package whose bytes could be copied (R320). -/
theorem xferDone_of_copied {s u : State} {c : Cove} {r : StepRun} {d : CoveDecl} {sl : SlotDecl} {j : Nat} {x : SchedEntry} {a : Nat} (ok : Bool)
    (h : (s.seqc c).run = some r) (hd : s.cove c = some d) (hslot : s.slot c r.slot = some sl)
    (hfirst : r.xfers.findIdx? (· = Xfer.running) = some j) (hx : sl.sched.entries[j]? = some x) (hmode : sl.sched.mode = 1)
    (hsrc : s.translate c x.srcVa 1 .read = .ok (.dpa a)) (ha : a < hostDpa) (hpoison : s.xferPoison c = none)
    (hcopy : (s.charge 4 0 sl.sched.activity x.bytes).xferCopy sl.sched.activity c x.srcVa x.dstVa (x.bytes / 64) 0 = (u, none)) :
    s.xferDone c ok = (u.bump (spwOff c 0x50) (x.bytes / 65536)).xferEnds c j sl d none := by
  unfold State.xferDone
  rw [h, hd]
  dsimp only
  rw [hslot, hfirst]
  dsimp only
  rw [hx]
  dsimp only
  rw [if_pos hmode, hsrc]
  simp only [Nat.not_le.mpr ha, decide_false, Bool.false_and, Bool.false_eq_true, if_false, hpoison, Option.isSome_none,
    show b2n false = 0 from rfl, hcopy]

/-- The end of the transfer of a resident object (R320). -/
theorem xferDone_of_resident {s : State} {c : Cove} {r : StepRun} {d : CoveDecl} {sl : SlotDecl} {j : Nat} {x : SchedEntry} (ok : Bool)
    (h : (s.seqc c).run = some r) (hd : s.cove c = some d) (hslot : s.slot c r.slot = some sl)
    (hfirst : r.xfers.findIdx? (· = Xfer.running) = some j) (hx : sl.sched.entries[j]? = some x) (hmode : sl.sched.mode ≠ 1)
    (hstate : (s.obj c x.objId).word.state = .resident) : s.xferDone c ok = s.xferEnds c j sl d (some x.objId) := by
  unfold State.xferDone
  rw [h, hd]
  dsimp only
  rw [hslot, hfirst]
  dsimp only
  rw [hx]
  dsimp only
  rw [if_neg hmode, hstate]
  simp

/-- Settles O21: each clause names the arm that its hypotheses select; with nothing left to post, the end of a transfer ends it
and posts nothing. -/
theorem layerTransfers : Obligations.LayerTransfers := by
  refine ⟨?_, ?_, ?_⟩
  · intro s c r d sl j x hrun h hd hslot hended hidle hfirst hx hmay hmode
    have hstart := xferStart_of_copy h hd hslot hended hidle hfirst hx hmay hmode
    have hto := runTo_modRun (fun r => { r with xfers := modNth r.xfers j fun _ => .running }) h
    exact ⟨_, congrArg Host.Outcome.next ((unlessHalted_of_not_halted _ hrun).trans hstart), rfl, hto.run, hto.others⟩
  · intro s u c r d sl j x a ok hrun h hd hslot hfirst hx hmode hsrc ha hpoison hcopy hu hnext
    have hrunu : ((u.bump (spwOff c 0x50) (x.bytes / 65536)).seqc c).run = some r := (congrArg SeqCove.run hu).trans h
    have hdone := (xferDone_of_copied ok h hd hslot hfirst hx hmode hsrc ha hpoison hcopy).trans (xferEnds_of_posted d j hrunu hnext)
    exact ⟨_, congrArg Host.Outcome.next ((unlessHalted_of_not_halted _ hrun).trans hdone), rfl, bump_ctr_self .., modRun_run _ hrunu⟩
  · intro s c r d sl j x ok hrun h hd hslot hfirst hx hmode hstate hnext
    have hdone := (xferDone_of_resident ok h hd hslot hfirst hx hmode hstate).trans (xferEnds_of_held d j x.objId h hnext)
    have hheld := modRun_run (s := s.setWord c x.objId fun w => { w with use := (w.use + 1) % 256 }) (fun r => { r with held := r.held ++ [j] }) h
    exact ⟨_, congrArg Host.Outcome.next ((unlessHalted_of_not_halted _ hrun).trans hdone), rfl,
      congrArg ObjWord.use (setWord_word_self s c x.objId fun w => { w with use := (w.use + 1) % 256 }), modRun_run _ hheld⟩

end Sys2Proof.Proofs
end

section
/-! Closing the pools of a cove that have no participants (spec/12_energy_gauge.md, R461, R464). -/
namespace Sys2Proof.Proofs
open Sys2Proof Sys2Proof.Machine Sys2Proof.Laws

/-- Only the Gauge differs. -/
def Gauged (s t : State) : Prop := t = { s with gau := t.gau }

theorem Gauged.trans {s t u : State} (h : Gauged s t) (k : Gauged t u) : Gauged s u := Eq.trans k (by rw [h])

/-- A pool without participants goes to the house account: only the Gauge notes it (R464). -/
theorem closePool_of_no_shares (s : State) (c p : Nat) (m : SMap Nat) :
    Gauged s (s.closePool c p [] m).1 ∧ (s.closePool c p [] m).2 = m := by
  rw [State.closePool]
  exact ⟨rfl, rfl⟩

theorem closePools_of_no_shares (c : Nat) (ps : List Nat) (s : State) (m : SMap Nat) :
    Gauged s (ps.foldl (fun (x : State × SMap Nat) p => x.1.closePool c p [] x.2) (s, m)).1 ∧
      (ps.foldl (fun (x : State × SMap Nat) p => x.1.closePool c p [] x.2) (s, m)).2 = m := by
  induction ps generalizing s with
  | nil => exact ⟨rfl, rfl⟩
  | cons p ps ih =>
    obtain ⟨hgauged, hremote⟩ := closePool_of_no_shares s c p m
    obtain ⟨hrest, hsame⟩ := ih (s.closePool c p [] m).1
    rw [List.foldl_cons, show s.closePool c p [] m = ((s.closePool c p [] m).1, m) from Prod.ext rfl hremote]
    exact ⟨hgauged.trans hrest, hsame⟩

/-- The close of a cove's pools to the house touches the Gauge alone (R591). -/
theorem gauged_closeToHouse (s : State) (c : Nat) : Gauged s (s.closeToHouse c) := by
  rw [State.closeToHouse]
  exact (closePools_of_no_shares c (List.range 10) s []).1.trans rfl

/-- The close of an idle interval in which nothing had a share touches the Gauge alone (R461). -/
theorem gauged_closeIdle {s : State} (c : Nat) (h : s.gau.shares = []) : Gauged s (s.closeIdle c) := by
  obtain ⟨hgauged, hremote⟩ := closePools_of_no_shares c (List.range 10) s []
  unfold State.closeIdle
  simp only [h, SMap.get, List.foldl_nil, ite_self, hremote]
  exact hgauged.trans rfl

end Sys2Proof.Proofs
end

section
/-! Step boundaries (spec/06_serving_sequencer.md, R214, R217, R221, R229). -/
namespace Sys2Proof.Proofs
open Sys2Proof Sys2Proof.Machine Sys2Proof.Laws

/-! ### A stream table without live entries -/

theorem mem_insert {α : Type} {m : SMap α} {a : Nat} {v : α} {x : Nat × α} (h : x ∈ SMap.insert m a v) : x ∈ m ∨ x = (a, v) := by
  induction m with
  | nil => exact .inr (List.mem_singleton.mp h)
  | cons p m ih =>
    unfold SMap.insert at h
    split at h
    · exact (List.mem_cons.mp h).symm
    · split at h
      · exact (List.mem_cons.mp h).elim .inr fun hm => .inl (List.mem_cons_of_mem _ hm)
      · exact (List.mem_cons.mp h).elim (fun hp => .inl (hp ▸ List.mem_cons_self)) fun hm => (ih hm).imp_left (List.mem_cons_of_mem _)

theorem mem_put {α : Type} [DecidableEq α] {d : α} {m : SMap α} {a : Nat} {v : α} {x : Nat × α} (h : x ∈ SMap.put d m a v) :
    x ∈ m ∨ x = (a, v) := by
  unfold SMap.put at h
  split at h
  · exact .inl (List.mem_filter.mp h).1
  · exact mem_insert h

/-- What a table reads at a key is listed there, or is the default. -/
theorem get_mem_or_default {α : Type} (d : α) (m : SMap α) (a : Nat) : (a, SMap.get d m a) ∈ m ∨ SMap.get d m a = d := by
  induction m with
  | nil => exact .inr rfl
  | cons p m ih =>
    unfold SMap.get
    split
    · next hk => exact .inl (hk ▸ List.mem_cons_self)
    · exact ih.imp_left (List.mem_cons_of_mem _)

theorem liveEntries_eq_nil_iff {s : State} : s.liveEntries = [] ↔ ∀ x ∈ s.streams, entField x.2 0 1 = 0 := by
  simp [State.liveEntries, List.filter_eq_nil_iff]

/-- With no live entry, every entry reads FREE. -/
theorem state_of_no_live {s : State} (h : s.liveEntries = []) (e : Nat) : s.sget e 0 1 = 0 := by
  rcases get_mem_or_default 0 s.streams e with hm | hd
  · exact liveEntries_eq_nil_iff.mp h _ hm
  · rw [State.sget, hd, entField_zero]

/-- A write past STATE makes no entry live. -/
theorem liveEntries_sset {s : State} (e : Nat) {off n : Nat} (v : Nat) (hoff : 1 ≤ off) (h : s.liveEntries = []) :
    (s.sset e off n v).liveEntries = [] := by
  refine liveEntries_eq_nil_iff.mpr fun x hx => ?_
  rcases mem_put hx with hm | rfl
  · exact liveEntries_eq_nil_iff.mp h x hm
  · rw [entField_setEntField_of_disjoint _ _ (by decide) (by omega)]
    exact state_of_no_live h e

/-! ### The parts of a boundary where no stream is live -/

/-- Item 1 where no step runs (R461). -/
theorem closeBoundary_of_no_run {s : State} {c : Nat} (h : (s.seqc c).run = none) : s.closeBoundary c = s.closeIdle c := by
  rw [State.closeBoundary, h]

/-- Sound memory has no table to mend (R304). -/
theorem mendTables_of_sound {s : State} (c : Nat) (hpoison : s.mem.poison = []) (hfailed : s.mem.failed = []) : s.mendTables c = s :=
  if_pos (by simp [hpoison, hfailed])

theorem retireAll_of_no_live {s : State} (c : Nat) (h : s.liveEntries = []) : s.retireAll c = (s, []) := by
  simp [State.retireAll, State.coveEntries, h, State.retireList]

/-- Item 3 where nothing retires and nothing is kept of a stream: at most pages leave quarantine (R268). -/
theorem freeItems_of_no_streams {s : State} (c : Nat) (h : s.strm = []) : s.freeItems c [] = s.quarRelease c := by
  have hstrm : (s.quarRelease c).strm = [] := h
  unfold State.freeItems
  simp only [List.foldl_nil, hstrm, List.filter_nil, List.map_nil]
  rw [SMap.mapAll, ← hstrm]

theorem adoptAll_of_none_due {s : State} {c : Nat} (as : List Adoption) (h : (s.seqc c).adoptFrom = []) :
    s.adoptAll c as = s.modSeq c fun x => { x with adoptFrom := [] } := by
  rw [State.adoptAll, h]
  simp only [List.not_mem_nil, if_false, List.foldl_fixed]

/-- Item 5 where no stream is live and no slot belongs to a group: nothing is composed (R231). -/
theorem item5_of_no_live {s : State} {c : Nat} (d : CoveDecl) (hlive : s.liveEntries = []) (hstrm : s.strm = []) (hgroup : s.groupSlot c = none) :
    s.item5 c d = s := by
  have hdemote : s.startDemotions c = s := by
    rw [State.startDemotions, hstrm, SMap.mapAll, ← hstrm]
  have hserved : s.served c = [] := by simp [State.served, hlive]
  have hnone (able : List Nat) : s.chooseFrom c able = none := by
    have hcomposables (k : Nat) : s.composables c k = [] := by simp [State.composables, hserved]
    have hnoLc : (able.flatMap fun k => ((s.composables c k).filter fun e => s.sClass e = 0).map fun e => (s.slack e, e, k)) = [] := by
      simp [hcomposables]
    rw [State.chooseFrom, hgroup]
    dsimp only
    rw [hnoLc]
    simp [hcomposables]
  have hshadow : s.shadowCopies c = s := by
    unfold State.shadowCopies
    split
    · rfl
    · rw [State.coveEntries, hlive]
      exact ite_self _
  rw [State.item5, hdemote, hshadow, State.monitor, hserved, List.foldl_nil, State.switches, hserved, List.foldl_nil, State.askSlots, hnone]
  dsimp only
  rw [State.chooseSlot, hnone]

theorem setSx_sx_self (s : State) (e : Nat) (f : StreamX → StreamX) : (s.setSx e f).sx e = f (s.sx e) := get_upd_self _ _ _ _

theorem setSx_sget (s : State) (e : Nat) (f : StreamX → StreamX) (i off n : Nat) : (s.setSx e f).sget i off n = s.sget i off n := rfl

theorem setSx_sx_ne (s : State) {e i : Nat} (f : StreamX → StreamX) (h : i ≠ e) : (s.setSx e f).sx i = s.sx i := get_upd_ne _ _ _ _ _ h

/-! ### The request of an entry -/

/-- The status that a request of a FREE entry but START ends with (Table 06.4). -/
def freeVerdict (req : Nat) : Status := if req = 0 then .done else if req ≤ 4 then .busy else .range

/-- A FREE entry takes no request but START (Table 06.4). -/
theorem request_of_free {s : State} {c e : Nat} (hfree : s.sget e 0 1 = 0) (hstrm : s.strm = []) (hreq : s.sget e 1 1 ≠ 1) :
    s.request c e = (s, freeVerdict (s.sget e 1 1)) := by
  have hstate : s.sState e = some .free := by rw [State.sState, hfree]; rfl
  have hdue : s.retireDue e = none := by
    have hsx : s.sx e = {} := by rw [State.sx, hstrm]; rfl
    simp [State.retireDue, hsx, hstate]
  unfold State.request
  simp only [hstate, hdue]
  split
  · next h0 => simp [freeVerdict, h0]
  · next h1 => exact absurd h1 hreq
  · next h2 => simp [freeVerdict, h2]
  · next h3 => simp [freeVerdict, h3]
  · next h4 => simp [freeVerdict, h4]
  · next h0 h1 h2 h3 h4 =>
    rw [freeVerdict, if_neg h0, if_neg fun hle => ?_]
    interval_cases s.sget e 1 1
    exacts [h0 rfl, h1 rfl, h2 rfl, h3 rfl, h4 rfl]

theorem code_lt (x : Status) : x.code < 256 := by cases x <;> decide

/-- The entry after its request: REQ_STATUS, REQ, and one more in REQ_COUNT. -/
def answeredEntry (s : State) (e : Nat) (x : Status) : State :=
  ((s.sset e 0x02 1 x.code).sset e 0x01 1 0).sset e 0x77 1 (s.sget e 0x77 1 + 1)

theorem answeredEntry_fields (s : State) (e : Nat) (x : Status) : (answeredEntry s e x).sget e 1 1 = 0 ∧ (answeredEntry s e x).sget e 2 1 = x.code ∧
    (answeredEntry s e x).sget e 0x77 1 = (s.sget e 0x77 1 + 1) % 256 ∧
    (∀ i, i ≠ e → SMap.get 0 (answeredEntry s e x).streams i = SMap.get 0 s.streams i) := by
  unfold answeredEntry
  refine ⟨?_, ?_, ?_, fun i hi => ?_⟩
  · rw [sset_sget_of_disjoint _ _ _ (by decide) (by decide), sset_sget_self _ _ _ (by decide), Nat.zero_mod]
  · rw [sset_sget_of_disjoint _ _ _ (by decide) (by decide), sset_sget_of_disjoint _ _ _ (by decide) (by decide),
      sset_sget_self _ _ _ (by decide)]
    exact Nat.mod_eq_of_lt (code_lt x)
  · exact sset_sget_self _ _ _ (by decide)
  · rw [sset_streams_ne _ _ _ _ hi, sset_streams_ne _ _ _ _ hi, sset_streams_ne _ _ _ _ hi]

theorem answeredEntry_live {s : State} (e : Nat) (x : Status) (h : s.liveEntries = []) : (answeredEntry s e x).liveEntries = [] := by
  unfold answeredEntry
  exact liveEntries_sset _ _ (by decide) (liveEntries_sset _ _ (by decide) (liveEntries_sset _ _ (by decide) h))

theorem takeEntry_of_free {s : State} {c e : Nat} (hfree : s.sget e 0 1 = 0) (hstrm : s.strm = []) (hreq : s.sget e 1 1 ≠ 1) :
    s.takeEntry c e = { answeredEntry s e (freeVerdict (s.sget e 1 1)) with ready := SMap.put false s.ready e false } := by
  rw [State.takeEntry, request_of_free hfree hstrm hreq]
  rfl

/-- The scan takes the one ready entry of the cove (R221). -/
theorem scanReady_of_single {s : State} {c e : Nat} (hready : s.ready = [(e, true)]) (hhome : s.homeCove e = some c) :
    s.scanReady c = s.takeEntry c e := by
  have hstray : s.strayBits = s := by simp [State.strayBits, hready, hhome]
  rw [State.scanReady, hstray]
  simp [hready, hhome]

/-- Only the Gauge and the sequencer's notes differ, STEP_EN and the nodes that a cove adopts from not. -/
structure QuietTo (s : State) (c : Nat) (t : State) : Prop where
  frame : t = { s with gau := t.gau, seq := t.seq }
  stepEn : (t.seqc c).stepEn = (s.seqc c).stepEn
  adoptFrom : (t.seqc c).adoptFrom = (s.seqc c).adoptFrom

/-- Item 1 of a boundary where no step runs and nothing has a share. -/
theorem quietTo_closeBoundary {s : State} {c : Nat} (hc : c < 8) (hidle : (s.seqc c).run = none) (hpoison : s.mem.poison = [])
    (hfailed : s.mem.failed = []) (hshares : s.gau.shares = []) (n : Option Nat) :
    QuietTo s c (((s.mendTables c).closeBoundary c).modSeq c fun x => { x with boundAt := n }) := by
  obtain ⟨g, hg⟩ : ∃ g, s.closeIdle c = { s with gau := g } := ⟨_, gauged_closeIdle c hshares⟩
  rw [mendTables_of_sound c hpoison hfailed, closeBoundary_of_no_run hidle, hg]
  refine ⟨rfl, ?_, ?_⟩
  all_goals rw [modSeq_seqc_self _ _ hc]
  all_goals rfl

theorem quietTo_quarRelease {s t : State} {c : Nat} (hc : c < 8) (h : QuietTo s c t) : QuietTo s c (t.quarRelease c) := by
  obtain ⟨hframe, hen, hadopt⟩ := h
  refine ⟨?_, (congrArg SeqCove.stepEn (vget_vmod_self _ _ _ _ hc)).trans hen, (congrArg SeqCove.adoptFrom (vget_vmod_self _ _ _ _ hc)).trans hadopt⟩
  rw [hframe]
  rfl

/-- What items 4 and 5 do where one FREE entry is ready with a request but START and no stream is live: the request is
answered. -/
theorem laterItems_of_quiet {s : State} {c e : Nat} (d : CoveDecl) (as : List Adoption) (hlive : s.liveEntries = []) (hstrm : s.strm = [])
    (hadopt : (s.seqc c).adoptFrom = []) (hready : s.ready = [(e, true)]) (hhome : s.homeCove e = some c) (hreq : s.sget e 1 1 ≠ 1)
    (hgroup : s.groupSlot c = none) :
    ∃ q, ((s.adoptAll c as).scanReady c).item5 c d =
      { answeredEntry { s with seq := q } e (freeVerdict (s.sget e 1 1)) with ready := SMap.put false s.ready e false } := by
  obtain ⟨q, hq⟩ : ∃ q, (s.modSeq c fun x => { x with adoptFrom := [] }) = { s with seq := q } := ⟨_, rfl⟩
  refine ⟨q, ?_⟩
  rw [adoptAll_of_none_due as hadopt, hq, scanReady_of_single (s := { s with seq := q }) hready hhome,
    takeEntry_of_free (s := { s with seq := q }) (state_of_no_live hlive e) hstrm hreq]
  have hanswered := answeredEntry_live (s := { s with seq := q }) e (freeVerdict (s.sget e 1 1)) hlive
  have hframe : answeredEntry { s with seq := q } e (freeVerdict (s.sget e 1 1)) =
      { s with seq := q, streams := (answeredEntry { s with seq := q } e (freeVerdict (s.sget e 1 1))).streams } := rfl
  dsimp only
  rw [show ({ s with seq := q } : State).sget e 1 1 = s.sget e 1 1 from rfl]
  generalize answeredEntry { s with seq := q } e (freeVerdict (s.sget e 1 1)) = t at hanswered hframe ⊢
  generalize t.streams = streams at hframe
  subst hframe
  exact item5_of_no_live d hanswered hstrm hgroup

/-- A boundary of a cove without live streams, where one FREE entry is ready with a request but START: the request is answered,
and the rest of what changes are the Gauge, the sequencer's notes and the ready bit. -/
theorem stepBoundary_of_quiet {s : State} {c e : Nat} {d : CoveDecl} (as : List Adoption) (hc : c < 8) (hd : s.cove c = some d)
    (hidle : (s.seqc c).run = none) (hdue : s.boundaryDue c = true) (hreset : s.coveResetting c = false) (hpoison : s.mem.poison = [])
    (hfailed : s.mem.failed = []) (hlive : s.liveEntries = []) (hstrm : s.strm = []) (hshares : s.gau.shares = [])
    (hadopt : (s.seqc c).adoptFrom = []) (hready : s.ready = [(e, true)]) (hhome : s.homeCove e = some c) (hreq : s.sget e 1 1 ≠ 1)
    (hgroup : s.groupSlot c = none) :
    ∃ g q, s.stepBoundary c as = { answeredEntry { s with gau := g, seq := q } e (freeVerdict (s.sget e 1 1)) with
      ready := SMap.put false s.ready e false } := by
  have hen : (s.seqc c).stepEn = true := by
    simp only [State.boundaryDue, hidle, Bool.and_eq_true] at hdue
    exact hdue.1.1
  have hfirst := quietTo_closeBoundary hc hidle hpoison hfailed hshares (some s.now)
  unfold State.stepBoundary
  rw [hd]
  dsimp only
  rw [if_neg (by simp [hdue, hreset])]
  generalize ((s.mendTables c).closeBoundary c).modSeq c (fun x => { x with boundAt := some s.now }) = t at hfirst ⊢
  have hthird := quietTo_quarRelease hc hfirst
  have hlivet : t.liveEntries = [] := by rw [hfirst.frame]; exact hlive
  have hstrmt : t.strm = [] := by rw [hfirst.frame]; exact hstrm
  rw [retireAll_of_no_live c hlivet]
  dsimp only
  rw [freeItems_of_no_streams c hstrmt]
  generalize t.quarRelease c = u at hthird ⊢
  obtain ⟨hframe, henu, hadoptu⟩ := hthird
  rw [if_neg (by simp [henu, hen])]
  generalize u.gau = g at hframe
  generalize u.seq = q at hframe
  subst hframe
  obtain ⟨q', hlater⟩ := laterItems_of_quiet (s := { s with gau := g, seq := q }) (e := e) d as hlive hstrm (hadoptu.trans hadopt) hready hhome hreq hgroup
  exact ⟨g, q', hlater⟩

/-- The end of a fallback import: whatever its copies did, POS is what was held (R248). -/
theorem importDone_of_importing {s : State} {e n hc hr : Nat} {fb home : SlotDecl} {d : CoveDecl} (himport : (s.sx e).importing = some n)
    (hold : (s.sx e).oldRange.getLast? = some (hc, hr)) (hserve : s.serving e = some fb) (hd : s.cove hc = some d)
    (hslot : s.slot hc (s.sget e 5 1 % 8) = some home) :
    ∃ u : State, s.importDone e = (u.sset e 0x30 4 n).setSx e fun x => { x with importing := none } := by
  rw [State.importDone, himport, hold, hserve]
  dsimp only
  rw [hd, hslot]
  exact ⟨_, rfl⟩

/-- STEP_EN of a cove, written by PF0 or by the cove's own VF (Table 06.12). -/
theorem exec_seqCtrlWrite {s : State} {fn : Fin 9} {c : Cove} (v : Word) (hs : s.answers = true)
    (hfn : fn.val = 0 ∨ (fn.val = c.val + 1 ∧ (s.cove c).isSome = true)) :
    exec (.seqCtrlWrite ⟨fn, c⟩ v) s =
      .next ((if (v.getLsbD 0 && (s.seqc c).toHouse) = true then (s.closeToHouse c).modSeq c fun x => { x with toHouse := false } else s).modSeq c
        fun x => { x with stepEn := v.getLsbD 0 }) := by
  have hmay : ¬(fn.val ≠ 0 ∧ (fn.val ≠ c.val + 1 ∨ (s.cove c).isNone = true)) := by
    rintro ⟨h0, hother⟩
    obtain ⟨hown, hsome⟩ := hfn.resolve_left h0
    rcases hother with h | h
    · exact h hown
    · simp [Option.isNone_iff_eq_none.mp h] at hsome
  exact congrArg Host.Outcome.next ((whileOn_of_answers _ hs).trans (if_neg hmay))

/-- Settles O22: each clause names the arm that its hypotheses select, and reads the fields that it writes. -/
theorem boundaryTakesRequests : Obligations.BoundaryTakesRequests := by
  refine ⟨?_, ?_, ?_, ?_, ?_, ?_⟩
  · intro s c d e as hrun hd hidle hdue hreset hpoison hfailed hlive hstrm hshares hadopt hready hhome hreq hgroup
    obtain ⟨g, q, hboundary⟩ := stepBoundary_of_quiet as c.isLt hd hidle hdue hreset hpoison hfailed hlive hstrm hshares hadopt hready hhome hreq
      hgroup
    obtain ⟨hreq0, hstatus, hcount, hothers⟩ := answeredEntry_fields { s with gau := g, seq := q } e (freeVerdict (s.sget e 1 1))
    have hexec : exec (.stepBoundary c as) s = .next { answeredEntry { s with gau := g, seq := q } e (freeVerdict (s.sget e 1 1)) with
        ready := SMap.put false s.ready e false } := congrArg Host.Outcome.next ((unlessHalted_of_not_halted _ hrun).trans hboundary)
    have hready0 : SMap.get false (SMap.put false s.ready e false) e = false := get_put_self _ _ _ _
    refine ⟨_, hexec, hready0, hreq0, hstatus.trans ?_, hcount,
      hothers, rfl, rfl⟩
    simp only [freeVerdict, apply_ite Status.code]
  · intro s e p rest hrun hpending hp
    have hexec : exec (.shadowCopyDone e) s =
        .next ((s.sset e 0x70 4 p).setSx e fun x => { x with shadowPending := rest }) :=
      congrArg Host.Outcome.next ((unlessHalted_of_not_halted _ hrun).trans (by rw [hpending]))
    refine ⟨_, hexec, ?_, ?_, fun i hi => ⟨?_, ?_⟩, rfl⟩
    · rw [setSx_sget, sset_sget_self _ _ _ (by decide)]
      exact Nat.mod_eq_of_lt hp
    · rw [setSx_sx_self]
    · exact sset_streams_ne _ _ _ _ hi
    · rw [setSx_sx_ne _ _ hi]
      rfl
  · intro s e n hc hr fb home d hrun himport hn hold hserve hd hslot
    obtain ⟨u, hu⟩ := importDone_of_importing himport hold hserve hd hslot
    have hexec : exec (.fallbackImportDone e) s = .next ((u.sset e 0x30 4 n).setSx e fun x => { x with importing := none }) :=
      congrArg Host.Outcome.next ((unlessHalted_of_not_halted _ hrun).trans hu)
    refine ⟨_, hexec, ?_, ?_⟩
    · rw [setSx_sget, sset_sget_self _ _ _ (by decide)]
      exact Nat.mod_eq_of_lt hn
    · rw [setSx_sx_self]
  · intro s fn c v hs hfn hheld
    have hquiet : (v.getLsbD 0 && (s.seqc c).toHouse) = false := by rcases hheld with h | h <;> simp only [h, Bool.and_false, Bool.false_and]
    rw [exec_seqCtrlWrite v hs hfn, hquiet]
    exact ⟨_, rfl, modSeq_seqc_self _ _ c.isLt, fun d hd => modSeq_seqc_ne _ _ (Fin.val_ne_of_ne hd), rfl⟩
  · intro s fn c v hs hfn hheld hbit
    rw [exec_seqCtrlWrite v hs hfn, hbit, hheld]
    obtain ⟨g, hg⟩ : ∃ g, s.closeToHouse c = { s with gau := g } := ⟨_, gauged_closeToHouse s c⟩
    rw [Bool.and_true, if_pos rfl, hg]
    refine ⟨_, rfl, ?_, ?_, rfl, rfl⟩
    · rw [modSeq_seqc_self _ _ c.isLt]
    · rw [modSeq_seqc_self _ _ c.isLt]
      exact congrArg SeqCove.toHouse (modSeq_seqc_self _ _ c.isLt)
  · intro s fn c v hfn hother
    refine congrArg Host.Outcome.next (whileOn_of_fixed (if_pos ⟨hfn, hother.imp_right fun h => ?_⟩))
    exact congrArg Option.isNone h

end Sys2Proof.Proofs
end

section
/-! Requests of stream entries (spec/06_serving_sequencer.md, Table 06.4). -/
namespace Sys2Proof.Proofs
open Sys2Proof Sys2Proof.Machine Sys2Proof.Laws

/-- A stream in DECODE that no loss ended has no retirement due (Table 06.5). -/
theorem retireDue_of_decode {s : State} {e : Nat} (hstate : s.sState e = some .decode) (hnode : (s.sx e).nodeLost = false) :
    s.retireDue e = none := by
  simp [State.retireDue, hstate, hnode]

theorem request_of_start {s : State} {c e : Nat} (hreq : s.sget e 1 1 = 1) (hstate : s.sState e ≠ some .free) : s.request c e = (s, .busy) := by
  simp [State.request, hreq, hstate]

theorem request_of_failed_start {s : State} {c e : Nat} {x : Status} (hreq : s.sget e 1 1 = 1) (hstate : s.sState e = some .free)
    (hcheck : s.startCheck c e = some x) : s.request c e = (s, x) := by
  simp [State.request, hreq, hstate, hcheck]

theorem request_of_cancel {s : State} {c e : Nat} (hreq : s.sget e 1 1 = 2) (hstate : s.sState e = some .decode)
    (hnode : (s.sx e).nodeLost = false) : s.request c e = (s.setSState e .cancelling, .done) := by
  simp [State.request, hreq, hstate, retireDue_of_decode hstate hnode]

theorem request_of_cancel_free {s : State} {c e : Nat} (hreq : s.sget e 1 1 = 2) (hstate : s.sState e = some .free) :
    s.request c e = (s, .busy) := by
  simp [State.request, hreq, hstate]

theorem request_of_pause {s : State} {c e : Nat} (hreq : s.sget e 1 1 = 3) (hstate : s.sState e = some .decode)
    (hnode : (s.sx e).nodeLost = false) (htier : s.tierCheck e = none) : s.request c e = (s.pauseStream e, .done) := by
  simp [State.request, hreq, hstate, retireDue_of_decode hstate hnode, htier]

theorem request_of_resume {s : State} {c e : Nat} (hreq : s.sget e 1 1 = 4) (hstate : s.sState e ≠ some .paused) :
    s.request c e = (s, .busy) := by
  simp [State.request, hreq, hstate]

theorem request_of_unknown {s : State} {c e : Nat} (hreq : 5 ≤ s.sget e 1 1) : s.request c e = (s, .range) := by
  unfold State.request
  dsimp only
  split
  case h_6 => rfl
  all_goals omega

/-- A pause sets STATE, the end of the turn's hold and the demotion that PAUSE_TIER asks for (Table 06.4). -/
theorem pauseStream_fields (s : State) (e : Nat) :
    (s.pauseStream e).sState e = some .paused ∧ ((s.pauseStream e).sx e).wantDemote = some (decide (s.sget e 7 1 = 1)) := by
  unfold State.pauseStream
  constructor
  · rw [State.sState, setSx_sget, sset_sget_of_disjoint _ _ _ (by decide) (by decide)]
    exact setSState_sState s e .paused
  · rw [setSx_sx_self]

/-- Settles O23: the request's code and the stream's state select the arm. -/
theorem streamRequests : Obligations.StreamRequests := by
  intro s c e
  refine ⟨request_of_start, fun x => request_of_failed_start, fun hreq hstate hnode => ?_, request_of_cancel_free,
    fun hreq hstate hnode htier => ?_, request_of_resume, request_of_unknown⟩
  · rw [request_of_cancel hreq hstate hnode]
    exact ⟨rfl, setSState_sState s e .cancelling, rfl⟩
  · rw [request_of_pause hreq hstate hnode htier]
    exact ⟨rfl, pauseStream_fields s e⟩

end Sys2Proof.Proofs
end

section
/-! What charges, signals, records and reads of memory leave of the arbiters and of the live capacities. -/
namespace Sys2Proof.Proofs
open Sys2Proof Sys2Proof.Machine Sys2Proof.Laws

/-- The local tick, and every arbiter's period and capacity, are as they were. -/
structure ArbsKept (s t : State) : Prop where
  tick : t.tick = s.tick
  period : ∀ k, (SMap.get {} t.arbs k).period = (SMap.get {} s.arbs k).period
  cap : ∀ k, (SMap.get {} t.arbs k).cap = (SMap.get {} s.arbs k).cap

theorem ArbsKept.trans {s t u : State} (h : ArbsKept s t) (k : ArbsKept t u) : ArbsKept s u :=
  ⟨k.tick.trans h.tick, fun i => (k.period i).trans (h.period i), fun i => (k.cap i).trans (h.cap i)⟩

theorem ArbsKept.of_eq {s t : State} (ht : t.tick = s.tick) (ha : t.arbs = s.arbs) : ArbsKept s t :=
  ⟨ht, fun i => by rw [ha], fun i => by rw [ha]⟩

theorem ArbsKept.foldl {α : Type} {f : State → α → State} (hf : ∀ s x, ArbsKept s (f s x)) (l : List α) (s : State) : ArbsKept s (l.foldl f s) := by
  induction l generalizing s with
  | nil => exact .of_eq rfl rfl
  | cons x l ih => exact (hf s x).trans (ih _)

theorem ArbsKept.foldl_fst {α β : Type} {f : State × β → α → State × β} (hf : ∀ x a, ArbsKept x.1 (f x a).1) (l : List α) (x : State × β) :
    ArbsKept x.1 (l.foldl f x).1 := by
  induction l generalizing x with
  | nil => exact .of_eq rfl rfl
  | cons a l ih => exact (hf x a).trans (ih _)

theorem arbsKept_of_records {s t : State} (h : Records s t) : ArbsKept s t :=
  .of_eq ((congrArg State.tick h).trans rfl) ((congrArg State.arbs h).trans rfl)

/-- A charge adds to what an activity has used in its period (R44). -/
theorem arbsKept_charge (s : State) (res sub act n : Nat) : ArbsKept s (s.charge res sub act n) := by
  have hundeclared : (s.undeclared res act).arbs = s.arbs := (congrArg State.arbs (signals_undeclared s res act)).trans rfl
  have hspend (k : Nat) : (SMap.get {} (s.charge res sub act n).arbs k).period = (SMap.get {} s.arbs k).period ∧
      (SMap.get {} (s.charge res sub act n).arbs k).cap = (SMap.get {} s.arbs k).cap := by
    rw [State.charge, State.spend, hundeclared]
    by_cases hk : k = arbKey res sub
    · rw [hk, get_upd_self]
      exact ⟨rfl, rfl⟩
    · rw [get_upd_ne _ _ _ _ _ hk]
      exact ⟨rfl, rfl⟩
  exact ⟨(congrArg State.tick (charge_frame s res sub act n)).trans rfl, fun k => (hspend k).1, fun k => (hspend k).2⟩

/-! ### Records -/

/-- What a chain of changes keeps that change the recorder, count and signal, a Ripple occurrence keeps. -/
theorem ripple_rel {R : State → State → Prop} (hrefl : ∀ s, R s s) (htrans : ∀ s t u, R s t → R t u → R s u)
    (hrip : ∀ s x, R s { s with rip := x }) (hbump : ∀ s o n, R s (s.bump o n)) (hevent : ∀ s i, R s (s.ripEvent i))
    (s : State) (kind st cove key value : Nat) : R s (s.ripple kind st cove key value) := by
  have hnotify (s : State) (k : Nat) : R s (s.ripNotify k) := by
    unfold State.ripNotify
    split
    · exact hevent _ _
    · exact hrefl _
  have henter (s : State) (r : RipRec) : R s (s.ripEnter r) := by
    unfold State.ripEnter
    extract_lets need
    split
    · exact htrans _ _ _ (htrans _ _ _ (hrip s _) (hbump _ _ _)) (hevent _ _)
    · exact hrip s _
  unfold State.ripple
  split
  · exact hrefl _
  · extract_lets v tick fresh
    split
    · split
      · exact htrans _ _ _ (hrip s _) (hbump _ _ _)
      · exact htrans _ _ _ (hrip s _) (henter _ _)
    · split
      · extract_lets rec
        split
        · split
          · exact htrans _ _ _ (htrans _ _ _ (hrip s _) (hbump _ _ _)) (hnotify _ _)
          · exact htrans _ _ _ (hrip s _) (hbump _ _ _)
        · exact henter _ _
      · exact henter _ _

/-- Of the host interface, MSI-X alone differs. -/
def MsixOnly (s t : State) : Prop := t.hif = { s.hif with msix := t.hif.msix }

theorem MsixOnly.trans {s t u : State} (h : MsixOnly s t) (k : MsixOnly t u) : MsixOnly s u := Eq.trans k (by rw [h])

theorem MsixOnly.of_eq {s t : State} (h : t.hif = s.hif) : MsixOnly s t := by rw [MsixOnly, h]

theorem msixOnly_event (s : State) (off i vec : Nat) : MsixOnly s (s.event off i vec) := raise_hif ..

theorem msixOnly_ripple (s : State) (kind st cove key value : Nat) : MsixOnly s (s.ripple kind st cove key value) :=
  ripple_rel (R := MsixOnly) (fun _ => rfl) (fun _ _ _ => MsixOnly.trans) (fun _ _ => rfl) (fun _ _ _ => rfl) (fun _ _ => msixOnly_event ..) ..

theorem msixOnly_faultLog (s : State) (kind unit : Nat) (st : Status) (cove addr info : Nat) :
    MsixOnly s (s.faultLog kind unit st cove addr info) := by
  unfold State.faultLog
  dsimp only
  split
  · rfl
  · exact msixOnly_event ..

/-! ### Live capacities -/

/-- A channel of this state carries traffic (R254, R270). -/
def carries : ChanState → Bool
  | .live => true
  | .watch => true
  | .moving => true
  | .absent => false
  | .out => false

/-- What the live capacities rest on (Table 01.7) is as it was. -/
structure CapacityKept (s t : State) : Prop where
  fuses : t.fuses = s.fuses
  lnk : t.lnk = s.lnk
  jvk : t.jvk = s.jvk
  weir : t.weir = s.weir
  hif : t.hif = { s.hif with msix := t.hif.msix }
  temps : t.hbm.temps = s.hbm.temps
  deep : t.hbm.deepGiB = s.hbm.deepGiB
  chan : ∀ ch, carries (t.chan ch) = carries (s.chan ch)

theorem CapacityKept.trans {s t u : State} (h : CapacityKept s t) (k : CapacityKept t u) : CapacityKept s u :=
  ⟨k.fuses.trans h.fuses, k.lnk.trans h.lnk, k.jvk.trans h.jvk, k.weir.trans h.weir, k.hif.trans (by rw [h.hif]), k.temps.trans h.temps,
    k.deep.trans h.deep, fun ch => (k.chan ch).trans (h.chan ch)⟩

theorem CapacityKept.foldl {α : Type} {f : State → α → State} (hf : ∀ s x, CapacityKept s (f s x)) (l : List α) (s : State) :
    CapacityKept s (l.foldl f s) := by
  induction l generalizing s with
  | nil => exact ⟨rfl, rfl, rfl, rfl, rfl, rfl, rfl, fun _ => rfl⟩
  | cons x l ih => exact (hf s x).trans (ih _)

/-- Signals and records of any kind keep the capacities, where of the host interface only MSI-X changes. -/
theorem capacityKept_of_records {s t : State} (h : Records s t) (hhif : t.hif = { s.hif with msix := t.hif.msix }) : CapacityKept s t := by
  have hchan (ch : Nat) : t.chan ch = s.chan ch := by rw [h]; rfl
  exact ⟨(congrArg State.fuses h).trans rfl, (congrArg State.lnk h).trans rfl, (congrArg State.jvk h).trans rfl, (congrArg State.weir h).trans rfl, hhif,
    (congrArg (fun s => s.hbm.temps) h).trans rfl, (congrArg (fun s => s.hbm.deepGiB) h).trans rfl, fun ch => by rw [hchan]⟩

theorem capacityKept_event (s : State) (off i vec : Nat) : CapacityKept s (s.event off i vec) :=
  capacityKept_of_records (signals_event ..).records (msixOnly_event ..)

theorem capacityKept_ripple (s : State) (kind st cove key value : Nat) : CapacityKept s (s.ripple kind st cove key value) :=
  capacityKept_of_records (records_ripple ..) (msixOnly_ripple ..)

theorem capacityKept_faultLog (s : State) (kind unit : Nat) (st : Status) (cove addr info : Nat) :
    CapacityKept s (s.faultLog kind unit st cove addr info) := by
  have hhif := msixOnly_faultLog s kind unit st cove addr info
  unfold MsixOnly at hhif
  rw [faultLog_frame] at hhif ⊢
  exact ⟨rfl, rfl, rfl, rfl, hhif, rfl, rfl, fun _ => rfl⟩

/-- A channel that enters WATCH goes on carrying traffic (R271). -/
theorem capacityKept_watchCheck (s : State) (ch : Nat) : CapacityKept s (s.watchCheck ch) := by
  unfold State.watchCheck
  dsimp only
  split
  · next hwatch =>
    refine CapacityKept.trans (t := { s with hbm := { s.hbm with roster := vmod s.hbm.roster ch fun _ => .watch } })
      ⟨rfl, rfl, rfl, rfl, rfl, rfl, rfl, fun k => ?_⟩ (capacityKept_event ..)
    by_cases hk : k = ch
    · have hlive := hwatch.1
      subst hk
      unfold State.chan at hlive ⊢
      split at hlive
      · cases hlive
      · next hfit =>
        by_cases h384 : k < 384
        · rw [if_neg hfit, if_neg hfit, vget_vmod_self _ _ _ _ h384, hlive]
          rfl
        · rw [vmod, dif_neg h384]
    · rw [State.chan, vget_vmod_ne _ _ _ _ _ hk, State.chan]
  · exact ⟨rfl, rfl, rfl, rfl, rfl, rfl, rfl, fun _ => rfl⟩

theorem arbsKept_watchCheck (s : State) (ch : Nat) : ArbsKept s (s.watchCheck ch) := by
  unfold State.watchCheck
  dsimp only
  split
  · exact ArbsKept.trans (.of_eq (by exact rfl) (by exact rfl)) (arbsKept_of_records (signals_memEvent _ 0).records)
  · exact .of_eq rfl rfl

theorem arbsKept_faultLog (s : State) (kind unit : Nat) (st : Status) (cove addr info : Nat) :
    ArbsKept s (s.faultLog kind unit st cove addr info) := by
  rw [faultLog_frame]
  exact .of_eq rfl rfl

/-- An uncorrectable read keeps the arbiters and the capacities (R260, R264). -/
theorem kept_uncorrectable (s : State) (code act dpa : Nat) :
    ArbsKept s (s.uncorrectable code act dpa) ∧ CapacityKept s (s.uncorrectable code act dpa) := by
  unfold State.uncorrectable
  extract_lets p ch mem poisoned spoiled counted told logged hbm
  have hcounted : ArbsKept s counted ∧ CapacityKept s counted := ⟨.of_eq rfl rfl, rfl, rfl, rfl, rfl, rfl, rfl, rfl, fun _ => rfl⟩
  have htold : ArbsKept counted told ∧ CapacityKept counted told :=
    ⟨arbsKept_of_records (records_ripple ..), capacityKept_ripple ..⟩
  have hlogged : ArbsKept told logged ∧ CapacityKept told logged := ⟨arbsKept_faultLog .., capacityKept_faultLog ..⟩
  have hlast (n : SMap Nat) : ArbsKept logged { logged with hbm := { logged.hbm with ueNow := n } } ∧
      CapacityKept logged { logged with hbm := { logged.hbm with ueNow := n } } :=
    ⟨.of_eq rfl rfl, rfl, rfl, rfl, rfl, rfl, rfl, rfl, fun _ => rfl⟩
  exact ⟨((hcounted.1.trans htold.1).trans hlogged.1).trans ((hlast _).1.trans (arbsKept_watchCheck ..)),
    ((hcounted.2.trans htold.2).trans hlogged.2).trans ((hlast _).2.trans (capacityKept_watchCheck ..))⟩

/-- A read of a granule keeps the arbiters and the capacities (R259 to R261). -/
theorem kept_readGranule (s : State) (code act dpa : Nat) :
    ArbsKept s (s.readGranule code act dpa) ∧ CapacityKept s (s.readGranule code act dpa) := by
  have hbump (u : State) : ArbsKept u (u.bump (blkMEM + 0x90) 1) ∧ CapacityKept u (u.bump (blkMEM + 0x90) 1) :=
    ⟨.of_eq rfl rfl, rfl, rfl, rfl, rfl, rfl, rfl, rfl, fun _ => rfl⟩
  have hsame : ArbsKept s s ∧ CapacityKept s s := ⟨.of_eq rfl rfl, rfl, rfl, rfl, rfl, rfl, rfl, rfl, fun _ => rfl⟩
  unfold State.readGranule
  extract_lets g
  split
  · exact hsame
  split
  · exact hbump s
  split
  · exact hsame
  · unfold State.countCe
    extract_lets counted
    have hcounted (n : SMap Nat) : ArbsKept s { counted with hbm := { counted.hbm with ceNow := n } } ∧
        CapacityKept s { counted with hbm := { counted.hbm with ceNow := n } } :=
      ⟨.of_eq rfl rfl, rfl, rfl, rfl, rfl, rfl, rfl, rfl, fun _ => rfl⟩
    exact ⟨(hcounted _).1.trans (arbsKept_watchCheck ..), (hcounted _).2.trans (capacityKept_watchCheck ..)⟩
  · obtain ⟨harbs, hcapacity⟩ := kept_uncorrectable s code act dpa
    exact ⟨harbs.trans (hbump _).1, hcapacity.trans (hbump _).2⟩

theorem capacityKept_charge (s : State) (res sub act n : Nat) : CapacityKept s (s.charge res sub act n) := by
  rw [charge_frame]
  exact ⟨rfl, rfl, rfl, rfl, rfl, rfl, rfl, fun _ => rfl⟩

theorem hbmCapacity_of_kept {s t : State} (h : CapacityKept s t) : t.hbmCapacity = s.hbmCapacity := by
  unfold State.hbmCapacity
  rw [h.temps]
  refine congrArg List.sum (List.map_congr_left fun ch _ => ?_)
  have hchan := h.chan ch
  cases ht : t.chan ch <;> cases hs : s.chan ch <;> simp_all [carries]

theorem portCapacity_of_kept {s t : State} (h : CapacityKept s t) (p : Nat) : t.portCapacity p = s.portCapacity p := by
  have hentry (q : Nat) : t.portEntry q = s.portEntry q := by rw [State.portEntry, State.image, h.jvk, State.portEntry, State.image]
  have hport : t.port p = s.port p := by rw [State.port, h.lnk, State.port]
  have hmode : t.portMode p = s.portMode p := by rw [State.portMode, hentry, hentry, State.portMode]
  unfold State.portCapacity
  rw [hport, hmode, hentry]

theorem capacity_of_kept {s t : State} (h : CapacityKept s t) (r i : Nat) : t.capacity r i = s.capacity r i := by
  have hpcie : t.pcieCapacity = s.pcieCapacity := by rw [State.pcieCapacity, h.hif, State.pcieCapacity]
  have hfull : t.fullCapacity r i = s.fullCapacity r i := by
    simp only [State.fullCapacity, hbmCapacity_of_kept h, portCapacity_of_kept h, hpcie, h.deep]
  rw [State.capacity, hfull, h.weir, State.capacity]

end Sys2Proof.Proofs
end

section
/-! Budget periods (spec/01_package_overview.md, R39, R44). -/
namespace Sys2Proof.Proofs
open Sys2Proof Sys2Proof.Machine Sys2Proof.Laws

/-! ### Map-out moves before the arbitration -/

theorem kept_moveTo (s : State) (m : MapMove) (bound n : Nat) : ArbsKept s (s.moveTo m bound n) ∧ CapacityKept s (s.moveTo m bound n) := by
  have hlast (u : State) (x : Option MapMove) : ArbsKept u (u.modHbm fun h => { h with move := x }) ∧
      CapacityKept u (u.modHbm fun h => { h with move := x }) := ⟨.of_eq rfl rfl, rfl, rfl, rfl, rfl, rfl, rfl, rfl, fun _ => rfl⟩
  unfold State.moveTo
  exact ⟨((arbsKept_charge ..).trans (.foldl (fun s g => (kept_readGranule s 8 0 (64 * g)).1) _ _)).trans (hlast _ _).1,
    ((capacityKept_charge ..).trans (.foldl (fun s g => (kept_readGranule s 8 0 (64 * g)).2) _ _)).trans (hlast _ _).2⟩

theorem kept_moveOn (s : State) : ArbsKept s s.moveOn ∧ CapacityKept s s.moveOn := by
  have hsame : ArbsKept s s ∧ CapacityKept s s := ⟨.of_eq rfl rfl, rfl, rfl, rfl, rfl, rfl, rfl, rfl, fun _ => rfl⟩
  unfold State.moveOn
  split
  · exact hsame
  · extract_lets a n
    split
    · exact hsame
    · exact kept_moveTo ..

/-! ### Arbitration -/

theorem arbKey_inj {r i j : Nat} (h : arbKey r i = arbKey r j) : i = j := by unfold arbKey at h; omega

theorem arbKey_ne {r r' i i' : Nat} (h : r' ≠ r) (hi : i < 64) (hi' : i' < 64) : arbKey r' i' ≠ arbKey r i := by unfold arbKey; omega

/-- A part of a resource begins its period. -/
def beginPart (k r : Nat) (acts : List Activity) (fresh : Nat → List Activity) (ds : List Demand) (s : State) (p : Nat × Arb) : State :=
  let b := p.2.next k (s.capacity r p.1) acts (fresh p.1) (demandOf ds r p.1)
  { s with arbs := SMap.put ({} : Arb) s.arbs (arbKey r p.1) b }

/-- The parts of a resource each begin their period, in turn. -/
def beginParts (k r : Nat) (acts : List Activity) (fresh : Nat → List Activity) (ds : List Demand) (s : State) (parts : List (Nat × Arb)) : State :=
  parts.foldl (beginPart k r acts fresh ds) s

theorem beginParts_frame (k r : Nat) (acts : List Activity) (fresh : Nat → List Activity) (ds : List Demand) (s : State)
    (parts : List (Nat × Arb)) : beginParts k r acts fresh ds s parts = { s with arbs := (beginParts k r acts fresh ds s parts).arbs } := by
  induction parts generalizing s with
  | nil => rfl
  | cons p ps ih => exact (ih _).trans rfl

theorem capacityKept_of_arbs {s t : State} (h : t = { s with arbs := t.arbs }) : CapacityKept s t := by
  rw [h]
  exact ⟨rfl, rfl, rfl, rfl, rfl, rfl, rfl, fun _ => rfl⟩

theorem beginParts_other (k r : Nat) (acts : List Activity) (fresh : Nat → List Activity) (ds : List Demand) (s : State)
    (parts : List (Nat × Arb)) (key : Nat) (h : ∀ p ∈ parts, key ≠ arbKey r p.1) :
    SMap.get {} (beginParts k r acts fresh ds s parts).arbs key = SMap.get {} s.arbs key := by
  induction parts generalizing s with
  | nil => rfl
  | cons p ps ih =>
    refine (ih _ fun q hq => h q (List.mem_cons_of_mem _ hq)).trans ?_
    exact get_put_ne _ _ _ _ _ _ (h p List.mem_cons_self)

/-- Each part is in its period, at its live capacity. -/
theorem beginParts_part (k r : Nat) (acts : List Activity) (fresh : Nat → List Activity) (ds : List Demand) (s : State)
    (parts : List (Nat × Arb)) (i : Nat) (h : ∃ p ∈ parts, p.1 = i) :
    (SMap.get {} (beginParts k r acts fresh ds s parts).arbs (arbKey r i)).period = some k ∧
      (SMap.get {} (beginParts k r acts fresh ds s parts).arbs (arbKey r i)).cap = s.capacity r i := by
  induction parts generalizing s with
  | nil => simp at h
  | cons p ps ih =>
    by_cases hlater : ∃ q ∈ ps, q.1 = i
    · obtain ⟨hperiod, hcap⟩ := ih (beginPart k r acts fresh ds s p) hlater
      exact ⟨hperiod, hcap.trans (capacity_of_kept (capacityKept_of_arbs (by exact rfl)) r i)⟩
    · obtain ⟨q, hq, hqi⟩ := h
      have hp : p.1 = i := by
        rcases List.mem_cons.mp hq with rfl | hmem
        · exact hqi
        · exact absurd ⟨q, hmem, hqi⟩ hlater
      have hkeep := beginParts_other k r acts fresh ds (beginPart k r acts fresh ds s p) ps (arbKey r i)
        fun q hq hkey => hlater ⟨q, hq, (arbKey_inj hkey).symm⟩
      have hput : SMap.get {} (beginParts k r acts fresh ds s (p :: ps)).arbs (arbKey r i) =
          p.2.next k (s.capacity r p.1) acts (fresh p.1) (demandOf ds r p.1) :=
        hkeep.trans (by rw [← hp]; exact get_put_self _ _ _ _)
      rw [hput, hp]
      exact ⟨rfl, rfl⟩

theorem resourceParts_lt (s : State) (r : Nat) : s.resourceParts r < 64 := by
  unfold State.resourceParts State.portCount
  repeat' split
  all_goals decide

/-- What the arbitration of one resource does to the arbiters (R44): its parts begin their period, and the parts of other
resources are as they were. -/
theorem arbitrate_spec (s : State) (ds : List Demand) (r : Nat)
    (hdue : ∀ i, i < s.resourceParts r → (SMap.get {} s.arbs (arbKey r i)).period ≠ some (s.now / 800)) :
    (s.arbitrate ds r).tick = s.tick ∧ CapacityKept s (s.arbitrate ds r) ∧
      (∀ i, i < s.resourceParts r → (SMap.get {} (s.arbitrate ds r).arbs (arbKey r i)).period = some (s.now / 800) ∧
        (SMap.get {} (s.arbitrate ds r).arbs (arbKey r i)).cap = s.capacity r i) ∧
      (∀ r' i, r' ≠ r → i < 64 → (SMap.get {} (s.arbitrate ds r).arbs (arbKey r' i)).period = (SMap.get {} s.arbs (arbKey r' i)).period ∧
        (SMap.get {} (s.arbitrate ds r).arbs (arbKey r' i)).cap = (SMap.get {} s.arbs (arbKey r' i)).cap) := by
  unfold State.arbitrate
  extract_lets k acts parts fresh begun
  have hbegun : begun = beginParts k r acts (fun i => (fresh.filter fun x => x.1 = i).map Prod.snd) ds s parts := rfl
  have hparts (i : Nat) (hi : i < s.resourceParts r) : ∃ p ∈ parts, p.1 = i :=
    ⟨(i, (s.arb r i).ageOn), List.mem_map_of_mem (List.mem_filter.mpr ⟨List.mem_range.mpr hi, decide_eq_true (hdue i hi)⟩), rfl⟩
  have hbounds (p : Nat × Arb) (hp : p ∈ parts) : p.1 < 64 := by
    obtain ⟨i, hi, rfl⟩ := List.mem_map.mp hp
    exact (List.mem_range.mp (List.mem_filter.mp hi).1).trans (resourceParts_lt s r)
  have hframe := beginParts_frame k r acts (fun i => (fresh.filter fun x => x.1 = i).map Prod.snd) ds s parts
  have htold := ArbsKept.foldl (f := fun s x => s.ripple ripAgeing 0 (coveByte x.2.cove) (r + 256 * x.2.index)
    (((parts.find? fun p => p.1 = x.1).map fun p => SMap.get 0 p.2.starve x.2.index).getD 0))
    (fun s x => arbsKept_of_records (records_ripple ..)) fresh begun
  have htoldCap := CapacityKept.foldl (f := fun s x => s.ripple ripAgeing 0 (coveByte x.2.cove) (r + 256 * x.2.index)
    (((parts.find? fun p => p.1 = x.1).map fun p => SMap.get 0 p.2.starve x.2.index).getD 0))
    (fun s x => capacityKept_ripple ..) fresh begun
  rw [← hbegun] at hframe
  refine ⟨htold.tick.trans ((congrArg State.tick hframe).trans rfl), (capacityKept_of_arbs hframe).trans htoldCap, fun i hi => ?_, fun r' i hr hi => ?_⟩
  · rw [htold.period, htold.cap, hbegun]
    exact beginParts_part k r acts _ ds s parts i (hparts i hi)
  · rw [htold.period, htold.cap, hbegun, beginParts_other k r acts _ ds s parts (arbKey r' i) fun p hp => arbKey_ne hr (hbounds p hp) hi]
    exact ⟨rfl, rfl⟩

/-- The resources below `n` are arbitrated for the period, those from `n` on are not. -/
structure ArbitratedTo (s : State) (n : Nat) (t : State) : Prop where
  tick : t.tick = s.tick
  kept : CapacityKept s t
  done : ∀ r i, r < n → i < s.resourceParts r → (SMap.get {} t.arbs (arbKey r i)).period = some (s.now / 800) ∧
    (SMap.get {} t.arbs (arbKey r i)).cap = s.capacity r i
  due : ∀ r i, n ≤ r → i < 64 → (SMap.get {} t.arbs (arbKey r i)).period ≠ some (s.now / 800)

theorem ArbitratedTo.next {s t : State} {n : Nat} (ds : List Demand) (h : ArbitratedTo s n t) : ArbitratedTo s (n + 1) (t.arbitrate ds n) := by
  have hnow : t.now = s.now := by rw [State.now, h.tick, State.now]
  have hparts (r : Nat) : t.resourceParts r = s.resourceParts r := by simp only [State.resourceParts, State.portCount, h.kept.fuses]
  obtain ⟨htick, hkept, hmine, hothers⟩ := arbitrate_spec t ds n fun i hi => by
    rw [hnow]
    exact h.due n i (Nat.le_refl n) (hi.trans (resourceParts_lt t n))
  refine ⟨htick.trans h.tick, h.kept.trans hkept, fun r i hr hi => ?_, fun r i hr hi => ?_⟩
  · by_cases hrn : r = n
    · subst hrn
      obtain ⟨hperiod, hcap⟩ := hmine i (by rwa [hparts])
      exact ⟨hperiod.trans (by rw [hnow]), hcap.trans (capacity_of_kept h.kept r i)⟩
    · obtain ⟨hperiod, hcap⟩ := hothers r i hrn (hi.trans (resourceParts_lt s r))
      rw [hperiod, hcap]
      exact h.done r i (by omega) hi
  · rw [(hothers r i (by omega) hi).1]
    exact h.due r i (by omega) hi

theorem arbitrateAll_spec {s : State} (ds : List Demand) (h : ∀ k, (SMap.get {} s.arbs k).period ≠ some (s.now / 800)) :
    ArbitratedTo s 6 (s.arbitrateAll ds) := by
  have hall (n : Nat) : ArbitratedTo s n ((List.range n).foldl (fun s r => s.arbitrate ds r) s) := by
    induction n with
    | zero => exact ⟨rfl, ⟨rfl, rfl, rfl, rfl, rfl, rfl, rfl, fun _ => rfl⟩, fun r _ hr => absurd hr (Nat.not_lt_zero r), fun _ _ _ _ => h _⟩
    | succ n ih =>
      rw [List.range_succ, List.foldl_append]
      exact ih.next ds
  exact hall 6

/-! ### Idle intervals after the arbitration -/

theorem arbsKept_lossCredit (s : State) (key a : Nat) : ArbsKept s (s.lossCredit key a) := by
  unfold State.lossCredit State.modLossRec
  repeat' split
  all_goals exact .of_eq rfl rfl

theorem arbsKept_judgeRing (s : State) : ArbsKept s s.judgeRing := by
  unfold State.judgeRing
  extract_lets full was marked
  split
  · exact ArbsKept.trans (t := marked) (.of_eq rfl rfl) (arbsKept_of_records (signals_raise ..).records)
  · exact .of_eq rfl rfl

theorem arbsKept_putRecord (s : State) (r : EnergyRec) : ArbsKept s (s.putRecord r) := by
  unfold State.putRecord
  extract_lets n r' u
  have hcharged : ArbsKept s u := ArbsKept.trans (.of_eq (by exact rfl) (by exact rfl)) (arbsKept_charge ..)
  split
  · exact hcharged.trans (.of_eq rfl rfl)
  · exact hcharged.trans (.of_eq rfl rfl)
  · exact hcharged

theorem arbsKept_emitRecord (s : State) (r : EnergyRec) : ArbsKept s (s.emitRecord r) := by
  unfold State.emitRecord
  split
  · exact (arbsKept_putRecord ..).trans (arbsKept_judgeRing _)
  · split
    · exact .of_eq rfl rfl
    · exact ArbsKept.trans (.of_eq (by exact rfl) (by exact rfl)) (arbsKept_judgeRing _)

theorem arbsKept_closeRemote (s : State) (c gstep opened : Nat) (remote : SMap Nat) : ArbsKept s (s.closeRemote c gstep opened remote) := by
  refine ArbsKept.foldl (fun s x => ?_) _ _
  dsimp only
  split
  · exact ArbsKept.trans (.of_eq (by exact rfl) (by exact rfl)) (arbsKept_lossCredit ..)
  · exact arbsKept_emitRecord ..

theorem arbsKept_creditTo (s : State) (c key a : Nat) (m : SMap Nat) : ArbsKept s (s.creditTo c key a m).1 := by
  unfold State.creditTo
  split
  · exact .of_eq rfl rfl
  · split
    · exact ArbsKept.trans (.of_eq (by exact rfl) (by exact rfl)) (arbsKept_lossCredit ..)
    · exact .of_eq rfl rfl

theorem arbsKept_modGau (s : State) (f : Gau → Gau) : ArbsKept s (s.modGau f) := .of_eq rfl rfl

theorem arbsKept_closePool (s : State) (c p : Nat) (shares m : SMap Nat) : ArbsKept s (s.closePool c p shares m).1 := by
  unfold State.closePool
  extract_lets k acc e closed sum
  have hclosed : ArbsKept s closed := .of_eq rfl rfl
  split
  · exact hclosed.trans (.of_eq rfl rfl)
  · have hcredits := ArbsKept.foldl_fst (f := fun (x : State × SMap Nat × Nat) q =>
      let a := e * q.2 / sum
      let (s, r) := x.1.creditTo c q.1 a x.2.1
      (s, r, x.2.2 + a)) (fun x q => arbsKept_creditTo ..) shares (closed, m, 0)
    exact (hclosed.trans hcredits).trans (.of_eq rfl rfl)

theorem arbsKept_closeIdle (s : State) (c : Nat) : ArbsKept s (s.closeIdle c) := by
  unfold State.closeIdle
  extract_lets lost e credited
  have hcredited : ArbsKept s credited := ArbsKept.foldl (fun s x => arbsKept_lossCredit ..) lost s
  have hpools := ArbsKept.foldl_fst (f := fun (x : State × SMap Nat) p =>
    x.1.closePool c p (if p = poolSpillKv then SMap.get [] credited.gau.shares (11 * c + p) else []) x.2)
    (fun x p => arbsKept_closePool ..) (List.range 10) (credited, [])
  exact ((hcredited.trans hpools).trans (arbsKept_modGau ..)).trans (arbsKept_closeRemote ..)

theorem arbsKept_judgeDrained (s : State) : ArbsKept s s.judgeDrained := by
  obtain ⟨-, -, hframe⟩ := judgeDrained_spec s
  exact .of_eq ((congrArg State.tick hframe).trans rfl) ((congrArg State.arbs hframe).trans rfl)

/-- A budget period boundary: every part of every resource begins the period at its live capacity (R39, R44). -/
theorem budgetBoundary_spec {s : State} (ds : List Demand) (hnow : s.now % 800 = 0) (hpow : s.pstate ≠ 4)
    (hdue : ∀ k, (SMap.get {} s.arbs k).period ≠ some (s.now / 800)) :
    (s.budgetBoundary ds).tick = s.tick ∧ ∀ r i, r < 6 → i < s.resourceParts r →
      (SMap.get {} (s.budgetBoundary ds).arbs (arbKey r i)).period = some (s.now / 800) ∧
        (SMap.get {} (s.budgetBoundary ds).arbs (arbKey r i)).cap = s.capacity r i := by
  obtain ⟨harbs, hcapacity⟩ := kept_moveOn s
  have hnowMoved : s.moveOn.now = s.now := by rw [State.now, harbs.tick, State.now]
  have hparts (r : Nat) : s.moveOn.resourceParts r = s.resourceParts r := by simp only [State.resourceParts, State.portCount, hcapacity.fuses]
  have hall := arbitrateAll_spec (s := s.moveOn) ds fun k => by rw [harbs.period, hnowMoved]; exact hdue k
  have hidle := (arbsKept_judgeDrained (s.moveOn.arbitrateAll ds)).trans
    (ArbsKept.foldl (f := fun s c => if (s.seqc c).run.isNone && !(s.seqc c).stepEn then s.closeIdle c else s) (fun s c => by
      split
      · exact arbsKept_closeIdle ..
      · exact .of_eq rfl rfl) (List.range 8) _)
  have hgo : s.budgetBoundary ds = (List.range 8).foldl (fun s c => if (s.seqc c).run.isNone && !(s.seqc c).stepEn then s.closeIdle c else s)
      (s.moveOn.arbitrateAll ds).judgeDrained := if_neg (by simp [budgetTicks, hnow, hpow])
  rw [hgo]
  refine ⟨hidle.tick.trans (hall.tick.trans harbs.tick), fun r i hr hi => ?_⟩
  obtain ⟨hperiod, hcap⟩ := hall.done r i hr (by rwa [hparts])
  rw [hidle.period, hidle.cap, hperiod, hcap, hnowMoved]
  exact ⟨rfl, capacity_of_kept hcapacity r i⟩

end Sys2Proof.Proofs
end

section
/-! Ripple records and histograms (spec/18_ripple_recorder_and_check_values.md, R623 to R629). -/
namespace Sys2Proof.Proofs
open Sys2Proof Sys2Proof.Machine Sys2Proof.Laws

/-- Nothing but signals, the recorder and the arbiters differs. -/
def Written (s t : State) : Prop := t = { s with rip := t.rip, ctrs := t.ctrs, flags := t.flags, hif := t.hif, out := t.out, arbs := t.arbs }

theorem Written.trans {s t u : State} (h : Written s t) (k : Written t u) : Written s u := Eq.trans k (by rw [h])

theorem written_of_records {s t : State} (h : Records s t) : Written s t := Eq.trans h (by rw [h])

theorem ripNotify_rip (s : State) (k : Nat) : (s.ripNotify k).rip = s.rip := by
  unfold State.ripNotify
  split
  · exact (congrArg State.rip (signals_ripEvent s 0)).trans rfl
  · rfl

/-- What closing the open record leaves of the recorder: the record closed, and none open (R627). -/
theorem ripShut_of_open {s : State} {n : Nat} (h : s.rip.openRec = some n) :
    s.ripShut.rip = { s.rip with
      ring := SMap.put ({} : RipRec) s.rip.ring (n % 1048576) { SMap.get ({} : RipRec) s.rip.ring (n % 1048576) with closed := true }
      openRec := none } := by
  rw [State.ripShut, h]
  exact ripNotify_rip _ _

theorem ripShut_of_none {s : State} (h : s.rip.openRec = none) : s.ripShut = s := by rw [State.ripShut, h]

theorem records_ripShut (s : State) : Records s s.ripShut := by
  unfold State.ripShut
  split
  · rfl
  · exact Records.trans (by exact rfl) (records_ripNotify ..)

/-- The recorder once the open record is closed: the queue and the head are as they were, and only the open record's place in
the ring differs. -/
theorem ripShut_spec (s : State) : s.ripShut.rip.queue = s.rip.queue ∧ s.ripShut.rip.head = s.rip.head ∧
    ∀ k, SMap.get {} s.ripShut.rip.ring k =
      if (s.rip.openRec.map (· % 1048576)) = some k then { SMap.get ({} : RipRec) s.rip.ring k with closed := true } else SMap.get {} s.rip.ring k := by
  cases h : s.rip.openRec with
  | none =>
    rw [ripShut_of_none h]
    exact ⟨rfl, rfl, fun k => rfl⟩
  | some n =>
    rw [ripShut_of_open h]
    refine ⟨rfl, rfl, fun k => ?_⟩
    by_cases hk : n % 1048576 = k
    · rw [← hk, get_put_self]
      exact (if_pos rfl).symm
    · rw [get_put_ne _ _ _ _ _ _ (Ne.symm hk), if_neg (by simpa using hk)]

/-- The oldest record of the queue as it is written: open where others wait behind it and it may still grow (R627). -/
def asWritten (r : RipRec) (rest : List RipRec) : RipRec :=
  if rest.isEmpty ∨ r.kind = ripDroop ∨ r.kind = ripStepTime then r else { r with closed := false }

theorem asWritten_eq {r : RipRec} {rest : List RipRec} {shut : Bool}
    (h : shut = (r.closed && (rest.isEmpty || decide (r.kind = ripDroop) || decide (r.kind = ripStepTime)))) :
    asWritten r rest = { r with closed := shut } := by
  unfold asWritten
  split
  · next hlast => rw [h, show (rest.isEmpty || decide (r.kind = ripDroop) || decide (r.kind = ripStepTime)) = true by simpa [or_assoc] using hlast, Bool.and_true]
  · next hmore =>
    rw [h, show (rest.isEmpty || decide (r.kind = ripDroop) || decide (r.kind = ripStepTime)) = false by simpa [and_assoc] using hmore, Bool.and_false]

/-- The recorder with a record written at its head. -/
def putHead (x : Rip) (r : RipRec) (rest : List RipRec) : Rip :=
  { x with queue := rest, head := x.head + 1, openRec := if r.closed then none else some x.head,
           ring := SMap.put ({} : RipRec) x.ring (x.head % 1048576) { r with seq := x.head % 0x100000000, valid := true } }

/-- The write of the oldest queued record, where HBM can be written (R627). -/
theorem rippleWrite_of_queued {s : State} {r : RipRec} {rest : List RipRec} (hq : s.rip.queue = r :: rest) (hlive : s.rip.live = true)
    (hawake : s.asleep = false) :
    s.rippleWrite.rip = putHead s.ripShut.rip (asWritten r rest) rest ∧
      s.rippleWrite = { s with rip := s.rippleWrite.rip, ctrs := s.rippleWrite.ctrs, flags := s.rippleWrite.flags, hif := s.rippleWrite.hif,
                               out := s.rippleWrite.out, arbs := s.rippleWrite.arbs } := by
  have hshut := records_ripShut s
  have hgo : s.rippleWrite =
      if (asWritten r rest).closed then
        ((({ s.ripShut with rip := putHead s.ripShut.rip (asWritten r rest) rest } : State).bump (blkRIP + 0x40) 1).charge 0 0 0 64).ripNotify
          (asWritten r rest).kind
      else (({ s.ripShut with rip := putHead s.ripShut.rip (asWritten r rest) rest } : State).bump (blkRIP + 0x40) 1).charge 0 0 0 64 := by
    unfold State.rippleWrite
    rw [hq]
    dsimp only
    rw [if_neg (by simp [hlive, hawake])]
    rfl
  have hcharge := charge_frame (({ s.ripShut with rip := putHead s.ripShut.rip (asWritten r rest) rest } : State).bump (blkRIP + 0x40) 1) 0 0 0 64
  generalize putHead s.ripShut.rip (asWritten r rest) rest = x at hgo hcharge ⊢
  generalize s.ripShut = u at hshut hgo hcharge
  generalize (({ u with rip := x } : State).bump (blkRIP + 0x40) 1).charge 0 0 0 64 = w at hgo hcharge
  have hw : w.rip = x := (congrArg State.rip hcharge).trans rfl
  have hframe : w = { s with rip := w.rip, ctrs := w.ctrs, flags := w.flags, hif := w.hif, out := w.out, arbs := w.arbs } :=
    hcharge.trans (by rw [hshut, hcharge]; rfl)
  rw [hgo]
  split
  · have hnotify := records_ripNotify w (asWritten r rest).kind
    exact ⟨(ripNotify_rip _ _).trans hw, Written.trans hframe (written_of_records hnotify)⟩
  · exact ⟨hw, hframe⟩

/-- A record that enters the queue leaves what is gathered for the next histograms alone. -/
theorem ripEnter_gathered (s : State) (r : RipRec) : (s.ripEnter r).rip.stepTimes = s.rip.stepTimes ∧ (s.ripEnter r).rip.droops = s.rip.droops := by
  unfold State.ripEnter
  extract_lets need
  split
  · have hrip (u : State) : (u.ripEvent 1).rip = u.rip := (congrArg State.rip (signals_ripEvent u 1)).trans rfl
    rw [hrip]
    exact ⟨rfl, rfl⟩
  · exact ⟨rfl, rfl⟩

/-- A histogram enters the queue and leaves the durations and the droops that are gathered alone. -/
theorem rippleHist_spec (s : State) (kind aux cove start : Nat) (vs : List Nat) :
    Records s (s.rippleHist kind aux cove start vs) ∧ (s.rippleHist kind aux cove start vs).rip.stepTimes = s.rip.stepTimes ∧
      (s.rippleHist kind aux cove start vs).rip.droops = s.rip.droops := by
  unfold State.rippleHist
  split
  · exact ⟨rfl, rfl, rfl⟩
  · extract_lets r q
    obtain ⟨htimes, hdroops⟩ := ripEnter_gathered { s with rip := { s.rip with queue := q } } r
    exact ⟨Records.trans (by exact rfl) (records_ripEnter ..), htimes, hdroops⟩

theorem rippleHists_spec (l : SMap (List Nat)) (start : State → Nat) (s : State) :
    Records s (l.foldl (fun s x => s.rippleHist ripStepTime 0 x.1 (start s) x.2) s) ∧
      (l.foldl (fun s x => s.rippleHist ripStepTime 0 x.1 (start s) x.2) s).rip.stepTimes = s.rip.stepTimes := by
  induction l generalizing s with
  | nil => exact ⟨rfl, rfl⟩
  | cons x l ih =>
    obtain ⟨hrecords, hkept, -⟩ := rippleHist_spec s ripStepTime 0 x.1 (start s) x.2
    obtain ⟨hrest, hrestKept⟩ := ih (s.rippleHist ripStepTime 0 x.1 (start s) x.2)
    exact ⟨hrecords.trans hrest, hrestKept.trans hkept⟩

/-- At a second, the durations are recorded and none are kept (R626). -/
theorem stepTimes_of_second {s : State} (h : s.now % 100000000 = 0) : s.stepTimes.rip.stepTimes = [] ∧ Records s s.stepTimes := by
  unfold State.stepTimes
  rw [if_neg (not_not_intro h)]
  obtain ⟨hrecords, hkept⟩ := rippleHists_spec s.rip.stepTimes (fun s => s.now - 100000000) { s with rip := { s.rip with stepTimes := [] } }
  exact ⟨hkept, Records.trans (by exact rfl) hrecords⟩

/-- Settles O24: the boundary rests on `arbitrateAll_spec`; a write of a record, the close of the open one and the histograms each
change the recorder, and signal. -/
theorem periodsAndRecords : Obligations.PeriodsAndRecords := by
  refine ⟨?_, ?_, ?_, ?_, ?_, ?_⟩
  · intro s ds hnow hs hdue
    have hpow : s.pstate ≠ 4 := by
      intro h4
      simp [State.answers, h4] at hs
    obtain ⟨htick, harbs⟩ := budgetBoundary_spec ds hnow hpow hdue
    exact ⟨_, congrArg Host.Outcome.next (whileOn_of_answers _ hs), htick, fun r i hr hi _ => harbs r i hr hi⟩
  · intro s ds h
    exact congrArg Host.Outcome.next (whileOn_of_fixed (if_pos h))
  · intro s r rest shut hs hq hlive hawake hshut
    obtain ⟨hrip, hframe⟩ := rippleWrite_of_queued hq hlive hawake
    obtain ⟨-, hhead, hring⟩ := ripShut_spec s
    refine ⟨_, congrArg Host.Outcome.next (whileOn_of_answers _ hs), ?_, ?_, ?_, ?_, fun k hk => ?_, hframe⟩
    · rw [hrip]; rfl
    · rw [hrip, ← hhead]; rfl
    · rw [hrip, asWritten_eq hshut, ← hhead]; rfl
    · rw [hrip, asWritten_eq hshut, ← hhead]
      exact get_put_self _ _ _ _
    · rw [hrip, ← hring]
      exact get_put_ne _ _ _ _ _ _ (by rwa [hhead])
  · intro s n hs hopen hdue
    have hgo : exec .rippleCloseTimer s = .next s.ripShut :=
      congrArg Host.Outcome.next ((whileOn_of_answers _ hs).trans (if_pos (by simpa [hopen] using hdue)))
    refine ⟨_, hgo, ?_, ?_, records_ripShut s⟩
    · rw [ripShut_of_open hopen]
    · rw [ripShut_of_open hopen, get_put_self]
  · intro s n hopen hearly
    exact congrArg Host.Outcome.next (whileOn_of_fixed (if_neg (by simpa [hopen] using hearly)))
  · intro s hs hsecond
    exact ⟨_, congrArg Host.Outcome.next (whileOn_of_answers _ hs), stepTimes_of_second hsecond⟩

end Sys2Proof.Proofs
end

section
/-! What an access to memory changes: the memory side, the fault logs and what signals; never an engine, a queue or a stream. -/
namespace Sys2Proof.Proofs
open Sys2Proof Sys2Proof.Machine Sys2Proof.Laws

/-- A command that a package not halted runs. -/
theorem next_of_run {s t : State} {f : State → State} (hrun : s.halted = false) (h : f s = t) :
    (Host.Outcome.next (s.unlessHalted f) : Host.Outcome State Fault Refusal) = .next t := congrArg _ ((unlessHalted_of_not_halted f hrun).trans h)

/-- A command of the host that a package that answers takes. -/
theorem next_of_answers {s t : State} {f : State → State} (hs : s.answers = true) (h : f s = t) :
    (Host.Outcome.next (s.whileOn f) : Host.Outcome State Fault Refusal) = .next t := congrArg _ ((whileOn_of_answers f hs).trans h)

/-- Nothing but memory and its side, the logs, the arbiters, the transactions and what signals differs; no node is lost or restored. -/
structure Accesses (s t : State) : Prop where
  frame : t = { s with ctrs := t.ctrs, arbs := t.arbs, mem := t.mem, hbm := t.hbm, seq := t.seq, rip := t.rip, flt := t.flt, flags := t.flags,
                       hif := { s.hif with msix := t.hif.msix }, out := t.out, dtu := t.dtu, draws := t.draws, bsn := { s.bsn with txWait := t.bsn.txWait } }
  lost : ∀ n, (t.node n).lost = (s.node n).lost

theorem Accesses.refl (s : State) : Accesses s s := ⟨rfl, fun _ => rfl⟩

theorem Accesses.trans {s t u : State} (h : Accesses s t) (k : Accesses t u) : Accesses s u :=
  ⟨Eq.trans k.frame (by rw [h.frame]), fun n => (k.lost n).trans (h.lost n)⟩

theorem Accesses.after {s t u : State} (k : Accesses t u) (h : Accesses s t) : Accesses s u := h.trans k

/-- A change that leaves the fault block alone loses no node. -/
theorem lost_of_flt {s t : State} (h : t.flt = s.flt) (n : Nat) : (t.node n).lost = (s.node n).lost := congrArg NodeLoss.lost (node_of_flt n h)

theorem Accesses.foldl {α : Type} {f : State → α → State} (hf : ∀ s x, Accesses s (f s x)) (l : List α) (s : State) : Accesses s (l.foldl f s) := by
  induction l generalizing s with
  | nil => exact .refl s
  | cons x l ih => exact (hf s x).trans (ih _)

theorem accesses_of_records {s t : State} (h : Records s t) (k : MsixOnly s t) : Accesses s t :=
  ⟨Eq.trans h (by rw [← k, h]), lost_of_flt ((congrArg State.flt h).trans rfl)⟩

theorem accesses_raise (s : State) (fn vec : Nat) : Accesses s (s.raise fn vec) := accesses_of_records (signals_raise ..).records (raise_hif ..)

theorem accesses_event (s : State) (off i vec : Nat) : Accesses s (s.event off i vec) := accesses_of_records (signals_event ..).records (msixOnly_event ..)

theorem accesses_queueFlag (s : State) (c off i : Nat) : Accesses s (s.queueFlag c off i) :=
  accesses_of_records (signals_queueFlag ..).records (MsixOnly.trans (t := (s.setFlags _ _).raise _ _) (raise_hif ..) (raise_hif ..))

theorem accesses_raiseCove (s : State) (c k : Nat) : Accesses s (s.raiseCove c k) := (accesses_raise ..).trans (accesses_raise ..)

theorem accesses_ripple (s : State) (kind st cove key value : Nat) : Accesses s (s.ripple kind st cove key value) :=
  accesses_of_records (records_ripple ..) (msixOnly_ripple ..)

theorem accesses_charge (s : State) (res sub act n : Nat) : Accesses s (s.charge res sub act n) :=
  ⟨Eq.trans (charge_frame ..) (by rw [charge_frame]), lost_of_flt (charge_flt ..)⟩

theorem accesses_faultLog (s : State) (kind unit : Nat) (st : Status) (cove addr info : Nat) :
    Accesses s (s.faultLog kind unit st cove addr info) :=
  ⟨Eq.trans (faultLog_frame ..) (by rw [← show MsixOnly _ _ from msixOnly_faultLog .., faultLog_frame]), fun _ => congrArg NodeLoss.lost (faultLog_node ..)⟩

theorem accesses_writeGranule (s : State) (code dpa : Nat) (bs : List Byte) : Accesses s (s.writeGranule code dpa bs).1 :=
  ⟨Eq.trans (writeGranule_frame ..) (by rw [writeGranule_frame]), lost_of_flt ((congrArg State.flt (writeGranule_frame ..)).trans rfl)⟩

/-- A change of a node's record that keeps its loss. -/
theorem accesses_modNode {f : NodeLoss → NodeLoss} (hf : ∀ x, (f x).lost = x.lost) (s : State) (n : Nat) : Accesses s (s.modNode n f) :=
  ⟨rfl, fun m => if h : m = n then h ▸ ((congrArg NodeLoss.lost (modNode_node_self ..)).trans (hf _)) else congrArg NodeLoss.lost (modNode_node_ne _ f h)⟩

theorem accesses_watchCheck (s : State) (ch : Nat) : Accesses s (s.watchCheck ch) := by
  unfold State.watchCheck
  dsimp only
  split
  · exact Accesses.after (accesses_event ..) ⟨rfl, fun _ => rfl⟩
  · exact ⟨rfl, fun _ => rfl⟩

theorem accesses_bump (s : State) (o n : Nat) : Accesses s (s.bump o n) := ⟨rfl, fun _ => rfl⟩

theorem accesses_countCe (s : State) (ch n : Nat) : Accesses s (s.countCe ch n) := by
  unfold State.countCe
  extract_lets counted hbm
  have hcounted : Accesses s counted := (accesses_bump ..).trans (accesses_bump ..)
  have hlast (x : SMap Nat) : Accesses counted { counted with hbm := { counted.hbm with ceNow := x } } := ⟨rfl, fun _ => rfl⟩
  exact (hcounted.trans (hlast _)).trans (accesses_watchCheck ..)

theorem accesses_uncorrectable (s : State) (code act dpa : Nat) : Accesses s (s.uncorrectable code act dpa) := by
  unfold State.uncorrectable
  extract_lets p ch mem poisoned spoiled counted told logged hbm
  have hcounted : Accesses s counted := ⟨rfl, fun _ => rfl⟩
  have htold : Accesses counted told := accesses_ripple ..
  have hlogged : Accesses told logged := accesses_faultLog ..
  exact ((hcounted.trans htold).trans hlogged).trans (Accesses.after (accesses_watchCheck ..) ⟨rfl, fun _ => rfl⟩)

theorem accesses_readGranule (s : State) (code act dpa : Nat) : Accesses s (s.readGranule code act dpa) := by
  unfold State.readGranule
  extract_lets g
  split
  · exact ⟨rfl, fun _ => rfl⟩
  split
  · exact ⟨rfl, fun _ => rfl⟩
  split
  · exact ⟨rfl, fun _ => rfl⟩
  · exact Accesses.after (accesses_countCe ..) ⟨rfl, fun _ => rfl⟩
  · exact (accesses_uncorrectable ..).trans (accesses_bump ..)

theorem accesses_dtuFault (s : State) (c unit va cause : Nat) : Accesses s (s.dtuFault c unit va cause) := by
  unfold State.dtuFault
  extract_lets counted off held
  split
  · exact ⟨rfl, fun _ => rfl⟩
  · exact Accesses.after (accesses_raiseCove ..) ⟨rfl, fun _ => rfl⟩

theorem accesses_accErr (s : State) (c unit act va : Nat) (e : AccErr) : Accesses s (s.accErr c unit act va e) := by
  cases e with
  | fault cause => exact accesses_dtuFault ..
  | hostWin => exact Accesses.after (accesses_event ..) ⟨rfl, fun _ => rfl⟩
  | poisoned dpa => exact accesses_readGranule ..
  | tablePoison dpa => exact ((accesses_readGranule ..).trans (accesses_ripple ..)).trans (accesses_faultLog ..)
  | objLost => exact ⟨rfl, fun _ => rfl⟩
  | ended st => exact ⟨rfl, fun _ => rfl⟩

theorem accesses_readPieces (c unit act : Nat) (ps : List (Nat × Nat)) (s : State) : Accesses s (s.readPieces c unit act ps) := by
  induction ps generalizing s with
  | nil => exact ⟨rfl, fun _ => rfl⟩
  | cons p ps ih =>
    unfold State.readPieces
    split
    · exact accesses_accErr ..
    · split
      · exact ⟨rfl, fun _ => rfl⟩
      · exact ih s
    · extract_lets bad read
      have hread : Accesses s read := accesses_readGranule ..
      split
      · exact hread
      · exact hread.trans (ih _)

theorem accesses_chargeHbm (s : State) (c act : Nat) (k : AccKind) (ps : List (Nat × Nat)) : Accesses s (s.chargeHbm c act k ps) := by
  unfold State.chargeHbm
  extract_lets n
  split
  · exact ⟨rfl, fun _ => rfl⟩
  · exact accesses_charge ..

theorem accesses_issueRemote (s : State) (l : List TxReq) : Accesses s (s.issueRemote l) := by
  unfold State.issueRemote
  split <;> exact ⟨rfl, fun _ => rfl⟩

theorem accesses_remoteLoads (s : State) (c act va n : Nat) : Accesses s (s.remoteLoads c act va n) := by
  unfold State.remoteLoads
  extract_lets l reqs lost
  refine (accesses_issueRemote ..).after (Accesses.foldl (fun s x => ?_) lost s)
  exact accesses_modNode (f := fun y => { y with mirrorReads := y.mirrorReads + 1 }) (fun _ => rfl) ..

/-- A read of a range is an access. -/
theorem accesses_touch (s : State) (c unit act va n : Nat) : Accesses s (s.touch c unit act va n) := by
  unfold State.touch
  extract_lets pages
  have hbump : Accesses s (s.bump (coveOff blkDTU c 0x38) pages) := ⟨rfl, fun _ => rfl⟩
  exact ((hbump.trans (accesses_chargeHbm ..)).trans (accesses_readPieces ..)).trans (accesses_remoteLoads ..)

theorem accesses_writePiece (s : State) (c unit act va n : Nat) (bs : List Byte) : Accesses s (s.writePiece c unit act va n bs).1 := by
  unfold State.writePiece
  split
  · exact accesses_accErr ..
  · exact ⟨rfl, fun _ => rfl⟩
  · split
    · exact ⟨rfl, fun _ => rfl⟩
    · have hmerge (a : Nat) : Accesses s (s.mergeRead c act a n) := by
        unfold State.mergeRead
        split
        · exact accesses_readGranule ..
        · exact ⟨rfl, fun _ => rfl⟩
      exact (hmerge _).trans (accesses_writeGranule ..)

theorem accesses_writePieces (c unit act : Nat) (ps : List (Nat × Nat)) (bs : List Byte) (s : State) :
    Accesses s (s.writePieces c unit act ps bs).1 := by
  induction ps generalizing s bs with
  | nil => exact ⟨rfl, fun _ => rfl⟩
  | cons p ps ih =>
    have hpiece := accesses_writePiece s c unit act p.1 p.2 (bs.take p.2)
    unfold State.writePieces
    split
    next t e ht =>
    rw [ht] at hpiece
    split
    · exact hpiece
    · exact hpiece.trans (ih _ _)

/-- A write of a range is an access. -/
theorem accesses_poke (s : State) (c unit act va : Nat) (bs : List Byte) : Accesses s (s.poke c unit act va bs).1 := by
  have hbump (pages : Nat) : Accesses s (s.bump (coveOff blkDTU c 0x38) pages) := ⟨rfl, fun _ => rfl⟩
  unfold State.poke
  extract_lets n pages
  exact (((hbump pages).trans (accesses_chargeHbm ..)).trans (accesses_writePieces ..)).trans (accesses_issueRemote ..)

theorem accesses_put (s : State) (c unit va n v : Nat) : Accesses s (s.put c unit va n v) := accesses_poke ..

end Sys2Proof.Proofs
end

section
/-! Posting of pond lists and attention lists (spec/03_matrix_cores.md, R112, R113, R667; spec/04_attention_engines.md, R159). -/
namespace Sys2Proof.Proofs
open Sys2Proof Sys2Proof.Machine Sys2Proof.Laws

/-- A queue's flag leaves the ponds and the attention lists alone. -/
theorem queueFlag_lists (s : State) (c off i : Nat) : (s.queueFlag c off i).ponds = s.ponds ∧ (s.queueFlag c off i).atnLists = s.atnLists :=
  ⟨(congrArg State.ponds (signals_queueFlag s c off i)).trans rfl, (congrArg State.atnLists (signals_queueFlag s c off i)).trans rfl⟩

theorem accesses_lists {s t : State} (h : Accesses s t) : t.ponds = s.ponds ∧ t.atnLists = s.atnLists :=
  ⟨(congrArg State.ponds h.frame).trans rfl, (congrArg State.atnLists h.frame).trans rfl⟩

theorem exec_pondPost {s : State} (c : Cove) (lo hi : Word) (hs : s.answers = true) :
    exec (.pondPost c (some lo) hi) s = .next (s.postPond c (lo.toNat + 0x100000000 * hi.toNat)) :=
  congrArg Host.Outcome.next (whileOn_of_answers _ hs)

theorem exec_listPost {s : State} (c : Cove) (lo hi : Word) (hs : s.answers = true) :
    exec (.listPost c (some lo) hi) s = .next (s.postAttn c (lo.toNat + 0x100000000 * hi.toNat)) :=
  congrArg Host.Outcome.next (whileOn_of_answers _ hs)

/-- A header that cannot be read is a post fault (R667). -/
theorem postPond_of_unreadable {s : State} {c a : Nat} {er : AccErr} (hroom : (vget [] s.ponds c).length < 64)
    (hpeek : (s.touch c unitMxc 0 a 64).peek c a 64 = .error er) : s.postPond c a = (s.touch c unitMxc 0 a 64).queueFlag c (mxcOff c 8) 17 := by
  unfold State.postPond
  dsimp only
  rw [if_neg (by omega), hpeek]

theorem postAttn_of_unreadable {s : State} {c a : Nat} {er : AccErr} (hroom : (vget [] s.atnLists c).length < 64)
    (hpeek : (s.touch c unitAtn 0 a 64).peek c a 64 = .error er) : s.postAttn c a = (s.touch c unitAtn 0 a 64).queueFlag c (atnOff c 8) 17 := by
  unfold State.postAttn
  dsimp only
  rw [if_neg (by omega), hpeek]

/-- A list that passes its checks is queued last, once its RUNG is written (R113, R118). -/
theorem postPond_of_ok {s u : State} {c a : Nat} {h : List Byte} {m : Bool} {esc rung : Nat} {ds : List Nat} {d : CoveDecl}
    (hroom : (vget [] s.ponds c).length < 64) (hu : u = s.touch c unitMxc 0 a 64) (hd : u.cove c = some d) (hpeek : u.peek c a 64 = .ok h)
    (hcheck : u.checkList c a d.coreMask 160 true h = .ok m esc rung ds) :
    s.postPond c a = { u.put c unitMxc (a + 0x2C) 1 rung with
      ponds := vmod (u.put c unitMxc (a + 0x2C) 1 rung).ponds c fun q => q ++ [⟨a, m, esc, .done, ds.map fun x => (x, .done), false, []⟩] } := by
  unfold State.postPond
  dsimp only
  rw [if_neg (by omega), ← hu, hpeek]
  dsimp only
  rw [hd]
  dsimp only [Option.map_some, Option.getD_some]
  rw [hcheck]

theorem postAttn_of_ok {s u : State} {c a : Nat} {h : List Byte} {m : Bool} {esc rung : Nat} {ds : List Nat} {d : CoveDecl}
    (hroom : (vget [] s.atnLists c).length < 64) (hu : u = s.touch c unitAtn 0 a 64) (hd : u.cove c = some d) (hpeek : u.peek c a 64 = .ok h)
    (hcheck : u.checkList c a d.atnMask 256 false h = .ok m esc rung ds) :
    s.postAttn c a = { u with
      atnLists := vmod u.atnLists c fun q => q ++ [⟨a, false, 0, .done, ds.map fun x => (x, .done), false, []⟩] } := by
  unfold State.postAttn
  dsimp only
  rw [if_neg (by omega), ← hu, hpeek]
  dsimp only
  rw [hd]
  dsimp only [Option.map_some, Option.getD_some]
  rw [hcheck]

/-- Settles O25: the room of the queue, the header and the checks of the list decide, in this order. -/
theorem postingAList : Obligations.PostingAList := by
  refine ⟨?_, ?_, ?_, ?_, ?_, ?_⟩
  · intro s c lo hi hs hfull
    have hpost : s.postPond c (lo.toNat + 0x100000000 * hi.toNat) = s.queueFlag c (mxcOff c 8) 16 := if_pos hfull
    exact ⟨_, (exec_pondPost c lo hi hs).trans (congrArg _ hpost), queueFlag_bit _ _ _ (by decide), (signals_queueFlag ..).trans rfl⟩
  · intro s c lo hi hs hfull
    have hpost : s.postAttn c (lo.toNat + 0x100000000 * hi.toNat) = s.queueFlag c (atnOff c 8) 16 := if_pos hfull
    exact ⟨_, (exec_listPost c lo hi hs).trans (congrArg _ hpost), queueFlag_bit _ _ _ (by decide), (signals_queueFlag ..).trans rfl⟩
  · rintro s c lo hi a er hs hroom rfl hpeek
    exact ⟨_, (exec_pondPost c lo hi hs).trans (congrArg _ (postPond_of_unreadable hroom hpeek)), queueFlag_bit _ _ _ (by decide),
      (queueFlag_lists ..).1⟩
  · rintro s c lo hi a er hs hroom rfl hpeek
    exact ⟨_, (exec_listPost c lo hi hs).trans (congrArg _ (postAttn_of_unreadable hroom hpeek)), queueFlag_bit _ _ _ (by decide),
      (queueFlag_lists ..).2⟩
  · rintro s u c lo hi a h m esc rung ds d hs hroom rfl hu hd hpeek hcheck
    have hponds : (u.put c unitMxc (lo.toNat + 0x100000000 * hi.toNat + 0x2C) 1 rung).ponds = s.ponds := by
      rw [(accesses_lists (accesses_put ..)).1, hu, (accesses_lists (accesses_touch ..)).1]
    refine ⟨_, (exec_pondPost c lo hi hs).trans (congrArg _ (postPond_of_ok hroom hu hd hpeek hcheck)), ?_, fun e he => ?_⟩
    · rw [hponds]
      exact vget_vmod_self _ _ _ _ c.isLt
    · rw [hponds]
      exact vget_vmod_ne _ _ _ _ _ (Fin.val_ne_of_ne he)
  · rintro s u c lo hi a h m esc rung ds d hs hroom rfl hu hd hpeek hcheck
    have hlists : u.atnLists = s.atnLists := by rw [hu, (accesses_lists (accesses_touch ..)).2]
    refine ⟨_, (exec_listPost c lo hi hs).trans (congrArg _ (postAttn_of_ok hroom hu hd hpeek hcheck)), ?_, fun e he => ?_⟩
    · rw [hlists]
      exact vget_vmod_self _ _ _ _ c.isLt
    · rw [hlists]
      exact vget_vmod_ne _ _ _ _ _ (Fin.val_ne_of_ne he)

end Sys2Proof.Proofs
end

section
/-! Claims of tiles and attention units (spec/03_matrix_cores.md, R114 to R116, R122; spec/04_attention_engines.md, R153, R157). -/
namespace Sys2Proof.Proofs
open Sys2Proof Sys2Proof.Machine Sys2Proof.Laws

theorem accesses_claimFrom (c unit engine : Nat) (ls : List WorkList) (s : State) : Accesses s (s.claimFrom c unit engine ls).1 := by
  induction ls generalizing s with
  | nil => exact .refl s
  | cons l ls ih =>
    unfold State.claimFrom
    split
    · exact ih s
    · split
      · exact ih s
      · extract_lets w t
        have ht : Accesses s t := accesses_put ..
        split
        · exact ht
        · exact ht.trans (ih t)

/-- The run of a claimed work item, before its entry and its descriptor are read. -/
def claimed (c : Nat) (l : WorkList) (p rung a : Nat) : TileRun :=
  { cove := c, hdr := l.hdr, pass := p, descAddr := 0, desc := [], tile := 0, rung, early := none, waiting := none, lost := false, entry := a }

/-- The run once its entry and its descriptor are read. -/
def started (r : TileRun) (e d : List Byte) : TileRun := { r with descAddr := fld e 0 8, tile := fld e 8 4, desc := d }

/-- An idle core that finds work starts the tile (R114). -/
theorem tileClaim_of_work {s u : State} {k c p i : Nat} {l : WorkList} {h : List Byte} (hidle : vget none s.cores k = none)
    (hcove : s.coreCove k = some c) (hmay : s.mayClaim k = true) (hclaim : s.claimFrom c unitMxc k (vget [] s.ponds c) = (u, some (l, p, i, h))) :
    s.tileClaim k = u.tileStart k (claimed c l p (fld h 0x2C 1) (fld h 0x10 8 + 16 * i)) := by
  unfold State.tileClaim
  rw [hidle, hcove]
  dsimp only
  rw [if_neg (by simp [hmay]), hclaim]
  rfl

/-- The tile that starts, its entry and its descriptor read: what the descriptor's checks find decides (R116, R122). -/
theorem tileStart_of_read {u v : State} {k : Nat} {r : TileRun} {e d : List Byte} (he : u.peek r.cove r.entry 16 = .ok e)
    (hd : (u.touch r.cove unitMxc 0 r.entry 16).peek r.cove (fld e 0 8) 160 = .ok d)
    (hv : v = (u.touch r.cove unitMxc 0 r.entry 16).touch r.cove unitMxc 0 (fld e 0 8) 160) :
    (∀ st, v.tileEarly r.cove (fld e 0 8) d (fld e 8 4) (rsvZero e 12 4) = some st →
      u.tileStart k r = v.setCore k (some { started r e d with early := some st })) ∧
    (v.tileEarly r.cove (fld e 0 8) d (fld e 8 4) (rsvZero e 12 4) = none →
      u.tileStart k r = (v.readRung unitMxc (tdFlag d 1) (fld d 0x78 8) (started r e d)).1.setCore k
        (some (v.readRung unitMxc (tdFlag d 1) (fld d 0x78 8) (started r e d)).2)) := by
  subst hv
  unfold State.tileStart
  rw [he]
  dsimp only
  rw [hd]
  dsimp only
  refine ⟨fun st hst => ?_, fun hnone => ?_⟩
  · rw [hst]
    rfl
  · rw [hnone]
    rfl

/-- A tile without A_FOLLOW reads no rung (R122). -/
theorem readRung_of_off (s : State) (unit hdr : Nat) (r : TileRun) : s.readRung unit false hdr r = (s, r) := rfl

theorem readRung_of_read {s : State} (unit : Nat) {hdr n : Nat} {r : TileRun} (h : s.peekNat r.cove (hdr + 0x2C) 1 = .ok n) :
    s.readRung unit true hdr r = (s.touch r.cove unit 0 (hdr + 0x2C) 1, { r with follow := n }) := by
  unfold State.readRung
  dsimp only
  rw [if_neg (by decide), h]

theorem setCore_core_self (s : State) (k : Fin 128) (r : Option TileRun) : vget none (s.setCore k r).cores k = r := vget_vmod_self _ _ _ _ k.isLt

theorem setCore_core_ne (s : State) {k j : Fin 128} (r : Option TileRun) (h : j ≠ k) : vget none (s.setCore k r).cores j = vget none s.cores j :=
  vget_vmod_ne _ _ _ _ _ (Fin.val_ne_of_ne h)

theorem tileClaim_of_busy {s : State} {k : Nat} (h : vget none s.cores k ≠ none) : s.tileClaim k = s := by
  unfold State.tileClaim
  split
  · next hidle _ => exact absurd hidle h
  · rfl

/-- An idle attention unit that finds work starts the unit of the list (R159). -/
theorem unitClaim_of_work {s u : State} {k c p i : Nat} {l : WorkList} {h : List Byte} (hidle : vget none s.atns k = none)
    (hcove : s.atnCove k = some c) (hmay : s.mayClaim (0x80 + k) = true)
    (hclaim : s.claimFrom c unitAtn k (vget [] s.atnLists c) = (u, some (l, p, i, h))) :
    s.unitClaim k = u.unitStart k (claimed c l p 0xFF (fld h 0x10 8 + 16 * i)) := by
  unfold State.unitClaim
  rw [hidle, hcove]
  dsimp only
  rw [if_neg (by simp [hmay]), hclaim]
  rfl

/-- The unit that starts, its entry and its descriptor read (R153, R157). -/
theorem unitStart_of_read {u v : State} {k : Nat} {r : TileRun} {e d : List Byte} (he : u.peek r.cove r.entry 16 = .ok e)
    (hd : (u.touch r.cove unitAtn 0 r.entry 16).peek r.cove (fld e 0 8) 256 = .ok d)
    (hv : v = (u.touch r.cove unitAtn 0 r.entry 16).touch r.cove unitAtn 0 (fld e 0 8) 256) :
    (∀ st, v.unitEarly (fld e 0 8) d (fld e 8 4) (rsvZero e 12 4) = some st →
      u.unitStart k r = v.setAtn k (some { started r e d with early := some st })) ∧
    (v.unitEarly (fld e 0 8) d (fld e 8 4) (rsvZero e 12 4) = none →
      u.unitStart k r = (v.readRung unitAtn (bit (fld d 1 1) 4) (fld d 0xA0 8) (started r e d)).1.setAtn k
        (some (v.readRung unitAtn (bit (fld d 1 1) 4) (fld d 0xA0 8) (started r e d)).2)) := by
  subst hv
  unfold State.unitStart
  rw [he]
  dsimp only
  rw [hd]
  dsimp only
  refine ⟨fun st hst => ?_, fun hnone => ?_⟩
  · rw [hst]
    rfl
  · rw [hnone]
    rfl

theorem setAtn_atn_self (s : State) (k : Fin 32) (r : Option TileRun) : vget none (s.setAtn k r).atns k = r := vget_vmod_self _ _ _ _ k.isLt

theorem setAtn_atn_ne (s : State) {k j : Fin 32} (r : Option TileRun) (h : j ≠ k) : vget none (s.setAtn k r).atns j = vget none s.atns j :=
  vget_vmod_ne _ _ _ _ _ (Fin.val_ne_of_ne h)

theorem unitClaim_of_busy {s : State} {k : Nat} (h : vget none s.atns k ≠ none) : s.unitClaim k = s := by
  unfold State.unitClaim
  split
  · next hidle _ => exact absurd hidle h
  · rfl

theorem accesses_engines {s t : State} (h : Accesses s t) : t.cores = s.cores ∧ t.atns = s.atns :=
  ⟨(congrArg State.cores h.frame).trans rfl, (congrArg State.atns h.frame).trans rfl⟩

/-- The claim, the read of the entry and that of the descriptor are accesses. -/
theorem accesses_claim {s u v : State} {c unit k m n p q : Nat} {ls : List WorkList} {x : Option (WorkList × Nat × Nat × List Byte)}
    (hclaim : s.claimFrom c unit k ls = (u, x)) (hv : v = (u.touch c unit 0 m n).touch c unit 0 p q) : Accesses s v := by
  have hu := accesses_claimFrom c unit k ls s
  rw [hclaim] at hu
  rw [hv]
  exact (hu.trans (accesses_touch ..)).trans (accesses_touch ..)

/-- Settles O26: an engine that is idle and finds work starts it; what it has read of the work decides what it holds. -/
theorem claimingWork : Obligations.ClaimingWork := by
  refine ⟨?_, ?_, ?_, ?_, ?_, ?_⟩
  · rintro s u v k c a l p i h e d hrun hidle hcove hmay hclaim rfl he hd hv hearly
    have hgo := tileClaim_of_work hidle hcove hmay hclaim
    obtain ⟨hrefused, hadmitted⟩ := tileStart_of_read (k := k) (r := claimed c l p (fld h 0x2C 1) (fld h 0x10 8 + 16 * i)) he hd hv
    have hstart : u.tileStart k (claimed c l p (fld h 0x2C 1) (fld h 0x10 8 + 16 * i)) = v.setCore k
        (some { started (claimed c l p (fld h 0x2C 1) (fld h 0x10 8 + 16 * i)) e d with
          early := v.tileEarly c (fld e 0 8) d (fld e 8 4) (rsvZero e 12 4) }) := by
      cases hst : v.tileEarly c (fld e 0 8) d (fld e 8 4) (rsvZero e 12 4) with
      | some st => exact hrefused st hst
      | none =>
        rw [hadmitted hst, hearly.resolve_right (not_not_intro hst), readRung_of_off]
        rfl
    have hcores := (accesses_engines (accesses_claim hclaim hv)).1
    exact ⟨_, congrArg Host.Outcome.next ((unlessHalted_of_not_halted _ hrun).trans (hgo.trans hstart)), rfl, setCore_core_self .., fun j hj => by
      rw [setCore_core_ne _ _ hj, hcores]⟩
  · rintro s u v k c a n l p i h e d hrun hidle hcove hmay hclaim rfl he hd hv hfollow hearly hrung
    have hgo := tileClaim_of_work hidle hcove hmay hclaim
    have hstart := (tileStart_of_read (k := k) (r := claimed c l p (fld h 0x2C 1) (fld h 0x10 8 + 16 * i)) he hd hv).2 hearly
    rw [hfollow, readRung_of_read (r := started _ e d) unitMxc hrung] at hstart
    have hcores := (accesses_engines ((accesses_claim hclaim hv).trans (accesses_touch v c unitMxc 0 (fld d 0x78 8 + 0x2C) 1))).1
    exact ⟨_, _, congrArg Host.Outcome.next ((unlessHalted_of_not_halted _ hrun).trans (hgo.trans hstart)), setCore_core_self .., rfl, rfl, rfl, rfl,
      rfl, rfl, fun j hj => (setCore_core_ne _ _ hj).trans (congrArg (vget none · j) hcores)⟩
  · intro s k hbusy
    exact congrArg Host.Outcome.next (unlessHalted_of_fixed (tileClaim_of_busy hbusy))
  · rintro s u v k c a l p i h e d hrun hidle hcove hmay hclaim rfl he hd hv hearly
    have hgo := unitClaim_of_work hidle hcove hmay hclaim
    obtain ⟨hrefused, hadmitted⟩ := unitStart_of_read (k := k) (r := claimed c l p 0xFF (fld h 0x10 8 + 16 * i)) he hd hv
    have hstart : u.unitStart k (claimed c l p 0xFF (fld h 0x10 8 + 16 * i)) = v.setAtn k
        (some { started (claimed c l p 0xFF (fld h 0x10 8 + 16 * i)) e d with
          early := v.unitEarly (fld e 0 8) d (fld e 8 4) (rsvZero e 12 4) }) := by
      cases hst : v.unitEarly (fld e 0 8) d (fld e 8 4) (rsvZero e 12 4) with
      | some st => exact hrefused st hst
      | none =>
        rw [hadmitted hst, hearly.resolve_right (not_not_intro hst), readRung_of_off]
        rfl
    have hatns := (accesses_engines (accesses_claim hclaim hv)).2
    exact ⟨_, congrArg Host.Outcome.next ((unlessHalted_of_not_halted _ hrun).trans (hgo.trans hstart)), rfl, setAtn_atn_self .., fun j hj => by
      rw [setAtn_atn_ne _ _ hj, hatns]⟩
  · rintro s u v k c a n l p i h e d hrun hidle hcove hmay hclaim rfl he hd hv hfollow hearly hrung
    have hgo := unitClaim_of_work hidle hcove hmay hclaim
    have hstart := (unitStart_of_read (k := k) (r := claimed c l p 0xFF (fld h 0x10 8 + 16 * i)) he hd hv).2 hearly
    rw [hfollow, readRung_of_read (r := started _ e d) unitAtn hrung] at hstart
    have hatns := (accesses_engines ((accesses_claim hclaim hv).trans (accesses_touch v c unitAtn 0 (fld d 0xA0 8 + 0x2C) 1))).2
    exact ⟨_, _, congrArg Host.Outcome.next ((unlessHalted_of_not_halted _ hrun).trans (hgo.trans hstart)), setAtn_atn_self .., rfl, rfl, rfl, rfl,
      rfl, rfl, fun j hj => (setAtn_atn_ne _ _ hj).trans (congrArg (vget none · j) hatns)⟩
  · intro s k hbusy
    exact congrArg Host.Outcome.next (unlessHalted_of_fixed (unitClaim_of_busy hbusy))

end Sys2Proof.Proofs
end

section
/-! Ends and restarts of tiles and units, and ends of lists (spec/03_matrix_cores.md, R110, R117 to R127; spec/04_attention_engines.md, R160 to R172). -/
namespace Sys2Proof.Proofs
open Sys2Proof Sys2Proof.Machine Sys2Proof.Laws

/-- Nothing but what accesses change, the arrival counters and the energy gauge differs; no node is lost or restored. -/
structure Works (s t : State) : Prop where
  frame : t = { s with ctrs := t.ctrs, arbs := t.arbs, mem := t.mem, hbm := t.hbm, seq := t.seq, rip := t.rip, flt := t.flt, flags := t.flags,
                       hif := t.hif, out := t.out, dtu := t.dtu, draws := t.draws, bsn := { s.bsn with txWait := t.bsn.txWait },
                       arrival := t.arrival, gau := t.gau }
  lost : ∀ n, (t.node n).lost = (s.node n).lost

theorem Works.refl (s : State) : Works s s := ⟨rfl, fun _ => rfl⟩

theorem Works.trans {s t u : State} (h : Works s t) (k : Works t u) : Works s u :=
  ⟨Eq.trans k.frame (by rw [h.frame]), fun n => (k.lost n).trans (h.lost n)⟩

theorem Works.foldl {α : Type} {f : State → α → State} (hf : ∀ s x, Works s (f s x)) (l : List α) (s : State) : Works s (l.foldl f s) := by
  induction l generalizing s with
  | nil => exact .refl s
  | cons x l ih => exact (hf s x).trans (ih _)

theorem works_of_accesses {s t : State} (h : Accesses s t) : Works s t := ⟨Eq.trans h.frame (by rw [h.frame]), h.lost⟩

theorem works_put (s : State) (c unit va n v : Nat) : Works s (s.put c unit va n v) := works_of_accesses (accesses_put ..)

theorem works_noteStatus (s : State) (c : Nat) (st : Status) : Works s (s.noteStatus c st) := by
  unfold State.noteStatus
  split <;> exact ⟨rfl, fun _ => rfl⟩

theorem works_ripple (s : State) (k st c u a : Nat) : Works s (s.ripple k st c u a) := works_of_accesses (accesses_ripple ..)

theorem works_bump (s : State) (o n : Nat) : Works s (s.bump o n) := ⟨rfl, fun _ => rfl⟩

theorem works_applyDone (s : State) (field : Nat) : Works s (s.applyDone field) := by
  unfold State.applyDone
  split
  · exact ⟨Eq.trans (incArrival_frame ..) (by rw [incArrival_frame]), lost_of_flt ((congrArg State.flt (incArrival_frame ..)).trans rfl)⟩
  · exact .refl s

theorem works_addShare (s : State) (c pool key n : Nat) : Works s (s.addShare c pool key n) := ⟨rfl, fun _ => rfl⟩

theorem works_addShares (s : State) (c pool : Nat) (keys : List Nat) : Works s (s.addShares c pool keys) := Works.foldl (fun _ _ => works_addShare ..) keys s

theorem works_pokeAll (c unit : Nat) (ws : List (Nat × List Byte)) (s : State) : Works s (s.pokeAll c unit ws) := by
  induction ws generalizing s with
  | nil => exact .refl s
  | cons w ws ih => exact (works_of_accesses (accesses_poke ..)).trans (ih _)

theorem works_touchRows (c unit : Nat) (f : Fmt) (base ld k0 k1 : Nat) (rows : List Nat) (s : State) :
    Works s (s.touchRows c unit f base ld k0 k1 rows) :=
  Works.foldl (fun s r => Works.foldl (fun s p => works_of_accesses (accesses_touch ..)) _ s) rows s

/-! ### The engines -/

/-- The cores and the attention units hold the same runs. -/
def EnginesKept (s t : State) : Prop := t.cores = s.cores ∧ t.atns = s.atns

theorem EnginesKept.trans {s t u : State} (h : EnginesKept s t) (k : EnginesKept t u) : EnginesKept s u := ⟨k.1.trans h.1, k.2.trans h.2⟩

theorem enginesKept_of_works {s t : State} (h : Works s t) : EnginesKept s t :=
  ⟨(congrArg State.cores h.frame).trans rfl, (congrArg State.atns h.frame).trans rfl⟩

theorem works_lists {s t : State} (h : Works s t) : t.ponds = s.ponds ∧ t.atnLists = s.atnLists :=
  ⟨(congrArg State.ponds h.frame).trans rfl, (congrArg State.atnLists h.frame).trans rfl⟩

theorem enginesKept_modList (s : State) (c hdr : Nat) (f : WorkList → WorkList) : EnginesKept s (s.modList c hdr f) := ⟨rfl, rfl⟩

theorem enginesKept_modAtn (s : State) (c hdr : Nat) (f : WorkList → WorkList) : EnginesKept s (s.modAtn c hdr f) := ⟨rfl, rfl⟩

theorem enginesKept_endOfPass (s : State) (c hdr pass : Nat) : EnginesKept s (s.endOfPass c hdr pass) := by
  unfold State.endOfPass
  split
  · extract_lets trip rung nr s1 s2 s3 s4 s5 s6
    split
    · have h : Works s s6 := ((((((works_put ..).trans (works_put ..)).trans (works_put ..)).trans (works_put ..)).trans (works_put ..))).trans (works_bump ..)
      exact enginesKept_of_works (h.trans (works_ripple ..))
    · exact enginesKept_modList ..
  · exact ⟨rfl, rfl⟩

/-- The end of a tile frees its core and leaves every other engine as it was. -/
theorem endTile_engines (s : State) (k : Nat) (r : TileRun) (st : Status) :
    (s.endTile k r st).cores = (vmod s.cores k fun _ => none) ∧ (s.endTile k r st).atns = s.atns := by
  suffices h : EnginesKept { s with cores := vmod s.cores k fun _ => none } (s.endTile k r st) from h
  unfold State.endTile
  extract_lets freed noted listed merged marked
  have hnoted : EnginesKept freed noted := enginesKept_of_works ((works_bump ..).trans (works_noteStatus ..))
  have hlisted : EnginesKept freed listed := hnoted.trans (enginesKept_modList ..)
  have hmarked : EnginesKept freed marked := by
    refine hlisted.trans ?_
    unfold marked
    clear_value merged
    split
    · exact enginesKept_of_works (works_put ..)
    · exact ⟨rfl, rfl⟩
  split
  · exact hmarked
  · extract_lets n counted
    have hcounted : EnginesKept freed counted := hmarked.trans (enginesKept_of_works (works_put ..))
    split
    · exact hcounted.trans (enginesKept_endOfPass ..)
    · exact hcounted

theorem endTile_core_self (s : State) (k : Fin 128) (r : TileRun) (st : Status) : vget none (s.endTile k r st).cores k = none := by
  rw [(endTile_engines ..).1]
  exact vget_vmod_self _ _ _ _ k.isLt

theorem endTile_core_ne (s : State) {k j : Fin 128} (r : TileRun) (st : Status) (h : j ≠ k) :
    vget none (s.endTile k r st).cores j = vget none s.cores j := by
  rw [(endTile_engines ..).1]
  exact vget_vmod_ne _ _ _ _ _ (Fin.val_ne_of_ne h)

theorem works_touchTile (s : State) (c : Nat) (t : TileDesc) (d : List Byte) (fa : FmtWord) (ti tj : Nat) : Works s (s.touchTile c t d fa ti tj) := by
  have htouch (s : State) (va n : Nat) : Works s (s.touch c unitMxc 0 va n) := works_of_accesses (accesses_touch ..)
  have hwords (p : Prop) [Decidable p] (base : Nat) (l : List Nat) (s : State) :
      Works s (if p then l.foldl (fun s i => s.touch c unitMxc 0 (base + 4 * i) 4) s else s) := by
    split
    · exact Works.foldl (fun s i => htouch ..) l s
    · exact .refl _
  unfold State.touchTile
  extract_lets rd word s1 s2 s3 s4 s5
  have h4 : Works s s4 := (((works_touchRows ..).trans (works_touchRows ..)).trans (hwords _ (fld d 0x50 8) _ _)).trans (hwords _ (fld d 0x58 8) _ _)
  have h5 : Works s4 s5 := by
    unfold s5
    split
    · split
      · exact htouch ..
      · exact .refl _
    split
    · exact htouch ..
    split
    · exact htouch ..
    · exact .refl _
  split
  · exact (h4.trans h5).trans (htouch ..)
  · exact h4.trans h5

theorem works_tileShares (s : State) (r : TileRun) (rows replayRows : List Nat) : Works s (s.tileShares r rows replayRows) := by
  have hif (p : Prop) [Decidable p] (pool : Nat) (l : List Nat) (s : State) : Works s (if p then s.addShares r.cove pool l else s) := by
    split
    · exact works_addShares ..
    · exact .refl _
  exact (hif ..).trans (hif ..)

theorem works_tileCounts (s : State) (r : TileRun) (o : TileOut) (replayed intSat : Bool) (trips : Nat) :
    Works s (s.tileCounts r o replayed intSat trips) := by
  have hbump (p : Prop) [Decidable p] (o n : Nat) (s : State) : Works s (if p then s.bump o n else s) := by
    split <;> exact ⟨rfl, fun _ => rfl⟩
  unfold State.tileCounts
  extract_lets c watched s1 s2 s3 s4
  have h1 : Works s s1 := by
    unfold s1
    split
    · exact (works_bump ..).trans (works_put ..)
    · exact .refl _
  have h4 : Works s1 s4 := ((hbump ..).trans (hbump ..)).trans (hbump ..)
  split
  · exact (h1.trans h4).trans (works_put ..)
  · exact h1.trans h4

/-! ### The end of a tile's pass -/

/-- The state of a tile whose run is neither lost, waiting nor refused, and whose descriptor is read. -/
theorem tilePassEnd_of_outcome {s : State} {k : Nat} {r : TileRun} {d : TileDesc} (hr : vget none s.cores k = some r) (hlost : r.lost = false)
    (hwait : r.waiting = none) (hearly : r.early = none) (hrung : r.rungErr = none) (hd : readTileDesc r.descAddr r.desc = some d) :
    (∀ va e, s.tileOutcome r d = .error (va, e) → s.tilePassEnd k = s.tileError k r va e) ∧
    (∀ o b rows, s.tileOutcome r d = .ok (some o, b, rows) → s.tilePassEnd k = s.tileFinish k r d o b rows) := by
  constructor
  all_goals
    intros
    unfold State.tilePassEnd
    rw [hr]
    dsimp only
    rw [hlost, hwait, hearly, hrung, if_neg (by decide), if_neg (by decide)]
    dsimp only [Option.or]
    rw [hd]
    dsimp only
  case left va e h => rw [h]
  case right o b rows h => rw [h]

/-- A tile that knows its status ends with it (R127). -/
theorem tilePassEnd_of_known {s : State} {k : Nat} {r : TileRun} {st : Status} (hr : vget none s.cores k = some r)
    (hknown : (r.lost = true ∧ st = .objectLost) ∨ (r.lost = false ∧ r.waiting = none ∧ r.early.or r.rungErr = some st)) :
    s.tilePassEnd k = s.endTile k r st := by
  unfold State.tilePassEnd
  rw [hr]
  dsimp only
  rcases hknown with ⟨hlost, rfl⟩ | ⟨hlost, hwait, hst⟩
  · rw [if_pos hlost]
  · rw [hlost, hwait, if_neg (by decide), if_neg (by decide), hst]

theorem tilePassEnd_of_waiting {s : State} {k : Nat} {r : TileRun} (hr : vget none s.cores k = some r) (hlost : r.lost = false)
    (hwait : r.waiting ≠ none) : s.tilePassEnd k = s := by
  unfold State.tilePassEnd
  rw [hr]
  dsimp only
  rw [hlost, if_neg (by decide), if_pos (Option.isSome_iff_ne_none.mpr hwait)]

/-- The result of a tile that can be written is written, its shares and counts are kept, and the tile ends (R110, R117, R120). -/
theorem tileFinish_of_writable {s : State} {k ti tj : Nat} {r : TileRun} {d : TileDesc} {o : TileOut} {b : Bool} {rows : List Nat} {f : Fmt} {g : XNum}
    {w : TileWrite} {ws : List (Nat × List Byte)} (hf : f = (if r.mode = 2 then cFmtAt d.c.fmt r.rung else d.c.fmt))
    (hg : s.cGain r.cove d r.desc f r.tile o = .ok (some g)) (hti : ti = r.tile / ((d.n + 127) / 128)) (htj : tj = r.tile % ((d.n + 127) / 128))
    (hw : w = convertTile d r.desc (s.reg (mxcOff r.cove 0x10)).toNat f g r.tile ti tj o)
    (hws : ws = w.writes ++ (if f.isNB ∧ d.c.gainMode = 2 then [(fld r.desc 0x60 8 + 4 * r.tile, leBytes 4 (to32 g))] else []))
    (hbad : s.firstBad r.cove ws = none) :
    s.tileFinish k r d o b rows =
      ((((((s.touchTile r.cove d r.desc (r.fmtA d) ti tj).pokeAll r.cove unitMxc ws).tileShares r ((List.range o.vals.length).map (256 * ti + ·))
        (w.rows ++ rows.map (256 * ti + ·))).tileCounts r o b (!rows.isEmpty) w.trips).modList r.cove r.hdr fun l => l.meet r.descAddr o.faults).endTile k r
          (if !o.faults.isEmpty then .range else if b = true ∨ 0 < r.pass then .replayed else .done)) := by
  subst hti htj hws hw hf
  unfold State.tileFinish
  dsimp only
  rw [hg]
  dsimp only
  rw [hbad]

/-- A tile that meets a poisoned granule of an object that a refetch restores waits for its page (R127). -/
theorem tileError_of_refetchable {s : State} {k va a : Nat} {r : TileRun} (h : (s.accErr r.cove unitMxc 0 va (.poisoned a)).refetchable r.cove va = true) :
    s.tileError k r va (.poisoned a) =
      (s.accErr r.cove unitMxc 0 va (.poisoned a)).setCore k (some { r with waiting := some (va / 65536 * 65536) }) := by
  unfold State.tileError
  dsimp only
  rw [if_pos h]
  rfl

/-! ### Restarts -/

/-- A tile whose refetch has ended restarts from its first block (R127). -/
theorem tileRestart_of_released {s : State} {k : Nat} {r : TileRun} (hr : vget none s.cores k = some r) (hrel : r.released = true) (hdesc : r.desc ≠ []) :
    s.tileRestart k = (s.setCore k (some { r with waiting := none, released := false, restarted := true })).bump (mxcOff r.cove 0x50) 1 := by
  unfold State.tileRestart
  rw [hr]
  dsimp only
  rw [hrel, if_neg (by decide), if_neg (by simpa using hdesc)]

theorem tileRestart_of_held {s : State} {k : Nat} {r : TileRun} (hr : vget none s.cores k = some r) (hrel : r.released = false) : s.tileRestart k = s := by
  unfold State.tileRestart
  rw [hr]
  dsimp only
  rw [hrel, if_pos (by decide)]

/-- A unit whose refetch has ended restarts from its first chunk (R171). -/
theorem unitRestart_of_released {s : State} {k : Nat} {r : TileRun} (hr : vget none s.atns k = some r) (hrel : r.released = true) (hdesc : r.desc ≠ []) :
    s.unitRestart k = (s.setAtn k (some { r with waiting := none, released := false, restarted := true })).bump (atnOff r.cove 0x50) 1 := by
  unfold State.unitRestart
  rw [hr]
  dsimp only
  rw [hrel, if_neg (by decide), if_neg (by simpa using hdesc)]

theorem unitRestart_of_held {s : State} {k : Nat} {r : TileRun} (hr : vget none s.atns k = some r) (hrel : r.released = false) : s.unitRestart k = s := by
  unfold State.unitRestart
  rw [hr]
  dsimp only
  rw [hrel, if_pos (by decide)]

/-! ### The end of a unit -/

/-- The count of a unit frees it and leaves every other engine as it was. -/
theorem countUnit_engines (s : State) (k : Nat) (r : TileRun) (st : Status) :
    (s.countUnit k r st).atns = (vmod s.atns k fun _ => none) ∧ (s.countUnit k r st).cores = s.cores := by
  suffices h : EnginesKept { s with atns := vmod s.atns k fun _ => none } (s.countUnit k r st) from h.symm
  unfold State.countUnit
  extract_lets freed bwd counted noted listed
  have hcounted : EnginesKept freed counted := by
    unfold counted
    split <;> exact ⟨rfl, rfl⟩
  have hlisted : EnginesKept freed listed := (hcounted.trans (enginesKept_of_works (works_noteStatus ..))).trans (enginesKept_modAtn ..)
  split
  · exact hlisted
  · extract_lets n done
    have hdone : EnginesKept freed done := hlisted.trans (enginesKept_of_works (works_put ..))
    split
    · exact hdone.trans (enginesKept_modAtn ..)
    · exact hdone

theorem works_addCtr (s : State) (c addr v : Nat) : Works s (s.addCtr c addr v).1 := by
  unfold State.addCtr
  split
  · exact works_of_accesses (accesses_accErr ..)
  · next w _ =>
    have hpoke := works_of_accesses (accesses_poke s c unitAtn 0 addr (leBytes 8 ((w + v) % 0x10000000000000000)))
    split
    all_goals
      next h =>
      rw [h] at hpoke
      exact hpoke

theorem works_countCache (s : State) (c : Nat) (e : QEvents) : Works s (s.countCache c e) := (works_bump ..).trans (works_bump ..)

theorem works_poisonEnd (s : State) (c : Nat) (st : Status) : Works s (s.poisonEnd c st) := by
  unfold State.poisonEnd
  split <;> exact ⟨rfl, fun _ => rfl⟩

theorem works_unitWrites (s : State) (c : Nat) (w : Except (Nat × AccErr) (List (Nat × List Byte) × QEvents)) : Works s (s.unitWrites c w).1 := by
  unfold State.unitWrites
  split
  · exact works_of_accesses (accesses_accErr ..)
  split
  · exact works_of_accesses (accesses_accErr ..)
  · exact (works_pokeAll ..).trans (works_countCache ..)

theorem works_splitStep (s : State) (c : Nat) (x : List Byte) (a : AttnDesc) (kvh rb : Nat) (ok : Bool) : Works s (s.splitStep c x a kvh rb ok).1 := by
  have hctr := works_addCtr s c (a.splitCtr x kvh rb) (if ok then 1 else 0x100000001)
  unfold State.splitStep
  split
  next t st h =>
    rw [h] at hctr
    exact hctr
  next t w h =>
    rw [h] at hctr
    split
    · exact hctr
    · exact hctr.trans (works_unitWrites ..)

theorem works_appendStep (s : State) (c : Nat) (x : List Byte) (a : AttnDesc) (new : FmtWord) (kvh : Nat) : Works s (s.appendStep c x a new kvh).1 := by
  have hctr := works_addCtr s c (AttnDesc.appendCtr x kvh) 1
  unfold State.appendStep
  split
  · exact .refl _
  split
  next t st h =>
    rw [h] at hctr
    exact hctr
  next t w h =>
    rw [h] at hctr
    split
    · exact hctr
    have hwrites := works_unitWrites t c (t.appendWrites c x a new kvh (List.range a.lq))
    split
    next u st hu =>
    rw [hu] at hwrites
    dsimp only
    split
    · exact (hctr.trans hwrites).trans (works_bump ..)
    · exact hctr.trans hwrites

/-- The split counter, the append and the count of a forward unit free it and leave every other engine as it was. -/
theorem closeForward_engines (s : State) (k : Nat) (r : TileRun) (a : AttnDesc) (st : Status) :
    (s.closeForward k r a st).atns = (vmod s.atns k fun _ => none) ∧ (s.closeForward k r a st).cores = s.cores := by
  unfold State.closeForward
  extract_lets kvh rb
  have hsplit := works_splitStep s r.cove r.desc a kvh rb (decide (st = .done))
  split
  next t s1 ht =>
  rw [ht] at hsplit
  have happend := works_appendStep (t.poisonEnd r.cove s1) r.cove r.desc a (r.newFmt a) kvh
  split
  next u s2 hu =>
  rw [hu] at happend
  obtain ⟨hcores, hatns⟩ := enginesKept_of_works (((hsplit.trans (works_poisonEnd ..)).trans happend).trans (works_poisonEnd u r.cove s2))
  rw [(countUnit_engines ..).1, (countUnit_engines ..).2, hatns, hcores]
  exact ⟨rfl, rfl⟩

theorem works_touchUnit (s : State) (c : Nat) (l : List (Nat × Nat)) : Works s (s.touchUnit c l) :=
  Works.foldl (fun _ _ => works_of_accesses (accesses_touch ..)) l s

theorem works_chargeUnit (s : State) (r : TileRun) (a : AttnDesc) : Works s (s.chargeUnit r a) := works_addShare ..

theorem enginesKept_meetFaults (s : State) (r : TileRun) (regions : List (Nat × Nat)) : EnginesKept s (s.meetFaults r regions) := ⟨rfl, rfl⟩

/-- A unit that knows its status is counted with it (R157). -/
theorem unitEnd_of_early {s : State} {k : Nat} {r : TileRun} {st : Status} (hr : vget none s.atns k = some r) (hearly : r.early = some st) :
    s.unitEnd k = s.countUnit k r st := by
  unfold State.unitEnd
  rw [hr]
  dsimp only
  rw [hearly]

/-- A unit whose descriptor passed its checks, that lost no object and waits for none, runs (R157). -/
theorem unitEnd_of_run {s : State} {k : Nat} {r : TileRun} {a : AttnDesc} (hr : vget none s.atns k = some r) (hearly : r.early = none)
    (ha : readAttnDesc r.descAddr r.desc = some a) (hlost : r.lost = false) (hwait : r.waiting = none) (hrung : r.rungErr = none) :
    s.unitEnd k = s.runUnit k r a := by
  unfold State.unitEnd
  rw [hr]
  dsimp only
  rw [hearly, ha]
  dsimp only
  rw [hlost, hwait, hrung, if_neg (by decide), if_neg (by decide)]

theorem unitFinish_of_writable {s : State} {k : Nat} {r : TileRun} {w : List (Nat × List Byte)} (hbad : s.firstBad r.cove w = none) (a : AttnDesc)
    (reads : List (Nat × Nat)) (special : Nat) (faults : List (Nat × Nat)) (count : State → State) :
    s.unitFinish k r a reads w special faults count =
      (((count (((s.touchUnit r.cove reads).chargeUnit r a).pokeAll r.cove unitAtn w)).bump (atnOff r.cove 0x38) special).meetFaults r faults).closeUnit k r a
        (if faults.isEmpty then .done else .range) := by
  unfold State.unitFinish
  rw [hbad]

/-- A unit that has run and whose result can be written: its reads, its charge and its writes. -/
def unitWritten (s : State) (r : TileRun) (a : AttnDesc) (reads : List (Nat × Nat)) (w : List (Nat × List Byte)) : State :=
  ((s.touchUnit r.cove reads).chargeUnit r a).pokeAll r.cove unitAtn w

theorem works_unitWritten (s : State) (r : TileRun) (a : AttnDesc) (reads : List (Nat × Nat)) (w : List (Nat × List Byte)) :
    Works s (unitWritten s r a reads w) := ((works_touchUnit ..).trans (works_chargeUnit ..)).trans (works_pokeAll ..)

/-- The counts of a forward unit leave the attention units alone. -/
theorem forward_atns (s : State) (r : TileRun) (a : AttnDesc) (reads : List (Nat × Nat)) (w : List (Nat × List Byte)) (ev : QEvents) (n : Nat)
    (faults : List (Nat × Nat)) :
    ((((unitWritten s r a reads w).countCache r.cove ev).bump (atnOff r.cove 0x38) n).meetFaults r faults).atns = s.atns :=
  ((enginesKept_of_works (((works_unitWritten s r a reads w).trans (works_countCache ..)).trans (works_bump ..))).trans (enginesKept_meetFaults ..)).2

/-- The counts of a backward unit leave the attention units alone. -/
theorem backward_atns (s : State) (r : TileRun) (a : AttnDesc) (reads : List (Nat × Nat)) (w : List (Nat × List Byte)) (sat nans n : Nat)
    (faults : List (Nat × Nat)) :
    (((((unitWritten s r a reads w).bump (bwdOff r.cove 0x08) sat).bump (bwdOff r.cove 0x10) nans).bump (atnOff r.cove 0x38) n).meetFaults r faults).atns
      = s.atns :=
  ((enginesKept_of_works ((((works_unitWritten s r a reads w).trans (works_bump ..)).trans (works_bump ..)).trans (works_bump ..))).trans
    (enginesKept_meetFaults ..)).2

/-- What a forward unit writes: its rows, or the rows of its split (R160, R161). -/
def forwardWrites (r : TileRun) (a : AttnDesc) (o : UnitOut) (kvh : Nat) : List (List (Nat × List Byte) × QEvents) :=
  if a.splits = 1 then o.rows.map fun y => rowWrites r.desc a kvh y.1 y.2
  else o.rows.zipIdx.map fun y => ([(a.partAddr r.desc r.tile + y.2 * (4 * a.d + 8), partialBytes y.1.2)], ({} : QEvents))

/-- A forward unit that has run and whose result can be written (R160). -/
theorem runUnit_of_forward {s : State} {k : Nat} {r : TileRun} {a : AttnDesc} {o : UnitOut} (hbwd : a.bwd = false)
    (hout : s.runForward r.cove r.desc a (r.qFmt a) (r.newFmt a) (r.tile / (a.rb * a.splits)) (r.tile / a.splits % a.rb) (r.tile % a.splits) = .ok (some o))
    (hbad : s.firstBad r.cove ((forwardWrites r a o (r.tile / (a.rb * a.splits))).flatMap Prod.fst) = none) :
    s.runUnit k r a =
      (((((unitWritten s r a (a.readRanges r.desc (r.qFmt a) (r.newFmt a) (r.tile / (a.rb * a.splits)) [r.tile / a.splits % a.rb]
          (a.positions (r.tile / a.splits % a.rb) (a.splitChunks (r.tile / a.splits % a.rb) (r.tile % a.splits))))
        ((forwardWrites r a o (r.tile / (a.rb * a.splits))).flatMap Prod.fst)).countCache r.cove
          ((forwardWrites r a o (r.tile / (a.rb * a.splits))).foldl (fun t y => t.add y.2) ({} : QEvents))).bump (atnOff r.cove 0x38) o.special).meetFaults r
            o.faults).closeForward k r a (if o.faults.isEmpty then .done else .range)) := by
  unfold State.runUnit
  dsimp only
  rw [hbwd, if_neg (by decide), hout]
  dsimp only
  refine (unitFinish_of_writable hbad ..).trans ?_
  unfold State.closeUnit
  rw [hbwd, if_neg (by decide)]
  rfl

/-- A backward unit that has run and whose result can be written (R166). -/
theorem runUnit_of_backward {s : State} {k kvh : Nat} {rbs ps : List Nat} {r : TileRun} {a : AttnDesc} {o : BackOut} (hbwd : a.bwd = true)
    (hreads : a.backReads r.tile = (kvh, rbs, ps)) (hout : s.runBackward r.cove r.desc a (r.qFmt a) (r.newFmt a) r.tile = .ok (some o))
    (hbad : s.firstBad r.cove o.writes = none) :
    s.runUnit k r a =
      ((((((unitWritten s r a (a.readRanges r.desc (r.qFmt a) (r.newFmt a) kvh rbs ps) o.writes).bump (bwdOff r.cove 0x08) o.sat).bump
        (bwdOff r.cove 0x10) o.nans).bump (atnOff r.cove 0x38) o.special).meetFaults r o.faults).countUnit k r
          (if o.faults.isEmpty then .done else .range)) := by
  unfold State.runUnit
  dsimp only
  rw [if_pos hbwd, hout]
  dsimp only
  rw [hreads]
  dsimp only
  refine (unitFinish_of_writable hbad ..).trans ?_
  unfold State.closeUnit
  rw [if_pos hbwd]
  rfl

/-! ### The end of a list -/

theorem works_completeDesc (s : State) (c rung : Nat) (l : WorkList) (x : Nat × Status) : Works s (s.completeDesc c rung l x) := by
  unfold State.completeDesc
  split
  · exact .refl _
  · extract_lets fin n marked
    have hmarked : Works s marked := works_put ..
    split
    · exact hmarked
    · exact (hmarked.trans (works_bump ..)).trans (works_ripple ..)

/-- The DONE_CTR of a work item, where it can be read, counts its completion. -/
def descDone (s : State) (c a : Nat) : State :=
  match s.peekNat c a 4 with
  | .ok v => s.applyDone v
  | .error _ => s

theorem works_descDone (s : State) (c a : Nat) : Works s (descDone s c a) := by
  unfold descDone
  split
  · exact works_applyDone ..
  · exact .refl _

/-- The completion of a list leaves both queues as they are. -/
theorem works_completeList (s : State) (c : Nat) (l : WorkList) (h : List Byte) : Works s (s.completeList c l h) := by
  unfold State.completeList
  extract_lets s1 s2
  have h1 : Works s s1 := Works.foldl (fun _ _ => works_completeDesc ..) ..
  have h2 : Works s1 s2 := Works.foldl (fun s (x : Nat × Status) => works_descDone s c (x.1 + 0x88)) ..
  exact (((h1.trans h2).trans (works_put ..)).trans (works_noteStatus ..)).trans (works_applyDone ..)

theorem works_completeUnits (s : State) (c : Nat) (l : WorkList) : Works s (s.completeUnits c l) := by
  unfold State.completeUnits
  extract_lets s1 s2 s3 s4
  have h1 : Works s s1 := Works.foldl (fun _ _ => works_ripple ..) ..
  have h2 : Works s1 s2 := Works.foldl (fun _ _ => works_put ..) ..
  have h3 : Works s2 s3 := Works.foldl (fun s (x : Nat × Status) => works_descDone s c (x.1 + 0x7C)) ..
  have h4 : Works s3 s4 := (works_put ..).trans (works_noteStatus ..)
  exact (((h1.trans h2).trans h3).trans h4).trans (works_descDone s4 c (l.hdr + 0x30))

theorem pondComplete_of_ended {s : State} {c : Nat} {l : WorkList} {h : List Byte} (hl : (vget [] s.ponds c).find? (fun l => l.ended) = some l)
    (hh : s.peek c l.hdr 64 = .ok h) : s.pondComplete c = ({ s with ponds := vmod s.ponds c fun q => q.erase l } : State).completeList c l h := by
  have hpeek : ({ s with ponds := vmod s.ponds c fun q => q.erase l } : State).peek c l.hdr 64 = .ok h := hh
  unfold State.pondComplete
  rw [hl]
  dsimp only
  rw [hpeek]

theorem atnComplete_of_ended {s : State} {c : Nat} {l : WorkList} (hl : (vget [] s.atnLists c).find? (fun l => l.ended) = some l) :
    s.atnComplete c = ({ s with atnLists := vmod s.atnLists c fun q => q.erase l } : State).completeUnits c l := by
  unfold State.atnComplete
  rw [hl]

theorem find_ended_eq_none {q : List WorkList} (h : ∀ l ∈ q, l.ended = false) : q.find? (fun l => l.ended) = none :=
  List.find?_eq_none.mpr fun l hl => by simp [h l hl]

/-- Settles O27: each end or restart follows what the engine's run holds; each frees its engine, or leaves its run to wait or to go on. -/
theorem endsOfTilesAndUnits : Obligations.EndsOfTilesAndUnits := by
  refine ⟨?_, ?_, ?_, ?_, ?_, ?_, ?_, ?_, ?_, ?_, ?_, ?_, ?_, ?_, ?_⟩
  · rintro s u k r d o b rows f g w ws ti tj hrun hr hlost hwait hearly hrung hd hout hf hg hti htj hw hws hbad rfl
    have hend := ((tilePassEnd_of_outcome hr hlost hwait hearly hrung hd).2 o b rows hout).trans (tileFinish_of_writable hf hg hti htj hw hws hbad)
    have hwrites := ((works_touchTile s r.cove d r.desc (r.fmtA d) ti tj).trans (works_pokeAll r.cove unitMxc ws _)).trans
      (works_tileShares _ r ((List.range o.vals.length).map (256 * ti + ·)) (w.rows ++ rows.map (256 * ti + ·)))
    have hcores := (enginesKept_of_works (hwrites.trans (works_tileCounts _ r o b (!rows.isEmpty) w.trips))).1
    exact ⟨_, _, next_of_run hrun hend, endTile_core_self .., fun j hj =>
      (endTile_core_ne _ _ _ hj).trans (congrArg (vget none · j) hcores), rfl, rfl⟩
  · intro s k r st hrun hr hknown
    exact ⟨_, next_of_run hrun (tilePassEnd_of_known hr hknown), endTile_core_self .., fun j hj =>
      endTile_core_ne _ _ _ hj, rfl⟩
  · intro s k r d va a hrun hr hlost hwait hearly hrung hd hout hfetch
    have hend := ((tilePassEnd_of_outcome hr hlost hwait hearly hrung hd).1 va _ hout).trans (tileError_of_refetchable hfetch)
    have hcores := (enginesKept_of_works (works_of_accesses (accesses_accErr s r.cove unitMxc 0 va (.poisoned a)))).1
    exact ⟨_, next_of_run hrun hend, setCore_core_self .., fun j hj =>
      (setCore_core_ne _ _ hj).trans (congrArg (vget none · j) hcores)⟩
  · intro s k r hrun hr hlost hwait
    exact congrArg Host.Outcome.next (unlessHalted_of_fixed (tilePassEnd_of_waiting hr hlost hwait))
  · intro s k r hrun hr hrel hdesc
    exact ⟨_, next_of_run hrun (tileRestart_of_released hr hrel hdesc), setCore_core_self .., fun j hj => setCore_core_ne _ _ hj, bump_ctr_self .., rfl⟩
  · intro s k r hr hrel
    exact congrArg Host.Outcome.next (unlessHalted_of_fixed (tileRestart_of_held hr hrel))
  · intro s k r hrun hr hrel hdesc
    exact ⟨_, next_of_run hrun (unitRestart_of_released hr hrel hdesc), setAtn_atn_self .., fun j hj => setAtn_atn_ne _ _ hj, bump_ctr_self .., rfl⟩
  · intro s k r hr hrel
    exact congrArg Host.Outcome.next (unlessHalted_of_fixed (unitRestart_of_held hr hrel))
  · intro s k r st hrun hr hearly
    refine ⟨_, next_of_run hrun (unitEnd_of_early hr hearly), ?_, fun j hj => ?_, rfl⟩
    · rw [(countUnit_engines ..).1]
      exact vget_vmod_self _ _ _ _ k.isLt
    · rw [(countUnit_engines ..).1]
      exact vget_vmod_ne _ _ _ _ _ (Fin.val_ne_of_ne hj)
  · rintro s u k r a o w kvh rb sp hrun hr hearly ha hbwd hlost hwait hrung rfl rfl rfl hout rfl hbad rfl
    refine ⟨_, _, next_of_run hrun
      ((unitEnd_of_run hr hearly ha hlost hwait hrung).trans (runUnit_of_forward hbwd hout hbad)), ?_, fun j hj => ?_, rfl, rfl⟩
    · rw [(closeForward_engines ..).1]
      exact vget_vmod_self _ _ _ _ k.isLt
    · rw [(closeForward_engines ..).1]
      exact (vget_vmod_ne _ _ _ _ _ (Fin.val_ne_of_ne hj)).trans (congrArg (vget none · j) (forward_atns ..))
  · rintro s u k r a o kvh rbs ps hrun hr hearly ha hbwd hlost hwait hrung hreads hout hbad rfl
    refine ⟨_, _, next_of_run hrun
      ((unitEnd_of_run hr hearly ha hlost hwait hrung).trans (runUnit_of_backward hbwd hreads hout hbad)), ?_, fun j hj => ?_, rfl, rfl⟩
    · rw [(countUnit_engines ..).1]
      exact vget_vmod_self _ _ _ _ k.isLt
    · rw [(countUnit_engines ..).1]
      exact (vget_vmod_ne _ _ _ _ _ (Fin.val_ne_of_ne hj)).trans (congrArg (vget none · j) (backward_atns ..))
  · intro s c l h hrun hl hh
    have hponds := (works_lists (works_completeList { s with ponds := vmod s.ponds c fun q => q.erase l } c l h)).1
    refine ⟨_, _, next_of_run hrun (pondComplete_of_ended hl hh), rfl, ?_, ?_, fun e he => ?_⟩
    · rw [hponds]
    · rw [hponds]
      exact vget_vmod_self _ _ _ _ c.isLt
    · rw [hponds]
      exact vget_vmod_ne _ _ _ _ _ (Fin.val_ne_of_ne he)
  · intro s c hnone
    refine congrArg Host.Outcome.next (unlessHalted_of_fixed ?_)
    unfold State.pondComplete
    rw [find_ended_eq_none hnone]
  · intro s c l hrun hl
    have hlists := (works_lists (works_completeUnits { s with atnLists := vmod s.atnLists c fun q => q.erase l } c l)).2
    refine ⟨_, _, next_of_run hrun (atnComplete_of_ended hl), rfl, ?_, ?_, fun e he => ?_⟩
    · rw [hlists]
    · rw [hlists]
      exact vget_vmod_self _ _ _ _ c.isLt
    · rw [hlists]
      exact vget_vmod_ne _ _ _ _ _ (Fin.val_ne_of_ne he)
  · intro s c hnone
    refine congrArg Host.Outcome.next (unlessHalted_of_fixed ?_)
    unfold State.atnComplete
    rw [find_ended_eq_none hnone]

end Sys2Proof.Proofs
end

section
/-! Shoal descriptors: posting and starting (spec/05_expert_routing.md, R182 to R200, R210). -/
namespace Sys2Proof.Proofs
open Sys2Proof Sys2Proof.Machine Sys2Proof.Laws

/-! ### Elements of a list -/

theorem nth_modNth_self {α : Type} (d : α) {l : List α} {i : Nat} (f : α → α) (h : i < l.length) : nth d (modNth l i f) i = f (nth d l i) := by
  simp [nth, modNth, List.getD_eq_getElem?_getD, h]

theorem nth_modNth_ne {α : Type} (d : α) (l : List α) {i j : Nat} (f : α → α) (h : j ≠ i) : nth d (modNth l i f) j = nth d l j := by
  simp [nth, modNth, List.getD_eq_getElem?_getD, Ne.symm h]

theorem length_modNth {α : Type} (l : List α) (i : Nat) (f : α → α) : (modNth l i f).length = l.length := List.length_modify ..

theorem nth_mem {α : Type} (d : α) {l : List α} {i : Nat} (h : i < l.length) : nth d l i ∈ l := by
  rw [nth, List.getD_eq_getElem _ _ h]
  exact List.getElem_mem h

theorem nth_map_range {α : Type} (d : α) (f : Nat → α) {n i : Nat} (h : i < n) : nth d ((List.range n).map f) i = f i := by
  simp [nth, List.getD_eq_getElem?_getD, h]

/-! ### Routers -/

theorem setRouter_router_self (s : State) (k : Fin 2) (x : Router) : (s.setRouter k x).router k = x := vget_vmod_self _ _ _ _ k.isLt

theorem setRouter_router_ne (s : State) {k j : Fin 2} (x : Router) (h : j ≠ k) : (s.setRouter k x).router j = s.router j :=
  vget_vmod_ne _ _ _ _ _ (Fin.val_ne_of_ne h)

/-- A router that has a descriptor to take is idle, and serves one of the eight coves. -/
theorem shoalHead_spec {s : State} {rt c addr : Nat} {rd : Except AccErr (List Byte)} (h : s.shoalHead rt = some (c, addr, rd)) :
    s.router rt = .idle ∧ c < 8 := by
  unfold State.shoalHead at h
  split at h
  next hidle hcove =>
    refine ⟨hidle, ?_⟩
    split at h
    · cases h
    split at h
    · cases h
      unfold State.routerCove at hcove
      exact List.mem_range.mp (List.mem_of_find?_eq_some hcove)
    · cases h
  · cases h

theorem shoalHead_of_busy {s : State} {rt : Nat} (h : s.router rt ≠ .idle) : s.shoalHead rt = none := by
  unfold State.shoalHead
  split
  · next hidle _ => exact absurd hidle h
  · rfl

/-! ### Statuses -/

theorem shoalRank_pos (a : Status) : 0 < a.shoalRank := by cases a <;> decide

theorem mergeShoal_done (a : Status) : mergeShoal a .done = a := if_neg (by have := shoalRank_pos a; simp only [Status.shoalRank] at this ⊢; omega)

/-! ### Runs of packed records -/

/-- Every record of a ROUTE stands in its send area. -/
def Packed (r : RouteRun) : Prop := ∀ x ∈ r.pairs, x.packed = true

/-- A destination whose run has been sent: its copy runs, or it has no records and its header is due. -/
def runSent (r : RouteRun) (i now : Nat) (x : DestRun) : DestRun :=
  { x with phase := if runOf r.pairs (nth ({} : DestRun) r.dests i).round i = [] then 2 else 1, since := now }

/-- A run whose records are packed waits for no refetch and packs none; its copy is issued, or it has no records (R196). -/
theorem sendRun_of_packed (s : State) (rt : Nat) {r : RouteRun} (p : Placement) (i : Nat) (h : Packed r) :
    ∃ b n, s.sendRun rt r p i = ({ s with bsn := b, ctrs := n }, { r with dests := modNth r.dests i (runSent r i s.now) }) := by
  have hwaits (round : Nat) : s.packWaits r p round i = [] := by
    unfold State.packWaits
    rw [List.filter_eq_nil_iff.mpr fun x hx => by simp [h x hx]]
    rfl
  have hpack (round : Nat) : s.packRun r p round i = (s, r) := by
    unfold State.packRun
    rw [List.filter_eq_nil_iff.mpr fun x hx => by simp [h x.1 (List.fst_mem_of_mem_zipIdx hx)]]
    rfl
  unfold State.sendRun
  dsimp only
  rw [hwaits, if_neg (by decide), hpack]
  unfold runSent
  dsimp only
  split
  next hrun => rw [if_pos hrun]; exact ⟨s.bsn, s.ctrs, rfl⟩
  next y ys hrun => rw [if_neg (by rw [hrun]; exact List.cons_ne_nil y ys)]; exact ⟨_, _, rfl⟩

/-- The first destinations of a ROUTE, their runs sent where they are due (R196, R197). -/
def sendFirst (s : State) (rt : Nat) (r : RouteRun) (p : Placement) (n : Nat) : State × RouteRun :=
  (List.range n).foldl (fun (a : State × RouteRun) i =>
    if (nth ({} : DestRun) a.2.dests i).phase = 0 then a.1.sendRun rt a.2 p i else a) (s, r)

theorem sendDue_eq (s : State) (rt : Nat) (r : RouteRun) (p : Placement) : s.sendDue rt r p = sendFirst s rt r p p.dests.length := rfl

theorem sendFirst_succ (s : State) (rt : Nat) (r : RouteRun) (p : Placement) (n : Nat) :
    sendFirst s rt r p (n + 1) = if (nth ({} : DestRun) (sendFirst s rt r p n).2.dests n).phase = 0
      then (sendFirst s rt r p n).1.sendRun rt (sendFirst s rt r p n).2 p n else sendFirst s rt r p n := by
  unfold sendFirst
  rw [List.range_succ, List.foldl_append, List.foldl_cons, List.foldl_nil]

/-- A ROUTE with no run due sends none. -/
theorem sendFirst_of_none_due (s : State) (rt : Nat) (r : RouteRun) (p : Placement) (n : Nat) (h : ∀ i, i < n → (nth ({} : DestRun) r.dests i).phase ≠ 0) :
    sendFirst s rt r p n = (s, r) := by
  induction n with
  | zero => rfl
  | succ n ih => rw [sendFirst_succ, ih fun i hi => h i (by omega), if_neg (h n (by omega))]

/-- The runs of the first round of a ROUTE whose records are packed are sent, or have no records. -/
theorem sendFirst_of_packed (s : State) (rt : Nat) {r : RouteRun} (p : Placement) (n : Nat) (hpacked : Packed r) (hn : n ≤ r.dests.length)
    (hdue : ∀ i, i < r.dests.length → (nth ({} : DestRun) r.dests i).phase = 0 ∧ (nth ({} : DestRun) r.dests i).round = 0) :
    ∃ b k dests, sendFirst s rt r p n = ({ s with bsn := b, ctrs := k }, { r with dests }) ∧ dests.length = r.dests.length ∧
      (∀ i, i < n → (nth ({} : DestRun) dests i).phase = if runOf r.pairs 0 i = [] then 2 else 1) ∧
      (∀ i, n ≤ i → nth ({} : DestRun) dests i = nth ({} : DestRun) r.dests i) := by
  induction n with
  | zero => exact ⟨s.bsn, s.ctrs, r.dests, rfl, rfl, by omega, fun _ _ => rfl⟩
  | succ n ih =>
    obtain ⟨b, k, dests, heq, hlen, hsent, hrest⟩ := ih (by omega)
    obtain ⟨hphase, hround⟩ := hdue n (by omega)
    have hnext := hrest n le_rfl
    obtain ⟨b', k', hrun⟩ := sendRun_of_packed { s with bsn := b, ctrs := k } rt (r := { r with dests }) p n hpacked
    have hsucc : sendFirst s rt r p (n + 1) =
        ({ s with bsn := b', ctrs := k' }, { r with dests := modNth dests n (runSent { r with dests } n s.now) }) := by
      rw [sendFirst_succ, heq, if_pos (by exact (congrArg DestRun.phase hnext).trans hphase), hrun]
      rfl
    refine ⟨b', k', _, hsucc, (length_modNth ..).trans hlen, fun i hi => ?_, fun i hi => ?_⟩
    · by_cases h : i = n
      · subst h
        rw [nth_modNth_self _ _ (by omega)]
        show (if runOf r.pairs (nth ({} : DestRun) dests i).round i = [] then 2 else 1) = _
        rw [hnext, hround]
      · rw [nth_modNth_ne _ _ _ h]
        exact hsent i (by omega)
    · rw [nth_modNth_ne _ _ _ (by omega)]
      exact hrest i (by omega)

/-! ### Packing -/

theorem works_packRecord (s : State) (c : Nat) (d : List Byte) (p : Placement) (base i : Nat) (x : Pair) : Works s (s.packRecord c d p base i x).1 := by
  unfold State.packRecord
  extract_lets a touched at_ pad y poked gone
  have htouched : Works s touched := (works_of_accesses (accesses_touch s c unitShoal 0 a p.rowBytes)).trans (works_addShare _ c poolShoal _ 1)
  have hpoked (b : List Byte) : Works s (touched.poke c unitShoal 0 at_ b).1 := htouched.trans (works_of_accesses (accesses_poke ..))
  have hgone : Works s gone.1 := by
    show Works s (if y.zero then poked else poked.bump (shoalOff c 0x48) 1)
    split
    · exact hpoked _
    · exact (hpoked _).trans (works_bump ..)
  split
  · next b _ =>
    have h := hpoked (pad b)
    split
    next t e ht =>
    rw [ht] at h
    exact h
  · exact hgone
  · exact hgone
  · exact htouched

/-- A record counts as packed, whatever it holds. -/
theorem packRecord_packed (s : State) (c : Nat) (d : List Byte) (p : Placement) (base i : Nat) (x : Pair) :
    (s.packRecord c d p base i x).2.1.packed = true := by
  unfold State.packRecord
  dsimp only
  split <;> rfl

theorem works_packAll (c : Nat) (d : List Byte) (p : Placement) (base : Nat) (l : List (Pair × Nat)) (s : State) :
    Works s (s.packAll c d p base l).1 := by
  induction l generalizing s with
  | nil => exact .refl s
  | cons x l ih => exact (works_packRecord s c d p base x.2 x.1).trans (ih _)

theorem packAll_packed (c : Nat) (d : List Byte) (p : Placement) (base : Nat) (l : List (Pair × Nat)) (s : State) :
    ∀ y ∈ (s.packAll c d p base l).2.1, y.packed = true := by
  induction l generalizing s with
  | nil => intro y hy; cases hy
  | cons x l ih =>
    intro y hy
    rcases List.mem_cons.mp hy with rfl | hy
    · exact packRecord_packed s c d p base x.2 x.1
    · exact ih _ y hy

theorem packed_of_packAll {s t : State} {c base : Nat} {d : List Byte} {p : Placement} {l : List (Pair × Nat)} {qs : List Pair} {st : Status}
    (h : s.packAll c d p base l = (t, qs, st)) : ∀ y ∈ qs, y.packed = true := by
  have hall := packAll_packed c d p base l s
  rw [h] at hall
  exact hall

/-! ### Starts -/

/-- The logits of a batch of `n` tokens are read (R186). -/
def logitsRead (s : State) (c : Nat) (d : List Byte) (p : Placement) : State :=
  (List.range (fld d 4 4)).foldl (fun s i => s.touch c unitShoal 0 (fld d 0x10 8 + i * fld d 0x18 4) ((plainFmt (fld d 0x1C 4)).rowBytes p.e)) s

theorem works_logitsRead (s : State) (c : Nat) (d : List Byte) (p : Placement) : Works s (logitsRead s c d p) :=
  Works.foldl (fun _ _ => works_of_accesses (accesses_touch ..)) _ s

/-- The destinations of a ROUTE that starts: every run of the first round is due, but at lost destinations (R189, R204). -/
def firstDests (s : State) (d : List Byte) (p : Placement) (ps : List Pair) : List DestRun :=
  (List.range p.dests.length).map fun i =>
    { base := s.arr (fld d 0x70 2 + i), last := ((ps.filter fun x => x.dest = i).map fun x => x.round).foldl Nat.max 0,
      phase := if (s.node (nth (0, 0, 0) p.dests i).1).lost then 5 else 0, since := s.now }

theorem length_firstDests (s : State) (d : List Byte) (p : Placement) (ps : List Pair) : (firstDests s d p ps).length = p.dests.length := by
  simp [firstDests]

theorem firstDests_due {s : State} {d : List Byte} {p : Placement} (ps : List Pair) {i : Nat} (hlost : (s.node (nth (0, 0, 0) p.dests i).1).lost = false)
    (hi : i < p.dests.length) : (nth ({} : DestRun) (firstDests s d p ps) i).phase = 0 ∧ (nth ({} : DestRun) (firstDests s d p ps) i).round = 0 := by
  rw [firstDests, nth_map_range _ _ hi]
  exact ⟨if_neg (by simp [hlost]), rfl⟩

/-- The run of a ROUTE that starts. -/
def firstRun (c addr : Nat) (d : List Byte) (a : Assigned) (p : Placement) (ps qs : List Pair) (st : Status) (id : Nat) (dests : List DestRun) : RouteRun :=
  { cove := c, addr, desc := d, place := fld d 8 1, pairs := qs, rounds := a.round + 1, dests, status := st, id,
    base := recordBase d (runTable (a.round + 1) p.dests.length ps).length }

/-- A ROUTE whose gates can be read and whose tables and records can be written runs with the pairs that its gates give (R186 to R196). -/
theorem routeBegin_of_read {u u2 u3 u4 : State} {rt c addr : Nat} {d : List Byte} {p : Placement} {gates : List (List (Nat × Nat) × Bool)}
    {streams : List Nat} {a : Assigned} {ps qs : List Pair} {st : Status} (htokens : 0 < fld d 4 4)
    (hgates : (logitsRead u c d p).routeGates c d p = .ok gates) (hstreams : (logitsRead u c d p).readWords c (fld d 0x38 8) (fld d 4 4) = .ok streams)
    (ha : a = assignRounds p (gates.map fun g => g.1.map Prod.fst)) (hps : ps = a.pairs p gates streams)
    (h2 : (logitsRead u c d p).poke c unitShoal 0 (fld d 0x40 8) (a.choices gates) = (u2, none))
    (h3 : u2.poke c unitShoal 0 (fld d 0x48 8) ((runTable (a.round + 1) p.dests.length ps).flatMap runEntry) = (u3, none))
    (h4 : u3.packAll c d p (recordBase d (runTable (a.round + 1) p.dests.length ps).length) ps.zipIdx = (u4, qs, st)) (hst : st ≠ .permission)
    (hlost : ∀ i, i < p.dests.length → (u4.node (nth (0, 0, 0) p.dests i).1).lost = false) :
    ∃ b k r, u.routeBegin rt c addr d p = ({ u4 with bsn := b, ctrs := k } : State).setRouter rt (.route r) ∧ r.cove = c ∧ r.addr = addr ∧ r.desc = d ∧
      r.place = fld d 8 1 ∧ r.pairs = qs ∧ r.rounds = a.round + 1 ∧ r.status = st ∧ r.dests.length = p.dests.length ∧
      (∀ i, i < p.dests.length → (nth ({} : DestRun) r.dests i).phase = (if runOf qs 0 i = [] then 2 else 1)) := by
  have hread : (List.range (fld d 4 4)).foldl (fun s i => s.touch c unitShoal 0 (fld d 0x10 8 + i * fld d 0x18 4) ((plainFmt (fld d 0x1C 4)).rowBytes p.e)) u
      = logitsRead u c d p := rfl
  unfold State.routeBegin
  dsimp only
  rw [if_neg (by omega), hread, hgates, hstreams]
  dsimp only
  rw [← ha, ← hps, h2]
  dsimp only
  rw [h3]
  dsimp only
  rw [h4]
  dsimp only [Option.map_none, Option.getD_none]
  rw [if_neg (by rwa [mergeShoal_done, mergeShoal_done]), mergeShoal_done, mergeShoal_done]
  generalize hv : State.bump _ (shoalOff c 0x40) _ = v
  obtain ⟨k, rfl⟩ : ∃ k, v = { u4 with ctrs := k } := ⟨v.ctrs, hv ▸ rfl⟩
  obtain ⟨b, k', dests, hsend, hlen, hphase, -⟩ := sendFirst_of_packed ({ u4 with ctrs := k } : State).nextWork rt
    (r := firstRun c addr d a p ps qs st u4.bsn.nextId (firstDests { u4 with ctrs := k } d p qs)) p p.dests.length (packed_of_packAll h4)
    (length_firstDests ..).ge fun i hi => firstDests_due qs (hlost i (hi.trans_eq (length_firstDests ..))) (hi.trans_eq (length_firstDests ..))
  refine ⟨b, k', firstRun c addr d a p ps qs st u4.bsn.nextId dests, ?_, rfl, rfl, rfl, rfl, rfl, rfl, rfl, hlen.trans (length_firstDests ..), hphase⟩
  rw [sendDue_eq]
  exact congrArg (fun x : State × RouteRun => x.1.setRouter rt (.route x.2)) hsend

/-- A RECEIVE whose descriptor and expert table are sound runs from round 0 (R199). -/
theorem recvStart_of_sound {s u : State} {rt c addr : Nat} {d : List Byte} {p : Placement} (hhead : s.shoalHead rt = some (c, addr, .ok d))
    (hop : fld d 0 1 = 0x22) (hplace : ((s.touch c unitShoal 0 addr 128).shoalPop c).placement (fld d 8 1) = some p)
    (hu : u = (((s.touch c unitShoal 0 addr 128).shoalPop c).touch c unitShoal 0 (fld d 0x10 8) (64 * p.nlocal)))
    (hok : u.recvOk c addr d p = .ok true) :
    s.recvStart rt = u.nextWork.setRouter rt (.recv
      { cove := c, addr, desc := d, place := fld d 8 1, since := u.now, srcs := p.srcs.map fun x => { gone := (u.node x.1).lost }, id := u.bsn.nextId }) := by
  subst hu
  unfold State.recvStart
  rw [hhead]
  dsimp only
  rw [if_neg (not_not_intro hop), hplace]
  dsimp only
  rw [hok]

/-- A ROUTE that is sound and waits for no page begins; without a lost destination nothing more happens (R184, R204). -/
theorem routeStart_of_sound {s u v : State} {rt c addr : Nat} {d : List Byte} {p : Placement} (hhead : s.shoalHead rt = some (c, addr, .ok d))
    (hop : fld d 0 1 = 0x21) (hu : u = (s.touch c unitShoal 0 addr 128).shoalPop c) (hplace : u.placement (fld d 8 1) = some p)
    (hok : routeOk addr c d p = true) (hwaits : u.routeWaits c d p = []) (hbegin : u.routeBegin rt c addr d p = v)
    (hlost : ∀ x ∈ p.dests, (v.node x.1).lost = false) : s.routeStart rt = v := by
  subst hu
  unfold State.routeStart
  rw [hhead]
  dsimp only
  rw [if_neg (by omega), hplace]
  dsimp only
  rw [if_neg (by simp [hop, hok]), hwaits, if_pos (by rfl), hbegin,
    List.filter_eq_nil_iff.mpr fun x hx => by simp [hlost x.1 (List.fst_mem_of_mem_zipIdx hx)]]
  rfl

theorem routeStart_of_busy {s : State} {rt : Nat} (h : s.router rt ≠ .idle) : s.routeStart rt = s := by
  unfold State.routeStart
  rw [shoalHead_of_busy h]

theorem recvStart_of_busy {s : State} {rt : Nat} (h : s.router rt ≠ .idle) : s.recvStart rt = s := by
  unfold State.recvStart
  rw [shoalHead_of_busy h]

/-- An engine's step that does nothing, whether the engine may work or not. -/
theorem if_mayWork_of_fixed {s t : State} {n : Nat} (h : t = s) : (if s.mayWork n then t else s) = s := by rw [h, ite_self]

/-- The tables and the records of a ROUTE are written (R187, R195). -/
theorem works_tables {s u v w : State} {c a1 a2 base : Nat} {b1 b2 : List Byte} {e1 e2 : Option AccErr} {d : List Byte} {p : Placement}
    {l : List (Pair × Nat)} {x : List Pair × Status} (h1 : s.poke c unitShoal 0 a1 b1 = (u, e1)) (h2 : u.poke c unitShoal 0 a2 b2 = (v, e2))
    (h3 : v.packAll c d p base l = (w, x)) : Works s w := by
  have hu := works_of_accesses (accesses_poke s c unitShoal 0 a1 b1)
  have hv := works_of_accesses (accesses_poke u c unitShoal 0 a2 b2)
  have hw := works_packAll c d p base l v
  rw [h1] at hu
  rw [h2] at hv
  rw [h3] at hw
  exact (hu.trans hv).trans hw

/-- Settles O28: the queue's room decides what a posting does; a router that is idle starts the oldest descriptor, whose runs go out. -/
theorem shoalDescriptors : Obligations.ShoalDescriptors := by
  refine ⟨?_, ?_, ?_, ?_, ?_⟩
  · intro s c lo hi hs hvariant hroom
    refine ⟨_, next_of_answers hs ((if_neg hvariant).trans (if_neg (by omega))), vget_vmod_self _ _ _ _ c.isLt, fun e he => ?_, rfl⟩
    exact vget_vmod_ne _ _ _ _ _ (Fin.val_ne_of_ne he)
  · intro s c lo hi hs hvariant hfull
    refine ⟨_, next_of_answers hs ((if_neg hvariant).trans (if_pos hfull)), queueFlag_bit _ _ _ (by decide), (signals_queueFlag ..).trans rfl⟩
  · rintro s u rt c addr d p hrun hmay hhead hop hu hplace hok
    exact ⟨_, _, next_of_run hrun ((if_pos hmay).trans (recvStart_of_sound hhead hop hplace hu hok)), setRouter_router_self .., rfl, rfl, rfl, rfl, rfl, rfl,
      rfl, rfl, rfl⟩
  · rintro s u u1 u2 u3 u4 rt c addr d p gates streams a ps qs st hrun hmay hhead hop hu hplace hok hwaits hlost htokens rfl hgates hstreams ha hps h2 h3 h4 hst
    have hworks : Works u u4 := (works_logitsRead u c d p).trans (works_tables h2 h3 h4)
    have hdests (i : Nat) (hi : i < p.dests.length) : (u4.node (nth (0, 0, 0) p.dests i).1).lost = false :=
      (hworks.lost _).trans (hlost _ (nth_mem _ hi))
    obtain ⟨b, k, r, hbegin, hcove, haddr, hdesc, hplaced, hpairs, hrounds, hstatus, hlen, hphase⟩ :=
      routeBegin_of_read (rt := rt) htokens hgates hstreams ha hps h2 h3 h4 hst hdests
    have hqueue : vget [] u4.shoalQ c = (vget [] s.shoalQ c).tail := by
      rw [congrArg State.shoalQ hworks.frame, hu]
      exact (vget_vmod_self _ _ _ _ (shoalHead_spec hhead).2).trans
        (congrArg (fun q => (vget [] q c).tail) ((congrArg State.shoalQ (accesses_touch s c unitShoal 0 addr 128).frame).trans rfl))
    exact ⟨_, r, next_of_run hrun ((if_pos hmay).trans (routeStart_of_sound hhead hop hu hplace hok hwaits hbegin fun x hx =>
      (hworks.lost _).trans (hlost x hx))), hqueue, rfl, setRouter_router_self .., hcove, haddr, hdesc, hplaced, hpairs, hrounds, hstatus, hlen, hphase⟩
  · intro s rt hbusy
    exact ⟨congrArg Host.Outcome.next (unlessHalted_of_fixed (if_mayWork_of_fixed (routeStart_of_busy hbusy))),
      congrArg Host.Outcome.next (unlessHalted_of_fixed (if_mayWork_of_fixed (recvStart_of_busy hbusy)))⟩

end Sys2Proof.Proofs
end

section
/-! Runs of a ROUTE, its combination and its timeout (spec/05_expert_routing.md, R196, R197, R201, R203). -/
namespace Sys2Proof.Proofs
open Sys2Proof Sys2Proof.Machine Sys2Proof.Laws

/-- A run that is sent and awaits its return (R196, R197). -/
def headerSent (r : RouteRun) (p : Placement) (i now : Nat) (x : DestRun) : DestRun :=
  { x with phase := 3, since := now, owed := x.owed + returnOwed p.retStride (runOf r.pairs (nth ({} : DestRun) r.dests i).round i).length }

/-- The header of a run whose copy has completed goes out as one store (R196). -/
theorem runCopyDone_of_copied {s : State} {rt i : Nat} {r : RouteRun} {p : Placement} (hr : s.router rt = .route r) (hp : s.placement r.place = some p)
    (hphase : (nth ({} : DestRun) r.dests i).phase = 2) (hi : i < p.dests.length) :
    ∃ x, s.runCopyDone rt i = (s.issue x).setRouter rt (.route { r with dests := modNth r.dests i (headerSent r p i s.now) }) := by
  unfold State.runCopyDone
  rw [hr]
  dsimp only
  rw [hp]
  dsimp only
  rw [if_neg (by omega)]
  exact ⟨_, rfl⟩

/-- The run of a destination whose return has come (R197). -/
def nextRun (x : DestRun) : DestRun := if x.round < x.last then { x with round := x.round + 1, phase := 0 } else { x with phase := 4 }

/-- The pairs of a run whose return has come (R197). -/
def returnedPairs (r : RouteRun) (i : Nat) : List Pair :=
  r.pairs.map fun (y : Pair) => if y.dest = i ∧ y.round = (nth ({} : DestRun) r.dests i).round then { y with returned := true } else y

theorem runReturnDone_of_returned {s : State} {rt i : Nat} {r : RouteRun} {p : Placement} (hr : s.router rt = .route r) (hp : s.placement r.place = some p)
    (hphase : (nth ({} : DestRun) r.dests i).phase = 3)
    (howed : (nth ({} : DestRun) r.dests i).owed ≤ (s.arr (fld r.desc 0x70 2 + i) - (nth ({} : DestRun) r.dests i).base).toNat)
    (hnone : ∀ j, j < p.dests.length → (nth ({} : DestRun) (modNth r.dests i nextRun) j).phase ≠ 0) :
    s.runReturnDone rt i = s.setRouter rt (.route { r with pairs := returnedPairs r i, dests := modNth r.dests i nextRun }) := by
  have hsend := sendFirst_of_none_due s rt { r with pairs := returnedPairs r i, dests := modNth r.dests i nextRun } p p.dests.length hnone
  unfold State.runReturnDone
  rw [hr]
  dsimp only
  rw [hp]
  dsimp only
  rw [if_neg (by omega), if_neg (by omega)]
  exact congrArg (fun x : State × RouteRun => x.1.setRouter rt (.route x.2)) hsend

/-! ### Combination -/

theorem works_shoalEnd (s : State) (c addr rounds doneOff : Nat) (st : Status) : Works s (s.shoalEnd c addr rounds doneOff st) := by
  unfold State.shoalEnd
  extract_lets counted marked
  have hcounted : Works s counted := works_of_accesses (accesses_poke ..)
  have hmarked : Works counted marked := (works_of_accesses (accesses_poke ..)).trans (works_noteStatus ..)
  split
  · exact (hcounted.trans hmarked).trans (works_applyDone ..)
  · exact hcounted.trans hmarked

theorem works_combineToken (s : State) (r : RouteRun) (p : Placement) (t : Nat) : Works s (s.combineToken r p t).1 := by
  unfold State.combineToken
  extract_lets mine ordered rows vals
  split
  · exact .refl s
  split
  · exact works_of_accesses (accesses_accErr ..)
  clear_value vals
  cases vals with
  | nil => exact .refl s
  | cons v vs =>
    dsimp only
    split
    · exact .refl s
    exact works_of_accesses (accesses_poke ..)

/-- The tokens of a batch combined one after another, the higher status kept (R201). -/
def combined (r : RouteRun) (p : Placement) (a : State × Status) (l : List Nat) : State × Status :=
  l.foldl (fun (a : State × Status) t =>
    let (s, st) := a.1.combineToken r p t
    (s, mergeShoal a.2 st)) a

theorem combined_cons (r : RouteRun) (p : Placement) (a : State × Status) (t : Nat) (l : List Nat) :
    combined r p a (t :: l) = combined r p ((a.1.combineToken r p t).1, mergeShoal a.2 (a.1.combineToken r p t).2) l := by
  rw [combined, List.foldl_cons]
  rcases a.1.combineToken r p t with ⟨s, st⟩
  rfl

theorem combined_eq_foldl (r : RouteRun) (p : Placement) (a : State × Status) (l : List Nat) :
    combined r p a l = l.foldl (fun (a : State × Status) t => let x := a.1.combineToken r p t; (x.1, mergeShoal a.2 x.2)) a := by
  induction l generalizing a with
  | nil => rfl
  | cons t l ih => rw [combined_cons, ih, List.foldl_cons]

theorem works_combined (r : RouteRun) (p : Placement) (a : State × Status) (l : List Nat) : Works a.1 (combined r p a l).1 := by
  induction l generalizing a with
  | nil => exact .refl a.1
  | cons t l ih =>
    rw [combined_cons]
    exact (works_combineToken a.1 r p t).trans (ih ((a.1.combineToken r p t).1, mergeShoal a.2 (a.1.combineToken r p t).2))

/-- Every run of a ROUTE has returned or been given up. -/
def Returned (r : RouteRun) : Prop := ∀ x ∈ r.dests, x.phase = 4 ∨ x.phase = 5

theorem routeCombine_of_returned {s u : State} {rt : Nat} {r : RouteRun} {p : Placement} {st : Status} (hr : s.router rt = .route r)
    (hp : s.placement r.place = some p) (hall : Returned r) (hu : combined r p (s, r.status) (List.range (fld r.desc 4 4)) = (u, st)) :
    s.routeCombine rt = u.routeEnd rt { r with status := st } := by
  rw [combined_eq_foldl] at hu
  unfold State.routeCombine
  rw [hr]
  dsimp only
  rw [hp]
  dsimp only
  rw [if_neg (by simpa [Returned, or_iff_not_imp_left] using hall)]
  dsimp only at hu
  rw [hu]

theorem routeCombine_of_not_returned {s : State} {rt : Nat} {r : RouteRun} {p : Placement} (hr : s.router rt = .route r)
    (hp : s.placement r.place = some p) (hnot : ¬ Returned r) : s.routeCombine rt = s := by
  unfold State.routeCombine
  rw [hr]
  dsimp only
  rw [hp]
  dsimp only
  rw [if_pos (by simpa [Returned, or_iff_not_imp_left] using hnot)]

theorem works_routers {s t : State} (h : Works s t) (n : Nat) : t.router n = s.router n :=
  (congrArg (fun q => vget Router.idle q n) (congrArg State.routers h.frame)).trans rfl

/-- A combination ends its ROUTE: its router is idle again, the other runs on. -/
theorem routeCombine_routers {s u : State} {rt : Fin 2} {r q : RouteRun} {p : Placement} {st : Status}
    (hu : combined r p (s, r.status) (List.range (fld r.desc 4 4)) = (u, st)) :
    (u.routeEnd rt q).router rt = .idle ∧ ∀ j : Fin 2, j ≠ rt → (u.routeEnd rt q).router j = s.router j := by
  have hworks := works_combined r p (s, r.status) (List.range (fld r.desc 4 4))
  rw [hu] at hworks
  exact ⟨setRouter_router_self .., fun j hj => (setRouter_router_ne _ _ hj).trans (works_routers (hworks.trans (works_shoalEnd ..)) j)⟩

/-! ### Timeout -/

/-- The run of a ROUTE whose returns have not come in time: its destinations are given up (R203). -/
def timedOut (r : RouteRun) : RouteRun :=
  { r with status := mergeShoal r.status .timeout, dests := r.dests.map fun x => if x.phase = 4 then x else { x with phase := 5 } }

theorem returned_timedOut (r : RouteRun) : Returned (timedOut r) := by
  intro x hx
  obtain ⟨y, -, rfl⟩ := List.mem_map.mp hx
  split
  next h => exact .inl h
  next => exact .inr rfl

theorem shoalTimeout_of_late {s : State} {rt : Nat} {r : RouteRun} (hr : s.router rt = .route r)
    (hlate : ∃ x ∈ r.dests, (x.phase = 3 ∨ x.phase = 6) ∧ x.since + 100 * (s.reg (blkSHOAL + 0x10)).toNat < s.now) :
    s.shoalTimeout rt = (s.setRouter rt (.route (timedOut r))).routeCombine rt := by
  unfold State.shoalTimeout
  dsimp only
  rw [hr]
  dsimp only
  rw [if_pos (by simpa using hlate)]
  rfl

theorem shoalTimeout_of_in_time {s : State} {rt : Nat} {r : RouteRun} (hr : s.router rt = .route r)
    (htime : ∀ x ∈ r.dests, (x.phase = 3 ∨ x.phase = 6) → s.now ≤ x.since + 100 * (s.reg (blkSHOAL + 0x10)).toNat) : s.shoalTimeout rt = s := by
  unfold State.shoalTimeout
  dsimp only
  rw [hr]
  dsimp only
  rw [if_neg (by simpa using htime)]

/-- Settles O29: the phase of a run decides what its copy and its return do; the runs that are left decide the combination. -/
theorem routeRuns : Obligations.RouteRuns := by
  refine ⟨?_, ?_, ?_, ?_, ?_, ?_⟩
  · intro s rt i r p hrun hr hp hphase hi hlen
    obtain ⟨x, hdone⟩ := runCopyDone_of_copied hr hp hphase hi
    have hself := nth_modNth_self ({} : DestRun) (headerSent r p i s.now) hlen
    refine ⟨_, _, next_of_run hrun hdone, setRouter_router_self .., ?_, ?_, ?_, fun j hj => nth_modNth_ne _ _ _ hj, x, rfl⟩
    all_goals rw [hself]; rfl
  · intro s rt i r p hrun hr hp hphase hlen howed hlast hbusy hplace
    have hself : nth ({} : DestRun) (modNth r.dests i nextRun) i = { nth ({} : DestRun) r.dests i with phase := 4 } :=
      (nth_modNth_self _ _ hlen).trans (if_neg (by omega))
    have hnone (j : Nat) (hj : j < p.dests.length) : (nth ({} : DestRun) (modNth r.dests i nextRun) j).phase ≠ 0 := by
      by_cases h : j = i
      · subst h
        rw [hself]
        exact (by decide : (4 : Nat) ≠ 0)
      · rw [nth_modNth_ne _ _ _ h]
        exact hbusy _ (nth_mem _ (by omega))
    exact ⟨_, _, next_of_run hrun (runReturnDone_of_returned hr hp hphase howed hnone), setRouter_router_self .., congrArg DestRun.phase hself, rfl, rfl⟩
  · intro s u rt r p st hrun hr hp hall hu
    rw [← combined_eq_foldl] at hu
    obtain ⟨hself, hne⟩ := routeCombine_routers (rt := rt) (q := { r with status := st }) hu
    exact ⟨_, next_of_run hrun (routeCombine_of_returned hr hp hall hu), hself, hne, rfl⟩
  · intro s rt r p hrun hr hp hnot
    exact congrArg Host.Outcome.next (unlessHalted_of_fixed (routeCombine_of_not_returned hr hp hnot))
  · rintro s rt r q p hrun hr hp hlate rfl
    have hrun' : (s.setRouter rt (.route (timedOut r))).halted = false := hrun
    rcases hu : combined (timedOut r) p (s.setRouter rt (.route (timedOut r)), (timedOut r).status) (List.range (fld r.desc 4 4)) with ⟨u, st⟩
    have hend := routeCombine_of_returned (setRouter_router_self s rt (.route (timedOut r))) hp (returned_timedOut r) hu
    obtain ⟨hself, hne⟩ := routeCombine_routers (rt := rt) (q := { timedOut r with status := st }) hu
    exact ⟨_, next_of_run hrun ((shoalTimeout_of_late hr hlate).trans hend), hself, fun j hj => (hne j hj).trans (setRouter_router_ne _ _ hj),
      next_of_run hrun' hend⟩
  · intro s rt r hr htime
    exact congrArg Host.Outcome.next (unlessHalted_of_fixed (shoalTimeout_of_in_time hr htime))

end Sys2Proof.Proofs
end

section
/-! Rounds of a RECEIVE (spec/05_expert_routing.md, R198 to R205). -/
namespace Sys2Proof.Proofs
open Sys2Proof Sys2Proof.Machine Sys2Proof.Laws

/-! ### What a round's work changes -/

/-- Work that leaves the ponds alone, seen from a state with other ponds. -/
theorem Works.withPonds {s t : State} (h : Works s t) (q : Vector (List WorkList) 8) : Works { s with ponds := q } { t with ponds := q } :=
  ⟨by rw [h.frame], h.lost⟩

theorem Works.keepPonds {s t : State} (h : Works s t) : Works { s with ponds := t.ponds } t := h.withPonds t.ponds

theorem works_queueFlag (s : State) (c off i : Nat) : Works s (s.queueFlag c off i) := works_of_accesses (accesses_queueFlag ..)

theorem works_touch (s : State) (c unit act va n : Nat) : Works s (s.touch c unit act va n) := works_of_accesses (accesses_touch ..)

theorem works_poke (s : State) (c unit act va : Nat) (bs : List Byte) : Works s (s.poke c unit act va bs).1 := works_of_accesses (accesses_poke ..)

theorem works_endAtPost (s : State) (c unit hdr : Nat) (h : List Byte) (st : Status) : Works s (s.endAtPost c unit hdr h st) :=
  ((works_put ..).trans (works_noteStatus ..)).trans (works_applyDone ..)

/-- A posting to a Pond changes its queue, and otherwise only works. -/
theorem works_postPond (s : State) (c hdr : Nat) : Works { s with ponds := (s.postPond c hdr).ponds } (s.postPond c hdr) := by
  have htouch := works_touch s c unitMxc 0 hdr 64
  unfold State.postPond
  extract_lets q touched mask marked l
  split
  · exact (works_queueFlag ..).keepPonds
  split
  · exact (htouch.trans (works_queueFlag ..)).keepPonds
  split
  · exact ((htouch.trans (works_touch ..)).trans (works_queueFlag ..)).keepPonds
  · exact (htouch.trans (works_endAtPost ..)).keepPonds
  · exact ((htouch.trans (works_put ..)).trans (works_endAtPost ..)).keepPonds
  · exact (htouch.trans (works_put ..)).withPonds _

theorem Works.foldl_fst {α β : Type} {f : State × β → α → State × β} (hf : ∀ a x, Works a.1 (f a x).1) (l : List α) (a : State × β) :
    Works a.1 (l.foldl f a).1 := by
  induction l generalizing a with
  | nil => exact .refl a.1
  | cons x l ih => exact (hf a x).trans (ih _)

/-- The posting of a round's list changes the ponds, and otherwise only works. -/
theorem works_postRound (s : State) (r : RecvRun) (p : Placement) (j : Nat) :
    Works { s with ponds := (s.postRound r p j).1.ponds } (s.postRound r p j).1 := by
  unfold State.postRound
  extract_lets c hdr rowsOf descs counted entries
  have hcounted : Works s counted := Works.foldl (fun _ _ => works_put ..) descs s
  split
  · exact (hcounted.trans (works_of_accesses (accesses_accErr ..))).keepPonds
  · next h _ =>
    extract_lets listed reset base
    have hlisted : Works counted listed := works_poke ..
    have hreset : Works listed reset := (((works_put ..).trans (works_put ..)).trans (works_put ..)).trans (works_put ..)
    exact (((hcounted.trans hlisted).trans hreset).withPonds _).trans (works_postPond ..)

theorem works_gatherRecord (s : State) (r : RecvRun) (p : Placement) (src addr : Nat) (g : Gather) : Works s (s.gatherRecord r p src addr g).1 := by
  unfold State.gatherRecord
  extract_lets c touched
  have htouched : Works s touched := works_touch ..
  split
  · extract_lets st
    dsimp only
    split
    · exact htouched.trans (works_bump ..)
    · exact htouched
  · extract_lets n parts0 row
    split
    next t g' parts ht =>
    refine htouched.trans ?_
    show Works touched (t, g', parts).1
    rw [← ht]
    refine Works.foldl_fst (fun a x => ?_) parts0 (touched, g, ([] : List (Nat × Nat × Nat)))
    rcases a with ⟨u, k, l⟩
    dsimp only
    split
    · exact .refl u
    · exact (works_poke ..).trans (works_poke ..)

theorem routers_postRound (s : State) (r : RecvRun) (p : Placement) (j n : Nat) : (s.postRound r p j).1.router n = s.router n :=
  works_routers (works_postRound s r p j) n

/-! ### Gathering -/

/-- The records of a round gathered one after another (R200). -/
def gathered (s : State) (r : RecvRun) (p : Placement) (hs : List (Nat × List Byte)) : State × Gather :=
  hs.foldl (fun (a : State × Gather) x =>
    (recordAddrs p (nth (0, 0) p.srcs x.1).2 (fld x.2 0 4)).foldl (fun (a : State × Gather) addr => a.1.gatherRecord r p x.1 addr a.2) a) (s, {})

theorem works_gathered (s : State) (r : RecvRun) (p : Placement) (hs : List (Nat × List Byte)) : Works s (gathered s r p hs).1 :=
  Works.foldl_fst (fun a x => Works.foldl_fst (fun _ _ => works_gatherRecord ..) _ a) hs (s, {})

/-- The sources of a RECEIVE once the headers of a round have come (R200, R205). -/
def heard (r : RecvRun) (hs : List (Nat × List Byte)) : List RecvSrc :=
  r.srcs.zipIdx.map fun (x, i) => match hs.find? fun y => y.1 = i with
    | some (_, h) => { x with hdr := h, last := bit (fld h 6 2) 0 || x.gone }
    | none => { x with hdr := [], last := x.last || x.gone }

/-- A RECEIVE whose round has been gathered into `g` (R200). -/
def gatheredRun (r : RecvRun) (hs : List (Nat × List Byte)) (g : Gather) : RecvRun :=
  { r with srcs := heard r hs, got := g.got, gathered := true, list := 0, records := r.records + g.got.length, status := mergeShoal r.status g.status }

theorem recvGather_of_headers {s : State} {rt : Nat} {r : RecvRun} {p : Placement} {hs : List (Nat × List Byte)} (hr : s.router rt = .recv r)
    (hp : s.placement r.place = some p) (hnew : r.gathered = false) (hhs : s.roundHeaders r p = some hs) (hwaits : s.recvWaits r p hs = []) :
    ∃ u b n g, Works s u ∧ s.recvGather rt = (u.postRound (gatheredRun r hs g) p 0).1.setRouter rt
      (.recv { gatheredRun r hs g with listBase := b, listReplays := n }) := by
  have hworks := works_gathered s r p hs
  unfold State.recvGather
  rw [hr]
  dsimp only
  rw [hp]
  dsimp only
  rw [hnew, if_neg (by decide), hhs]
  dsimp only
  rw [hwaits, if_neg (by decide)]
  exact ⟨_, _, _, _, hworks.trans (works_addShares ..), rfl⟩

theorem recvGather_of_missing {s : State} {rt : Nat} {r : RecvRun} {p : Placement} (hr : s.router rt = .recv r) (hp : s.placement r.place = some p)
    (hnew : r.gathered = false) (hhs : s.roundHeaders r p = none) : s.recvGather rt = s := by
  unfold State.recvGather
  rw [hr]
  dsimp only
  rw [hp]
  dsimp only
  rw [hnew, if_neg (by decide), hhs]

/-- The next list of a gathered round is posted (R200). -/
theorem recvGather_of_list_done {s u : State} {rt : Nat} {r q : RecvRun} {p : Placement} {base : DWord} (hr : s.router rt = .recv r)
    (hp : s.placement r.place = some p) (hgathered : r.gathered = true) (hnext : r.list + 1 < fld r.desc 1 1) (hret : r.returning = 0)
    (hdone : s.listDone r = true) (hq : q = { r with status := mergeShoal r.status (s.listStatus r), list := r.list + 1 })
    (hpost : s.postRound q p (r.list + 1) = (u, base)) :
    s.recvGather rt = u.setRouter rt (.recv { q with listBase := base, listReplays := s.replaysOf q (r.list + 1) }) := by
  subst hq
  unfold State.recvGather
  rw [hr]
  dsimp only
  rw [hp]
  dsimp only
  rw [if_pos hgathered, if_pos ⟨hnext, hret, hdone⟩, hpost]

/-! ### Returning -/

theorem works_recvEnd (s : State) (rt : Nat) (r : RecvRun) (rounds : Nat) :
    ∃ u, Works s u ∧ s.recvEnd rt r rounds = u.setRouter rt .idle := ⟨_, (works_poke ..).trans (works_shoalEnd ..), rfl⟩

/-- A RECEIVE that completes leaves its router idle, and the other running. -/
theorem recvEnd_routers (s : State) (rt : Fin 2) (r : RecvRun) (rounds : Nat) :
    (s.recvEnd rt r rounds).router rt = .idle ∧ ∀ j : Fin 2, j ≠ rt → (s.recvEnd rt r rounds).router j = s.router j := by
  obtain ⟨u, hu, hend⟩ := works_recvEnd s rt r rounds
  rw [hend]
  exact ⟨setRouter_router_self .., fun j hj => (setRouter_router_ne _ _ hj).trans (works_routers hu j)⟩

/-- A gathered RECEIVE whose lists are all done and whose returns have ended completes, or goes on to its next round (R200). -/
theorem recvReturn_of_returned {s : State} {rt : Nat} {r : RecvRun} {p : Placement} (hr : s.router rt = .recv r) (hp : s.placement r.place = some p)
    (hgathered : r.gathered = true) (hlist : r.list = 4) (hret : r.returning = 0) :
    ((∀ x ∈ r.srcs, x.last = true ∨ x.gone = true) → s.recvReturn rt = s.recvEnd rt r (r.round + 1)) ∧
    ((∃ x ∈ r.srcs, x.last = false ∧ x.gone = false) → s.recvReturn rt =
      s.setRouter rt (.recv { r with round := r.round + 1, gathered := false, got := [], list := 0, since := s.now })) := by
  unfold State.recvReturn
  rw [hr]
  dsimp only
  rw [hp]
  dsimp only
  rw [hgathered, if_neg (by decide), if_pos hlist, if_neg (not_not_intro hret)]
  exact ⟨fun h => if_pos (by simpa using h), fun h => if_neg (by simpa using h)⟩

/-- The records of a round reduced and written one after another (R200). -/
def reduced (r : RecvRun) (p : Placement) (a : State × Status) : State × Status :=
  r.got.zipIdx.foldl (fun (a : State × Status) x =>
    let (v, e) := a.1.reduceRecord r p x.1
    let s := a.1.touchRecord r p x.1
    let b := (encodeRow (plainFmt p.retFmtw) (.fin false 1) (fun _ => .rne) v).1
    let (s, we) := s.poke r.cove unitShoal 0 (fld r.desc 0x18 8 + x.2 * p.retStride) (b ++ List.replicate (p.retStride - b.length) 0)
    (s, mergeShoal a.2 (mergeShoal e ((we.map AccErr.status).getD .done)))) a

theorem works_touchRecord (s : State) (r : RecvRun) (p : Placement) (g : GotRecord) : Works s (s.touchRecord r p g) := by
  unfold State.touchRecord
  refine Works.foldl (fun s x => ?_) _ s
  split
  · exact works_touch ..
  · exact .refl s

theorem works_reduced (r : RecvRun) (p : Placement) (a : State × Status) : Works a.1 (reduced r p a).1 := by
  refine Works.foldl_fst (fun a x => ?_) _ a
  dsimp only
  exact (works_touchRecord ..).trans (works_poke ..)

/-- The return copies of a round (R200). -/
def returnJobs (r : RecvRun) (rt : Nat) (p : Placement) : List FerryJob :=
  r.srcs.zipIdx.filterMap fun (x, i) =>
    if x.hdr.isEmpty then none
    else some (returnJob r rt i (fld r.desc 0x18 8 + (r.got.filter fun g => g.src < i).length * p.retStride)
      ((r.got.filter fun g => g.src = i).length * p.retStride) x.hdr)

/-- As many as the elements that are kept, whatever is made of them and of their numbers. -/
theorem length_filterMap_zipIdx {α β : Type} (b : α → Bool) (f : α × Nat → β) (l : List α) (n : Nat) :
    ((l.zipIdx n).filterMap fun x => if b x.1 then none else some (f x)).length = (l.filter fun x => !b x).length := by
  induction l generalizing n with
  | nil => rfl
  | cons a l ih =>
    rw [List.zipIdx_cons, List.filterMap_cons, List.filter_cons]
    cases b a with
    | true => simpa using ih (n + 1)
    | false => simpa using ih (n + 1)

theorem length_returnJobs (r : RecvRun) (rt : Nat) (p : Placement) : (returnJobs r rt p).length = (r.srcs.filter fun x => !x.hdr.isEmpty).length :=
  length_filterMap_zipIdx (fun x : RecvSrc => x.hdr.isEmpty) _ r.srcs 0

theorem recvReturn_of_lists_done {s u : State} {st : Status} {rt : Nat} {r : RecvRun} {p : Placement} (hr : s.router rt = .recv r)
    (hp : s.placement r.place = some p) (hgathered : r.gathered = true) (hlast : r.list + 1 = fld r.desc 1 1) (hlist : r.list ≠ 4)
    (hdone : s.listDone r = true) (hu : reduced r p (s, mergeShoal r.status (s.listStatus r)) = (u, st)) :
    s.recvReturn rt = ({ u with bsn := { u.bsn with direct := u.bsn.direct ++ returnJobs r rt p } } : State).setRouter rt
      (.recv { r with status := st, list := 4, returning := (returnJobs r rt p).length }) := by
  unfold State.recvReturn
  rw [hr]
  dsimp only
  rw [hp]
  dsimp only
  rw [hgathered, if_neg (by decide), if_neg hlist, if_neg (by simp [hlast, hdone])]
  unfold reduced at hu
  dsimp only at hu
  rw [hu]
  rfl

/-- A RECEIVE whose round's headers have not come in time ends (R203). -/
theorem shoalTimeout_of_recv_late {s : State} {rt : Nat} {r : RecvRun} {p : Placement} (hr : s.router rt = .recv r) (hp : s.placement r.place = some p)
    (hnew : r.gathered = false) (hhs : s.roundHeaders r p = none) (hlate : r.since + 100 * (s.reg (blkSHOAL + 0x10)).toNat < s.now) :
    ∃ l, s.shoalTimeout rt = ({ s with bsn := { s.bsn with direct := l } } : State).recvEnd rt { r with status := mergeShoal r.status .timeout } r.round := by
  unfold State.shoalTimeout
  dsimp only
  rw [hr]
  dsimp only
  rw [hp]
  dsimp only
  rw [hnew, hhs, if_neg (by simpa using hlate)]
  exact ⟨_, rfl⟩

/-- Settles O30: where a RECEIVE stands, and which headers and lists it has, decide what a gather, a return or a timeout does. -/
theorem receiveRounds : Obligations.ReceiveRounds := by
  refine ⟨?_, ?_, ?_, ?_, ?_, ?_, ?_⟩
  · intro s rt r p hs hrun hr hp hnew hhs hwaits
    obtain ⟨u, b, n, g, hworks, hgather⟩ := recvGather_of_headers hr hp hnew hhs hwaits
    exact ⟨_, _, next_of_run hrun hgather, setRouter_router_self .., rfl, rfl, rfl, rfl, rfl, rfl, fun j hj =>
      (setRouter_router_ne _ _ hj).trans ((routers_postRound ..).trans (works_routers hworks j))⟩
  · intro s u rt r q p base hrun hr hp hgathered hnext hret hdone hq hpost
    exact ⟨_, next_of_run hrun (recvGather_of_list_done hr hp hgathered hnext hret hdone hq hpost), setRouter_router_self .., rfl⟩
  · intro s rt r p hrun hr hp hnew hhs
    exact congrArg Host.Outcome.next (unlessHalted_of_fixed (recvGather_of_missing hr hp hnew hhs))
  · intro s rt r p hrun hr hp hgathered hlist hret hall
    obtain ⟨hself, hne⟩ := recvEnd_routers s rt r (r.round + 1)
    exact ⟨_, next_of_run hrun ((recvReturn_of_returned hr hp hgathered hlist hret).1 hall), hself, hne, rfl⟩
  · intro s rt r p hrun hr hp hgathered hlast hlist hdone
    have hworks := works_reduced r p (s, mergeShoal r.status (s.listStatus r))
    rcases hu : reduced r p (s, mergeShoal r.status (s.listStatus r)) with ⟨u, st⟩
    rw [hu] at hworks
    have hdirect : u.bsn.direct = s.bsn.direct := (congrArg (fun x : State => x.bsn.direct) hworks.frame).trans rfl
    refine ⟨_, _, next_of_run hrun (recvReturn_of_lists_done hr hp hgathered hlast hlist hdone hu), setRouter_router_self .., rfl, rfl, rfl,
      length_returnJobs .., ?_, fun j hj => (setRouter_router_ne _ _ hj).trans (works_routers hworks j)⟩
    exact (List.length_append ..).trans (congrArg (List.length · + _) hdirect)
  · intro s rt r p hrun hr hp hgathered hlist hret hmore
    exact ⟨_, next_of_run hrun ((recvReturn_of_returned hr hp hgathered hlist hret).2 hmore), setRouter_router_self .., rfl⟩
  · intro s rt r p hrun hr hp hnew hhs hlate
    obtain ⟨l, hend⟩ := shoalTimeout_of_recv_late hr hp hnew hhs hlate
    obtain ⟨hself, hne⟩ := recvEnd_routers ({ s with bsn := { s.bsn with direct := l } }) rt { r with status := mergeShoal r.status .timeout } r.round
    exact ⟨_, _, next_of_run hrun hend, hself, hne, rfl, rfl⟩

end Sys2Proof.Proofs
end

section
/-! The patrol scrubber and the quarantine (spec/07_hbm_memory.md, R265 to R271). -/
namespace Sys2Proof.Proofs
open Sys2Proof Sys2Proof.Machine Sys2Proof.Laws

/-- A charge to the house activity changes the arbiters alone: every resource declares activity 0 (R548). -/
theorem charge_house (s : State) (res sub n : Nat) : s.charge res sub 0 n = { s with arbs := (s.charge res sub 0 n).arbs } := by
  have hdeclared : s.undeclared res 0 = s := if_pos (by simp [State.declares])
  unfold State.charge
  rw [hdeclared]
  rfl

/-- No cell fault is found. -/
theorem inject_nil (s : State) (p : Nat → Bool) : s.inject p [] = s := rfl

/-- With no poisoned and no failed granule the scrubber passes on (R265, R271). -/
theorem scrubRead_of_clean {s : State} (hon : s.hbm.scrubOn = true) (hself : s.hbm.selfRefresh = false) (hpoison : s.mem.poison = [])
    (hfailed : s.mem.failed = []) : ∃ a, s.scrubRead [] =
      if 0x40000000 ≤ s.hbm.scrubOff + 64 then ({ s with arbs := a } : State).scrubPassEnd
      else ({ s with arbs := a } : State).modHbm fun h => { h with scrubOff := h.scrubOff + 64 } := by
  unfold State.scrubRead
  rw [if_neg (by simp [hon, hself])]
  dsimp only
  rw [inject_nil, charge_house]
  dsimp only
  rw [hpoison, hfailed]
  exact ⟨_, rfl⟩

theorem scrubRead_of_off {s : State} (found : List CellFault) (h : s.hbm.scrubOn = false ∨ s.hbm.selfRefresh = true) : s.scrubRead found = s :=
  if_pos (by simpa using h)

/-! ### The test of a page -/

/-- The first `n` granules from `a` are written with zeros under a cove's code; every other byte is as it was. -/
structure Zeroed (s t : State) (c a n : Nat) : Prop where
  frame : t = { s with mem := t.mem }
  bytes : ∀ i, i < 64 * n → SMap.get 0 t.mem.bytes (a + i) = 0
  outside : ∀ x, (x < a ∨ a + 64 * n ≤ x) → SMap.get 0 t.mem.bytes x = SMap.get 0 s.mem.bytes x
  poison : ∀ i, i < n → SMap.get false t.mem.poison (a / 64 + i) = false
  failed : ∀ i, i < n → SMap.get [] t.mem.failed (a / 64 + i) = []
  tag : ∀ i, i < n → SMap.get 0 t.mem.tag (a / 64 + i) = s.tagOf c

/-- A whole granule of HBM that is written: its bytes, its tag, and no poison (R262, R514). -/
theorem writeGranule_of_hbm {s : State} (c : Nat) {dpa : Nat} {bs : List Byte} (hregion : s.region dpa = .hbm) (hlen : bs.length = 64) :
    (s.writeGranule c dpa bs).1 = { s with mem :=
      { s.mem with bytes := (s.mem.store dpa bs).bytes, poison := SMap.put false s.mem.poison (dpa / 64) false,
                   failed := SMap.put [] s.mem.failed (dpa / 64) [], tag := SMap.put 0 s.mem.tag (dpa / 64) (s.tagOf c) } } := by
  unfold State.writeGranule
  dsimp only
  rw [hregion, if_neg (by decide), if_neg (by decide), if_pos hlen, store_keeps]

/-- What holds of the first `n` keys from `g` and is put at the next holds of one more. -/
theorem get_put_upto {α : Type} [DecidableEq α] {d v : α} {m : SMap α} {g n i : Nat} (h : ∀ i, i < n → SMap.get d m (g + i) = v) (hi : i < n + 1) :
    SMap.get d (SMap.put d m (g + n) v) (g + i) = v := by
  rcases Nat.lt_succ_iff_lt_or_eq.mp hi with hold | rfl
  · exact (get_put_ne _ _ _ _ _ _ (by omega)).trans (h i hold)
  · exact get_put_self ..

/-- A stored byte of zeros reads back as zero. -/
theorem store_zero (m : Memory) (dpa i : Nat) {z : List Byte} (hz : ∀ b ∈ z, b = 0) (h : i < z.length) :
    SMap.get 0 (m.store dpa z).bytes (dpa + i) = 0 := (store_inside m dpa i z h).trans (hz _ (List.getElem_mem h))

theorem Zeroed.succ {s t : State} {c a n : Nat} (h : Zeroed s t c a n) (ha : a % 64 = 0) (hregion : s.region (a + 64 * n) = .hbm) {z : List Byte}
    (hz : ∀ b ∈ z, b = 0) (hlen : z.length = 64) : Zeroed s (t.writeGranule c (a + 64 * n) z).1 c a (n + 1) := by
  have hframe := h.frame
  have hhere : t.region (a + 64 * n) = .hbm := by rw [hframe]; exact hregion
  have htag : t.tagOf c = s.tagOf c := by rw [hframe]; rfl
  have hgranule : (a + 64 * n) / 64 = a / 64 + n := by omega
  rw [writeGranule_of_hbm c hhere hlen, hgranule, htag]
  have hout (x : Nat) (hx : x < a + 64 * n ∨ a + 64 * n + 64 ≤ x) :
      SMap.get 0 (t.mem.store (a + 64 * n) z).bytes x = SMap.get 0 t.mem.bytes x :=
    store_outside t.mem (a + 64 * n) x z (by rwa [hlen])
  have hin (i : Nat) (hi : i < 64) : SMap.get 0 (t.mem.store (a + 64 * n) z).bytes (a + 64 * n + i) = 0 :=
    store_zero t.mem (a + 64 * n) i hz (by rwa [hlen])
  have hbytes (i : Nat) (hi : i < 64 * (n + 1)) : SMap.get 0 (t.mem.store (a + 64 * n) z).bytes (a + i) = 0 := by
    by_cases hold : i < 64 * n
    · exact (hout _ (by omega)).trans (h.bytes i hold)
    · have hnew := hin (i - 64 * n) (by omega)
      rwa [show a + 64 * n + (i - 64 * n) = a + i by omega] at hnew
  have houtside (x : Nat) (hx : x < a ∨ a + 64 * (n + 1) ≤ x) :
      SMap.get 0 (t.mem.store (a + 64 * n) z).bytes x = SMap.get 0 s.mem.bytes x :=
    (hout x (by omega)).trans (h.outside x (by omega))
  exact ⟨by rw [hframe], hbytes, houtside, fun i hi => get_put_upto h.poison hi, fun i hi => get_put_upto h.failed hi,
    fun i hi => get_put_upto h.tag hi⟩

theorem zeroed_foldl {s : State} {c a : Nat} (ha : a % 64 = 0) (n : Nat) (hregion : ∀ i, i < n → s.region (a + 64 * i) = .hbm) :
    Zeroed s ((List.range n).foldl (fun s i => (s.writeGranule c (a + 64 * i) (List.replicate 64 0)).1) s) c a n := by
  induction n with
  | zero => exact ⟨rfl, by omega, fun _ _ => rfl, by omega, by omega, by omega⟩
  | succ n ih =>
    rw [List.range_succ, List.foldl_append]
    exact (ih fun i hi => hregion i (by omega)).succ ha (hregion n (by omega)) (fun _ hb => List.eq_of_mem_replicate hb) (List.length_replicate ..)

/-- A granule that has neither poison nor failed symbols reads back clean (R259). -/
theorem decodeAt_of_clean {s : State} {g : Nat} (h : SMap.get [] s.mem.failed g = []) : s.decodeAt g = .clean := by
  unfold State.decodeAt
  rw [h]
  rfl

theorem granuleBad_of_clean {s : State} {g : Nat} (hpoison : SMap.get false s.mem.poison g = false) (hfailed : SMap.get [] s.mem.failed g = []) :
    s.granuleBad g = false := by
  unfold State.granuleBad
  rw [hpoison, decodeAt_of_clean hfailed]
  rfl

theorem readGranule_of_clean {s : State} (code act : Nat) {dpa : Nat} (hpoison : SMap.get false s.mem.poison (dpa / 64) = false)
    (hfailed : SMap.get [] s.mem.failed (dpa / 64) = []) : s.readGranule code act dpa = s := by
  unfold State.readGranule
  dsimp only
  split
  · rfl
  · rw [hpoison, decodeAt_of_clean hfailed, if_neg (by decide)]

/-- The granules of a page that has been written with zeros read back clean. -/
theorem Zeroed.good {s t : State} {c a n : Nat} (h : Zeroed s t c a n) : ((List.range n).any fun i => t.granuleBad (a / 64 + i)) = false :=
  List.any_eq_false.mpr fun i hi => by
    rw [granuleBad_of_clean (h.poison i (List.mem_range.mp hi)) (h.failed i (List.mem_range.mp hi))]
    decide

theorem foldl_eq_self {σ α : Type} {f : σ → α → σ} {s : σ} {l : List α} (h : ∀ x ∈ l, f s x = s) : l.foldl f s = s := by
  induction l with
  | nil => rfl
  | cons x l ih => rw [List.foldl_cons, h x List.mem_cons_self, ih fun y hy => h y (List.mem_cons_of_mem x hy)]

theorem Zeroed.read {s t : State} {c a n : Nat} (h : Zeroed s t c a n) (ha : a % 64 = 0) :
    (List.range n).foldl (fun s i => s.readGranule c 0 (a + 64 * i)) t = t := by
  refine foldl_eq_self fun i hi => ?_
  have hgranule : (a + 64 * i) / 64 = a / 64 + i := by omega
  exact readGranule_of_clean _ _ (hgranule ▸ h.poison i (List.mem_range.mp hi)) (hgranule ▸ h.failed i (List.mem_range.mp hi))

/-- A cove's page whose test begins anew: it has no bad granules, and the house is charged for the test (R268). -/
def testBegun (s : State) (c page : Nat) : State :=
  ({ s with seq := vmod s.seq c fun x => { x with quarBad := x.quarBad.filter fun y => y.1 ≠ page } } : State).charge 0 0 0 131072

/-- A page that is due is written with zeros, and its test stands where every granule reads back clean (R268). -/
theorem quarantineTest_of_due {s t : State} {c : Nat} {d : CoveDecl} {page n : Nat} (hd : s.cove c = some d) (hdue : s.quarDue c page = true)
    (ha : d.pageDpa page % 64 = 0) (hn : n = 1024)
    (ht : (List.range n).foldl (fun s i => (s.writeGranule c (d.pageDpa page + 64 * i) (List.replicate 64 0)).1) (testBegun s c page) = t)
    (hzero : Zeroed (testBegun s c page) t c (d.pageDpa page) n) :
    s.quarantineTest c page [] = { t with seq := vmod t.seq c fun x => { x with quarOk := x.quarOk ++ [(page, t.hbm.scrubPass + 2)] } } := by
  have hgood := hzero.good
  have hread := hzero.read ha
  subst hn
  unfold testBegun at ht
  unfold State.quarantineTest
  rw [hd]
  dsimp only
  rw [hdue, if_neg (by decide), inject_nil, ht, hgood, hread, if_neg (by decide)]

theorem testBegun_frame (s : State) (c page : Nat) : ∃ a, testBegun s c page =
    { s with arbs := a, seq := vmod s.seq c fun x => { x with quarBad := x.quarBad.filter fun y => y.1 ≠ page } } := ⟨_, charge_house ..⟩

theorem quarantineTest_of_not_due {s : State} {c page : Nat} (found : List CellFault) (h : s.quarDue c page = false) :
    s.quarantineTest c page found = s := by
  unfold State.quarantineTest
  split
  · rfl
  · rw [h]
    rfl

/-- A zeroed byte of HBM reads as zero under its own cove's code (R514, R515). -/
theorem Zeroed.byteAt {s t : State} {c a n i : Nat} (h : Zeroed s t c a n) (ha : a % 64 = 0) (hi : i < 64 * n)
    (hregion : (t.region (a + i)).tagged = true) : t.byteAt c (a + i) = 0 := by
  have hgranule : (a + i) / 64 = a / 64 + i / 64 := by omega
  have htag : SMap.get 0 t.mem.tag ((a + i) / 64) = t.tagOf c := by
    rw [hgranule, h.tag _ (by omega), h.frame]
    rfl
  unfold State.byteAt
  dsimp only
  rw [if_pos hregion, if_pos (.inr htag), h.bytes i hi]

theorem region_of_hbm {s t : State} (hfuses : t.fuses = s.fuses) (hhbm : t.hbm = s.hbm) (a : Nat) : t.region a = s.region a := by
  unfold State.region
  rw [hfuses, hhbm]

/-- HBM holds whole granules (R291). -/
theorem region_of_granule {s : State} {a i : Nat} (h : s.region a = .hbm) (ha : a % 64 = 0) (hi : i < 64) : s.region (a + i) = .hbm := by
  unfold State.region at h ⊢
  by_cases hb : a < 0x40000000 * s.fuses.variant.nfit
  · exact if_pos (by omega)
  · rw [if_neg hb] at h
    split at h
    · cases h
    split at h
    · cases h
    split at h
    · cases h
    split at h <;> cases h

theorem region_of_page {s : State} {a n i : Nat} (h : ∀ i, i < n → s.region (a + 64 * i) = .hbm) (ha : a % 64 = 0) (hi : i < 64 * n) :
    s.region (a + i) = .hbm := by
  have hgranule := region_of_granule (i := i % 64) (h (i / 64) (by omega)) (by omega) (by omega)
  rwa [show a + 64 * (i / 64) + i % 64 = a + i by omega] at hgranule

/-- Settles O31: the scrubber's switch and its offset decide what it does; a page that is due is zeroed granule by granule, and reads back clean. -/
theorem scrubAndQuarantine : Obligations.ScrubAndQuarantine := by
  refine ⟨?_, ?_, ?_, ?_, ?_⟩
  · intro s hs hon hself hpoison hfailed hnext
    obtain ⟨a, h⟩ := scrubRead_of_clean hon hself hpoison hfailed
    exact ⟨_, next_of_answers hs (h.trans (if_neg (by omega))), rfl⟩
  · intro s hs hon hself hpoison hfailed hend
    obtain ⟨a, h⟩ := scrubRead_of_clean hon hself hpoison hfailed
    exact ⟨_, next_of_answers hs (h.trans (if_pos hend)), rfl⟩
  · intro s found hoff
    exact congrArg Host.Outcome.next (whileOn_of_fixed (scrubRead_of_off found hoff))
  · intro s c d page hs hd hdue halign hregion
    have ha : d.pageDpa page % 64 = 0 := by
      unfold CoveDecl.pageDpa
      omega
    obtain ⟨a, hbegun⟩ := testBegun_frame s c page
    obtain ⟨n, hn⟩ : ∃ n, n = 1024 := ⟨_, rfl⟩
    rw [← hn] at hregion
    have hzero := zeroed_foldl (s := testBegun s c page) (c := c) ha n fun i hi => by
      rw [hbegun]
      exact (region_of_hbm rfl rfl _).trans (hregion i hi)
    generalize ht : List.foldl _ _ _ = t at hzero
    have hframe := hzero.frame
    rw [hbegun] at hframe
    have hend := quarantineTest_of_due hd hdue ha hn ht hzero
    have hseq : t.seqc c = { s.seqc c with quarBad := (s.seqc c).quarBad.filter fun y => y.1 ≠ page } := by
      rw [hframe]
      exact vget_vmod_self _ _ _ _ c.isLt
    have htested := modSeq_seqc_self t (fun x => { x with quarOk := x.quarOk ++ [(page, t.hbm.scrubPass + 2)] }) c.isLt
    have hpass : t.hbm.scrubPass = s.hbm.scrubPass := by rw [hframe]
    refine ⟨_, next_of_answers hs hend, ?_, ?_, ?_, fun i hi => ?_, fun x hx => ?_⟩
    · rw [hframe]
    · exact (congrArg SeqCove.quarOk htested).trans (by rw [hseq, hpass])
    · exact (congrArg SeqCove.quar htested).trans (by rw [hseq])
    · refine hzero.byteAt ha (by omega) ?_
      rw [hframe]
      exact congrArg Region.tagged ((region_of_hbm rfl rfl _).trans (region_of_page hregion ha (by omega)))
    · refine (hzero.outside x (by omega)).trans ?_
      rw [hbegun]
  · intro s c page found hdue
    exact congrArg Host.Outcome.next (whileOn_of_fixed (quarantineTest_of_not_due found hdue))

end Sys2Proof.Proofs
end

section
/-! Caps, droops, trim and the stop (spec/13_power_and_thermal.md, R490 to R503). -/
namespace Sys2Proof.Proofs
open Sys2Proof Sys2Proof.Machine Sys2Proof.Laws

/-- A package that answers is not in P4. -/
theorem pstate_of_answers {s : State} (h : s.answers = true) : s.pstate ≠ 4 := by
  unfold State.answers at h
  simp only [Bool.and_eq_true, decide_eq_true_eq] at h
  exact h.2

theorem signals_weirEvent (s : State) (i : Nat) : Signals s (s.weirEvent i) := signals_event ..

theorem weir_of_signals {s t : State} (h : Signals s t) : t.weir = s.weir := (congrArg State.weir h).trans rfl

/-! ### Caps from the tray -/

/-- Bytes written little-endian read back as the number, as far as they reach. -/
theorem leNat_leBytes (n v : Nat) : leNat (leBytes n v) = v % 256 ^ n := by
  induction n generalizing v with
  | zero => simp [leBytes, leNat, Nat.mod_one]
  | succ n ih =>
    have hpow : v % 256 ^ (n + 1) = v % 256 + 256 * (v / 256 % 256 ^ n) := by rw [Nat.pow_succ', Nat.mod_mul]
    rw [leBytes, leNat, ih, BitVec.toNat_ofNat, hpow]

/-- The fields of the cap write of the tray (R490): the cap, its sequence number, and nothing else. -/
theorem capBytes (cap : BitVec 13) (seq : BitVec 8) :
    bits (leNat (leBytes 8 (cap.toNat + 0x10000 * seq.toNat))) 0 13 = cap.toNat ∧ bits (leNat (leBytes 8 (cap.toNat + 0x10000 * seq.toNat))) 13 3 = 0 ∧
      bits (leNat (leBytes 8 (cap.toNat + 0x10000 * seq.toNat))) 24 40 = 0 := by
  have hcap := cap.isLt
  have hseq := seq.isLt
  rw [leNat_leBytes]
  simp only [bits, Nat.shiftRight_eq_div_pow]
  omega

theorem length_leBytes (n v : Nat) : (leBytes n v).length = n := by
  induction n generalizing v with
  | zero => rfl
  | succ n ih => rw [leBytes, List.length_cons, ih]

/-- What a cap in its range changes: below the limit the limit follows it, else it waits for the next closure (R492). -/
def capTaken (cap now : Nat) (w : Weir) : Weir :=
  if cap < w.lim then { w with capI3c := cap, lInt := Nat.max cap (Nat.min w.lim w.p10), following := some now, raise := false }
  else { w with capI3c := cap, following := none, raise := true }

theorem i3cCap_of_cap {s : State} (cap : BitVec 13) (seq : BitVec 8) (hs : s.answers = true) :
    s.i3cCap (leBytes 8 (cap.toNat + 0x10000 * seq.toNat)) = if cap.toNat < 1800 ∨ 4200 < cap.toNat
      then ((s.weirCount 0x70 1).weirEvent 5).emit (.i3c false) else (s.modWeir (capTaken cap.toNat s.now)).emit (.i3c true) := by
  obtain ⟨hlow, hmid, hhigh⟩ := capBytes cap seq
  unfold State.i3cCap
  dsimp only
  rw [if_neg (pstate_of_answers hs), hlow, hmid, hhigh, length_leBytes]
  simp only [ne_eq, not_true_eq_false, false_or]
  rfl

/-! ### Floor mode and the levels of the pins -/

/-- Floor mode runs at n = 2 (R493). -/
theorem enterFloor_weir (s : State) : s.enterFloor.weir.floor = true ∧ s.enterFloor.weir.n = 2 ∧ s.enterFloor.weir.lvl = s.weir.lvl := by
  unfold State.enterFloor
  split
  next h => exact ⟨h, rfl, rfl⟩
  next =>
    rw [weir_of_signals (signals_weirEvent ..)]
    exact ⟨rfl, rfl, rfl⟩

theorem capLvl_spec (s : State) (l : Nat) : (s.capLvl l).weir.lvl = l ∧
    (s.capPreset l < s.fastCap → s.governed = true → s.stopped = false → (s.capLvl l).weir.floor = true ∧ (s.capLvl l).weir.n = 2) ∧
    (s.fastCap ≤ s.capPreset l → s.capLvl l = { s with weir := { s.weir with lvl := l } }) := by
  have hfast : (s.modWeir fun w => { w with lvl := l }).fastCap = s.capPreset l := rfl
  obtain ⟨hfloor, hn, hlvl⟩ := enterFloor_weir (s.modWeir fun w => { w with lvl := l })
  unfold State.capLvl
  dsimp only
  rw [hfast]
  refine ⟨?_, fun hlow hgov hstop => ?_, fun hhigh => if_neg (by omega)⟩
  · split
    · exact hlvl
    · rfl
  · rw [if_pos (by exact ⟨hlow, hgov, by simp [hstop]⟩)]
    exact ⟨hfloor, hn⟩

/-! ### The stop -/

theorem enterStop_of_running {s : State} (hstop : s.stopped = false) (hp : s.pstate ≠ 4) :
    s.enterStop = (({ s with stopped := true } : State).modWeir fun w => { w with stopTick := s.now }).weirEvent 4 :=
  if_neg (by simp [hstop, hp])

/-- The stop of a running package: its tick and its event, and nothing of memory or of the registers (R500). -/
theorem enterStop_spec {s : State} (hstop : s.stopped = false) (hp : s.pstate ≠ 4) :
    s.enterStop.stopped = true ∧ s.enterStop.weir = { s.weir with stopTick := s.now } ∧ s.enterStop.flagBit (blkWEIR + 4) 4 = true ∧
      s.enterStop.mem = s.mem ∧ s.enterStop.hbm = s.hbm ∧ s.enterStop.regs = s.regs := by
  rw [enterStop_of_running hstop hp]
  have hsig := signals_weirEvent (({ s with stopped := true } : State).modWeir fun w => { w with stopTick := s.now }) 4
  exact ⟨(congrArg State.stopped hsig).trans rfl, weir_of_signals hsig, event_bit _ _ _ _ (by decide), (congrArg State.mem hsig).trans rfl,
    (congrArg State.hbm hsig).trans rfl, (congrArg State.regs hsig).trans rfl⟩

/-! ### Margin trim -/

theorem trimDie_of_in_window (lo hi : Int) (n : Nat) {x : Int} (l : List Int) (v : Int) (hlo : lo ≤ x) (hhi : x ≤ hi) :
    trimDie lo hi (n + 1) (x :: l) v = (v, x, true) := by
  rw [trimDie, if_neg (by omega), if_neg (by omega)]

theorem trimDie_of_below (lo hi : Int) (n : Nat) {x v : Int} (l : List Int) (hlo : x < lo) (hv : v < 16) :
    trimDie lo hi (n + 1) (x :: l) v = trimDie lo hi n l (v + 1) := by
  rw [trimDie, if_pos hlo, if_pos hv]

/-- A die whose last slack lies in the window has not reached its limit (R504). -/
theorem trimLimitOf_of_in_window (s : State) (die : Nat) (v x : Int) : s.trimLimitOf die (v, x, true) = s := if_neg (by simp)

/-- The Weir after a trim run that brought both dies into the window (R503). -/
def trimmed (a b : Int) (now : Nat) (w : Weir) : Weir :=
  { w with trim := #v[a, b], flashTrim := #v[a, b], trimTime := 0, trimMark := now, nMax := 16, trimLimit := false }

/-- A run after boot that brings both dies into the window keeps their steps, and the ceiling is whole again (R503). -/
theorem trimRun_of_in_window {s : State} {e w : List Int} {a b x y : Int} (hdue : s.trimDue = true) (hdone : s.hif.trimDone = true)
    (he : trimDie s.fuses.slackLo s.fuses.slackHi 32 e (vget 0 s.weir.trim 0) = (a, x, true))
    (hw : trimDie s.fuses.slackLo s.fuses.slackHi 32 w (vget 0 s.weir.trim 1) = (b, y, true)) :
    s.trimRun e w = (({ s with hif := { s.hif with trimDone := true } } : State).modWeir (trimmed a b s.now)).bump (blkWEIR + 0x78) 1 := by
  unfold State.trimRun
  dsimp only
  rw [hdue, hdone, if_neg (by decide)]
  simp only [↓reduceIte, he, hw, Bool.and_self, trimLimitOf_of_in_window]
  refine (if_neg ?_).trans rfl
  rintro ⟨hboot, -⟩
  have hboot : (!s.hif.trimDone) = true := hboot
  rw [hdone] at hboot
  exact absurd hboot (by decide)

/-- Settles O46: each signal changes the Weir as its limits, its levels and the slacks it brings decide. -/
theorem capsDroopsTrimAndStop : Obligations.CapsDroopsTrimAndStop := by
  refine ⟨?_, ?_, ?_, ?_, ?_, ?_, ?_, ?_, ?_, ?_⟩
  · intro s cap seq hs hlo hhi
    have htaken := (i3cCap_of_cap cap seq hs).trans (if_neg (by omega))
    refine ⟨_, next_of_answers hs htaken, ?_, fun hbelow => ?_, fun habove => ?_, rfl, rfl⟩
    · show (capTaken cap.toNat s.now s.weir).capI3c = _
      unfold capTaken
      split <;> rfl
    · have h : capTaken cap.toNat s.now s.weir = _ := if_pos hbelow
      exact ⟨congrArg Weir.lInt h, congrArg Weir.following h⟩
    · have h : capTaken cap.toNat s.now s.weir = _ := if_neg (by omega)
      exact ⟨(congrArg Weir.lInt h).trans rfl, (congrArg Weir.raise h).trans rfl⟩
  · intro s cap seq hs hout
    have hsig : Signals s ((s.weirCount 0x70 1).weirEvent 5) := (signals_bump ..).trans (signals_weirEvent ..)
    have hcap : Signals s (((s.weirCount 0x70 1).weirEvent 5).emit (.i3c false)) := hsig.trans (signals_emit ..)
    exact ⟨_, next_of_answers hs ((i3cCap_of_cap cap seq hs).trans (if_pos hout)), (emit_weir ..).trans (weir_of_signals hsig), List.getLast?_concat ..,
      event_bit _ _ _ _ (by decide), hcap⟩
  · intro s l hs
    exact ⟨_, next_of_answers hs rfl, capLvl_spec s l⟩
  · intro s d x hs
    exact ⟨_, next_of_answers hs rfl, rfl, vget_vmod_self _ _ _ _ d.isLt, bump_ctr_self .., rfl⟩
  · intro s d x hs
    exact ⟨_, next_of_answers hs rfl, vget_vmod_self _ _ _ _ d.isLt, rfl, rfl⟩
  · intro s hs hstop
    have hp := pstate_of_answers hs
    constructor
    · obtain ⟨hstopped, hweir, hbit, hmem, hhbm, hregs⟩ := enterStop_spec (s := s.modWeir fun w => { w with thermtrip := true }) hstop hp
      exact ⟨_, next_of_answers hs (if_neg hp), hstopped, by rw [hweir]; rfl, by rw [hweir]; rfl, hbit, hmem, hhbm, hregs⟩
    · obtain ⟨hstopped, hweir, hbit, hmem, hhbm, hregs⟩ := enterStop_spec hstop hp
      exact ⟨_, next_of_answers hs rfl, hstopped, by rw [hweir], hbit, hmem, hhbm, hregs⟩
  · intro s hp hstop
    exact congrArg Host.Outcome.next (whileOn_of_fixed (if_pos (.inl hstop)))
  · intro s x y hs hdue hdone hxlo hxhi hylo hyhi
    have hrun := trimRun_of_in_window hdue hdone (trimDie_of_in_window _ _ 31 [] (vget 0 s.weir.trim 0) hxlo hxhi)
      (trimDie_of_in_window _ _ 31 [] (vget 0 s.weir.trim 1) hylo hyhi)
    exact ⟨_, next_of_answers hs hrun, rfl, rfl, rfl, rfl, bump_ctr_self .., rfl, rfl⟩
  · intro s x z y hs hdue hdone hx hv hzlo hzhi hylo hyhi
    have hrun := trimRun_of_in_window hdue hdone
      ((trimDie_of_below _ _ 31 [z] hx hv).trans (trimDie_of_in_window _ _ 30 [] (vget 0 s.weir.trim 0 + 1) hzlo hzhi))
      (trimDie_of_in_window _ _ 31 [] (vget 0 s.weir.trim 1) hylo hyhi)
    exact ⟨_, next_of_answers hs hrun, rfl, rfl⟩
  · intro s e w hdue
    exact congrArg Host.Outcome.next (whileOn_of_fixed (if_pos (by simp [hdue])))

end Sys2Proof.Proofs
end

section
/-! Closures of the power loop (spec/13_power_and_thermal.md, R486 to R498). -/
namespace Sys2Proof.Proofs
open Sys2Proof Sys2Proof.Machine Sys2Proof.Laws

/-- Nothing but the Weir and what signals differs. -/
def Governs (s t : State) : Prop := t = { s with weir := t.weir, ctrs := t.ctrs, flags := t.flags, hif := t.hif, out := t.out }

theorem Governs.trans {s t u : State} (h : Governs s t) (k : Governs t u) : Governs s u := Eq.trans k (by rw [h])

theorem governs_of_signals {s t : State} (h : Signals s t) : Governs s t := Eq.trans h (by rw [h])

theorem governs_modWeir (s : State) (f : Weir → Weir) : Governs s (s.modWeir f) := rfl

/-- A new thermal ceiling changes it alone in the Weir. -/
theorem setNTh_spec (s : State) (n : Nat) : Governs s (s.setNTh n) ∧ (s.setNTh n).weir = { s.weir with nTh := n } := by
  unfold State.setNTh
  split
  next h => exact ⟨rfl, by rw [h]⟩
  next =>
    extract_lets from16 counted
    have hcounted : Governs s counted := rfl
    split
    · exact ⟨hcounted.trans (governs_of_signals (signals_weirEvent ..)), weir_of_signals (signals_weirEvent ..)⟩
    · exact ⟨hcounted, rfl⟩

/-- A step of a closure that leaves the thermal ceiling and the time of the closure alone. -/
structure LoopKept (s t : State) : Prop where
  frame : Governs s t
  last : t.weir.lastClosure = s.weir.lastClosure
  thermal : t.weir.nTh = s.weir.nTh
  cool : t.weir.coolMs = s.weir.coolMs

theorem LoopKept.trans {s t u : State} (h : LoopKept s t) (k : LoopKept t u) : LoopKept s u :=
  ⟨h.frame.trans k.frame, k.last.trans h.last, k.thermal.trans h.thermal, k.cool.trans h.cool⟩

/-- A closure judges the thermal ceiling first: at TJ_LIMIT or above it falls, and the millisecond was not cool (R498). -/
theorem thermalClosure_spec (s : State) (tj : List (Option Nat)) :
    Governs s (s.thermalClosure tj) ∧ (s.thermalClosure tj).weir.lastClosure = s.weir.lastClosure ∧
      (s.tjLimit ≤ s.hottest tj → (s.thermalClosure tj).weir.nTh ≤ Nat.max 2 (s.weir.nTh - 1) ∧ (s.thermalClosure tj).weir.coolMs = false) := by
  unfold State.thermalClosure
  extract_lets hot sensed n1 rows n2 warm
  have hsensed : LoopKept s sensed := by
    unfold sensed
    split <;> exact ⟨rfl, rfl, rfl, rfl⟩
  have hwarm : Governs s warm ∧ warm.weir.lastClosure = s.weir.lastClosure := by
    unfold warm
    split
    · exact ⟨hsensed.frame.trans (governs_modWeir ..), hsensed.last⟩
    · exact ⟨hsensed.frame, hsensed.last⟩
  obtain ⟨hset, hweir⟩ := setNTh_spec warm n2
  refine ⟨hwarm.1.trans hset, by rw [hweir]; exact hwarm.2, fun hhot => ?_⟩
  have hlimit : sensed.tjLimit = s.tjLimit := by rw [hsensed.frame]; rfl
  have hn1 : n1 = Nat.max 2 (s.weir.nTh - 1) := (if_pos (by rw [hlimit]; exact hhot)).trans (by rw [hsensed.thermal])
  have hn2 : n2 ≤ n1 := by
    unfold n2
    split
    · exact Nat.min_le_left ..
    split
    · exact Nat.min_le_left ..
    · exact le_rfl
  have hcool : warm.weir.coolMs = false := by
    unfold warm
    rw [if_pos (by rw [hlimit]; exact Nat.le_add_right_of_le hhot)]
    rfl
  rw [hweir]
  exact ⟨hn2.trans_eq hn1, hcool⟩

theorem loopKept_droopClosure (s : State) : LoopKept s s.droopClosure := ⟨rfl, rfl, rfl, rfl⟩

/-- A closure takes the samples and bounds the burst credit (R486, R488). -/
theorem powerClosure_spec (s : State) : LoopKept s s.powerClosure ∧ s.powerClosure.weir.samples = [] ∧ s.powerClosure.weir.credit ≤ s.creditMax := by
  unfold State.powerClosure
  extract_lets l p10 above counted
  have hcounted : ∃ n, counted = { s with ctrs := n } := by
    unfold counted
    split
    · exact ⟨_, rfl⟩
    · exact ⟨s.ctrs, rfl⟩
  obtain ⟨n, hcounted⟩ := hcounted
  clear_value counted
  subst hcounted
  exact ⟨⟨rfl, rfl, rfl, rfl⟩, rfl, Nat.min_le_left ..⟩

/-- Floor mode leaves the samples, the credit and the thermal ceiling alone (R493). -/
theorem enterFloor_kept (s : State) : LoopKept s s.enterFloor ∧ s.enterFloor.weir.samples = s.weir.samples ∧ s.enterFloor.weir.credit = s.weir.credit := by
  unfold State.enterFloor
  split
  · exact ⟨⟨rfl, rfl, rfl, rfl⟩, rfl, rfl⟩
  · have hsig (u : State) : (u.weirEvent 1).weir = u.weir := weir_of_signals (signals_weirEvent u 1)
    have hframe (u : State) (h : Governs s u) : Governs s (u.weirEvent 1) := h.trans (governs_of_signals (signals_weirEvent ..))
    exact ⟨⟨hframe _ rfl, by rw [hsig]; rfl, by rw [hsig]; rfl, by rw [hsig]; rfl⟩, by rw [hsig]; rfl, by rw [hsig]; rfl⟩

theorem capClosure_kept (s : State) : LoopKept s s.capClosure ∧ s.capClosure.weir.samples = s.weir.samples ∧ s.capClosure.weir.credit = s.weir.credit := by
  unfold State.capClosure
  split
  next since _ =>
    extract_lets l followed
    have hfollowed : LoopKept s followed := ⟨rfl, rfl, rfl, rfl⟩
    obtain ⟨hfloor, hsamples, hcredit⟩ := enterFloor_kept followed
    split
    · exact ⟨hfollowed.trans hfloor, hsamples, hcredit⟩
    · exact ⟨hfollowed, rfl, rfl⟩
  next => split <;> exact ⟨⟨rfl, rfl, rfl, rfl⟩, rfl, rfl⟩

/-- What a closure sets: the limit, n, and whether floor mode goes on; n is 2 or more, and above 2 at no more than each ceiling (R488). -/
theorem setN_spec (s : State) : LoopKept s s.setN ∧ s.setN.weir.samples = s.weir.samples ∧ s.setN.weir.credit = s.weir.credit ∧ 2 ≤ s.setN.weir.n ∧
    s.setN.weir.n ≤ Nat.max 2 (Nat.min s.setN.weir.nMax (Nat.min s.setN.weir.nTh s.setN.weir.nDr)) := by
  have hhold (n cap : Nat) : 2 ≤ Nat.max 2 (Nat.min n cap) ∧ Nat.max 2 (Nat.min n cap) ≤ Nat.max 2 cap :=
    ⟨Nat.le_max_left .., Nat.max_le.mpr ⟨Nat.le_max_left .., (Nat.min_le_right ..).trans (Nat.le_max_right ..)⟩⟩
  unfold State.setN
  extract_lets w lim cap hold
  split
  · split
    · exact ⟨⟨rfl, rfl, rfl, rfl⟩, rfl, rfl, hhold ..⟩
    · exact ⟨⟨rfl, rfl, rfl, rfl⟩, rfl, rfl, hhold ..⟩
  split
  · exact ⟨⟨rfl, rfl, rfl, rfl⟩, rfl, rfl, hhold ..⟩
  split
  · exact ⟨⟨rfl, rfl, rfl, rfl⟩, rfl, rfl, hhold ..⟩
  · exact ⟨⟨rfl, rfl, rfl, rfl⟩, rfl, rfl, hhold ..⟩

/-- The steps of a closure after the thermal one. -/
def loopRest (s : State) : State := s.droopClosure.powerClosure.capClosure.setN

theorem loopRest_spec (s : State) : LoopKept s (loopRest s) ∧ (loopRest s).weir.samples = [] ∧ (loopRest s).weir.credit ≤ s.creditMax ∧
    2 ≤ (loopRest s).weir.n ∧ (loopRest s).weir.n ≤ Nat.max 2 (Nat.min (loopRest s).weir.nMax (Nat.min (loopRest s).weir.nTh (loopRest s).weir.nDr)) := by
  have hdroop := loopKept_droopClosure s
  obtain ⟨hpower, hsamples, hcredit⟩ := powerClosure_spec s.droopClosure
  obtain ⟨hcap, hcapSamples, hcapCredit⟩ := capClosure_kept s.droopClosure.powerClosure
  obtain ⟨hset, hsetSamples, hsetCredit, hlow, hhigh⟩ := setN_spec s.droopClosure.powerClosure.capClosure
  exact ⟨((hdroop.trans hpower).trans hcap).trans hset, (hsetSamples.trans hcapSamples).trans hsamples,
    ((hsetCredit.trans hcapCredit).trans_le hcredit), hlow, hhigh⟩

theorem loopClosure_of_due {s : State} (tj : List (Option Nat)) (hnow : s.now % 1000 = 0) (hlast : s.weir.lastClosure ≠ some s.now)
    (hgov : s.governed = true) (hstop : s.stopped = false) :
    s.loopClosure tj = loopRest ((s.modWeir fun w => { w with lastClosure := some s.now }).thermalClosure tj) := by
  unfold State.loopClosure
  rw [if_neg (by simp [hnow, hlast, hgov, hstop])]
  rfl

/-- What a millisecond boundary sets in the Weir: the droop ceiling rises where few trips came (R497). -/
theorem weirMs_spec {s : State} (hnow : s.now % 100000 = 0) (hlast : s.weir.lastMs ≠ some s.now) (hgov : s.governed = true) (hstop : s.stopped = false) :
    s.weirMs.weir.lastMs = some s.now ∧ s.weirMs.weir.coolMs = true ∧ s.weirMs.rip.droops = [] ∧
      s.weirMs.weir.nDr = (if 2 * (s.weir.trips.filter fun x => s.now ≤ x + 100000).length < s.droopRate then Nat.min 16 (s.weir.nDr + 1) else s.weir.nDr) ∧
      s.weirMs = { s with weir := s.weirMs.weir, rip := s.weirMs.rip, ctrs := s.weirMs.ctrs, flags := s.weirMs.flags, hif := s.weirMs.hif,
                          out := s.weirMs.out } := by
  unfold State.weirMs
  rw [if_neg (by simp [hnow, hlast, hgov, hstop])]
  extract_lets trips cool begun rows top warmed ds rip cleared
  have hwarmed : Governs s warmed ∧ warmed.weir.lastMs = some s.now ∧ warmed.weir.coolMs = true ∧ warmed.weir.nDr = begun.weir.nDr := by
    unfold warmed
    split
    · obtain ⟨hframe, hweir⟩ := setNTh_spec begun (Nat.min top (begun.weir.nTh + 1))
      exact ⟨(governs_modWeir ..).trans hframe, by rw [hweir]; rfl, by rw [hweir]; rfl, by rw [hweir]⟩
    · exact ⟨rfl, rfl, rfl, rfl⟩
  obtain ⟨hframe, hms, hcool, hdr⟩ := hwarmed
  have hcleared : cleared = { s with weir := warmed.weir, rip := cleared.rip, ctrs := warmed.ctrs, flags := warmed.flags, hif := warmed.hif,
                                     out := warmed.out } :=
    congrArg (fun x : State => ({ x with rip := { warmed.rip with droops := [] } } : State)) hframe
  split
  · exact ⟨hms, hcool, rfl, hdr, hcleared⟩
  · obtain ⟨hrecords, -, hdroops⟩ := rippleHist_spec cleared ripDroop ((ds.map fun d => Nat.min 255 (d.2 / 2)).foldl Nat.max 0) 0x80
      (cleared.now - 100000) (ds.map Prod.fst)
    generalize cleared.rippleHist ripDroop _ 0x80 _ _ = t at hrecords hdroops ⊢
    have hweir : t.weir = warmed.weir := (congrArg State.weir hrecords).trans rfl
    rw [hweir]
    exact ⟨hms, hcool, hdroops, hdr, Eq.trans hrecords (by rw [hcleared])⟩

/-- Settles O45: the closure's steps one after another, each leaving what the earlier ones set. -/
theorem closuresOfThePowerLoop : Obligations.ClosuresOfThePowerLoop := by
  refine ⟨?_, ?_, ?_, ?_⟩
  · intro s tj hs hnow hlast hgov hstop
    obtain ⟨hframe, htime, -⟩ := thermalClosure_spec (s.modWeir fun w => { w with lastClosure := some s.now }) tj
    obtain ⟨hrest, hsamples, hcredit, hlow, hhigh⟩ := loopRest_spec ((s.modWeir fun w => { w with lastClosure := some s.now }).thermalClosure tj)
    have hmax : ((s.modWeir fun w => { w with lastClosure := some s.now }).thermalClosure tj).creditMax = s.creditMax := by
      rw [hframe]
      rfl
    exact ⟨_, next_of_answers hs (loopClosure_of_due tj hnow hlast hgov hstop), hrest.last.trans htime, hlow, hhigh, hsamples, hcredit.trans_eq hmax,
      (Governs.trans (governs_modWeir ..) hframe).trans hrest.frame⟩
  · intro s tj hs hnow hlast hgov hstop hhot
    obtain ⟨-, -, hwarm⟩ := thermalClosure_spec (s.modWeir fun w => { w with lastClosure := some s.now }) tj
    obtain ⟨hth, hcool⟩ := hwarm hhot
    have hrest := (loopRest_spec ((s.modWeir fun w => { w with lastClosure := some s.now }).thermalClosure tj)).1
    exact ⟨_, next_of_answers hs (loopClosure_of_due tj hnow hlast hgov hstop), hrest.thermal.trans_le hth, hrest.cool.trans hcool⟩
  · intro s tj h
    refine congrArg Host.Outcome.next (whileOn_of_fixed (if_pos ?_))
    rcases h with h | h | h
    · exact .inl h
    · exact .inr (.inr (.inl (by simp [h])))
    · exact .inr (.inr (.inr h))
  · intro s hs hnow hlast hgov hstop
    exact ⟨_, next_of_answers hs rfl, weirMs_spec hnow hlast hgov hstop⟩

end Sys2Proof.Proofs
end

section
/-! What the operations of the links change (spec/11_basin_links_and_topology.md, R407, R421, R422, R435 to R439). -/
namespace Sys2Proof.Proofs
open Sys2Proof Sys2Proof.Machine Sys2Proof.Laws

/-! ### One control frame -/

/-- What sending control frames other than IDENT changes. -/
def Sent (s t : State) : Prop :=
  t = { s with lnk := { s.lnk with conns := t.lnk.conns, wire := t.lnk.wire }, ctrs := t.ctrs, out := t.out, arbs := t.arbs }

theorem Sent.refl (s : State) : Sent s s := rfl

theorem Sent.trans {s t u : State} (h : Sent s t) (k : Sent t u) : Sent s u := Eq.trans k (by rw [h])

theorem modConn_conn_self (s : State) (k : Nat) (f : Conn → Conn) : (s.modConn k f).conn k = f (s.conn k) := get_upd_self _ _ _ _

theorem modConn_conn_ne (s : State) {j k : Nat} (f : Conn → Conn) (h : j ≠ k) : (s.modConn k f).conn j = s.conn j := get_upd_ne _ _ _ _ _ h

theorem sent_control (s : State) (p k : Nat) {kind : Nat} (fields : List Nat) (h : kind ≠ 5) : Sent s (s.control p k kind fields) := by
  unfold State.control
  dsimp only
  rw [if_neg h]
  rfl

theorem control_ident (s : State) (p k : Nat) (fields : List Nat) : s.control p k 5 fields =
    { s with lnk := { s.lnk with wire := (s.control p k 5 fields).lnk.wire, identCtr := s.lnk.identCtr + 1 },
             ctrs := (s.control p k 5 fields).ctrs, out := s.out ++ [.frame p 5 fields], arbs := (s.control p k 5 fields).arbs } := rfl

theorem control_out (s : State) (p k kind : Nat) (fields : List Nat) : (s.control p k kind fields).out = s.out ++ [.frame p kind fields] := by
  unfold State.control
  dsimp only
  split <;> rfl

theorem control_wire (s : State) (p k : Nat) {kind : Nat} (fields : List Nat) (h : kind ≠ 5) : (s.control p k kind fields).lnk.wire =
    s.lnk.wire ++ [(p, s.onWire p k 0 (Packet.resyncReq s.ownNode (k % 65536) 0).hash (s.controlFrame k kind fields))] := by
  unfold State.control
  dsimp only
  rw [if_neg h]
  rfl

theorem control_conns (s : State) (p k : Nat) {kind : Nat} (fields : List Nat) (h : kind ≠ 5) :
    (s.control p k kind fields).lnk.conns = (s.modConn k fun c => { c with ctlTx := c.ctlTx + 1 }).lnk.conns := by
  unfold State.control
  dsimp only
  rw [if_neg h]
  rfl

theorem control_conn_self (s : State) (p k : Nat) {kind : Nat} (fields : List Nat) (h : kind ≠ 5) :
    (s.control p k kind fields).conn k = { s.conn k with ctlTx := (s.conn k).ctlTx + 1 } := by
  rw [State.conn, control_conns s p k fields h]
  exact modConn_conn_self _ _ _

theorem control_conn_ne (s : State) (p : Nat) {j k kind : Nat} (fields : List Nat) (hj : j ≠ k) : (s.control p k kind fields).conn j = s.conn j := by
  by_cases h : kind = 5
  · subst h
    rw [control_ident]
    rfl
  · rw [State.conn, control_conns s p k fields h]
    exact modConn_conn_ne _ _ hj

theorem control_ctr (s : State) {p o : Nat} (k kind : Nat) (fields : List Nat) (h : o ≠ portOff p 0x48) :
    (s.control p k kind fields).ctr o = s.ctr o := by
  have hc : (s.control p k kind fields).ctrs = (s.bump (portOff p 0x48) 1).ctrs := by
    unfold State.control
    dsimp only
    split <;> rfl
  rw [State.ctr, hc]
  exact bump_ctr_ne _ _ _ _ h

/-! ### What every operation of the links keeps -/

/-- No port changes, no position strap and of the host interface the MSI-X state alone, no event bit is taken back, what was sent stays sent, no retrain is counted. -/
structure Linked (s t : State) : Prop where
  frame : t = { s with lnk := t.lnk, ctrs := t.ctrs, flags := t.flags, hif := t.hif, out := t.out, arbs := t.arbs, draws := t.draws, flt := t.flt }
  ports : t.lnk.ports = s.lnk.ports
  record : t.lnk.portRecord = s.lnk.portRecord
  seat : t.lnk.pos = s.lnk.pos ∧ t.hif = { s.hif with msix := t.hif.msix }
  retrains : ∀ p, t.ctr (portOff p 0x40) = s.ctr (portOff p 0x40)
  said : ∀ o ∈ s.out, o ∈ t.out
  bits : KeepsBits s t

theorem Linked.refl (s : State) : Linked s s := ⟨rfl, rfl, rfl, ⟨rfl, rfl⟩, fun _ => rfl, fun _ h => h, .refl s⟩

theorem Linked.trans {s t u : State} (h : Linked s t) (k : Linked t u) : Linked s u :=
  ⟨Eq.trans k.frame (by rw [h.frame]), k.ports.trans h.ports, k.record.trans h.record,
   ⟨k.seat.1.trans h.seat.1, k.seat.2.trans (by rw [h.seat.2])⟩, fun p => (k.retrains p).trans (h.retrains p),
   fun o ho => k.said o (h.said o ho), h.bits.trans k.bits⟩

theorem Linked.foldl {α : Type} {f : State → α → State} (hf : ∀ s x, Linked s (f s x)) (l : List α) (s : State) : Linked s (l.foldl f s) := by
  induction l generalizing s with
  | nil => exact .refl s
  | cons x l ih => exact (hf s x).trans (ih _)

theorem linked_modConn (s : State) (k : Nat) (f : Conn → Conn) : Linked s (s.modConn k f) := ⟨rfl, rfl, rfl, ⟨rfl, rfl⟩, fun _ => rfl, fun _ h => h, .of_flags rfl⟩

theorem linked_modNode (s : State) (n : Nat) (f : NodeLoss → NodeLoss) : Linked s (s.modNode n f) :=
  ⟨rfl, rfl, rfl, ⟨rfl, rfl⟩, fun _ => rfl, fun _ h => h, .of_flags rfl⟩

theorem linked_bump (s : State) {o : Nat} (n : Nat) (h : ∀ p, portOff p 0x40 ≠ o) : Linked s (s.bump o n) :=
  ⟨rfl, rfl, rfl, ⟨rfl, rfl⟩, fun p => bump_ctr_ne _ _ _ _ (h p), fun _ h => h, .of_flags rfl⟩

theorem retrains_ne_sent (p : Nat) : portOff p 0x40 ≠ ctrMsixSent := by
  unfold portOff ctrMsixSent blkLNK blkHIF
  omega

theorem retrains_ne_frames (p q : Nat) : portOff p 0x40 ≠ portOff q 0x48 := by
  unfold portOff
  omega

theorem retrains_ne_unrouted (p : Nat) : portOff p 0x40 ≠ lnkCtr 0x40 := by
  unfold portOff lnkCtr
  omega

theorem raise_said (s : State) (fn vec : Nat) (o : Out) (h : o ∈ s.out) : o ∈ (s.raise fn vec).out := by
  unfold State.raise
  dsimp only
  split; · exact h
  split; · exact h
  split; · exact h
  exact List.mem_append_left _ h

theorem linked_lnkEvent (s : State) (i : Nat) : Linked s (s.lnkEvent i) := by
  have hs : Signals s (s.lnkEvent i) := signals_event ..
  exact ⟨Eq.trans hs (by rw [hs]), (congrArg (fun x => x.lnk.ports) hs).trans rfl, (congrArg (fun x => x.lnk.portRecord) hs).trans rfl,
    ⟨(congrArg (fun x => x.lnk.pos) hs).trans rfl, raise_hif ..⟩, fun p => event_ctr _ _ _ _ _ (retrains_ne_sent p), fun o ho => raise_said _ _ _ o ho, keepsBits_event ..⟩

theorem linked_control (s : State) (p k kind : Nat) (fields : List Nat) : Linked s (s.control p k kind fields) := by
  have hctr : ∀ q, (s.control p k kind fields).ctr (portOff q 0x40) = s.ctr (portOff q 0x40) := fun q => control_ctr _ _ _ _ (retrains_ne_frames q p)
  have hsaid : ∀ o ∈ s.out, o ∈ (s.control p k kind fields).out := fun o ho => by
    rw [control_out]
    exact List.mem_append_left _ ho
  by_cases h : kind = 5
  · subst h
    exact ⟨rfl, rfl, rfl, ⟨rfl, rfl⟩, hctr, hsaid, .of_flags rfl⟩
  · have hs := sent_control s p k fields h
    have hhif : (s.control p k kind fields).hif = s.hif := (congrArg State.hif hs).trans rfl
    exact ⟨Eq.trans hs (by rw [hs]), (congrArg (fun x => x.lnk.ports) hs).trans rfl, (congrArg (fun x => x.lnk.portRecord) hs).trans rfl,
      ⟨(congrArg (fun x => x.lnk.pos) hs).trans rfl, by rw [hhif]⟩, hctr, hsaid,
      .of_flags ((congrArg State.flags hs).trans rfl)⟩

theorem linked_draw (s : State) : Linked s s.draw.2 := ⟨rfl, rfl, rfl, ⟨rfl, rfl⟩, fun _ => rfl, fun _ h => h, .of_flags rfl⟩

theorem linked_sendIdent (s : State) (p k : Nat) (fresh : Bool) : Linked s (s.sendIdent p k fresh) := by
  unfold State.sendIdent
  extract_lets d s₁ s₂
  have h₁ : Linked s s₁ := by
    unfold s₁
    split
    · exact (linked_draw s).trans (linked_modConn ..)
    · exact .refl s
  have h₂ : Linked s₁ s₂ := by
    unfold s₂
    split
    · exact .refl _
    · exact linked_modConn ..
  exact h₁.trans (h₂.trans (linked_control ..))

/-- A node without a live choice is shown as unreachable. -/
def unreachable (s : State) (n : Nat) : State := { s with lnk := { s.lnk with unreach := n } }

theorem linked_unreachable (s : State) (n : Nat) : Linked s ((unreachable s n).lnkEvent 1) :=
  Linked.trans (t := unreachable s n) ⟨rfl, rfl, rfl, ⟨rfl, rfl⟩, fun _ => rfl, fun _ h => h, .of_flags rfl⟩ (linked_lnkEvent _ 1)

theorem linked_noRoute (s : State) (node : Nat) : Linked s (s.noRoute node none) := by
  have h : Linked s (s.bump (lnkCtr 0x40) 1) := linked_bump s 1 retrains_ne_unrouted
  unfold State.noRoute State.freeBlocks
  dsimp only
  split
  · exact h
  · exact h.trans (linked_unreachable _ node)

theorem linked_enqueue (s : State) (p : Nat) (it : EgItem) : Linked s (s.enqueue p it) := ⟨rfl, rfl, rfl, ⟨rfl, rfl⟩, fun _ => rfl, fun _ h => h, .of_flags rfl⟩

theorem linked_toEgress (s : State) (it : EgItem) (front : Bool) (h : it.inPort = none) : Linked s (s.toEgress it front) := by
  unfold State.toEgress
  extract_lets node live
  clear_value live
  cases live with
  | nil =>
    rw [h]
    exact linked_noRoute ..
  | cons c live =>
    generalize nth (0, false) (c :: live) (it.packet.hash % (c :: live).length) = choice
    obtain ⟨p, date⟩ := choice
    dsimp -zeta only
    extract_lets sub it' s₁
    have h₁ : Linked s s₁ := by
      unfold s₁
      split
      · exact linked_sendIdent ..
      · exact .refl s
    split
    · exact h₁.trans ⟨rfl, rfl, rfl, ⟨rfl, rfl⟩, fun _ => rfl, fun _ h => h, .of_flags rfl⟩
    · exact h₁.trans (linked_enqueue ..)

theorem linked_resolve (s : State) (k : Nat) : Linked s (s.resolve k) := by
  unfold State.resolve
  dsimp only
  refine (linked_modConn s k _).trans (Linked.foldl (fun s h => ?_) _ _)
  split
  · refine Linked.trans ?_ (linked_noRoute ..)
    split
    · exact linked_modNode ..
    · exact linked_modNode ..
    · exact .refl s
  · exact linked_toEgress _ _ _ rfl

/-! ### What follows for the routes -/

/-- What a change of the route choices may write. -/
def Routed (s t : State) : Prop :=
  t = { s with lnk := { s.lnk with unreach := t.lnk.unreach }, ctrs := t.ctrs, flags := t.flags, hif := t.hif, out := t.out, flt := t.flt }

theorem Routed.trans {s t u : State} (h : Routed s t) (k : Routed t u) : Routed s u := Eq.trans k (by rw [h])

theorem Routed.foldl {α : Type} {f : State → α → State} (hf : ∀ s x, Routed s (f s x)) (l : List α) (s : State) : Routed s (l.foldl f s) := by
  induction l generalizing s with
  | nil => rfl
  | cons x l ih => exact (hf s x).trans (ih _)

theorem routed_unreachable (s : State) (n : Nat) : Routed s ((unreachable s n).lnkEvent 1) := by
  have hs : Signals (unreachable s n) ((unreachable s n).lnkEvent 1) := signals_event ..
  exact Eq.trans hs (by rw [hs]; exact rfl)

/-- One node of the fold of `routesChanged`: nothing, a record of the node, or a node that has become unreachable. -/
theorem routesChanged_spec (s before : State) : Routed s (s.routesChanged before) ∧ Linked s (s.routesChanged before) := by
  unfold State.routesChanged
  split
  · exact ⟨rfl, .refl s⟩
  · next im =>
    suffices hstep : ∀ (s : State) (n : NodeEntry), _ ∧ _ from
      ⟨Routed.foldl (fun s n => (hstep s n).1) _ _, Linked.foldl (fun s n => (hstep s n).2) _ _⟩
    intro s n
    dsimp only
    split; · exact ⟨rfl, .refl s⟩
    split
    · split
      · exact ⟨rfl, .refl s⟩
      · exact ⟨rfl, linked_modNode ..⟩
    · split
      · split
        · exact ⟨rfl, linked_modNode ..⟩
        · exact ⟨Routed.trans (by exact rfl) (routed_unreachable _ n.node), (linked_modNode ..).trans (linked_unreachable _ n.node)⟩
      · exact ⟨rfl, .refl s⟩

theorem linked_routesChanged (s before : State) : Linked s (s.routesChanged before) := (routesChanged_spec s before).2

theorem routesChanged_conns (s before : State) : (s.routesChanged before).lnk.conns = s.lnk.conns :=
  (congrArg (fun x => x.lnk.conns) (routesChanged_spec s before).1).trans rfl

theorem linked_failConnNow (s : State) (p k : Nat) : Linked s (s.failConnNow p k) := by
  unfold State.failConnNow
  extract_lets peer s₁ live alloc s₂ own hops s₃
  have h₁ : Linked s s₁ := linked_modConn ..
  split
  · split
    · exact h₁.trans (linked_modConn ..)
    · have h₂ : Linked s₁ s₂ := by
        unfold s₂
        split
        · exact linked_modNode ..
        · exact .refl _
      exact h₁.trans (h₂.trans (linked_resolve ..))
  · exact h₁.trans ((linked_modConn ..).trans (linked_toEgress _ _ _ rfl))

theorem linked_failConn (s : State) (p k : Nat) : Linked s (s.failConn p k) := (linked_failConnNow ..).trans (linked_routesChanged ..)

/-! ### Connections under the routing of frames -/

/-- Routing may send an IDENT on a connection; nothing else of a connection changes. -/
def ConnKept (c d : Conn) : Prop := d = { c with nOwn := d.nOwn, freedOut := d.freedOut, reported := d.reported, ctlTx := d.ctlTx }

theorem ConnKept.trans {c d e : Conn} (h : ConnKept c d) (k : ConnKept d e) : ConnKept c e := Eq.trans k (by rw [h])

/-- Every connection is kept but for what an IDENT on it changes. -/
structure ConnsKept (s t : State) : Prop where
  kept : ∀ k, ConnKept (s.conn k) (t.conn k)

theorem ConnsKept.of_conns {s t : State} (h : t.lnk.conns = s.lnk.conns) : ConnsKept s t := ⟨fun k => by rw [State.conn, State.conn, h]; rfl⟩

theorem ConnsKept.trans {s t u : State} (h : ConnsKept s t) (k : ConnsKept t u) : ConnsKept s u := ⟨fun j => (h.kept j).trans (k.kept j)⟩

theorem ConnsKept.foldl {α : Type} {f : State → α → State} (hf : ∀ s x, ConnsKept s (f s x)) (l : List α) (s : State) : ConnsKept s (l.foldl f s) := by
  induction l generalizing s with
  | nil => exact .of_conns rfl
  | cons x l ih => exact (hf s x).trans (ih _)

theorem connsKept_modConn (s : State) (k : Nat) (f : Conn → Conn) (hf : ∀ c, ConnKept c (f c)) : ConnsKept s (s.modConn k f) := by
  refine ⟨fun j => ?_⟩
  by_cases h : j = k
  · rw [h, modConn_conn_self]
    exact hf _
  · rw [modConn_conn_ne _ _ h]
    rfl

theorem conns_of_signals {s t : State} (h : Signals s t) : t.lnk.conns = s.lnk.conns := (congrArg (fun x => x.lnk.conns) h).trans rfl

theorem connsKept_freeBlocks (s : State) (x : Option (Nat × Nat × Nat)) : ConnsKept s (s.freeBlocks x) := by
  unfold State.freeBlocks
  split
  · exact .of_conns rfl
  · extract_lets s₁
    have h₁ : ConnsKept s s₁ := .of_conns rfl
    split
    · exact h₁.trans (connsKept_modConn _ _ _ fun _ => rfl)
    · exact h₁

theorem connsKept_noRoute (s : State) (node : Nat) (x : Option (Nat × Nat × Nat)) : ConnsKept s (s.noRoute node x) := by
  have h : ConnsKept s ((s.freeBlocks x).bump (lnkCtr 0x40) 1) := (connsKept_freeBlocks s x).trans (.of_conns rfl)
  unfold State.noRoute
  dsimp only
  split
  · exact h
  · exact h.trans (.of_conns ((conns_of_signals (s := unreachable ((s.freeBlocks x).bump (lnkCtr 0x40) 1) node) (signals_event ..)).trans rfl))

theorem connsKept_sendIdent (s : State) (p k : Nat) (fresh : Bool) : ConnsKept s (s.sendIdent p k fresh) := by
  unfold State.sendIdent
  extract_lets d s₁ s₂
  have h₁ : ConnsKept s s₁ := by
    unfold s₁
    split
    · exact ConnsKept.trans (.of_conns (by exact rfl)) (connsKept_modConn _ _ _ fun _ => rfl)
    · exact .of_conns rfl
  have h₂ : ConnsKept s₁ s₂ := by
    unfold s₂
    split
    · exact .of_conns rfl
    · exact connsKept_modConn _ _ _ fun _ => rfl
  exact h₁.trans (h₂.trans (.of_conns rfl))

theorem connsKept_toEgress (s : State) (it : EgItem) (front : Bool) : ConnsKept s (s.toEgress it front) := by
  unfold State.toEgress
  extract_lets node live
  clear_value live
  cases live with
  | nil => exact connsKept_noRoute ..
  | cons c live =>
    generalize nth (0, false) (c :: live) (it.packet.hash % (c :: live).length) = choice
    obtain ⟨p, date⟩ := choice
    dsimp -zeta only
    extract_lets sub it' s₁
    have h₁ : ConnsKept s s₁ := by
      unfold s₁
      split
      · exact connsKept_sendIdent ..
      · exact .of_conns rfl
    split
    · exact h₁.trans (.of_conns rfl)
    · exact h₁.trans (.of_conns rfl)

/-- A connection that is resolved. -/
def resolved (c : Conn) : Conn := { c with held := [], isOpen := false, rxOpen := false, resync := none, failed := true, replays := 0, nOwn := 0 }

/-- Its held frames are routed elsewhere or discarded; of the connections only an IDENT changes anything more. -/
theorem resolve_conn (s : State) (k : Nat) : ConnKept (resolved (s.conn k)) ((s.resolve k).conn k) := by
  unfold State.resolve
  dsimp only
  refine ConnKept.trans (by rw [modConn_conn_self]; exact rfl) ((ConnsKept.foldl (fun s h => ?_) _ (s.modConn k resolved)).kept k)
  split
  · refine ConnsKept.trans ?_ (connsKept_noRoute ..)
    split <;> exact .of_conns rfl
  · exact connsKept_toEgress ..

end Sys2Proof.Proofs
end

section
/-! The erasure of model keys (spec/14_security.md, R533, Table 14.7). -/
namespace Sys2Proof.Proofs
open Sys2Proof Sys2Proof.Machine Sys2Proof.Laws

/-- What the erasure of keys changes: no slot that was empty is filled. -/
structure KeysLost (s t : State) : Prop where
  frame : t = { s with wh := { s.wh with keys := t.wh.keys }, inl := { s.inl with ctx := t.inl.ctx }, ctrs := t.ctrs, flags := t.flags, hif := t.hif,
                       out := t.out }
  empty : ∀ i, vget none s.wh.keys i = none → vget none t.wh.keys i = none

theorem KeysLost.refl (s : State) : KeysLost s s := ⟨rfl, fun _ h => h⟩

theorem KeysLost.trans {s t u : State} (h : KeysLost s t) (k : KeysLost t u) : KeysLost s u :=
  ⟨Eq.trans k.frame (by rw [h.frame]), fun i hi => k.empty i (h.empty i hi)⟩

theorem KeysLost.foldl {α : Type} {f : State → α → State} (hf : ∀ s x, KeysLost s (f s x)) (l : List α) (s : State) : KeysLost s (l.foldl f s) := by
  induction l generalizing s with
  | nil => exact .refl s
  | cons x l ih => exact (hf s x).trans (ih _)

/-- The loads and the slot that lose a key, before anything is told of it. -/
def slotEmptied (s : State) (cove i : Nat) : State := (s.loadsLoseKey cove i).modWh fun w => { w with keys := vmod w.keys i fun _ => none }

theorem signals_eraseKey {s : State} {i : Nat} {k : ModelKey} (h : vget none s.wh.keys i = some k) : Signals (slotEmptied s k.cove i) (s.eraseKey i) := by
  unfold State.eraseKey
  rw [h]
  exact (signals_bump _ _ _).trans ((signals_event ..).trans (signals_raise ..))

theorem eraseKey_of_empty {s : State} {i : Nat} (h : vget none s.wh.keys i = none) : s.eraseKey i = s := by
  unfold State.eraseKey
  rw [h]

theorem vget_of_ge {α : Type} {n : Nat} (d : α) (v : Vector α n) {i : Nat} (h : n ≤ i) : vget d v i = d := dif_neg (by omega)

/-- The key slots after the erasure of one. -/
theorem eraseKey_keys (s : State) (i j : Nat) : vget none (s.eraseKey i).wh.keys j = if j = i then none else vget none s.wh.keys j := by
  cases h : vget none s.wh.keys i with
  | none =>
    rw [eraseKey_of_empty h]
    split
    · next hj => rw [hj, h]
    · rfl
  | some k =>
    have hk : (s.eraseKey i).wh.keys = vmod s.wh.keys i fun _ => none := (congrArg (fun x => x.wh.keys) (signals_eraseKey h)).trans rfl
    rw [hk]
    split
    · next hj =>
      rw [hj]
      by_cases hi : i < 32
      · exact vget_vmod_self _ _ _ _ hi
      · exact vget_of_ge _ _ (by omega)
    · next hj => exact vget_vmod_ne _ _ _ _ _ hj

theorem keysLost_eraseKey (s : State) (i : Nat) : KeysLost s (s.eraseKey i) := by
  refine ⟨?_, fun j hj => ?_⟩
  · cases h : vget none s.wh.keys i with
    | none => rw [eraseKey_of_empty h]
    | some k =>
      have hs := signals_eraseKey h
      exact Eq.trans hs (by rw [hs]; exact rfl)
  · rw [eraseKey_keys, hj, ite_self]

theorem keysLost_eraseKeys (s : State) (p : ModelKey → Bool) : KeysLost s (s.eraseKeys p) := KeysLost.foldl (fun s i => keysLost_eraseKey s i) _ s

theorem foldl_eraseKey_keys (l : List Nat) (s : State) (j : Nat) :
    vget none (l.foldl (fun s i => s.eraseKey i) s).wh.keys j = if j ∈ l then none else vget none s.wh.keys j := by
  induction l generalizing s with
  | nil => rfl
  | cons i l ih =>
    rw [List.foldl_cons, ih, eraseKey_keys]
    by_cases hl : j ∈ l
    · rw [if_pos hl, if_pos (List.mem_cons_of_mem _ hl)]
    · by_cases hj : j = i
      · rw [if_neg hl, if_pos hj, if_pos (hj ▸ List.mem_cons_self)]
      · rw [if_neg hl, if_neg hj, if_neg (fun h => (List.mem_cons.mp h).elim hj hl)]

theorem eraseAllKeys_keys (s : State) (j : Nat) : vget none s.eraseAllKeys.wh.keys j = none := by
  unfold State.eraseAllKeys State.eraseKeys
  rw [foldl_eraseKey_keys]
  split
  · rfl
  · next hj =>
    cases h : vget none s.wh.keys j with
    | none => rfl
    | some k =>
      have hlt : j < 32 := by
        by_contra hge
        rw [vget_of_ge _ _ (by omega)] at h
        cases h
      exact absurd (by simp [State.heldKeys, h, hlt]) hj

end Sys2Proof.Proofs
end
section
/-! Power states (spec/13_power_and_thermal.md, R505, R506). -/
namespace Sys2Proof.Proofs
open Sys2Proof Sys2Proof.Machine Sys2Proof.Laws

/-! ### Drain notices and closed ports -/

theorem sent_sendDrainNotices (s : State) : Sent s s.sendDrainNotices := by
  unfold State.sendDrainNotices
  generalize SMap.keys _ = l
  suffices h : ∀ t, Sent t (l.foldl (fun s k => s.control (k / 65536) k 8 []) t) from h s
  induction l with
  | nil => exact fun t => .refl t
  | cons k l ih => exact fun t => (sent_control t _ _ _ (by decide)).trans (ih _)

theorem foldl_control_said (l : List Nat) {k : Nat} (h : k ∈ l) (s : State) :
    Out.frame (k / 65536) 8 [] ∈ (l.foldl (fun s k => s.control (k / 65536) k 8 []) s).out := by
  induction l generalizing s with
  | nil => exact absurd h List.not_mem_nil
  | cons j l ih =>
    rcases List.mem_cons.mp h with hj | hl
    · refine (Linked.foldl (fun s k => linked_control s _ _ _ _) l _).said _ ?_
      rw [control_out, hj]
      exact List.mem_append_right _ List.mem_cons_self
    · exact ih hl _

/-- Every open connection is told (R447). -/
theorem sendDrainNotices_said {s : State} {k : Nat} (h : (s.conn k).isOpen = true) : Out.frame (k / 65536) 8 [] ∈ s.sendDrainNotices.out := by
  refine foldl_control_said _ ?_ s
  have hmem : (k, s.conn k) ∈ s.lnk.conns := by
    refine (get_mem_or_default ({} : Conn) s.lnk.conns k).resolve_right fun hd => ?_
    rw [State.conn, hd] at h
    cases h
  exact List.mem_map.mpr ⟨(k, s.conn k), List.mem_filter.mpr ⟨hmem, h⟩, rfl⟩

/-- A port after the closing of every port (Table 16.8). -/
theorem closePorts_port (s : State) {p : Nat} (h : p < 36) :
    (s.closePorts.port p).state = .off ∨ (s.closePorts.port p).state = .out ∨ (s.closePorts.port p).state = .down := by
  unfold State.closePorts
  extract_lets ports links s'
  have hp : (s'.routesChanged s).port p = vget {} ports p := by rw [State.port, (linked_routesChanged s' s).ports]
  rw [hp]
  unfold ports vget
  rw [dif_pos h, Vector.getElem_map]
  split
  · next hq => exact hq.imp_right .inl
  · exact .inr (.inr rfl)

/-- What remains of the links. -/
theorem closePorts_spec (s : State) : s.closePorts.lnk.conns = [] ∧ s.closePorts.lnk.egress = [] ∧ s.closePorts.mem = s.mem ∧ s.closePorts.weir = s.weir := by
  unfold State.closePorts
  extract_lets ports links s'
  have h := (routesChanged_spec s' s).1
  exact ⟨(congrArg (fun x => x.lnk.conns) h).trans rfl, (congrArg (fun x => x.lnk.egress) h).trans rfl, (congrArg State.mem h).trans rfl,
    (congrArg State.weir h).trans rfl⟩

theorem closePorts_said (s : State) (o : Out) (h : o ∈ s.out) : o ∈ s.closePorts.out := (linked_routesChanged _ s).said o h

/-! ### Requests -/

theorem pstateReqP3_of_drained {s : State} (hwant : s.weir.psWant = none) (hp : s.pstate ≤ 2) (hd : s.drained = true) (hsec : s.wh.sec ≠ .scrapped) :
    s.reqP3 = (s.sendDrainNotices.closePorts).pstateAccept 3 := by
  unfold State.reqP3
  refine if_neg ?_
  rw [hwant, hd]
  simp only [Option.isSome_none, Bool.false_eq_true, Bool.not_true, false_or, not_or]
  exact ⟨by omega, hsec⟩

theorem reqP2_of_drained {s : State} (hwant : s.weir.psWant = none) (hp : s.pstate ≤ 2) (hd : s.drained = true) (hsec : s.wh.sec ≠ .scrapped) :
    s.reqP2 = s.pstateAccept 2 := by
  unfold State.reqP2
  refine if_neg ?_
  rw [hwant, hd]
  simp only [Option.isSome_none, Bool.false_eq_true, Bool.not_true, false_or, not_or]
  exact ⟨by omega, hsec⟩

theorem reqP4_of_drained {s : State} (hwant : s.weir.psWant = none) (hp : s.pstate ≤ 3) (hd : s.drained = true) :
    s.reqP4 = s.sendDrainNotices.pstateAccept 4 := by
  unfold State.reqP4
  refine if_neg ?_
  rw [hwant, hd]
  simp only [Option.isSome_none, Bool.false_eq_true, Bool.not_true, false_or, or_false]
  omega

/-- A request that is pending, or work that remains, refuses the deeper states. -/
theorem pstateReq_busy {s : State} (h : s.weir.psWant ≠ none ∨ s.drained = false) :
    s.reqP2 = s.pstateRefuse .busy ∧ s.reqP3 = s.pstateRefuse .busy ∧ s.reqP4 = s.pstateRefuse .busy := by
  have hc : s.weir.psWant.isSome = true ∨ (!s.drained) = true :=
    h.imp Option.isSome_iff_ne_none.mpr fun hd => by rw [hd]; rfl
  exact ⟨if_pos (hc.imp_right fun hd => .inr (.inl hd)), if_pos (hc.imp_right fun hd => .inr (.inl hd)), if_pos (hc.imp_right .inr)⟩

/-! ### States that are reached -/

/-- A power state is entered; memory refreshes itself from P2 on. -/
def entering (s : State) (p : Nat) : State :=
  let t := (s.modWeir fun w => { w with psWant := none, p4Ready := w.p4Ready || decide (p = 4) }).toPstate p
  { t with hbm := { t.hbm with selfRefresh := decide (2 ≤ p) } }

theorem entering_spec (s : State) (p : Nat) : (entering s p).fuses = s.fuses ∧ (entering s p).hbm = { s.hbm with selfRefresh := decide (2 ≤ p) } ∧
    (entering s p).mem = s.mem ∧ (entering s p).pstate = p ∧ (entering s p).weir.psWant = none ∧
    (entering s p).weir.p4Ready = (s.weir.p4Ready || decide (p = 4)) := by
  unfold entering State.toPstate State.modWeir
  exact ⟨rfl, rfl, rfl, rfl, rfl, rfl⟩

theorem pstateDone_shallow {s : State} {p : Nat} (hwant : s.weir.psWant = some p) (h : p = 0 ∨ p = 2 ∧ s.drained = true) :
    s.pstateDone = (entering s p).weirEvent 6 := by
  unfold State.pstateDone
  rw [hwant]
  rcases h with rfl | ⟨rfl, hd⟩
  · rfl
  · dsimp only
    rw [hd]
    rfl

theorem pstateDone_p3 {s : State} (hwant : s.weir.psWant = some 3) (hd : s.drained = true) :
    s.pstateDone = ({ (entering s 3).zeroMeres with arrival := [] } : State).weirEvent 6 := by
  unfold State.pstateDone
  rw [hwant]
  dsimp only
  rw [hd]
  rfl

theorem pstateDone_p4 {s : State} (hwant : s.weir.psWant = some 4) : s.pstateDone = (entering s 4).eraseAllKeys.weirEvent 6 := by
  unfold State.pstateDone
  rw [hwant]
  rfl

theorem pstateDone_waits {s : State} (hd : s.drained = false) (h : s.weir.psWant = some 2 ∨ s.weir.psWant = some 3) : s.pstateDone = s := by
  unfold State.pstateDone
  rcases h with h | h <;>
    · rw [h]
      dsimp only
      rw [hd]
      rfl

/-- Bytes of a table whose entries of some places are dropped. -/
theorem get_filter {α : Type} (d : α) (p : Nat → Bool) (m : SMap α) (a : Nat) :
    SMap.get d (SMap.filter (fun k _ => p k) m) a = if p a then SMap.get d m a else d := by
  induction m with
  | nil => exact (ite_self d).symm
  | cons x m ih =>
    obtain ⟨k, v⟩ := x
    unfold SMap.filter at ih ⊢
    rw [List.filter_cons]
    dsimp only
    dsimp only at ih
    by_cases hp : p k = true
    · rw [if_pos hp]
      unfold SMap.get
      split
      · next hk => rw [← hk, if_pos hp]
      · exact ih
    · rw [if_neg hp, ih]
      by_cases hk : k = a
      · rw [← hk, if_neg hp, if_neg hp]
      · rw [SMap.get, if_neg hk]

theorem pstate_of_signals {s t : State} (h : Signals s t) : t.pstate = s.pstate := (congrArg State.pstate h).trans rfl

theorem hbm_of_signals {s t : State} (h : Signals s t) : t.hbm = s.hbm := (congrArg State.hbm h).trans rfl

theorem weirEvent_bit (s : State) : (s.weirEvent 6).flagBit (blkWEIR + 4) 6 = true := event_bit _ _ _ _ (by decide)

/-- The regions of memory follow from the variant and the size of deep memory. -/
theorem region_of_sizes {s t : State} (hfuses : t.fuses = s.fuses) (hdeep : t.hbm.deepGiB = s.hbm.deepGiB) (a : Nat) : t.region a = s.region a := by
  unfold State.region
  rw [hfuses, hdeep]

theorem pstateDone_p3_spec (s : State) : ({ (entering s 3).zeroMeres with arrival := [] } : State).pstate = 3 ∧
    ∀ a, SMap.get 0 (entering s 3).zeroMeres.mem.bytes a = if s.region a = .mere then 0 else SMap.get 0 s.mem.bytes a := by
  obtain ⟨hfuses, hhbm, hmem, hp, -, -⟩ := entering_spec s 3
  refine ⟨hp, fun a => ?_⟩
  refine (get_filter (0 : Byte) (fun a => !(decide ((entering s 3).region a = .mere) && true)) _ a).trans ?_
  have hdeep : (entering s 3).hbm.deepGiB = s.hbm.deepGiB := by rw [hhbm]
  rw [region_of_sizes hfuses hdeep a, hmem]
  cases s.region a <;> rfl

theorem pstateDone_p4_spec (s : State) : (entering s 4).eraseAllKeys.pstate = 4 ∧ (entering s 4).eraseAllKeys.weir.p4Ready = true := by
  have hkeys := (keysLost_eraseKeys (entering s 4) fun _ => true).frame
  have hweir : (entering s 4).eraseAllKeys.weir = (entering s 4).weir := (congrArg State.weir hkeys).trans rfl
  obtain ⟨-, -, -, hp, -, hready⟩ := entering_spec s 4
  refine ⟨(congrArg State.pstate hkeys).trans hp, ?_⟩
  rw [hweir, hready]
  exact Bool.or_true _

/-! ### The power states -/

/-- Settles O47. -/
theorem powerStates : Obligations.PowerStates := by
  refine ⟨?_, ?_, ?_, ?_, ?_, ?_, ?_, ?_, ?_, ?_, ?_, ?_, ?_, ?_, ?_⟩
  · intro s hs hwant hp
    have h : s.reqP0 = s.pstateAccept 0 := by
      unfold State.reqP0
      rw [if_neg (by rw [hwant]; simp only [Option.isSome_none, Bool.false_eq_true, false_or]; omega), if_neg (by omega)]
    exact ⟨_, next_of_answers hs h, rfl, rfl, rfl⟩
  · intro s hs hwant hp hd hsec
    refine ⟨⟨_, next_of_answers hs (reqP2_of_drained hwant hp hd hsec), rfl, rfl, rfl⟩, ?_, ?_⟩
    · have hsent := sent_sendDrainNotices s
      obtain ⟨hconns, hegress, hmem, -⟩ := closePorts_spec s.sendDrainNotices
      exact ⟨_, next_of_answers hs (pstateReqP3_of_drained hwant hp hd hsec), rfl, rfl, hconns, hegress,
        fun k hk => closePorts_said _ _ (sendDrainNotices_said hk), fun p => closePorts_port _ p.isLt,
        hmem.trans ((congrArg State.mem hsent).trans rfl)⟩
    · have hsent := sent_sendDrainNotices s
      refine ⟨_, next_of_answers hs (reqP4_of_drained hwant (by omega) hd), rfl, rfl, fun k hk => sendDrainNotices_said hk,
        (congrArg (fun x => x.lnk.ports) hsent).trans rfl, (congrArg State.mem hsent).trans rfl, ?_⟩
      generalize s.sendDrainNotices = v at hsent ⊢
      rw [hsent]
      rfl
  · intro s hs hp
    have h2 : 2 < s.pstate := by omega
    exact ⟨next_of_answers hs (if_pos (.inr (.inl h2))), next_of_answers hs (if_pos (.inr (.inl h2)))⟩
  · intro s hs h
    obtain ⟨h2, h3, h4⟩ := pstateReq_busy h
    exact ⟨next_of_answers hs h2, next_of_answers hs h3, next_of_answers hs h4⟩
  · intro s v hs hv
    exact next_of_answers hs (if_pos hv)
  · intro s hd h
    exact congrArg _ (whileOn_of_fixed (pstateDone_waits hd h))
  · intro s hs hwant hd
    have hsig := signals_weirEvent ({ (entering s 3).zeroMeres with arrival := [] } : State) 6
    refine ⟨_, next_of_answers hs (pstateDone_p3 hwant hd), (pstate_of_signals hsig).trans rfl, (hbm_of_signals hsig).trans rfl,
      (congrArg Weir.psWant (weir_of_signals hsig)).trans rfl, (congrArg State.arrival hsig).trans rfl, fun a => ?_, weirEvent_bit _⟩
    rw [mem_of_signals hsig]
    exact (pstateDone_p3_spec s).2 a
  · intro s hs hwant hd
    have hsig := signals_weirEvent (entering s 2) 6
    obtain ⟨-, hhbm, hmem, hp, hnone, -⟩ := entering_spec s 2
    exact ⟨_, next_of_answers hs (pstateDone_shallow hwant (.inr ⟨rfl, hd⟩)), (pstate_of_signals hsig).trans hp, (hbm_of_signals hsig).trans hhbm,
      (congrArg Weir.psWant (weir_of_signals hsig)).trans hnone, (mem_of_signals hsig).trans hmem, weirEvent_bit _⟩
  · intro s hs hwant
    have hsig := signals_weirEvent (entering s 0) 6
    obtain ⟨-, hhbm, hmem, hp, -, -⟩ := entering_spec s 0
    exact ⟨_, next_of_answers hs (pstateDone_shallow hwant (.inl rfl)), (pstate_of_signals hsig).trans hp, (hbm_of_signals hsig).trans hhbm,
      (mem_of_signals hsig).trans hmem⟩
  · intro s hs hwant
    have hsig := signals_weirEvent (entering s 4).eraseAllKeys 6
    obtain ⟨hp, hready⟩ := pstateDone_p4_spec s
    refine ⟨_, next_of_answers hs (pstateDone_p4 hwant), (pstate_of_signals hsig).trans hp, ?_, fun k _ => ?_⟩
    · rw [weir_of_signals hsig]
      exact hready
    · rw [(congrArg State.wh hsig).trans rfl]
      exact eraseAllKeys_keys _ _
  · intro s hwant
    refine congrArg _ (whileOn_of_fixed ?_)
    show s.pstateDone = s
    unfold State.pstateDone
    rw [hwant]
  · intro s hs hp himage hidle hwant
    exact ⟨_, next_of_answers hs (if_pos ⟨hp, himage, hidle, by rw [hwant]; rfl⟩), rfl, rfl⟩
  · intro s hidle
    exact congrArg _ (whileOn_of_fixed (if_neg fun h => by rw [hidle] at h; exact absurd h.2.2.1 (by decide)))
  · intro s hs hp hidle
    exact ⟨_, next_of_answers hs (if_pos ⟨hp, by rw [hidle]; rfl⟩), rfl, rfl⟩
  · intro s hp hidle
    exact congrArg _ (whileOn_of_fixed (if_neg fun h => by rw [hidle] at h; exact absurd h.2 (by decide)))

end Sys2Proof.Proofs
end

section
/-! Control frames and replays of a connection (spec/11_basin_links_and_topology.md, R418 to R421, R427;
spec/14_security.md, R520). -/
namespace Sys2Proof.Proofs
open Sys2Proof Sys2Proof.Machine Sys2Proof.Laws

/-- Nothing but connections differs. -/
def Rejoined (s t : State) : Prop := t = { s with lnk := { s.lnk with conns := t.lnk.conns } }

theorem Rejoined.trans {s t u : State} (h : Rejoined s t) (k : Rejoined t u) : Rejoined s u := Eq.trans k (by rw [h])

theorem rejoined_modConn (s : State) (k : Nat) (f : Conn → Conn) : Rejoined s (s.modConn k f) := rfl

theorem rejoined_ackUpTo (s : State) (k a : Nat) : Rejoined s (s.ackUpTo k a) := rfl

/-- Nothing but connections and counters differs. -/
def Recounted (s t : State) : Prop := t = { s with lnk := { s.lnk with conns := t.lnk.conns }, ctrs := t.ctrs }

theorem Recounted.trans {s t u : State} (h : Recounted s t) (k : Recounted t u) : Recounted s u := Eq.trans k (by rw [h])

theorem Rejoined.recounted {s t : State} (h : Rejoined s t) : Recounted s t := Eq.trans h (by rw [h])

/-! ### Control frames that arrive -/

/-- A control frame whose counter is not above that of the last one is discarded. -/
theorem controlIn_stale {s : State} {p n a : Nat} {c : DWord} (h : (s.conn (s.connKey p n)).aboveLast c.toNat = false) :
    s.controlIn p n a ⟨c, true⟩ = (s, false) := by
  unfold State.controlIn
  dsimp only
  split
  · rfl
  · rw [if_neg (by decide), h]
    rfl

/-- A connection whose frame has been taken in and whose control counter has been taken. -/
def taken (s : State) (c : DWord) (x : Conn) : Conn := { x with lastRx := s.now, ctlRx := some c.toNat }

theorem controlIn_taken {s : State} {p n a k : Nat} {c : DWord} (hk : k = s.connKey p n) (hup : (s.port p).state = .up)
    (hrx : (s.conn k).rxOpen = true) (habove : (s.conn k).aboveLast c.toNat = true) :
    s.controlIn p n a ⟨c, true⟩ = ((s.modConn k (taken s c)).ackUpTo k a, true) := by
  subst hk
  unfold State.controlIn
  dsimp only
  rw [if_neg (by rw [hup, hrx]; decide), if_neg (by decide), if_neg (by rw [habove]; decide)]
  rfl

/-- The held frames that an ACK_LSN does not cover. -/
def unacked (ack : Nat) (l : List HeldFrame) : List HeldFrame :=
  l.filter fun h => decide (0x800000 ≤ (ack + 0x1000000 - h.lsn % 0x1000000) % 0x1000000)

theorem ackUpTo_conn_self (s : State) (k a : Nat) : (s.ackUpTo k a).conn k = { s.conn k with
    held := unacked a (s.conn k).held,
    replays := if (unacked a (s.conn k).held).length < (s.conn k).held.length then 0 else (s.conn k).replays } := modConn_conn_self _ _ _

theorem ackUpTo_conn_ne (s : State) {j k : Nat} (a : Nat) (h : j ≠ k) : (s.ackUpTo k a).conn j = s.conn j := modConn_conn_ne _ _ h

/-- An ACK_LSN that covers none of the held frames changes nothing of the connection. -/
theorem ackUpTo_conn_of_unacked {s : State} {k a : Nat} (h : unacked a (s.conn k).held = (s.conn k).held) : (s.ackUpTo k a).conn k = s.conn k := by
  rw [ackUpTo_conn_self, h, if_neg (Nat.lt_irrefl _)]

/-- The connection of a control frame that was taken and acknowledges nothing. -/
theorem taken_conn_self {s : State} {k a : Nat} (c : DWord) (h : unacked a (s.conn k).held = (s.conn k).held) :
    ((s.modConn k (taken s c)).ackUpTo k a).conn k = taken s c (s.conn k) := by
  rw [ackUpTo_conn_of_unacked] <;> rw [modConn_conn_self]
  exact h

theorem taken_conn_ne {s : State} {j k : Nat} (a : Nat) (c : DWord) (h : j ≠ k) : ((s.modConn k (taken s c)).ackUpTo k a).conn j = s.conn j := by
  rw [ackUpTo_conn_ne _ _ h, modConn_conn_ne _ _ h]

/-! ### Frames that are sent again (R421, R521) -/

/-- The fields that a held frame shows on the wire. -/
def shownAgain (p : Nat) (h : HeldFrame) : Out :=
  .frame p h.frame.packet.type ([h.lsn % 0x1000000, h.frame.vl, h.frame.sub, h.frame.hops] ++ h.frame.packet.fields)

/-- One held frame is sent again, as it was first sent. -/
def sentAgain (p : Nat) (s : State) (h : HeldFrame) : State :=
  (((s.bump (portOff p 0x48) 1).emit (shownAgain p h)).putWire p h.wire).chargeFrame p h.frame

/-- What the frames sent again write. -/
structure Resent (p : Nat) (again : List HeldFrame) (s t : State) : Prop where
  sent : Sent s t
  conns : t.lnk.conns = s.lnk.conns
  wire : t.lnk.wire = s.lnk.wire ++ again.map fun h => (p, h.wire)
  out : t.out = s.out ++ again.map (shownAgain p)
  replays : t.ctr (portOff p 0x30) = s.ctr (portOff p 0x30)

theorem chargeFrame_arbs (s : State) (p : Nat) (i : EgItem) : s.chargeFrame p i = { s with arbs := (s.chargeFrame p i).arbs } := by
  unfold State.chargeFrame
  split <;> rfl

theorem sentAgain_spec (p : Nat) (s : State) (h : HeldFrame) : Resent p [h] s (sentAgain p s h) := by
  unfold sentAgain
  generalize hv : ((s.bump (portOff p 0x48) 1).emit (shownAgain p h)).putWire p h.wire = v
  have hctr : v.ctr (portOff p 0x30) = s.ctr (portOff p 0x30) := by
    rw [← hv]
    refine bump_ctr_ne _ _ _ _ ?_
    unfold portOff
    omega
  rw [chargeFrame_arbs]
  subst hv
  exact ⟨rfl, rfl, rfl, rfl, hctr⟩

theorem foldl_sentAgain (p : Nat) (again : List HeldFrame) (s : State) : Resent p again s (again.foldl (sentAgain p) s) := by
  induction again generalizing s with
  | nil => exact ⟨rfl, rfl, (List.append_nil _).symm, (List.append_nil _).symm, rfl⟩
  | cons h again ih =>
    obtain ⟨hsent, hconns, hwire, hout, hctr⟩ := sentAgain_spec p s h
    obtain ⟨ksent, kconns, kwire, kout, kctr⟩ := ih (sentAgain p s h)
    refine ⟨hsent.trans ksent, kconns.trans hconns, ?_, ?_, kctr.trans hctr⟩
    · rw [List.foldl_cons, kwire, hwire, List.append_assoc]
      rfl
    · rw [List.foldl_cons, kout, hout, List.append_assoc]
      rfl

/-- The held frames from an LSN on. -/
def heldFrom (lsn : Nat) (l : List HeldFrame) : List HeldFrame :=
  l.filter fun h => decide ((h.lsn % 0x1000000 + 0x1000000 - lsn % 0x1000000) % 0x1000000 < 0x800000)

/-- A connection whose frames have been sent again. -/
def replayed (s : State) (lsn : Nat) (c : Conn) : Conn :=
  { c with replays := c.replays + 1, lastTx := s.now, ackDue := none,
           held := c.held.map fun h => if (heldFrom lsn c.held).contains h then { h with sent := s.now } else h }

theorem replayFrom_eq (s : State) (p k lsn : Nat) : s.replayFrom p k lsn =
    (heldFrom lsn (s.conn k).held).foldl (sentAgain p) ((s.bump (portOff p 0x30) 1).modConn k fun c =>
      { c with replays := c.replays + 1, lastTx := s.now, ackDue := none,
               held := c.held.map fun h => if (heldFrom lsn (s.conn k).held).contains h then { h with sent := s.now } else h }) := rfl

/-- What a replay leaves (R421). -/
structure Replayed (p k lsn : Nat) (s t : State) : Prop where
  sent : Sent s t
  conn : t.conn k = replayed s lsn (s.conn k)
  others : ∀ j, j ≠ k → t.conn j = s.conn j
  wire : t.lnk.wire = s.lnk.wire ++ (heldFrom lsn (s.conn k).held).map fun h => (p, h.wire)
  out : t.out = s.out ++ (heldFrom lsn (s.conn k).held).map (shownAgain p)
  replays : t.ctr (portOff p 0x30) = s.ctr (portOff p 0x30) + 1
  quiet : heldFrom lsn (s.conn k).held = [] → Recounted s t

theorem replayFrom_spec (s : State) (p k lsn : Nat) : Replayed p k lsn s (s.replayFrom p k lsn) := by
  rw [replayFrom_eq]
  generalize hv : (s.bump (portOff p 0x30) 1).modConn k _ = v
  have hframe : v = { s with lnk := { s.lnk with conns := v.lnk.conns }, ctrs := v.ctrs } := hv ▸ rfl
  have hself : v.conn k = replayed s lsn (s.conn k) := by
    rw [← hv, modConn_conn_self]
    rfl
  have hne : ∀ j, j ≠ k → v.conn j = s.conn j := fun j hj => by
    rw [← hv, modConn_conn_ne _ _ hj]
    rfl
  have hctr : v.ctr (portOff p 0x30) = s.ctr (portOff p 0x30) + 1 := by
    rw [← hv]
    exact bump_ctr_self s _ 1
  have hsent : Sent s v := hv ▸ rfl
  obtain ⟨rsent, hconns, rwire, rout, rctr⟩ := foldl_sentAgain p (heldFrom lsn (s.conn k).held) v
  refine ⟨hsent.trans rsent, ?_, fun j hj => ?_, ?_, ?_, rctr.trans hctr, fun hnone => ?_⟩
  · rw [State.conn, hconns]
    exact hself
  · rw [State.conn, hconns]
    exact hne j hj
  · exact rwire.trans (by rw [hframe])
  · exact rout.trans (by rw [hframe])
  · rw [hnone]
    exact hframe

/-- The one frame held is sent again. -/
theorem replayed_of_single {s : State} {lsn : Nat} {c : Conn} {h : HeldFrame} (hheld : c.held = [h]) (hfrom : heldFrom lsn [h] = [h]) :
    (replayed s lsn c).held = [{ h with sent := s.now }] := by
  unfold replayed
  rw [hheld, hfrom]
  simp

/-! ### Frames that are sent in their turn -/

/-- A connection is changed and sends a control frame. -/
theorem control_modConn {s : State} (p k : Nat) {kind : Nat} (f : Conn → Conn) (fields : List Nat) (h : kind ≠ 5) :
    Sent s ((s.modConn k f).control p k kind fields) ∧
    ((s.modConn k f).control p k kind fields).conn k = { f (s.conn k) with ctlTx := (f (s.conn k)).ctlTx + 1 } ∧
    (∀ j, j ≠ k → ((s.modConn k f).control p k kind fields).conn j = s.conn j) ∧
    ((s.modConn k f).control p k kind fields).out = s.out ++ [.frame p kind fields] := by
  refine ⟨Sent.trans (by exact rfl) (sent_control _ _ _ _ h), ?_, fun j hj => ?_, control_out ..⟩
  · rw [control_conn_self _ _ _ _ h, modConn_conn_self]
  · rw [control_conn_ne _ _ _ hj, modConn_conn_ne _ _ hj]

/-- The frames of a connection follow from its keys and counters alone. -/
theorem controlFrame_modConn (s : State) (k kind : Nat) (fields : List Nat) {f : Conn → Conn} (hctl : (f (s.conn k)).ctlTx = (s.conn k).ctlTx)
    (hexpect : (f (s.conn k)).expect = (s.conn k).expect) (hkey : (f (s.conn k)).keyTx = (s.conn k).keyTx) :
    (s.modConn k f).controlFrame k kind fields = s.controlFrame k kind fields := by
  unfold State.controlFrame
  rw [modConn_conn_self]
  dsimp only
  rw [hctl, hexpect, hkey]
  rfl

/-- A NAK that finds nothing held. -/
theorem nakReceive_of_none {s : State} {p : Port} {n : Node} (l a : BitVec 24) {c : DWord} {k : Nat} (hs : s.answers = true) (hk : k = s.connKey p n.toNat)
    (hup : (s.port p).state = .up) (hrx : (s.conn k).rxOpen = true) (habove : (s.conn k).aboveLast c.toNat = true) (hheld : (s.conn k).held = []) :
    ∃ t, exec (.nakReceive p n l a ⟨c, true⟩) s = .next t ∧ (t.conn k).replays = (s.conn k).replays + 1 ∧ (t.conn k).lastRx = s.now ∧
      (t.conn k).ctlRx = some c.toNat ∧ t.ctr (portOff p 0x30) = s.ctr (portOff p 0x30) + 1 ∧ (∀ j, j ≠ k → t.conn j = s.conn j) ∧
      t = { s with lnk := { s.lnk with conns := t.lnk.conns }, ctrs := t.ctrs } := by
  have hin := controlIn_taken (a := a.toNat) hk hup hrx habove
  have hconn := taken_conn_self (a := a.toNat) c (k := k) (s := s) (by rw [hheld]; rfl)
  have hnak : s.nakReceive p n.toNat l.toNat a.toNat ⟨c, true⟩ =
      ((s.modConn k (taken s c)).ackUpTo k a.toNat).replayFrom p k l.toNat := by
    unfold State.nakReceive
    rw [hin, hk]
    rfl
  have hnone : (((s.modConn k (taken s c)).ackUpTo k a.toNat).conn k).held = [] := by rw [hconn]; exact hheld
  obtain ⟨-, rconn, rothers, -, -, rctr, rquiet⟩ := replayFrom_spec ((s.modConn k (taken s c)).ackUpTo k a.toNat) p k l.toNat
  rw [hconn] at rconn
  refine ⟨_, next_of_answers hs hnak, ?_, ?_, ?_, rctr, fun j hj => (rothers j hj).trans (taken_conn_ne _ _ hj), ?_⟩
  · rw [rconn]; rfl
  · rw [rconn]; rfl
  · rw [rconn]; rfl
  · exact ((rejoined_modConn s k _).trans (rejoined_ackUpTo _ k _)).recounted.trans (rquiet (by rw [hnone]; rfl))

/-- A NAK that asks again for the one frame held. -/
theorem nakReceive_of_single {s : State} {p : Port} {n : Node} (l a : BitVec 24) {c : DWord} {k : Nat} {h : HeldFrame} (hs : s.answers = true)
    (hk : k = s.connKey p n.toNat) (hup : (s.port p).state = .up) (hrx : (s.conn k).rxOpen = true) (habove : (s.conn k).aboveLast c.toNat = true)
    (hheld : (s.conn k).held = [h]) (hack : 0x800000 ≤ (a.toNat + 0x1000000 - h.lsn % 0x1000000) % 0x1000000)
    (hlsn : (h.lsn % 0x1000000 + 0x1000000 - l.toNat) % 0x1000000 < 0x800000) :
    ∃ t, exec (.nakReceive p n l a ⟨c, true⟩) s = .next t ∧ (t.conn k).held = [{ h with sent := s.now }] ∧
      (t.conn k).replays = (s.conn k).replays + 1 ∧ t.lnk.wire = s.lnk.wire ++ [(p.val, h.wire)] ∧
      t.out = s.out ++ [.frame p h.frame.packet.type ([h.lsn % 0x1000000, h.frame.vl, h.frame.sub, h.frame.hops] ++ h.frame.packet.fields)] ∧
      t.ctr (portOff p 0x30) = s.ctr (portOff p 0x30) + 1 ∧ Sent s t := by
  have hin := controlIn_taken (a := a.toNat) hk hup hrx habove
  have hkept : unacked a.toNat [h] = [h] := List.filter_cons_of_pos (decide_eq_true hack)
  have hconn := taken_conn_self (a := a.toNat) c (k := k) (s := s) (by rw [hheld, hkept])
  have hfrom : heldFrom l.toNat [h] = [h] := by
    refine List.filter_cons_of_pos (decide_eq_true ?_)
    rwa [Nat.mod_eq_of_lt l.isLt]
  have hnak : s.nakReceive p n.toNat l.toNat a.toNat ⟨c, true⟩ =
      ((s.modConn k (taken s c)).ackUpTo k a.toNat).replayFrom p k l.toNat := by
    unfold State.nakReceive
    rw [hin, hk]
    rfl
  obtain ⟨rsent, rconn, -, rwire, rout, rctr, -⟩ := replayFrom_spec ((s.modConn k (taken s c)).ackUpTo k a.toNat) p k l.toNat
  rw [hconn] at rconn rwire rout
  rw [show (taken s c (s.conn k)).held = [h] from hheld, hfrom] at rwire rout
  refine ⟨_, next_of_answers hs hnak, ?_, ?_, rwire, rout, rctr, Sent.trans (by exact rfl) rsent⟩
  · rw [rconn]
    exact replayed_of_single (c := taken s c (s.conn k)) hheld hfrom
  · rw [rconn]; rfl

/-- A CREDIT frame that is taken. -/
theorem credit_taken {s : State} {p : Port} {n : Node} (freed : List Nat) (a : BitVec 24) {c : DWord} {k : Nat} (hs : s.answers = true)
    (hk : k = s.connKey p n.toNat) (hmode : s.portMode p = 1) (hup : (s.port p).state = .up) (hrx : (s.conn k).rxOpen = true)
    (habove : (s.conn k).aboveLast c.toNat = true) :
    ∃ t, exec (.credit p n freed a ⟨c, true⟩) s = .next t ∧ (t.conn k).ctlRx = some c.toNat ∧ (t.conn k).freedIn = freed.map (· % 0x100000000) ∧
      (t.conn k).lastRx = s.now ∧ (∀ j, j ≠ k → t.conn j = s.conn j) ∧ Rejoined s t := by
  have hin := controlIn_taken (a := a.toNat) hk hup hrx habove
  have hcredit : s.creditIn p n.toNat freed a.toNat ⟨c, true⟩ =
      ((s.modConn k (taken s c)).ackUpTo k a.toNat).modConn k fun c => { c with freedIn := freed.map (· % 0x100000000) } := by
    unfold State.creditIn
    rw [hin, hk]
    exact if_pos hmode
  have hconn := ackUpTo_conn_self (s.modConn k (taken s c)) k a.toNat
  rw [modConn_conn_self] at hconn
  refine ⟨_, next_of_answers hs hcredit, ?_, ?_, ?_, fun j hj => (modConn_conn_ne _ _ hj).trans (taken_conn_ne _ _ hj),
    ((rejoined_modConn s k _).trans (rejoined_ackUpTo _ k _)).trans (rejoined_modConn _ k _)⟩
  · rw [modConn_conn_self, hconn]; rfl
  · rw [modConn_conn_self]
  · rw [modConn_conn_self, hconn]; rfl

/-! ### The control frames of a connection -/

/-- Settles O39. -/
theorem controlFramesOfAConnection : Obligations.ControlFramesOfAConnection := by
  refine ⟨?_, ?_, ?_, ?_, ?_, ?_, ?_, ?_, ?_⟩
  · exact fun s p n l a c k hs hk hup hrx habove hheld => nakReceive_of_none l a hs hk hup hrx habove hheld
  · exact fun s p n l a c k h hs hk hup hrx habove hheld hack hlsn => nakReceive_of_single l a hs hk hup hrx habove hheld hack hlsn
  · intro s p n l a c freed h
    refine ⟨congrArg _ (whileOn_of_fixed ?_), congrArg _ (whileOn_of_fixed ?_), congrArg _ (whileOn_of_fixed ?_)⟩
    · show s.nakReceive p n.toNat l.toNat a.toNat ⟨c, true⟩ = s
      rw [State.nakReceive, controlIn_stale h]
    · show s.creditIn p n.toNat freed a.toNat ⟨c, true⟩ = s
      rw [State.creditIn, controlIn_stale h]
    · show s.drainNotice p n.toNat a.toNat ⟨c, true⟩ = s
      rw [State.drainNotice, controlIn_stale h]
  · intro s p n k d hs hk hup hdue
    subst hk
    have hsend : s.ackSend p n.toNat = (s.modConn (s.connKey p n.toNat) fun c => { c with ackDue := none, lastTx := s.now }).control p
        (s.connKey p n.toNat) 2 [((s.conn (s.connKey p n.toNat)).expect + 0x1000000 - 1) % 0x1000000] := by
      unfold State.ackSend
      dsimp only
      rw [hdue]
      exact if_neg (by rw [hup]; exact fun h => h rfl)
    obtain ⟨hsent, hconn, hothers, hout⟩ := control_modConn (s := s) p (s.connKey p n.toNat) (kind := 2)
      (fun c => { c with ackDue := none, lastTx := s.now }) [((s.conn (s.connKey p n.toNat)).expect + 0x1000000 - 1) % 0x1000000] (by decide)
    exact ⟨_, next_of_answers hs hsend, by rw [hconn], by rw [hconn], hout, hothers, hsent⟩
  · intro s p n k h hs hk hup hopen hheld htime
    subst hk
    have hfrom : heldFrom (h.lsn % 0x1000000) [h] = [h] := List.filter_cons_of_pos (decide_eq_true (by omega))
    have hsend : s.replayTimer p n.toNat = s.replayFrom p (s.connKey p n.toNat) (h.lsn % 0x1000000) := by
      unfold State.replayTimer
      dsimp only
      rw [hheld]
      exact if_pos ⟨hup, hopen, htime⟩
    obtain ⟨rsent, rconn, rothers, rwire, -, rctr, -⟩ := replayFrom_spec s p (s.connKey p n.toNat) (h.lsn % 0x1000000)
    rw [hheld, hfrom] at rwire
    refine ⟨_, next_of_answers hs hsend, ?_, ?_, rctr, rwire, rothers, rsent⟩
    · rw [rconn]; rfl
    · rw [rconn, replayed_of_single hheld hfrom]
  · intro s p n hheld
    refine congrArg _ (whileOn_of_fixed ?_)
    show s.replayTimer p n.toNat = s
    unfold State.replayTimer
    dsimp only
    rw [hheld]
  · exact fun s p n freed a c k hs hk hmode hup hrx habove => credit_taken freed a hs hk hmode hup hrx habove
  · intro s p n k hs hk hmode hup hopen hdiff
    subst hk
    have hsend : s.creditSend p n.toNat = (s.modConn (s.connKey p n.toNat) fun c => { c with reported := c.freedOut, lastTx := s.now, ackDue := none }).control
        p (s.connKey p n.toNat) 4 (s.conn (s.connKey p n.toNat)).freedOut := if_pos ⟨hmode, hup, hopen, hdiff⟩
    obtain ⟨hsent, hconn, hothers, hout⟩ := control_modConn (s := s) p (s.connKey p n.toNat) (kind := 4)
      (fun c => { c with reported := c.freedOut, lastTx := s.now, ackDue := none }) (s.conn (s.connKey p n.toNat)).freedOut (by decide)
    exact ⟨_, next_of_answers hs hsend, by rw [hconn], hout, hothers, hsent⟩
  · intro s p n k hs hk hup hopen htime
    subst hk
    have hsend : s.keepalive p n.toNat = (s.modConn (s.connKey p n.toNat) fun c => { c with lastTx := s.now, ackDue := none }).control
        p (s.connKey p n.toNat) 9 [] := if_pos ⟨hup, hopen, htime⟩
    obtain ⟨hsent, hconn, hothers, hout⟩ := control_modConn (s := s) p (s.connKey p n.toNat) (kind := 9)
      (fun c => { c with lastTx := s.now, ackDue := none }) [] (by decide)
    refine ⟨_, next_of_answers hs hsend, by rw [hconn], hout, by rw [hconn], hothers, ?_, hsent⟩
    rw [control_wire _ _ _ _ (by decide), controlFrame_modConn s _ 9 [] rfl rfl rfl]
    rfl

end Sys2Proof.Proofs
end

section
/-! The states of a port (spec/11_basin_links_and_topology.md, R440 to R443, Table 11.8). -/
namespace Sys2Proof.Proofs
open Sys2Proof Sys2Proof.Machine Sys2Proof.Laws

theorem modPort_port_self (s : State) {p : Nat} (f : PortX → PortX) (h : p < 36) : (s.modPort p f).port p = f (s.port p) := vget_vmod_self _ _ _ _ h

theorem modPort_port_ne (s : State) {p q : Nat} (f : PortX → PortX) (h : q ≠ p) : (s.modPort p f).port q = s.port q := vget_vmod_ne _ _ _ _ _ h

theorem Linked.port {s t : State} (h : Linked s t) (q : Nat) : t.port q = s.port q := by rw [State.port, State.port, h.ports]

/-! ### A port enters a state -/

/-- The port itself has entered a state; nothing has followed from it yet. -/
def portEntered (s : State) (p : Nat) (st : PortState) : State :=
  s.modPort p fun x => { x with state := st, since := s.now, leftRetrain := if (s.port p).state = .retrain then s.now else x.leftRetrain }

/-- What follows fails connections and changes routes. -/
theorem linked_portTo (s : State) (p : Nat) (st : PortState) : Linked (portEntered s p st) (s.portTo p st) := by
  unfold State.portTo
  extract_lets old s₁ s₂
  have h₂ : Linked (portEntered s p st) s₂ := by
    unfold s₂
    split
    · refine Linked.foldl (fun s k => ?_) _ _
      split
      · exact linked_modConn ..
      · exact .refl _
    · exact .refl _
  split
  · exact h₂.trans (linked_routesChanged ..)
  · exact h₂

/-- A port out of service that does not come UP changes no route. -/
theorem portTo_of_unused {s : State} {p : Nat} {st : PortState} (hup : (s.port p).state ≠ .up) (hre : (s.port p).state ≠ .retrain) (hst : st ≠ .up) :
    s.portTo p st = portEntered s p st := by
  unfold State.portTo
  extract_lets old s₁ s₂
  rw [if_neg (fun h => h.elim hup hst)]
  exact if_neg fun h => h.1.elim hup hre

theorem portTo_port_self (s : State) {p : Nat} (st : PortState) (hp : p < 36) : (s.portTo p st).port p =
    { s.port p with state := st, since := s.now, leftRetrain := if (s.port p).state = .retrain then s.now else (s.port p).leftRetrain } := by
  rw [(linked_portTo s p st).port p]
  exact modPort_port_self _ _ hp

theorem portTo_port_ne (s : State) {p q : Nat} (st : PortState) (h : q ≠ p) : (s.portTo p st).port q = s.port q := by
  rw [(linked_portTo s p st).port q]
  exact modPort_port_ne _ _ h

theorem lnkEvent_bit (s : State) {i : Nat} (h : i < 32) : (s.lnkEvent i).flagBit (blkLNK + 0x24) i = true := event_bit _ _ _ _ h

theorem lnkEvent_port (s : State) (i q : Nat) : (s.lnkEvent i).port q = s.port q := (linked_lnkEvent s i).port q

theorem portDown_port_self (s : State) {p : Nat} (hp : p < 36) : (s.portDown p).port p =
    { s.port p with state := .down, since := s.now, leftRetrain := if (s.port p).state = .retrain then s.now else (s.port p).leftRetrain } := by
  unfold State.portDown
  split
  · rw [lnkEvent_port, portTo_port_self s .down hp]
  · exact portTo_port_self s .down hp

theorem portDown_port_ne (s : State) {p q : Nat} (h : q ≠ p) : (s.portDown p).port q = s.port q := by
  unfold State.portDown
  split
  · rw [lnkEvent_port, portTo_port_ne s .down h]
  · exact portTo_port_ne s .down h

/-! ### Training (R440 to R442) -/

theorem sendIdent_out (s : State) (p k : Nat) (fresh : Bool) : ∃ l, (s.sendIdent p k fresh).out = s.out ++ [.frame p 5 l] := by
  unfold State.sendIdent
  extract_lets d s₁ s₂
  refine ⟨(s₂.conn k).nOwn :: s₂.identFields p, (control_out ..).trans ?_⟩
  have h₁ : s₁.out = s.out := by
    unfold s₁
    split <;> rfl
  have h₂ : s₂.out = s₁.out := by
    unfold s₂
    split <;> rfl
  rw [h₂, h₁]

/-- A port DOWN enters TRAINING. -/
def trainingBegun (s : State) (p : Nat) : State := (portEntered s p .training).modPort p fun x => { x with heldDown := false }

theorem trainingBegun_port (s : State) {p : Nat} (hp : p < 36) : (trainingBegun s p).port p =
    { s.port p with state := .training, since := s.now, heldDown := false,
                    leftRetrain := if (s.port p).state = .retrain then s.now else (s.port p).leftRetrain } := by
  unfold trainingBegun portEntered
  rw [modPort_port_self _ _ hp, modPort_port_self _ _ hp]

/-- With a module within CABLE_POWER it sends an IDENT. -/
theorem train_spec {s : State} {p : Nat} (hp : p < 36) (hdown : (s.port p).state = .down)
    (hpower : ¬(s.portMode p = 1 ∧ (s.portEntry p).cablePower < (s.port p).powerClass)) :
    ((s.train p).port p).state = .training ∧ ((s.train p).port p).signal = (s.port p).signal ∧ ((s.train p).port p).since = s.now ∧
      ∃ l, (s.train p).out = s.out ++ [.frame p 5 l] := by
  have hbegun : s.train p = (trainingBegun s p).sendIdent p ((trainingBegun s p).connKey p 0) true := by
    unfold State.train
    rw [portTo_of_unused (by rw [hdown]; decide) (by rw [hdown]; decide) (by decide)]
    refine if_neg fun h => hpower ⟨h.1, ?_⟩
    have hclass : ((trainingBegun s p).port p).powerClass = (s.port p).powerClass := by rw [trainingBegun_port s hp]
    exact hclass ▸ h.2
  have hport : (s.train p).port p = (trainingBegun s p).port p := by rw [hbegun, (linked_sendIdent _ _ _ _).port p]
  obtain ⟨l, hl⟩ := sendIdent_out (trainingBegun s p) p ((trainingBegun s p).connKey p 0) true
  rw [hport, trainingBegun_port s hp]
  exact ⟨rfl, rfl, rfl, l, hbegun ▸ hl⟩

theorem trainFail_of_no_signal {s : State} {p : Nat} (hp : p < 36) (hsig : (s.port p).signal = false) :
    s.trainFail p = (s.modPort p fun x => { x with trainFails := if x.signal then x.trainFails + 1 else x.trainFails }).portTo p .down := by
  unfold State.trainFail
  dsimp only
  rw [modPort_port_self _ _ hp]
  dsimp only
  rw [hsig]
  rfl

theorem trainFail_port_state {s : State} {p : Nat} (hp : p < 36) (hsig : (s.port p).signal = false) : ((s.trainFail p).port p).state = .down := by
  rw [trainFail_of_no_signal hp hsig, portTo_port_self _ _ hp]

theorem trainFail_port_ne {s : State} {p q : Nat} (hp : p < 36) (hsig : (s.port p).signal = false) (h : q ≠ p) : (s.trainFail p).port q = s.port q := by
  rw [trainFail_of_no_signal hp hsig, portTo_port_ne _ _ h, modPort_port_ne _ _ h]

/-- With a module above it, training fails at once. -/
theorem train_of_power {s : State} {p : Nat} (hp : p < 36) (hdown : (s.port p).state = .down) (hmode : s.portMode p = 1)
    (hpower : (s.portEntry p).cablePower < (s.port p).powerClass) : s.train p = ((trainingBegun s p).trainFail p).lnkEvent 4 := by
  unfold State.train
  rw [portTo_of_unused (by rw [hdown]; decide) (by rw [hdown]; decide) (by decide)]
  refine if_pos ⟨hmode, ?_⟩
  have hclass : ((trainingBegun s p).port p).powerClass = (s.port p).powerClass := by rw [trainingBegun_port s hp]
  exact hclass.symm ▸ hpower

/-! ### Retraining (R440, R443) -/

/-- A port that has entered RETRAIN, counted. -/
def retrainBegun (s : State) (p : Nat) : State :=
  ((s.portTo p .retrain).bump (portOff p 0x40) 1).modPort p fun x => { x with retrains := x.retrains.filter (fun t => s.now < t + hourTicks) ++ [s.now] }

theorem portTo_now (s : State) (p : Nat) (st : PortState) : (s.portTo p st).now = s.now := (congrArg State.now (linked_portTo s p st).frame).trans rfl

/-- Within RETRAIN_MAX, the connections of the port fail. -/
theorem retrainEntry_spec {s : State} {p : Nat} (hp : p < 36) (hup : (s.port p).state = .up)
    (hmax : (s.port p).retrains.length + 1 ≤ (s.reg (blkLNK + 0x18)).toNat % 256) :
    ((s.retrainEntry p).port p).state = .retrain ∧ ((s.retrainEntry p).port p).since = s.now ∧
      (s.retrainEntry p).ctr (portOff p 0x40) = s.ctr (portOff p 0x40) + 1 ∧ ∀ q, q ≠ p → (s.retrainEntry p).port q = s.port q := by
  have hself : (retrainBegun s p).port p = { s.port p with
      state := .retrain, since := s.now, leftRetrain := if (s.port p).state = .retrain then s.now else (s.port p).leftRetrain,
      retrains := (s.port p).retrains.filter (fun t => s.now < t + hourTicks) ++ [s.now] } := by
    unfold retrainBegun
    rw [modPort_port_self _ _ hp, show ((s.portTo p .retrain).bump (portOff p 0x40) 1).port p = (s.portTo p .retrain).port p from rfl,
      portTo_port_self s .retrain hp]
  have hne : ∀ q, q ≠ p → (retrainBegun s p).port q = s.port q := fun q hq => by
    unfold retrainBegun
    rw [modPort_port_ne _ _ hq]
    exact portTo_port_ne s .retrain hq
  have hctr : (retrainBegun s p).ctr (portOff p 0x40) = s.ctr (portOff p 0x40) + 1 :=
    (bump_ctr_self (s.portTo p .retrain) _ 1).trans (congrArg (· + 1) ((linked_portTo s p .retrain).retrains p))
  have hreg : (retrainBegun s p).reg (blkLNK + 0x18) = s.reg (blkLNK + 0x18) := (congrArg (fun x => x.reg (blkLNK + 0x18)) (linked_portTo s p .retrain).frame).trans rfl
  have hlen : ((s.port p).retrains.filter (fun t => s.now < t + hourTicks) ++ [s.now]).length ≤ (s.port p).retrains.length + 1 := by
    rw [List.length_append]
    exact Nat.add_le_add_right (List.length_filter_le ..) 1
  have hentry : Linked (retrainBegun s p) (s.retrainEntry p) := by
    unfold State.retrainEntry
    rw [if_neg (fun h => h hup)]
    dsimp only
    rw [show (((s.portTo p .retrain).bump (portOff p 0x40) 1).modPort p fun x =>
      { x with retrains := x.retrains.filter (fun t => ((s.portTo p .retrain).bump (portOff p 0x40) 1).now < t + hourTicks) ++
        [((s.portTo p .retrain).bump (portOff p 0x40) 1).now] }) = retrainBegun s p from by
      rw [show ((s.portTo p .retrain).bump (portOff p 0x40) 1).now = s.now from portTo_now s p .retrain]
      rfl]
    rw [if_neg (by rw [hreg, hself]; exact Nat.not_lt.mpr (hlen.trans hmax))]
    exact Linked.foldl (fun s k => linked_failConn s p k) _ _
  refine ⟨?_, ?_, (hentry.retrains p).trans hctr, fun q hq => (hentry.port q).trans (hne q hq)⟩
  · rw [hentry.port p, hself]
  · rw [hentry.port p, hself]

/-- A port regains its link; its open connections replay. -/
theorem retrainDone_port {s : State} {p : Nat} (hp : p < 36) (hre : (s.port p).state = .retrain) (htime : s.now < (s.port p).since + 3000000) :
    (s.retrainDone p).port p = { s.port p with state := .up, since := s.now, leftRetrain := s.now } := by
  unfold State.retrainDone
  rw [if_pos ⟨hre, htime⟩]
  extract_lets s₁ s₂
  have h₂ : s₂.lnk.ports = s₁.lnk.ports := by
    unfold s₂
    generalize s₁.portConns p = l
    generalize s₁ = u
    induction l generalizing u with
    | nil => rfl
    | cons k l ih =>
      rw [List.foldl_cons, ih]
      split
      · rfl
      · split
        · exact (congrArg (fun x => x.lnk.ports) (replayFrom_spec ..).sent).trans rfl
        · rfl
  have hport : s₂.port p = { s.port p with state := .up, since := s.now, leftRetrain := s.now } := by
    rw [State.port, h₂]
    refine (portTo_port_self s .up hp).trans ?_
    rw [if_pos hre]
  split
  · rw [(linked_sendIdent _ _ _ _).port p, hport]
  · exact hport

/-! ### The port record (R443) -/

theorem mapOutPort_spec (s : State) {p : Nat} (hp : p < 36) :
    ((s.mapOutPort p).port p).state = .out ∧ p ∈ (s.mapOutPort p).lnk.portRecord ∧ (s.mapOutPort p).flagBit (blkLNK + 0x24) 2 = true := by
  unfold State.mapOutPort
  extract_lets links s₁ ks s₂
  have hfold : Linked s₂ (ks.foldl (fun s k => s.failConn p k) s₂) := Linked.foldl (fun s k => linked_failConn s p k) _ _
  have hall := hfold.trans (linked_lnkEvent _ 2)
  refine ⟨?_, ?_, lnkEvent_bit _ (by decide)⟩
  · rw [hall.port p, portTo_port_self _ .out hp]
  · rw [hall.record, (linked_portTo s₁ p .out).record]
    show p ∈ if s.lnk.portRecord.contains p then s.lnk.portRecord else s.lnk.portRecord ++ [p]
    split
    · next h => exact List.contains_iff_mem.mp h
    · exact List.mem_append_right _ List.mem_cons_self

/-! ### The states of a port -/

/-- What a package does that keeps the level its receivers see while it does not run. -/
theorem next_of_level {s a b t : State} (hs : s.answers = true) (h : a = t) :
    (Host.Outcome.next (if s.answers then a else b) : Host.Outcome State Fault Refusal) = .next t := congrArg _ ((if_pos hs).trans h)

/-- Loss of signal while UP. -/
theorem signalLoss_of_up {s : State} {p : Nat} (hp : p < 36) (hup : (s.port p).state = .up) :
    ((s.signalLoss p).port p).state = .down ∧ ((s.signalLoss p).port p).signal = false ∧ (s.signalLoss p).flagBit (blkLNK + 0x24) 0 = true ∧
      ((s.signalLoss p).port p).since = s.now ∧ ∀ q, q ≠ p → (s.signalLoss p).port q = s.port q := by
  have hself := modPort_port_self s (fun x => { x with signal := false }) hp
  have hlost : ((s.modPort p fun x => { x with signal := false }).port p).state = .up := by rw [hself]; exact hup
  have hloss : s.signalLoss p = ((s.modPort p fun x => { x with signal := false }).portTo p .down).lnkEvent 0 := by
    unfold State.signalLoss
    dsimp only
    rw [if_pos hlost]
    exact if_pos hlost
  rw [hloss, lnkEvent_port, portTo_port_self _ .down hp, hself]
  exact ⟨rfl, rfl, lnkEvent_bit _ (by decide), rfl, fun q hq => by rw [lnkEvent_port, portTo_port_ne _ .down hq, modPort_port_ne _ _ hq]⟩

theorem signalLoss_of_not_up {s : State} {p : Nat} (hp : p < 36) (hup : (s.port p).state ≠ .up) :
    s.signalLoss p = s.modPort p fun x => { x with signal := false } := by
  unfold State.signalLoss
  refine if_neg ?_
  rw [modPort_port_self _ _ hp]
  exact hup

/-- Settles O41. -/
theorem statesOfAPort : Obligations.StatesOfAPort := by
  refine ⟨?_, ?_, ?_, ?_, ?_, ?_, ?_, ?_, ?_, ?_, ?_, ?_, ?_⟩
  · intro s p hs hup
    obtain ⟨hstate, hsig, hbit, hsince, hne⟩ := signalLoss_of_up p.isLt hup
    exact ⟨_, next_of_level hs rfl, hstate, hsig, hbit, hsince, fun q hq => hne q (fun h => hq (Fin.ext h))⟩
  · intro s p hs hup
    exact next_of_level hs (signalLoss_of_not_up p.isLt hup)
  · intro s p hs hdown hheld hpower
    refine ⟨?_, fun hdue => ?_⟩
    · have hself := modPort_port_self s (fun x => { x with signal := true }) p.isLt
      have hdetect : s.signalDetect p = (s.modPort p fun x => { x with signal := true }).train p := by
        unfold State.signalDetect
        refine if_pos ?_
        rw [hself, hheld]
        exact ⟨hdown, rfl⟩
      obtain ⟨hstate, hsig, hsince, hout⟩ := train_spec (s := s.modPort p fun x => { x with signal := true }) p.isLt (by rw [hself]; exact hdown)
        (by rw [hself]; exact hpower)
      rw [hself] at hsig
      exact ⟨_, next_of_level hs hdetect, hstate, hsig, hsince, hout⟩
    · obtain ⟨hstate, -, hsince, hout⟩ := train_spec p.isLt hdown hpower
      exact ⟨_, next_of_answers hs (if_pos ⟨hdown, by rw [hheld]; rfl, hdue⟩), hstate, hsince, hout⟩
  · intro s p hs hdown hheld hmode hpower hsig htime
    have hfail := trainFail_port_state (s := trainingBegun s p) p.isLt (by rw [trainingBegun_port s p.isLt]; exact hsig)
    exact ⟨_, next_of_answers hs ((if_pos ⟨hdown, by rw [hheld]; rfl, .inr htime⟩).trans (train_of_power p.isLt hdown hmode hpower)),
      by rw [lnkEvent_port, hfail], lnkEvent_bit _ (by decide)⟩
  · intro s p hs hsig htime
    refine next_of_answers hs (if_neg fun h => ?_)
    rcases h.2.2 with hs | ht
    · rw [hsig] at hs
      cases hs
    · omega
  · intro s p hs hup hmax
    obtain ⟨hstate, hsince, hctr, hne⟩ := retrainEntry_spec p.isLt hup hmax
    exact ⟨_, next_of_answers hs rfl, hstate, hctr, hsince, fun q hq => hne q (fun h => hq (Fin.ext h))⟩
  · intro s p hs htrain htime hsig
    refine ⟨_, next_of_answers hs (if_pos ⟨htrain, ?_⟩), trainFail_port_state p.isLt hsig,
      fun q hq => trainFail_port_ne p.isLt hsig (fun h => hq (Fin.ext h))⟩
    split <;> omega
  · intro s p hs hre htime
    refine ⟨⟨_, next_of_answers hs (if_pos ⟨hre, htime⟩), ?_, ?_⟩, next_of_answers hs (if_neg fun h => by omega)⟩
    · rw [portDown_port_self s p.isLt]
    · rw [portDown_port_self s p.isLt]
      exact if_pos hre
  · intro s p hs hre htime
    have hport := retrainDone_port p.isLt hre htime
    exact ⟨⟨_, next_of_answers hs rfl, by rw [hport], by rw [hport]⟩, next_of_answers hs (if_neg fun h => by omega)⟩
  · intro s p te pc st hs hmode
    refine next_of_answers hs ?_
    unfold State.modulePoll
    exact (if_neg (fun h => h hmode)).trans rfl
  · intro s p te pc st a b hs hmode hup
    have hself := modPort_port_self s (fun x => { x with temp := te.toNat, powerClass := pc.toNat, moduleState := st.toNat }) p.isLt
    have hpoll : s.modulePoll p a b true te.toNat pc.toNat st.toNat =
        (s.modPort p fun x => { x with temp := te.toNat, powerClass := pc.toNat, moduleState := st.toNat }).portDown p := by
      unfold State.modulePoll
      refine (if_neg (fun h => h hmode)).trans (if_pos ⟨rfl, .inl ?_⟩)
      rw [hself]
      exact hup
    refine ⟨_, next_of_answers hs hpoll, ?_, ?_⟩
    · rw [portDown_port_self _ p.isLt]
    · rw [portDown_port_self _ p.isLt, hself]
  · intro s w p hs hbit hw hoff hout
    have hreq : s.portReq w = s.mapOutPort p := by
      unfold State.portReq
      dsimp only
      rw [hbit, hw]
      refine (if_neg (by decide)).trans (if_neg fun h => ?_)
      rcases h with h | h | h
      · omega
      · exact hoff h
      · exact hout h
    obtain ⟨hstate, hrec, hflag⟩ := mapOutPort_spec s p.isLt
    exact ⟨_, next_of_answers hs hreq, hstate, hrec, hflag⟩
  · intro s w hs hbit h
    have hreq : s.portReq w = s.lnkEvent 5 := by
      unfold State.portReq
      dsimp only
      rw [hbit]
      exact (if_neg (by decide)).trans (if_pos h)
    have hsig : Signals s (s.lnkEvent 5) := signals_event ..
    exact ⟨_, next_of_answers hs hreq, lnkEvent_bit _ (by decide), Eq.trans hsig rfl⟩

end Sys2Proof.Proofs
end

section
/-! Frames that arrive on a connection (spec/11_basin_links_and_topology.md, R417 to R422). -/
namespace Sys2Proof.Proofs
open Sys2Proof Sys2Proof.Machine Sys2Proof.Laws

/-! ### A frame that is heard -/

/-- The connection after a frame with a good tag has been heard on it and its ACK_LSN taken. -/
def listened (s : State) (p k x ack : Nat) : State := ((s.bump (portOff p 0x20) x).modConn k fun c => { c with lastRx := s.now }).ackUpTo k ack

theorem listened_conn_self (s : State) (p k x ack : Nat) : ∃ held replays,
    (listened s p k x ack).conn k = { s.conn k with lastRx := s.now, held, replays } := by
  unfold listened
  rw [ackUpTo_conn_self, modConn_conn_self]
  exact ⟨_, _, rfl⟩

theorem listened_conn_ne (s : State) (p x ack : Nat) {j k : Nat} (h : j ≠ k) : (listened s p k x ack).conn j = s.conn j := by
  unfold listened
  rw [ackUpTo_conn_ne _ _ h, modConn_conn_ne _ _ h]
  rfl

theorem listened_frame (s : State) (p k x ack : Nat) : listened s p k x ack =
    { s with lnk := { s.lnk with conns := (listened s p k x ack).lnk.conns }, ctrs := (listened s p k x ack).ctrs } :=
  Eq.trans ((rejoined_modConn (s.bump (portOff p 0x20) x) k _).trans (rejoined_ackUpTo _ k ack)) rfl

/-- What is done with a frame numbered by LSN that is heard on an open connection. -/
theorem receiveFrame_heard {s : State} {p n k : Nat} {f : LinkFrame} (x : Nat) (hk : k = s.connKey p n) (hup : (s.port p).state = .up)
    (hrx : (s.conn k).rxOpen = true) (hctl : f.packet ≠ .control) :
    (f.lsn = (s.conn k).expect % 0x1000000 → (∀ r, f.packet = .request r → r.dstNode = s.ownNode → s.holdFull (s.linkDie p) r = false) →
      s.receiveFrame p n f .good x = (listened s p k x f.ackLsn).acceptFrame p k f) ∧
    (f.lsn ≠ (s.conn k).expect % 0x1000000 → 0x800000 ≤ (f.lsn + 0x1000000 - (s.conn k).expect % 0x1000000) % 0x1000000 →
      s.receiveFrame p n f .good x = (listened s p k x f.ackLsn).modConn k fun c => { c with ackDue := some (c.ackDue.getD s.now) }) := by
  subst hk
  generalize hk : s.connKey p n = k at *
  obtain ⟨held, replays, hself⟩ := listened_conn_self s p k x f.ackLsn
  have hopen : ((listened s p k x f.ackLsn).conn k).rxOpen = true := by rw [hself]; exact hrx
  have hexpect : ((listened s p k x f.ackLsn).conn k).expect = (s.conn k).expect := by rw [hself]
  have hbase : s.receiveFrame p n f .good x = match f.packet with
      | .control => (listened s p k x f.ackLsn).modConn k fun c => { c with ctlRx := some f.counter }
      | _ =>
        let want := ((listened s p k x f.ackLsn).conn k).expect % 0x1000000
        if f.lsn = want then
          let full := match f.packet with
            | .request r => decide (r.dstNode = s.ownNode) && s.holdFull (s.linkDie p) r
            | _ => false
          if full then (listened s p k x f.ackLsn).nak p k else (listened s p k x f.ackLsn).acceptFrame p k f
        else if (f.lsn + 0x1000000 - want) % 0x1000000 < 0x800000 then (listened s p k x f.ackLsn).nak p k
        else (listened s p k x f.ackLsn).modConn k fun c => { c with ackDue := some (c.ackDue.getD s.now) } := by
    unfold State.receiveFrame
    dsimp only
    rw [if_neg (fun h => h hup), if_neg (fun h => hctl h.1), hk]
    have hclosed : ¬(!((listened s p k x f.ackLsn).conn k).rxOpen) = true := by rw [hopen]; decide
    exact (if_neg hclosed).trans rfl
  rw [hbase]
  refine ⟨fun hlsn hfull => ?_, fun hlsn hold => ?_⟩
  · cases hp : f.packet with
    | control => exact absurd hp hctl
    | request r =>
      dsimp only
      rw [hexpect, if_pos hlsn]
      refine if_neg ?_
      by_cases hdst : r.dstNode = s.ownNode
      · rw [hfull r hp hdst, Bool.and_false]
        exact Bool.false_ne_true
      · rw [decide_eq_false hdst, Bool.false_and]
        exact Bool.false_ne_true
    | response r => dsimp only; rw [hexpect, if_pos hlsn]; rfl
    | resyncReq a b c => dsimp only; rw [hexpect, if_pos hlsn]; rfl
    | resyncAck a b c d => dsimp only; rw [hexpect, if_pos hlsn]; rfl
  · cases hp : f.packet with
    | control => exact absurd hp hctl
    | request r => dsimp only; rw [hexpect, if_neg hlsn, if_neg (by omega)]
    | response r => dsimp only; rw [hexpect, if_neg hlsn, if_neg (by omega)]
    | resyncReq a b c => dsimp only; rw [hexpect, if_neg hlsn, if_neg (by omega)]
    | resyncAck a b c d => dsimp only; rw [hexpect, if_neg hlsn, if_neg (by omega)]

/-! ### A frame that is accepted -/

/-- A node already seen, with an incarnation no newer, changes nothing. -/
theorem sawIncarnation_of_seen {s : State} {n inc : Nat} (hseen : (s.node n).seen = true) (hinc : newerInc inc (s.node n).inc = false) (b : Bool) :
    s.sawIncarnation n inc b = if b then s.modNode n fun x => { x with drainNotice := false } else s := by
  unfold State.sawIncarnation
  dsimp only
  rw [hseen, hinc]
  rfl

/-- The state after a frame for this node has been accepted and its blocks freed. -/
def accepted (s : State) (p k x : Nat) (f : LinkFrame) : State :=
  (((listened s p k x f.ackLsn).modConn k fun c => { c with expect := c.expect + 1, ackDue := some (c.ackDue.getD s.now) }).modPort p
    fun x => { x with heldBlocks := modNth x.heldBlocks (2 * f.vl + f.sub) (· + f.packet.blocks) }).freeBlocks (some (p, 2 * f.vl + f.sub, f.packet.blocks))

theorem acceptFrame_here {s : State} {p k x : Nat} {f : LinkFrame} (hdst : f.packet.dst = s.ownNode) (hseen : (s.node f.packet.ends.1).seen = true)
    (hinc : newerInc (frameInc f) (s.node f.packet.ends.1).inc = false) :
    (listened s p k x f.ackLsn).acceptFrame p k f = (accepted s p k x f).deliver (s.linkDie p) f := by
  unfold State.acceptFrame
  extract_lets cls n s₁ s₂ src s₃
  have h₃ : s₃ = s₂ := by
    unfold s₃
    split
    · exact sawIncarnation_of_seen (s := s₂) hseen hinc false
    · rfl
  rw [h₃]
  exact (if_pos hdst).trans rfl

/-- A table of connections in which one key alone names a peer's port. -/
structure Named (m : SMap Conn) (k k2 src port : Nat) : Prop where
  rx : (SMap.get {} m k).rxOpen = true
  own : (SMap.get {} m k).peer = src → (SMap.get {} m k).peerPort = port → k = k2
  peer : (SMap.get {} m k2).peer = src ∧ (SMap.get {} m k2).peerPort = port
  mem : (k2, SMap.get {} m k2) ∈ m
  only : ∀ y ∈ m, y.2.peer = src → y.2.peerPort = port → y.1 = k2

theorem mem_insert_self {α : Type} (m : SMap α) (a : Nat) (v : α) : (a, v) ∈ SMap.insert m a v := by
  induction m with
  | nil => exact List.mem_cons_self
  | cons x m ih =>
    unfold SMap.insert
    split
    · exact List.mem_cons_self
    · split
      · exact List.mem_cons_self
      · exact List.mem_cons_of_mem _ ih

theorem mem_insert_of_ne {α : Type} {m : SMap α} {a : Nat} (v : α) {x : Nat × α} (h : x ∈ m) (hne : x.1 ≠ a) : x ∈ SMap.insert m a v := by
  induction m with
  | nil => cases h
  | cons y m ih =>
    unfold SMap.insert
    split
    · exact List.mem_cons_of_mem _ h
    · split
      · next ha =>
        rcases List.mem_cons.mp h with hy | hm
        · exact absurd (congrArg Prod.fst hy) fun hk => hne (hk.trans ha.symm)
        · exact List.mem_cons_of_mem _ hm
      · rcases List.mem_cons.mp h with hy | hm
        · exact hy ▸ List.mem_cons_self
        · exact List.mem_cons_of_mem _ (ih hm)

theorem mem_put_of_ne {α : Type} [DecidableEq α] {d : α} {m : SMap α} {a : Nat} (v : α) {x : Nat × α} (h : x ∈ m) (hne : x.1 ≠ a) : x ∈ SMap.put d m a v := by
  unfold SMap.put
  split
  · exact List.mem_filter.mpr ⟨h, decide_eq_true hne⟩
  · exact mem_insert_of_ne v h hne

/-- A change of the connection that is heard, which leaves open who is at its other end. -/
theorem Named.upd {m : SMap Conn} {k k2 src port : Nat} (h : Named m k k2 src port) (f : Conn → Conn)
    (hf : ∀ c, (f c).rxOpen = c.rxOpen ∧ (f c).peer = c.peer ∧ (f c).peerPort = c.peerPort) : Named (SMap.upd {} m k f) k k2 src port := by
  obtain ⟨hrx, hpeer, hport⟩ := hf (SMap.get {} m k)
  have hput : f (SMap.get {} m k) ≠ {} := fun hd => by
    rw [hd] at hrx
    exact absurd (hrx.trans h.rx) (by decide)
  have hmem : (k2, SMap.get {} (SMap.upd {} m k f) k2) ∈ SMap.upd {} m k f ∧ (SMap.get {} (SMap.upd {} m k f) k2).peer = src ∧
      (SMap.get {} (SMap.upd {} m k f) k2).peerPort = port := by
    by_cases hk : k2 = k
    · subst hk
      rw [get_upd_self]
      refine ⟨?_, hpeer.trans h.peer.1, hport.trans h.peer.2⟩
      unfold SMap.upd SMap.put
      rw [if_neg hput]
      exact mem_insert_self ..
    · rw [get_upd_ne _ _ _ _ _ hk]
      exact ⟨mem_put_of_ne _ h.mem hk, h.peer.1, h.peer.2⟩
  refine ⟨?_, ?_, hmem.2, hmem.1, fun y hy hs hp => ?_⟩
  · rw [get_upd_self, hrx]
    exact h.rx
  · rw [get_upd_self, hpeer, hport]
    exact h.own
  · rcases mem_put hy with hm | hm
    · exact h.only y hm hs hp
    · subst hm
      exact h.own (hpeer.symm.trans hs) (hport.symm.trans hp)

theorem named_modConn {s : State} {k k2 src port : Nat} (h : Named s.lnk.conns k k2 src port) (f : Conn → Conn)
    (hf : ∀ c, (f c).rxOpen = c.rxOpen ∧ (f c).peer = c.peer ∧ (f c).peerPort = c.peerPort) : Named (s.modConn k f).lnk.conns k k2 src port := h.upd f hf

theorem named_ackUpTo {s : State} {k k2 src port : Nat} (h : Named s.lnk.conns k k2 src port) (a : Nat) : Named (s.ackUpTo k a).lnk.conns k k2 src port := by
  unfold State.ackUpTo
  exact named_modConn h _ fun _ => ⟨rfl, rfl, rfl⟩

/-- Only the links and counters differ. -/
def Listens (s t : State) : Prop := t = { s with lnk := t.lnk, ctrs := t.ctrs }

theorem Listens.trans {s t u : State} (h : Listens s t) (k : Listens t u) : Listens s u := Eq.trans k (by rw [h])

/-- What acceptance leaves. -/
structure Accepted (p k : Nat) (s t : State) : Prop where
  listens : Listens s t
  state : (t.port p).state = (s.port p).state
  expect : (t.conn k).expect = (s.conn k).expect + 1
  resync : ∀ j, (t.conn j).resync = (s.conn j).resync
  named : ∀ k2 src port, Named s.lnk.conns k k2 src port → Named t.lnk.conns k k2 src port

theorem listens_freeBlocks (s : State) (x : Option (Nat × Nat × Nat)) : Listens s (s.freeBlocks x) := by
  unfold State.freeBlocks
  split
  · rfl
  · dsimp only
    split <;> rfl

theorem freeBlocks_conns (s : State) (p cls n : Nat) : (s.freeBlocks (some (p, cls, n))).lnk.conns =
    if s.portMode p = 1 then
      SMap.upd {} s.lnk.conns (s.connKey p 0) fun c => { c with freedOut := modNth c.freedOut cls fun v => (v + n) % 0x100000000 }
    else s.lnk.conns := by
  unfold State.freeBlocks
  dsimp only
  by_cases h : s.portMode p = 1
  · exact (congrArg (fun u : State => u.lnk.conns) (if_pos h)).trans (if_pos h).symm
  · exact (congrArg (fun u : State => u.lnk.conns) (if_neg h)).trans (if_neg h).symm

theorem freeBlocks_port_state (s : State) {p : Nat} (cls n : Nat) (h : p < 36) : ((s.freeBlocks (some (p, cls, n))).port p).state = (s.port p).state := by
  have hports : (s.freeBlocks (some (p, cls, n))).lnk.ports = (s.modPort p fun x => { x with heldBlocks := modNth x.heldBlocks cls (· - n) }).lnk.ports := by
    unfold State.freeBlocks
    dsimp only
    split <;> rfl
  rw [State.port, hports]
  exact (congrArg PortX.state (modPort_port_self s (fun x => { x with heldBlocks := modNth x.heldBlocks cls (· - n) }) h)).trans rfl

theorem accepted_spec {s : State} {p n k : Nat} (hk : k = s.connKey p n) (hp : p < 36) (x : Nat) (f : LinkFrame) : Accepted p k s (accepted s p k x f) := by
  have hlisten : Listens s (listened s p k x f.ackLsn) := Eq.trans (listened_frame s p k x f.ackLsn) rfl
  have hports : (listened s p k x f.ackLsn).port p = s.port p := rfl
  have hmode : (listened s p k x f.ackLsn).connKey p 0 = s.connKey p 0 ∧ (listened s p k x f.ackLsn).portMode p = s.portMode p := ⟨rfl, rfl⟩
  obtain ⟨held, replays, hself⟩ := listened_conn_self s p k x f.ackLsn
  have hne := fun j => listened_conn_ne s p x f.ackLsn (j := j) (k := k)
  have hnamed : ∀ k2 src port, Named s.lnk.conns k k2 src port → Named (listened s p k x f.ackLsn).lnk.conns k k2 src port := fun k2 src port h =>
    named_ackUpTo (s := (s.bump (portOff p 0x20) x).modConn k fun c => { c with lastRx := s.now })
      (named_modConn (s := s.bump (portOff p 0x20) x) h _ fun _ => ⟨rfl, rfl, rfl⟩) _
  unfold accepted
  generalize listened s p k x f.ackLsn = u at *
  generalize hv : (u.modConn k fun c => { c with expect := c.expect + 1, ackDue := some (c.ackDue.getD s.now) }).modPort p _ = v
  have hkept := (connsKept_freeBlocks v (some (p, 2 * f.vl + f.sub, f.packet.blocks))).kept
  have hvconn : ∀ j, v.conn j = (u.modConn k fun c => { c with expect := c.expect + 1, ackDue := some (c.ackDue.getD s.now) }).conn j := fun j => by
    rw [← hv]
    rfl
  refine ⟨?_, ?_, ?_, fun j => ?_, fun k2 src port h => ?_⟩
  · refine Listens.trans ?_ (listens_freeBlocks ..)
    rw [← hv]
    exact hlisten.trans (by exact rfl)
  · refine (freeBlocks_port_state v _ _ hp).trans ?_
    rw [← hv, modPort_port_self _ _ hp]
    exact show (u.port p).state = (s.port p).state from congrArg PortX.state hports
  · refine (congrArg Conn.expect (hkept k)).trans ?_
    rw [hvconn, modConn_conn_self, hself]
  · refine (congrArg Conn.resync (hkept j)).trans ?_
    rw [hvconn]
    by_cases hj : j = k
    · rw [hj, modConn_conn_self, hself]
    · rw [modConn_conn_ne _ _ hj, hne j hj]
  · rw [freeBlocks_conns]
    have hu := (hnamed k2 src port h).upd (fun c => { c with expect := c.expect + 1, ackDue := some (c.ackDue.getD s.now) }) fun _ => ⟨rfl, rfl, rfl⟩
    have hvnamed : Named v.lnk.conns k k2 src port := by
      rw [← hv]
      exact hu
    split
    · next hnative =>
      have hkey : v.connKey p 0 = k := by
        have hvkey : v.connKey p 0 = u.connKey p 0 ∧ v.portMode p = u.portMode p := by
          rw [← hv]
          exact ⟨rfl, rfl⟩
        have hone : s.portMode p = 1 := hmode.2 ▸ hvkey.2 ▸ hnative
        rw [hvkey.1, hmode.1, hk, State.connKey, State.connKey, if_pos hone, if_pos hone]
      rw [hkey]
      exact hvnamed.upd _ fun _ => ⟨rfl, rfl, rfl⟩
    · exact hvnamed

/-- A good frame for this node, in order, is accepted and delivered. -/
theorem receiveFrame_accepted {s : State} {p n k : Nat} {f : LinkFrame} (x : Nat) (hk : k = s.connKey p n) (hup : (s.port p).state = .up)
    (hrx : (s.conn k).rxOpen = true) (hctl : f.packet ≠ .control) (hdst : f.packet.dst = s.ownNode) (hlsn : f.lsn = (s.conn k).expect % 0x1000000)
    (hfull : ∀ r, f.packet = .request r → r.dstNode = s.ownNode → s.holdFull (s.linkDie p) r = false) (hseen : (s.node f.packet.ends.1).seen = true)
    (hinc : newerInc (frameInc f) (s.node f.packet.ends.1).inc = false) :
    s.receiveFrame p n f .good x = (accepted s p k x f).deliver (s.linkDie p) f :=
  ((receiveFrame_heard x hk hup hrx hctl).1 hlsn hfull).trans (acceptFrame_here hdst hseen hinc)

/-! ### Resynchronisation (R422) -/

/-- A RESYNC_REQ closes the receive side that it names, and no other work follows but the answer. -/
theorem takeResyncReq_closes {s : State} {k k2 src port : Nat} (h : Named s.lnk.conns k k2 src port) :
    ((s.takeResyncReq src port).conn k2).rxOpen = false ∧ (s.takeResyncReq src port).bsn = s.bsn := by
  unfold State.takeResyncReq
  split
  · next hnone => exact absurd (decide_eq_true h.peer) (List.find?_eq_none.mp hnone _ h.mem)
  · next j c hsome =>
    have hj : j = k2 := by
      have hpeer := List.find?_some hsome
      simp only [decide_eq_true_eq] at hpeer
      exact h.only _ (List.mem_of_find?_eq_some hsome) hpeer.1 hpeer.2
    subst hj
    generalize hu : s.modConn j (fun c => { c with rxOpen := false }) = u
    have hclosed : (u.conn j).rxOpen = false := by rw [← hu, modConn_conn_self]
    have hbsn : u.bsn = s.bsn := by
      rw [← hu]
      rfl
    refine ⟨?_, ?_⟩
    · exact (congrArg Conn.rxOpen ((connsKept_toEgress u _ false).kept j)).trans hclosed
    · exact ((congrArg State.bsn (linked_toEgress u _ false rfl).frame).trans rfl).trans hbsn

/-- A RESYNC_ACK resolves the connection whose resynchronisation was asked for. -/
theorem takeResyncAck_resolves {s : State} {src port : Nat} (lsn : Nat) (h : (s.conn (65536 * port + src)).resync ≠ none) :
    ((s.takeResyncAck src port lsn).conn (65536 * port + src)).isOpen = false ∧ ((s.takeResyncAck src port lsn).conn (65536 * port + src)).held = [] ∧
      ((s.takeResyncAck src port lsn).conn (65536 * port + src)).resync = none := by
  unfold State.takeResyncAck
  dsimp only
  rw [if_pos (Option.isSome_iff_ne_none.mpr h)]
  have hkept := resolve_conn (s.ackUpTo (65536 * port + src) lsn) (65536 * port + src)
  exact ⟨(congrArg Conn.isOpen hkept).trans rfl, (congrArg Conn.held hkept).trans rfl, (congrArg Conn.resync hkept).trans rfl⟩

/-! ### Frames that a NAK answers (R421) -/

/-- A frame that cannot be corrected or whose tag fails. -/
theorem receiveFrame_bad {s : State} {p n k : Nat} {f : LinkFrame} {h : FrameHealth} {o : Nat} (x : Nat) (hk : k = s.connKey p n)
    (hup : (s.port p).state = .up) (hbad : (h, o) ∈ [(FrameHealth.uncorrectable, 0x28), (FrameHealth.badTag, 0x38)]) :
    s.receiveFrame p n f h x = ((s.bump (portOff p 0x20) x).bump (portOff p o) 1).nak p k ∧ o ≠ 0x20 ∧ o ≠ 0x48 := by
  subst hk
  simp only [List.mem_cons, Prod.mk.injEq, List.not_mem_nil, or_false] at hbad
  rcases hbad with ⟨rfl, rfl⟩ | ⟨rfl, rfl⟩
  · exact ⟨if_neg fun h => h hup, by decide, by decide⟩
  · exact ⟨if_neg fun h => h hup, by decide, by decide⟩

theorem portOff_ne (p : Nat) {o q : Nat} (h : o ≠ q) : portOff p o ≠ portOff p q := by
  unfold portOff
  omega

/-- What the NAK writes. -/
theorem nak_after_counts (s : State) (p k x : Nat) {o : Nat} (h20 : o ≠ 0x20) (h48 : o ≠ 0x48) {t : State}
    (ht : t = ((s.bump (portOff p 0x20) x).bump (portOff p o) 1).nak p k) :
    t.out = s.out ++ [.frame p 3 [(s.conn k).expect % 0x1000000]] ∧ t.ctr (portOff p o) = s.ctr (portOff p o) + 1 ∧
      t.conn k = { s.conn k with ctlTx := (s.conn k).ctlTx + 1 } ∧ (∀ j, j ≠ k → t.conn j = s.conn j) ∧
      t.lnk.wire = s.lnk.wire ++ [(p, s.onWire p k 0 (Packet.resyncReq s.ownNode (k % 65536) 0).hash
        (s.controlFrame k 3 [(s.conn k).expect % 0x1000000]))] ∧ Sent s t := by
  have hctr : ((s.bump (portOff p 0x20) x).bump (portOff p o) 1).ctr (portOff p o) = s.ctr (portOff p o) + 1 := by
    rw [bump_ctr_self, bump_ctr_ne _ _ _ _ (portOff_ne p h20)]
    rfl
  generalize hv : (s.bump (portOff p 0x20) x).bump (portOff p o) 1 = v at ht hctr
  obtain ⟨c, rfl⟩ : ∃ c, v = { s with ctrs := c } := ⟨v.ctrs, hv ▸ rfl⟩
  subst ht
  refine ⟨control_out .., ?_, control_conn_self _ _ _ _ (by decide), fun j hj => control_conn_ne _ _ _ hj, control_wire _ _ _ _ (by decide), ?_⟩
  · exact (control_ctr _ _ _ _ (portOff_ne p h48)).trans hctr
  · exact Sent.trans (t := { s with ctrs := c }) rfl (sent_control _ _ _ _ (by decide))

/-! ### The frames of a connection -/

/-- Settles O38. -/
theorem framesOfAConnection : Obligations.FramesOfAConnection := by
  refine ⟨?_, ?_, ?_, ?_, ?_⟩
  · intro s p n f r x k hs hk hup hrx hf hdst hlsn hfull hseen hinc
    have hrec : (match f.packet with
        | .resyncReq _ _ _ => s
        | .resyncAck _ _ _ _ => s
        | _ => s.receiveFrame p n.toNat f .good x) = (accepted s p k x f).deliver (s.linkDie p) f := by
      rw [hf]
      refine receiveFrame_accepted x hk hup hrx (by rw [hf]; exact fun h => by cases h) (by rw [hf]; exact hdst) hlsn ?_ ?_ ?_
      · intro q hq _
        obtain rfl : r = q := Packet.request.inj (hf.symm.trans hq)
        exact hfull
      · rw [hf]; exact hseen
      · rw [frameInc, hf]; exact hinc
    obtain ⟨hlistens, hstate, hexpect, -, -⟩ := accepted_spec hk p.isLt x f
    have hdeliver : (accepted s p k x f).deliver (s.linkDie p) f =
        { accepted s p k x f with bsn := { (accepted s p k x f).bsn with inReq := (accepted s p k x f).bsn.inReq ++ [(r, s.linkDie p)] } } := by
      unfold State.deliver
      rw [hf]
    have hbsn : (accepted s p k x f).bsn = s.bsn := (congrArg State.bsn hlistens).trans rfl
    refine ⟨_, next_of_answers hs (hrec.trans hdeliver), hexpect, ?_, hstate.trans hup, (congrArg State.mem hlistens).trans rfl⟩
    rw [hbsn]
  · intro s p n f r x k hs hk hup hf h o hbad
    obtain ⟨hrec, h20, h48⟩ := receiveFrame_bad (f := f) x hk hup hbad
    refine ⟨_, next_of_answers hs ?_, nak_after_counts s p k x h20 h48 rfl⟩
    show (match f.packet with
        | .resyncReq _ _ _ => s
        | .resyncAck _ _ _ _ => s
        | _ => s.receiveFrame p n.toNat f h x) = _
    rw [hf]
    exact hrec
  · intro s p n f r x k hs hk hup hrx hf hlsn hold
    have hrec := (receiveFrame_heard x hk hup hrx (by rw [hf]; exact fun h => by cases h)).2 hlsn hold
    obtain ⟨held, replays, hself⟩ := listened_conn_self s p k x f.ackLsn
    refine ⟨_, next_of_answers hs (t := (listened s p k x f.ackLsn).modConn k fun c => { c with ackDue := some (c.ackDue.getD s.now) }) ?_, ?_, ?_, ?_⟩
    · show (match f.packet with
        | .resyncReq _ _ _ => s
        | .resyncAck _ _ _ _ => s
        | _ => s.receiveFrame p n.toNat f .good x) = _
      rw [hf]
      exact hrec
    · rw [modConn_conn_self, hself]
    · rw [modConn_conn_self]
      exact Option.some_ne_none _
    · exact (congrArg State.bsn (listened_frame s p k x f.ackLsn)).trans rfl
  · intro s p n f src port k k2 hs hk hup hrx hf hlsn hseen hinc hpeer hport hmem honly hown
    have hrec : (match f.packet with
        | .resyncReq _ _ _ => s.receiveFrame p n.toNat f .good 0
        | _ => s) = (accepted s p k 0 f).takeResyncReq src port := by
      have hdeliver : (accepted s p k 0 f).deliver (s.linkDie p) f = (accepted s p k 0 f).takeResyncReq src port := by
        unfold State.deliver
        rw [hf]
      rw [hf]
      refine (receiveFrame_accepted 0 hk hup hrx (by rw [hf]; exact fun h => by cases h) (by rw [hf]; rfl) hlsn ?_ ?_ ?_).trans hdeliver
      · intro q hq
        rw [hf] at hq
        cases hq
      · rw [hf]; exact hseen
      · rw [frameInc, hf]; exact hinc
    obtain ⟨hlistens, -, -, -, hnamed⟩ := accepted_spec hk p.isLt 0 f
    obtain ⟨hclosed, hbsn⟩ := takeResyncReq_closes (hnamed k2 src port ⟨hrx, hown, ⟨hpeer, hport⟩, hmem, honly⟩)
    exact ⟨_, next_of_answers hs hrec, hclosed, hbsn.trans ((congrArg State.bsn hlistens).trans rfl)⟩
  · intro s p n f src port lsn k hs hk hup hrx hf hlsn hseen hinc hold hresync
    obtain ⟨hlistens, -, -, hkept, -⟩ := accepted_spec hk p.isLt 0 f
    have hnode : (accepted s p k 0 f).node src = s.node src := node_of_flt src ((congrArg State.flt hlistens).trans rfl)
    have hrec : (match f.packet with
        | .resyncAck _ _ _ _ => s.receiveFrame p n.toNat f .good 0
        | _ => s) = (accepted s p k 0 f).takeResyncAck src port lsn := by
      have hdeliver : (accepted s p k 0 f).deliver (s.linkDie p) f = (accepted s p k 0 f).takeResyncAck src port lsn := by
        unfold State.deliver
        rw [hf]
        exact if_neg (by rw [hnode, hold]; exact Bool.false_ne_true)
      rw [hf]
      refine (receiveFrame_accepted 0 hk hup hrx (by rw [hf]; exact fun h => by cases h) (by rw [hf]; rfl) hlsn ?_ ?_ ?_).trans hdeliver
      · intro q hq
        rw [hf] at hq
        cases hq
      · rw [hf]; exact hseen
      · rw [frameInc, hf]; exact hinc
    exact ⟨_, next_of_answers hs hrec, takeResyncAck_resolves lsn (by rw [hkept]; exact hresync)⟩

end Sys2Proof.Proofs
end

section
/-! Lives of connections (spec/11_basin_links_and_topology.md, R418, R422, R441, R447; spec/14_security.md, R518 to R522). -/
namespace Sys2Proof.Proofs
open Sys2Proof Sys2Proof.Machine Sys2Proof.Laws

/-! ### Connections that fail -/

/-- Off a port in RETRAIN, a connection that fails closes. -/
theorem failConnNow_conn {s : State} {p k : Nat} (h : (s.port p).state ≠ .retrain) :
    ((s.failConnNow p k).conn k).isOpen = false ∧ ((s.failConnNow p k).conn k).rxOpen = false ∧ ((s.failConnNow p k).conn k).failed = true := by
  unfold State.failConnNow
  extract_lets peer s₁ live alloc s₂ own hops s₃
  have hs₂ : s₂.conn k = s₁.conn k := by
    unfold s₂
    split <;> rfl
  split
  · rw [if_neg (show ¬(s₁.port p).state = .retrain from h)]
    have hkept := resolve_conn s₂ k
    exact ⟨(congrArg Conn.isOpen hkept).trans rfl, (congrArg Conn.rxOpen hkept).trans rfl, (congrArg Conn.failed hkept).trans rfl⟩
  · have hs₃ : s₃.conn k = { s.conn k with failed := true, isOpen := false, rxOpen := false, resync := some s₁.now, nOwn := 0 } := by
      unfold s₃ s₁
      rw [modConn_conn_self, modConn_conn_self]
    have hkept := (connsKept_toEgress s₃ { packet := .resyncReq own peer p, vl := 7, sub := 0, dim := 0, hops, at_ := s₁.now, act := some 0 } false).kept k
    rw [hs₃] at hkept
    exact ⟨(congrArg Conn.isOpen hkept).trans rfl, (congrArg Conn.rxOpen hkept).trans rfl, (congrArg Conn.failed hkept).trans rfl⟩

theorem failConn_conn {s : State} {p k : Nat} (h : (s.port p).state ≠ .retrain) :
    ((s.failConn p k).conn k).isOpen = false ∧ ((s.failConn p k).conn k).rxOpen = false ∧ ((s.failConn p k).conn k).failed = true := by
  have hconn : (s.failConn p k).conn k = (s.failConnNow p k).conn k := by
    rw [State.conn, State.failConn, routesChanged_conns, State.conn]
  rw [hconn]
  exact failConnNow_conn h

theorem connFailed_open {s : State} {k : Nat} (h : s.connFailed k = true) : (s.conn k).isOpen = true := by
  unfold State.connFailed at h
  exact (Bool.and_eq_true_iff.mp h).1

/-- A failed ETH connection closes. -/
theorem connectionFail_eth {s : State} {p n : Nat} (hfailed : s.connFailed (s.connKey p n) = true) (hmode : s.portMode p ≠ 1) :
    s.connectionFail p n = s.failConn p (s.connKey p n) := by
  unfold State.connectionFail
  dsimp only
  rw [hfailed, if_neg hmode]
  exact (if_neg (by decide)).trans (if_pos (connFailed_open hfailed))

/-- A failed NATIVE connection takes its port to RETRAIN. -/
theorem connectionFail_native {s : State} {p n : Nat} (hfailed : s.connFailed (s.connKey p n) = true) (hmode : s.portMode p = 1) :
    Linked (s.retrainEntry p) (s.connectionFail p n) := by
  unfold State.connectionFail
  dsimp only
  rw [hfailed, if_pos hmode, if_neg (by decide)]
  split
  · exact linked_failConn ..
  · exact .refl _

/-! ### Fresh keys (R519, R522) -/

/-- An IDENT with a fresh N on an open connection. -/
theorem sendIdent_fresh {s : State} {k : Nat} (p : Nat) (h : (s.conn k).isOpen = true) : s.sendIdent p k true =
    (s.draw.2.modConn k fun c => { c with nOwn := s.draw.1 % 2 ^ 64 }).control p k 5 (s.draw.1 % 2 ^ 64 :: s.identFields p) := by
  unfold State.sendIdent
  dsimp only
  have hconn : (s.draw.2.modConn k fun c => { c with nOwn := s.draw.1 % 2 ^ 64 }).conn k = { s.conn k with nOwn := s.draw.1 % 2 ^ 64 } :=
    modConn_conn_self _ _ _
  rw [Bool.true_or, if_pos rfl, if_pos (by rw [hconn]; exact h), hconn]
  rfl

/-- A connection with nothing held asks for fresh keys. -/
theorem rekey_begun {s : State} {k : Nat} (p : Nat) (hopen : (s.conn k).isOpen = true) {t : State}
    (ht : t = (s.modConn k fun c => { c with rekeying := true }).sendIdent p k true := by rfl) :
    t.conn k = { s.conn k with rekeying := true, nOwn := Config.draw s.draws % 2 ^ 64 } ∧
      t.out = s.out ++ [.frame p 5 (Config.draw s.draws % 2 ^ 64 :: s.identFields p)] ∧ (∀ j, j ≠ k → t.conn j = s.conn j) ∧
      t = { s with draws := s.draws + 1, ctrs := t.ctrs, out := t.out, arbs := t.arbs, lnk := t.lnk } ∧
      t.lnk = { s.lnk with conns := t.lnk.conns, wire := t.lnk.wire, identCtr := s.lnk.identCtr + 1 } := by
  have hstill : ((s.modConn k fun c => { c with rekeying := true }).conn k).isOpen = true := by
    rw [modConn_conn_self]
    exact hopen
  rw [sendIdent_fresh p hstill] at ht
  generalize hu : ((s.modConn k fun c => { c with rekeying := true }).draw.2.modConn k fun c =>
    { c with nOwn := (s.modConn k fun c => { c with rekeying := true }).draw.1 % 2 ^ 64 }) = u at ht
  have hself : u.conn k = { s.conn k with rekeying := true, nOwn := Config.draw s.draws % 2 ^ 64 } := by
    rw [← hu, modConn_conn_self]
    exact congrArg (fun c : Conn => { c with nOwn := Config.draw s.draws % 2 ^ 64 }) (modConn_conn_self s k fun c => { c with rekeying := true })
  have hne : ∀ j, j ≠ k → u.conn j = s.conn j := fun j hj => by
    rw [← hu]
    exact (modConn_conn_ne _ _ hj).trans (modConn_conn_ne s _ hj)
  obtain ⟨m, rfl⟩ : ∃ m, u = { s with draws := s.draws + 1, lnk := { s.lnk with conns := m } } := ⟨u.lnk.conns, hu ▸ rfl⟩
  subst ht
  exact ⟨hself, rfl, hne, rfl, rfl⟩

/-- The connection keys depend on a node by its incarnation alone. -/
theorem linkKeys_of_inc {s t : State} {n : Nat} (hown : t.ownNode = s.ownNode) (hinc : (t.node n).inc = (s.node n).inc) (hlnk : t.lnk.inc = s.lnk.inc)
    (hz : t.linkZ n = s.linkZ n) (a b c d : Nat) : t.linkKeys n a b c d = s.linkKeys n a b c d := by
  have horder : ∀ x y, t.inOrder n x y = s.inOrder n x y := fun x y => by rw [State.inOrder, State.inOrder, hown]
  have hprk : t.linkPrk n = s.linkPrk n := by rw [State.linkPrk, State.linkPrk, hinc, hlnk, hz, horder]
  unfold State.linkKeys
  rw [horder, horder, hprk, hown]

/-- A connection under fresh keys. -/
theorem rekeyed_conn {s : State} {p k : Nat} {i : IdentFrame} (hmode : s.portMode p ≠ 1) (hheld : (s.conn k).held = []) :
    (s.rekeyed p k i).conn k = { s.conn k with
        nPeer := i.nonce, keyTx := (s.linkKeys i.node p i.port (s.conn k).nOwn i.nonce).1, keyRx := (s.linkKeys i.node p i.port (s.conn k).nOwn i.nonce).2,
        ctlTx := 0, ctlRx := none, nextLsn := 0, expect := 0, held := [], opened := s.now, rekeying := false, ackDue := none } ∧
      ∀ j, j ≠ k → (s.rekeyed p k i).conn j = s.conn j := by
  have hfigure : s.takeFigure p k i.blocks = s := if_pos hmode
  unfold State.rekeyed State.switchKeys
  dsimp only
  rw [hfigure, hheld]
  refine ⟨?_, fun j hj => ?_⟩
  · refine (modConn_conn_self ..).trans ?_
    rw [modConn_conn_self]
  · exact (modConn_conn_ne _ _ hj).trans (modConn_conn_ne _ _ hj)

/-! ### A connection that opens (R418, R428) -/

theorem records_creditCheck (s : State) (p k : Nat) (blocks : List Nat) (cls : Nat) : Records s (s.creditCheck p k blocks cls) := by
  unfold State.creditCheck
  dsimp only
  split
  · exact .refl s
  · exact (signals_bump ..).records.trans (records_ripple ..)

theorem foldl_creditCheck (p k : Nat) (blocks : List Nat) (l : List Nat) (s : State) :
    Records s (l.foldl (fun s cls => s.creditCheck p k blocks cls) s) := by
  induction l generalizing s with
  | nil => exact .refl s
  | cons c l ih => exact (records_creditCheck s p k blocks c).trans (ih _)

/-- A connection that opens, under the keys of its IDENT exchange. -/
def connOpened (s : State) (p k : Nat) (i : IdentFrame) : State :=
  (s.modConn k fun _ =>
    { peer := i.node, peerPort := i.port, isOpen := true, rxOpen := true, init := if s.portMode p = 1 then i.blocks else [], lastTx := s.now,
      lastRx := s.now, opened := s.now, nOwn := (s.conn k).nOwn, freedOut := (s.conn k).freedOut, reported := (s.conn k).reported }).switchKeys p k i

theorem connOpened_spec {s : State} {p : Nat} (k : Nat) (i : IdentFrame) (hmode : s.portMode p = 1) :
    ((connOpened s p k i).conn k).isOpen = true ∧ ((connOpened s p k i).conn k).expect = 0 ∧ ((connOpened s p k i).conn k).init = i.blocks ∧
      (connOpened s p k i).lnk.ports = s.lnk.ports := by
  unfold connOpened State.switchKeys
  rw [hmode]
  dsimp only
  rw [modConn_conn_self, modConn_conn_self]
  exact ⟨rfl, rfl, rfl, rfl⟩

/-- Frames still held of an earlier connection are sent first. -/
def sendHeld (l : List HeldFrame) (s : State) : State := l.foldl (fun s h => s.toEgress { h.frame with inPort := none } true) s

theorem sendHeld_kept (l : List HeldFrame) (s : State) : ConnsKept s (sendHeld l s) ∧ Linked s (sendHeld l s) := by
  unfold sendHeld
  refine ⟨ConnsKept.foldl (fun s h => ?_) l s, Linked.foldl (fun s h => ?_) l s⟩
  · exact connsKept_toEgress ..
  · exact linked_toEgress _ _ _ rfl

/-- The blocks of a NATIVE port are counted first. -/
theorem openConn_of_native {s : State} {p : Nat} (i : IdentFrame) (hmode : s.portMode p = 1) : ∃ u, Records s u ∧ s.openConn p i =
    (sendHeld (s.conn (s.connKey p i.node)).held.reverse (connOpened u p (s.connKey p i.node) i)).routesChanged s := by
  unfold State.openConn
  extract_lets k old before u opened switched sent
  have hrec : Records s u := by
    unfold u
    rw [if_pos hmode]
    exact foldl_creditCheck ..
  clear_value u
  exact ⟨u, hrec, rfl⟩

/-- A NATIVE connection opens: its ports stay as they are. -/
theorem openConn_native {s : State} {p : Nat} {i : IdentFrame} (hmode : s.portMode p = 1) :
    (s.openConn p i).lnk.ports = s.lnk.ports ∧ ((s.openConn p i).conn (s.connKey p i.node)).isOpen = true ∧
      ((s.openConn p i).conn (s.connKey p i.node)).expect = 0 ∧ ((s.openConn p i).conn (s.connKey p i.node)).init = i.blocks := by
  obtain ⟨u, hrec, hopened⟩ := openConn_of_native i hmode
  rw [hopened]
  have hnative : u.portMode p = 1 := (congrArg (fun x : State => x.portMode p) hrec).trans hmode
  have hports : u.lnk.ports = s.lnk.ports := (congrArg (fun x => x.lnk.ports) hrec).trans rfl
  obtain ⟨hopen, hexpect, hinit, hkept⟩ := connOpened_spec (s.connKey p i.node) i hnative
  obtain ⟨hconns, hlinked⟩ := sendHeld_kept (s.conn (s.connKey p i.node)).held.reverse (connOpened u p (s.connKey p i.node) i)
  generalize sendHeld _ (connOpened u p (s.connKey p i.node) i) = v at hconns hlinked ⊢
  have hconn : (v.routesChanged s).conn (s.connKey p i.node) = v.conn (s.connKey p i.node) := by rw [State.conn, routesChanged_conns, State.conn]
  have hone := hconns.kept (s.connKey p i.node)
  rw [hconn]
  exact ⟨(linked_routesChanged v s).ports.trans (hlinked.ports.trans (hkept.trans hports)), (congrArg Conn.isOpen hone).trans hopen,
    (congrArg Conn.expect hone).trans hexpect, (congrArg Conn.init hone).trans hinit⟩

/-- A port that comes UP fails no connection. -/
theorem portTo_up_conns (s : State) (p : Nat) : (s.portTo p .up).lnk.conns = s.lnk.conns := by
  unfold State.portTo
  extract_lets old s₁ s₂
  have h₂ : s₂ = s₁ := if_neg fun h => h.2.1 rfl
  rw [if_pos (.inr rfl), h₂, routesChanged_conns]
  rfl

/-- What an IDENT of a node already seen writes before it is judged. -/
def identSeen (s : State) (p : Nat) (i : IdentFrame) : State :=
  (s.modNode i.node fun x => { x with drainNotice := false }).modPort p fun x =>
    { x with peerValid := true, drained := false, peerPort := i.port, peerNode := i.node }

/-! ### The lives of connections -/

/-- The rekeying of an ETH connection. -/
theorem identIn_rekeyed {s : State} {p : Nat} {i : IdentFrame} (b : Bool) (hup : (s.port p).state = .up) (hauth : i.authentic = true)
    (hkey : s.keyReady i.node = true) (hmode : s.portMode p = 2) (hseen : (s.node i.node).seen = true) (hinc : newerInc i.inc (s.node i.node).inc = false)
    (hrekey : (s.conn (s.connKey p i.node)).rekeying = true) : s.identIn p i b = (identSeen s p i).rekeyed p (s.connKey p i.node) i := by
  unfold State.identIn
  extract_lets st native e k s₁ s₂
  have hs₁ : s₁ = s.modNode i.node fun x => { x with drainNotice := false } := sawIncarnation_of_seen hseen hinc true
  have hs₂ : s₂ = identSeen s p i := by
    unfold s₂
    rw [hs₁]
    rfl
  rw [if_neg (fun h => h.2 hup), if_neg (by rw [hauth]; decide)]
  rw [if_neg (by rw [hkey, show native = false from decide_eq_false (by rw [hmode]; decide), Bool.false_and, Bool.or_false]; decide), hs₂]
  exact if_pos hrekey

/-- A NATIVE connection whose training has ended. -/
theorem identIn_trained {s : State} {p : Nat} {i : IdentFrame} (htrain : (s.port p).state = .training) (hauth : i.authentic = true)
    (hkey : s.keyReady i.node = true) (hnode : i.node = (s.portEntry p).peerNode) (hport : i.port = (s.portEntry p).peerPort)
    (hseen : (s.node i.node).seen = true) (hinc : newerInc i.inc (s.node i.node).inc = false) (hrekey : (s.conn (s.connKey p i.node)).rekeying = false) :
    s.identIn p i true = (((identSeen s p i).openConn p i).portTo p .up).modPort p fun x => { x with trainFails := 0 } := by
  unfold State.identIn
  extract_lets st native e k s₁ s₂
  have hs₁ : s₁ = s.modNode i.node fun x => { x with drainNotice := false } := sawIncarnation_of_seen hseen hinc true
  have hs₂ : s₂ = identSeen s p i := by
    unfold s₂
    rw [hs₁]
    rfl
  rw [if_neg (fun h => h.1 htrain), if_neg (by rw [hauth]; decide)]
  rw [if_neg (by rw [hkey, decide_eq_false (fun h => h hnode), decide_eq_false (fun h => h hport), Bool.or_false, Bool.and_false]; decide), hs₂]
  refine (if_neg ?_).trans (if_pos htrain)
  rw [show (identSeen s p i).conn k = s.conn (s.connKey p i.node) from rfl, hrekey]
  exact Bool.false_ne_true

/-- Settles O40. -/
theorem livesOfConnections : Obligations.LivesOfConnections := by
  refine ⟨?_, ?_, ?_, ?_, ?_, ?_, ?_, ?_, ?_, ?_, ?_, ?_⟩
  · intro s p n k hs hk hfailed hmode hre
    subst hk
    exact ⟨_, next_of_answers hs (connectionFail_eth hfailed hmode), failConn_conn hre⟩
  · intro s p n hs hfailed hmode hup hmax
    obtain ⟨hstate, hsince, hctr, -⟩ := retrainEntry_spec p.isLt hup hmax
    have hlinked := connectionFail_native hfailed hmode
    exact ⟨_, next_of_answers hs rfl, by rw [hlinked.port p, hstate], by rw [hlinked.port p, hsince], (hlinked.retrains p).trans hctr⟩
  · intro s p n k d hs hk hresync htime
    subst hk
    have hout : s.resyncTimeout p n.toNat = s.resolve (s.connKey p n.toNat) := by
      unfold State.resyncTimeout
      dsimp only
      rw [hresync]
      exact if_pos htime
    have hkept := resolve_conn s (s.connKey p n.toNat)
    exact ⟨_, next_of_answers hs hout, (congrArg Conn.isOpen hkept).trans rfl, (congrArg Conn.resync hkept).trans rfl, (congrArg Conn.held hkept).trans rfl⟩
  · intro s p n k hs hk hmode hopen hre htime
    subst hk
    obtain ⟨hclosed, -, hfailed⟩ := failConn_conn (k := s.connKey p n.toNat) hre
    exact ⟨_, next_of_answers hs (if_pos ⟨hmode, hopen, htime⟩), hclosed, hfailed⟩
  · intro s p n k hs hk hopen hfailed hworn
    subst hk
    have hgo : ¬((!(s.conn (s.connKey p n.toNat)).isOpen) = true ∨ (s.conn (s.connKey p n.toNat)).failed = true ∨
        (!(s.conn (s.connKey p n.toNat)).worn s.now) = true) := by
      rw [hopen, hfailed, hworn]
      decide
    refine ⟨fun hheld => ?_, fun hheld => ?_⟩
    · have hsome : ¬(s.conn (s.connKey p n.toNat)).held.isEmpty = true := fun h => hheld (List.isEmpty_iff.mp h)
      exact ⟨_, next_of_answers hs ((if_neg hgo).trans (if_neg hsome)), modConn_conn_self _ _ _, fun j hj => modConn_conn_ne _ _ hj, rfl⟩
    · have hnone : (s.conn (s.connKey p n.toNat)).held.isEmpty = true := List.isEmpty_iff.mpr hheld
      obtain ⟨hconn, hout, hne, hframe, hlnk⟩ := rekey_begun p hopen
      exact ⟨_, next_of_answers hs ((if_neg hgo).trans (if_pos hnone)), hconn, hout, hne, hframe, hlnk⟩
  · intro s p n hworn
    have hrested : s.linkRekey p n.toNat = s := if_pos (.inr (.inr (by rw [hworn]; rfl)))
    exact congrArg _ (whileOn_of_fixed hrested)
  · intro s p i b k hs hk hup hauth hkey hmode hseen hinc hrekey hheld
    subst hk
    obtain ⟨hself, hne⟩ := rekeyed_conn (s := identSeen s p i) (i := i) (k := s.connKey p i.node) (p := p) (by
      rw [show (identSeen s p i).portMode p = s.portMode p from rfl, hmode]; decide) hheld
    have hsame : ((identSeen s p i).node i.node).inc = (s.node i.node).inc :=
      (congrArg NodeLoss.inc (modNode_node_self s i.node fun x => { x with drainNotice := false })).trans rfl
    have hkeys : ∀ a b c d, (identSeen s p i).linkKeys i.node a b c d = s.linkKeys i.node a b c d := linkKeys_of_inc rfl hsame rfl rfl
    refine ⟨_, next_of_answers hs (identIn_rekeyed b hup hauth hkey hmode hseen hinc hrekey), ?_, ?_, ?_, ?_, ?_, ?_, hne⟩
    · rw [hself]
    · rw [hself]
    · rw [hself]
    · rw [hself]; rfl
    · rw [hself, hkeys]; rfl
    · rw [hself]; rfl
  · intro s p i hs htrain hauth hkey hmode hnode hport hseen hinc hrekey
    obtain ⟨hports, hopen, hexpect, hinit⟩ := openConn_native (s := identSeen s p i) (i := i) (p := p) hmode
    have hconn : ((((identSeen s p i).openConn p i).portTo p .up).modPort p fun x => { x with trainFails := 0 }).conn (s.connKey p i.node) =
        ((identSeen s p i).openConn p i).conn ((identSeen s p i).connKey p i.node) :=
      congrArg (fun m => SMap.get ({} : Conn) m (s.connKey p i.node)) (portTo_up_conns ((identSeen s p i).openConn p i) p)
    have hvalid : (((identSeen s p i).openConn p i).port p).peerValid = true := by
      rw [State.port, hports]
      exact congrArg PortX.peerValid (modPort_port_self (s.modNode i.node fun x => { x with drainNotice := false })
        (fun x => { x with peerValid := true, drained := false, peerPort := i.port, peerNode := i.node }) p.isLt)
    refine ⟨_, next_of_answers hs (identIn_trained htrain hauth hkey hnode hport hseen hinc hrekey), ?_, ?_, ?_, ?_, ?_, ?_⟩
    · rw [modPort_port_self _ _ p.isLt, portTo_port_self _ .up p.isLt]
    · rw [modPort_port_self _ _ p.isLt]
    · rw [modPort_port_self _ _ p.isLt, portTo_port_self _ .up p.isLt]
      exact hvalid
    · rw [hconn]; exact hopen
    · rw [hconn]; exact hexpect
    · rw [hconn]; exact hinit
  · intro s p i b htrain hup
    have hrested : s.identIn p i b = s := if_pos ⟨htrain, hup⟩
    exact congrArg _ (whileOn_of_fixed hrested)
  · intro s p n a c hs hup hrx habove
    have hin := controlIn_taken (a := a.toNat) (c := c) rfl hup hrx habove
    obtain ⟨v, hv⟩ : ∃ v : State, s.drainNotice p n.toNat a.toNat ⟨c, true⟩ = v.portDown p ∧ (v.port p).drained = true := by
      unfold State.drainNotice
      rw [hin]
      refine ⟨_, rfl, ?_⟩
      exact congrArg PortX.drained (modPort_port_self _ _ p.isLt)
    refine ⟨_, next_of_answers hs hv.1, ?_, ?_⟩
    · rw [portDown_port_self _ p.isLt]
    · rw [portDown_port_self _ p.isLt]
      exact hv.2
  · intro s p vl hs hmode
    refine ⟨⟨_, next_of_answers hs (if_pos hmode), ?_, fun q hq => modPort_port_ne _ _ (fun h => hq (Fin.ext h)), rfl⟩,
      fun hnodup => ⟨_, next_of_answers hs (if_pos hmode), ?_, rfl⟩⟩
    · rw [modPort_port_self _ _ p.isLt]
      show vl.val ∈ if (s.port p).paused.contains vl.val then (s.port p).paused else (s.port p).paused ++ [vl.val]
      split
      · next h => exact List.contains_iff_mem.mp h
      · exact List.mem_append_right _ List.mem_cons_self
    · rw [modPort_port_self _ _ p.isLt]
      exact fun h => (hnodup.mem_erase_iff.mp h).1 rfl
  · intro s im n hs himage hlisted
    by_cases hready : s.lnk.zReady.contains n.toNat = true
    · refine ⟨s, next_of_answers hs ?_, List.contains_iff_mem.mp hready, rfl⟩
      dsimp only
      rw [himage]
      exact if_neg (by rw [hready, Bool.not_true, Bool.and_false]; decide)
    · refine ⟨{ s with lnk := { s.lnk with zReady := s.lnk.zReady ++ [n.toNat] } }, next_of_answers hs ?_, List.mem_append_right _ List.mem_cons_self, rfl⟩
      dsimp only
      rw [himage]
      refine if_pos ?_
      rw [List.contains_iff_mem.mpr hlisted, Bool.eq_false_iff.mpr hready]
      rfl

end Sys2Proof.Proofs
end

section
/-! Mailboxes and their negotiation (spec/14_security.md, R524, R525; spec/16_host_interface_and_reset.md, R572). -/
namespace Sys2Proof.Proofs
open Sys2Proof Sys2Proof.Machine Sys2Proof.Laws

/-! ### Requests at a mailbox -/

/-- A request that is not GET_PQ_SIG has arrived at a mailbox. -/
abbrev arrived (s : State) (box : Nat) : State := s.modBox box endSigning

theorem modBox_mbox_self (s : State) {box : Nat} (f : Mailbox → Mailbox) (h : box < 10) : (s.modBox box f).mbox box = f (s.mbox box) :=
  vget_vmod_self _ _ _ _ h

theorem modBox_mbox_ne (s : State) {box b : Nat} (f : Mailbox → Mailbox) (h : b ≠ box) : (s.modBox box f).mbox b = s.mbox b := vget_vmod_ne _ _ _ _ _ h

theorem next_atBox {s t : State} {box : Nat} {f : State → State} (hbox : s.boxThere box = true) (h : f (arrived s box) = t) :
    (Host.Outcome.next (s.atBox box f) : Host.Outcome State Fault Refusal) = .next t := congrArg _ ((atBox_of_boxThere f hbox).trans h)

theorem atBox_of_absent {s : State} {box : Nat} (f : State → State) (h : s.boxThere box = false) : s.atBox box f = s :=
  if_neg (Bool.eq_false_iff.mp h)

/-- Once the algorithms are negotiated, a request is carried out. -/
theorem next_negotiated {s t : State} {box : Fin 10} {f : State → State} (hbox : s.boxThere box = true) (halgs : (s.mbox box).algs = true)
    (h : f (arrived s box) = t) : (Host.Outcome.next (s.negotiated box f) : Host.Outcome State Fault Refusal) = .next t := by
  refine next_atBox hbox ((if_pos ?_).trans h)
  rw [modBox_mbox_self _ _ box.isLt]
  exact halgs

/-- Before, it is answered with an SPDM error. -/
theorem next_not_negotiated {s : State} {box : Fin 10} {f : State → State} (hbox : s.boxThere box = true) (halgs : (s.mbox box).algs = false) :
    (Host.Outcome.next (s.negotiated box f) : Host.Outcome State Fault Refusal) = .next ((arrived s box).spdmError box) := by
  refine next_atBox hbox (if_neg ?_)
  rw [modBox_mbox_self _ _ box.isLt]
  exact Bool.eq_false_iff.mp halgs

/-! ### The negotiation -/

/-- Settles O48. -/
theorem negotiationOfAMailbox : Obligations.NegotiationOfAMailbox := by
  refine ⟨?_, ?_, ?_, ?_, ?_, ?_⟩
  · intro s box hbox
    refine ⟨_, next_atBox hbox rfl, modBox_mbox_self _ _ box.isLt, fun b hb => ?_, rfl, rfl⟩
    exact (modBox_mbox_ne _ _ (Fin.val_ne_of_ne hb)).trans (modBox_mbox_ne _ _ (Fin.val_ne_of_ne hb))
  · intro s box hbox
    have hself := modBox_mbox_self s endSigning box.isLt
    cases hversion : (s.mbox box).version with
    | true =>
      refine ⟨_, next_atBox hbox (if_pos (by rw [hself]; exact hversion)), ?_, fun b hb => ?_, rfl, rfl⟩
      · refine (modBox_mbox_self _ _ box.isLt).trans ?_
        rw [hself, Bool.or_true]
        rfl
      · exact (modBox_mbox_ne _ _ (Fin.val_ne_of_ne hb)).trans (modBox_mbox_ne _ _ (Fin.val_ne_of_ne hb))
    | false =>
      refine ⟨_, next_atBox hbox (if_neg (by rw [hself]; exact Bool.eq_false_iff.mp hversion)), ?_, fun b hb => modBox_mbox_ne _ _ (Fin.val_ne_of_ne hb),
        rfl, rfl⟩
      rw [Bool.or_false]
      exact hself
  · intro s box offered hbox
    have hself := modBox_mbox_self s endSigning box.isLt
    cases hoffer : (s.mbox box).caps && offered with
    | true =>
      refine ⟨_, next_atBox hbox (if_pos (by rw [hself]; exact hoffer)), ?_, fun b hb => ?_, rfl, rfl⟩
      · refine (modBox_mbox_self _ _ box.isLt).trans ?_
        rw [hself, Bool.or_true]
        rfl
      · exact (modBox_mbox_ne _ _ (Fin.val_ne_of_ne hb)).trans (modBox_mbox_ne _ _ (Fin.val_ne_of_ne hb))
    | false =>
      refine ⟨_, next_atBox hbox (if_neg (by rw [hself]; exact Bool.eq_false_iff.mp hoffer)), ?_, fun b hb => modBox_mbox_ne _ _ (Fin.val_ne_of_ne hb),
        rfl, rfl⟩
      rw [Bool.or_false]
      exact hself
  · intro s box hbox
    cases halgs : (s.mbox box).algs with
    | true => exact ⟨_, next_negotiated hbox halgs rfl, rfl, rfl⟩
    | false => exact ⟨_, next_not_negotiated hbox halgs, rfl, rfl⟩
  · intro s box slot o n hbox
    cases halgs : (s.mbox box).algs with
    | true =>
      by_cases hslot : slot.val ≤ 1
      · refine ⟨_, next_negotiated hbox halgs (if_neg (Nat.not_lt.mpr hslot)), ?_, rfl⟩
        rw [if_pos ⟨rfl, hslot⟩]
        rfl
      · refine ⟨_, next_negotiated hbox halgs (if_pos (Nat.lt_of_not_le hslot)), ?_, rfl⟩
        rw [if_neg fun h => hslot h.2]
        rfl
    | false =>
      refine ⟨_, next_not_negotiated hbox halgs, ?_, rfl⟩
      rw [if_neg fun h => Bool.false_ne_true h.1]
      rfl
  · intro s hsplit i hi
    have habsent : s.boxThere 9 = false := by
      unfold State.boxThere
      rw [hsplit]
      exact Bool.and_false _
    have hbox : ∀ f, (Host.Outcome.next (s.atBox 9 f) : Host.Outcome State Fault Refusal) = .next s := fun f => congrArg _ (atBox_of_absent f habsent)
    simp only [List.mem_cons, List.not_mem_nil, or_false] at hi
    rcases hi with rfl | rfl | rfl | rfl | rfl | rfl | rfl | rfl | rfl | rfl
    iterate 8 next => exact hbox _
    · exact congrArg Host.Outcome.next (if_pos (show (!s.boxThere 9) = true by rw [habsent]; rfl))
    · exact hbox _

end Sys2Proof.Proofs
end

section
/-! Signed responses and secure sessions (spec/14_security.md, R524 to R530). -/
namespace Sys2Proof.Proofs
open Sys2Proof Sys2Proof.Machine Sys2Proof.Laws

/-! ### Signed responses -/

theorem signedReply_of_ready {s : State} (r : SignedReply) (hsec : s.wh.sec ≠ .scrapped) (hready : s.hif.aliasReady = true) :
    s.signedReply r = s.sendSigned r := (if_neg hsec).trans (if_pos hready)

theorem signedReply_of_waiting {s : State} (r : SignedReply) (hsec : s.wh.sec ≠ .scrapped) (hready : s.hif.aliasReady = false) :
    s.signedReply r = s.modWh fun w => { w with waiting := w.waiting ++ [r] } := (if_neg hsec).trans (if_neg (Bool.eq_false_iff.mp hready))

/-- What the signed responses sent write. -/
structure Signs (rs : List SignedReply) (s t : State) : Prop where
  frame : t = { s with wh := { s.wh with boxes := t.wh.boxes }, ctrs := t.ctrs, out := t.out }
  out : t.out = s.out ++ rs.map fun r => Out.spdm r.box r.code (r.data ++ s.aliasSign 0 r.transcript)

/-- The keys that sign do not depend on what is sent. -/
theorem aliasSign_of_frame {s t : State} (h : t = { s with wh := { s.wh with boxes := t.wh.boxes }, ctrs := t.ctrs, out := t.out }) (k : Nat) (m : List Byte) :
    t.aliasSign k m = s.aliasSign k m := (congrArg (fun x : State => x.aliasSign k m) h).trans rfl

theorem sendSigned_frame (s : State) (r : SignedReply) :
    s.sendSigned r = { s with wh := { s.wh with boxes := (s.sendSigned r).wh.boxes }, ctrs := (s.sendSigned r).ctrs, out := (s.sendSigned r).out } := rfl

theorem foldl_sendSigned (rs : List SignedReply) (s : State) : Signs rs s (rs.foldl (fun s r => s.sendSigned r) s) := by
  induction rs generalizing s with
  | nil => exact ⟨rfl, (List.append_nil _).symm⟩
  | cons r rs ih =>
    obtain ⟨kframe, kout⟩ := ih (s.sendSigned r)
    refine ⟨Eq.trans kframe rfl, kout.trans ?_⟩
    have hsign : ∀ m, (s.sendSigned r).aliasSign 0 m = s.aliasSign 0 m := aliasSign_of_frame (sendSigned_frame s r) 0
    simp only [hsign]
    exact List.append_assoc ..

/-- A signed response that is sent at once. -/
theorem sendSigned_spec {s : State} {r : SignedReply} (h : r.box < 10) {t : State} (ht : t = s.sendSigned r) :
    t.out = s.out ++ [Out.spdm r.box r.code (r.data ++ s.aliasSign 0 r.transcript)] ∧ (t.mbox r.box).signed = some r.transcript ∧
      t.ctr (blkWH + 0x60) = s.ctr (blkWH + 0x60) + 1 ∧ t = { s with wh := { s.wh with boxes := t.wh.boxes }, ctrs := t.ctrs, out := t.out } := by
  subst ht
  refine ⟨rfl, ?_, bump_ctr_self _ _ 1, rfl⟩
  exact congrArg Mailbox.signed (modBox_mbox_self s (fun m => { m with signed := some r.transcript }) h)

/-- Settles O49. -/
theorem signedResponses : Obligations.SignedResponses := by
  refine ⟨?_, ?_, ?_, ?_, ?_, ?_, ?_, ?_, ?_⟩
  · intro s box tr hbox halgs hsec hready
    obtain ⟨hout, hsigned, hctr, hframe⟩ := sendSigned_spec (s := arrived s box) (r := ⟨box, spdmChallengeAuth, [], tr⟩) box.isLt rfl
    exact ⟨_, next_negotiated hbox halgs (signedReply_of_ready _ hsec hready), hout, hsigned, hctr, Eq.trans hframe rfl⟩
  · intro s box tr hbox halgs hsec hready
    exact ⟨_, next_negotiated hbox halgs (signedReply_of_waiting _ hsec hready), rfl, rfl⟩
  · intro s box tr hbox h
    cases halgs : (s.mbox box).algs with
    | false => exact ⟨_, next_not_negotiated hbox halgs, rfl, rfl⟩
    | true => exact ⟨_, next_negotiated hbox halgs (if_pos (h.resolve_left fun hf => by rw [halgs] at hf; cases hf)), rfl, rfl⟩
  · intro s box i tr hbox halgs hsec hready
    have hsend := fun data => sendSigned_spec (s := arrived s box) (r := ⟨box, spdmMeasurements, data, tr⟩) box.isLt rfl
    have hi := i.isLt
    by_cases h0 : i.val = 0
    · obtain ⟨hout, -, -, hframe⟩ := hsend [8]
      refine ⟨_, next_negotiated hbox halgs ((if_pos h0).trans (signedReply_of_ready _ hsec hready)), fun _ => hout, fun h => by omega,
        fun h => ?_, fun h => by omega, Eq.trans hframe rfl⟩
      subst h
      exact absurd h0 (by decide)
    by_cases h8 : i.val ≤ 8
    · obtain ⟨hout, -, -, hframe⟩ := hsend ((arrived s box).measurementBlock i)
      refine ⟨_, next_negotiated hbox halgs (((if_neg h0).trans (if_pos h8)).trans (signedReply_of_ready _ hsec hready)), fun h => ?_, fun _ => hout,
        fun h => ?_, fun h => by omega, Eq.trans hframe rfl⟩
      · subst h
        exact absurd rfl h0
      · subst h
        exact absurd h8 (by decide)
    by_cases h255 : i.val = 255
    · obtain ⟨hout, -, -, hframe⟩ := hsend (arrived s box).measurementRecord
      refine ⟨_, next_negotiated hbox halgs (((if_neg h0).trans ((if_neg h8).trans (if_pos h255))).trans (signedReply_of_ready _ hsec hready)), fun h => ?_,
        fun h => by omega, fun _ => hout, fun h => by omega, Eq.trans hframe rfl⟩
      subst h
      exact absurd rfl h0
    · refine ⟨_, next_negotiated hbox halgs ((if_neg h0).trans ((if_neg h8).trans (if_neg h255))), fun h => ?_, fun h => by omega, fun h => ?_, fun _ => rfl, rfl⟩
      · subst h
        exact absurd rfl h0
      · subst h
        exact absurd rfl h255
  · intro s box hbox
    exact ⟨_, next_atBox hbox rfl, rfl, rfl⟩
  · intro s box tr hbox hsigned hsec
    have hsig : exec (.getPqSig box) s = .next (((arrived s box).whCount 0x60).vendorReply box .done ((arrived s box).aliasSign 1 tr)) := by
      show Host.Outcome.next _ = _
      rw [if_neg (by rw [hbox]; decide), hsigned]
      exact congrArg _ (if_neg hsec)
    refine ⟨_, hsig, rfl, ?_, bump_ctr_self _ _ 1, rfl⟩
    exact congrArg Mailbox.signed (modBox_mbox_self s endSigning box.isLt)
  · intro s box hbox hsigned
    show Host.Outcome.next _ = _
    rw [if_neg (by rw [hbox]; decide), hsigned]
    rfl
  · intro s hs hready htime
    obtain ⟨hframe, hout⟩ := foldl_sendSigned s.wh.waiting (({ s with hif := { s.hif with aliasReady := true } } : State).modWh fun w => { w with waiting := [] })
    have hgo : ¬(s.hif.aliasReady = true ∨ s.now < 150000000) := by
      rw [hready]
      exact fun h => h.elim Bool.false_ne_true (Nat.not_lt.mpr htime)
    exact ⟨_, next_of_answers hs (if_neg hgo), (congrArg (fun x => x.hif.aliasReady) hframe).trans rfl, (congrArg (fun x => x.wh.waiting) hframe).trans rfl,
      hout, Eq.trans hframe rfl⟩
  · intro s h
    refine congrArg _ (whileOn_of_fixed ?_)
    exact if_pos h

/-! ### Sessions -/

theorem setSession_self (s : State) (box k : Nat) (x : Option Session) : (s.setSession box k x).session box k = x := get_put_self _ _ _ _

theorem setSession_ne (s : State) (box k : Nat) (x : Option Session) {j : Nat} (h : j ≠ 16 * box + k) :
    SMap.get none (s.setSession box k x).wh.sessions j = SMap.get none s.wh.sessions j := get_put_ne _ _ _ _ _ _ h

/-- In an open session a request is carried out. -/
theorem next_inSession {s t : State} {box k : Nat} {x : Session} {f : State → Session → State} (hbox : s.boxThere box = true)
    (hx : s.session box k = some x) (hopen : x.opened = true) (h : f (arrived s box) x = t) :
    (Host.Outcome.next (s.inSession box k f) : Host.Outcome State Fault Refusal) = .next t := by
  refine next_atBox hbox ?_
  rw [modBox_session, hx]
  exact (if_pos hopen).trans h

/-- Outside, it is answered with an SPDM error. -/
theorem next_no_session {s : State} {box k : Nat} {f : State → Session → State} (hbox : s.boxThere box = true)
    (h : ∀ x, s.session box k = some x → x.opened = false) :
    (Host.Outcome.next (s.inSession box k f) : Host.Outcome State Fault Refusal) = .next ((arrived s box).spdmError box) := by
  refine next_atBox hbox ?_
  rw [modBox_session]
  cases hx : s.session box k with
  | none => rfl
  | some x => exact if_neg (Bool.eq_false_iff.mp (h x hx))

/-- A KEY_EXCHANGE on a mailbox whose sessions are all taken. -/
theorem keyExchange_of_full {s : State} {box : Fin 10} (ma : Bool) (tr : List Byte) (hbox : s.boxThere box = true)
    (hfull : ∀ k, k < 4 → (s.session box k).isSome) :
    exec (.keyExchange box ma tr) s = .next ((arrived s box).spdmError box) := by
  have hnone : ((List.range (sessionLimit box)).find? fun k => ((arrived s box).session box k).isNone) = none := by
    refine List.find?_eq_none.mpr fun k hk => ?_
    have hlimit : sessionLimit box ≤ 4 := by
      unfold sessionLimit
      split <;> omega
    have hsome := hfull k (Nat.lt_of_lt_of_le (List.mem_range.mp hk) hlimit)
    rw [modBox_session, Option.isNone_iff_eq_none]
    exact fun h => by rw [h] at hsome; cases hsome
  cases halgs : (s.mbox box).algs with
  | false => exact next_not_negotiated hbox halgs
  | true =>
    refine next_negotiated hbox halgs ?_
    rw [hnone]

/-- A KEY_EXCHANGE that finds a free session. -/
theorem keyExchange_of_free {s : State} {box : Fin 10} (ma : Bool) (tr : List Byte) {k : Nat} (hbox : s.boxThere box = true)
    (halgs : (s.mbox box).algs = true) (hsec : s.wh.sec ≠ .scrapped) (hready : s.hif.aliasReady = true)
    (hfind : ((List.range (if box = 0 then 4 else 1)).find? fun k => (s.session box k).isNone) = some k) :
    ∃ t, exec (.keyExchange box ma tr) s = .next t ∧ t.session box k = some { fn := box, mutualAuth := ma && decide (box = 0) } ∧
      (∀ j, j ≠ 16 * box.val + k → SMap.get none t.wh.sessions j = SMap.get none s.wh.sessions j) ∧
      t.out = s.out ++ [Out.spdm box 0x64 (BitVec.ofNat 8 k :: s.aliasSign 0 tr)] ∧
      t = { s with wh := { s.wh with boxes := t.wh.boxes, sessions := t.wh.sessions }, ctrs := t.ctrs, out := t.out } := by
  have hzero : box.val = 0 ↔ box = 0 := ⟨fun h => Fin.ext h, fun h => by rw [h]; rfl⟩
  have hlimit : (if box = 0 then 4 else 1) = sessionLimit box := if_congr hzero.symm rfl rfl
  rw [hlimit] at hfind
  have hex : exec (.keyExchange box ma tr) s = .next (((arrived s box).setSession box k (some { fn := box, mutualAuth := ma && decide (box = 0) })).sendSigned
      { box, code := spdmKeyExchangeRsp, data := [BitVec.ofNat 8 k], transcript := tr }) := by
    refine next_negotiated hbox halgs ?_
    rw [show ((List.range (sessionLimit box)).find? fun k => ((arrived s box).session box k).isNone) = some k from hfind]
    refine (if_neg hsec).trans ?_
    rw [decide_eq_decide.mpr hzero]
    exact signedReply_of_ready _ hsec hready
  refine ⟨_, hex, ?_⟩
  generalize hu : (arrived s box).setSession box k (some { fn := box, mutualAuth := ma && decide (box = 0) }) = u
  have hself : u.session box k = some { fn := box, mutualAuth := ma && decide (box = 0) } := hu ▸ setSession_self ..
  have hne : ∀ j, j ≠ 16 * box.val + k → SMap.get none u.wh.sessions j = SMap.get none s.wh.sessions j :=
    fun j hj => hu ▸ setSession_ne (arrived s box) _ _ _ hj
  obtain ⟨b, m, rfl⟩ : ∃ b m, u = { s with wh := { s.wh with boxes := b, sessions := m } } := ⟨u.wh.boxes, u.wh.sessions, hu ▸ rfl⟩
  exact ⟨hself, hne, rfl, rfl⟩

/-- FINISH, where the handshake has verified. -/
theorem finish_of_good {s : State} {box : Fin 10} {k : Fin 4} {x : Session} {rsa : Option (BitVec 384)} (hbox : s.boxThere box = true)
    (hx : s.session box k = some x) (hclosed : x.opened = false) (hauth : x.mutualAuth = false ∨ rsa.isSome) :
    exec (.finish box k true rsa) s = .next ((((arrived s box).setSession box k (some { x with
      opened := true, rsaMatch := x.mutualAuth && (s.image.any fun im => rsa.any fun d => decide (leBytes 48 d.toNat = im.brokerRsa)) })).whCount
        0x40).spdm box spdmFinishRsp []) := by
  refine next_atBox hbox ?_
  rw [modBox_session, hx]
  dsimp only
  have hgo : ¬(!true || (x.mutualAuth && rsa.isNone)) = true := by
    rcases hauth with h | h
    · rw [h, Bool.false_and]
      decide
    · rw [Option.isNone_eq_false_iff.mpr h, Bool.and_false]
      decide
  rw [if_neg (Bool.eq_false_iff.mp hclosed), if_neg hgo, show (arrived s box).image = s.image from rfl]
  cases s.image with
  | none => rfl
  | some im => cases rsa <;> rfl

/-- Settles O50. -/
theorem secureSessions : Obligations.SecureSessions := by
  refine ⟨?_, ?_, ?_, ?_, ?_, ?_⟩
  · intro s box ma tr k hbox halgs hsec hready hfind
    exact keyExchange_of_free ma tr hbox halgs hsec hready hfind
  · intro s box ma tr hbox hfull
    exact ⟨_, keyExchange_of_full ma tr hbox hfull, rfl, rfl⟩
  · intro s box k x rsa hbox hx hclosed hauth
    refine ⟨_, finish_of_good hbox hx hclosed hauth, ?_⟩
    have hself := setSession_self (arrived s box) box k (some { x with
      opened := true, rsaMatch := x.mutualAuth && (s.image.any fun im => rsa.any fun d => decide (leBytes 48 d.toNat = im.brokerRsa)) })
    generalize hu : (arrived s box).setSession box k _ = u at hself ⊢
    obtain ⟨b, m, rfl⟩ : ∃ b m, u = { s with wh := { s.wh with boxes := b, sessions := m } } := ⟨u.wh.boxes, u.wh.sessions, hu ▸ rfl⟩
    exact ⟨hself, rfl, bump_ctr_self s (blkWH + 0x40) 1, rfl⟩
  · intro s box k x rsa hbox hx hclosed
    have hfinish : exec (.finish box k false rsa) s = .next (((arrived s box).setSession box k none).spdmError box) := by
      refine next_atBox hbox ?_
      rw [modBox_session, hx]
      exact (if_neg (Bool.eq_false_iff.mp hclosed)).trans (if_pos rfl)
    exact ⟨_, hfinish, setSession_self (arrived s box) _ _ _, rfl, rfl⟩
  · intro s box k x hbox hx hopen
    exact ⟨⟨_, next_inSession hbox hx hopen rfl, setSession_self (arrived s box) _ _ _, rfl, rfl⟩, ⟨_, next_inSession hbox hx hopen rfl, rfl, rfl⟩,
      ⟨_, next_inSession hbox hx hopen rfl, setSession_self (arrived s box) _ _ _, rfl, rfl⟩⟩
  · intro s box k hbox hclosed i hi
    simp only [List.mem_cons, List.not_mem_nil, or_false] at hi
    refine ⟨(arrived s box).spdmError box, ?_, rfl, rfl⟩
    rcases hi with rfl | rfl | rfl | rfl | rfl | rfl
    all_goals exact next_no_session hbox hclosed

end Sys2Proof.Proofs
end

section
/-! The key broker, the lives of model keys, and IDE streams (spec/14_security.md, R523, R529 to R533). -/
namespace Sys2Proof.Proofs
open Sys2Proof Sys2Proof.Machine Sys2Proof.Laws

/-! ### Answers -/

/-- The last thing sent is the answer. -/
theorem vendorReply_last (s : State) (box : Nat) (st : Status) (data : List Byte) :
    (s.vendorReply box st data).out.getLast? = some (Out.spdm box 0x7E (BitVec.ofNat 8 st.code :: data)) := List.getLast?_concat

/-- Outside an open session of PF0 whose PQ_FINISH has verified, a command of the broker is refused. -/
theorem next_no_broker {s : State} {box k : Nat} {f : State → State} (hbox : s.boxThere box = true)
    (h : box ≠ 0 ∨ ∀ x, s.session box k = some x → x.opened = true → x.broker = false) :
    (Host.Outcome.next (s.broker box k f) : Host.Outcome State Fault Refusal) = .next ((arrived s box).vendorReply box .permission []) := by
  refine next_atBox hbox (if_neg fun hc => ?_)
  rw [modBox_session, Bool.and_eq_true, decide_eq_true_eq] at hc
  obtain ⟨h0, hany⟩ := hc
  obtain ⟨x, hx, hop⟩ := (Option.any_eq_true _ _).mp hany
  rw [Bool.and_eq_true] at hop
  rw [h.resolve_left (not_not_intro h0) x hx hop.1] at hop
  exact Bool.false_ne_true hop.2

theorem next_broker {s t : State} {k : Nat} {x : Session} {f : State → State} (hs : s.answers = true) (hx : s.session 0 k = some x)
    (hopen : x.opened = true) (hbroker : x.broker = true) (h : f (arrived s 0) = t) :
    (Host.Outcome.next (s.broker 0 k f) : Host.Outcome State Fault Refusal) = .next t := congrArg _ ((broker_of_session f hs hx hopen hbroker).trans h)

/-! ### PQ_FINISH (R530) -/

theorem exec_pqFinish {s : State} {k : Fin 4} {x : Session} (key tr sig : List Byte) (hs : s.answers = true) (hx : s.session 0 k = some x)
    (hopen : x.opened = true) (hrsa : x.rsaMatch = true) :
    exec (.pqFinish 0 k key tr sig) s = .next (
      if s.image.any (fun im => decide (sha384 key = im.brokerSlh)) && Config.sigVerifies key tr sig then
        ((arrived s 0).setSession 0 k (some { x with broker := true })).vendorReply 0 .done []
      else ((arrived s 0).whEvent 4).vendorReply 0 .sigFail []) := by
  show Host.Outcome.next _ = _
  rw [if_neg (by decide)]
  exact next_inSession (boxThere_pf0 hs) hx hopen (if_neg (by rw [hrsa]; decide))

/-! ### KEY_PUT (R529, R532) -/

/-- The key as it stands in its slot. -/
def keyOf (s : State) (cove lease : Nat) (key : List Byte) : ModelKey :=
  { key, cove, kcv := keyCheckValue key, put := s.now, lease := if lease = 0xFFFFFFFF then none else some (s.now + 100000000 * lease) }

/-- What putting a key leaves. -/
theorem putKey_spec (s : State) {slot : Nat} (cove lease : Nat) (key : List Byte) (h : slot < 32) {t : State} (ht : t = s.putKey slot cove lease key) :
    vget none t.wh.keys slot = some (keyOf s cove lease key) ∧ (∀ j, j ≠ slot → vget none t.wh.keys j = vget none s.wh.keys j) ∧
      t.ctr (blkWH + 0x48) = s.ctr (blkWH + 0x48) + 1 ∧ t.flagBit (blkWH + 4) 0 = true ∧
      t = { s with wh := { s.wh with keys := t.wh.keys }, ctrs := t.ctrs, flags := t.flags, hif := t.hif, out := t.out } := by
  generalize hu : (s.modWh fun w => { w with keys := vmod w.keys slot fun _ => some (keyOf s cove lease key) }) = u
  have hput : t = ((u.whCount 0x48).whEvent 0).raise (1 + cove) 4 := by rw [ht, ← hu]; rfl
  have hkeys : t.wh.keys = vmod s.wh.keys slot fun _ => some (keyOf s cove lease key) := by
    have hsig : Signals u t := hput ▸ ((signals_bump ..).trans (signals_event ..)).trans (signals_raise ..)
    rw [congrArg (fun x => x.wh.keys) hsig, ← hu]
    rfl
  have hctr : t.ctr (blkWH + 0x48) = s.ctr (blkWH + 0x48) + 1 := by
    rw [hput, raise_ctr _ _ _ _ (by decide), State.whEvent, event_ctr _ _ _ _ _ (by decide), State.whCount, bump_ctr_self, ← hu]
    rfl
  have hbit : t.flagBit (blkWH + 4) 0 = true := by
    rw [hput, State.flagBit, State.flag, raise_flags]
    exact event_bit _ _ _ _ (by decide)
  refine ⟨?_, fun j hj => ?_, hctr, hbit, ?_⟩
  · rw [hkeys]
    exact vget_vmod_self _ _ _ _ h
  · rw [hkeys]
    exact vget_vmod_ne _ _ _ _ _ hj
  · have hsig : Signals u t := hput ▸ ((signals_bump ..).trans (signals_event ..)).trans (signals_raise ..)
    subst hu
    exact Eq.trans hsig (by rw [hsig]; exact rfl)

/-- The operands of a KEY_PUT that are in range. -/
theorem keyPut_in_range {s : State} {sl c : Byte} {l : Word} {r : Bool} (hslot : sl.toNat ≤ 31) (hcove : (s.cove c.toNat).isSome) (hl : l ≠ 0)
    (hr : r = false) : ¬(31 < sl.toNat ∨ (s.cove c.toNat).isNone = true ∨ l = 0 ∨ r = true) := by
  rintro (h | h | h | h)
  · omega
  · exact absurd (Option.isNone_iff_eq_none.mp h) (Option.isSome_iff_ne_none.mp hcove)
  · exact hl h
  · rw [hr] at h
    cases h

/-- Settles O51. -/
theorem keyBroker : Obligations.KeyBroker := by
  refine ⟨?_, ?_, ?_, ?_, ?_, ?_⟩
  · intro s k x key tr sig im hs hx hopen hrsa himage hkey hver
    refine ⟨_, (exec_pqFinish key tr sig hs hx hopen hrsa).trans (congrArg _ (if_pos ?_)), setSession_self (arrived s 0) _ _ _, rfl, rfl⟩
    rw [himage, hver]
    exact (Bool.and_true _).trans (decide_eq_true hkey)
  · intro s k x key tr sig hs hx hopen hrsa hbad
    have hno : ¬(s.image.any (fun im => decide (sha384 key = im.brokerSlh)) && Config.sigVerifies key tr sig) = true := by
      cases himage : s.image with
      | none => exact Bool.false_ne_true
      | some im =>
        rw [Bool.and_eq_true]
        rintro ⟨hkey, hver⟩
        rw [hbad im himage (of_decide_eq_true hkey)] at hver
        exact Bool.false_ne_true hver
    have hsig := signals_whEvent (arrived s 0) 4
    refine ⟨_, (exec_pqFinish key tr sig hs hx hopen hrsa).trans (congrArg _ (if_neg hno)), ?_, ?_, vendorReply_last ..⟩
    · exact (congrArg (fun x => x.wh.sessions) hsig).trans rfl
    · exact event_bit _ _ _ _ (by decide)
  · intro s box k a b g hne hbox
    have hval : box.val ≠ 0 := fun h => hne (Fin.ext h)
    refine ⟨(arrived s box).spdmError box, ?_, rfl, rfl⟩
    show Host.Outcome.next _ = _
    rw [if_pos hval]
    exact next_atBox hbox rfl
  · intro s box k d sl c l r key all i hbox h j hj
    have hno : box.val ≠ 0 ∨ ∀ x, s.session box k = some x → x.opened = true → x.broker = false := h.imp_left fun hne hv => hne (Fin.ext hv)
    simp only [List.mem_cons, List.not_mem_nil, or_false] at hj
    refine ⟨(arrived s box).vendorReply box .permission [], ?_, rfl, rfl⟩
    rcases hj with rfl | rfl | rfl
    all_goals exact next_no_broker hbox hno
  · intro s k x sl c l r key hs hx hopen hbroker hsec hslot hcove hl hr hnone hstop
    have hput : exec (.keyPut 0 k sl c l r key) s = .next (((arrived s 0).putKey sl.toNat c.toNat l.toNat (leBytes 64 key.toNat)).vendorReply 0 .done
        (keyCheckValue (leBytes 64 key.toNat))) := by
      refine next_broker hs hx hopen hbroker ?_
      refine (if_neg fun h => h hsec).trans ((if_neg (keyPut_in_range hslot hcove hl hr)).trans ((if_neg ?_).trans (if_neg ?_)))
      · rw [show vget none (arrived s 0).wh.keys sl.toNat = none from hnone]
        exact Bool.false_ne_true
      · exact Bool.eq_false_iff.mp hstop
    obtain ⟨hkey, hkeys, hctr, hbit, hframe⟩ := putKey_spec (arrived s 0) c.toNat l.toNat (leBytes 64 key.toNat) (slot := sl.toNat) (by omega) rfl
    refine ⟨_, hput, hkey, fun j hj => hkeys j hj, hctr, hbit, vendorReply_last .., ?_⟩
    generalize (arrived s 0).putKey sl.toNat c.toNat l.toNat (leBytes 64 key.toNat) = u at hframe ⊢
    rw [hframe]
    rfl
  · intro s k x sl c l r key st hs hx hopen hbroker h
    have hput : ∃ x : Status, BitVec.ofNat 8 x.code = st ∧ exec (.keyPut 0 k sl c l r key) s = .next ((arrived s 0).vendorReply 0 x []) := by
      rcases h with ⟨rfl, hsec⟩ | ⟨rfl, hsec, hrange⟩ | ⟨rfl, hsec, hslot, hcove, hl, hr, hsome⟩ | ⟨rfl, hsec, hslot, hcove, hl, hr, hnone, hstop⟩
      · exact ⟨.permission, rfl, next_broker hs hx hopen hbroker (if_pos hsec)⟩
      · exact ⟨.range, rfl, next_broker hs hx hopen hbroker ((if_neg fun h => h hsec).trans (if_pos hrange))⟩
      · exact ⟨.busy, rfl, next_broker hs hx hopen hbroker
          ((if_neg fun h => h hsec).trans ((if_neg (keyPut_in_range hslot hcove hl hr)).trans (if_pos hsome)))⟩
      · refine ⟨.targetStopped, rfl, next_broker hs hx hopen hbroker
          ((if_neg fun h => h hsec).trans ((if_neg (keyPut_in_range hslot hcove hl hr)).trans ((if_neg ?_).trans (if_pos hstop))))⟩
        rw [show vget none (arrived s 0).wh.keys sl.toNat = none from hnone]
        exact Bool.false_ne_true
    obtain ⟨y, hcode, hput⟩ := hput
    refine ⟨_, hput, ?_, rfl⟩
    rw [← hcode]
    rfl

/-! ### Lives of model keys (R532, R533, R341) -/

/-- A request of the broker to erase keys is answered. -/
theorem keysLost_reply {s t : State} (h : KeysLost (arrived s 0) t) : t.vendorReply 0 .done [] =
    { s with wh := { s.wh with boxes := (t.vendorReply 0 .done []).wh.boxes, keys := (t.vendorReply 0 .done []).wh.keys },
             inl := { s.inl with ctx := (t.vendorReply 0 .done []).inl.ctx }, ctrs := (t.vendorReply 0 .done []).ctrs,
             flags := (t.vendorReply 0 .done []).flags, hif := (t.vendorReply 0 .done []).hif, out := (t.vendorReply 0 .done []).out } := by
  obtain ⟨hframe, -⟩ := h
  rw [hframe]
  rfl

theorem vget_map {α : Type} {n : Nat} (f : α → α) (d : α) (v : Vector α n) (i : Nat) (hd : f d = d) : vget d (v.map f) i = f (vget d v i) := by
  unfold vget
  split
  · rw [Vector.getElem_map]
  · exact hd.symm

/-- A load of the cove that decrypts under the key of the slot has it no longer (R341). -/
theorem slotEmptied_loadCtx {s : State} {cove i y : Nat} {q : LoadCtx} (h : s.loadCtx y = some q) :
    (slotEmptied s cove i).loadCtx y = some (if q.cove = cove ∧ (nth 0 q.desc 6).toNat = i then { q with key := none } else q) := by
  refine (vget_map _ none s.inl.ctx y rfl).trans ?_
  rw [show vget none s.inl.ctx y = some q from h]
  rfl

/-- Erasing a key is counted and told. -/
theorem eraseKey_told {s : State} {i : Nat} {k : ModelKey} (h : vget none s.wh.keys i = some k) :
    (s.eraseKey i).ctr (blkWH + 0x50) = s.ctr (blkWH + 0x50) + 1 ∧ (s.eraseKey i).flagBit (blkWH + 4) 1 = true := by
  unfold State.eraseKey
  rw [h]
  refine ⟨?_, ?_⟩
  · rw [raise_ctr _ _ _ _ (by decide), State.whEvent, event_ctr _ _ _ _ _ (by decide), State.whCount, bump_ctr_self]
    rfl
  · rw [State.flagBit, State.flag, raise_flags]
    exact event_bit _ _ _ _ (by decide)

/-- Settles O52. -/
theorem livesOfModelKeys : Obligations.LivesOfModelKeys := by
  refine ⟨?_, ?_, ?_, ?_, ?_⟩
  · intro s i k hs hk
    by_cases hdue : k.put + 5000 ≤ s.now
    · have hex : exec (.keyUsable i) s = .next (s.modWh fun w => { w with keys := vmod w.keys i fun _ => some { k with usable := true } }) := by
        refine next_of_answers hs ?_
        rw [hk]
        exact if_pos hdue
      refine ⟨_, hex, ?_, fun j hj => vget_vmod_ne _ _ _ _ _ (Fin.val_ne_of_ne hj), rfl⟩
      rw [decide_eq_true hdue, Bool.or_true]
      exact vget_vmod_self _ _ _ _ i.isLt
    · have hex : exec (.keyUsable i) s = .next s := by
        refine next_of_answers hs ?_
        rw [hk]
        exact if_neg hdue
      refine ⟨_, hex, ?_, fun _ _ => rfl, rfl⟩
      rw [decide_eq_false hdue, Bool.or_false]
      exact hk
  · intro s k x i hs hx hopen hbroker
    have hone := keysLost_eraseKey (arrived s 0) i
    have hall := keysLost_eraseKeys (arrived s 0) fun _ => true
    refine ⟨⟨_, next_broker hs hx hopen hbroker rfl, ?_, fun j hj => ?_, vendorReply_last .., fun m y q hm hq => ?_, keysLost_reply hone⟩,
      ⟨_, next_broker hs hx hopen hbroker rfl, fun j => eraseAllKeys_keys _ _, vendorReply_last .., keysLost_reply hall⟩⟩
    · exact (eraseKey_keys (arrived s 0) i i).trans (if_pos rfl)
    · exact (eraseKey_keys (arrived s 0) i j).trans (if_neg (Fin.val_ne_of_ne hj))
    · have hsig := signals_eraseKey (s := arrived s 0) (i := i) hm
      have hctx : ((arrived s 0).eraseKey i).inl = (slotEmptied (arrived s 0) m.cove i).inl := (congrArg State.inl hsig).trans rfl
      refine Eq.trans ?_ (slotEmptied_loadCtx (s := arrived s 0) (cove := m.cove) (i := i) hq)
      exact congrArg (fun v => vget none v y.val) (congrArg Inl.ctx hctx)
  · intro s v hs hv
    by_cases hall : v.getLsbD 8 = true
    · have hex : exec (.whKeyErase v) s = .next s.eraseAllKeys := next_of_answers hs ((if_neg (by rw [hv]; decide)).trans (if_pos hall))
      refine ⟨_, hex, fun j => ?_, (keysLost_eraseKeys s fun _ => true).frame⟩
      rw [if_pos (.inl hall)]
      exact eraseAllKeys_keys _ _
    · have hex : exec (.whKeyErase v) s = .next (s.eraseKey (v.toNat % 32)) := next_of_answers hs ((if_neg (by rw [hv]; decide)).trans (if_neg hall))
      refine ⟨_, hex, fun j => (eraseKey_keys s _ j).trans ?_, (keysLost_eraseKey s _).frame⟩
      exact if_congr (or_iff_right hall).symm rfl rfl
  · intro s v hv
    refine congrArg _ (whileOn_of_fixed ?_)
    exact if_pos (by rw [hv]; rfl)
  · intro s i k hs hk
    by_cases hend : k.lease.any (fun e => decide (e ≤ s.now)) = true
    · have hex : exec (.leaseEnd i) s = .next (s.eraseKey i) := by
        refine next_of_answers hs ?_
        rw [hk]
        exact if_pos hend
      refine ⟨_, hex, ?_, fun j hj => ?_, fun _ => eraseKey_told hk, (keysLost_eraseKey s i).frame⟩
      · rw [if_pos hend]
        exact (eraseKey_keys s i i).trans (if_pos rfl)
      · exact (eraseKey_keys s i j).trans (if_neg (Fin.val_ne_of_ne hj))
    · have hex : exec (.leaseEnd i) s = .next s := by
        refine next_of_answers hs ?_
        rw [hk]
        exact if_neg hend
      refine ⟨_, hex, ?_, fun _ _ => rfl, fun h => absurd h hend, rfl⟩
      rw [if_neg hend]
      exact hk

/-! ### IDE streams (R523) -/

/-- What the sending of pending vectors changes. -/
def Flushed (s t : State) : Prop := t = { s with ctrs := t.ctrs, hif := t.hif, out := t.out }

theorem Flushed.trans {s t u : State} (h : Flushed s t) (k : Flushed t u) : Flushed s u := Eq.trans k (by rw [h])

theorem Flushed.foldl {α : Type} {f : State → α → State} (hf : ∀ s x, Flushed s (f s x)) (l : List α) (s : State) : Flushed s (l.foldl f s) := by
  induction l generalizing s with
  | nil => rfl
  | cons x l ih => exact (hf s x).trans (ih _)

theorem flushed_flushVectors (s : State) (fn : Nat) : Flushed s (s.flushVectors fn) := by
  unfold State.flushVectors
  dsimp only
  split
  · rfl
  · exact .foldl (fun _ _ => by exact rfl) _ _

theorem mem_put_last {l : List Nat} {i j : Nat} : j ∈ (if i ∈ l then l else l ++ [i]) ↔ j ∈ l ∨ j = i := by
  split
  · next h => exact ⟨.inl, fun hj => hj.elim id fun he => he ▸ h⟩
  · rw [List.mem_append, List.mem_singleton]

/-- A stream whose keys are programmed becomes active. -/
def streamGoes (s : State) (i : Fin 10) : State := s.modWh fun w =>
  if i.val = 9 then { w with ideLink := true } else { w with ideSel := if i.val ∈ w.ideSel then w.ideSel else w.ideSel ++ [i.val] }

theorem streamGoes_spec (s : State) (i : Fin 10) : (streamGoes s i).wh.ideLink = (s.wh.ideLink || decide (i = 9)) ∧
    (∀ j, j ∈ (streamGoes s i).wh.ideSel ↔ j ∈ s.wh.ideSel ∨ j = i.val ∧ i ≠ 9) ∧
    streamGoes s i = { s with wh := { s.wh with ideLink := (streamGoes s i).wh.ideLink, ideSel := (streamGoes s i).wh.ideSel } } := by
  by_cases h : i = 9
  · subst h
    exact ⟨(Bool.or_true _).symm, fun j => ⟨.inl, fun hj => hj.elim id fun hn => absurd rfl hn.2⟩, rfl⟩
  · have hval : i.val ≠ 9 := fun hv => h (Fin.ext hv)
    have hsel : streamGoes s i = s.modWh fun w => { w with ideSel := if i.val ∈ w.ideSel then w.ideSel else w.ideSel ++ [i.val] } :=
      congrArg s.modWh (funext fun w => if_neg hval)
    rw [hsel, decide_eq_false h, Bool.or_false]
    exact ⟨rfl, fun j => mem_put_last.trans (or_congr_right ⟨fun hj => ⟨hj, h⟩, And.left⟩), rfl⟩

/-- A stream is stopped. -/
def streamStops (s : State) (i : Fin 10) : State := s.modWh fun w =>
  if i.val = 9 then { w with ideLink := false } else { w with ideSel := w.ideSel.filter fun f => decide (f ≠ i.val) }

theorem streamStops_spec (s : State) (i : Fin 10) : (streamStops s i).wh.ideLink = (s.wh.ideLink && decide (i ≠ 9)) ∧
    (∀ j, j ∈ (streamStops s i).wh.ideSel ↔ j ∈ s.wh.ideSel ∧ (j ≠ i.val ∨ i = 9)) ∧
    streamStops s i = { s with wh := { s.wh with ideLink := (streamStops s i).wh.ideLink, ideSel := (streamStops s i).wh.ideSel } } := by
  by_cases h : i = 9
  · subst h
    exact ⟨(Bool.and_false _).symm, fun j => ⟨fun hj => ⟨hj, .inr rfl⟩, And.left⟩, rfl⟩
  · have hval : i.val ≠ 9 := fun hv => h (Fin.ext hv)
    have hsel : streamStops s i = s.modWh fun w => { w with ideSel := w.ideSel.filter fun f => decide (f ≠ i.val) } :=
      congrArg s.modWh (funext fun w => if_neg hval)
    rw [hsel, decide_eq_true h, Bool.and_true]
    refine ⟨rfl, fun j => List.mem_filter.trans (and_congr_right fun _ => ?_), rfl⟩
    rw [decide_eq_true_eq]
    exact (or_iff_left h).symm

/-- A stream that goes is answered once the messages held back for want of it are sent. -/
theorem streamGoes_replied {s u t : State} {box : Nat} {i : Fin 10} (hu : Flushed (streamGoes (arrived s box) i) u) (ht : t = u.vendorReply box .done []) :
    t.wh.ideLink = (s.wh.ideLink || decide (i = 9)) ∧ (∀ j, j ∈ t.wh.ideSel ↔ j ∈ s.wh.ideSel ∨ j = i.val ∧ i ≠ 9) ∧
      t.out.getLast? = some (Out.spdm box 0x7E [0x00]) ∧
      t = { s with wh := { s.wh with boxes := t.wh.boxes, ideLink := t.wh.ideLink, ideSel := t.wh.ideSel }, ctrs := t.ctrs, hif := t.hif, out := t.out } := by
  obtain ⟨hlink, hsel, hframe⟩ := streamGoes_spec (arrived s box) i
  generalize streamGoes (arrived s box) i = v at *
  have hwh : u.wh = v.wh := (congrArg State.wh hu).trans rfl
  have ht' : t.wh = v.wh := by rw [ht]; exact hwh
  refine ⟨?_, fun j => ?_, by rw [ht]; exact vendorReply_last .., ?_⟩
  · rw [ht']
    exact hlink
  · rw [ht']
    exact hsel j
  · subst ht
    rw [hu, hframe]
    rfl

/-- Settles O54. -/
theorem ideStreams : Obligations.IdeStreams := by
  refine ⟨?_, ?_, ?_, ?_⟩
  · intro s box k x i hbox hx hopen
    exact ⟨_, next_inSession hbox hx hopen rfl, fun j => mem_put_last, rfl, rfl⟩
  · intro s box k x i hbox hx hopen hkey
    have hflush := Flushed.foldl flushed_flushVectors (List.range 9) (streamGoes (arrived s box) i)
    have hex : exec (.kSetGo box k i) s =
        .next (((List.range 9).foldl (fun s fn => s.flushVectors fn) (streamGoes (arrived s box) i)).vendorReply box .done []) :=
      next_inSession hbox hx hopen (if_neg (not_not_intro hkey))
    exact ⟨_, hex, streamGoes_replied hflush rfl⟩
  · intro s box k x i hbox hx hopen hkey
    exact ⟨_, next_inSession hbox hx hopen (if_pos hkey), rfl, rfl⟩
  · intro s box k x i hbox hx hopen
    obtain ⟨hlink, hsel, hframe⟩ := streamStops_spec (arrived s box) i
    refine ⟨(streamStops (arrived s box) i).vendorReply box .done [], next_inSession hbox hx hopen rfl, hlink, hsel, ?_, ?_⟩
    · rw [hframe]
      rfl
    · rw [hframe]
      rfl

end Sys2Proof.Proofs
end

section
/-! Owner commands (spec/14_security.md, R534 to R537, R539). -/
namespace Sys2Proof.Proofs
open Sys2Proof Sys2Proof.Machine Sys2Proof.Laws

/-! ### Debug levels and what ends ATTESTED -/

theorem keysLost_eraseAllKeys (s : State) : KeysLost s s.eraseAllKeys := keysLost_eraseKeys s fun _ => true

/-- What a new debug level changes. -/
structure Debugged (d : Nat) (s t : State) : Prop where
  frame : t = { s with rip := t.rip, ctrs := t.ctrs, flags := t.flags, hif := t.hif, out := t.out, debug := t.debug, gau := t.gau }
  debug : t.debug = d

theorem records_grainTo (s : State) (d : Nat) : Records s (s.grainTo d) := by
  unfold State.grainTo
  split
  · exact .refl s
  · exact records_ripShut s

theorem debugged_setDebug (s : State) (d : Nat) : Debugged d s (s.setDebug d) := by
  unfold State.setDebug
  split
  · next h => exact ⟨rfl, h⟩
  · have hrec := records_grainTo s d
    generalize s.grainTo d = u at hrec ⊢
    have hfine : ∃ g, (u.withDebug d).fineBatch = { u.withDebug d with gau := g } := by
      unfold State.fineBatch
      split
      · exact ⟨_, rfl⟩
      · exact ⟨u.gau, rfl⟩
    obtain ⟨g, hg⟩ := hfine
    rw [hg]
    have hsig := signals_whEvent ({ u.withDebug d with gau := g } : State) 3
    refine ⟨?_, (congrArg State.debug hsig).trans rfl⟩
    generalize State.whEvent _ 3 = t at hsig ⊢
    rw [hsig, hrec]
    rfl

/-- What the loss of ATTESTED changes (R533). -/
structure Detested (s t : State) : Prop where
  frame : t = { s with wh := { s.wh with sec := t.wh.sec, keys := t.wh.keys }, inl := { s.inl with ctx := t.inl.ctx }, ctrs := t.ctrs, flags := t.flags,
                       hif := t.hif, out := t.out }
  sec : t.wh.sec = if s.wh.sec = .attested then .sealed else s.wh.sec
  keys : s.wh.sec = .attested → ∀ j, vget none t.wh.keys j = none

theorem loseAttested_of_not {s : State} (h : s.wh.sec ≠ .attested) : s.loseAttested = s := if_neg h

theorem detested_loseAttested (s : State) : Detested s s.loseAttested := by
  by_cases h : s.wh.sec = .attested
  · unfold State.loseAttested
    rw [if_pos h]
    have hlost := (keysLost_eraseAllKeys (s.modWh fun w => { w with sec := .sealed })).frame
    have hkeys := eraseAllKeys_keys (s.modWh fun w => { w with sec := .sealed })
    generalize (s.modWh fun w => { w with sec := .sealed }).eraseAllKeys = u at hlost hkeys ⊢
    have hsig : Signals u ((u.whCount 0x58).whEvent 2) := (signals_bump ..).trans (signals_event ..)
    generalize (u.whCount 0x58).whEvent 2 = t at hsig ⊢
    have hwh : t.wh = u.wh := (congrArg State.wh hsig).trans rfl
    refine ⟨?_, ?_, fun _ j => ?_⟩
    · rw [hsig, hlost]
      rfl
    · rw [if_pos h, hwh, hlost]
      rfl
    · rw [hwh]
      exact hkeys j
  · rw [loseAttested_of_not h]
    exact ⟨rfl, (if_neg h).symm, fun ha => absurd ha h⟩

/-! ### Signed commands (R534) -/

theorem next_onPf0 {s t : State} {f : State → State} (hs : s.answers = true) (h : f (arrived s 0) = t) :
    (Host.Outcome.next (s.onPf0 0 f) : Host.Outcome State Fault Refusal) = .next t := next_atBox (boxThere_pf0 hs) h

theorem next_not_pf0 {s : State} {box : Nat} (f : State → State) (hne : box ≠ 0) (hbox : s.boxThere box = true) :
    (Host.Outcome.next (s.onPf0 box f) : Host.Outcome State Fault Refusal) = .next ((arrived s box).spdmError box) := next_atBox hbox (if_neg hne)

/-- The nonce is consumed. -/
def spent (s : State) : State := (arrived s 0).modWh fun w => { w with nonce := none }

theorem signedCommand_failed {s : State} {owner : Option (List Byte)} {code : Nat} {args : List Byte} {sig : OwnerSig} (f : State → State)
    (h : s.ownerSigned owner code args sig = false) :
    (arrived s 0).signedCommand 0 owner code args sig f = ((spent s).whEvent 4).vendorReply 0 .sigFail [] := if_neg (Bool.eq_false_iff.mp h)

theorem signedCommand_passed {s : State} {owner : Option (List Byte)} {code : Nat} {args : List Byte} {sig : OwnerSig} (f : State → State)
    (h : s.ownerSigned owner code args sig = true) : (arrived s 0).signedCommand 0 owner code args sig f = f (spent s) := if_pos h

/-- A signature that fails (R534). -/
theorem sigFail_spec (s : State) {t : State} (ht : t = ((spent s).whEvent 4).vendorReply 0 .sigFail []) :
    t.wh.nonce = none ∧ t.flagBit (blkWH + 4) 4 = true ∧ t.out.getLast? = some (Out.spdm 0 0x7E [0x04]) ∧
      t = { s with wh := { s.wh with boxes := t.wh.boxes, nonce := none }, ctrs := t.ctrs, flags := t.flags, hif := t.hif, out := t.out } := by
  have hsig := signals_whEvent (spent s) 4
  have hbit : ((spent s).whEvent 4).flagBit (blkWH + 4) 4 = true := event_bit _ _ _ _ (by decide)
  generalize (spent s).whEvent 4 = u at hsig hbit ht
  subst ht
  refine ⟨(congrArg (fun x => x.wh.nonce) hsig).trans rfl, hbit, vendorReply_last .., ?_⟩
  rw [hsig]
  rfl

/-- Every command that an owner signs, refused by its signature. -/
theorem ownerCommand_failed {s : State} {sig : OwnerSig} {o : BitVec 768} {l : Fin 4} (hs : s.answers = true) (hsec : s.wh.sec = .sealed)
    (h22 : s.ownerSigned s.ownerNow 0x22 (leBytes 96 o.toNat) sig = false) (h23 : s.ownerSigned s.ownerNow 0x23 [BitVec.ofNat 8 l] sig = false)
    (h24 : s.ownerSigned s.ownerNow 0x24 [BitVec.ofNat 8 l] sig = false) (h25 : s.ownerSigned s.ownerNow 0x25 [] sig = false) :
    ∀ j ∈ ([.transfer 0 o sig, .debugSet 0 l sig, .debugEnter 0 l sig, .scrap 0 sig] : List Instr),
      exec j s = .next (((spent s).whEvent 4).vendorReply 0 .sigFail []) := by
  have hnotFree : ¬(s.wh.sec = .factory ∨ s.wh.sec = .scrapped) := by rw [hsec]; decide
  have hnotFactory : ¬s.wh.sec = .factory := by rw [hsec]; decide
  intro j hj
  simp only [List.mem_cons, List.not_mem_nil, or_false] at hj
  rcases hj with rfl | rfl | rfl | rfl
  · exact next_onPf0 hs (signedCommand_failed _ h22)
  · exact next_onPf0 hs ((if_neg hnotFree).trans (signedCommand_failed _ h23))
  · exact next_onPf0 hs (signedCommand_failed _ h24)
  · exact next_onPf0 hs ((if_neg hnotFactory).trans (signedCommand_failed _ h25))

/-! ### CLAIM and TRANSFER (R535) -/

/-- CLAIM of a package in FACTORY. -/
theorem claim_spec (s : State) (d : List Byte) {t : State}
    (ht : t = (((spent s).modWh fun w => { w with owners := vmod w.owners 0 fun _ => some d, ownerSlot := 0, sec := .sealed }).setDebug 0).vendorReply 0 .done []) :
    t.wh.nonce = none ∧ t.wh.sec = .sealed ∧ t.debug = 0 ∧ t.ownerNow = some d ∧ t.wh.ownerSlot = 0 ∧
      t.out.getLast? = some (Out.spdm 0 0x7E [0x00]) ∧ t.mem = s.mem := by
  generalize hu : ((spent s).modWh fun w => { w with owners := vmod w.owners 0 fun _ => some d, ownerSlot := 0, sec := .sealed }) = u at ht
  obtain ⟨hframe, hdebug⟩ := debugged_setDebug u 0
  have hwh : t.wh = u.wh := by rw [ht]; exact (congrArg State.wh hframe).trans rfl
  refine ⟨?_, ?_, by rw [ht]; exact hdebug, ?_, ?_, by rw [ht]; exact vendorReply_last .., ?_⟩
  · rw [hwh, ← hu]; rfl
  · rw [hwh, ← hu]; rfl
  · rw [State.ownerNow, hwh, ← hu]
    exact vget_vmod_self _ _ 0 _ (by decide : 0 < 4)
  · rw [hwh, ← hu]; rfl
  · rw [ht]
    refine ((congrArg State.mem hframe).trans rfl).trans ?_
    rw [← hu]
    rfl

/-- The next owner's digests take the next slot. -/
def transferred (s : State) (d : List Byte) : State := (spent s).modWh fun w =>
  { w with owners := vmod (vmod w.owners s.wh.ownerSlot fun _ => none) (s.wh.ownerSlot + 1) fun _ => some d, ownerSlot := s.wh.ownerSlot + 1 }

/-- TRANSFER to a free slot. -/
theorem transfer_spec (s : State) (d : List Byte) (hslot : s.wh.ownerSlot < 3) (hsec : s.wh.sec = .sealed ∨ s.wh.sec = .attested) {t : State}
    (ht : t = (((transferred s d).loseAttested.eraseAllKeys).setDebug 0).vendorReply 0 .done []) :
    t.wh.nonce = none ∧ t.wh.ownerSlot = s.wh.ownerSlot + 1 ∧ t.ownerNow = some d ∧ vget none t.wh.owners s.wh.ownerSlot = none ∧
      t.wh.sec = .sealed ∧ t.debug = 0 ∧ (∀ j : Fin 32, vget none t.wh.keys j = none) ∧ t.out.getLast? = some (Out.spdm 0 0x7E [0x00]) ∧ t.mem = s.mem := by
  obtain ⟨hlose, hlosesec, -⟩ := detested_loseAttested (transferred s d)
  have hkeys := eraseAllKeys_keys (transferred s d).loseAttested
  have herase := (keysLost_eraseAllKeys (transferred s d).loseAttested).frame
  obtain ⟨hdebug, hlevel⟩ := debugged_setDebug (transferred s d).loseAttested.eraseAllKeys 0
  generalize hv : (transferred s d).loseAttested = v at *
  generalize hw : v.eraseAllKeys = w at *
  have hwh : t.wh = { v.wh with keys := w.wh.keys } := by
    rw [ht]
    exact ((congrArg State.wh hdebug).trans rfl).trans ((congrArg State.wh herase).trans rfl)
  have hvwh : v.wh = { (transferred s d).wh with sec := v.wh.sec, keys := v.wh.keys } := (congrArg State.wh hlose).trans rfl
  have howners : t.wh.owners = (transferred s d).wh.owners := by rw [hwh, hvwh]
  have hslot' : t.wh.ownerSlot = s.wh.ownerSlot + 1 := by rw [hwh, hvwh]; rfl
  refine ⟨by rw [hwh, hvwh]; rfl, hslot', ?_, ?_, ?_, by rw [ht]; exact hlevel, fun j => ?_, by rw [ht]; exact vendorReply_last .., ?_⟩
  · rw [State.ownerNow, howners, hslot']
    exact vget_vmod_self _ _ _ _ (by omega)
  · rw [howners]
    exact (vget_vmod_ne _ _ _ _ _ (by omega)).trans (vget_vmod_self _ _ _ _ (by omega))
  · rw [hwh]
    refine hlosesec.trans ?_
    rcases hsec with h | h
    · exact (if_neg (by rw [show (transferred s d).wh.sec = s.wh.sec from rfl, h]; decide)).trans h
    · exact if_pos h
  · rw [hwh]
    exact hkeys j
  · rw [ht]
    exact (((congrArg State.mem hdebug).trans rfl).trans ((congrArg State.mem herase).trans rfl)).trans ((congrArg State.mem hlose).trans rfl)

/-! ### Debug levels (R534, R536) -/

/-- DEBUG_SET past its signature, at a level that the security state allows. -/
theorem debugSet_of_allowed {s : State} {l : Nat} (h : s.wh.sec.allows l = true) :
    s.debugSet 0 l = (if s.debug = l then s else (s.setDebug l).loseAttested).vendorReply 0 .done [] := if_neg (by rw [h]; decide)

/-- Where the state is not ATTESTED, nothing but the level follows. -/
theorem debugSet_plain {s : State} {l : Nat} (h : s.wh.sec.allows l = true) (hsec : s.wh.sec ≠ .attested) {t : State} (ht : t = s.debugSet 0 l) :
    t.debug = l ∧ t.wh = s.wh ∧ t.mem = s.mem ∧ t.out.getLast? = some (Out.spdm 0 0x7E [0x00]) := by
  rw [debugSet_of_allowed h] at ht
  by_cases hl : s.debug = l
  · rw [if_pos hl] at ht
    subst ht
    exact ⟨hl, rfl, rfl, vendorReply_last ..⟩
  · obtain ⟨hframe, hdebug⟩ := debugged_setDebug s l
    have hwh : (s.setDebug l).wh = s.wh := (congrArg State.wh hframe).trans rfl
    rw [if_neg hl, loseAttested_of_not (by rw [hwh]; exact hsec)] at ht
    subst ht
    exact ⟨hdebug, hwh, (congrArg State.mem hframe).trans rfl, vendorReply_last ..⟩

/-- In ATTESTED, a new level ends it and erases every key. -/
theorem debugSet_attested {s : State} {l : Nat} (hsec : s.wh.sec = .attested) (hl : l < 2) (hne : s.debug ≠ l) {t : State} (ht : t = s.debugSet 0 l) :
    t.debug = l ∧ t.wh.sec = .sealed ∧ (∀ j, vget none t.wh.keys j = none) ∧ t.out.getLast? = some (Out.spdm 0 0x7E [0x00]) := by
  have hallow : s.wh.sec.allows l = true := by
    rw [hsec]
    exact decide_eq_true hl
  rw [debugSet_of_allowed hallow, if_neg hne] at ht
  obtain ⟨hframe, hdebug⟩ := debugged_setDebug s l
  have hstill : (s.setDebug l).wh.sec = .attested := (congrArg (fun x => x.wh.sec) hframe).trans hsec
  obtain ⟨hlose, hlosesec, hkeys⟩ := detested_loseAttested (s.setDebug l)
  subst ht
  exact ⟨((congrArg State.debug hlose).trans rfl).trans hdebug, hlosesec.trans (if_pos hstill), hkeys hstill, vendorReply_last ..⟩

/-- DEBUG_ENTER of a drained package (R536). -/
theorem debugEnter_spec (s : State) (l : Nat) {t : State}
    (ht : t = ((((spent s).eraseAllKeys.nextEpochs.zeroMeres).modWh fun w => { w with sec := .ownerDebug }).setDebug l).vendorReply 0 .done []) :
    t.wh.sec = .ownerDebug ∧ t.debug = l ∧ (∀ j, vget none t.wh.keys j = none) ∧ t.epochs = s.epochs.map (fun e => (e + 1) % 0x1000000000000) ∧
      t.out.getLast? = some (Out.spdm 0 0x7E [0x00]) := by
  have hkeys := eraseAllKeys_keys (spent s)
  have herase := (keysLost_eraseAllKeys (spent s)).frame
  generalize (spent s).eraseAllKeys = u at hkeys herase ht
  generalize hv : ((u.nextEpochs.zeroMeres).modWh fun w => { w with sec := .ownerDebug }) = v at ht
  obtain ⟨hframe, hdebug⟩ := debugged_setDebug v l
  have hwh : t.wh = v.wh := by rw [ht]; exact (congrArg State.wh hframe).trans rfl
  refine ⟨?_, by rw [ht]; exact hdebug, fun j => ?_, ?_, by rw [ht]; exact vendorReply_last ..⟩
  · rw [hwh, ← hv]; rfl
  · rw [hwh, ← hv]
    exact hkeys j
  · rw [ht]
    refine ((congrArg State.epochs hframe).trans rfl).trans ?_
    rw [← hv]
    exact congrArg (fun e : Vector Nat 8 => e.map fun e => (e + 1) % 0x1000000000000) ((congrArg State.epochs herase).trans rfl)

/-- SCRAP of a drained package (R537). -/
theorem scrap_spec (s : State) {t : State}
    (ht : t = (((spent s).eraseAllKeys).modWh fun w => { w with sec := .scrapped, destroyed := true, waiting := [] }).vendorReply 0 .done []) :
    t.wh.sec = .scrapped ∧ t.wh.destroyed = true ∧ (∀ j : Fin 32, vget none t.wh.keys j = none) ∧
      t.out.getLast? = some (Out.spdm 0 0x7E [0x00]) ∧ t.mem = s.mem := by
  have hkeys := eraseAllKeys_keys (spent s)
  have herase := (keysLost_eraseAllKeys (spent s)).frame
  generalize (spent s).eraseAllKeys = u at hkeys herase ht
  subst ht
  exact ⟨rfl, rfl, fun j => hkeys j, vendorReply_last .., (congrArg State.mem herase).trans rfl⟩

/-! ### The owner's commands -/

/-- Settles O53. -/
theorem ownerCommands : Obligations.OwnerCommands := by
  refine ⟨?_, ?_, ?_, ?_, ?_, ?_, ?_, ?_, ?_, ?_⟩
  · intro s hs
    exact ⟨_, leBytes 32 (Config.draw s.draws), next_onPf0 hs rfl, rfl, length_leBytes .., rfl, rfl⟩
  · intro s box sig o l hne hbox j hj
    have hval : box.val ≠ 0 := fun h => hne (Fin.ext h)
    simp only [List.mem_cons, List.not_mem_nil, or_false] at hj
    refine ⟨(arrived s box).spdmError box, ?_, rfl, rfl⟩
    rcases hj with rfl | rfl | rfl | rfl | rfl | rfl
    all_goals exact next_not_pf0 _ hval hbox
  · intro s sig o l hs hsec h22 h23 h24 h25 j hj
    exact ⟨_, ownerCommand_failed hs hsec h22 h23 h24 h25 j hj, sigFail_spec s rfl⟩
  · intro s sig hs hsigned
    by_cases hsec : s.wh.sec = .factory
    · obtain ⟨hnonce, hrest⟩ := claim_spec s (sha384 sig.rsaKey ++ sha384 sig.slhKey) rfl
      exact ⟨_, next_onPf0 hs ((signedCommand_passed _ hsigned).trans (if_neg (not_not_intro hsec))), hnonce, fun _ => hrest, fun h => absurd hsec h⟩
    · exact ⟨_, next_onPf0 hs ((signedCommand_passed _ hsigned).trans (if_pos hsec)), rfl, fun h => absurd h hsec, fun _ => ⟨rfl, rfl⟩⟩
  · intro s sig o hs hsigned hsec
    have hmay : ¬(s.wh.sec ≠ .sealed ∧ s.wh.sec ≠ .attested) := fun h => hsec.elim h.1 h.2
    by_cases hslot : 3 ≤ s.wh.ownerSlot
    · exact ⟨_, next_onPf0 hs ((signedCommand_passed _ hsigned).trans ((if_neg hmay).trans (if_pos hslot))), rfl, fun h => by omega, fun _ => ⟨rfl, rfl⟩⟩
    · obtain ⟨hnonce, hrest⟩ := transfer_spec s (leBytes 96 o.toNat) (Nat.lt_of_not_le hslot) hsec rfl
      exact ⟨_, next_onPf0 hs ((signedCommand_passed _ hsigned).trans ((if_neg hmay).trans (if_neg hslot))), hnonce, fun _ => hrest, fun h => absurd h hslot⟩
  · intro s sig l hs hsec
    have hallow : (arrived s 0).wh.sec.allows l = true := by rcases hsec with h | h <;> exact (congrArg (SecState.allows · l) h).trans rfl
    have hnot : (arrived s 0).wh.sec ≠ .attested := fun h => by rcases hsec with h' | h' <;> cases h'.symm.trans h
    obtain ⟨hdebug, hwh, hmem, hout⟩ := debugSet_plain hallow hnot rfl
    exact ⟨_, next_onPf0 hs (if_pos hsec), hdebug, (congrArg Wh.sec hwh).trans rfl, (congrArg Wh.nonce hwh).trans rfl, hout, hmem,
      (congrArg Wh.keys hwh).trans rfl⟩
  · intro s sig l hs hsigned hsec hl hne
    have hnotFree : ¬(s.wh.sec = .factory ∨ s.wh.sec = .scrapped) := by rw [hsec]; decide
    obtain ⟨hdebug, hsealed, hkeys, hout⟩ := debugSet_attested (s := spent s) hsec hl hne rfl
    exact ⟨_, next_onPf0 hs ((if_neg hnotFree).trans (signedCommand_passed _ hsigned)), hdebug, hsealed, fun j => hkeys j, hout⟩
  · intro s sig l hs hsigned hsec hdrained hl
    have hmay : ¬(s.wh.sec ≠ .sealed ∧ s.wh.sec ≠ .attested) := fun h => h.1 hsec
    have hwork : ¬(!(spent s).drained) = true := by
      rw [show (spent s).drained = s.drained from rfl, hdrained]
      decide
    obtain ⟨howner, hdebug, hkeys, hepochs, hout⟩ := debugEnter_spec s l rfl
    exact ⟨_, next_onPf0 hs ((signedCommand_passed _ hsigned).trans ((if_neg hmay).trans ((if_neg hwork).trans (if_neg (Nat.not_lt.mpr hl))))),
      howner, hdebug, fun j => hkeys j, hepochs, hout⟩
  · intro s sig l hs hsigned hsec hdrained
    have hmay : ¬(s.wh.sec ≠ .sealed ∧ s.wh.sec ≠ .attested) := fun h => h.1 hsec
    have hwork : (!(spent s).drained) = true := by
      rw [show (spent s).drained = s.drained from rfl, hdrained]
      rfl
    exact ⟨_, next_onPf0 hs ((signedCommand_passed _ hsigned).trans ((if_neg hmay).trans (if_pos hwork))), rfl, rfl⟩
  · intro s sig hs hsigned hsec hdrained
    have hnotFactory : ¬s.wh.sec = .factory := by rw [hsec]; decide
    have hnotDebug : ¬(spent s).wh.sec = .ownerDebug := by rw [show (spent s).wh.sec = s.wh.sec from rfl, hsec]; decide
    have hwork : ¬(!(spent s).drained) = true := by
      rw [show (spent s).drained = s.drained from rfl, hdrained]
      decide
    exact ⟨_, next_onPf0 hs ((if_neg hnotFactory).trans ((signedCommand_passed _ hsigned).trans ((if_neg hnotDebug).trans (if_neg hwork)))), scrap_spec s rfl⟩

end Sys2Proof.Proofs
end

section
/-! Commands of the JVK block: staging, the user default, firmware and the commit of an image (spec/15_jieverik_image.md, R557 to R570). -/
namespace Sys2Proof.Proofs
open Sys2Proof Sys2Proof.Machine Sys2Proof.Laws

/-! ### The end of a command -/

/-- The block after the end of its command. -/
def ended (j : Jvk) (st : Status) (sec : Nat) : Jvk :=
  { j with running := none, reading := none, commitWait := false, flashWait := false, resStatus := st.code, resSection := sec }

theorem nextReset_of_none {s : State} (h : s.hif.waitingResets = []) : s.nextReset = s := by
  unfold State.nextReset
  rw [h]

/-- Where no reset waits, an end writes the block and raises its vector. -/
theorem jvkEnd_spec {s : State} (f : Jvk → Jvk) (st : Status) (sec : Nat) (hwait : s.hif.waitingResets = []) {t : State}
    (ht : (s.modJvk f).jvkEnd st sec = t) :
    t.jvk = ended (f s.jvk) st sec ∧ t = { s with jvk := t.jvk, hif := t.hif, ctrs := t.ctrs, out := t.out } := by
  have hraise : t = (s.modJvk fun j => ended (f j) st sec).raise 0 1 := by
    have hhif : ((s.modJvk fun j => ended (f j) st sec).raise 0 1).hif.waitingResets = [] := by
      rw [raise_hif]
      exact hwait
    exact ht.symm.trans (nextReset_of_none hhif)
  have hsig : Signals (s.modJvk fun j => ended (f j) st sec) t := hraise ▸ signals_raise ..
  have hflags : t.flags = s.flags := by
    rw [hraise, raise_flags]
    rfl
  refine ⟨(congrArg State.jvk hsig).trans rfl, ?_⟩
  refine Eq.trans hsig ?_
  rw [hflags, hsig]
  rfl

/-! ### What a command meets first -/

theorem jvkFree_iff (s : State) : s.jvkFree = true ↔
    s.pstate ≠ 4 ∧ s.hif.heldInReset = false ∧ s.jvk.running = none ∧ s.hif.defaultDone = true ∧ s.hif.waitingResets = [] := by
  unfold State.jvkFree
  simp [and_assoc]

theorem jvkCmd_of_answering {s : State} (f : State → State) (hp : s.pstate ≠ 4) (hheld : s.hif.heldInReset = false) :
    s.jvkCmd f = if s.jvk.running.isSome then s.modJvk fun j => { j with resStatus := Status.busy.code, resSection := 0 }
      else if !s.hif.defaultDone then s.jvkEnd .busy 0 else f s := if_neg fun h => h.elim hp fun h => by simp [hheld] at h

theorem jvkCmd_of_free {s : State} (f : State → State) (h : s.jvkFree = true) : s.jvkCmd f = f s := by
  obtain ⟨hp, hheld, hrun, hdone, -⟩ := (jvkFree_iff s).mp h
  rw [jvkCmd_of_answering f hp hheld, hrun, hdone]
  rfl

theorem next_of_free {s t : State} {f : State → State} (hfree : s.jvkFree = true) (h : f s = t) :
    (Host.Outcome.next (s.jvkCmd f) : Host.Outcome State Fault Refusal) = .next t := congrArg _ ((jvkCmd_of_free f hfree).trans h)

theorem waiting_of_free {s : State} (h : s.jvkFree = true) : s.hif.waitingResets = [] := ((jvkFree_iff s).mp h).2.2.2.2

/-- The commands of the block, all of which meet the same checks first. -/
theorem exec_of_jvkCmd {s t : State} (h : ∀ f, s.jvkCmd f = t) :
    ∀ i ∈ ([.stage, .commit, .discard, .saveDefault, .eraseDefault, .fwStage true 0, .fwInstall, .jvkReservedCode 0] : List Instr), exec i s = .next t := by
  have hnext : ∀ f, (Host.Outcome.next (s.jvkCmd f) : Host.Outcome State Fault Refusal) = .next t := fun f => congrArg _ (h f)
  simp only [List.forall_mem_cons]
  exact ⟨hnext _, hnext _, hnext _, hnext _, hnext _, hnext _, hnext _, (congrArg _ (if_neg (by decide))).trans (hnext _),
    fun _ hi => absurd hi List.not_mem_nil⟩

/-! ### Staging, the user default and firmware -/

/-- R557: the end of STAGE follows the verdict on what it has read. -/
theorem jvkDone_stage {s : State} {raw : List Byte} (hrun : s.jvk.running = some .stage) (hread : s.jvk.reading = some raw)
    (hwait : s.hif.waitingResets = []) {t : State} (ht : s.jvkDone = t) : t.jvk.running = none ∧ t.image = s.image ∧
      (s.stageRefusal (readImage raw) raw.length = none → t.jvk.staged = some (readImage raw) ∧ t.jvk.resStatus = 0) ∧
      (∀ st i, s.stageRefusal (readImage raw) raw.length = some (st, i) → t.jvk.staged = s.jvk.staged ∧ t.jvk.resStatus = st.code ∧ t.jvk.resSection = i) ∧
      t = { s with jvk := t.jvk, hif := t.hif, ctrs := t.ctrs, out := t.out } := by
  unfold State.jvkDone at ht
  rw [hrun] at ht
  dsimp only at ht
  rw [hread] at ht
  dsimp only at ht
  cases h : s.stageRefusal (readImage raw) raw.length with
  | none =>
    rw [h] at ht
    obtain ⟨hj, hframe⟩ := jvkEnd_spec (fun j => { j with staged := some (readImage raw) }) .done 0 hwait ht
    exact ⟨(congrArg Jvk.running hj).trans rfl, (congrArg Jvk.inForce hj).trans rfl, fun _ => ⟨(congrArg Jvk.staged hj).trans rfl, (congrArg Jvk.resStatus hj).trans rfl⟩, fun _ _ => nofun, hframe⟩
  | some x =>
    obtain ⟨st, i⟩ := x
    rw [h] at ht
    obtain ⟨hj, hframe⟩ := jvkEnd_spec id st i hwait ht
    refine ⟨(congrArg Jvk.running hj).trans rfl, (congrArg Jvk.inForce hj).trans rfl, nofun, fun st' i' h' => ?_, hframe⟩
    obtain ⟨rfl, rfl⟩ := Prod.mk.inj (Option.some.inj h')
    exact ⟨(congrArg Jvk.staged hj).trans rfl, (congrArg Jvk.resStatus hj).trans rfl, (congrArg Jvk.resSection hj).trans rfl⟩

theorem jvkDone_saveDefault {s : State} (hrun : s.jvk.running = some .saveDefault) :
    s.jvkDone = (s.modJvk fun j => { j with flashDefault := j.staged.map Image.raw }).jvkEnd .done 0 := by
  unfold State.jvkDone
  rw [hrun]

theorem jvkDone_fwInstall {s : State} (hrun : s.jvk.running = some .fwInstall) :
    s.jvkDone = (s.modJvk fun j => { j with flashFw := j.fwStagedRaw, flashFwValid := true }).jvkEnd .done 0 := by
  unfold State.jvkDone
  rw [hrun]

/-- Settles O55: every command is its own body where the block is free; an end writes RESULT and raises the vector. -/
theorem stagingAndDefaults : Obligations.StagingAndDefaults := by
  unfold Obligations.StagingAndDefaults
  refine ⟨fun s hfree => next_of_free hfree rfl, fun s hfree => ?_, fun s hfree hstaged => ?_, fun s hfree => ?_, fun s v n hfree => ?_,
    fun s hfree hdrained hstaged => ?_, fun s hfree hdrained => ?_, fun s c hfree hc => ?_, fun s hp hheld hrun => ?_,
    fun s hp hheld hrun hdone hwait => ?_, fun s raw hs hrun hread hwait => ⟨_, next_of_answers hs rfl, jvkDone_stage hrun hread hwait rfl⟩,
    fun s hs hrun hwait => ?_, fun s hs hrun hwait => ?_⟩
  · obtain ⟨hj, hframe⟩ := jvkEnd_spec (fun j => { j with staged := none }) .done 0 (waiting_of_free hfree) rfl
    exact ⟨_, next_of_free hfree rfl, (congrArg Jvk.staged hj).trans rfl, (congrArg Jvk.resStatus hj).trans rfl, (congrArg Jvk.running hj).trans rfl, (congrArg Jvk.inForce hj).trans rfl, hframe⟩
  · refine next_of_free hfree (if_neg ?_)
    cases h : s.jvk.staged with
    | none => simp [h] at hstaged
    | some im => exact Bool.false_ne_true
  · obtain ⟨hj, hframe⟩ := jvkEnd_spec (fun j => { j with flashDefault := none }) .done 0 (waiting_of_free hfree) rfl
    exact ⟨_, next_of_free hfree rfl, (congrArg Jvk.flashDefault hj).trans rfl, (congrArg Jvk.resStatus hj).trans rfl, (congrArg Jvk.running hj).trans rfl, (congrArg Jvk.inForce hj).trans rfl,
      hframe⟩
  · refine ⟨_, next_of_free hfree rfl, rfl, rfl, ?_, rfl⟩
    cases v
    · rfl
    · by_cases h : n < s.fuses.fwFloor
      · exact (congrArg Status.code (if_pos h)).trans (if_pos h).symm
      · exact (congrArg Status.code (if_neg h)).trans (if_neg h).symm
  · refine next_of_free hfree ?_
    rw [hdrained, hstaged]
    rfl
  · obtain ⟨hj, hframe⟩ := jvkEnd_spec id .busy 0 (waiting_of_free hfree) rfl
    refine ⟨_, next_of_free hfree (if_pos ?_), (congrArg Jvk.resStatus hj).trans rfl, (congrArg Jvk.running hj).trans rfl, (congrArg Jvk.flashFwValid hj).trans rfl, hframe⟩
    rw [hdrained]
    rfl
  · obtain ⟨hj, hframe⟩ := jvkEnd_spec id .range 0 (waiting_of_free hfree) rfl
    exact ⟨_, (congrArg _ (if_neg (by omega))).trans (next_of_free hfree rfl), (congrArg Jvk.resStatus hj).trans rfl, (congrArg Jvk.running hj).trans rfl, (congrArg Jvk.staged hj).trans rfl,
      (congrArg Jvk.inForce hj).trans rfl, hframe⟩
  · exact exec_of_jvkCmd fun f => (jvkCmd_of_answering f hp hheld).trans (if_pos hrun)
  · intro i hi
    obtain ⟨hj, hframe⟩ := jvkEnd_spec id .busy 0 hwait rfl
    refine ⟨_, exec_of_jvkCmd (fun f => (jvkCmd_of_answering f hp hheld).trans ?_) i hi, (congrArg Jvk.resStatus hj).trans rfl, (congrArg Jvk.staged hj).trans rfl,
      (congrArg Jvk.flashDefault hj).trans rfl, hframe⟩
    rw [hrun, hdone]
    rfl
  · obtain ⟨hj, hframe⟩ := jvkEnd_spec (fun j => { j with flashDefault := j.staged.map Image.raw }) .done 0 hwait rfl
    exact ⟨_, next_of_answers hs (jvkDone_saveDefault hrun), (congrArg Jvk.running hj).trans rfl, (congrArg Jvk.flashDefault hj).trans rfl, (congrArg Jvk.resStatus hj).trans rfl, hframe⟩
  · obtain ⟨hj, hframe⟩ := jvkEnd_spec (fun j => { j with flashFw := j.fwStagedRaw, flashFwValid := true }) .done 0 hwait rfl
    exact ⟨_, next_of_answers hs (jvkDone_fwInstall hrun), (congrArg Jvk.running hj).trans rfl, (congrArg Jvk.flashFw hj).trans rfl, (congrArg Jvk.flashFwValid hj).trans rfl,
      (congrArg Jvk.fwRunning hj).trans rfl, hframe⟩

end Sys2Proof.Proofs
end

section
/-! The commit of an image (spec/15_jieverik_image.md, R558 to R566). -/
namespace Sys2Proof.Proofs
open Sys2Proof Sys2Proof.Machine Sys2Proof.Laws

/-! ### What a commit leaves to the block itself -/

/-- The JVK block and the position straps stay as they are, and of the host interface all but the MSI-X state. -/
structure Steady (s t : State) : Prop where
  jvk : t.jvk = s.jvk
  pos : t.lnk.pos = s.lnk.pos
  hif : t.hif = { s.hif with msix := t.hif.msix }

theorem Steady.refl (s : State) : Steady s s := ⟨rfl, rfl, rfl⟩

theorem Steady.trans {s t u : State} (h : Steady s t) (k : Steady t u) : Steady s u :=
  ⟨k.jvk.trans h.jvk, k.pos.trans h.pos, k.hif.trans (by rw [h.hif])⟩

theorem Steady.foldl {α : Type} {f : State → α → State} (hf : ∀ s x, Steady s (f s x)) (l : List α) (s : State) : Steady s (l.foldl f s) := by
  induction l generalizing s with
  | nil => exact .refl s
  | cons x l ih => exact (hf s x).trans (ih _)

theorem Steady.booted {s t : State} (h : Steady s t) : t.hif.defaultDone = s.hif.defaultDone := (congrArg Hif.defaultDone h.hif).trans rfl

theorem steady_raise (s : State) (fn vec : Nat) : Steady s (s.raise fn vec) := by
  have hsig : Signals s (s.raise fn vec) := signals_raise ..
  exact ⟨(congrArg State.jvk hsig).trans rfl, (congrArg (fun x => x.lnk.pos) hsig).trans rfl, raise_hif s fn vec⟩

theorem steady_event (s : State) (off i vec : Nat) : Steady s (s.event off i vec) :=
  Steady.trans (t := s.setFlags off (setBit32 (s.flag off) i)) ⟨rfl, rfl, rfl⟩ (steady_raise ..)

theorem steady_eraseKey (s : State) (i : Nat) : Steady s (s.eraseKey i) := by
  cases h : vget none s.wh.keys i with
  | none => exact (eraseKey_of_empty h).symm ▸ .refl s
  | some k =>
    unfold State.eraseKey
    rw [h]
    exact Steady.trans (t := (slotEmptied s k.cove i).whCount 0x50) ⟨rfl, rfl, rfl⟩ ((steady_event ..).trans (steady_raise ..))

theorem steady_eraseKeys (s : State) (p : ModelKey → Bool) : Steady s (s.eraseKeys p) := Steady.foldl (fun s i => steady_eraseKey s i) _ s

theorem steady_loseAttested (s : State) : Steady s s.loseAttested := by
  unfold State.loseAttested
  split
  · refine Steady.trans (t := (s.modWh fun w => { w with sec := .sealed }).eraseAllKeys) ?_ ?_
    · exact Steady.trans (t := s.modWh fun w => { w with sec := .sealed }) ⟨rfl, rfl, rfl⟩ (steady_eraseKeys _ fun _ => true)
    · exact Steady.trans (t := (s.modWh fun w => { w with sec := .sealed }).eraseAllKeys.whCount 0x58) ⟨rfl, rfl, rfl⟩ (steady_event ..)
  · exact .refl s

theorem steady_commitCove (s : State) (im : Image) (c : Nat) : Steady s (s.commitCove im c) := by
  unfold State.commitCove
  split
  · refine Steady.trans (t := (s.nextEpoch c).eraseCoveKeys c) ?_ ⟨rfl, rfl, rfl⟩
    exact Steady.trans (t := s.nextEpoch c) ⟨rfl, rfl, rfl⟩ (steady_eraseKeys ..)
  · exact .refl s

/-! ### The ports of a commit -/

/-- What the ports and their connections never touch. -/
structure Ported (s t : State) : Prop where
  frame : t = { s with lnk := t.lnk, ctrs := t.ctrs, flags := t.flags, hif := t.hif, out := t.out, arbs := t.arbs, draws := t.draws, flt := t.flt }
  seat : t.lnk.pos = s.lnk.pos ∧ t.hif = { s.hif with msix := t.hif.msix }

theorem Ported.refl (s : State) : Ported s s := ⟨rfl, rfl, rfl⟩

theorem Ported.trans {s t u : State} (h : Ported s t) (k : Ported t u) : Ported s u :=
  ⟨Eq.trans k.frame (by rw [h.frame]), k.seat.1.trans h.seat.1, k.seat.2.trans (by rw [h.seat.2])⟩

theorem Ported.foldl {α : Type} {f : State → α → State} (hf : ∀ s x, Ported s (f s x)) (l : List α) (s : State) : Ported s (l.foldl f s) := by
  induction l generalizing s with
  | nil => exact .refl s
  | cons x l ih => exact (hf s x).trans (ih _)

theorem Ported.steady {s t : State} (h : Ported s t) : Steady s t := ⟨(congrArg State.jvk h.frame).trans rfl, h.seat.1, h.seat.2⟩

theorem Linked.ported {s t : State} (h : Linked s t) : Ported s t := ⟨h.frame, h.seat⟩

theorem Linked.steady {s t : State} (h : Linked s t) : Steady s t := h.ported.steady

theorem ported_modPort (s : State) (p : Nat) (f : PortX → PortX) : Ported s (s.modPort p f) := ⟨rfl, rfl, rfl⟩

theorem ported_portTo (s : State) (p : Nat) (st : PortState) : Ported s (s.portTo p st) := (ported_modPort s p _).trans (linked_portTo s p st).ported

theorem steady_commitClose (s : State) (im : Image) : Steady s (s.commitClose im) := by
  unfold State.commitClose
  refine Steady.foldl (fun s p => ?_) _ s
  exact (ported_portTo s p .down).steady.trans (Linked.foldl (fun s k => linked_failConn s p k) _ _).steady

theorem ported_mapOutPort (s : State) (p : Nat) : Ported s (s.mapOutPort p) := by
  unfold State.mapOutPort
  extract_lets links s₁ ks s₂
  have h₁ : Ported s s₁ := ⟨rfl, rfl, rfl⟩
  have hfold : Linked s₂ (ks.foldl (fun s k => s.failConn p k) s₂) := Linked.foldl (fun s k => linked_failConn s p k) _ _
  exact h₁.trans ((ported_portTo s₁ p .out).trans (hfold.trans (linked_lnkEvent _ 2)).ported)

theorem ported_trainFail (s : State) (p : Nat) : Ported s (s.trainFail p) := by
  unfold State.trainFail
  extract_lets u
  have hu : Ported s u := ported_modPort s p _
  refine hu.trans ?_
  split
  · unfold State.portLimit
    split
    · exact ported_mapOutPort ..
    · exact (ported_portTo u p .down).trans ((ported_modPort _ p _).trans (linked_lnkEvent _ 0).ported)
  · exact ported_portTo ..

theorem ported_train (s : State) (p : Nat) : Ported s (s.train p) := by
  unfold State.train
  extract_lets u
  have hu : Ported s u := (ported_portTo s p .training).trans (ported_modPort _ p _)
  split
  · exact hu.trans ((ported_trainFail u p).trans (linked_lnkEvent _ 4).ported)
  · exact hu.trans (linked_sendIdent ..).ported

theorem ported_commitPorts (s : State) (old im : Image) (clear : Bool) : Ported s (s.commitPorts old im clear) := by
  unfold State.commitPorts
  refine Ported.foldl (fun s p => ?_) _ s
  dsimp only
  split
  · split
    · exact .refl s
    · split
      · exact ported_portTo ..
      · exact ported_train ..
  · split
    · exact .refl s
    · exact ported_train ..
  · split
    · exact ported_portTo ..
    · split
      · exact ported_train ..
      · exact .refl s

theorem steady_commitNodes (s : State) (im : Image) : Steady s (s.commitNodes im) := (Linked.foldl (fun s k => linked_resolve s k) _ s).steady

theorem steady_modSeq (s : State) (c : Nat) (f : SeqCove → SeqCove) : Steady s (s.modSeq c f) := ⟨rfl, rfl, rfl⟩

theorem steady_commitSlots (s : State) (old im : Image) : Steady s (s.commitSlots old im) :=
  (Steady.foldl (fun s _ => steady_modSeq s _ _) _ s).trans (Steady.foldl (fun s _ => steady_modSeq s _ _) _ _)

theorem steady_noteSlots (s : State) (c : Nat) (l : List Nat) : Steady s (s.noteSlots c l) := ⟨rfl, rfl, rfl⟩

theorem steady_commitReady (s before : State) : Steady s (s.commitReady before) := Steady.foldl (fun s c => steady_noteSlots s c _) _ s

theorem steady_flushVectors (s : State) (fn : Nat) : Steady s (s.flushVectors fn) := by
  unfold State.flushVectors
  dsimp only
  split
  · exact .refl s
  · refine Steady.foldl (fun s v => ?_) _ s
    exact ⟨rfl, rfl, rfl⟩

theorem steady_flushAll (s : State) : Steady s ((List.range 9).foldl (fun s fn => s.flushVectors fn) s) := Steady.foldl (fun s fn => steady_flushVectors s fn) _ s

/-! ### The commit point (R561) -/

theorem asIf_spec (s : State) (im : Image) : (s.asIf im).jvk = { s.jvk with inForce := some im } ∧ (s.asIf im).lnk.pos = s.lnk.pos ∧
    (s.asIf im).hif = s.hif := ⟨rfl, rfl, rfl⟩

theorem firstCommit_spec (s : State) (im : Image) : (s.firstCommit im).jvk = { s.jvk with boundNode := im.ownNode s.lnk.pos } ∧
    (s.firstCommit im).lnk.pos = s.lnk.pos ∧ (s.firstCommit im).hif = s.hif := ⟨rfl, rfl, rfl⟩

/-- The block after the commit point of an image. -/
def committed (s : State) (im : Image) : Jvk :=
  { s.jvk with inForce := some im, boundNode := if s.image.isNone then im.ownNode s.lnk.pos else s.jvk.boundNode }

theorem applyImage_spec (s : State) (im : Image) : (s.applyImage im).jvk = committed s im ∧ (s.applyImage im).hif.defaultDone = s.hif.defaultDone := by
  unfold State.applyImage
  extract_lets before fst old clear s₁ s₂ s₃ s₄ s₅ kept lnk hbm s₆ awake hbm₁ s₇
  have h₁ : Steady s s₁ := by
    unfold s₁
    split
    · exact steady_loseAttested s
    · exact .refl s
  have h₂ : Steady s (s₂.commitClose im) :=
    (h₁.trans (Steady.foldl (fun s c => steady_commitCove s im c) _ s₁)).trans (steady_commitClose s₂ im)
  obtain ⟨hj₃, hpos₃, hhif₃⟩ : s₃.jvk = _ ∧ _ := asIf_spec (s₂.commitClose im) im
  have h₄ : s₄.jvk = committed s im ∧ s₄.hif.defaultDone = s.hif.defaultDone := by
    unfold s₄ committed
    have hdone₃ : s₃.hif.defaultDone = s.hif.defaultDone := (congrArg Hif.defaultDone hhif₃).trans h₂.booted
    split
    · next h =>
      obtain ⟨hj, -, hhif⟩ := firstCommit_spec s₃ im
      rw [hj, hj₃, hpos₃, h₂.jvk, h₂.pos, hhif]
      exact ⟨rfl, hdone₃⟩
    · next h =>
      rw [hj₃, h₂.jvk]
      exact ⟨rfl, hdone₃⟩
  have h₅ : Steady s₄ s₅ := (steady_commitNodes s₄ im).trans ((ported_commitPorts _ old im clear).steady.trans (steady_commitSlots _ old im))
  have h₆ : Steady s₅ s₆ := ⟨rfl, rfl, rfl⟩
  have h₇ : Steady s₆ s₇ := by
    unfold s₇
    split
    · exact ⟨rfl, rfl, rfl⟩
    · exact .refl s₆
  have h₈ : Steady s₇ ((s₇.routesChanged before).commitReady before) := (linked_routesChanged s₇ before).steady.trans (steady_commitReady _ before)
  have hall := h₅.trans (h₆.trans (h₇.trans (h₈.trans (steady_flushAll _))))
  exact ⟨hall.jvk.trans h₄.1, hall.booted.trans h₄.2⟩

theorem commitPoint_of_waiting {s : State} {im : Image} (hwait : s.jvk.commitWait = true) (hstaged : s.jvk.staged = some im) :
    s.commitPoint = match s.commitRefusal im with
      | some (st, i) => s.jvkEnd st i
      | none => (s.applyImage im).modJvk fun j => { j with commitWait := false, flashWait := true } := by
  unfold State.commitPoint
  rw [hwait, hstaged]
  rfl

/-! ### The flash writes and the boot (R564, R566) -/

/-- What the flash writes leave alone. -/
def FlashWritten (s t : State) : Prop :=
  t = { s with jvk := t.jvk, hbm := { s.hbm with flashRoster := t.hbm.flashRoster }, lnk := { s.lnk with portRecord := t.lnk.portRecord }, ctrs := t.ctrs }

theorem FlashWritten.trans {s t u : State} (h : FlashWritten s t) (k : FlashWritten t u) : FlashWritten s u := Eq.trans k (by rw [h])

theorem commitFlash_spec (s : State) (im : Image) : (s.commitFlash im).jvk = { s.jvk with floors := vmod s.jvk.floors s.floorSlot fun _ => im.floor } ∧
    (s.commitFlash im).hif = s.hif ∧ (s.commitFlash im).hbm.flashRoster = (if im.rosterClear then [] else s.hbm.flashRoster) ∧
    FlashWritten s (s.commitFlash im) := by
  unfold State.commitFlash
  extract_lets s₁ hbm s₂ lnk s₃
  have h₁ : FlashWritten s s₁ := rfl
  have h₂ : FlashWritten s₁ s₂ ∧ s₂.jvk = s₁.jvk ∧ s₂.hif = s₁.hif ∧ s₂.hbm.flashRoster = if im.rosterClear then [] else s.hbm.flashRoster := by
    unfold s₂
    split
    · exact ⟨rfl, rfl, rfl, rfl⟩
    · exact ⟨rfl, rfl, rfl, rfl⟩
  obtain ⟨hkept, hj, hhif, hroster⟩ := h₂
  have h₃ : FlashWritten s₂ s₃ ∧ s₃.jvk = s₂.jvk ∧ s₃.hif = s₂.hif ∧ s₃.hbm = s₂.hbm := by
    unfold s₃
    split
    · exact ⟨rfl, rfl, rfl, rfl⟩
    · exact ⟨rfl, rfl, rfl, rfl⟩
  obtain ⟨hkept', hj', hhif', hhbm⟩ := h₃
  have hbump : FlashWritten s₃ (s₃.bump (blkJVK + 0x60) 1) := rfl
  exact ⟨hj'.trans hj, hhif'.trans hhif, (congrArg Hbm.flashRoster hhbm).trans hroster, h₁.trans (hkept.trans (hkept'.trans hbump))⟩

theorem defaultCommit_of_boot {s : State} (hboot : s.booting = true) (htrim : s.hif.trimDone = true) (hdone : s.hif.defaultDone = false) {u : State}
    (hu : u = { s with hif := { s.hif with defaultDone := true } }) :
    s.defaultCommit = match s.jvk.flashDefault with
      | none => u
      | some raw => match orElseRefused [u.stageRefusal (readImage raw) raw.length, u.commitRefusal (readImage raw)] with
        | some (st, _) => u.modJvk fun j => { j with defaultStatus := st.code, defaultInForce := false }
        | none => ((u.applyImage (readImage raw)).commitFlash (readImage raw)).modJvk fun j => { j with defaultStatus := 0, defaultInForce := true } := by
  subst hu
  unfold State.defaultCommit
  rw [if_neg (by rw [hboot, htrim, hdone]; decide)]
  rfl

theorem defaultCommit_of_past {s : State} (h : s.booting = false ∨ s.hif.trimDone = false ∨ s.hif.defaultDone = true) : s.defaultCommit = s := by
  refine if_pos ?_
  obtain h | h | h := h <;> simp [h]

theorem next_commit {s t : State} {im : Image} (hfree : s.jvkFree = true) (hstaged : s.jvk.staged = some im)
    (h : (match s.commitRefusal im with
      | some (st, i) => s.jvkEnd st i
      | none => (s.modJvk fun j => { j with commitWait := true }).jvkStart .commit) = t) : execCommit s = .next t := by
  refine next_of_free hfree ?_
  rw [hstaged]
  exact h

theorem commitFlashDone_spec {s : State} {im : Image} (hwait : s.jvk.flashWait = true) (him : s.image = some im) (hslot : s.floorSlot < 5)
    (hreset : s.hif.waitingResets = []) {t : State} (ht : (s.commitFlash im).jvkEnd .done 0 = t) :
    vget 0 t.jvk.floors s.floorSlot = im.floor ∧ t.jvk.flashWait = false ∧ t.jvk.resStatus = 0 ∧
      t.hbm.flashRoster = (if im.rosterClear then [] else s.hbm.flashRoster) ∧ t.image = some im ∧
      t = { s with jvk := t.jvk, hbm := { s.hbm with flashRoster := t.hbm.flashRoster }, lnk := { s.lnk with portRecord := t.lnk.portRecord },
                   hif := t.hif, ctrs := t.ctrs, out := t.out } := by
  obtain ⟨hj, hhif, hroster, hkept⟩ := commitFlash_spec s im
  obtain ⟨hj', hframe⟩ := jvkEnd_spec (s := s.commitFlash im) id .done 0 (by rw [hhif]; exact hreset) ht
  generalize s.commitFlash im = u at hj hhif hroster hkept hj' hframe
  have hhbm : t.hbm = u.hbm := (congrArg State.hbm hframe).trans rfl
  refine ⟨?_, (congrArg Jvk.flashWait hj').trans rfl, (congrArg Jvk.resStatus hj').trans rfl, ?_, ?_, ?_⟩
  · refine (congrArg (fun j => vget 0 j.floors s.floorSlot) hj').trans ?_
    refine (congrArg (fun j => vget 0 j.floors s.floorSlot) hj).trans ?_
    exact vget_vmod_self _ _ _ _ hslot
  · rw [hhbm, hroster]
  · exact (congrArg Jvk.inForce hj').trans ((congrArg Jvk.inForce hj).trans him)
  · refine Eq.trans hframe ?_
    rw [hkept, hframe]

/-- Settles O56: the commit point writes the block as `applyImage_spec` says; everything before it is a verdict, everything after it flash. -/
theorem commitOfAnImage : Obligations.CommitOfAnImage := by
  unfold Obligations.CommitOfAnImage
  refine ⟨fun s im hfree hstaged hok => ?_, fun s im st i hfree hstaged hno => ?_, fun s im hs hwait hstaged hok => ?_,
    fun s im st i hs hwait hstaged hno hreset => ?_, fun s hwait => ?_, fun s im hs hwait him hslot hreset => ?_,
    fun s u hs hboot htrim hdone hu => ⟨fun hnone => ?_, fun raw hraw hok => ?_, fun raw st i hraw hno => ?_⟩,
    fun s h => congrArg _ (whileOn_of_fixed (defaultCommit_of_past h))⟩
  · refine next_commit hfree hstaged ?_
    rw [hok]
    rfl
  · obtain ⟨hj, hframe⟩ := jvkEnd_spec id st i (waiting_of_free hfree) rfl
    refine ⟨_, next_commit hfree hstaged ?_, (congrArg Jvk.resStatus hj).trans rfl, (congrArg Jvk.resSection hj).trans rfl,
      (congrArg Jvk.running hj).trans rfl, (congrArg Jvk.inForce hj).trans rfl, (congrArg Jvk.staged hj).trans hstaged, hframe⟩
    rw [hno]
    rfl
  · have hpoint := commitPoint_of_waiting hwait hstaged
    rw [hok] at hpoint
    obtain ⟨hj, -⟩ := applyImage_spec s im
    generalize s.applyImage im = u at hj hpoint
    refine ⟨_, next_of_answers hs hpoint, (congrArg Jvk.inForce hj).trans rfl, rfl, rfl, (congrArg Jvk.running hj).trans rfl, fun hnone => ?_⟩
    exact (congrArg Jvk.boundNode hj).trans (if_pos (by rw [hnone]; rfl))
  · have hpoint := commitPoint_of_waiting hwait hstaged
    rw [hno] at hpoint
    obtain ⟨hj, hframe⟩ := jvkEnd_spec id st i hreset rfl
    exact ⟨_, next_of_answers hs hpoint, (congrArg Jvk.inForce hj).trans rfl, (congrArg Jvk.commitWait hj).trans rfl, (congrArg Jvk.resStatus hj).trans rfl,
      (congrArg Jvk.running hj).trans rfl, hframe⟩
  · refine congrArg _ (whileOn_of_fixed ?_)
    exact if_pos (by rw [hwait]; rfl)
  · refine ⟨_, next_of_answers hs ?_, commitFlashDone_spec hwait him hslot hreset rfl⟩
    rw [hwait, him]
    rfl
  · have hboot' := defaultCommit_of_boot hboot htrim hdone hu
    rw [hnone] at hboot'
    exact next_of_answers hs hboot'
  · have hboot' := defaultCommit_of_boot hboot htrim hdone hu
    rw [hraw] at hboot'
    dsimp only at hboot'
    rw [hok] at hboot'
    obtain ⟨hj, hbooted⟩ := applyImage_spec u (readImage raw)
    obtain ⟨hj', hhif, -⟩ := commitFlash_spec (u.applyImage (readImage raw)) (readImage raw)
    have hdone' : (u.applyImage (readImage raw)).hif.defaultDone = true := by rw [hbooted, hu]
    generalize u.applyImage (readImage raw) = v at hj hj' hhif hdone' hboot'
    generalize v.commitFlash (readImage raw) = w at hj' hhif hboot'
    refine ⟨_, next_of_answers hs hboot', ?_, ?_, rfl, rfl⟩
    · exact (congrArg Hif.defaultDone hhif).trans hdone'
    · exact (congrArg Jvk.inForce hj').trans ((congrArg Jvk.inForce hj).trans rfl)
  · have hboot' := defaultCommit_of_boot hboot htrim hdone hu
    rw [hraw] at hboot'
    dsimp only at hboot'
    rw [hno] at hboot'
    exact next_of_answers hs hboot'

end Sys2Proof.Proofs
end

section
/-! Cold reset and the boot that follows (spec/16_host_interface_and_reset.md, R588; spec/14_security.md, R541; spec/19_pins_and_electrical.md). -/
namespace Sys2Proof.Proofs
open Sys2Proof Sys2Proof.Machine Sys2Proof.Laws

/-! ### Tables under a map of their entries -/

theorem get_of_below {α : Type} [DecidableEq α] (d : α) (m : SMap α) {lo a : Nat} (hm : SMap.wfFrom d lo m = true) (ha : a < lo) : SMap.get d m a = d := by
  induction m generalizing lo with
  | nil => rfl
  | cons x m ih =>
    obtain ⟨k, v⟩ := x
    simp only [SMap.wfFrom, Bool.and_eq_true, decide_eq_true_eq] at hm
    unfold SMap.get
    rw [if_neg (by omega)]
    exact ih hm.2 (by omega)

/-- In a canonical table a map of the entries that keeps the default is read entry by entry. -/
theorem get_mapAll {α : Type} [DecidableEq α] (d : α) (f : Nat → α → α) (m : SMap α) {lo : Nat} (hm : SMap.wfFrom d lo m = true) {a : Nat} (hd : f a d = d) :
    SMap.get d (SMap.mapAll d f m) a = f a (SMap.get d m a) := by
  induction m generalizing lo with
  | nil => exact hd.symm
  | cons x m ih =>
    obtain ⟨k, v⟩ := x
    simp only [SMap.wfFrom, Bool.and_eq_true, decide_eq_true_eq] at hm
    obtain ⟨-, hrest⟩ := hm
    unfold SMap.mapAll
    by_cases hk : k = a
    · subst hk
      rw [SMap.get, if_pos rfl]
      split
      · next hdrop =>
        rw [hdrop, ih hrest, get_of_below d m hrest (Nat.lt_succ_self k), hd]
      · rw [SMap.get, if_pos rfl]
    · rw [SMap.get, if_neg hk]
      split
      · exact ih hrest
      · rw [SMap.get, if_neg hk]
        exact ih hrest

/-! ### Cold reset -/

theorem cold_eq (x : SecState) : x.cold = if x = .attested ∨ x = .ownerDebug then .sealed else x := by cases x <;> rfl

theorem vget_replicate {α : Type} {n : Nat} (d : α) (i : Nat) : vget d (Vector.replicate n d) i = d := by
  unfold vget
  split <;> simp

theorem coldBoot_streams (s : State) (pos : Nat) (split heat : Bool) (hwf : SMap.wf 0 s.streams = true) (e : Nat) :
    SMap.get 0 (s.coldBoot pos split heat).streams e = setEntField (SMap.get 0 s.streams e) 0 1 0 :=
  get_mapAll 0 (fun _ x => setEntField x 0 1 0) s.streams hwf (by simp [setEntField])

theorem coldBoot_mem (s : State) (pos : Nat) (split heat : Bool) (a : Nat) :
    SMap.get 0 (s.coldBoot pos split heat).mem.bytes a = if s.region a = .host then SMap.get 0 s.mem.bytes a else 0 := by
  refine (get_filter 0 (fun a => decide (s.region a = .host)) s.mem.bytes a).trans ?_
  by_cases h : s.region a = .host
  · rw [if_pos h, if_pos (decide_eq_true h)]
  · rw [if_neg h, if_neg (by rw [decide_eq_false h]; exact Bool.false_ne_true)]

/-! ### Requests for a reset (R589) -/

/-- A request that nothing refuses shows its kind in RESET_STAT and goes on. -/
theorem next_of_request {s t : State} {k : ResetKind} {f : State → State} (hp : s.pstate ≠ 4) (hheld : s.hif.heldInReset = false)
    (hnone : s.resetRefusal k.code = none) (h : f (s.resetStat k.code .done) = t) :
    (Host.Outcome.next (s.requestReset k f) : Host.Outcome State Fault Refusal) = .next t := by
  refine congrArg _ (Eq.trans ?_ h)
  unfold State.requestReset
  rw [if_neg (by simp [hp, hheld]), hnone]

/-- One that is refused shows why. -/
theorem next_of_refused {s : State} {k : ResetKind} {st : Status} (f : State → State) (hp : s.pstate ≠ 4) (hheld : s.hif.heldInReset = false)
    (h : s.resetRefusal k.code = some st) :
    (Host.Outcome.next (s.requestReset k f) : Host.Outcome State Fault Refusal) = .next (s.resetStat k.code st) := by
  refine congrArg _ ?_
  unfold State.requestReset
  rw [if_neg (by simp [hp, hheld]), h]

/-! ### A package that does not answer -/

section
variable {s : State} (hs : s.answers = false)
include hs

theorem silent_iff : s.pstate = 4 ∨ s.hif.heldInReset = true := by
  unfold State.answers at hs
  by_cases h : s.pstate = 4
  · exact .inl h
  · right
    simpa [h] using hs

theorem halted_of_silent : s.halted = true := by
  unfold State.halted
  obtain h | h := silent_iff hs <;> simp [h]

theorem booting_of_silent : s.booting = false := by
  unfold State.booting
  obtain h | h := silent_iff hs <;> simp [h]

theorem atBox_of_silent (box : Nat) (f : State → State) : s.atBox box f = s := atBox_of_absent f (by unfold State.boxThere; rw [hs, Bool.false_and])

/-- R656, R586: held in cold reset, or in P4, nothing but the pins is followed. The commands are grouped by the gate that stops them. -/
theorem exec_of_silent {c : Instr} (hcold : c.coldResets = false) (hport : ∀ p, c ≠ .portSignalLoss p ∧ c ≠ .portSignalDetect p) : exec c s = .next s := by
  have hoff := silent_iff hs
  have hwhile : ∀ f, (Host.Outcome.next (s.whileOn f) : Host.Outcome State Fault Refusal) = .next s := fun f => congrArg _ (whileOn_of_not_answers f hs)
  have hrun : ∀ f, (Host.Outcome.next (s.unlessHalted f) : Host.Outcome State Fault Refusal) = .next s :=
    fun f => congrArg _ (unlessHalted_of_halted f (halted_of_silent hs))
  have hjvk : ∀ f, (Host.Outcome.next (s.jvkCmd f) : Host.Outcome State Fault Refusal) = .next s := fun f => congrArg _ (if_pos hoff)
  have hreset : ∀ k f, (Host.Outcome.next (s.requestReset k f) : Host.Outcome State Fault Refusal) = .next s := fun k f => congrArg _ (if_pos hoff)
  have hbox : ∀ box f, (Host.Outcome.next (s.atBox box f) : Host.Outcome State Fault Refusal) = .next s := fun box f => congrArg _ (atBox_of_silent hs box f)
  cases c
  case coldReset => exact absurd hcold nofun
  case pkgResetN => exact absurd hcold nofun
  case refclkLoss => exact absurd hcold nofun
  case railFault => exact absurd hcold nofun
  case refclkReturn => exact absurd hcold nofun
  case portSignalLoss p => exact absurd rfl (hport p).1
  case portSignalDetect p => exact absurd rfl (hport p).2
  case resetReqRefused => exact congrArg _ (if_pos hoff)
  case perst => exact congrArg _ (if_pos (hoff.elim .inl fun h => .inr (.inl h)))
  case flr => exact congrArg _ (if_pos (hoff.elim .inl fun h => .inr (.inl h)))
  case hbmTrained => exact congrArg _ (if_pos (.inl (by rw [booting_of_silent hs]; rfl)))
  case deepTrained => exact congrArg _ (if_pos (.inl (by rw [booting_of_silent hs]; rfl)))
  case bar2Read => exact congrArg _ (if_pos (by rw [hs]; rfl))
  case bar2Write => exact congrArg _ (if_pos (by rw [hs]; rfl))
  case watchCtrlWrite => exact congrArg _ (if_neg (by rw [hs, Bool.false_and]; exact Bool.false_ne_true))
  case epochMarkWrite => exact congrArg _ (if_pos (by rw [hs]; rfl))
  case lossTailWrite => exact congrArg _ (if_neg (by rw [hs]; exact Bool.false_ne_true))
  case registerWrite => exact congrArg _ (if_pos (by rw [hs]; rfl))
  case bar0BadAccess => exact congrArg _ (if_neg (by rw [hs]; exact Bool.false_ne_true))
  case setdasa => exact congrArg _ (if_pos (by rw [hs]; rfl))
  case getPqSig => exact congrArg _ (if_pos (by unfold State.boxThere; rw [hs, Bool.false_and]; rfl))
  case pqFinish => exact congrArg _ ((congrArg₂ (ite _) (atBox_of_silent hs _ _) (atBox_of_silent hs _ _)).trans (ite_self s))
  case jvkReservedCode => exact congrArg _ ((congrArg (ite _ s) (if_pos hoff)).trans (ite_self s))
  any_goals exact hwhile _
  any_goals exact hrun _
  any_goals exact hjvk _
  any_goals exact hreset _ _
  any_goals exact hbox _ _

end

/-- R588, R648: power-up and the pin give the state after a cold reset. -/
theorem exec_coldBoot (s : State) (pos : BitVec 12) (split : Bool) :
    ∀ i ∈ ([.coldReset false pos split, .pkgResetN pos split] : List Instr), ∃ heat, exec i s = .next (s.coldBoot pos.toNat split heat) := by
  simp only [List.forall_mem_cons]
  exact ⟨⟨false, rfl⟩, ⟨true, rfl⟩, fun _ hi => absurd hi List.not_mem_nil⟩

/-- Settles O57: `coldBoot` lists what stays; a silent package is the gate of every other command. -/
theorem coldResets : Obligations.ColdResets := by
  unfold Obligations.ColdResets
  refine ⟨fun s pos split i hi => ?_, fun s pos split hp hheld hbusy => ?_, fun s i hi => ?_, fun s pos split hheld => ?_,
    fun s pos split hheld => congrArg _ (if_neg (by rw [hheld]; exact Bool.false_ne_true)), fun c s hs hcold hport => exec_of_silent hs hcold hport⟩
  · obtain ⟨heat, hexec⟩ := exec_coldBoot s pos split i hi
    refine ⟨_, hexec, cold_eq _, rfl, rfl, rfl, rfl, fun j => vget_replicate none _, rfl, rfl, coldBoot_streams s _ _ _, rfl, rfl, rfl, rfl, rfl, rfl, rfl,
      rfl, rfl, rfl, rfl, rfl, coldBoot_mem s _ _ _, rfl⟩
  · have hnone : (State.resetRefusal s (ResetKind.code .cold)) = none := by
      unfold State.resetRefusal
      rw [hbusy]
      simp [ResetKind.code]
    have hexec : exec (.coldReset true pos split) s = .next ((s.resetStat 1 .done).coldBoot pos.toNat split true) :=
      next_of_request (k := .cold) (f := fun s => s.coldBoot pos.toNat split true) hp hheld hnone rfl
    exact ⟨_, hexec, rfl, rfl, rfl, rfl, rfl, rfl⟩
  · have hexec : exec i s = .next s.hold := by
      obtain rfl | hi := List.mem_cons.mp hi
      · rfl
      · obtain rfl := List.mem_singleton.mp hi
        rfl
    exact ⟨_, hexec, rfl, rfl, rfl, rfl, rfl⟩
  · have hexec : exec (.refclkReturn pos split) s = .next (s.coldBoot pos.toNat split true) := congrArg _ (if_pos hheld)
    exact ⟨_, hexec, rfl, rfl, rfl⟩

end Sys2Proof.Proofs
end

section
/-! Training during boot (spec/16_host_interface_and_reset.md, R588; spec/07_hbm_memory.md, R280; spec/08_tiers_and_translation.md, R668). -/
namespace Sys2Proof.Proofs
open Sys2Proof Sys2Proof.Machine Sys2Proof.Laws

/-! ### The roster record after training (R280) -/

/-- The channels mapped out, in map-out order: those of the flash record, then those that failed, as far as the numbers reach. -/
def mappedOut (flash : List (Nat × Nat)) (failed : List Nat) : List Nat :=
  let old := (flash.insertionSort fun a b => a.2 ≤ b.2).map Prod.fst
  (old ++ failed.filter fun c => !old.contains c).take 16

theorem rosterOuts_eq (flash : List (Nat × Nat)) (failed : List Nat) : rosterOuts flash failed = (mappedOut flash failed).zipIdx := rfl

theorem rosterOuts_fst (flash : List (Nat × Nat)) (failed : List Nat) : (rosterOuts flash failed).map Prod.fst = mappedOut flash failed :=
  List.zipIdx_map_fst 0 _

theorem mem_sorted_fst {flash : List (Nat × Nat)} {c : Nat} :
    c ∈ (flash.insertionSort fun a b => a.2 ≤ b.2).map Prod.fst ↔ c ∈ flash.map Prod.fst := by
  simp only [List.mem_map, List.mem_insertionSort]

theorem length_mappedOut (flash : List (Nat × Nat)) (failed : List Nat) : (mappedOut flash failed).length ≤ 16 := List.length_take_le ..

theorem mem_of_mappedOut {flash : List (Nat × Nat)} {failed : List Nat} {c : Nat} (h : c ∈ mappedOut flash failed) : c ∈ flash.map Prod.fst ∨ c ∈ failed := by
  obtain h | h := List.mem_append.mp (List.mem_of_mem_take h)
  · exact .inl (mem_sorted_fst.mp h)
  · exact .inr (List.mem_filter.mp h).1

/-- While the numbers reach, every channel recorded or failed is mapped out. -/
theorem mem_mappedOut_iff {flash : List (Nat × Nat)} {failed : List Nat} (hroom : flash.length + failed.length ≤ 16) {c : Nat} :
    c ∈ mappedOut flash failed ↔ c ∈ flash.map Prod.fst ∨ c ∈ failed := by
  refine ⟨mem_of_mappedOut, fun h => ?_⟩
  unfold mappedOut
  extract_lets old
  have hold : old.length = flash.length := by simp [old, List.length_insertionSort]
  have hnew : (failed.filter fun c => !old.contains c).length ≤ failed.length := List.length_filter_le ..
  rw [List.take_of_length_le (by rw [List.length_append]; omega), List.mem_append]
  by_cases hc : c ∈ old
  · exact .inl hc
  · refine .inr (List.mem_filter.mpr ⟨h.resolve_left fun hf => hc (mem_sorted_fst.mpr hf), ?_⟩)
    simpa using hc

/-! ### The training of HBM and of deep memory -/

/-- The fitted channels that failed training, each once, in order. -/
def badChannels (s : State) (failed : List Nat) : List Nat := (failed.filter fun c => c < s.fuses.variant.nfit / 2).dedup.insertionSort (· ≤ ·)

theorem mem_badChannels {s : State} {failed : List Nat} {c : Nat} : c ∈ badChannels s failed ↔ c ∈ failed ∧ c < s.fuses.variant.nfit / 2 := by
  simp [badChannels]

theorem length_badChannels (s : State) (failed : List Nat) : (badChannels s failed).length ≤ failed.length := by
  unfold badChannels
  rw [List.length_insertionSort]
  exact (List.dedup_sublist _).length_le.trans (List.length_filter_le ..)

/-- The memory side after training, with the channels mapped out. -/
def trained (s : State) (outs bad : List Nat) : Hbm :=
  { s.hbm with roster := Vector.ofFn fun c => if s.fuses.variant.nfit / 2 ≤ c.val then .absent else if outs.contains c.val then .out else .live,
               outs := outs, flashRoster := outs.zipIdx, trained := true, noNumber := bad.any fun c => !outs.contains c }

theorem bootFirmware_spec (s : State) : s.bootFirmware = { s with
    hif := { s.hif with fwVerified := true }
    lnk := { s.lnk with inc := if s.hif.fwVerified then s.lnk.inc else (s.lnk.inc + 1) % 65536 } } := by
  unfold State.bootFirmware
  by_cases h : s.hif.fwVerified = true
  · rw [if_pos h, if_pos h]
    have hh : s.hif = { s.hif with fwVerified := true } := by rw [← h]
    rw [← hh]
  · rw [if_neg h, if_neg h]
    rfl

theorem hbmTrain_spec {s : State} {failed : List Nat} (hboot : s.booting = true) (hnot : s.hif.hbmTrained = false) :
    s.hbmTrain failed = { s with
      hif := { s.hif with fwVerified := true, hbmTrained := true, deepTrained := s.hif.deepTrained || decide (s.fuses.variant = Variant.m) },
      lnk := { s.lnk with inc := if s.hif.fwVerified then s.lnk.inc else (s.lnk.inc + 1) % 65536 },
      hbm := trained s (mappedOut s.hbm.flashRoster (badChannels s failed)) (badChannels s failed) } := by
  unfold State.hbmTrain
  rw [if_neg (by simp [hboot, hnot]), bootFirmware_spec]
  dsimp only
  rw [rosterOuts_fst, rosterOuts_eq]
  rfl

theorem vget_ofFn {α : Type} {n : Nat} (d : α) (f : Fin n → α) (i : Fin n) : vget d (Vector.ofFn f) i = f i := by
  simp [vget]

/-- Settles O58: the channels mapped out are those of the record and those that failed, as far as sixteen numbers reach. -/
theorem trainingAtBoot : Obligations.TrainingAtBoot := by
  unfold Obligations.TrainingAtBoot
  have hexec : ∀ (s : State) (failed : List (Fin 384)) (hboot : s.booting = true) (hnot : s.hif.hbmTrained = false), exec (.hbmTrained failed) s = .next _ :=
    fun s failed hboot hnot => congrArg Host.Outcome.next (hbmTrain_spec hboot hnot)
  refine ⟨fun s failed hboot hnot => ⟨_, hexec s failed hboot hnot, rfl, rfl, rfl, rfl, fun c => ?_, length_mappedOut .., fun c hc => ?_, rfl,
    fun hroom => ?_, rfl, rfl⟩, fun s gib hboot htrained hnot => congrArg _ (if_neg ?_), fun s failed gib hboot => ⟨congrArg _ (if_pos ?_), congrArg _ (if_pos ?_)⟩⟩
  · refine (vget_ofFn ..).trans ?_
    simp only [List.contains_iff_mem]
    rfl
  · exact (mem_of_mappedOut hc).imp id fun h => (mem_badChannels.mp h).1
  · have hlen : (badChannels s (failed.map Fin.val)).length ≤ failed.length := (length_badChannels ..).trans (List.length_map ..).le
    have hiff := @mem_mappedOut_iff s.hbm.flashRoster (badChannels s (failed.map Fin.val)) (by omega)
    exact ⟨fun c hc => hiff.mpr (.inl hc), fun c hc hfit => hiff.mpr (.inr (mem_badChannels.mpr ⟨List.mem_map_of_mem hc, hfit⟩))⟩
  · simp [hboot, htrained, hnot]
  · exact .inl (by rw [hboot]; rfl)
  · exact .inl (by rw [hboot]; rfl)

end Sys2Proof.Proofs
end

section
/-! Engine and port resets and the end of a reset (spec/16_host_interface_and_reset.md, R589, R593, R594). -/
namespace Sys2Proof.Proofs
open Sys2Proof Sys2Proof.Machine Sys2Proof.Laws

/-! ### The end of a reset -/

/-- Where no reset waits, an end writes RESET_STAT, sets EVENT.RESET_DONE and signals. -/
theorem resetEnds_spec {s : State} (r : ResetRun) (st : Status) (hwait : s.hif.waitingResets = []) {t : State} (ht : s.resetEnds r st = t) :
    t.hif.running = none ∧ t.hif.lastKind = r.kind.code ∧ t.hif.lastStatus = st.code ∧ t.flagBit (blkHIF + 0x10) 0 = true ∧
      Signals s t := by
  subst ht
  unfold State.resetEnds
  extract_lets u
  have hhif : u.hif = { s.hif with running := none, lastKind := r.kind.code, lastStatus := st.code, msix := u.hif.msix } := hifEvent_hif _ 0
  have hsig : Signals s u := Signals.trans (t := (s.modHif fun h => { h with running := none }).resetStat r.kind.code st) rfl (signals_event ..)
  rw [nextReset_of_none (by rw [hhif]; exact hwait)]
  exact ⟨congrArg Hif.running hhif, congrArg Hif.lastKind hhif, congrArg Hif.lastStatus hhif, event_bit _ _ _ _ (by decide), hsig⟩

theorem resetDone_of_none {s : State} (h : s.hif.running = none) : s.resetDone = s := by
  unfold State.resetDone
  rw [h]

theorem resetDone_of_engine {s : State} {r : ResetRun} (hrun : s.hif.running = some r) (hkind : r.kind = .engine) :
    s.resetDone = if !s.engineWorks r.target then s.resetEnds r .done else if r.since + 1000000 ≤ s.now then s.resetEnds r .busy else s := by
  unfold State.resetDone
  rw [hrun]
  dsimp only
  rw [hkind]

theorem resetDone_of_cove {s : State} {r : ResetRun} (hrun : s.hif.running = some r) (hkind : r.kind = .cove) :
    s.resetDone = (s.raise (1 + r.target) 5).resetEnds r .done := by
  unfold State.resetDone
  rw [hrun]
  dsimp only
  rw [hkind]

theorem resetDone_of_wide {s : State} {r : ResetRun} (hrun : s.hif.running = some r) (hkind : r.kind = .warm ∨ r.kind = .device) :
    s.resetDone = (if s.pstate = 3 then s else s.trainPorts).resetEnds r .done := by
  unfold State.resetDone
  rw [hrun]
  dsimp only
  obtain h | h := hkind <;> rw [h]

theorem ported_trainPorts (s : State) : Ported s s.trainPorts := by
  unfold State.trainPorts
  refine Ported.foldl (fun s p => ?_) _ s
  split
  · exact ported_train s p
  · exact .refl s

/-! ### Engine resets -/

theorem engineTarget_iff (t : Nat) : engineTarget t = true ↔ t ≤ 0xD1 ∨ 0xD4 ≤ t ∧ t ≤ 0xD7 := by
  simp only [engineTarget, Bool.or_eq_true, Bool.and_eq_true, decide_eq_true_eq]
  omega

theorem next_engineReset {s : State} (b : Byte) (hfree : s.resetsFree = true) : exec (.engineReset b) s = .next
    (if engineTarget b.toNat then (s.resetStat 5 .done).beginReset .engine b.toNat else (s.resetStat 5 .done).resetStat 5 .range) := by
  obtain ⟨hp, hheld, -⟩ := resetsFree_iff.mp hfree
  exact next_of_request (k := .engine) hp hheld (resetRefusal_of_resetsFree .engine hfree) rfl

theorem beginReset_engine {s : State} (n : Nat) (h : s.hif.running = none) :
    s.beginReset .engine n = s.modHif fun h => { h with running := some ⟨.engine, n, s.now⟩ } := by
  refine if_neg ?_
  unfold State.mustWait
  rw [h]
  simp

/-! ### Port resets -/

theorem trainFail_not_up (s : State) {p : Nat} (hp : p < 36) : ((s.trainFail p).port p).state ≠ .up := by
  unfold State.trainFail
  extract_lets u
  split
  · unfold State.portLimit
    split
    · rw [(mapOutPort_spec u hp).1]
      decide
    · rw [lnkEvent_port, modPort_port_self _ _ hp, portTo_port_self _ .down hp]
      exact nofun
  · rw [portTo_port_self _ .down hp]
    exact nofun

/-- A port that trains is not UP, whatever its module draws. -/
theorem train_not_up (s : State) {p : Nat} (hp : p < 36) : ((s.train p).port p).state ≠ .up := by
  unfold State.train
  extract_lets u
  have hu : (u.port p).state = .training := by
    unfold u
    rw [modPort_port_self _ _ hp, portTo_port_self _ .training hp]
  split
  · rw [lnkEvent_port]
    exact trainFail_not_up u hp
  · rw [(linked_sendIdent ..).port p, hu]
    decide

theorem ported_portAgain (s : State) (p : Nat) : Ported s (s.portAgain p) := by
  unfold State.portAgain
  extract_lets ks
  refine (ported_portTo s p .down).trans ?_
  exact (Linked.foldl (fun s k => linked_failConn s p k) ks _).ported.trans (ported_train _ p)

theorem portReset_of_used {s : State} {p : Nat} (hcount : p < s.portCount) (h36 : p < 36) (hoff : (s.port p).state ≠ .off) (hout : (s.port p).state ≠ .out) :
    s.portReset p = (s.portAgain p).hifEvent 0 := by
  unfold State.portReset
  rw [if_neg (by omega), if_neg (by omega), if_neg fun h => h.elim hoff hout]

theorem portReset_spec {s : State} {p : Nat} (hcount : p < s.portCount) (h36 : p < 36) (hoff : (s.port p).state ≠ .off) (hout : (s.port p).state ≠ .out)
    {t : State} (ht : s.portReset p = t) : (t.port p).state ≠ .up ∧ t.hif.lastKind = s.hif.lastKind ∧ t.hif.lastStatus = s.hif.lastStatus ∧
      t.flagBit (blkHIF + 0x10) 0 = true ∧ t.image = s.image ∧ t.mem = s.mem := by
  rw [portReset_of_used hcount h36 hoff hout] at ht
  subst ht
  have hkept := ported_portAgain s p
  have hup : ((s.portAgain p).port p).state ≠ .up := train_not_up _ h36
  generalize s.portAgain p = u at hkept hup
  have hsig : Signals u (u.hifEvent 0) := signals_event ..
  have hhif := (hifEvent_hif u 0).trans (by rw [hkept.seat.2])
  refine ⟨?_, (congrArg Hif.lastKind hhif).trans rfl, (congrArg Hif.lastStatus hhif).trans rfl, event_bit _ _ _ _ (by decide), ?_, ?_⟩
  · exact (congrArg (fun x => (x.port p).state) hsig).trans_ne hup
  · exact (congrArg (fun x => x.jvk.inForce) hsig).trans ((congrArg (fun x => x.jvk.inForce) hkept.frame).trans rfl)
  · exact (congrArg State.mem hsig).trans ((congrArg State.mem hkept.frame).trans rfl)

/-- Settles O60: `resetEnds_spec` says what an end writes; the kinds differ in what comes before it. -/
theorem engineAndPortResets : Obligations.EngineAndPortResets := by
  unfold Obligations.EngineAndPortResets
  refine ⟨fun s b hfree hb => ?_, fun s b hfree hb => ?_, fun s b hfree hcount h36 hoff hout => ?_,
    fun s h => congrArg _ (whileOn_of_fixed (resetDone_of_none h)), fun s r hs hrun hkind hwait => ⟨fun hworks htime => ?_, fun hdone => ?_⟩,
    fun s r hs hrun hkind hwait => ?_, fun s r hs hrun hkind hwait => ?_⟩
  · obtain ⟨-, -, hrunning, -⟩ := resetsFree_iff.mp hfree
    rw [next_engineReset b hfree, if_pos ((engineTarget_iff _).mpr hb), beginReset_engine (s := s.resetStat 5 .done) _ hrunning]
    rfl
  · rw [next_engineReset b hfree, if_neg fun h => hb ((engineTarget_iff _).mp h)]
    rfl
  · obtain ⟨hp, hheld, -⟩ := resetsFree_iff.mp hfree
    exact ⟨_, next_of_request (k := .port) hp hheld (resetRefusal_of_resetsFree .port hfree) rfl,
      portReset_spec (s := s.resetStat 6 .done) hcount h36 hoff hout rfl⟩
  · refine congrArg _ (whileOn_of_fixed ?_)
    rw [resetDone_of_engine hrun hkind, hworks, if_neg (by decide), if_neg (by omega)]
  · by_cases hworks : s.engineWorks r.target = false
    · obtain ⟨hr, hk, hst, hbit, hframe⟩ := resetEnds_spec r .done hwait rfl
      refine ⟨_, next_of_answers hs ((resetDone_of_engine hrun hkind).trans (if_pos (by rw [hworks]; rfl))), hr, ?_, ?_, hbit, hframe⟩
      · rw [hk, hkind]
        rfl
      · rw [hst, if_pos hworks]
        rfl
    · obtain ⟨hr, hk, hst, hbit, hframe⟩ := resetEnds_spec r .busy hwait rfl
      refine ⟨_, next_of_answers hs ((resetDone_of_engine hrun hkind).trans ((if_neg (by simpa using hworks)).trans (if_pos (hdone.resolve_left hworks)))),
        hr, ?_, ?_, hbit, hframe⟩
      · rw [hk, hkind]
        rfl
      · rw [hst, if_neg hworks]
        rfl
  · have hraise := raise_hif s (1 + r.target) 5
    obtain ⟨hr, hk, hst, hbit, hframe⟩ := resetEnds_spec (s := s.raise (1 + r.target) 5) r .done (by rw [hraise]; exact hwait) rfl
    refine ⟨_, next_of_answers hs (resetDone_of_cove hrun hkind), hr, ?_, hst, hbit, ?_⟩
    · rw [hk, hkind]
      rfl
    · exact Signals.trans (signals_raise ..) hframe
  · have hkept : Ported s (if s.pstate = 3 then s else s.trainPorts) := by
      split
      · exact .refl s
      · exact ported_trainPorts s
    have hdone := resetDone_of_wide hrun hkind
    generalize (if s.pstate = 3 then s else s.trainPorts) = u at hkept hdone
    obtain ⟨hr, hk, hst, hbit, hsig⟩ := resetEnds_spec r .done (by rw [hkept.seat.2]; exact hwait) rfl
    refine ⟨_, next_of_answers hs hdone, hr, ?_, hst, hbit, ?_, ?_⟩
    · obtain h | h := hkind <;> rw [hk, h] <;> rfl
    · exact (congrArg (fun x => x.jvk.inForce) hsig).trans ((congrArg (fun x => x.jvk.inForce) hkept.frame).trans rfl)
    · exact (congrArg State.mem hsig).trans ((congrArg State.mem hkept.frame).trans rfl)

end Sys2Proof.Proofs
end

section
/-! What the work of a reset leaves alone: clock, JVK block, engines, epochs, Wellhead and, but for MSI-X, the host interface
(spec/16_host_interface_and_reset.md, R590 to R592). -/
namespace Sys2Proof.Proofs
open Sys2Proof Sys2Proof.Machine Sys2Proof.Laws

/-- The parts of a state that the operations of this file keep. -/
structure Pins where
  tick : DWord
  jvk : Jvk
  cores : Vector (Option TileRun) 128
  atns : Vector (Option TileRun) 32
  epochs : Vector Nat 8
  wh : Wh
  hif : Hif

def pins (s : State) : Pins := ⟨s.tick, s.jvk, s.cores, s.atns, s.epochs, s.wh, { s.hif with msix := ({} : Hif).msix }⟩

def Pinned (s t : State) : Prop := pins t = pins s

theorem Pinned.refl (s : State) : Pinned s s := rfl

theorem Pinned.trans {s t u : State} (h : Pinned s t) (k : Pinned t u) : Pinned s u := Eq.trans k h

theorem Pinned.foldl {α : Type} {f : State → α → State} (hf : ∀ s x, Pinned s (f s x)) (l : List α) (s : State) : Pinned s (l.foldl f s) := by
  induction l generalizing s with
  | nil => exact .refl s
  | cons x l ih => exact (hf s x).trans (ih _)

theorem Pinned.foldl_fst {α β : Type} {f : State × β → α → State × β} (hf : ∀ a x, Pinned a.1 (f a x).1) (l : List α) (a : State × β) :
    Pinned a.1 (l.foldl f a).1 := by
  induction l generalizing a with
  | nil => exact .refl _
  | cons x l ih => exact (hf a x).trans (ih _)

theorem Pinned.ite {s t u : State} {p : Prop} [Decidable p] (h : Pinned s t) (k : Pinned s u) : Pinned s (if p then t else u) := by
  split
  · exact h
  · exact k

theorem pinned_of_accesses {s t : State} (h : Accesses s t) : Pinned s t := (congrArg pins h.frame).trans rfl

theorem pinned_of_gauged {s t : State} (h : Gauged s t) : Pinned s t := (congrArg pins h).trans rfl

theorem pinned_of_ported {s t : State} (h : Ported s t) : Pinned s t := by
  have hhif := h.seat.2
  refine (congrArg pins h.frame).trans ?_
  unfold pins
  dsimp only
  rw [hhif]

/-! ### Streams and memory -/

theorem pinned_sset (s : State) (i off n v : Nat) : Pinned s (s.sset i off n v) := rfl
theorem pinned_setSx (s : State) (i : Nat) (f : StreamX → StreamX) : Pinned s (s.setSx i f) := rfl
theorem pinned_setSState (s : State) (i : Nat) (x : StreamState) : Pinned s (s.setSState i x) := rfl
theorem pinned_packageCancel (s : State) (e st : Nat) : Pinned s (s.packageCancel e st) := rfl
theorem pinned_modSeq (s : State) (c : Nat) (f : SeqCove → SeqCove) : Pinned s (s.modSeq c f) := rfl
theorem pinned_bump (s : State) (o n : Nat) : Pinned s (s.bump o n) := rfl
theorem pinned_setWord (s : State) (c i : Nat) (f : ObjWord → ObjWord) : Pinned s (s.setWord c i f) := rfl
theorem pinned_modObj (s : State) (c i : Nat) (f : Obj → Obj) : Pinned s (s.modObj c i f) := rfl

theorem pinned_noteStatus (s : State) (c : Nat) (st : Status) : Pinned s (s.noteStatus c st) := (congrArg pins (noteStatus_frame s c st)).trans rfl

theorem pinned_writeLeaf (s : State) (c va e : Nat) : Pinned s (s.writeLeaf c va e).1 := by
  unfold State.writeLeaf
  split
  · exact .refl s
  · exact Pinned.trans (.ite (pinned_of_accesses (accesses_writeGranule ..)) (.refl s)) (pinned_of_accesses (accesses_writeGranule ..))

theorem pinned_objLeaves (s : State) (c va : Nat) (es : List Nat) : Pinned s (s.objLeaves c va es) := Pinned.foldl (fun _ _ => pinned_writeLeaf ..) _ s

theorem pinned_clearLeaves (s : State) (c i : Nat) : Pinned s (s.clearLeaves c i) := by
  unfold State.clearLeaves
  extract_lets o u
  have hu : Pinned s u := pinned_objLeaves ..
  exact .ite hu (hu.trans (pinned_objLeaves ..))

theorem pinned_unmapPages (s : State) (ps : List KvPage) : Pinned s (s.unmapPages ps) := Pinned.foldl (fun _ _ => pinned_writeLeaf ..) _ s

theorem pinned_dropKv (s : State) (e : Nat) : Pinned s (s.dropKv e) := (pinned_unmapPages s _).trans ((pinned_sset ..).trans (pinned_setSx ..))

theorem pinned_dropOld (s : State) (e : Nat) : Pinned s (s.dropOld e) := (pinned_unmapPages s _).trans ((pinned_sset ..).trans (pinned_setSx ..))

/-! ### The end of a step's parts -/

theorem pinned_suppressStream (s : State) (e : Nat) : Pinned s (s.suppressStream e) := by
  unfold State.suppressStream
  exact .ite ((pinned_sset ..).trans (pinned_packageCancel ..)) (pinned_sset ..)

theorem pinned_rebuildStream (s : State) (e : Nat) : Pinned s (s.rebuildStream e) := by
  unfold State.rebuildStream
  extract_lets c bad s₁ s₂ s₃ s₄ s₅
  have h₃ : Pinned s s₃ := (pinned_unmapPages s bad).trans ((pinned_setSx s₁ e _).trans (Pinned.foldl (fun _ _ => pinned_modSeq ..) bad s₂))
  have h₄ : Pinned s₃ s₄ := (pinned_sset ..).trans (pinned_sset ..)
  have h₅ : Pinned s₄ s₅ := .ite (.refl s₄) (pinned_setSState ..)
  exact h₃.trans (h₄.trans (h₅.trans (pinned_bump ..)))

theorem pinned_seqWrite (s : State) (c va : Nat) (b : List Byte) : Pinned s (s.seqWrite c va b).1 := by
  have h := accesses_poke s c unitSeq 0 va b
  unfold State.seqWrite
  generalize s.poke c unitSeq 0 va b = x at h
  obtain ⟨u, _ | e⟩ := x
  · exact pinned_of_accesses h
  · exact pinned_of_accesses h

theorem pinned_countMiss (s : State) (e : Nat) : Pinned s (s.countMiss e) := by
  unfold State.countMiss
  split
  · exact .ite (pinned_bump ..) (.refl s)
  · exact .refl s

theorem pinned_emitFields (s : State) (e rows : Nat) : Pinned s (s.emitFields e rows) := by
  unfold State.emitFields
  extract_lets n s₁ s₂ s₃
  have h₁ : Pinned s s₁ := (pinned_sset ..).trans (pinned_sset ..)
  have h₂ : Pinned s s₂ := h₁.trans ((pinned_sset ..).trans ((pinned_sset ..).trans (pinned_sset ..)))
  have h₃ : Pinned s₂ s₃ := .ite (pinned_sset ..) (.refl s₂)
  exact h₂.trans (h₃.trans (.ite (pinned_setSState ..) (.refl s₃)))

theorem pinned_turnEnds (s : State) (e : Nat) : Pinned s (s.turnEnds e) := by
  unfold State.turnEnds
  exact .ite ((pinned_setSState ..).trans ((pinned_sset ..).trans (pinned_setSx ..))) (pinned_setSState ..)

theorem pinned_emitToken (s : State) (e tok rows : Nat) : Pinned s (s.emitToken e tok rows) := by
  unfold State.emitToken
  extract_lets c w u
  have hw : Pinned s w.1 := pinned_seqWrite ..
  refine hw.trans ?_
  split
  · exact Pinned.trans (.ite (pinned_packageCancel ..) (.refl w.1)) (pinned_noteStatus ..)
  · have hu : Pinned w.1 u := (pinned_countMiss ..).trans (pinned_emitFields ..)
    exact .ite (hu.trans (pinned_turnEnds ..)) hu

theorem pinned_houseEnds (s : State) (e : Nat) : Pinned s (s.houseEnds e) := .ite (pinned_setSx ..) (.refl s)

theorem pinned_partEnds (s : State) (c : Nat) (b : BatchPart) : Pinned s (s.partEnds c b) := by
  unfold State.partEnds
  extract_lets e u last v
  refine .ite (.refl s) ?_
  have hu : Pinned s u := .ite (pinned_setSx ..) (.refl s)
  have hv : Pinned u v := (pinned_sset ..).trans ((pinned_sset ..).trans (pinned_houseEnds ..))
  split
  · exact .refl s
  · exact .ite (pinned_packageCancel ..) (.refl s)
  · exact .ite (.refl s) (.ite (pinned_suppressStream ..) (pinned_rebuildStream ..))
  · exact pinned_suppressStream ..
  · refine hu.trans ?_
    split
    · exact (pinned_emitToken ..).trans (pinned_houseEnds ..)
    · exact .ite (hv.trans (pinned_turnEnds ..)) hv

theorem pinned_closeToHouse (s : State) (c : Nat) : Pinned s (s.closeToHouse c) := pinned_of_gauged (gauged_closeToHouse s c)

theorem pinned_dropStep (s : State) (suppress : Bool) (c : Nat) : Pinned s (s.dropStep suppress c) := by
  unfold State.dropStep
  extract_lets s₁ s₂ s₃
  have h₁ : Pinned s s₁ := by
    unfold s₁
    split
    · exact .ite (Pinned.foldl (fun s b => pinned_partEnds ..) _ s) (.refl s)
    · exact .refl s
  have h₂ : Pinned s s₂ := by
    unfold s₂
    exact h₁.trans ((pinned_modSeq ..).trans (pinned_closeToHouse ..))
  clear_value s₂
  have h₃ : Pinned s s₃ := h₂.trans rfl
  clear_value s₃
  exact h₃.trans rfl

/-! ### Objects and streams that a reset ends -/

theorem pinned_noteReady (s : State) (c i : Nat) : Pinned s (s.noteReady c i) := rfl

theorem pinned_warmObject (s : State) (k : Nat) : Pinned s (s.warmObject k) := by
  unfold State.warmObject
  extract_lets c i o ended u slow v w
  have hu : Pinned s u := .ite (.refl s) (pinned_setWord ..)
  refine hu.trans ?_
  split
  · exact (pinned_modObj ..).trans ((pinned_clearLeaves ..).trans (pinned_setWord ..))
  · have hslow : Pinned u slow := .ite (pinned_objLeaves ..) (.refl u)
    exact hslow.trans ((pinned_modObj ..).trans (pinned_setWord ..))
  · have hv : Pinned u v := .ite (.refl u) (pinned_objLeaves ..)
    have hw : Pinned v w := (pinned_modObj ..).trans (pinned_setWord ..)
    exact hv.trans (hw.trans ((pinned_objLeaves ..).trans (pinned_noteReady ..)))
  · exact .refl u

theorem pinned_judgeRing (s : State) : Pinned s s.judgeRing := by
  unfold State.judgeRing
  extract_lets full was marked
  have h : Pinned s marked := rfl
  exact .ite (h.trans (pinned_of_accesses (accesses_raise ..))) h

theorem pinned_putRecord (s : State) (r : EnergyRec) : Pinned s (s.putRecord r) := by
  unfold State.putRecord
  extract_lets n r' u
  have hu : Pinned s u := Pinned.trans (t := s.modGau fun g => { g with nextSeq := n + 1, ring := SMap.put {} g.ring (n % s.ringSlots) r' }) rfl
    (pinned_of_accesses (accesses_charge ..))
  split
  · exact hu.trans (pinned_bump ..)
  · exact hu.trans (pinned_bump ..)
  · exact hu

theorem pinned_emitRecord (s : State) (r : EnergyRec) : Pinned s (s.emitRecord r) := by
  unfold State.emitRecord
  refine .ite ((pinned_putRecord ..).trans (pinned_judgeRing ..)) (.ite rfl ?_)
  exact Pinned.trans (t := s.modGau fun g => { g with waiting := g.waiting ++ [r] }) rfl (pinned_judgeRing ..)

theorem pinned_retireOne (s : State) (c e : Nat) (st : Status) : Pinned s (s.retireOne c e st) := by
  unfold State.retireOne
  extract_lets s₁ s₂ s₃
  have h₂ : Pinned s s₂ := Pinned.trans (t := s₁) rfl ((pinned_emitRecord ..).trans (pinned_setSState ..))
  have h₃ : Pinned s₂ s₃ := .ite (pinned_of_accesses (accesses_faultLog ..)) (.refl s₂)
  exact h₂.trans (h₃.trans rfl)

theorem pinned_retireList (s : State) (c : Nat) (es : List Nat) : Pinned s (s.retireList c es).1 := by
  unfold State.retireList
  refine Pinned.foldl_fst (fun x e => ?_) es (s, [])
  split
  · exact .refl _
  · split
    · exact .refl _
    · split
      · exact pinned_retireOne ..
      · split
        · exact .refl _
        · exact (pinned_setSx ..).trans (pinned_bump ..)

theorem pinned_freeItems (s : State) (c : Nat) (gone : List Nat) : Pinned s (s.freeItems c gone) := by
  unfold State.freeItems
  extract_lets s₁ s₂ left s₃
  have h₁ : Pinned s s₁ := Pinned.foldl (fun s e => (pinned_dropKv s e).trans (pinned_setSx ..)) gone s
  have h₂ : Pinned s₁ s₂ := rfl
  have h₃ : Pinned s₂ s₃ := Pinned.foldl (fun s e => pinned_dropOld s e) left s₂
  exact h₁.trans (h₂.trans (h₃.trans rfl))

theorem pinned_endStreams (s : State) (scope : Option Nat) (es : List Nat) : Pinned s (s.endStreams scope es) := by
  unfold State.endStreams
  extract_lets s₁ ready
  have h₁ : Pinned s s₁ := Pinned.foldl (fun s e => .ite (.refl s) (pinned_packageCancel ..)) es s
  refine (h₁.trans (t := s₁) ?_ : Pinned s _)
  refine Pinned.trans (t := { s₁ with ready := ready }) rfl (Pinned.foldl (fun s c => ?_) _ _)
  dsimp only
  exact .ite (.refl s) ((pinned_retireList ..).trans (pinned_freeItems ..))

end Sys2Proof.Proofs
end

section
/-! Warm, device and cove resets (spec/16_host_interface_and_reset.md, R589 to R592; spec/14_security.md, Tables 14.7 and 14.8). -/
namespace Sys2Proof.Proofs
open Sys2Proof Sys2Proof.Machine Sys2Proof.Laws

/-! ### Keys -/

theorem pins_eraseKeys (s : State) (p : ModelKey → Bool) : pins (s.eraseKeys p) = { pins s with wh := (s.eraseKeys p).wh } := by
  have hhif := (steady_eraseKeys s p).hif
  have hframe := (keysLost_eraseKeys s p).frame
  generalize s.eraseKeys p = t at hhif hframe
  refine (congrArg pins hframe).trans ?_
  rw [hframe]
  unfold pins
  dsimp only
  rw [hhif]

theorem pins_loseAttested (s : State) : pins s.loseAttested = { pins s with wh := s.loseAttested.wh } := by
  have hhif := (steady_loseAttested s).hif
  have hframe := (detested_loseAttested s).frame
  generalize s.loseAttested = t at hhif hframe
  refine (congrArg pins hframe).trans ?_
  rw [hframe]
  unfold pins
  dsimp only
  rw [hhif]

/-- An erasure empties the slots that its test names, and no other. -/
theorem eraseKeys_keys (s : State) (p : ModelKey → Bool) (j : Fin 32) :
    vget none (s.eraseKeys p).wh.keys j = if (vget none s.wh.keys j).any p then none else vget none s.wh.keys j := by
  unfold State.eraseKeys
  rw [foldl_eraseKey_keys]
  by_cases h : (vget none s.wh.keys j).any p = true
  · have hheld : (vget none s.wh.keys j).isSome = true := by
      cases hk : vget none s.wh.keys j with
      | none => simp [hk] at h
      | some k => rfl
    rw [if_pos h, if_pos]
    exact List.mem_filter.mpr ⟨List.mem_filter.mpr ⟨List.mem_range.mpr j.isLt, hheld⟩, h⟩
  · rw [if_neg h]
    refine if_neg fun hj => h ?_
    exact (List.mem_filter.mp hj).2

theorem secClass_eq (x : SecState) : secClass x = if x = .attested then .sealed else x := by cases x <;> rfl

theorem sec_of_guard {s t : State} (h : Laws.guard t = Laws.guard s) (hnot : t.wh.sec ≠ .attested) :
    t.wh.sec = if s.wh.sec = .attested then .sealed else s.wh.sec := by
  have hclass : secClass t.wh.sec = secClass s.wh.sec := congrArg Guard.sec h
  rwa [secClass_eq, if_neg hnot, secClass_eq] at hclass

/-! ### The beginning of a wide reset -/

theorem pinned_ripClose (s : State) : Pinned s s.ripClose := by
  have hnotify : ∀ (u : State) (k : Nat), Pinned u (u.ripNotify k) := fun u k => .ite (pinned_of_accesses (accesses_event ..)) (.refl u)
  unfold State.ripClose
  extract_lets rip u
  have hu : Pinned s u := by
    unfold u
    split
    · exact Pinned.trans rfl (hnotify ..)
    · exact .refl s
  clear_value u
  exact hu.trans rfl

theorem pinned_closePorts (s : State) : Pinned s s.closePorts := by
  unfold State.closePorts
  extract_lets ports lnk u
  have hu : Pinned s u := rfl
  exact hu.trans (pinned_of_ported (linked_routesChanged u s).ported)

theorem pinned_sendDrainNotices (s : State) : Pinned s s.sendDrainNotices := (congrArg pins (sent_sendDrainNotices s)).trans rfl

theorem pins_wideBegin (s : State) : pins s.wideBegin = { pins s with wh := s.wideBegin.wh } := by
  have hclose := pinned_ripClose s
  unfold State.wideBegin
  dsimp only
  generalize s.ripClose = u at hclose
  split
  · have h : Pinned s u.sendDrainNotices.closePorts := hclose.trans ((pinned_sendDrainNotices u).trans (pinned_closePorts _))
    rw [h]
    exact congrArg (fun x => ({ pins s with wh := x } : Pins)) (congrArg Pins.wh h).symm
  · rw [pins_loseAttested]
    have h : Pinned s ({ u with lnk := { u.lnk with inc := (u.lnk.inc + 1) % 65536 }, bsn := { u.bsn with ssnOut := [] } } : State).closePorts :=
      Pinned.trans (Pinned.trans hclose rfl) (pinned_closePorts _)
    rw [h]

/-! ### The work that a reset halts -/

/-- What a halt of all work leaves in the engines: nothing. -/
def Halted (s : State) : Prop := (∀ i : Fin 128, vget none s.cores i = none) ∧ ∀ i : Fin 32, vget none s.atns i = none

theorem halted_haltWork (s : State) : Halted (s.haltWork none).dropBasin := by
  refine ⟨fun i => ?_, fun i => ?_⟩
  · refine (vget_map _ none s.cores i rfl).trans ?_
    cases vget none s.cores i <;> rfl
  · refine (vget_map _ none s.atns i rfl).trans ?_
    cases vget none s.atns i <;> rfl

theorem pins_haltWork (s : State) (scope : Option Nat) :
    pins (s.haltWork scope) = { pins s with cores := (s.haltWork scope).cores, atns := (s.haltWork scope).atns } := rfl

theorem Pinned.halted {s t : State} (h : Pinned s t) (hs : Halted s) : Halted t := by
  have hc : t.cores = s.cores := congrArg Pins.cores h
  have ha : t.atns = s.atns := congrArg Pins.atns h
  unfold Halted
  rw [hc, ha]
  exact hs

/-- A halt of a cove leaves no engine to it. -/
theorem haltWork_cores (s : State) (c : Nat) (i : Fin 128) (r : TileRun) (h : vget none (s.haltWork (some c)).cores i = some r) : r.cove ≠ c := by
  have hmap := (vget_map (fun x : Option TileRun => x.bind fun r => if inScope (some c) r.cove then none else some r) none s.cores i rfl).symm.trans h
  cases hx : vget none s.cores i with
  | none => simp [hx] at hmap
  | some q =>
    rw [hx] at hmap
    have hq : (if decide (q.cove = c) then none else some q) = some r := hmap
    split at hq
    · cases hq
    · next hne =>
      obtain rfl := Option.some.inj hq
      simpa using hne

/-! ### Objects -/

/-- Every listed object of a cove is FREE. -/
def ObjectsFree (s : State) (c : Nat) : Prop := ∀ x ∈ s.objs, x.1 / 16384 = c → x.2.word.state = .free

theorem mem_mapAll {α : Type} [DecidableEq α] {d : α} {f : Nat → α → α} {m : SMap α} {x : Nat × α} (h : x ∈ SMap.mapAll d f m) :
    ∃ v, (x.1, v) ∈ m ∧ x.2 = f x.1 v := by
  induction m with
  | nil => cases h
  | cons y m ih =>
    obtain ⟨k, v⟩ := y
    unfold SMap.mapAll at h
    have hrest : x ∈ SMap.mapAll d f m → ∃ w, (x.1, w) ∈ (k, v) :: m ∧ x.2 = f x.1 w := fun h =>
      let ⟨w, hw, he⟩ := ih h
      ⟨w, List.mem_cons_of_mem _ hw, he⟩
    split at h
    · exact hrest h
    · obtain rfl | h := List.mem_cons.mp h
      · exact ⟨v, List.mem_cons_self, rfl⟩
      · exact hrest h

theorem objectsFree_freeObjects (s : State) (c d : Nat) (h : d = c ∨ ObjectsFree s d) : ObjectsFree (s.freeObjects c) d := by
  intro x hx hd
  obtain ⟨v, hv, he⟩ := mem_mapAll hx
  rw [he]
  split
  · split
    · next h => exact h
    · rfl
  · next hne => exact h.elim (fun hdc => absurd (hd.trans hdc) hne) fun hfree => hfree _ hv hd

theorem clearRoot_objs (s : State) (c : Nat) : (s.clearRoot c).objs = s.objs := by
  unfold State.clearRoot
  split <;> rfl

theorem ObjectsFree.obj {s : State} {c : Nat} (h : ObjectsFree s c) (o : Fin 16384) : (s.obj c o).word.state = .free := by
  unfold State.obj
  obtain hm | hd := get_mem_or_default ({} : Obj) s.objs (16384 * c + o)
  · exact h _ hm (by omega)
  · rw [hd]

theorem objectsFree_of_range (n : Nat) (s : State) (d : Nat) (h : d < n) :
    ObjectsFree ((List.range n).foldl (fun s c => (s.freeObjects c).clearRoot c) s) d := by
  induction n with
  | zero => omega
  | succ n ih =>
    rw [List.range_succ, List.foldl_append, List.foldl_cons, List.foldl_nil]
    unfold ObjectsFree
    rw [clearRoot_objs]
    refine objectsFree_freeObjects _ n d ?_
    by_cases hd : d = n
    · exact .inl hd
    · exact .inr (ih (by omega))

theorem pinned_freeRoot (s : State) (c : Nat) : Pinned s ((s.freeObjects c).clearRoot c) := by
  unfold State.clearRoot
  split <;> rfl

/-! ### The three resets -/

/-- R533: with ATTESTED every key goes; a reset that ends it erases the keys in any case. -/
theorem eraseAfterLoss_spec (s : State) {t : State} (ht : s.loseAttested.eraseAllKeys = t) :
    pins t = { pins s with wh := t.wh } ∧ t.wh.sec ≠ .attested ∧ ∀ j, vget none t.wh.keys j = none := by
  have hsec := (detested_loseAttested s).sec
  have hpins := pins_loseAttested s
  generalize s.loseAttested = u at hsec hpins ht
  have hkeys := eraseAllKeys_keys u
  have hframe := (keysLost_eraseAllKeys u).frame
  have hpins' : pins u.eraseAllKeys = { pins u with wh := u.eraseAllKeys.wh } := pins_eraseKeys u fun _ => true
  rw [ht] at hkeys hframe hpins'
  refine ⟨hpins'.trans (by rw [hpins]), ?_, hkeys⟩
  have hkept : t.wh.sec = u.wh.sec := (congrArg (fun x => x.wh.sec) hframe).trans rfl
  rw [hkept, hsec]
  split
  · exact nofun
  · next h => exact h

/-- A wide reset once it has halted the engines. -/
def wideHalted (s : State) : State := (s.wideBegin.haltWork none).dropBasin

/-- Halted, with nothing but engines and Wellhead changed of what is pinned. -/
structure Cleared (s t : State) : Prop where
  halted : Halted t
  pins : pins t = { pins s with wh := t.wh, cores := t.cores, atns := t.atns }

theorem cleared_wideHalted (s : State) : Cleared s (wideHalted s) := by
  have hbegin := pins_wideBegin s
  unfold wideHalted
  generalize s.wideBegin = u at hbegin
  refine ⟨halted_haltWork u, ?_⟩
  have hpins : pins (u.haltWork none).dropBasin =
    { pins u with wh := (u.haltWork none).dropBasin.wh, cores := (u.haltWork none).dropBasin.cores, atns := (u.haltWork none).dropBasin.atns } := rfl
  rw [hpins, hbegin]

theorem Cleared.trans {s t u : State} (h : Cleared s t) (k : Pinned t u) : Cleared s u := by
  refine ⟨k.halted h.halted, ?_⟩
  have hwh : u.wh = t.wh := congrArg Pins.wh k
  have hc : u.cores = t.cores := congrArg Pins.cores k
  have ha : u.atns = t.atns := congrArg Pins.atns k
  rw [show Proofs.pins u = Proofs.pins t from k, h.pins, hwh, hc, ha]

theorem Cleared.now {s t : State} (h : Cleared s t) : t.now = s.now := congrArg (fun x => x.tick.toNat) h.pins

/-- What a warm reset has halted and abandoned before it touches keys and secrets. -/
def warmWork (s : State) : State :=
  let u := (List.range 8).foldl (fun s c => s.dropStep true c) (wideHalted s)
  (SMap.keys u.objs).foldl (fun s k => s.warmObject k) u

theorem cleared_warmWork (s : State) : Cleared s (warmWork s) := by
  have h := cleared_wideHalted s
  unfold warmWork
  generalize wideHalted s = v at h
  extract_lets u
  have hu : Pinned v u := Pinned.foldl (fun s c => pinned_dropStep s true c) _ v
  exact h.trans (hu.trans (Pinned.foldl (fun s k => pinned_warmObject s k) _ u))

/-- R591: what a warm reset does to the JVK block and to the requests. -/
def warmEnd (s : State) : State :=
  let s : State := { s with jvk := { s.jvk with staged := none, fwStaged := false, fwStagedRaw := [], running := none, reading := none,
                                                commitWait := false, flashWait := false } }
  let s : State := { s with hif := { s.hif with running := some ⟨.warm, 0, s.now⟩, waitingResets := [] } }
  if s.pstate = 2 ∨ s.pstate = 3 then
    { (s.toPstate 0).modWeir fun w => { w with psWant := none } with hbm := { s.hbm with selfRefresh := false } }
  else s

theorem warmNow_eq (s : State) : s.warmNow = warmEnd ((warmWork s).loseAttested.eraseAllKeys).pruneLoss := by
  unfold State.warmNow warmEnd warmWork wideHalted
  dsimp only

theorem warmEnd_spec (s : State) {t : State} (ht : warmEnd s = t) :
    t.hif = { s.hif with running := some ⟨.warm, 0, s.now⟩, waitingResets := [] } ∧ t.image = s.image ∧ t.wh = s.wh ∧ t.cores = s.cores ∧
      t.atns = s.atns ∧ t.jvk.staged = none ∧ t.epochs = s.epochs := by
  subst ht
  unfold warmEnd
  dsimp only
  split <;> exact ⟨rfl, rfl, rfl, rfl, rfl, rfl, rfl⟩

/-- R591, Tables 14.7 and 14.8: a warm reset. -/
theorem warmNow_spec (s : State) {t : State} (ht : s.warmNow = t) :
    t.hif.running = some ⟨.warm, 0, s.now⟩ ∧ t.hif.lastKind = s.hif.lastKind ∧ t.hif.lastStatus = s.hif.lastStatus ∧ t.image = s.image ∧
      (∀ j, vget none t.wh.keys j = none) ∧ t.wh.sec = (if s.wh.sec = .attested then .sealed else s.wh.sec) ∧ t.debug = s.debug ∧ Halted t ∧
      t.jvk.staged = none ∧ t.fuses = s.fuses ∧ t.epochs = s.epochs := by
  have hguard : Laws.guard t = Laws.guard s := ht ▸ guard_warmNow s
  rw [warmNow_eq] at ht
  obtain ⟨hhalted, hwork⟩ := cleared_warmWork s
  obtain ⟨hpins, hsec, hkeys⟩ := eraseAfterLoss_spec (warmWork s) rfl
  generalize warmWork s = u at hhalted hwork hpins hsec hkeys ht
  generalize u.loseAttested.eraseAllKeys = v at hpins hsec hkeys ht
  obtain ⟨hhif, himage, hwh, hcores, hatns, hstaged, hepochs⟩ := warmEnd_spec v.pruneLoss ht
  have hv : pins v = { pins s with wh := v.wh, cores := u.cores, atns := u.atns } := hpins.trans (by rw [hwork])
  have hnow : v.now = s.now := congrArg (fun x => x.tick.toNat) hv
  refine ⟨?_, ?_, ?_, ?_, fun j => ?_, sec_of_guard hguard ?_, congrArg Guard.debug hguard, ⟨fun i => ?_, fun i => ?_⟩, hstaged, congrArg Guard.fuses hguard, ?_⟩
  · exact (congrArg Hif.running hhif).trans (congrArg (fun n => some (⟨.warm, 0, n⟩ : ResetRun)) hnow)
  · exact (congrArg Hif.lastKind hhif).trans (congrArg (fun x => x.hif.lastKind) hv)
  · exact (congrArg Hif.lastStatus hhif).trans (congrArg (fun x => x.hif.lastStatus) hv)
  · exact himage.trans (congrArg (fun x => x.jvk.inForce) hv)
  · rw [hwh]
    exact hkeys j
  · rw [hwh]
    exact hsec
  · rw [hcores]
    exact (congrArg (fun x => vget none x.cores i.val) hv).trans (hhalted.1 i)
  · rw [hatns]
    exact (congrArg (fun x => vget none x.atns i.val) hv).trans (hhalted.2 i)
  · exact hepochs.trans (congrArg Pins.epochs hv)

/-- What a device reset has halted and abandoned before it touches keys and epochs. -/
def deviceWork (s : State) : State :=
  let u := (List.range 8).foldl (fun s c => s.dropStep false c) (wideHalted s)
  let v := u.endStreams none (u.endedStreams none)
  (List.range 8).foldl (fun s c => (s.freeObjects c).clearRoot c) v

theorem deviceWork_spec (s : State) : Cleared s (deviceWork s) ∧ ∀ c, c < 8 → ObjectsFree (deviceWork s) c := by
  have h := cleared_wideHalted s
  unfold deviceWork
  generalize wideHalted s = w at h
  extract_lets u v
  have hu : Pinned w u := Pinned.foldl (fun s c => pinned_dropStep s false c) _ w
  have hv : Pinned u v := pinned_endStreams ..
  exact ⟨h.trans (hu.trans (hv.trans (Pinned.foldl (fun s c => pinned_freeRoot s c) _ v))), fun c hc => objectsFree_of_range 8 v c hc⟩

/-- R591: what a device reset does to epochs, keys, Meres and counters. -/
def deviceEnd (s : State) : State :=
  ({ ((s.nextEpochs.eraseAllKeys).zeroMeres).pruneLoss with arrival := [] } : State).modHif fun h =>
    { h with running := some ⟨.device, 0, (((s.nextEpochs.eraseAllKeys).zeroMeres).pruneLoss).now⟩ }

theorem deviceNow_eq (s : State) : s.deviceNow = deviceEnd (deviceWork s) := by
  unfold State.deviceNow deviceEnd deviceWork wideHalted
  rfl

theorem deviceEnd_spec (s : State) {t : State} (ht : deviceEnd s = t) :
    t.hif.running = some ⟨.device, 0, s.now⟩ ∧ t.image = s.image ∧ t.epochs = s.epochs.map (fun e => (e + 1) % 0x1000000000000) ∧ t.arrival = [] ∧
      (∀ j, vget none t.wh.keys j = none) ∧ t.objs = s.objs ∧ t.cores = s.cores := by
  have hkeys := eraseAllKeys_keys s.nextEpochs
  have hframe := (keysLost_eraseAllKeys s.nextEpochs).frame
  unfold deviceEnd at ht
  generalize s.nextEpochs.eraseAllKeys = u at hkeys hframe ht
  have hnow : u.now = s.now := (congrArg State.now hframe).trans rfl
  subst ht
  refine ⟨congrArg (fun n => some (⟨.device, 0, n⟩ : ResetRun)) hnow, (congrArg (fun x => x.jvk.inForce) hframe).trans rfl,
    (congrArg State.epochs hframe).trans rfl, rfl, hkeys, (congrArg State.objs hframe).trans rfl, (congrArg State.cores hframe).trans rfl⟩

/-- R591: a device reset. -/
theorem deviceNow_spec (s : State) {t : State} (ht : s.deviceNow = t) :
    t.hif.running = some ⟨.device, 0, s.now⟩ ∧ t.image = s.image ∧ t.epochs = s.epochs.map (fun e => (e + 1) % 0x1000000000000) ∧ t.arrival = [] ∧
      (∀ j : Fin 32, vget none t.wh.keys j = none) ∧ (∀ (c : Fin 8) (o : Fin 16384), (t.obj c o).word.state = .free) ∧
      (∀ i : Fin 128, vget none t.cores i = none) ∧ t.fuses = s.fuses := by
  have hguard : Laws.guard t = Laws.guard s := ht ▸ guard_deviceNow s
  rw [deviceNow_eq] at ht
  obtain ⟨hwork, hfree⟩ := deviceWork_spec s
  generalize deviceWork s = u at hwork hfree ht
  obtain ⟨hrun, himage, hepochs, harrival, hkeys, hobjs, hcores⟩ := deviceEnd_spec u ht
  refine ⟨hrun.trans (congrArg (fun n => some (⟨.device, 0, n⟩ : ResetRun)) hwork.now), himage.trans (congrArg (fun x => x.jvk.inForce) hwork.pins),
    hepochs.trans (congrArg (fun x => x.epochs.map fun e => (e + 1) % 0x1000000000000) hwork.pins), harrival, fun j => hkeys j, fun c o => ?_, fun i => ?_,
    congrArg Guard.fuses hguard⟩
  · refine ObjectsFree.obj ?_ o
    unfold ObjectsFree
    rw [hobjs]
    exact hfree c c.isLt
  · rw [hcores]
    exact hwork.halted.1 i

/-- What a reset of a cove has halted and abandoned before it touches its keys and epoch. -/
def coveWork (s : State) (c : Nat) : State :=
  let u := ((s.haltWork (some c)).orphanBasin c).dropStep false c
  let v := u.endStreams (some c) (u.endedStreams (some c))
  (v.freeObjects c).clearRoot c

theorem coveWork_spec (s : State) (c : Nat) : pins (coveWork s c) = { pins s with cores := (coveWork s c).cores, atns := (coveWork s c).atns } ∧
    (coveWork s c).cores = (s.haltWork (some c)).cores ∧ ObjectsFree (coveWork s c) c := by
  have h : pins ((s.haltWork (some c)).orphanBasin c) = { pins s with cores := (s.haltWork (some c)).cores, atns := (s.haltWork (some c)).atns } := rfl
  unfold coveWork
  generalize (s.haltWork (some c)).orphanBasin c = w at h
  extract_lets u v
  have hu : Pinned w u := pinned_dropStep ..
  have hv : Pinned u v := pinned_endStreams ..
  have hall : Pinned w ((v.freeObjects c).clearRoot c) := hu.trans (hv.trans (pinned_freeRoot ..))
  have hpins : pins ((v.freeObjects c).clearRoot c) = _ := Eq.trans hall h
  refine ⟨?_, congrArg Pins.cores hpins, ?_⟩
  · rw [show ((v.freeObjects c).clearRoot c).cores = _ from congrArg Pins.cores hpins, show ((v.freeObjects c).clearRoot c).atns = _ from congrArg Pins.atns hpins]
    exact hpins
  · unfold ObjectsFree
    rw [clearRoot_objs]
    exact objectsFree_freeObjects v c c (.inl rfl)

/-- R592, R516: what a reset of a cove does to its epoch, keys, Meres and counters. -/
def coveEnd (s : State) (c : Nat) : State :=
  (((s.nextEpoch c).eraseCoveKeys c).zeroMereOf c).clearArrival c

theorem coveNow_eq (s : State) (c : Nat) : s.coveNow c =
    (coveEnd (coveWork s c) c).pruneLoss.modHif fun h => { h with running := some ⟨.cove, c, (coveEnd (coveWork s c) c).now⟩ } := by
  unfold State.coveNow coveEnd coveWork
  rfl

theorem coveEnd_spec (s : State) {c : Nat} (hc : c < 8) {t : State} (ht : coveEnd s c = t) :
    t.now = s.now ∧ t.image = s.image ∧
      (∀ d, vget 0 t.epochs d = if d = c then (vget 0 s.epochs d + 1) % 0x1000000000000 else vget 0 s.epochs d) ∧
      (∀ j : Fin 32, vget none t.wh.keys j = if (vget none s.wh.keys j).any (fun k => decide (k.cove = c)) then none else vget none s.wh.keys j) ∧
      t.objs = s.objs ∧ t.cores = s.cores := by
  have hkeys := eraseKeys_keys (s.nextEpoch c) fun k => decide (k.cove = c)
  have hframe := (keysLost_eraseKeys (s.nextEpoch c) fun k => decide (k.cove = c)).frame
  unfold coveEnd State.eraseCoveKeys at ht
  generalize (s.nextEpoch c).eraseKeys _ = u at hkeys hframe ht
  have hclear : t.tick = u.tick ∧ t.jvk = u.jvk ∧ t.epochs = u.epochs ∧ t.wh = u.wh ∧ t.objs = u.objs ∧ t.cores = u.cores := by
    subst ht
    unfold State.clearArrival
    split <;> exact ⟨rfl, rfl, rfl, rfl, rfl, rfl⟩
  obtain ⟨htick, hjvk, hepochs, hwh, hobjs, hcores⟩ := hclear
  refine ⟨(congrArg BitVec.toNat htick).trans ((congrArg State.now hframe).trans rfl), (congrArg Jvk.inForce hjvk).trans ((congrArg State.image hframe).trans rfl),
    fun d => ?_, fun j => ?_, hobjs.trans ((congrArg State.objs hframe).trans rfl), hcores.trans ((congrArg State.cores hframe).trans rfl)⟩
  · rw [hepochs, show u.epochs = vmod s.epochs c (fun e => (e + 1) % 0x1000000000000) from (congrArg State.epochs hframe).trans rfl]
    by_cases hd : d = c
    · rw [if_pos hd, hd]
      exact vget_vmod_self _ _ _ _ hc
    · rw [if_neg hd]
      exact vget_vmod_ne _ _ _ _ _ hd
  · rw [hwh]
    exact hkeys j

/-- R592: a reset of a cove. -/
theorem coveNow_spec (s : State) (c : Fin 8) {t : State} (ht : s.coveNow c = t) :
    t.hif.running = some ⟨.cove, c, s.now⟩ ∧ t.image = s.image ∧
      (∀ d : Fin 8, vget 0 t.epochs d = if d = c then (vget 0 s.epochs d + 1) % 0x1000000000000 else vget 0 s.epochs d) ∧
      (∀ j : Fin 32, vget none t.wh.keys j = if (vget none s.wh.keys j).any (fun k => decide (k.cove = c.val)) then none else vget none s.wh.keys j) ∧
      (∀ o : Fin 16384, (t.obj c o).word.state = .free) ∧ (∀ i : Fin 128, ∀ r, vget none t.cores i = some r → r.cove ≠ c.val) ∧ t.fuses = s.fuses := by
  have hguard : Laws.guard t = Laws.guard s := ht ▸ guard_coveNow s c
  rw [coveNow_eq] at ht
  obtain ⟨hpins, hcores, hfree⟩ := coveWork_spec s c
  generalize coveWork s c = u at hpins hcores hfree ht
  obtain ⟨hnow, himage, hepochs, hkeys, hobjs, hcores'⟩ := coveEnd_spec u c.isLt rfl
  generalize coveEnd u c = v at hnow himage hepochs hkeys hobjs hcores' ht
  have hunow : u.now = s.now := congrArg (fun x => x.tick.toNat) hpins
  have huepochs : u.epochs = s.epochs := congrArg Pins.epochs hpins
  have huwh : u.wh = s.wh := congrArg Pins.wh hpins
  subst ht
  refine ⟨congrArg (fun n => some (⟨.cove, c, n⟩ : ResetRun)) (hnow.trans hunow), himage.trans (congrArg (fun x => x.jvk.inForce) hpins), fun d => ?_,
    fun j => ?_, fun o => ?_, fun i r hr => ?_, congrArg Guard.fuses hguard⟩
  · refine (hepochs d).trans ?_
    rw [huepochs]
    simp only [Fin.ext_iff]
  · refine (hkeys j).trans ?_
    rw [huwh]
  · refine ObjectsFree.obj (s := v) ?_ o
    unfold ObjectsFree
    rw [hobjs]
    exact hfree
  · refine haltWork_cores s c i r ?_
    rw [← hcores, ← hcores']
    exact hr

/-! ### What starts a reset -/

theorem beginReset_of_idle {s : State} (k : ResetKind) (n : Nat) (hrun : s.hif.running = none) (hjvk : s.jvk.running = none ∨ k = .warm) :
    s.beginReset k n = s.startReset ⟨k, n, s.now⟩ := by
  refine if_neg ?_
  unfold State.mustWait
  obtain h | rfl := hjvk
  · simp [hrun, h]
  · simp [hrun]

theorem resetRefusal_of_busy {s : State} (k : ResetKind) (h : s.resetBusy = true) : s.resetRefusal k.code = some .busy := by
  have hkind : ¬(k.code = 0 ∨ 6 < k.code) := by cases k <;> decide
  rw [State.resetRefusal, if_neg hkind, if_pos h]

theorem resetRefusal_of_stopped {s : State} (k : ResetKind) (hcold : k ≠ .cold) (hfree : s.resetBusy = false) (h : s.stopped = true) :
    s.resetRefusal k.code = some .targetStopped := by
  have hkind : ¬(k.code = 0 ∨ 6 < k.code) := by cases k <;> decide
  have hcode : k.code ≠ 1 := by
    cases k with
    | cold => exact absurd rfl hcold
    | _ => decide
  rw [State.resetRefusal, if_neg hkind, if_neg (by rw [hfree]; exact Bool.false_ne_true), if_pos ⟨h, hcode⟩]

theorem flr_of_free {s : State} (fn : Fin 9) (h : s.resetsFree = true) :
    s.flr fn = if fn.val = 0 then s.beginReset .device 0 else s.beginReset .cove (fn - 1) := by
  obtain ⟨hp, hheld, hrun, hwait, hstop⟩ := resetsFree_iff.mp h
  unfold State.flr
  rw [hrun, hwait]
  exact if_neg (by simp [hp, hheld, hstop])

theorem perst_of_running {s : State} (hp : s.pstate ≠ 4) (hheld : s.hif.heldInReset = false) (hstop : s.stopped = false)
    (hrun : ∀ r, s.hif.running = some r → r.kind ≠ .warm) : s.perst = s.warmNow := by
  refine if_neg ?_
  cases h : s.hif.running with
  | none => simp [hp, hheld, hstop]
  | some r => simp [hp, hheld, hstop, hrun r h]

theorem exec_warmReset {s : State} (hfree : s.resetsFree = true) : exec .warmReset s = .next (s.resetStat 2 .done).warmNow := by
  obtain ⟨hp, hheld, hrun, -⟩ := resetsFree_iff.mp hfree
  refine next_of_request (k := .warm) hp hheld (resetRefusal_of_resetsFree .warm hfree) ?_
  exact beginReset_of_idle (s := s.resetStat 2 .done) .warm 0 hrun (.inr rfl)

theorem exec_perst {s : State} (h : s.perst = s.warmNow) : exec .perst s = .next s.warmNow := congrArg Host.Outcome.next h

theorem exec_deviceReset {s : State} (hfree : s.resetsFree = true) (hjvk : s.jvk.running = none) :
    ∀ i ∈ ([.deviceReset, .flr 0] : List Instr), exec i s = .next (s.resetStat 3 .done).deviceNow ∨ exec i s = .next s.deviceNow := by
  obtain ⟨hp, hheld, hrun, -⟩ := resetsFree_iff.mp hfree
  intro i hi
  obtain rfl | hi := List.mem_cons.mp hi
  · refine .inl (next_of_request (k := .device) hp hheld (resetRefusal_of_resetsFree .device hfree) ?_)
    exact beginReset_of_idle (s := s.resetStat 3 .done) .device 0 hrun (.inl hjvk)
  · obtain rfl := List.mem_singleton.mp hi
    exact .inr (congrArg Host.Outcome.next ((flr_of_free 0 hfree).trans (beginReset_of_idle .device 0 hrun (.inl hjvk))))

theorem exec_coveReset {s : State} (c : Fin 8) (hfree : s.resetsFree = true) (hjvk : s.jvk.running = none) :
    ∀ i ∈ ([.coveReset (BitVec.ofNat 8 c), .flr c.succ] : List Instr),
      exec i s = .next ((s.resetStat 4 .done).coveNow c) ∨ exec i s = .next (s.coveNow c) := by
  obtain ⟨hp, hheld, hrun, -⟩ := resetsFree_iff.mp hfree
  intro i hi
  obtain rfl | hi := List.mem_cons.mp hi
  · have hc : (BitVec.ofNat 8 c.val).toNat = c.val := by
      rw [BitVec.toNat_ofNat]
      omega
    refine .inl (next_of_request (k := .cove) hp hheld (resetRefusal_of_resetsFree .cove hfree) ?_)
    rw [hc, if_neg (by omega)]
    exact beginReset_of_idle (s := s.resetStat 4 .done) .cove c hrun (.inl hjvk)
  · obtain rfl := List.mem_singleton.mp hi
    exact .inr (congrArg Host.Outcome.next
      ((flr_of_free c.succ hfree).trans ((if_neg (Nat.succ_ne_zero _)).trans (beginReset_of_idle .cove c hrun (.inl hjvk)))))

/-- Settles O59: each reset halts the engines first, touches what its rows of the tables name, and keeps the rest. -/
theorem warmDeviceAndCoveResets : Obligations.WarmDeviceAndCoveResets := by
  unfold Obligations.WarmDeviceAndCoveResets
  refine ⟨fun s hfree => ?_, fun s hp hheld hstop hrun => ?_, fun s hfree hjvk i hi => ?_, fun s c hfree hjvk i hi => ?_,
    fun s hp hheld hbusy => ?_, fun s hp hheld hidle hstop => ?_, fun s seven hp hheld => congrArg _ (if_neg (by simp [hp, hheld]))⟩
  · obtain ⟨h₁, h₂, h₃, h₄, h₅, h₆, h₇, ⟨h₈, h₉⟩, h₁₀, h₁₁, h₁₂⟩ := warmNow_spec (s.resetStat 2 .done) rfl
    exact ⟨_, exec_warmReset hfree, h₁, h₂, h₃, h₄, fun j => h₅ j, h₆, h₇, h₈, h₉, h₁₀, h₁₁, h₁₂⟩
  · obtain ⟨h₁, -, -, h₄, h₅, -, -, ⟨h₈, -⟩, -⟩ := warmNow_spec s rfl
    exact ⟨_, exec_perst (perst_of_running hp hheld hstop hrun), h₁, h₄, fun j => h₅ j, h₈⟩
  · obtain hexec | hexec := exec_deviceReset hfree hjvk i hi
    · exact ⟨_, hexec, deviceNow_spec (s.resetStat 3 .done) rfl⟩
    · exact ⟨_, hexec, deviceNow_spec s rfl⟩
  · obtain hexec | hexec := exec_coveReset c hfree hjvk i hi
    · exact ⟨_, hexec, coveNow_spec (s.resetStat 4 .done) c rfl⟩
    · exact ⟨_, hexec, coveNow_spec s c rfl⟩
  · have hrefused : ∀ (k : ResetKind) (f : State → State), (Host.Outcome.next (s.requestReset k f) : Host.Outcome State Fault Refusal) = .next (s.resetStat k.code .busy) :=
      fun k f => next_of_refused f hp hheld (resetRefusal_of_busy k hbusy)
    exact ⟨hrefused .warm _, hrefused .device _, fun _ => hrefused .cove _, fun _ => hrefused .engine _, fun _ => hrefused .port _⟩
  · exact ⟨next_of_refused _ hp hheld (resetRefusal_of_stopped .warm nofun hidle hstop), next_of_refused _ hp hheld (resetRefusal_of_stopped .device nofun hidle hstop),
      congrArg _ (if_pos (.inr (.inr (.inl hstop)))), fun _ => congrArg _ (if_pos (.inr (.inr (.inl hstop))))⟩

end Sys2Proof.Proofs
end

section
/-! The energy of a pool and who it goes to (spec/12_energy_gauge.md, R464, R469). -/
namespace Sys2Proof.Proofs
open Sys2Proof Sys2Proof.Machine Sys2Proof.Laws

/-! ### Sums -/

theorem sum_modNth_add (l : List Nat) {i : Nat} (a : Nat) (h : i < l.length) : (modNth l i (· + a)).sum = l.sum + a := by
  induction l generalizing i with
  | nil => cases h
  | cons x l ih =>
    cases i with
    | zero => exact (congrArg (· + l.sum) (Nat.add_comm x a)).trans (by rw [List.sum_cons]; omega)
    | succ i =>
      have := ih (i := i) (by simpa using h)
      unfold modNth at this ⊢
      rw [List.modify_succ_cons, List.sum_cons, List.sum_cons, this]
      omega

/-- What a canonical table of amounts holds. -/
def held (m : SMap Nat) : Nat := (m.map Prod.snd).sum

theorem held_cons (k v : Nat) (m : SMap Nat) : held ((k, v) :: m) = v + held m := List.sum_cons

theorem held_erase {m : SMap Nat} {lo : Nat} (h : SMap.wfFrom 0 lo m = true) (a : Nat) : held (SMap.erase m a) + SMap.get 0 m a = held m := by
  induction m generalizing lo with
  | nil => rfl
  | cons x m ih =>
    obtain ⟨k, v⟩ := x
    simp only [SMap.wfFrom, Bool.and_eq_true, decide_eq_true_eq] at h
    obtain ⟨-, hrest⟩ := h
    have ih := ih hrest
    unfold SMap.erase at ih ⊢
    rw [SMap.get, held_cons]
    by_cases hk : k = a
    · have hnone : SMap.get 0 m a = 0 := get_of_below 0 m hrest (by omega)
      rw [if_pos hk, List.filter_cons_of_neg (by simpa using hk)]
      omega
    · rw [if_neg hk, List.filter_cons_of_pos (by simpa using hk), held_cons]
      omega

theorem held_insert {m : SMap Nat} {lo : Nat} (h : SMap.wfFrom 0 lo m = true) (a v : Nat) : held (SMap.insert m a v) + SMap.get 0 m a = held m + v := by
  induction m generalizing lo with
  | nil => exact Nat.add_comm v 0
  | cons x m ih =>
    obtain ⟨k, w⟩ := x
    simp only [SMap.wfFrom, Bool.and_eq_true, decide_eq_true_eq] at h
    obtain ⟨-, hrest⟩ := h
    have ih := ih hrest
    unfold SMap.insert
    rw [SMap.get, held_cons]
    by_cases hlt : a < k
    · have hnone : SMap.get 0 m a = 0 := get_of_below 0 m hrest (by omega)
      rw [if_pos hlt, if_neg (by omega), held_cons, held_cons]
      omega
    · rw [if_neg hlt]
      by_cases hk : a = k
      · rw [if_pos hk, if_pos hk.symm, held_cons]
        omega
      · rw [if_neg hk, if_neg (Ne.symm hk), held_cons]
        omega

/-- A canonical table gains what is added to one of its entries. -/
theorem held_upd_add {m : SMap Nat} (h : SMap.wf 0 m = true) (k a : Nat) : held (SMap.upd 0 m k (· + a)) = held m + a := by
  unfold SMap.upd SMap.put
  dsimp only
  split
  · next hz =>
    have := held_erase h k
    omega
  · have := held_insert h k (SMap.get 0 m k + a)
    omega

/-- Rounded down one by one, shares of an amount never exceed it. -/
theorem sum_div_le (e n : Nat) (l : List Nat) : (l.map fun q => e * q / n).sum ≤ e * l.sum / n := by
  induction l with
  | nil => exact Nat.zero_le _
  | cons q l ih =>
    rw [List.map_cons, List.sum_cons, List.sum_cons, Nat.mul_add]
    exact (Nat.add_le_add_left ih _).trans Nat.div_add_div_le_add_div

/-! ### Credits -/

/-- What the accounts of a close hold: houses of the coves, residues, streams and remote keys. -/
def ledger (x : State × SMap Nat) : Nat := x.1.gau.houseCove.sum + x.1.gau.residue.sum + x.1.gau.coveUj.sum + held x.2

/-- The accounts of eight coves, and remote keys in canonical form. -/
structure Booked (x : State × SMap Nat) : Prop where
  house : x.1.gau.houseCove.length = 8
  residue : x.1.gau.residue.length = 8
  streams : x.1.gau.coveUj.length = 8
  remote : SMap.wf 0 x.2 = true

/-- Credits of an amount in all: the accounts gain it, the pools and the totals stay. -/
structure Credited (a : Nat) (x y : State × SMap Nat) : Prop where
  booked : Booked y
  gained : ledger y = ledger x + a
  total : y.1.gau.total = x.1.gau.total
  acc : y.1.gau.acc = x.1.gau.acc
  pkg : y.1.gau.housePkg = x.1.gau.housePkg

theorem Credited.refl {x : State × SMap Nat} (h : Booked x) : Credited 0 x x := ⟨h, rfl, rfl, rfl, rfl⟩

theorem Credited.trans {a b : Nat} {x y z : State × SMap Nat} (h : Credited a x y) (k : Credited b y z) : Credited (a + b) x z :=
  ⟨k.booked, k.gained.trans ((congrArg (· + b) h.gained).trans (Nat.add_assoc ..)), k.total.trans h.total, k.acc.trans h.acc, k.pkg.trans h.pkg⟩

theorem lossCredit_gau (s : State) (key a : Nat) : (s.lossCredit key a).gau = s.gau := by
  unfold State.lossCredit State.modLossRec
  repeat' split
  all_goals rfl

/-- A credit to the house account of a cove. -/
theorem credited_house {s : State} {m : SMap Nat} (h : Booked (s, m)) {c : Nat} (hc : c < 8) (a : Nat) {t : State}
    (ht : t.gau = { s.gau with houseCove := modNth s.gau.houseCove c (· + a) }) : Credited a (s, m) (t, m) := by
  have hsum := sum_modNth_add s.gau.houseCove a (hc.trans_eq h.house.symm)
  refine ⟨⟨?_, ?_, ?_, h.remote⟩, ?_, ?_, ?_, ?_⟩
  · exact (congrArg (fun g => g.houseCove.length) ht).trans ((length_modNth ..).trans h.house)
  · exact (congrArg (fun g => g.residue.length) ht).trans h.residue
  · exact (congrArg (fun g => g.coveUj.length) ht).trans h.streams
  · unfold ledger
    dsimp only
    rw [ht]
    dsimp only
    omega
  · exact (congrArg Gau.total ht).trans rfl
  · exact (congrArg Gau.acc ht).trans rfl
  · exact (congrArg Gau.housePkg ht).trans rfl

/-- One participant's credit reaches exactly one account. -/
theorem credited_creditTo {x : State × SMap Nat} (h : Booked x) {c : Nat} (hc : c < 8) (key a : Nat) : Credited a x (x.1.creditTo c key a x.2) := by
  obtain ⟨s, m⟩ := x
  unfold State.creditTo
  split
  · have hsum := sum_modNth_add s.gau.coveUj a (hc.trans_eq h.streams.symm)
    refine ⟨⟨h.house, h.residue, (length_modNth ..).trans h.streams, h.remote⟩, ?_, rfl, rfl, rfl⟩
    show s.gau.houseCove.sum + s.gau.residue.sum + (modNth s.gau.coveUj c (· + a)).sum + held m = ledger (s, m) + a
    unfold ledger
    dsimp only
    omega
  · split
    · exact credited_house h hc a (lossCredit_gau _ key a)
    · have hheld := held_upd_add h.remote key a
      refine ⟨⟨h.house, h.residue, h.streams, wf_upd 0 m key (· + a) h.remote⟩, ?_, rfl, rfl, rfl⟩
      unfold ledger
      dsimp only at hheld ⊢
      omega

/-- One participant of a pool takes its share, and the sum of the shares is kept. -/
def shared (e n c : Nat) (x : State × SMap Nat × Nat) (q : Nat × Nat) : State × SMap Nat × Nat :=
  let y := x.1.creditTo c q.1 (e * q.2 / n) x.2.1
  (y.1, y.2, x.2.2 + e * q.2 / n)

theorem credited_shared {c : Nat} (hc : c < 8) (e n : Nat) (l : SMap Nat) (x : State × SMap Nat × Nat) (h : Booked (x.1, x.2.1)) :
    Credited ((l.map fun q => e * q.2 / n).sum) (x.1, x.2.1) ((l.foldl (shared e n c) x).1, (l.foldl (shared e n c) x).2.1) ∧
      (l.foldl (shared e n c) x).2.2 = x.2.2 + (l.map fun q => e * q.2 / n).sum := by
  induction l generalizing x with
  | nil => exact ⟨.refl h, rfl⟩
  | cons q l ih =>
    have hone := credited_creditTo h hc q.1 (e * q.2 / n)
    obtain ⟨hrest, hgiven⟩ := ih (shared e n c x q) hone.booked
    rw [List.foldl_cons, List.map_cons, List.sum_cons]
    refine ⟨hone.trans hrest, hgiven.trans ?_⟩
    show x.2.2 + e * q.2 / n + _ = _
    omega

/-! ### The close of a pool -/

/-- The pool after its whole microjoules have left it. -/
def emptied (s : State) (k : Nat) : State :=
  s.modGau fun g => { g with acc := SMap.put 0 g.acc k (SMap.get 0 s.gau.acc k % guPerUj), total := g.total + SMap.get 0 s.gau.acc k / guPerUj }

/-- Without shares the house of the cove takes all; else the participants take their shares and the residue account the rest. -/
theorem closePool_eq (s : State) (c p : Nat) (shares remote : SMap Nat) : s.closePool c p shares remote =
    let e := SMap.get 0 s.gau.acc (11 * c + p) / guPerUj
    let n := (shares.map Prod.snd).sum
    let u := emptied s (11 * c + p)
    if n = 0 then (u.modGau fun g => { g with houseCove := modNth g.houseCove c (· + e) }, remote)
    else
      let y := shares.foldl (shared e n c) (u, remote, 0)
      (y.1.modGau fun g => { g with residue := modNth g.residue c (· + (e - y.2.2)) }, y.2.1) := rfl

/-- The accounts gain what the pool has lost. -/
theorem closePool_credited {s : State} {remote : SMap Nat} (h : Booked (s, remote)) (c : Cove) (p : Nat) (shares : SMap Nat) :
    Credited (SMap.get 0 s.gau.acc (11 * c.val + p) / guPerUj) (emptied s (11 * c.val + p), remote) (s.closePool c p shares remote) := by
  have hu : Booked (emptied s (11 * c.val + p), remote) := ⟨h.house, h.residue, h.streams, h.remote⟩
  rw [closePool_eq]
  extract_lets e n u y
  split
  · exact credited_house hu c.isLt e rfl
  · next hn =>
    show Credited e (u, remote) _
    obtain ⟨hshared, hgiven⟩ := credited_shared c.isLt e n shares (u, remote, 0) hu
    have hle : (shares.map fun q => e * q.2 / n).sum ≤ e := by
      have := sum_div_le e n (shares.map Prod.snd)
      rwa [List.map_map, Nat.mul_div_cancel _ (Nat.pos_of_ne_zero hn)] at this
    change Credited _ (u, remote) (y.1, y.2.1) at hshared
    change y.2.2 = 0 + _ at hgiven
    clear_value y
    have hsum := sum_modNth_add y.1.gau.residue (e - y.2.2) (c.isLt.trans_eq hshared.booked.residue.symm)
    refine ⟨⟨hshared.booked.house, (length_modNth ..).trans hshared.booked.residue, hshared.booked.streams, hshared.booked.remote⟩, ?_, hshared.total,
      hshared.acc, hshared.pkg⟩
    have hgained := hshared.gained
    unfold ledger at hgained ⊢
    dsimp only at hgained ⊢
    show y.1.gau.houseCove.sum + (modNth y.1.gau.residue c (· + (e - y.2.2))).sum + y.1.gau.coveUj.sum + held y.2.1 = _
    omega

/-- Settles O43: what leaves the pool is credited in full, the part that rounding leaves to the residue account. -/
theorem closingAPoolConservesEnergy : Obligations.ClosingAPoolConservesEnergy := by
  unfold Obligations.ClosingAPoolConservesEnergy
  intro s c p shares remote hp hhouse hresidue hstreams hremote r
  have h := closePool_credited ⟨hhouse, hresidue, hstreams, hremote⟩ c p shares
  have htotal : r.1.gau.total = s.gau.total + SMap.get 0 s.gau.acc (11 * c.val + p) / guPerUj := h.total
  have hgained : r.1.gau.houseCove.sum + r.1.gau.residue.sum + r.1.gau.coveUj.sum + held r.2 =
    s.gau.houseCove.sum + s.gau.residue.sum + s.gau.coveUj.sum + held remote + SMap.get 0 s.gau.acc (11 * c.val + p) / guPerUj := h.gained
  refine ⟨?_, htotal, ?_, h.pkg⟩
  · unfold held at hgained
    omega
  · rw [show r.1.gau.acc = _ from h.acc]
    exact get_put_self ..

end Sys2Proof.Proofs
end

section
/-! Batches of energy records and their release (spec/12_energy_gauge.md, R470 to R476, Tables 12.4 and 12.9). -/
namespace Sys2Proof.Proofs
open Sys2Proof Sys2Proof.Machine Sys2Proof.Laws

/-! ### Writing the records that wait -/

/-- Batches, pointers and event bits stay while records are written. -/
structure Flushing (s t : State) : Prop where
  batches : t.gau.batches = s.gau.batches
  recRelease : t.gau.recRelease = s.gau.recRelease
  flags : t.flags = s.flags

theorem Flushing.refl (s : State) : Flushing s s := ⟨rfl, rfl, rfl⟩

theorem Flushing.trans {s t u : State} (h : Flushing s t) (k : Flushing t u) : Flushing s u :=
  ⟨k.batches.trans h.batches, k.recRelease.trans h.recRelease, k.flags.trans h.flags⟩

theorem flushing_charge (s : State) (res sub act n : Nat) : Flushing s (s.charge res sub act n) := by
  have h := charge_frame s res sub act n
  exact ⟨(congrArg (fun x => x.gau.batches) h).trans rfl, (congrArg (fun x => x.gau.recRelease) h).trans rfl, (congrArg State.flags h).trans rfl⟩

theorem flushing_putRecord (s : State) (r : EnergyRec) : Flushing s (s.putRecord r) := by
  unfold State.putRecord
  extract_lets n r' u
  have hu : Flushing s u := Flushing.trans (t := s.modGau fun g => { g with nextSeq := n + 1, ring := SMap.put {} g.ring (n % s.ringSlots) r' })
    ⟨rfl, rfl, rfl⟩ (flushing_charge ..)
  split
  · exact hu.trans ⟨rfl, rfl, rfl⟩
  · exact hu.trans ⟨rfl, rfl, rfl⟩
  · exact hu

/-- STAT.RING_FULL and a signal are all that the judgement of the ring changes. -/
theorem judgeRing_spec (s : State) : Flushing s s.judgeRing ∧ s.judgeRing.gau.ring = s.gau.ring ∧ s.judgeRing.gau.nextSeq = s.gau.nextSeq := by
  unfold State.judgeRing
  extract_lets full was marked
  have hgau : (marked.raise 0 5).gau = marked.gau := (congrArg State.gau (signals_raise marked 0 5)).trans rfl
  split
  · exact ⟨⟨(congrArg Gau.batches hgau).trans rfl, (congrArg Gau.recRelease hgau).trans rfl, raise_flags ..⟩, (congrArg Gau.ring hgau).trans rfl,
      (congrArg Gau.nextSeq hgau).trans rfl⟩
  · exact ⟨⟨rfl, rfl, rfl⟩, rfl, rfl⟩

theorem flushing_flushRecords (n : Nat) (s : State) : Flushing s (State.flushRecords n s) := by
  induction n generalizing s with
  | zero => exact .refl s
  | succ n ih =>
    unfold State.flushRecords
    split
    · exact .refl s
    · next r rest _ =>
      split
      · exact Flushing.trans (t := s.modGau fun g => { g with waiting := rest }) ⟨rfl, rfl, rfl⟩ ((flushing_putRecord ..).trans (ih _))
      · exact .refl s

theorem flushing_flush (s : State) : Flushing s s.flush := (flushing_flushRecords ..).trans (judgeRing_spec _).1

theorem flush_of_none_waiting {s : State} (h : s.gau.waiting = []) : s.flush = s.judgeRing := by
  unfold State.flush
  rw [h]
  rfl

/-! ### A batch closes, is rooted and is signed -/

/-- What is written of the open batch as it closes (Table 12.4). -/
def closedBatch (s : State) (b : Batch) : Batch :=
  { b with closed := true, node := s.ownNode, inc := s.lnk.inc, count := s.gau.nextSeq - b.firstSeq, tClose := s.now, epoch := s.mark,
           total := s.gau.total, house := s.houseUj, residue := s.residueUj, openUj := s.openUj, pendingUj := s.pendingUj,
           heldUj := s.heldUj, able := s.canSign }

/-- The open batch is closed. -/
def closing (s : State) : State :=
  (s.modGau fun g => { g with batches := SMap.upd {} g.batches (g.batchNext % 64) (closedBatch s) }).modGau fun g => { g with batchFull := false }

theorem closing_get (s : State) :
    SMap.get {} (closing s).gau.batches (s.gau.batchNext % 64) = closedBatch s (SMap.get {} s.gau.batches (s.gau.batchNext % 64)) :=
  get_upd_self ({} : Batch) s.gau.batches (s.gau.batchNext % 64) (closedBatch s)

theorem batchClose_of_due {s : State} (hlive : s.gau.batchLive = true)
    (hdue : (SMap.get {} s.gau.batches (s.gau.batchNext % 64)).tOpen + 100000000 ≤ s.now) (hfree : s.gau.batchNext + 1 < s.gau.released + 64) :
    s.batchClose = (closing s).openBatch (s.gau.batchNext + 1) := by
  unfold State.batchClose State.modOpenBatch
  rw [hlive, if_neg (by decide)]
  dsimp only
  rw [if_neg (by omega), if_neg (by omega), if_pos rfl]
  rfl

/-- The batch that opens as another closes. -/
theorem openBatch_get_self (s : State) (n : Nat) : (SMap.get {} (s.openBatch n).gau.batches (n % 64)).seq = n ∧
    (SMap.get {} (s.openBatch n).gau.batches (n % 64)).tOpen = s.now ∧ (SMap.get {} (s.openBatch n).gau.batches (n % 64)).firstSeq = s.gau.nextSeq ∧
    (SMap.get {} (s.openBatch n).gau.batches (n % 64)).closed = false := by
  have hget : SMap.get {} (s.openBatch n).gau.batches (n % 64) =
    { seq := n, firstSeq := s.gau.nextSeq, tOpen := s.now, calStale := s.gau.calStale, calClamp := s.calClamp, fine := decide (2 ≤ s.debug) } := get_put_self ..
  rw [hget]
  exact ⟨rfl, rfl, rfl, rfl⟩

theorem openBatch_get_ne (s : State) {n k : Nat} (h : k ≠ n % 64) : SMap.get {} (s.openBatch n).gau.batches k = SMap.get {} s.gau.batches k :=
  get_put_ne ({} : Batch) {} s.gau.batches (n % 64) k _ h

theorem batchClose_of_closed {s : State} (h : s.gau.batchLive = false) : s.batchClose = s := if_pos (by rw [h]; rfl)

theorem batchRooted_of_oldest {s : State} {b : Batch} (h : s.oldestBatch .opened = some b) :
    s.batchRooted = s.modBatch b.seq fun x =>
      { x with root := hashRoot ((List.range b.count).map fun i => (SMap.get {} s.gau.ring ((b.firstSeq + i) % s.ringSlots)).bytes),
               prevHash := if b.seq = 0 then List.replicate 48 0 else sha384 ((SMap.get {} s.gau.batches ((b.seq - 1) % 64)).head 0), state := .rooted } := by
  unfold State.batchRooted
  rw [h]

theorem batchSigned_of_able {s : State} {b : Batch} (h : s.oldestBatch .rooted = some b) (hready : s.hif.aliasReady = true) (hable : b.able = true) :
    s.batchSigned = (((s.modBatch b.seq fun x => { x with sigRsa := s.aliasSign 0 (b.head 0), sigSlh := s.aliasSign 1 (b.head 0), state := .signed }).gauCount
      0xB8 1).bump (blkWH + 0x60) 2).flush := by
  unfold State.batchSigned
  rw [h]
  dsimp only
  rw [hready, hable]
  rfl

theorem batchSigned_of_unable {s : State} {b : Batch} (h : s.oldestBatch .rooted = some b) (hready : s.hif.aliasReady = true) (hable : b.able = false) :
    s.batchSigned = ((s.modBatch b.seq fun x => { x with state := .unsigned }).event blkGAU 5 5).flush := by
  unfold State.batchSigned
  rw [h]
  dsimp only
  rw [hready, hable]
  rfl

theorem batchSigned_of_not_ready {s : State} (hready : s.hif.aliasReady = false) : s.batchSigned = s := by
  unfold State.batchSigned
  split
  · rfl
  · exact if_pos (by rw [hready]; rfl)

theorem modBatch_get_self (s : State) (n : Nat) (f : Batch → Batch) :
    SMap.get {} (s.modBatch n f).gau.batches (n % 64) = f (SMap.get {} s.gau.batches (n % 64)) := get_upd_self ..

theorem modBatch_get_ne (s : State) {n k : Nat} (f : Batch → Batch) (h : k ≠ n % 64) :
    SMap.get {} (s.modBatch n f).gau.batches k = SMap.get {} s.gau.batches k := get_upd_ne ({} : Batch) s.gau.batches _ _ f h

/-- Settles O44: `batchClose`, `batchRooted` and `batchSigned` each write one slot; a release moves a pointer and lets what waits be written. -/
theorem batchesAndReleases : Obligations.BatchesAndReleases := by
  unfold Obligations.BatchesAndReleases
  refine ⟨fun s b hs hlive hb hdue hfree => ?_, fun s h => congrArg _ (whileOn_of_fixed (batchClose_of_closed h)), fun s b hs hold hseq => ?_,
    fun s b hs hold hseq => ?_, fun s b hs hold hready hable => ?_, fun s b hs hold hready hable => ?_,
    fun s b hold hready => congrArg _ (whileOn_of_fixed (batchSigned_of_not_ready hready)), fun s lo hi hs hwait => ?_, fun s lo hi hs hlt => ?_,
    fun s lo hi hle => congrArg _ (whileOn_of_fixed ?_)⟩
  · subst hb
    have hclosed := (openBatch_get_ne (closing s) (n := s.gau.batchNext + 1) (k := s.gau.batchNext % 64) (by omega)).trans (closing_get s)
    obtain ⟨hseq, hopen, hfirst, hnot⟩ := openBatch_get_self (closing s) (s.gau.batchNext + 1)
    exact ⟨_, next_of_answers hs (batchClose_of_due hlive hdue hfree), rfl, (congrArg Batch.closed hclosed).trans rfl, (congrArg Batch.tClose hclosed).trans rfl,
      (congrArg Batch.count hclosed).trans rfl, (congrArg Batch.total hclosed).trans rfl, hseq, hopen, hfirst, hnot, rfl, rfl⟩
  · have hroot := batchRooted_of_oldest hold
    rw [hseq, if_pos rfl] at hroot
    have hget := modBatch_get_self s 0 fun x =>
      { x with root := hashRoot ((List.range b.count).map fun i => (SMap.get {} s.gau.ring ((b.firstSeq + i) % s.ringSlots)).bytes),
               prevHash := List.replicate 48 0, state := .rooted }
    exact ⟨_, next_of_answers hs hroot, (congrArg Batch.state hget).trans rfl, (congrArg Batch.root hget).trans rfl, (congrArg Batch.prevHash hget).trans rfl, rfl⟩
  · have hroot := batchRooted_of_oldest hold
    rw [if_neg hseq] at hroot
    have hget := modBatch_get_self s b.seq fun x =>
      { x with root := hashRoot ((List.range b.count).map fun i => (SMap.get {} s.gau.ring ((b.firstSeq + i) % s.ringSlots)).bytes),
               prevHash := sha384 ((SMap.get {} s.gau.batches ((b.seq - 1) % 64)).head 0), state := .rooted }
    exact ⟨_, next_of_answers hs hroot, (congrArg Batch.state hget).trans rfl, (congrArg Batch.prevHash hget).trans rfl, fun k hk => modBatch_get_ne _ _ hk⟩
  · have hkept := flushing_flush (((s.modBatch b.seq fun x =>
      { x with sigRsa := s.aliasSign 0 (b.head 0), sigSlh := s.aliasSign 1 (b.head 0), state := .signed }).gauCount 0xB8 1).bump (blkWH + 0x60) 2)
    have hget := (congrArg (fun m => SMap.get {} m (b.seq % 64)) hkept.batches).trans (modBatch_get_self ..)
    exact ⟨_, next_of_answers hs (batchSigned_of_able hold hready hable), (congrArg Batch.state hget).trans rfl, (congrArg Batch.sigRsa hget).trans rfl,
      (congrArg Batch.sigSlh hget).trans rfl⟩
  · have hkept := flushing_flush ((s.modBatch b.seq fun x => { x with state := .unsigned }).event blkGAU 5 5)
    have hevent : ((s.modBatch b.seq fun x => { x with state := .unsigned }).event blkGAU 5 5).gau = (s.modBatch b.seq fun x => { x with state := .unsigned }).gau :=
      (congrArg State.gau (signals_event ..)).trans rfl
    have hget := (congrArg (fun m => SMap.get {} m (b.seq % 64)) (hkept.batches.trans (congrArg Gau.batches hevent))).trans (modBatch_get_self ..)
    refine ⟨_, next_of_answers hs (batchSigned_of_unable hold hready hable), (congrArg Batch.state hget).trans rfl, ?_⟩
    rw [State.flagBit, State.flag, hkept.flags]
    exact event_bit _ _ _ _ (by decide)
  · obtain ⟨hkept, hring, hnext⟩ := judgeRing_spec (s.modGau fun g => { g with recRelease := Nat.min g.nextSeq (putHalves g.recRelease (some lo) (some hi)) })
    exact ⟨_, next_of_answers hs (flush_of_none_waiting hwait), hkept.recRelease, hring, hnext⟩
  · refine ⟨_, next_of_answers hs (t := { s with gau := { s.gau with
      batchRelease := lo.toNat + 0x100000000 * hi.toNat, released := Nat.max s.gau.released (lo.toNat + 0x100000000 * hi.toNat + 1) } }) ?_, rfl, rfl, rfl⟩
    exact congrArg (fun g => { s with gau := g }) (if_neg (Nat.not_le.mpr hlt))
  · exact congrArg (fun g => { s with gau := g }) (if_pos hle)

end Sys2Proof.Proofs
end

section
/-! Ferry descriptors (spec/10_basin_transactions.md, R385 to R391). -/
namespace Sys2Proof.Proofs
open Sys2Proof Sys2Proof.Machine Sys2Proof.Laws

theorem modFerry_ferry (s : State) (e : Nat) (f : FerryRun → FerryRun) (k : Nat) :
    (s.modFerry e f).ferry k = if k = e then (s.ferry k).map f else s.ferry k := by
  split
  next h =>
    subst h
    by_cases hk : k < 48
    · exact vget_vmod_self none s.bsn.engines k _ hk
    · rw [State.ferry, State.ferry, vget_of_ge _ _ (Nat.le_of_not_lt hk), vget_of_ge _ _ (Nat.le_of_not_lt hk)]
      rfl
  next h => exact vget_vmod_ne none s.bsn.engines e k _ h

theorem modFerry_ferry_self {s : State} {e : Nat} {r : FerryRun} (f : FerryRun → FerryRun) (h : s.ferry e = some r) :
    (s.modFerry e f).ferry e = some (f r) := by
  rw [modFerry_ferry, if_pos rfl, h]
  rfl

theorem modFerry_ferry_ne (s : State) {e k : Nat} (f : FerryRun → FerryRun) (h : k ≠ e) : (s.modFerry e f).ferry k = s.ferry k := by
  rw [modFerry_ferry, if_neg h]

/-- An engine keeps its job, and the other engines keep their work. -/
structure Ferried (e : Nat) (s t : State) : Prop where
  others : ∀ k, k ≠ e → t.ferry k = s.ferry k
  job : (t.ferry e).map FerryRun.job = (s.ferry e).map FerryRun.job

namespace Ferried

theorem refl (e : Nat) (s : State) : Ferried e s s := ⟨fun _ _ => rfl, rfl⟩

theorem trans {e : Nat} {s t u : State} (h : Ferried e s t) (k : Ferried e t u) : Ferried e s u :=
  ⟨fun i hi => (k.others i hi).trans (h.others i hi), k.job.trans h.job⟩

theorem after {e : Nat} {s t u : State} (k : Ferried e t u) (h : Ferried e s t) : Ferried e s u := h.trans k

theorem foldl {α : Type} {e : Nat} {f : State → α → State} (hf : ∀ s x, Ferried e s (f s x)) (l : List α) (s : State) : Ferried e s (l.foldl f s) := by
  induction l generalizing s with
  | nil => exact refl e s
  | cons x l ih => exact (hf s x).trans (ih _)

end Ferried

theorem ferried_of_engines {s t : State} (e : Nat) (h : t.bsn.engines = s.bsn.engines) : Ferried e s t :=
  ⟨fun k _ => congrArg (vget none · k) h, congrArg (fun v => (vget none v e).map FerryRun.job) h⟩

theorem engines_of_works {s t : State} (h : Works s t) : t.bsn.engines = s.bsn.engines := (congrArg (fun x : State => x.bsn.engines) h.frame).trans rfl

theorem queues_of_works {s t : State} (h : Works s t) : t.bsn.queues = s.bsn.queues := (congrArg (fun x : State => x.bsn.queues) h.frame).trans rfl

theorem ferried_of_works {s t : State} (e : Nat) (h : Works s t) : Ferried e s t := ferried_of_engines e (engines_of_works h)

theorem ferried_of_accesses {s t : State} (e : Nat) (h : Accesses s t) : Ferried e s t := ferried_of_works e (works_of_accesses h)

theorem ferried_modFerry (s : State) (e : Nat) {f : FerryRun → FerryRun} (hf : ∀ r, (f r).job = r.job) : Ferried e s (s.modFerry e f) := by
  refine ⟨fun k hk => modFerry_ferry_ne s f hk, ?_⟩
  rw [modFerry_ferry, if_pos rfl, Option.map_map]
  exact congrArg (Option.map · (s.ferry e)) (funext hf)

/-! ### The local end of a job -/

theorem works_spend (s : State) (res sub act n : Nat) : Works s (s.spend res sub act n) := ⟨rfl, fun _ => rfl⟩

theorem works_incArrival (s : State) (i : Nat) : Works s (s.incArrival i) :=
  ⟨Eq.trans (incArrival_frame ..) (by rw [incArrival_frame]), lost_of_flt ((congrArg State.flt (incArrival_frame ..)).trans rfl)⟩

theorem works_accErr (s : State) (c unit act va : Nat) (e : AccErr) : Works s (s.accErr c unit act va e) := works_of_accesses (accesses_accErr ..)

theorem works_atomicAt (s : State) (code act dpa aop len : Nat) (x : List Byte) : Works s (s.atomicAt code act dpa aop len x).1 := by
  unfold State.atomicAt
  extract_lets read old
  have hread : Works s read := by
    refine Works.trans ?_ (works_of_accesses (accesses_readGranule ..))
    split
    · exact works_of_accesses (accesses_charge ..)
    · exact .refl s
  split
  · exact hread
  · exact hread.trans ((works_of_accesses (accesses_writeGranule ..)).trans (works_bump ..))

/-- What a local end notes: the error of an access. -/
theorem ferried_note (s : State) (e : Nat) (er : Option AccErr) :
    Ferried e s (match er with
      | some er => s.modFerry e fun r => { r with status := mergeBasin r.status er.status }
      | none => s) := by
  split
  · exact ferried_modFerry s e (fun _ => rfl)
  · exact .refl e s

theorem ferried_localAct (s : State) (e : Nat) (r : FerryRun) : Ferried e s (s.localAct e r) := by
  unfold State.localAct
  extract_lets j note vec read
  have hnote (s : State) (er : Option AccErr) : Ferried e s (note s er) := ferried_note s e er
  clear_value note
  split
  · exact ferried_of_works e ((works_spend ..).trans (works_incArrival ..))
  · split
    · exact .refl e s
    split
    · exact (hnote _ _).after (ferried_of_works e (works_accErr ..))
    · exact (ferried_of_works e (((works_touch ..).trans (works_spend ..)).trans (works_poke ..))).trans (hnote _ _)
  · split
    · exact (hnote _ _).after (ferried_of_works e (works_accErr ..))
    · exact (hnote _ _).after (ferried_of_works e (works_accErr ..))
    next v d _ _ =>
      have hread : Works s read := by
        unfold read
        split
        · exact works_touch ..
        · exact .refl s
      have hat := hread.trans ((works_spend ..).trans (works_atomicAt (read.spend 3 0 j.act 1) j.cove j.act d j.aop j.length (j.operands v)))
      split
      next ht =>
        rw [ht] at hat
        exact (ferried_of_works e hat).trans (hnote _ _)
      next ht =>
        rw [ht] at hat
        split
        · exact (ferried_of_works e (hat.trans (works_poke ..))).trans (hnote _ _)
        · exact ferried_of_works e hat
    · exact .refl e s

/-- The end of an engine's request keeps the engine's job. -/
theorem ferried_endOwner (s : State) (e part off opc : Nat) (st : Status) (data : List Byte) :
    Ferried e s (s.endOwner (.ferry e part off) opc st data) := by
  unfold State.endOwner
  dsimp -zeta only
  split
  · exact .refl e s
  · extract_lets noted counted
    have hnoted : Ferried e s noted := ferried_modFerry s e (fun _ => rfl)
    refine hnoted.trans ?_
    split
    · have hcounted : Ferried e noted counted := ferried_modFerry noted e (fun _ => rfl)
      split
      · exact hcounted.trans (ferried_localAct ..)
      · exact hcounted
    split
    · exact ferried_modFerry noted e (fun _ => rfl)
    split
    · exact ferried_modFerry noted e (fun _ => rfl)
    split
    · exact (ferried_of_works e (works_poke ..)).trans (ferried_modFerry _ e (fun _ => rfl))
    · exact ferried_modFerry noted e (fun _ => rfl)

/-! ### What an engine does with its job -/

theorem ferried_issue (s : State) (e : Nat) (x : TxReq) : Ferried e s (s.issue x) := ferried_of_engines e rfl

theorem ferried_issueAll (s : State) (e : Nat) (l : List TxReq) : Ferried e s (s.issueAll l) := ferried_of_engines e rfl

theorem ferried_ferryStop (s : State) (e : Nat) (st : Status) (b : Bool) : Ferried e s (s.ferryStop e st b) := ferried_modFerry s e (fun _ => rfl)

theorem works_poisonVa (s : State) (c act va : Nat) : Works s (s.poisonVa c act va) := by
  unfold State.poisonVa State.poisonDpa
  split
  · refine Works.trans (works_of_accesses (accesses_chargeHbm s c act .write [(va, 64)])) ?_
    split <;> exact ⟨rfl, fun _ => rfl⟩
  · exact .refl s

theorem ferried_ferryWrite (s : State) (e : Nat) (r : FerryRun) (rel : Nat) (data : List Byte) (m : Option Nat) :
    Ferried e s (s.ferryWrite e r rel data m) := by
  unfold State.ferryWrite
  extract_lets j
  split
  · exact (ferried_of_works e (works_accErr ..)).trans (ferried_ferryStop ..)
  split
  · exact ferried_ferryStop ..
  split
  · split
    next t er ht =>
    have hwritten : Works s t := by
      split at ht
      · exact (show _ = t from congrArg Prod.fst ht) ▸ (works_spend ..).trans (works_poke ..)
      · exact fst_eq ht ▸ works_poisonVa ..
    split
    · exact (ferried_of_works e hwritten).trans (ferried_ferryStop ..)
    · exact ferried_of_works e hwritten
  · exact (ferried_issue ..).after (ferried_modFerry s e (fun _ => rfl))

theorem ferried_ferryPieces (e : Nat) (l : List (Nat × Nat)) (s : State) : Ferried e s (s.ferryPieces e l) := by
  induction l generalizing s with
  | nil => exact .refl e s
  | cons p l ih =>
    unfold State.ferryPieces
    split
    · exact .refl e s
    split
    · exact .refl e s
    split
    · exact (ferried_ferryWrite ..).trans (ih _)
    · exact (ferried_of_works e (works_accErr ..)).trans (ferried_ferryStop ..)
    · extract_lets read host noted
      have hread : Ferried e s read := ferried_of_works e (works_touch ..)
      split
      · have hnoted : Ferried e read noted := ferried_modFerry read e (fun _ => rfl)
        exact (hread.trans hnoted).trans ((ferried_ferryWrite ..).trans (ih _))
      · exact hread.trans ((ferried_ferryStop ..).trans (ih _))

theorem ferried_ferryStores (s : State) (e : Nat) (r : FerryRun) : Ferried e s (s.ferryStores e r) := by
  unfold State.ferryStores
  split
  extract_lets poisoned page issued parts
  clear_value page
  split
  · exact ferried_modFerry s e (fun _ => rfl)
  · refine Ferried.trans (t := issued) (ferried_modFerry s e (fun _ => rfl)) (Ferried.foldl (fun s x => ?_) parts issued)
    obtain ⟨rel, m⟩ := x
    dsimp only
    split
    · exact .refl e s
    split
    · exact .refl e s
    split
    · exact ferried_ferryPieces ..
    · exact (ferried_of_works e (works_touch ..)).trans (ferried_ferryWrite ..)

theorem ferried_ferryChunk (s : State) (e : Nat) : Ferried e s (s.ferryChunk e) := by
  unfold State.ferryChunk
  split
  · exact .refl e s
  split
  · exact .refl e s
  split
  extract_lets loads asked
  split
  · exact ferried_ferryStores ..
  · exact Ferried.trans (t := asked) (ferried_modFerry s e (fun _ => rfl)) (ferried_issueAll ..)

theorem ferried_ferryLocal (s : State) (e : Nat) (j : FerryJob) (flag : Bool) : Ferried e s (s.ferryLocal e j flag) := by
  unfold State.ferryLocal
  extract_lets w pseudo counted
  have hcounted : Ferried e s counted := ferried_modFerry s e (fun _ => rfl)
  split
  · exact hcounted.trans (ferried_of_engines e rfl)
  · exact hcounted.trans (ferried_endOwner ..)

theorem ferried_ferrySingle (s : State) (e : Nat) : Ferried e s (s.ferrySingle e) := by
  unfold State.ferrySingle
  split
  · exact .refl e s
  extract_lets j store reads n ended read
  have hended (s : State) (st : Status) : Ferried e s (ended s st) := ferried_modFerry s e (fun _ => rfl)
  split
  · exact (ferried_ferryLocal ..).after (hended _ _)
  split
  · exact ferried_modFerry s e (fun _ => rfl)
  split
  · exact (hended _ _).after (ferried_of_works e (works_accErr ..))
  · exact (hended _ _).after (ferried_of_works e (works_accErr ..))
  · exact (ferried_ferryLocal ..).after (hended _ _)
  · extract_lets sent req
    have hread : Ferried e s read := by
      unfold read
      split
      · exact ferried_of_works e (works_touch ..)
      · exact .refl e s
    exact (ferried_issue ..).after (Ferried.after (ferried_modFerry read e (fun _ => rfl)) hread)

/-- An engine that begins a job holds it. -/
theorem ferryBegin_holds (s : State) {e : Nat} (he : e < 48) (j : FerryJob) (early : Option Status) :
    ((s.ferryBegin e j early).ferry e).map FerryRun.job = some j ∧ ∀ k, k ≠ e → (s.ferryBegin e j early).ferry k = s.ferry k := by
  unfold State.ferryBegin
  extract_lets bsn start
  have hstart (r : FerryRun) : (start r).ferry e = some r := vget_vmod_self none s.bsn.engines e _ he
  have hother (r : FerryRun) (k : Nat) (hk : k ≠ e) : (start r).ferry k = s.ferry k := vget_vmod_ne none s.bsn.engines e k _ hk
  have hthen {r : FerryRun} {t : State} (hr : r.job = j) (h : Ferried e (start r) t) :
      (t.ferry e).map FerryRun.job = some j ∧ ∀ k, k ≠ e → t.ferry k = s.ferry k :=
    ⟨h.job.trans ((congrArg _ (hstart r)).trans (congrArg some hr)), fun k hk => (h.others k hk).trans (hother r k hk)⟩
  split
  · exact hthen rfl (.refl e _)
  split
  · split
    · split
      · exact hthen rfl (ferried_of_works e (works_accErr ..))
      · exact hthen rfl (.refl e _)
    · split
      · exact hthen rfl (ferried_of_works e (works_accErr ..))
      · exact hthen rfl (ferried_ferryChunk ..)
  · exact hthen rfl (ferried_ferrySingle ..)

/-! ### Posting and starting -/

theorem ferryPost_of_room {s : State} {c addr : Nat} {named : Bool} (h : (vget [] s.bsn.queues c).length < 64) :
    ∃ w : FerryWait, w.addr = addr ∧ w.id = s.bsn.nextId ∧
      s.ferryPost c addr named = { s with bsn := { s.bsn with queues := vmod s.bsn.queues c fun q => q ++ [w], nextId := s.bsn.nextId + 1 } } :=
  ⟨_, rfl, rfl, if_neg (Nat.not_le_of_lt h)⟩

theorem not_stopped_of_not_halted {s : State} (h : s.halted = false) : s.stopped = false ∧ s.pstate < 2 := by
  unfold State.halted at h
  rw [Bool.or_eq_false_iff, Bool.or_eq_false_iff, decide_eq_false_iff_not] at h
  exact ⟨h.1.1, Nat.lt_of_not_le h.2⟩

/-- A free engine with no copy of the Shoal waiting takes the first descriptor that can start. -/
theorem ferryStart_of_startable {s u : State} {e c : Nat} {w : FerryWait} {d : List Byte} (hrun : s.halted = false) (hfree : s.ferry e = none)
    (hdirect : s.bsn.direct = [])
    (hcove : ((List.range 8).map fun i => (s.bsn.lastCove + 1 + i) % 8).find? (fun c => (s.ferryStartable c).isSome) = some c)
    (hw : s.ferryStartable c = some w)
    (hu : u = ({ s with bsn := { s.bsn with queues := vmod s.bsn.queues c fun q => q.erase w, lastCove := c } } : State).touch c unitFerry 0 w.addr 128)
    (hd : u.peek c w.addr 128 = .ok d) :
    ∃ early, s.ferryStart e =
      (u.undeclared 3 ({ readFerry c w.addr w.id d with named := w.named } : FerryJob).act).ferryBegin e { readFerry c w.addr w.id d with named := w.named } early := by
  obtain ⟨hstop, hp⟩ := not_stopped_of_not_halted hrun
  have hno : ¬((s.ferry e).isSome ∨ s.stopped ∨ 1 < s.pstate) := by
    rw [hfree, hstop]
    simp only [Option.isSome_none, Bool.false_eq_true, false_or]
    omega
  unfold State.ferryStart
  rw [if_neg hno, hdirect]
  dsimp only
  rw [hcove]
  dsimp only
  rw [hw]
  dsimp only
  rw [← hu, hd]
  exact ⟨_, rfl⟩

theorem works_undeclared (s : State) (res act : Nat) : Works s (s.undeclared res act) := by
  unfold State.undeclared
  split
  · exact .refl s
  · exact works_bump ..

/-! ### Increments -/

theorem localAct_of_copy (s : State) (e : Nat) {r : FerryRun} (h : r.job.op = 0x41) :
    s.localAct e r = (s.spend 3 0 r.job.act 1).incArrival (r.job.dstCtr % 65536) := by
  unfold State.localAct
  simp only [h]

theorem incArrival_arr (s : State) (i k : Nat) : (s.incArrival i).arr k = if k = i then s.arr i + 1 else s.arr k := by
  have harr : (s.incArrival i).arrival = SMap.put 0 s.arrival i (s.arr i + 1) := (congrArg State.arrival (incArrival_frame s i)).trans rfl
  unfold State.arr at harr ⊢
  rw [harr]
  split
  next h => rw [h, get_put_self]
  next h => exact get_put_ne _ _ _ _ _ _ h

/-- The increment of a local counter, after a change of the Basin alone. -/
theorem raised_spec {s u t : State} {act i : Nat} (hu : u = { s with bsn := u.bsn }) (ht : (u.spend 3 0 act 1).incArrival i = t) :
    (∀ k, t.ferry k = u.ferry k) ∧ t.arr i = s.arr i + 1 ∧ (∀ k, k ≠ i → t.arr k = s.arr k) ∧ t.mem = s.mem := by
  have hworks : Works u t := ht ▸ (works_spend ..).trans (works_incArrival ..)
  have harr (k : Nat) : (u.spend 3 0 act 1).arr k = s.arr k := (congrArg (fun x : State => x.arr k) hu : u.arr k = _)
  refine ⟨fun k => congrArg (vget none · k) (engines_of_works hworks), ?_, fun k hk => ?_, ?_⟩
  · rw [← ht, incArrival_arr, if_pos rfl, harr]
  · rw [← ht, incArrival_arr, if_neg hk, harr]
  · rw [← ht, incArrival_frame]
    exact (congrArg State.mem hu).trans rfl

/-- No chunk is left to begin. -/
theorem ferryChunk_of_last {s : State} {e : Nat} {r : FerryRun} (hr : s.ferry e = some r) (hlast : r.job.chunks ≤ r.chunk) : s.ferryChunk e = s := by
  unfold State.ferryChunk
  rw [hr]
  dsimp only
  rw [decide_eq_true hlast, Bool.or_true, Bool.true_or]
  exact if_pos rfl

/-- A run whose chunk has ended, ready for its next. -/
def nextChunk (r : FerryRun) : FerryRun := { r with done := r.done + 1, chunk := r.chunk + 1, issued := false, loads := [], waited := false }

/-- The increment of the last chunk of a copy into the package. -/
theorem chunkIncrement_of_last {s : State} {e : Nat} {r : FerryRun} (hr : s.ferry e = some r) (hop : r.job.op = 0x41) (hcomp : r.completed = false)
    (hload : r.loading = false) (hissued : r.issued = true) (houts : r.outs = 0) (hstop : r.stop = false) (hlast : r.chunk + 1 = r.job.chunks)
    (hctr : bit r.job.dstCtr 16 = true) (hdest : r.dest = none) :
    s.chunkIncrement e = ((s.modFerry e nextChunk).spend 3 0 r.job.act 1).incArrival (r.job.dstCtr % 65536) := by
  generalize ht : ((s.modFerry e nextChunk).spend 3 0 r.job.act 1).incArrival (r.job.dstCtr % 65536) = t
  have hself : t.ferry e = some (nextChunk r) := ((raised_spec (s := s) rfl ht).1 e).trans (modFerry_ferry_self _ hr)
  have hinc : (s.modFerry e nextChunk).ferryInc e r 1 false = t := by
    unfold State.ferryInc
    rw [hctr, hdest]
    exact (localAct_of_copy _ e hop).trans ht
  have hgoes : ¬r.job.chunks ≤ r.chunk := by omega
  unfold State.chunkIncrement
  rw [hr]
  simp only [hop, hcomp, hload, hissued, houts, hstop, hgoes, if_false, Bool.false_eq_true, false_and, not_true, ne_eq, or_false, false_or, Bool.not_true]
  exact (congrArg (State.ferryChunk · e) hinc).trans (ferryChunk_of_last hself (Nat.le_of_eq hlast.symm))

/-- The completion of a copy, up to its increment. -/
theorem completionIncrement_of_ended {s : State} {e : Nat} {r : FerryRun} (hr : s.ferry e = some r) (hop : r.job.op = 0x41) (hcomp : r.completed = false)
    (houts : r.outs = 0) (hincs : r.incs = 0) (hwait : r.waiting = none) (hlast : r.job.chunks ≤ r.chunk) (hno : r.noCompletion = false) :
    s.completionIncrement e = (s.modFerry e fun r => { r with completed := true }).ferryInc e r 2 r.job.flag := by
  have hgoes : ¬r.chunk < r.job.chunks := by omega
  unfold State.completionIncrement
  rw [hr]
  simp only [hop, hcomp, houts, hincs, hwait, hgoes, hno, if_false, Bool.false_eq_true, ne_eq, not_true, or_self, false_and, and_false, Option.isSome_none]

theorem mergeBasin_done (st : Status) : mergeBasin st .done = st := by
  unfold mergeBasin
  exact if_neg (Nat.not_lt_of_le (by cases st <;> decide))

/-- A local end that is done: the engine has one piece fewer outstanding, and acts. -/
theorem endOwner_of_done {s : State} {e : Nat} {r : FerryRun} (hr : s.ferry e = some r) (part off : Nat) (data : List Byte) :
    ∃ u : State, u = { s with bsn := u.bsn } ∧ u.ferry e = some { r with outs := r.outs - 1 } ∧ (∀ k, k ≠ e → u.ferry k = s.ferry k) ∧
      s.endOwner (.ferry e part off) 0 .done data = u.localAct e r := by
  unfold State.endOwner
  dsimp -zeta only
  rw [hr]
  dsimp -zeta only
  extract_lets noted freed
  have hnoted : noted.ferry e = some r := by
    refine (modFerry_ferry_self _ hr).trans ?_
    simp [mergeBasin_done]
  exact ⟨freed, rfl, modFerry_ferry_self _ hnoted, fun k hk => (modFerry_ferry_ne _ _ hk).trans (modFerry_ferry_ne _ _ hk), rfl⟩

/-- The local end of a copy with FLAG that no earlier store of its source holds back. -/
theorem ferryLocal_of_none_waiting {s : State} {e : Nat} {r : FerryRun} (hr : s.ferry e = some r) (hop : r.job.op = 0x41)
    (hwaits : s.flagWaits r.job.cove = ([], .done)) :
    ∃ u : State, u = { s with bsn := u.bsn } ∧ u.ferry e = some r ∧ (∀ k, k ≠ e → u.ferry k = s.ferry k) ∧
      s.ferryLocal e r.job true = (u.spend 3 0 r.job.act 1).incArrival (r.job.dstCtr % 65536) := by
  unfold State.ferryLocal
  extract_lets w pseudo counted
  have hcounted : counted.ferry e = some { r with outs := r.outs + 1 } := modFerry_ferry_self _ hr
  obtain ⟨u, hu, hself, hne, hend⟩ := endOwner_of_done hcounted 0 0 []
  rw [show w = ([], Status.done) from hwaits, if_neg (by decide)]
  refine ⟨u, hu, hself, fun k hk => (hne k hk).trans (modFerry_ferry_ne _ _ hk), hend.trans ?_⟩
  exact localAct_of_copy u e (r := { r with outs := r.outs + 1 }) hop

/-- An increment of a copy into the package is a local end of its engine. -/
theorem ferryInc_of_local (s : State) (e : Nat) {r : FerryRun} (part : Nat) (flag : Bool) (hctr : bit r.job.dstCtr 16 = true) (hdest : r.dest = none) :
    s.ferryInc e r part flag = if flag then s.ferryLocal e r.job true else s.localAct e r := by
  unfold State.ferryInc
  rw [hctr, hdest]
  rfl

/-- The completion of a copy into the package raises its counter. -/
theorem completion_raises {s : State} {e : Nat} {r : FerryRun} (hr : s.ferry e = some r) (hop : r.job.op = 0x41)
    (hctr : bit r.job.dstCtr 16 = true) (hdest : r.dest = none) (hwaits : r.job.flag = false ∨ s.flagWaits r.job.cove = ([], .done)) :
    ∃ u : State, u = { s with bsn := u.bsn } ∧ u.ferry e = some { r with completed := true } ∧ (∀ k, k ≠ e → u.ferry k = s.ferry k) ∧
      (s.modFerry e fun r => { r with completed := true }).ferryInc e r 2 r.job.flag = (u.spend 3 0 r.job.act 1).incArrival (r.job.dstCtr % 65536) := by
  have hself : (s.modFerry e fun r => { r with completed := true }).ferry e = some { r with completed := true } := modFerry_ferry_self _ hr
  have hne (k : Nat) (hk : k ≠ e) : (s.modFerry e fun r => { r with completed := true }).ferry k = s.ferry k := modFerry_ferry_ne _ _ hk
  rw [ferryInc_of_local _ e 2 _ hctr hdest]
  cases hflag : r.job.flag with
  | false => exact ⟨_, rfl, hself, hne, localAct_of_copy _ e hop⟩
  | true =>
    have hnone : s.flagWaits r.job.cove = ([], .done) := hwaits.resolve_left (by rw [hflag]; exact nofun)
    obtain ⟨u, hu, huself, hune, hlocal⟩ := ferryLocal_of_none_waiting hself hop hnone
    exact ⟨u, hu, huself, fun k hk => (hune k hk).trans (hne k hk), hlocal⟩

/-- The completion of a copy with FLAG waits for the earlier stores of its source. -/
theorem completion_waits {s : State} {e : Nat} {r : FerryRun} (hr : s.ferry e = some r) (houts : r.outs = 0) (hctr : bit r.job.dstCtr 16 = true)
    (hdest : r.dest = none) (hflag : r.job.flag = true) (hwaits : s.flagWaits r.job.cove ≠ ([], .done)) :
    ∃ b : Bsn, (s.modFerry e fun r => { r with completed := true }).ferryInc e r 2 r.job.flag = { s with bsn := b } ∧
      vget none b.engines e = some { r with completed := true, outs := 1 } ∧ b.flagHeld.length = s.bsn.flagHeld.length + 1 := by
  have hheld : (true && (!(s.flagWaits r.job.cove).1.isEmpty || decide ((s.flagWaits r.job.cove).2 ≠ .done))) = true := by
    rw [Bool.true_and, Bool.or_eq_true, Bool.not_eq_true', decide_eq_true_iff]
    by_contra hcon
    rw [not_or, Bool.not_eq_false, List.isEmpty_iff, ne_eq, not_not] at hcon
    exact hwaits (Prod.ext hcon.1 hcon.2)
  have hself : (s.modFerry e fun r => { r with completed := true }).ferry e = some { r with completed := true } := modFerry_ferry_self _ hr
  have hcounted : ((s.modFerry e fun r => { r with completed := true }).modFerry e fun r => { r with outs := r.outs + 1 }).ferry e =
      some { r with completed := true, outs := 1 } := by
    rw [modFerry_ferry_self _ hself, houts]
  rw [ferryInc_of_local _ e 2 _ hctr hdest, hflag]
  exact ⟨_, if_pos hheld, hcounted, List.length_append⟩

/-! ### Ends and cancels -/

theorem works_ferryWriteEnd (s : State) (c addr chunks doneCtr : Nat) (st : Status) : Works s (s.ferryWriteEnd c addr chunks doneCtr st) :=
  (((works_poke ..).trans (works_poke ..)).trans (works_noteStatus ..)).trans ((works_bump ..).trans (works_applyDone ..))

theorem ferryEnded_engines (s : State) (c id : Nat) (st : Status) : (s.ferryEnded c id st).bsn.engines = s.bsn.engines := rfl

/-- The record of a descriptor that has ended: its end in memory, or the word to the Shoal that asked for the copy. -/
def ferryClosed (u : State) (r : FerryRun) : State :=
  match r.job.desc, r.job.shoal with
  | some addr, _ => (u.ferryWriteEnd r.job.cove addr r.done r.job.doneCtr r.status).ferryEnded r.job.cove r.job.id r.status
  | none, some (rt, idx) => u.shoalCopied rt idx r.job.id r.status
  | none, none => u

theorem ferryClosed_engines (u : State) (r : FerryRun) : (ferryClosed u r).bsn.engines = u.bsn.engines := by
  unfold ferryClosed
  split
  · exact (ferryEnded_engines ..).trans (engines_of_works (works_ferryWriteEnd ..))
  · rfl
  · rfl

theorem ferryClosed_of_desc (u : State) {r : FerryRun} {a : Nat} (h : r.job.desc = some a) :
    ferryClosed u r = (u.ferryWriteEnd r.job.cove a r.done r.job.doneCtr r.status).ferryEnded r.job.cove r.job.id r.status := by
  unfold ferryClosed
  rw [h]

/-- An engine whose descriptor has ended is free. -/
theorem ferryFinish_of_completed {s u : State} {e : Nat} (he : e < 48) {r : FerryRun} (hr : s.ferry e = some r) (hcomp : r.completed = true)
    (houts : r.outs = 0) (hincs : r.incs = 0)
    (hu : u = (if r.job.named = true then { s with bsn := { s.bsn with engines := vmod s.bsn.engines e fun _ => none } }
      else ({ s with bsn := { s.bsn with engines := vmod s.bsn.engines e fun _ => none } } : State).addShare r.job.cove poolFerry r.sharer 1)) :
    (s.ferryFinish e).ferry e = none ∧ (∀ k, k ≠ e → (s.ferryFinish e).ferry k = s.ferry k) ∧
      ∀ a, r.job.desc = some a →
        s.ferryFinish e = (u.ferryWriteEnd r.job.cove a r.done r.job.doneCtr r.status).ferryEnded r.job.cove r.job.id r.status := by
  have hfin : s.ferryFinish e = ferryClosed u r := by
    have hends : ¬(!r.completed ∨ r.outs ≠ 0 ∨ r.incs ≠ 0) := by rw [hcomp, houts, hincs]; decide
    unfold State.ferryFinish
    rw [hr]
    refine (if_neg hends).trans ?_
    rw [hu]
    rfl
  have hengines : (s.ferryFinish e).bsn.engines = vmod s.bsn.engines e fun _ => none := by
    rw [hfin, ferryClosed_engines, hu]
    split <;> rfl
  refine ⟨?_, fun k hk => ?_, fun a ha => hfin.trans (ferryClosed_of_desc u ha)⟩
  · exact (congrArg (vget none · e) hengines).trans (vget_vmod_self _ _ _ _ he)
  · exact (congrArg (vget none · k) hengines).trans (vget_vmod_ne _ _ _ _ _ hk)

/-- The run of a copy that is cancelled, where the address names it. -/
def cancelRun (c addr : Nat) (r : FerryRun) : FerryRun :=
  if r.job.cove = c ∧ r.job.desc = some addr ∧ r.job.op = 0x41 ∧ !r.completed then
    { r with cancelled := true, status := mergeBasin r.status .cancelled } else r

theorem ferryCancel_of_not_waiting {s : State} {c addr : Nat} (h : ∀ w ∈ vget [] s.bsn.queues c, w.addr ≠ addr) :
    s.ferryCancel c addr = { s with bsn := { s.bsn with engines := s.bsn.engines.map (Option.map (cancelRun c addr)) } } := by
  have hnone : (vget [] s.bsn.queues c).find? (fun w => w.addr = addr) = none :=
    List.find?_eq_none.mpr fun w hw => by rw [decide_eq_true_iff]; exact h w hw
  unfold State.ferryCancel
  rw [hnone]
  rfl

theorem ferryCancel_of_waiting {s u : State} {c addr : Nat} {w : FerryWait} {d : List Byte}
    (hw : (vget [] s.bsn.queues c).find? (fun w => w.addr = addr) = some w)
    (hu : u = { s with bsn := { s.bsn with queues := vmod s.bsn.queues c fun q => q.erase w } }) (hd : u.peek c w.addr 128 = .ok d) :
    s.ferryCancel c addr = (u.ferryWriteEnd c w.addr 0 (fld d 0x10 4) .cancelled).ferryEnded c w.id .cancelled := by
  obtain rfl : w.addr = addr := by simpa using List.find?_some hw
  unfold State.ferryCancel
  rw [hw]
  dsimp only
  rw [← hu, hd]

/-- A descriptor that leaves its queue and ends shortens the queue by one. -/
theorem length_queue_of_ended {s u : State} {c : Cove} {w : FerryWait} {addr chunks doneCtr id : Nat} {st : Status} (hw : w ∈ vget [] s.bsn.queues c)
    (hu : u = { s with bsn := { s.bsn with queues := vmod s.bsn.queues c fun q => q.erase w } }) :
    (vget [] ((u.ferryWriteEnd c addr chunks doneCtr st).ferryEnded c id st).bsn.queues c).length + 1 = (vget [] s.bsn.queues c).length := by
  have hwritten : (u.ferryWriteEnd c addr chunks doneCtr st).bsn.queues = vmod s.bsn.queues c fun q => q.erase w :=
    (queues_of_works (works_ferryWriteEnd ..)).trans (congrArg (fun x : State => x.bsn.queues) hu)
  unfold State.ferryEnded
  dsimp only
  rw [hwritten, vget_vmod_self _ _ _ _ c.isLt, vget_vmod_self _ _ _ _ c.isLt, List.length_map, List.length_erase_of_mem hw]
  exact Nat.sub_add_cancel (List.length_pos_of_mem hw)

/-- Settles O36: an engine's work keeps the engine's job and every other engine; a counter rises with the local end of its engine. -/
theorem ferryDescriptors : Obligations.FerryDescriptors := by
  unfold Obligations.FerryDescriptors
  refine ⟨?post, ?full, ?start, ?chunk, ?complete, ?held, ?ends, ?cancel, ?drop⟩
  case post =>
    intro s c lo hi hs hroom
    obtain ⟨w, haddr, hid, hpost⟩ := ferryPost_of_room (addr := lo.toNat + 0x100000000 * hi.toNat) (named := false) hroom
    refine ⟨_, w, next_of_answers hs hpost, vget_vmod_self _ _ _ _ c.isLt, haddr, hid, fun e he => vget_vmod_ne _ _ _ _ _ ?_, rfl⟩
    exact fun h => he (Fin.ext h)
  case full =>
    intro s c lo hi hs hfull
    exact ⟨_, next_of_answers hs (if_pos hfull), queueFlag_bit _ _ _ (by decide), signals_queueFlag ..⟩
  case start =>
    intro s u e c w d hrun hwork hfree hdirect hcove hw hu hd
    obtain ⟨early, hstart⟩ := ferryStart_of_startable hrun hfree hdirect hcove hw hu hd
    have hbefore (k : Nat) : (u.undeclared 3 ({ readFerry c w.addr w.id d with named := w.named } : FerryJob).act).ferry k = s.ferry k := by
      refine congrArg (vget none · k) ((engines_of_works (works_undeclared ..)).trans ?_)
      rw [hu]
      exact (engines_of_works (works_touch ..)).trans rfl
    obtain ⟨hself, hne⟩ := ferryBegin_holds (u.undeclared 3 ({ readFerry c w.addr w.id d with named := w.named } : FerryJob).act) e.isLt
      { readFerry c w.addr w.id d with named := w.named } early
    obtain ⟨r, hr, hjob⟩ := Option.map_eq_some_iff.mp hself
    exact ⟨_, r, next_of_run hrun ((if_pos hwork).trans hstart), hr, hjob, fun k hk => (hne k fun h => hk (Fin.ext h)).trans (hbefore k)⟩
  case chunk =>
    intro s e r hrun hr hop hcomp hload hissued houts hstop hlast hctr hdest
    obtain ⟨hengines, hself, hne, hmem⟩ := raised_spec (s := s) (u := s.modFerry e nextChunk) (act := r.job.act) (i := r.job.dstCtr % 65536) rfl rfl
    exact ⟨_, nextChunk r, next_of_run hrun (chunkIncrement_of_last hr hop hcomp hload hissued houts hstop hlast hctr hdest),
      (hengines e).trans (modFerry_ferry_self _ hr), rfl, rfl, rfl, hself, hne,
      fun k hk => (hengines k).trans (modFerry_ferry_ne _ _ fun h => hk (Fin.ext h)), hmem⟩
  case complete =>
    intro s e r hrun hr hop hcomp houts hincs hwait hstop hlast hno hctr hdest hwaits
    obtain ⟨u, hu, huself, hune, hinc⟩ := completion_raises hr hop hctr hdest hwaits
    obtain ⟨hengines, hself, hne, hmem⟩ := raised_spec (act := r.job.act) (i := r.job.dstCtr % 65536) hu rfl
    exact ⟨_, _, next_of_run hrun ((completionIncrement_of_ended hr hop hcomp houts hincs hwait hlast hno).trans hinc),
      (hengines e).trans huself, rfl, hself, hne, fun k hk => (hengines k).trans (hune k fun h => hk (Fin.ext h)), hmem⟩
  case held =>
    intro s e r hrun hr hop hcomp houts hincs hwait hstop hlast hno hctr hdest hflag hwaits
    obtain ⟨b, hinc, hself, hlen⟩ := completion_waits hr houts hctr hdest hflag hwaits
    exact ⟨_, next_of_run hrun ((completionIncrement_of_ended hr hop hcomp houts hincs hwait hlast hno).trans hinc), hself, rfl, hlen, rfl⟩
  case ends =>
    intro s u e r hrun hr hcomp houts hincs hu
    obtain ⟨hself, hne, hend⟩ := ferryFinish_of_completed e.isLt hr hcomp houts hincs hu
    exact ⟨_, next_of_run hrun rfl, hself, fun k hk => hne k fun h => hk (Fin.ext h), hend⟩
  case cancel =>
    intro s c lo hi e r hrun hnone hr hcove hdesc hop hcomp
    refine ⟨_, next_of_run hrun (ferryCancel_of_not_waiting hnone), ?_, rfl⟩
    refine (vget_map (Option.map (cancelRun _ _)) none s.bsn.engines e rfl).trans ?_
    rw [show vget none s.bsn.engines e = some r from hr]
    exact congrArg some (if_pos ⟨hcove, hdesc, hop, by rw [hcomp]; rfl⟩)
  case drop =>
    intro s u c lo hi w d hrun hw hu hd
    exact ⟨_, next_of_run hrun (ferryCancel_of_waiting hw hu hd), length_queue_of_ended (List.mem_of_find?_eq_some hw) hu, rfl⟩

end Sys2Proof.Proofs
end

section
/-! Requests and responses of the Basin (spec/10_basin_transactions.md, R376 to R383; spec/11_basin_links_and_topology.md, R430 to R432). -/
namespace Sys2Proof.Proofs
open Sys2Proof Sys2Proof.Machine Sys2Proof.Laws

/-! ### Packets on their way -/

/-- Nothing but the links and their side, and what has arrived for this node, differs. -/
def Dispatched (s t : State) : Prop :=
  t = { s with lnk := t.lnk, ctrs := t.ctrs, flags := t.flags, hif := t.hif, out := t.out, arbs := t.arbs, draws := t.draws, flt := t.flt,
               bsn := { s.bsn with inReq := t.bsn.inReq, inResp := t.bsn.inResp } }

theorem Dispatched.refl (s : State) : Dispatched s s := rfl

theorem Dispatched.trans {s t u : State} (h : Dispatched s t) (k : Dispatched t u) : Dispatched s u := Eq.trans k (by rw [h])

theorem Dispatched.foldl {α : Type} {f : State → α → State} (hf : ∀ s x, Dispatched s (f s x)) (l : List α) (s : State) : Dispatched s (l.foldl f s) := by
  induction l generalizing s with
  | nil => exact .refl s
  | cons x l ih => exact (hf s x).trans (ih _)

theorem Linked.dispatched {s t : State} (h : Linked s t) : Dispatched s t := Eq.trans h.frame (by rw [h.frame])

theorem dispatched_bump (s : State) (o n : Nat) : Dispatched s (s.bump o n) := rfl

theorem dispatched_undeclared (s : State) (res act : Nat) : Dispatched s (s.undeclared res act) := by
  unfold State.undeclared
  split <;> rfl

theorem dispatched_chargeFerry (s : State) (x : TxReq) : Dispatched s (s.chargeFerry x) := by
  unfold State.chargeFerry
  split <;> rfl

theorem dispatched_dispatchPacket (s : State) (p : Packet) (vl act : Nat) : Dispatched s (s.dispatchPacket p vl act) := by
  unfold State.dispatchPacket
  split
  · split <;> rfl
  · exact (linked_toEgress s _ false rfl).dispatched

theorem dispatchPacket_kept (s : State) (p : Packet) (vl act : Nat) :
    (s.dispatchPacket p vl act).bsn.credits = s.bsn.credits ∧ (s.dispatchPacket p vl act).mem = s.mem := by
  have h := dispatched_dispatchPacket s p vl act
  exact ⟨(congrArg (fun x : State => x.bsn.credits) h).trans rfl, (congrArg State.mem h).trans rfl⟩

/-- A request for the own node is looped back. -/
theorem dispatchPacket_of_own {s : State} {r : BasinReq} (h : r.dstNode = s.ownNode) (vl act : Nat) :
    s.dispatchPacket (.request r) vl act = { s with bsn := { s.bsn with inReq := s.bsn.inReq ++ [(r, 0)] } } := if_pos h

theorem dispatched_respond (s : State) (act : Nat) (r : BasinReq) (st : Status) (data : List Byte) : Dispatched s (s.respond act r st data) := by
  unfold State.respond
  split
  · rfl
  · exact (dispatched_undeclared ..).trans (dispatched_dispatchPacket ..)

/-! ### Requests on their way out -/

/-- The credit that a request is sent under. -/
def creditOf (s : State) (x : TxReq) : Outst :=
  { owner := x.owner, node := x.req.dstNode, cove := x.req.srcCove, window := x.req.window, opc := x.req.opc,
    ssn := SMap.get 0 s.bsn.ssnOut (pairKey x.req.srcCove x.req.dstNode), start := s.now,
    ssn0 := SMap.get 0 s.bsn.ssnOut (pairKey x.req.srcCove x.req.dstNode) }

/-- A request that is sent takes the credit and the SSN of its pair. -/
theorem sendRequest_spec (s : State) (x : TxReq) (tag : Nat) {t : State} (ht : s.sendRequest x tag = t) :
    t.bsn.txWait = s.bsn.txWait ∧ SMap.get none t.bsn.credits tag = some (creditOf s x) ∧
      SMap.get 0 t.bsn.ssnOut (pairKey x.req.srcCove x.req.dstNode) = ((creditOf s x).ssn + 1) % 0x100000000 ∧
      (x.req.dstNode = s.ownNode → ∃ q : BasinReq, t.bsn.inReq = s.bsn.inReq ++ [(q, 0)] ∧ q.tag = tag ∧ q.ssn = (creditOf s x).ssn ∧ q.data = x.req.data) := by
  unfold State.sendRequest at ht
  extract_lets r k ssn sent o bsn credited counted at ht
  have hcharged : Dispatched credited ((counted.undeclared 2 x.act).chargeFerry x) :=
    (dispatched_bump ..).trans ((dispatched_undeclared ..).trans (dispatched_chargeFerry ..))
  have hsent : Dispatched credited t := ht ▸ hcharged.trans (dispatched_dispatchPacket ..)
  refine ⟨?_, ?_, ?_, fun hown => ⟨sent, ?_, rfl, rfl, rfl⟩⟩
  · rw [hsent]
  · rw [hsent]
    exact get_put_self _ s.bsn.credits tag (some o)
  · rw [hsent]
    exact get_put_self _ s.bsn.ssnOut k _
  · have hkept : ((counted.undeclared 2 x.act).chargeFerry x).ownNode = s.ownNode := (congrArg State.ownNode hcharged).trans rfl
    have hinReq : ((counted.undeclared 2 x.act).chargeFerry x).bsn.inReq = s.bsn.inReq := by
      unfold State.chargeFerry State.undeclared
      split <;> split <;> rfl
    rw [← ht, dispatchPacket_of_own (r := sent) (hown.trans hkept.symm)]
    exact congrArg (· ++ [(sent, 0)]) hinReq

/-- The first waiting request is looked at, where none is held back by a FLAG. -/
theorem transactionAccept_of_first {s : State} {x : TxReq} {rest : List TxReq} (hheld : s.bsn.flagHeld = []) (hwait : s.bsn.txWait = x :: rest) :
    s.transactionAccept = s.acceptFirst [] (x :: rest) := by
  have hnone : s.bsn.flagHeld.find? (fun f => f.waits.isEmpty ∧ (f.worst ≠ .done ∨ f.tx.req.opc = 0 ∨ (s.creditFor f.tx.req.dstNode).isSome)) = none := by
    rw [hheld]
    rfl
  unfold State.transactionAccept
  rw [hnone, hwait]

theorem acceptFirst_of_send {s : State} {x : TxReq} {tag : Nat} (rest : List TxReq) (h : s.acceptHow x = .send tag) :
    s.acceptFirst [] (x :: rest) = (({ s with bsn := { s.bsn with txWait := rest } } : State).bump (bsnOff x.req.srcCove 0x20) 1).sendRequest x tag := by
  unfold State.acceptFirst
  dsimp only [List.any_nil]
  rw [if_neg Bool.false_ne_true, h]
  rfl

theorem acceptFirst_of_ends {s : State} {x : TxReq} {st : Status} (rest : List TxReq) (h : s.acceptHow x = .ends st) :
    s.acceptFirst [] (x :: rest) = ({ s with bsn := { s.bsn with txWait := rest } } : State).endOwner x.owner x.req.opc st [] := by
  unfold State.acceptFirst
  dsimp only [List.any_nil]
  rw [if_neg Bool.false_ne_true, h]
  rfl

theorem acceptHow_of_lost {s : State} {x : TxReq} (hlost : (s.node x.req.dstNode).lost = true) (hlisted : s.nodeListed x.req.dstNode = true)
    (hpoison : poisonOk x.req = true) : s.acceptHow x = .ends .nodeLost := by
  unfold State.acceptHow
  dsimp only
  rw [hlisted, hpoison, hlost, if_neg (fun h => absurd h.2 (by decide)), if_neg (by decide), if_pos rfl]

/-! ### Requests on their way in -/

theorem newerInc_self (a : Nat) : newerInc a a = false := by
  have hd : (a + 65536 - a % 65536) % 65536 = 0 := by omega
  unfold newerInc
  dsimp only
  rw [hd]
  rfl

theorem modPair_pairIn_self (s : State) (k : Nat) (f : SeqIn → SeqIn) : (s.modPair k f).pairIn k = f (s.pairIn k) := get_upd_self _ _ _ _

theorem modPair_pairIn_ne (s : State) {j k : Nat} (f : SeqIn → SeqIn) (h : j ≠ k) : (s.modPair k f).pairIn j = s.pairIn j := get_upd_ne _ _ _ _ _ h

/-- A pair that is known, has not been restored and whose incarnation the request shows: the request is taken, held or counted. -/
theorem requestArrive_of_known {s : State} {r : BasinReq} {p : SeqIn} (die : Nat) (hp : s.pairIn (pairKey r.srcCove r.srcNode) = p)
    (hnode : (s.node r.srcNode).lost = false) (hknown : p.known = true) (hrest : p.restored = false) (hinc : p.inc = r.inc) :
    s.requestArrive r die =
      if r.ssn = p.next then
        ((((s.modPair (pairKey r.srcCove r.srcNode) fun _ => p).modPair (pairKey r.srcCove r.srcNode)
          fun p => { p with next := (p.next + r.gcnt) % 0x100000000 }).takeRequest r).takeHeld (pairKey r.srcCove r.srcNode) p.held.length)
      else if aheadOf r.ssn p.next then
        if p.held.any fun h => h.1.ssn = r.ssn then s.modPair (pairKey r.srcCove r.srcNode) fun _ => p
        else (s.modPair (pairKey r.srcCove r.srcNode) fun _ => p).modPair (pairKey r.srcCove r.srcNode) fun p => { p with held := p.held ++ [(r, s.now, die)] }
      else (s.modPair (pairKey r.srcCove r.srcNode) fun _ => p).bump (lnkCtr 0x50) 1 := by
  have hsame : (if p.restored then { inc := r.inc, next := r.ssn, known := true }
      else if !p.known || newerInc r.inc p.inc then { inc := r.inc, next := 0, known := true } else p : SeqIn) = p := by
    rw [hrest, hknown, hinc, newerInc_self]
    rfl
  unfold State.requestArrive
  dsimp only
  rw [if_neg (by rw [hnode]; exact fun h => Bool.false_ne_true h.1), hp, hsame, hinc, newerInc_self, hrest, Bool.false_or, Bool.false_and, if_neg Bool.false_ne_true]
  rfl

theorem dispatched_seqIn {s t : State} (h : Dispatched s t) : t.bsn.seqIn = s.bsn.seqIn := (congrArg (fun x : State => x.bsn.seqIn) h).trans rfl

/-- The check, the answer or the queueing of a request leaves the pairs alone. -/
theorem takeRequest_seqIn (s : State) (r : BasinReq) : (s.takeRequest r).bsn.seqIn = s.bsn.seqIn := by
  unfold State.takeRequest
  split
  next row st err hcheck =>
    extract_lets c told counted
    have htold : told.bsn.seqIn = s.bsn.seqIn := by
      unfold told
      split
      · exact (congrArg (fun x : State => x.bsn.seqIn) (accesses_accErr ..).frame).trans rfl
      · rfl
    have hcounted : counted.bsn.seqIn = told.bsn.seqIn := by
      unfold counted
      split <;> rfl
    exact ((dispatched_seqIn (dispatched_respond ..)).trans hcounted).trans htold
  next =>
    split
    · split
      · rfl
      · exact dispatched_seqIn (dispatched_respond ..)
    · unfold State.toDie
      dsimp only
      split <;> rfl

theorem takeRequest_pairIn (s : State) (r : BasinReq) (k : Nat) : (s.takeRequest r).pairIn k = s.pairIn k := congrArg (SMap.get ({} : SeqIn) · k) (takeRequest_seqIn s r)

/-- The one held request of a pair is taken where its SSN is due. -/
theorem takeHeld_of_one {s : State} {k : Nat} {h : BasinReq × Nat × Nat} (hheld : (s.pairIn k).held = [h]) (hnext : h.1.ssn = (s.pairIn k).next) :
    s.takeHeld k 1 = (s.modPair k fun p => { p with held := p.held.erase h, next := (p.next + h.1.gcnt) % 0x100000000 }).takeRequest h.1 := by
  have hfind : (s.pairIn k).held.find? (fun h => h.1.ssn = (s.pairIn k).next) = some h := by
    rw [hheld]
    exact List.find?_cons_of_pos (decide_eq_true hnext)
  unfold State.takeHeld
  dsimp only
  rw [hfind]
  rfl

theorem gapSkip_of_early {s : State} {n c : Nat} (h : (s.pairIn (pairKey c n)).held = []) : s.gapSkip n c = s := by
  unfold State.gapSkip
  dsimp only
  rw [h]

/-- The gap before the one held request of a pair is skipped. -/
theorem gapSkip_of_one {s : State} {n c : Nat} {h : BasinReq × Nat × Nat} (hheld : (s.pairIn (pairKey c n)).held = [h])
    (hdue : h.2.1 + 100 * bits (s.reg (blkLNK + 0x10)).toNat 16 16 ≤ s.now) :
    ∃ u : State, u.bsn.seqIn = (s.modPair (pairKey c n) fun p => { p with next := h.1.ssn }).bsn.seqIn ∧ s.gapSkip n c = u.takeHeld (pairKey c n) 1 := by
  unfold State.gapSkip
  dsimp only
  rw [hheld]
  refine ⟨_, ?_, if_neg (Nat.not_lt_of_le hdue)⟩
  exact (congrArg (fun x : State => x.bsn.seqIn) (records_ripple ..)).trans rfl

/-! ### Groups that are applied -/

theorem applyQ_of_accesses {s t : State} (h : Accesses s t) : t.bsn.applyQ = s.bsn.applyQ := (congrArg (fun x : State => x.bsn.applyQ) h.frame).trans rfl

theorem applyQ_of_works {s t : State} (h : Works s t) : t.bsn.applyQ = s.bsn.applyQ := (congrArg (fun x : State => x.bsn.applyQ) h.frame).trans rfl

theorem bar4Store_applyQ (s : State) (off : Nat) (b : Byte) : (s.bar4Store off b).bsn.applyQ = s.bsn.applyQ := by
  unfold State.bar4Store
  split
  · rfl
  split
  · unfold State.orReady
    refine List.foldlRecOn (List.range 8) _ (motive := fun x : State => x.bsn.applyQ = s.bsn.applyQ) rfl fun x hx i _ => ?_
    split
    · exact hx
    · exact hx
  · rfl

theorem works_applyStore (s : State) (c va act : Nat) (r : BasinReq) : Works s (s.applyStore c va act r).1 := by
  unfold State.applyStore
  extract_lets m bs
  split
  next t st ht =>
  have hstored : Works s t := by
    have h := Works.foldl_fst (f := fun (x : State × Status) (w : Nat × List Byte) =>
      ((x.1.poke c 0x09 act (va + w.1) w.2).1, match (x.1.poke c 0x09 act (va + w.1) w.2).2 with | some e => mergeBasin x.2 e.status | none => x.2))
      (fun a w => works_poke ..) (runsOf bs) (s, Status.done)
    exact (show _ = t from congrArg Prod.fst ht) ▸ h
  refine hstored.trans (Works.foldl (fun s i => ?_) _ t)
  split
  · exact works_poisonVa ..
  · exact .refl s

/-- The work of a request leaves the groups that wait alone. -/
theorem applyOne_applyQ (s : State) (w : ExpWindow) (r : BasinReq) : (s.applyOne w r).1.bsn.applyQ = s.bsn.applyQ := by
  unfold State.applyOne
  extract_lets c va
  split
  · split
    · rfl
    split <;> exact applyQ_of_works (works_touch ..)
  · split
    · exact List.foldlRecOn (reqEnabled r) _ (motive := fun x : State => x.bsn.applyQ = s.bsn.applyQ) rfl fun x hx i _ => (bar4Store_applyQ ..).trans hx
    · exact applyQ_of_works (works_applyStore ..)
  · split
    next d _ =>
      have hat := works_atomicAt s c w.activity d r.aop r.len r.data
      split
      next ht =>
        rw [ht] at hat
        exact applyQ_of_works hat
      next ht =>
        rw [ht] at hat
        exact applyQ_of_works hat
    · rfl
    · exact applyQ_of_works (works_accErr ..)
  · exact applyQ_of_works (works_incArrival ..)
  · rfl

/-- The state that the work of a group leaves: its first member's request, grown to the whole group (R397). -/
def groupDone (s : State) (g : DieGroup) (r : BasinReq) : State :=
  if s.memoryGone then { s with bsn := { s.bsn with applyQ := s.bsn.applyQ.erase g } }
  else (({ s with bsn := { s.bsn with applyQ := s.bsn.applyQ.erase g } } : State).applyOne g.win
    { groupRequest (g.reqs.map fun x => (⟨x.2⟩ : Member)) r with gcnt := r.gcnt }).1

/-- A group whose memory is not poisoned is done, and its members are answered. -/
theorem applyGroup_of_clean {s : State} {g : DieGroup} {m : Nat} {r : BasinReq} {rest : List (Nat × BasinReq)} (hreqs : g.reqs = (m, r) :: rest)
    (hclean : r.opc = 1 → g.win.kind = 1 → s.poisonPage g.win.cove (g.win.baseVa + r.offset) r.len = none) :
    Dispatched (groupDone s g r) (s.applyGroup g) := by
  have hpass : ¬(r.opc = 1 ∧ g.win.kind = 1 ∧ (s.poisonPage g.win.cove (g.win.baseVa + r.offset) r.len).isSome) := fun ⟨h1, h2, h3⟩ => by
    rw [hclean h1 h2] at h3
    exact Bool.false_ne_true h3
  unfold State.applyGroup
  rw [hreqs]
  dsimp -zeta only
  extract_lets w bsn erased ms op counted
  have hdone : groupDone s g r = (if erased.memoryGone then (erased, Status.targetStopped, []) else erased.applyOne w { op with gcnt := r.gcnt }).1 := by
    unfold groupDone
    rw [hreqs]
    rw [apply_ite Prod.fst]
    rfl
  rw [if_neg hpass, hdone]
  exact Dispatched.trans (t := counted) (dispatched_bump ..) (Dispatched.foldl (fun s x => dispatched_respond ..) _ _)

theorem groupDone_applyQ (s : State) (g : DieGroup) (r : BasinReq) : (groupDone s g r).bsn.applyQ = s.bsn.applyQ.erase g := by
  unfold groupDone
  split
  · rfl
  · exact applyOne_applyQ ..

/-- A group of one CTR_INC raises its counter. -/
theorem groupDone_of_increment {s : State} {g : DieGroup} {m : Nat} {r : BasinReq} (hreqs : g.reqs = [(m, r)]) (hgone : s.memoryGone = false)
    (hopc : r.opc = 4) : groupDone s g r = ({ s with bsn := { s.bsn with applyQ := s.bsn.applyQ.erase g } } : State).incArrival r.ctr := by
  unfold groupDone
  rw [hgone, if_neg Bool.false_ne_true, hreqs]
  unfold State.applyOne groupRequest
  dsimp only [List.map]
  rw [hopc]
  rfl

/-- The one group that waits, whose first request is of a source. -/
theorem find_group {g : DieGroup} {node cove : Nat} (h : ∃ x ∈ g.reqs, x.2.srcNode = node ∧ x.2.srcCove = cove) :
    [g].find? (fun g => g.reqs.any fun x => x.2.srcNode = node ∧ x.2.srcCove = cove) = some g := by
  obtain ⟨x, hx, hsrc⟩ := h
  exact List.find?_cons_of_pos (List.any_eq_true.mpr ⟨x, hx, decide_eq_true hsrc⟩)

theorem applyGroup_empties {s : State} {g : DieGroup} {r : BasinReq} (hq : s.bsn.applyQ = [g])
    (hdone : Dispatched (groupDone s g r) (s.applyGroup g)) : (s.applyGroup g).bsn.applyQ = [] := by
  rw [show (s.applyGroup g).bsn.applyQ = (groupDone s g r).bsn.applyQ from (congrArg (fun x : State => x.bsn.applyQ) hdone).trans rfl,
    groupDone_applyQ, hq, List.erase_cons_head]

/-! ### Responses and timeouts -/

/-- The end of a request that no unit waits for returns its credit. -/
theorem endTag_of_none {s : State} {r : BasinResp} {tag ssn : Nat} {o : Outst} (ho : SMap.get none s.bsn.credits tag = some o)
    (hfrom : o.node = r.srcNode) (hlate : o.timedOut = false) (hssn : o.ssn = ssn) (howner : o.owner = .none) (data : List Byte) :
    s.endTag r tag ssn data = (s.freeCredit tag).noteEnded o.cove tag (statusOf r.status) := by
  unfold State.endTag
  rw [ho]
  dsimp only
  rw [if_neg (not_not.mpr hfrom), hlate, hssn, howner, decide_eq_true rfl]
  rfl

/-- The answer of a request that no unit waits for. -/
theorem responseArrive_of_known {s : State} {r : BasinResp} {rest : List BasinResp} {o : Outst} (hq : s.bsn.inResp = r :: rest)
    (hnode : (s.node r.srcNode).lost = false) (hgroup : SMap.get [] s.bsn.groups r.tag = []) (ho : SMap.get none s.bsn.credits r.tag = some o)
    (hfrom : o.node = r.srcNode) (hlate : o.timedOut = false) (hssn : o.ssn = r.ssn) (howner : o.owner = .none) :
    s.responseArrive = ((({ s with bsn := { s.bsn with inResp := rest } } : State).freeCredit r.tag).noteEnded o.cove r.tag (statusOf r.status)) := by
  unfold State.responseArrive
  rw [hq]
  dsimp only
  refine (if_neg (ne_true_of_eq_false hnode)).trans ?_
  rw [hgroup]
  exact endTag_of_none (s := { s with bsn := { s.bsn with inResp := rest } }) ho hfrom hlate hssn howner _

/-- The credit of a request that has timed out: a PROBE is out under it. -/
def probed (s : State) (o : Outst) : Outst :=
  { o with timedOut := true, ssn := SMap.get 0 s.bsn.ssnOut (pairKey o.cove o.node), start := s.now, ssn0 := o.ssn }

theorem transactionTimeout_of_late {s : State} {tag : Nat} {o : Outst} (ho : SMap.get none s.bsn.credits tag = some o) (hlate : o.timedOut = false)
    (howner : o.owner = .none) (hdue : o.start + 100 * bits (s.reg (blkBSN + 4)).toNat 0 16 ≤ s.now) (hnode : (s.node o.node).lost = false) :
    SMap.get none (s.transactionTimeout tag).bsn.credits tag = some (probed s o) ∧ (s.transactionTimeout tag).mem = s.mem := by
  unfold State.transactionTimeout
  rw [ho]
  dsimp -zeta only
  rw [if_neg (Nat.not_lt_of_le hdue), hlate, howner]
  extract_lets ended k ssn o'
  have hprobe : o' = probed s o := by
    unfold probed
    rw [howner]
    rfl
  have hnot : ¬(ended.node o.node).lost = true := ne_true_of_eq_false hnode
  rw [if_neg hnot]
  rw [(dispatchPacket_kept ..).1, (dispatchPacket_kept ..).2, ← hprobe]
  exact ⟨get_put_self none ended.bsn.credits tag (some o'), rfl⟩

theorem transactionTimeout_of_free {s : State} {tag : Nat} (h : SMap.get none s.bsn.credits tag = none) : s.transactionTimeout tag = s := by
  unfold State.transactionTimeout
  rw [h]

/-- The oldest request that has arrived. -/
theorem basinRequestArrive_of_cons {s : State} {r : BasinReq} {die : Nat} {rest : List (BasinReq × Nat)} (hs : s.answers = true)
    (hq : s.bsn.inReq = (r, die) :: rest) :
    execBasinRequestArrive s = .next (({ s with bsn := { s.bsn with inReq := rest } } : State).requestArrive r die) :=
  next_of_answers hs (by rw [hq])

/-- The one group that waits, which nothing earlier holds back. -/
theorem basinRequestApply_of_one {s : State} {g : DieGroup} {n : Node} {c : Cove} (hs : s.answers = true) (hq : s.bsn.applyQ = [g])
    (hsrc : ∃ x ∈ g.reqs, x.2.srcNode = n.toNat ∧ x.2.srcCove = c.val) (hearly : s.earlierWaits g = false) :
    execBasinRequestApply n c s = .next (s.applyGroup g) := by
  refine next_of_answers hs ?_
  rw [hq, find_group hsrc]
  exact if_neg (ne_true_of_eq_false hearly)

/-- The next group toward a compute die goes on. -/
theorem sluiceSend_of_group {s : State} {d : Fin 2} {eg : Fin 38} {g : DieGroup} {rest : List DieGroup} (heg : eg.val = 36 + d.val)
    (hq : vget [] s.bsn.dieQ d = g :: rest) :
    s.sluiceSend eg = { s with bsn := { s.bsn with dieQ := vmod s.bsn.dieQ d fun _ => rest, applyQ := s.bsn.applyQ ++ [g] } } := by
  unfold State.sluiceSend
  rw [if_neg (by omega), heg, Nat.add_sub_cancel_left, hq]

/-- Settles O37: what a request takes or gives back; sending and answering change the links and what has arrived, nothing else. -/
theorem transactionsOfTheBasin : Obligations.TransactionsOfTheBasin := by
  unfold Obligations.TransactionsOfTheBasin
  refine ⟨?send, ?lost, ?ahead, ?due, ?apply, ?increment, ?response, ?late, ?free, ?sluice, ?gap, ?nogap⟩
  case send =>
    intro s x rest tag hs hheld hwait haccept
    obtain ⟨htx, hcredit, hssn, hown⟩ := sendRequest_spec (({ s with bsn := { s.bsn with txWait := rest } } : State).bump (bsnOff x.req.srcCove 0x20) 1) x tag rfl
    refine ⟨_, _, next_of_answers hs ((transactionAccept_of_first hheld hwait).trans (acceptFirst_of_send rest haccept)), htx, hcredit, rfl, rfl, rfl, rfl, rfl, rfl, hssn, hown⟩
  case lost =>
    intro s x rest hs hheld hwait howner hlost hlisted hpoison
    refine next_of_answers hs ((transactionAccept_of_first hheld hwait).trans ((acceptFirst_of_ends rest (acceptHow_of_lost hlost hlisted hpoison)).trans ?_))
    rw [howner]
    rfl
  case ahead =>
    intro s r die rest p hs hq hp hnode hknown hrest hinc hne hahead
    have harrive := requestArrive_of_known (s := { s with bsn := { s.bsn with inReq := rest } }) die hp hnode hknown hrest hinc
    rw [if_neg hne, if_pos hahead] at harrive
    refine ⟨_, (basinRequestArrive_of_cons hs hq).trans (congrArg Host.Outcome.next harrive), ?_⟩
    split
    · exact ⟨rfl, modPair_pairIn_self .., rfl⟩
    · refine ⟨rfl, (modPair_pairIn_self ..).trans ?_, rfl⟩
      rw [modPair_pairIn_self]
      rfl
  case due =>
    intro s r die rest p hs hq hp hnode hknown hrest hinc hssn hheld
    have harrive := requestArrive_of_known (s := { s with bsn := { s.bsn with inReq := rest } }) die hp hnode hknown hrest hinc
    rw [if_pos hssn, hheld] at harrive
    refine ⟨_, (basinRequestArrive_of_cons hs hq).trans (congrArg Host.Outcome.next harrive), ?_, fun k hk => ?_⟩
    · refine (takeRequest_pairIn ..).trans ((modPair_pairIn_self ..).trans ?_)
      rw [modPair_pairIn_self]
    · exact (takeRequest_pairIn ..).trans ((modPair_pairIn_ne _ _ hk).trans (modPair_pairIn_ne _ _ hk))
  case apply =>
    intro s n c g hs hq hsrc hearly hclean
    obtain ⟨⟨m, r⟩, rest, hreqs⟩ : ∃ x rest, g.reqs = x :: rest := by
      obtain ⟨x, hx, _⟩ := hsrc
      exact List.exists_cons_of_ne_nil (List.ne_nil_of_mem hx)
    have hdone := applyGroup_of_clean hreqs (hclean (m, r) (by rw [hreqs]; rfl))
    exact ⟨_, basinRequestApply_of_one hs hq hsrc hearly, applyGroup_empties hq hdone⟩
  case increment =>
    intro s n c g m r hs hgone hq hreqs hnode hcove hopc hearly
    have hsrc : ∃ x ∈ g.reqs, x.2.srcNode = n.toNat ∧ x.2.srcCove = c.val := ⟨(m, r), by rw [hreqs]; exact List.mem_cons_self, hnode, hcove⟩
    have hdone := applyGroup_of_clean (s := s) hreqs fun h => absurd (h.symm.trans hopc) (by decide)
    have harr (i : Nat) : (s.applyGroup g).arr i = if i = r.ctr then s.arr r.ctr + 1 else s.arr i := by
      rw [show (s.applyGroup g).arr i = (groupDone s g r).arr i from (congrArg (fun x : State => x.arr i) hdone).trans rfl,
        groupDone_of_increment hreqs hgone hopc, incArrival_arr]
      rfl
    refine ⟨_, basinRequestApply_of_one hs hq hsrc hearly, applyGroup_empties hq hdone, ?_, fun i hi => ?_, ?_⟩
    · rw [harr, if_pos rfl]
    · rw [harr, if_neg hi]
    · rw [show (s.applyGroup g).mem = (groupDone s g r).mem from (congrArg State.mem hdone).trans rfl, groupDone_of_increment hreqs hgone hopc,
        incArrival_frame]
  case response =>
    intro s r rest o hs hq hnode hgroup ho hfrom hlate hssn howner
    refine ⟨_, next_of_answers hs (responseArrive_of_known hq hnode hgroup ho hfrom hlate hssn howner), rfl, ?_, fun k hk => ?_, rfl⟩
    · exact get_put_self none s.bsn.credits r.tag none
    · exact get_put_ne none none s.bsn.credits r.tag k none hk
  case late =>
    intro s tag o hs ho hlate howner hdue hnode
    obtain ⟨hcredit, hmem⟩ := transactionTimeout_of_late ho hlate howner hdue hnode
    exact ⟨_, _, next_of_answers hs rfl, hcredit, rfl, rfl, rfl, rfl, rfl, hmem⟩
  case free =>
    intro s tag h
    exact congrArg Host.Outcome.next (whileOn_of_fixed (transactionTimeout_of_free h))
  case sluice =>
    intro s d eg g rest hs heg hq
    refine ⟨_, next_of_answers hs (sluiceSend_of_group heg hq), vget_vmod_self _ _ _ _ d.isLt, rfl, rfl⟩
  case gap =>
    intro s n c h hs hheld hdue
    obtain ⟨u, hu, hskip⟩ := gapSkip_of_one hheld hdue
    have hpair : u.pairIn (pairKey c n.toNat) = { s.pairIn (pairKey c n.toNat) with next := h.1.ssn } :=
      (congrArg (SMap.get ({} : SeqIn) · (pairKey c n.toNat)) hu).trans (modPair_pairIn_self s (pairKey c n.toNat) _)
    have htaken := takeHeld_of_one (s := u) (k := pairKey c n.toNat) (h := h) (by rw [hpair]; exact hheld) (by rw [hpair])
    refine ⟨_, next_of_answers hs (hskip.trans htaken), ?_, ?_⟩
    · rw [takeRequest_pairIn, modPair_pairIn_self, hpair]
      dsimp only
      rw [hheld, List.erase_cons_head]
    · rw [takeRequest_pairIn, modPair_pairIn_self, hpair]
  case nogap =>
    intro s n c h
    exact congrArg Host.Outcome.next (whileOn_of_fixed (gapSkip_of_early h))

end Sys2Proof.Proofs
end

section
/-! Loads of the Inlet (spec/09_weight_intake.md, R329 to R336). -/
namespace Sys2Proof.Proofs
open Sys2Proof Sys2Proof.Machine Sys2Proof.Laws

/-! ### What a load's accesses leave alone -/

theorem works_writeLeaf (s : State) (c va e : Nat) : Works s (s.writeLeaf c va e).1 := by
  unfold State.writeLeaf
  split
  · exact .refl s
  · extract_lets mended
    have hmended : Works s mended := by
      unfold mended
      split
      · exact works_of_accesses (accesses_writeGranule ..)
      · exact .refl s
    exact hmended.trans (works_of_accesses (accesses_writeGranule ..))

theorem works_objLeaves (s : State) (c va : Nat) (es : List Nat) : Works s (s.objLeaves c va es) := Works.foldl (fun _ _ => works_writeLeaf ..) _ s

theorem works_loadAnswer (s : State) (c addr : Nat) (d : List Byte) (st : Status) : Works s (s.loadAnswer c addr d st) :=
  ((works_poke ..).trans (works_noteStatus ..)).trans (works_applyDone ..)

theorem obj_of_works {s t : State} (h : Works s t) (c i : Nat) : t.obj c i = s.obj c i := (congrArg (fun x : State => x.obj c i) h.frame).trans rfl

theorem inl_of_works {s t : State} (h : Works s t) : t.inl = s.inl := (congrArg State.inl h.frame).trans rfl

theorem loadCtx_of_works {s t : State} (h : Works s t) (x : Nat) : t.loadCtx x = s.loadCtx x := congrArg (fun i : Inl => vget none i.ctx x) (inl_of_works h)

theorem setCtx_loadCtx_self (s : State) (x : Fin 4) (k : Option LoadCtx) : (s.setCtx x k).loadCtx x = k := vget_vmod_self _ _ _ _ x.isLt

theorem setCtx_loadCtx_ne (s : State) {x y : Nat} (k : Option LoadCtx) (h : y ≠ x) : (s.setCtx x k).loadCtx y = s.loadCtx y := vget_vmod_ne _ _ _ _ _ h

/-! ### A load is taken -/

theorem loadCove_lt {s : State} {c : Nat} (h : s.loadCove = some c) : c < 8 := by
  obtain ⟨i, _, hi⟩ := List.mem_map.mp (List.mem_of_find?_eq_some h)
  exact hi ▸ Nat.mod_lt _ (by decide)

/-- A descriptor that can be read and that passes the checks is accepted. -/
theorem loadTake_of_admitted {s u : State} {x c a : Nat} {rest : List Nat} {d entries : List Byte} (hfree : s.loadCtx x = none) (hdue : s.rerunDue = false)
    (hcove : s.loadCove = some c) (hq : vget [] s.inl.queues c = a :: rest) (hpoison : s.loadPoison c a = [])
    (hu : u = (s.modInl fun i => { i with queues := vmod i.queues c fun _ => rest, lastCove := c }).touch c unitInlet 0 a 128)
    (hd : u.peek c a 128 = .ok d) (hfields : loadFields a d = true) (hentries : u.peek c (ldTensorAddr d) (64 * ldTensors d) = .ok entries)
    (hcheck : u.loadCheck c a d (tensorList entries) = none) (hsome : ldTensors d ≠ 0) : s.loadTake x = u.loadAccept x c a d entries := by
  have hidle : ¬((s.loadCtx x).isSome ∨ s.rerunDue) := by rw [hfree, hdue]; decide
  unfold State.loadTake
  rw [if_neg hidle, hcove]
  dsimp only
  rw [hq]
  dsimp only
  rw [hpoison, if_neg (by decide), ← hu, hd]
  dsimp only
  rw [hfields, if_neg (by decide), hentries]
  dsimp only
  rw [hcheck]
  exact if_neg hsome

/-- The context of a load that starts. -/
def startedCtx (v : State) (c a : Nat) (d entries : List Byte) : LoadCtx :=
  { cove := c, addr := a, desc := d, tensors := entries, obj := ldObj d, key := v.loadKey c d }

/-- An object whose pages have been found. -/
def given (ps : List Nat) (o : Obj) : Obj := { o with pages := ps, moved := 0 }

/-- A load that finds its pages free takes them all. -/
theorem loadWait_of_free {s : State} {x : Nat} {k : LoadCtx} (hpages : k.pages = [])
    (hfree : (s.objFreePages k.cove (s.obj k.cove k.obj).decl.npages).length = (s.obj k.cove k.obj).decl.npages) :
    s.loadWait x k = (s.setCtx x (some { k with waiting := false, pages := [] })).modObj k.cove k.obj
      (given (s.objFreePages k.cove (s.obj k.cove k.obj).decl.npages)) := by
  have htaken : s.loadPages x k = ((s.setCtx x (some { k with waiting := false, pages := [] })).modObj k.cove k.obj
      (given (s.objFreePages k.cove (s.obj k.cove k.obj).decl.npages)), true) := by
    unfold State.loadPages
    rw [hpages]
    exact if_pos hfree
  unfold State.loadWait
  rw [htaken]

/-- What an accepted load leaves: its context, its object in LOADING, and its pages. -/
theorem loadAccept_spec {u v : State} {x : Fin 4} {c a n : Nat} {d entries : List Byte}
    (hv : v = u.setWord c (ldObj d) fun w => { w with state := .loading, use := w.use + 1 }) (hn : n = (v.obj c (ldObj d)).decl.npages)
    (hfree : ldHbm d = true → (v.objFreePages c n).length = n) :
    (u.loadAccept x c a d entries).loadCtx x = some (startedCtx v c a d entries) ∧
      ((u.loadAccept x c a d entries).obj c (ldObj d)).word.state = .loading ∧ (u.loadAccept x c a d entries).inl.queues = u.inl.queues ∧
      (ldHbm d = true → ((u.loadAccept x c a d entries).obj c (ldObj d)).pages = v.objFreePages c n) := by
  have hword : (v.obj c (ldObj d)).word.state = .loading := by rw [hv, setWord_word_self]
  have hqueues : v.inl.queues = u.inl.queues := by
    rw [hv]
    rfl
  have haccept : u.loadAccept x c a d entries =
      if ldHbm d then v.loadWait x (startedCtx v c a d entries) else v.setCtx x (some (startedCtx v c a d entries)) := by
    rw [hv]
    rfl
  rw [haccept]
  cases hhbm : ldHbm d with
  | false =>
    rw [if_neg Bool.false_ne_true]
    exact ⟨setCtx_loadCtx_self .., hword, hqueues, nofun⟩
  | true =>
    rw [if_pos rfl, loadWait_of_free rfl (show (v.objFreePages c _).length = _ from hn ▸ hfree hhbm)]
    refine ⟨setCtx_loadCtx_self .., ?_, hqueues, fun _ => ?_⟩
    · exact (congrArg (fun o => o.word.state) (modObj_obj_self (v.setCtx x _) c (ldObj d) (given _))).trans hword
    · rw [hn]
      exact congrArg Obj.pages (modObj_obj_self (v.setCtx x _) c (ldObj d) (given _))

/-! ### A load completes -/

/-- Table 09.5: the object of a completed load. -/
theorem loadedObject_spec (s : State) (c i : Nat) (d : List Byte) (key : Option (List Byte)) (st : Status) :
    ((s.loadedObject c i d key st).obj c i).word.state = (if ldHbm d then .resident else .slow) ∧
      ((s.loadedObject c i d key st).obj c i).intake = some { keep := ldKeep d, desc := d, key } := by
  unfold State.loadedObject
  extract_lets made o mapped held
  have hmapped : Works made mapped := by
    unfold mapped
    split
    · split
      · exact works_objLeaves ..
      · exact (works_objLeaves ..).trans (works_objLeaves ..)
    · exact works_objLeaves ..
  have hintake : (mapped.obj c i).intake = some { keep := ldKeep d, desc := d, key } :=
    (congrArg Obj.intake (obj_of_works hmapped c i)).trans (congrArg Obj.intake (modObj_obj_self s c i _))
  have hheld : (held.obj c i).word.state = (if ldHbm d then .resident else .slow) ∧ (held.obj c i).intake = some { keep := ldKeep d, desc := d, key } :=
    ⟨congrArg ObjWord.state (setWord_word_self mapped c i _), (congrArg Obj.intake (modObj_obj_self mapped c i _)).trans hintake⟩
  have hkept : (if ldHbm d then held.noteReady c i else held).obj c i = held.obj c i := by split <;> rfl
  rw [hkept]
  exact hheld

/-- What a completed load leaves: a free context and its object. -/
theorem loadFinish_spec (s : State) (x : Fin 4) (k : LoadCtx) (b : List Byte) (outs : List (List Byte × TensorOut)) {t : State}
    (ht : s.loadFinish x k b outs = t) :
    t.loadCtx x = none ∧ (t.obj k.cove k.obj).word.state = (if ldHbm k.desc then .resident else .slow) ∧
      (t.obj k.cove k.obj).intake = some { keep := ldKeep k.desc, desc := k.desc, key := k.key } := by
  unfold State.loadFinish at ht
  extract_lets c d o st charged placed slowed counted noted loaded told sized at ht
  have hsized : Works loaded sized := by
    refine Works.trans (Works.foldl (fun s y => ?_) outs.zipIdx loaded) (works_poke ..)
    exact (works_poke ..).trans (works_poke ..)
  have hlast : Works (sized.setCtx x none) t := ht ▸ (works_bump ..).trans (works_loadAnswer ..)
  obtain ⟨hstate, hintake⟩ := loadedObject_spec noted c k.obj d k.key st
  have hobj : t.obj c k.obj = loaded.obj c k.obj := (obj_of_works hlast c k.obj).trans (obj_of_works hsized c k.obj)
  exact ⟨(loadCtx_of_works hlast x).trans (setCtx_loadCtx_self ..), (congrArg (fun o => o.word.state) hobj).trans hstate,
    (congrArg Obj.intake hobj).trans hintake⟩

theorem loadComplete_of_result {s : State} {x : Nat} {k : LoadCtx} {b : List Byte} {outs : List (List Byte × TensorOut)} (hk : s.loadCtx x = some k)
    (hload : k.refetch = none) (hwait : k.waiting = false) (hgo : k.abortCause none = none) (hresult : s.loadResult k none = .ok (b, outs)) :
    s.loadComplete x = s.loadFinish x k b outs := by
  unfold State.loadComplete
  rw [hk]
  dsimp only
  rw [hload, hwait, if_neg (by decide)]
  refine (if_pos rfl).trans ?_
  unfold State.loadRun
  rw [hresult]
  dsimp only
  rw [hgo]

/-! ### A load is aborted or cancelled -/

/-- What an aborted load leaves (R334). -/
theorem loadAbort_spec {s : State} {x : Fin 4} {k : LoadCtx} (hk : s.loadCtx x = some k) (st : Status) :
    (s.loadAbort x st).loadCtx x = none ∧ ((s.loadAbort x st).obj k.cove k.obj).word.state = .absent ∧
      ((s.loadAbort x st).obj k.cove k.obj).word.lastStatus = st.code ∧ ((s.loadAbort x st).obj k.cove k.obj).pages = [] := by
  unfold State.loadAbort
  rw [hk]
  dsimp -zeta only
  extract_lets emptied freed
  have hlast : Works freed ((freed.bump (inlOff k.cove 0x28) 1).loadAnswer k.cove k.addr k.desc st) := (works_bump ..).trans (works_loadAnswer ..)
  have hword := setWord_word_self emptied k.cove k.obj fun w => { w with state := .absent, use := w.use - 1, lastStatus := st.code, tier := 0 }
  rw [loadCtx_of_works hlast, obj_of_works hlast]
  refine ⟨setCtx_loadCtx_self s x none, congrArg ObjWord.state hword, congrArg ObjWord.lastStatus hword, ?_⟩
  exact (congrArg Obj.pages (modObj_obj_self emptied k.cove k.obj _)).trans (congrArg Obj.pages (modObj_obj_self (s.setCtx x none) k.cove k.obj _))

theorem loadStop_of_cancelled {s : State} {x : Nat} {k : LoadCtx} (hk : s.loadCtx x = some k) (hload : k.refetch = none) (hcancel : k.cancelled = true)
    (hplain : ldEncrypted k.desc = false) : s.loadStop x none = s.loadAbort x .cancelled := by
  have hcause : k.abortCause none = some .cancelled := by
    unfold LoadCtx.abortCause
    simp [hplain, hcancel]
  unfold State.loadStop
  rw [hk]
  dsimp only
  rw [hload, if_neg (by decide), hcause]

/-- A load that still waits leaves its queue. -/
theorem loadCancel_of_queued {s : State} {c : Cove} {addr : Nat} (h : addr ∈ vget [] s.inl.queues c) :
    vget [] (s.loadCancel c addr).inl.queues c = (vget [] s.inl.queues c).erase addr := by
  unfold State.loadCancel
  rw [if_pos h]
  extract_lets u
  have hu : vget [] u.inl.queues c = (vget [] s.inl.queues c).erase addr := vget_vmod_self _ _ _ _ c.isLt
  split
  · exact (congrArg (fun i : Inl => vget [] i.queues c) (inl_of_works (works_loadAnswer ..))).trans hu
  · exact (congrArg (fun i : Inl => vget [] i.queues c) (inl_of_works ((works_poke ..).trans (works_noteStatus ..)))).trans hu

/-- A context whose load a CANCEL names. -/
def cancelCtx (c addr : Nat) (k : LoadCtx) : LoadCtx := if k.cove = c ∧ k.addr = addr ∧ k.refetch.isNone then { k with cancelled := true } else k

theorem loadCancel_of_not_queued {s : State} {c addr : Nat} (h : addr ∉ vget [] s.inl.queues c) :
    s.loadCancel c addr = s.modInl fun i => { i with ctx := i.ctx.map (Option.map (cancelCtx c addr)) } := if_neg h

/-- Settles O35: the accesses of a load leave the objects and the contexts alone, so each load's own writes of them stand. -/
theorem loadsOfTheInlet : Obligations.LoadsOfTheInlet := by
  unfold Obligations.LoadsOfTheInlet
  refine ⟨?take, ?complete, ?abort, ?cancel, ?name⟩
  case take =>
    intro s u v x c a n rest d entries hrun hwork hfree hdue hcove hq hpoison hu hd hfields hentries hcheck hsome hv hn hpages
    have htake := loadTake_of_admitted hfree hdue hcove hq hpoison hu hd hfields hentries hcheck hsome
    obtain ⟨hctx, hstate, hqueues, hgot⟩ := loadAccept_spec (x := x) (a := a) (entries := entries) hv hn hpages
    refine ⟨_, _, next_of_run hrun ((if_pos hwork).trans htake), hctx, rfl, rfl, rfl, rfl, rfl, rfl, rfl, rfl, hstate, ?_, hgot⟩
    have hinl : u.inl.queues = vmod s.inl.queues c fun _ => rest := by
      rw [hu]
      exact congrArg Inl.queues (inl_of_works (works_touch ..))
    rw [hqueues, hinl, vget_vmod_self _ _ _ _ (loadCove_lt hcove)]
  case complete =>
    intro s x k b outs hrun hk hload hwait hgo hresult
    obtain ⟨hctx, hstate, hintake⟩ := loadFinish_spec s x k b outs rfl
    exact ⟨_, next_of_run hrun (loadComplete_of_result hk hload hwait hgo hresult), hctx, hstate, hintake, rfl⟩
  case abort =>
    intro s x k hrun hk hload hcancel hwait hplain
    exact ⟨_, next_of_run hrun (loadStop_of_cancelled hk hload hcancel hplain), loadAbort_spec hk .cancelled⟩
  case cancel =>
    intro s c lo hi hrun hmem
    exact ⟨_, next_of_run hrun rfl, loadCancel_of_queued hmem⟩
  case name =>
    intro s c lo hi x k hrun hmem hk hcove haddr hload
    refine ⟨_, next_of_run hrun (loadCancel_of_not_queued hmem), ?_, rfl⟩
    refine (vget_map (Option.map (cancelCtx _ _)) none s.inl.ctx x rfl).trans ?_
    rw [show vget none s.inl.ctx x = some k from hk]
    exact congrArg some (if_pos ⟨hcove, haddr, by rw [hload]; rfl⟩)

end Sys2Proof.Proofs
end

section
/-! Page moves (spec/08_tiers_and_translation.md, R315, R316, R322) and refetches (spec/17_faults_and_recovery.md, R601 to R604). -/
namespace Sys2Proof.Proofs
open Sys2Proof Sys2Proof.Machine Sys2Proof.Laws

/-! ### Page moves -/

theorem accesses_chargeMove (s : State) (act src dst n : Nat) : Accesses s (s.chargeMove act src dst n) := by
  unfold State.chargeMove
  dsimp only
  split
  · exact .refl s
  · exact accesses_charge ..

theorem accesses_withMem (s : State) (m : Memory) : Accesses s { s with mem := m } := ⟨rfl, fun _ => rfl⟩

/-- A granule that is copied is an access. -/
theorem accesses_copyGranule (s : State) (act cs src cd dst : Nat) : Accesses s (s.copyGranule act cs src cd dst) := by
  unfold State.copyGranule
  extract_lets bad bs read zeroed
  have hread : Accesses s read := (accesses_chargeMove ..).trans (accesses_readGranule ..)
  have hzeroed : Accesses s zeroed := hread.trans (accesses_writeGranule ..)
  clear_value read zeroed
  split
  · exact hread.trans (accesses_writeGranule ..)
  split
  · exact hzeroed.trans (accesses_withMem ..)
  split
  · exact hread
  · exact hread.trans (accesses_writeGranule ..)

theorem works_movePage (s : State) (act c src dst : Nat) : Works s (s.movePage act c src dst) :=
  works_of_accesses ((accesses_charge ..).trans (Accesses.foldl (fun _ _ => accesses_copyGranule ..) _ _))

theorem modObj_obj_ne (s : State) {c i e j : Nat} (f : Obj → Obj) (h : 16384 * e + j ≠ 16384 * c + i) : (s.modObj c i f).obj e j = s.obj e j :=
  get_upd_ne _ _ _ _ _ h

/-- The count of a page that has been moved. -/
def pageMoved (u : State) (c i : Nat) : State := (u.modObj c i fun o => { o with moved := o.moved + 1 }).bump (spwOff c 0x50) 1

theorem pageMoved_spec (u : State) (c i : Nat) :
    (pageMoved u c i).obj c i = { u.obj c i with moved := (u.obj c i).moved + 1 } ∧
      (∀ e j, 16384 * e + j ≠ 16384 * c + i → (pageMoved u c i).obj e j = u.obj e j) ∧
      pageMoved u c i = { u with objs := (pageMoved u c i).objs, ctrs := (pageMoved u c i).ctrs } :=
  ⟨modObj_obj_self u c i fun o => { o with moved := o.moved + 1 },
   fun _ _ h => modObj_obj_ne u (fun o => { o with moved := o.moved + 1 }) h, rfl⟩

/-- A page move of an object under SEPARATE that is promoting and has more pages to move. -/
theorem objMove_of_promoting {s : State} {c i : Nat} {d : CoveDecl} (hd : s.cove c = some d) (hsep : d.unified = false)
    (hstate : (s.obj c i).word.state = .promoting) (hmore : (s.obj c i).moved + 1 < (s.obj c i).decl.npages) :
    s.objMove c i true = pageMoved (s.movePage ((s.obj c i).moveAct.getD (s.obj c i).decl.activity) c ((s.obj c i).decl.slowDpa (s.obj c i).moved)
      (d.pageDpa (nth 0 (s.obj c i).pages (s.obj c i).moved))) c i := by
  unfold State.objMove
  dsimp only
  rw [hd, hstate]
  dsimp only
  rw [hsep, if_neg (fun h => absurd h.2 (by decide)), if_neg Bool.false_ne_true]
  exact if_neg (Nat.not_le_of_lt hmore)

theorem works_kvLeaf (s : State) (c va e : Nat) : Works s (s.kvLeaf c va e) := by
  have h := works_writeLeaf s c va e
  unfold State.kvLeaf
  split
  next t ht =>
    rw [ht] at h
    exact h
  next t ht =>
    rw [ht] at h
    exact h.trans (works_bump ..)

/-- The page moved, in the place of the one that was. -/
def repage (k new y : KvPage) : KvPage := if y = k then new else y

/-- The pages of a stream after one of them has moved. -/
theorem kvMovePage_pages (s : State) (e : Nat) (k : KvPage) (p : Pool) (n : Nat) :
    ((s.kvMovePage e k p n).sx e).pages = (s.sx e).pages.map (repage k { k with pool := p, page := n }) := by
  unfold State.kvMovePage
  extract_lets new act moved mapped paged
  have hmapped : Works s mapped := (works_movePage ..).trans (works_kvLeaf ..)
  have hsx : mapped.sx e = s.sx e := (congrArg (fun x : State => x.sx e) hmapped.frame).trans rfl
  have hpaged : (paged.sx e).pages = (mapped.sx e).pages.map (repage k new) := congrArg StreamX.pages (setSx_sx_self mapped e _)
  exact hpaged.trans (congrArg (fun x : StreamX => x.pages.map (repage k new)) hsx)

/-- Pages above the one that moves stay where they are. -/
theorem any_above_repage {l : List KvPage} {k : KvPage} (new : KvPage) (h : l.any (fun y => y.pool = .hbm ∧ k.va < y.va) = true) :
    (l.map (repage k new)).any (fun y => y.pool = .hbm ∧ k.va < y.va) = true := by
  obtain ⟨y, hy, hp⟩ := List.any_eq_true.mp h
  have hne : y ≠ k := fun heq => by
    rw [decide_eq_true_iff, heq] at hp
    exact Nat.lt_irrefl _ hp.2
  exact List.any_eq_true.mpr ⟨y, List.mem_map.mpr ⟨y, hy, if_neg hne⟩, hp⟩

/-- A page move of a stream that is demoted and has more pages to move. -/
theorem kvMoveStep_of_demote {s : State} {e : Nat} {ok deep : Bool} {k : KvPage} {n : Nat} {l : List Nat} {p : Pool}
    (hmove : (s.sx e).move = some (.demote deep)) (hp : p = (if deep then .deep else .host))
    (hk : (s.sx e).pages.find? (fun y => y.pool = .hbm ∧ (s.sx e).movePos ≤ y.va) = some k) (hclean : deep = true ∨ s.pageBad (s.kvDpa k) = false)
    (hpick : s.kvPick k.cove p 1 = n :: l) (hmore : (s.sx e).pages.any (fun y => y.pool = .hbm ∧ k.va < y.va) = true) :
    s.kvMoveStep e ok = s.kvMovePage e k p n := by
  have hgo : ¬(!deep && s.pageBad (s.kvDpa k)) = true := by
    rcases hclean with h | h <;> rw [h] <;> simp
  unfold State.kvMoveStep
  dsimp only
  rw [hmove]
  dsimp only
  rw [hk]
  dsimp only
  rw [if_neg hgo, ← hp, hpick]
  refine if_pos ?_
  rw [kvMovePage_pages]
  exact any_above_repage _ hmore

/-! ### A refetch is opened -/

/-- Nothing but the log and what signals differs: the refetch table and every counter of it stay. -/
theorem faultLog_refetch (s : State) (kind unit : Nat) (st : Status) (cove addr info : Nat) :
    (s.faultLog kind unit st cove addr info).flt.refetch = s.flt.refetch := by
  unfold State.faultLog
  dsimp only
  split
  · rfl
  · rw [congrArg State.flt (signals_fltEvent _ 0)]

theorem faultLog_ctr (s : State) (kind unit : Nat) (st : Status) (cove addr info : Nat) {o : Nat} (hdrop : o ≠ blkFLT + 0x78) (hsent : o ≠ ctrMsixSent) :
    (s.faultLog kind unit st cove addr info).ctr o = s.ctr o := by
  unfold State.faultLog
  dsimp only
  split
  · exact bump_ctr_ne _ _ _ _ hdrop
  · exact (event_ctr _ _ _ _ _ hsent).trans rfl

/-- A read that is counted and logged as a wait for a refetch. -/
def refetchNoted (s : State) (w : Waiter) (va i : Nat) : State :=
  ((s.bump (blkFLT + 0x40) 1).bump (coveOff blkFLT w.cove 8) 1).faultLog 0x02 w.unit .poisoned w.cove va i

/-- A refetch that is opened: its entry, and the loads of its first source. -/
theorem openRefetch_spec (s : State) (c i va : Nat) (w : Waiter) {t : State} (ht : s.openRefetch c i va w = t) :
    (∃ r : Refetch, t.flt.refetch = s.flt.refetch ++ [r] ∧ r.cove = c ∧ r.va = va ∧ r.obj = i ∧ r.waiters = [w]) ∧
      t = { s with objs := t.objs, flt := t.flt, bsn := t.bsn } := by
  unfold State.openRefetch at ht
  extract_lets u at ht
  have hu : u = { s with objs := u.objs } := by
    unfold u
    split <;> rfl
  have hrefetch : u.flt.refetch = s.flt.refetch := (congrArg (fun x : State => x.flt.refetch) hu).trans rfl
  clear_value u
  split at ht
  next src _ =>
    refine ⟨⟨{ cove := c, obj := i, va, source := 1, waiters := [w], outs := (pageLoads c va src).length }, ?_, rfl, rfl, rfl, rfl⟩, ?_⟩
    · rw [← ht, ← hrefetch]
      rfl
    · rw [← ht, hu]
      rfl
  next =>
    refine ⟨⟨{ cove := c, obj := i, va, source := if u.hasIntake c i then 2 else 0, waiters := [w] }, ?_, rfl, rfl, rfl, rfl⟩, ?_⟩
    · rw [← ht, ← hrefetch]
      rfl
    · rw [← ht, hu]
      rfl

theorem joinRefetch_of_new {s : State} {w : Waiter} {va i : Nat} (hnew : s.refetchOf w.cove va = none) (howner : s.pageOwner w va = some i)
    (hroom : s.flt.refetch.length < 512) : s.joinRefetch w va = refetchNoted (s.openRefetch w.cove i va w) w va i := by
  unfold State.joinRefetch
  rw [hnew]
  dsimp only
  rw [howner]
  exact if_neg (Nat.not_le_of_lt hroom)

/-- The count and the log of a refetch add one to its counter and change nothing of the engines. -/
theorem refetchNoted_spec (s : State) (w : Waiter) (va i : Nat) :
    (refetchNoted s w va i).flt.refetch = s.flt.refetch ∧ (refetchNoted s w va i).ctr (blkFLT + 0x40) = s.ctr (blkFLT + 0x40) + 1 ∧
      (refetchNoted s w va i).mem = s.mem ∧ (refetchNoted s w va i).cores = s.cores ∧ (refetchNoted s w va i).atns = s.atns := by
  have hcove : blkFLT + 0x40 ≠ coveOff blkFLT w.cove 8 := by unfold coveOff; omega
  unfold refetchNoted
  refine ⟨faultLog_refetch .., ?_, faultLog_mem .., ?_, ?_⟩
  · rw [faultLog_ctr _ _ _ _ _ _ _ (by decide) (by decide), bump_ctr_ne _ _ _ _ hcove]
    exact bump_ctr_self ..
  · exact (congrArg State.cores (faultLog_frame ..)).trans rfl
  · exact (congrArg State.atns (faultLog_frame ..)).trans rfl

/-! ### A refetch ends -/

theorem works_writePage (s : State) (c a : Nat) (b : List Byte) : Works s (s.writePage c a b) :=
  Works.foldl (fun _ _ => works_of_accesses (accesses_writeGranule ..)) _ s

/-- An engine's run, free to restart where it waited for the page. -/
def release (c va : Nat) (r : TileRun) : TileRun := if r.cove = c ∧ r.waiting = some va then { r with released := true } else r

theorem ferryResume_of_none (s : State) {ws : List Waiter} (h : ∀ w ∈ ws, w.unit ≠ unitFerry) : s.ferryResume ws = s := by
  have hnone : ws.filter (fun w => w.unit = unitFerry) = [] := List.filter_eq_nil_iff.mpr fun w hw => by
    rw [decide_eq_true_iff]
    exact h w hw
  unfold State.ferryResume
  rw [hnone]
  rfl

/-- The state in which a refetched page stands, its entry still open. -/
def pageRestored (s : State) (r : Refetch) (c va a : Nat) (b : List Byte) : State :=
  ((((s.writePage c a b).bump (blkFLT + if r.source = 1 then 0x48 else 0x50) 1).bump (spwOff c 0x58) 1).faultLog 0x03 unitSpw .done c va r.obj)

theorem refetchDone_of_page {s : State} {c va a : Nat} {r : Refetch} {b : List Byte} (hr : s.refetchOf c va = some r)
    (hgot : (r.source = 1 ∧ r.page = some b) ∨ (r.source = 2 ∧ s.recordPage r = .ok b)) (hferry : ∀ w ∈ r.waiters, w.unit ≠ unitFerry)
    (hwrites : r.writes = []) (hobj : r.obj < 16384) (hcove : r.cove = c) (ha : s.restoreDpa r = some a) :
    s.refetchDone c va = ((pageRestored s r c va a b).dropRefetch r).releaseEngines c va := by
  have hpage : s.restorePage r b = s.writePage c a b := by
    unfold State.restorePage
    rw [ha, ← hcove]
    exact if_pos hobj
  unfold State.refetchDone
  rw [hr]
  dsimp -zeta only
  extract_lets got
  have hb : got = some b := by
    unfold got
    rcases hgot with ⟨hsource, h⟩ | ⟨hsource, h⟩
    · rw [if_pos hsource, h]
    · rw [if_neg (by rw [hsource]; decide), if_pos hsource, h]
  clear_value got
  rw [hb]
  dsimp only
  rw [hpage, hwrites, ferryResume_of_none _ hferry]
  rfl

theorem pageRestored_spec (s : State) (r : Refetch) (c va a : Nat) (b : List Byte) :
    (pageRestored s r c va a b).mem = (s.writePage c a b).mem ∧ (pageRestored s r c va a b).cores = s.cores ∧ (pageRestored s r c va a b).atns = s.atns := by
  have hworks : Works s (pageRestored s r c va a b) :=
    (works_writePage ..).trans (((works_bump ..).trans (works_bump ..)).trans (works_of_accesses (accesses_faultLog ..)))
  exact ⟨faultLog_mem .., enginesKept_of_works hworks⟩

/-- What dropping an entry leaves alone. -/
theorem dropRefetch_kept (s : State) (r : Refetch) :
    (s.dropRefetch r).flt.refetch = s.flt.refetch.filter (fun x => !(x.cove = r.cove ∧ x.va = r.va)) ∧ (s.dropRefetch r).mem = s.mem ∧
      (s.dropRefetch r).cores = s.cores ∧ (s.dropRefetch r).atns = s.atns := by
  unfold State.dropRefetch
  dsimp only
  split <;> exact ⟨rfl, rfl, rfl, rfl⟩

theorem refetchOf_of_dropped {s : State} {r : Refetch} {c va : Nat} (hcove : r.cove = c) (hva : r.va = va) : (s.dropRefetch r).refetchOf c va = none := by
  unfold State.refetchOf
  rw [(dropRefetch_kept s r).1, List.find?_eq_none]
  intro x hx
  obtain ⟨_, hp⟩ := List.mem_filter.mp hx
  subst hcove hva
  rw [Bool.not_eq_true', decide_eq_false_iff_not] at hp
  rw [decide_eq_true_iff]
  exact hp

/-! ### A refetch without a source -/

/-- The refetch table and the objects stay. -/
def Reported (s t : State) : Prop := t.flt.refetch = s.flt.refetch ∧ t.objs = s.objs

theorem Reported.trans {s t u : State} (h : Reported s t) (k : Reported t u) : Reported s u := ⟨k.1.trans h.1, k.2.trans h.2⟩

theorem reported_of_signals {s t : State} (h : Signals s t) : Reported s t :=
  ⟨(congrArg (fun x : State => x.flt.refetch) h).trans rfl, (congrArg State.objs h).trans rfl⟩

theorem reported_faultLog (s : State) (kind unit : Nat) (st : Status) (cove addr info : Nat) : Reported s (s.faultLog kind unit st cove addr info) :=
  ⟨faultLog_refetch .., (congrArg State.objs (faultLog_frame ..)).trans rfl⟩

theorem reported_degrade (s : State) (c : Nat) : Reported s (s.degrade c) := by
  unfold State.degrade
  split
  · exact ⟨rfl, rfl⟩
  · have hmarked : Reported s (s.modSeq c fun x => { x with degraded := true }) := ⟨rfl, rfl⟩
    exact ((hmarked.trans (reported_of_signals (signals_fltEvent ..))).trans (reported_of_signals (signals_raiseCove ..))).trans (reported_faultLog ..)

theorem reported_ripple (s : State) (kind st cove key value : Nat) : Reported s (s.ripple kind st cove key value) :=
  ⟨(congrArg (fun x : State => x.flt.refetch) (records_ripple ..)).trans rfl, (congrArg State.objs (records_ripple ..)).trans rfl⟩

/-- The one entry of an object that is lost ends, and the object is LOST. -/
theorem loseObject_of_one {s : State} {r : Refetch} {c : Nat} (href : s.flt.refetch = [r]) (hcove : r.cove = c) (hwait : r.waiters = []) (va : Nat) :
    (s.loseObject c r.obj va).flt.refetch = [] ∧ ((s.loseObject c r.obj va).obj c r.obj).word.state = .lost ∧
      ((s.loseObject c r.obj va).obj c r.obj).word.lastStatus = Status.objectLost.code := by
  subst hcove
  have hone : s.flt.refetch.filter (fun x => x.cove = r.cove ∧ x.obj = r.obj) = [r] := by
    rw [href]
    exact List.filter_cons_of_pos (decide_eq_true ⟨rfl, rfl⟩)
  unfold State.loseObject
  rw [hone]
  extract_lets rs dropped marked logged
  have hdropped : dropped.flt.refetch = [] := by
    have hnone : (s.dropRefetch r).flt.refetch = [] := by
      rw [(dropRefetch_kept s r).1, href]
      exact List.filter_cons_of_neg (by simp)
    have hgone : (s.dropRefetch r).loseWaiters r = s.dropRefetch r := by
      unfold State.loseWaiters
      rw [hwait]
      rfl
    exact (faultLog_refetch ..).trans ((congrArg (fun x : State => x.flt.refetch) hgone).trans hnone)
  have hword := setWord_word_self dropped r.cove r.obj fun w =>
    { w with state := .lost, tier := 0, pend := false, lastStatus := Status.objectLost.code }
  have hmarked : Reported (dropped.loseWord r.cove r.obj) marked := (reported_degrade ..).trans (reported_of_signals (signals_fltEvent ..))
  have hlogged : Reported marked logged := (reported_faultLog ..).trans (reported_ripple ..)
  obtain ⟨hrefetch, hobjs⟩ := hmarked.trans hlogged
  have hobj : (logged.obj r.cove r.obj).word = ((dropped.loseWord r.cove r.obj).obj r.cove r.obj).word :=
    congrArg (fun m : SMap Obj => (SMap.get ({} : Obj) m (16384 * r.cove + r.obj)).word) hobjs
  exact ⟨hrefetch.trans hdropped, congrArg ObjWord.state (hobj.trans hword), congrArg ObjWord.lastStatus (hobj.trans hword)⟩

/-- An entry whose source is not a mirror is not moved to the intake record. -/
theorem moveToIntake_of_one {s : State} {r : Refetch} (href : s.flt.refetch = [r]) (hsource : r.source ≠ 1) : s.moveToIntake = s := by
  have hsame : (s.flt.refetch.map fun r =>
      if r.source = 1 ∧ r.failed ∧ r.outs = 0 ∧ s.hasIntake r.cove r.obj then ({ r with source := 2, failed := false, parts := [] } : Refetch) else r) =
      s.flt.refetch := by
    rw [href, List.map_singleton, if_neg fun h => hsource h.1]
  exact Eq.trans (congrArg (fun l => ({ s with flt := { s.flt with refetch := l } } : State)) hsame) rfl

theorem refetchFail_of_no_source {s : State} {r : Refetch} {c va : Nat} (b : Bool) (href : s.flt.refetch = [r]) (hcove : r.cove = c) (hva : r.va = va)
    (hsource : r.source = 0) (hobj : r.obj < 16384) : s.refetchFail c va b = s.loseObject c r.obj va := by
  have hfind : s.refetchOf c va = some r := by
    unfold State.refetchOf
    rw [href]
    exact List.find?_cons_of_pos (decide_eq_true ⟨hcove, hva⟩)
  unfold State.refetchFail
  rw [moveToIntake_of_one href (by rw [hsource]; decide)]
  dsimp only
  rw [hfind]
  dsimp only
  refine (if_neg ?_).trans (if_pos hobj)
  simp [hsource]

/-! ### Reruns -/

theorem charge_loadCtx (s : State) (res sub act n x : Nat) : (s.charge res sub act n).loadCtx x = s.loadCtx x :=
  loadCtx_of_works (works_of_accesses (accesses_charge ..)) x

/-- The context that reruns the load of an object for one page. -/
def rerunOf (s : State) (r : Refetch) (k : Intake) (tensors : List Byte) : LoadCtx :=
  { cove := r.cove, addr := 0, desc := k.desc, tensors, obj := r.obj, key := if s.recordKeyOk r.cove k then k.key else none, refetch := some [r.va] }

theorem rerunning_of_idle {s : State} (h : ∀ y : Fin 4, ∀ q, s.loadCtx y = some q → q.refetch = none) (c i : Nat) : s.rerunning c i = false := by
  unfold State.rerunning
  rw [List.any_eq_false]
  intro k hk
  obtain ⟨j, hj, rfl⟩ := List.mem_iff_getElem.mp hk
  have hlt : j < 4 := by simpa using hj
  have hctx : s.loadCtx j = s.inl.ctx.toList[j] := by
    unfold State.loadCtx vget
    rw [dif_pos hlt]
    rfl
  rw [← hctx]
  cases hq : s.loadCtx j with
  | none => exact Bool.false_ne_true
  | some q => simp [h ⟨j, hlt⟩ q hq]

theorem rerun_of_record {s : State} {x : Nat} {r : Refetch} {k : Intake} (hfree : s.loadCtx x = none) (href : s.flt.refetch = [r])
    (hsource : r.source = 2) (hidle : ∀ y : Fin 4, ∀ q, s.loadCtx y = some q → q.refetch = none) (hk : (s.obj r.cove r.obj).intake = some k)
    (hwants : s.wantsRerun r = true) :
    ∃ tensors, (∀ b, s.recordTensors r.cove k = .ok b → tensors = b) ∧
      s.rerun x = ((((s.setCtx x (some (rerunOf s r k tensors))).bump (inlOff r.cove 0x60) 1).charge 5 0 0 (ldBytes k.desc)).charge 0 0 0 65536) := by
  have hfind : s.flt.refetch.find? (fun r => s.wantsRerun r && !s.rerunning r.cove r.obj) = some r := by
    rw [href]
    exact List.find?_cons_of_pos (by rw [hwants, rerunning_of_idle hidle]; rfl)
  have hpages : (s.flt.refetch.filter fun y => y.cove = r.cove ∧ y.obj = r.obj ∧ s.wantsRerun y).map (fun y => y.va) = [r.va] := by
    rw [href]
    exact congrArg (List.map fun y : Refetch => y.va) (List.filter_cons_of_pos (decide_eq_true ⟨rfl, rfl, hwants⟩))
  unfold State.rerun
  rw [moveToIntake_of_one href (by rw [hsource]; decide)]
  dsimp only
  rw [hfree, if_neg (by decide), hfind]
  dsimp only
  rw [hk]
  dsimp only
  rw [hpages]
  refine ⟨_, fun b hb => ?_, rfl⟩
  rw [hb]

/-- Settles O34: page moves and refetches are accesses but for their own records, which are written where they begin and end. -/
theorem pageMovesAndRefetches : Obligations.PageMovesAndRefetches := by
  unfold Obligations.PageMovesAndRefetches
  refine ⟨?object, ?stream, ?opens, ?comes, ?fails, ?rerun⟩
  case object =>
    intro s c i d hrun hd hsep hstate hslow hmore
    have hkept (e j : Nat) := obj_of_works (works_movePage s ((s.obj c i).moveAct.getD (s.obj c i).decl.activity) c
      ((s.obj c i).decl.slowDpa (s.obj c i).moved) (d.pageDpa (nth 0 (s.obj c i).pages (s.obj c i).moved))) e j
    have hstep := objMove_of_promoting hd hsep hstate hmore
    obtain ⟨hobj, hne, hframe⟩ := pageMoved_spec (s.movePage ((s.obj c i).moveAct.getD (s.obj c i).decl.activity) c
      ((s.obj c i).decl.slowDpa (s.obj c i).moved) (d.pageDpa (nth 0 (s.obj c i).pages (s.obj c i).moved))) c i
    rw [hkept] at hobj
    exact ⟨_, _, next_of_run hrun hstep, congrArg Obj.moved hobj, (congrArg Obj.word hobj).trans rfl, (congrArg Obj.pages hobj).trans rfl,
      fun e j h => (hne e j h).trans (hkept e j), rfl, hframe⟩
  case stream =>
    intro s e ok deep k n l p hrun hmove hp hk hclean hpick hmore
    exact next_of_run hrun (kvMoveStep_of_demote hmove hp hk hclean hpick hmore)
  case opens =>
    intro s w va i hrun hwaits hnew howner hroom
    obtain ⟨⟨r, hrefetch, hcove, hva, hobj, hw⟩, hopen⟩ := openRefetch_spec s w.cove i va w rfl
    obtain ⟨htable, hctr, hmem, hcores, hatns⟩ := refetchNoted_spec (s.openRefetch w.cove i va w) w va i
    have hjoin : s.poisonWaits.foldl (fun s x => s.joinRefetch x.1 x.2) s = refetchNoted (s.openRefetch w.cove i va w) w va i := by
      rw [hwaits]
      exact joinRefetch_of_new hnew howner hroom
    refine ⟨_, r, next_of_run hrun hjoin, htable.trans hrefetch, hcove, hva, hobj, hw, hctr.trans ?_, hmem.trans ?_, hcores.trans ?_, hatns.trans ?_⟩
    · exact congrArg (· + 1) ((congrArg (fun x : State => x.ctr (blkFLT + 0x40)) hopen).trans rfl)
    · exact (congrArg State.mem hopen).trans rfl
    · exact (congrArg State.cores hopen).trans rfl
    · exact (congrArg State.atns hopen).trans rfl
  case comes =>
    intro s c va a r b hrun hr hgot hferry hwrites hobj ha
    obtain ⟨hcove, hva⟩ : r.cove = c.val ∧ r.va = va := by simpa using List.find?_some hr
    obtain ⟨hmem, hcores, hatns⟩ := pageRestored_spec s r c va a b
    obtain ⟨htable, hmem', hcores', hatns'⟩ := dropRefetch_kept (pageRestored s r c va a b) r
    refine ⟨_, next_of_run hrun (refetchDone_of_page hr hgot hferry hwrites hobj hcove ha), refetchOf_of_dropped hcove hva, hmem'.trans hmem,
      fun k => ?_, fun k => ?_⟩
    · rw [← hcores, ← hcores']
      exact vget_map (Option.map (release c va)) none _ k rfl
    · rw [← hatns, ← hatns']
      exact vget_map (Option.map (release c va)) none _ k rfl
  case fails =>
    intro s c va r b hrun href hcove hva hsource hobj hwait
    exact ⟨_, next_of_run hrun (refetchFail_of_no_source b href hcove hva hsource hobj), loseObject_of_one href hcove hwait va⟩
  case rerun =>
    intro s x r k hrun hwork hfree href hsource hidle hk hwants
    obtain ⟨tensors, hread, hrerun⟩ := rerun_of_record hfree href hsource hidle hk hwants
    refine ⟨_, rerunOf s r k tensors, next_of_run hrun ((if_pos hwork).trans hrerun), ?_, rfl, rfl, rfl, rfl, rfl, hread, fun y hy => ?_, ?_⟩
    · rw [charge_loadCtx, charge_loadCtx]
      exact setCtx_loadCtx_self s x _
    · rw [charge_loadCtx, charge_loadCtx]
      exact setCtx_loadCtx_ne s _ fun h => hy (Fin.ext h)
    · rw [charge_frame, charge_frame]
      rfl

end Sys2Proof.Proofs
end
